-- ==== Sys2Proof/Word.lean ====
section
/-! DEFINITION. The word types of the VF6425 model, the islands of R26, the access codes of R10 and the
shape of a register field (R9, R16, R19). -/
namespace Sys2Proof

/-- One octet. -/
abbrev Byte := BitVec 8
/-- One 32-bit register word (R9). -/
abbrev Word := BitVec 32
/-- A 64-byte command descriptor or 32-byte record read as one little-endian number (R18). -/
abbrev Desc := BitVec 512
/-- Sparse data by key: strictly rising keys, no entry equal to what an unlisted key reads as. -/
abbrev SMap (α : Type) := List (Nat × α)

/-- The islands of R26. Port islands carry their port number 0–63. -/
inductive Island where
  | fabric | umpire | cox | time | edge | key | host | dram | port | debug | aon
  deriving DecidableEq, Repr

/-- Access codes of R10. -/
inductive Acc where
  | rw | ro | rc | w1c | wo | pw | rwl
  deriving DecidableEq, Repr

/-- A field of a register of the register table: bits `hi:lo` of the whole register, its access code, and the
ranges of values it may take (none listed: every value). -/
structure FieldDef where
  hi : Nat
  lo : Nat
  acc : Acc
  ok : List (Nat × Nat)
  deriving DecidableEq, Repr

/-- A field as the model addresses it: the local address of its word (its lower word when it spans two), its
lowest bit there, and its width. -/
structure Fld where
  addr : Nat
  lo : Nat
  w : Nat
  deriving DecidableEq, Repr

end Sys2Proof
end

