-- ==== Sys2Proof/Syntax.lean ====
section
/-! DEFINITION. The commands and events of the block: one constructor of `Instr` per row of spec/opcode_table.json, in
the table's order, and the plain types of their operands. -/
namespace Sys2Proof

/-- Who makes a register access, coded as GLB_ACCESS_ERR.INITIATOR (R366, R348). `cfg` is a configuration TLP of the host:
its address is an offset in the configuration space of the function (R364). -/
inductive Initiator where
  | host
  | cox
  | hfp (peer : Fin 32)
  | jtag
  | cfg
  deriving DecidableEq, Repr

/-- Where a command came from (R377): the local command ring, or a CMD message of an HFP peer with its
transaction tag, its class and the octets that follow the descriptor (R348). -/
inductive CmdSrc where
  | localRing
  | hfp (peer : Fin 32) (tag : BitVec 16) (cls : Fin 4) (extra : List Byte)
  deriving DecidableEq, Repr

/-- The blocks that have a counter-clear register. -/
inductive CntBlock where
  | prt (n : Fin 64)
  | fst | fwd | recorder | ump | lne | gte | heat | tim | edg | rig | hfp | hif | key
  deriving DecidableEq, Repr

/-- What a link start ended with: whether the speed agrees, the role, the PLCA nodes heard in it (bit k for node ID k), the
SQI and the round-trip delay of the cable. -/
structure LinkResult where
  speedOk : Bool
  slave : Bool
  nodes : BitVec 16
  sqi : Fin 8
  rtd : BitVec 16
  deriving DecidableEq, Repr

/-- A frame on its way in: ingress port, the number the port gives it, its octets from the destination address up
to the FCS (excluded) as far as they have arrived, and the quarter nanoseconds since its ingress stamp point (R91). -/
structure FrameIn where
  port : Fin 70
  fid : Nat
  bytes : List Byte
  age : Nat
  deriving DecidableEq, Repr

/-- How a frame ended at the MAC: its FCS verdict, uncorrectable and corrected codewords during it (R94), what the
MAC merge sublayer saw of it: continuation fragments, a bad reassembly, unknown SMDs (R230), the uncorrectable codewords and
invalid code-groups outside any frame since the frame before it (R94), and on a PLCA segment the node that sent it (R95). -/
structure RxVerdict where
  fcsOk : Bool
  phyErrs : Nat
  fecCorr : Nat
  frags : Nat
  assyErr : Bool
  smdErrs : Nat
  idleErrs : Nat := 0
  node : Fin 16 := 0
  deriving DecidableEq, Repr

/-- The units that keep a table image in DRAM (R191, R326, R438). -/
inductive ImgUnit where
  | ump | rig | key
  deriving DecidableEq, Repr

/-- A CAN frame as it completes on the bus (R292, R296): FMT 0 classical, 1 FD, 2 XL; `age` is the nanoseconds since its
start of frame at the RXD ball (R284). -/
structure CanFrame where
  fmt : Fin 3
  ext : Bool
  rtr : Bool
  brs : Bool
  esi : Bool
  id : BitVec 29
  sdt : Byte
  vcid : Byte
  af : Word
  data : List Byte
  age : Nat
  deriving DecidableEq, Repr

/-- The instructions of the JTAG test access port (R517). -/
inductive JtagIr where
  | bypass | idcode | samplePreload | extest
  deriving DecidableEq, Repr

/-- A scan through the test access port: the instruction that it loads, and the bits that go in at TDI, first bit first. -/
structure JtagScan where
  ir : JtagIr
  tdi : List Bool
  deriving DecidableEq, Repr

/-- What a POWER_ON finds VDDIO_EDGE or VDDIO_TIME to be (R507): 1.8 V, 3.3 V, or between 2.2 V and 2.9 V. -/
inductive BankVolt where
  | v18 | v33 | between
  deriving DecidableEq, Repr

/-- An error that the memories of the Rigger show (R328): the table (0 route, 1 PDU or slot, 2 tunnel), the entry, and whether it
is uncorrectable. -/
structure RigUpset where
  table : Fin 3
  index : BitVec 13
  lost : Bool
  deriving DecidableEq, Repr

/-- An error in the slot memory of the key unit (R439): one bit, two bits, or a seal of RRAM that no longer holds. -/
structure SlotUpset where
  slot : BitVec 8
  kind : Fin 3
  deriving DecidableEq, Repr

/-- What the key unit does for an MKPDU that firmware sends (R434): the ICV alone, a SAK drawn into a banked slot and distributed with it,
or one that a peer has distributed taken into a banked slot. -/
inductive MkaStep where
  | icv
  | draw (slot : BitVec 8) (usage : Fin 2) (label : Word)
  | take (slot : BitVec 8) (usage : Fin 2) (label : Word) (wrapped : List Byte)
  deriving DecidableEq, Repr

/-- An MKPDU's CAK slot, its CKN, and what the key unit does for it (R434). -/
structure MkaUse where
  cak : BitVec 8
  ckn : List Byte
  step : MkaStep
  deriving DecidableEq, Repr

/-- The error kinds of EDG_CAN_STATUS.LAST_ERR with the side that saw them, and whether it was seen in the data phase of an XL
frame (R292, R294). -/
structure CanErr where
  code : Fin 8
  tx : Bool
  xlData : Bool := false
  deriving DecidableEq, Repr

/-- An HFP message as the bridge sends or receives it (R332): VER, TYPE, SRC, DST, CLASS, HOPS, SEQ, TAG, LEN and the
octets from offset 16 to the end of the frame. -/
structure HfpMsg where
  ver : Byte
  typ : Byte
  src : Fin 32
  dst : Byte
  cls : Fin 4
  hops : Byte
  seq : Word
  tag : BitVec 16
  len : BitVec 16
  body : List Byte
  deriving DecidableEq, Repr

/-- A register request of several words: read or write, posted or not, its words (a read's length is that of the list), and
whether the byte enables of a TLP's first and last word are all set (R366). -/
structure RemReq where
  write : Bool
  nonPosted : Bool
  words : List Word
  firstBe : Bool := true
  lastBe : Bool := true
  deriving DecidableEq, Repr

/-- The resets of the Host island (R368); a hot reset with the link that trains after it, as lanes and speed code. -/
inductive HostResetKind where
  | perst
  | hotReset (link : Option (Fin 3 × Fin 4))
  | flr | pd7
  deriving DecidableEq, Repr

/-- A ring of R369. -/
inductive Ring where
  | tx (t : Fin 16)
  | rx (r : Fin 16)
  | cmd
  | evt
  deriving DecidableEq, Repr

/-- What the boot configuration in flash says of the bridge (R336): HFP_CFG, HFP_ETYPE, HFP_MAC_LO, HFP_MAC_HI. -/
structure BootHfp where
  cfg : Word
  etype : Word
  macLo : Word
  macHi : Word
  deriving DecidableEq, Repr

/-- What Launch and the start self-test found at a core release (R388, R394, R468), and the boot configuration of the bridge when
it reads correctly (R336). -/
structure ReleaseResult where
  digestOk : Bool
  copyBad : Bool
  missA : Bool
  missB : Bool
  boot : Option BootHfp := none
  deriving DecidableEq, Repr

/-- One step of the block: a command given to it, a register access with a row of its own, or an event at its
pins, timers or lines. Each constructor is one row of the operation table; the docstring gives its rule. -/
inductive Instr where
  /-- REGISTER_WRITE (R38). -/
  | registerWrite (who : Initiator) (addr : Word) (data : Word)
  /-- RC_READ (R10). -/
  | rcRead (who : Initiator) (addr : Word)
  /-- COUNTER_LOW_READ (R94). -/
  | counterLowRead (who : Initiator) (addr : Word)
  /-- CNT_CLEAR (R94). -/
  | cntClear (who : Initiator) (blk : CntBlock)
  /-- SETUP_LOCK (R10). -/
  | setupLock (who : Initiator)
  /-- FAULT_N_HOLD_END (R56). -/
  | faultNHoldEnd
  /-- STAGE (R45). -/
  | stage (src : CmdSrc) (d : Desc)
  /-- COMMIT (R48). -/
  | commit (src : CmdSrc) (d : Desc)
  /-- HEAT_DONE (R49). -/
  | heatDone (us : Word)
  /-- COMMIT_ABORT (R51). -/
  | commitAbort (src : CmdSrc) (d : Desc)
  /-- SWAP (R50). -/
  | swap
  /-- DRAIN_END (R53). -/
  | drainEnd
  /-- HEAT_REPORT (R255). -/
  | heatReport (src : CmdSrc) (d : Desc)
  /-- PORT_ENABLE (R74). -/
  | portEnable (who : Initiator) (n : Fin 64) (value : Word)
  /-- PORT_DISABLE (R74). -/
  | portDisable (who : Initiator) (n : Fin 64) (value : Word)
  /-- LOOPBACK_CHANGE (R60). -/
  | loopbackChange (who : Initiator) (n : Fin 64) (value : Word)
  /-- ANALOG_START_END (R80). -/
  | analogStartEnd (n : Fin 64) (crcOk : Bool) (partner : Bool)
  /-- PARTNER_SIGNAL (R74). -/
  | partnerSignal (n : Fin 64) (agreed : Bool)
  /-- LINK_STATUS_OK (R74). -/
  | linkStatusOk (n : Fin 64) (res : LinkResult)
  /-- LINK_STATUS_FAIL (R84). -/
  | linkStatusFail (n : Fin 64) (partner : Bool)
  /-- HOLD_EXPIRY (R86). -/
  | holdExpiry (n : Fin 64) (partner : Bool)
  /-- HOLD_RETRAIN (R85). -/
  | holdRetrain (n : Fin 64)
  /-- RESUME_PROBE_DONE (R80). -/
  | resumeProbeDone (n : Fin 64) (corr : Fin 257) (rtd : BitVec 16) (page : Bool) (partner : Bool)
  /-- RESUME_LIMIT (R80). -/
  | resumeLimit (n : Fin 64) (partner : Bool)
  /-- SQI_SAMPLE (R89). -/
  | sqiSample (n : Fin 64) (sqi : Fin 8) (phyErrs : Nat := 0) (fecCorr : Nat := 0)
  /-- TC10_SLEEP_REQUEST (R474). -/
  | tc10SleepRequest (n : Fin 64)
  /-- TC10_SLEEP_ACK (R470). -/
  | tc10SleepAck (n : Fin 64)
  /-- TC10_SLEEP_ABORT (R472). -/
  | tc10SleepAbort (n : Fin 64)
  /-- TC10_WAKE (R82). -/
  | tc10Wake (n : Fin 64)
  /-- SEGMENT_ACTIVITY (R83). -/
  | segmentActivity (n : Fin 64)
  /-- DIAG_START (R90). -/
  | diagStart (who : Initiator) (n : Fin 64)
  /-- DIAG_DONE (R90). -/
  | diagDone (n : Fin 64) (result : Fin 5) (distance : BitVec 16)
  /-- MDIO_START (R72). -/
  | mdioStart (who : Initiator) (n : Fin 64) (value : Word)
  /-- MDIO_FRAME_DONE (R72). -/
  | mdioFrameDone (bus : Fin 2) (rdata : BitVec 16)
  /-- PLCA_FOREIGN_BEACON (R70). -/
  | plcaForeignBeacon (n : Fin 64)
  /-- COLLISION (R70). -/
  | collision (n : Fin 64)
  /-- CT_64TH_BYTE (R108). -/
  | ct64thByte (f : FrameIn) (rivals : List (Fin 70))
  /-- CHUNK_OUTGROWN (R110): `bytes` have come in by now, the first of them `age` ago. -/
  | chunkOutgrown (port : Fin 70) (fid : Nat) (bytes : List Byte := []) (age : Nat := 0)
  /-- STREAM_MAX_LEN_EXCEEDED (R198): `bytes` have come in by now, the first of them `age` ago. -/
  | streamMaxLenExceeded (port : Fin 70) (fid : Nat) (bytes : List Byte := []) (age : Nat := 0)
  /-- CLASSIFY (R166). -/
  | classify (f : FrameIn) (whole : Bool)
  /-- FRAME_END (R106). -/
  | frameEnd (f : FrameIn) (v : RxVerdict) (rivals : List (Fin 70))
  /-- DESCRIPTOR_ARRIVAL (R115). -/
  | descriptorArrival (port : Fin 70) (fid : Nat) (rivals : List (Fin 70))
  /-- LANE_SELECT (R208). -/
  | laneSelect (n : Fin 70) (ecc : Fin 3) (delay : Nat)
  /-- TX_END (R118). -/
  | txEnd (n : Fin 70)
  /-- TS_RECORD_RETURN (R275). -/
  | tsRecordReturn (n : Fin 64)
  /-- GATE_BOUNDARY (R216). -/
  | gateBoundary (n : Fin 70)
  /-- GTE_HOLD_WRITE (R219). -/
  | gteHoldWrite (who : Initiator) (n : Fin 70) (value : Word)
  /-- MM_VERIFY_TIMER (R222). -/
  | mmVerifyTimer (n : Fin 32)
  /-- MM_RESPOND (R222). -/
  | mmRespond (n : Fin 32)
  /-- OBS_SAMPLE (R227). -/
  | obsSample
  /-- OBS_CLEAR (R228). -/
  | obsClear (who : Initiator)
  /-- AGE_SWEEP (R141). -/
  | ageSweep
  /-- FWD_AGE_WRITE (R141). -/
  | fwdAgeWrite (who : Initiator) (value : Word)
  /-- FDB_FLUSH (R143). -/
  | fdbFlush (src : CmdSrc) (d : Desc)
  /-- FDB_DUMP (R144). -/
  | fdbDump (src : CmdSrc) (d : Desc)
  /-- REC_ENABLE (R157). -/
  | recEnable (who : Initiator) (value : Word)
  /-- REC_DISABLE (R157). -/
  | recDisable (who : Initiator) (value : Word)
  /-- REC_PAGE_TIMEOUT (R158). -/
  | recPageTimeout
  /-- REC_FREEZE (R163). -/
  | recFreeze (src : CmdSrc) (d : Desc)
  /-- REC_REARM (R163). -/
  | recRearm (src : CmdSrc) (d : Desc)
  /-- REC_READ (R163). -/
  | recRead (src : CmdSrc) (d : Desc)
  /-- DRAM_ENABLE (R164). -/
  | dramEnable (who : Initiator) (value : Word)
  /-- DRAM_TRAIN_DONE (R164). -/
  | dramTrainDone (ok : Bool)
  /-- FST_RUN (R100). -/
  | fstRun (who : Initiator) (value : Word)
  /-- FST_READY (R100). -/
  | fstReady
  /-- SCRUB_STEP (R125). -/
  | scrubStep (ecc : Fin 4)
  /-- PINHOLE_EXPIRY (R185). -/
  | pinholeExpiry
  /-- TCAM_SCAN (R192). -/
  | tcamScan
  /-- PINHOLE_FLUSH (R187). -/
  | pinholeFlush (src : CmdSrc) (d : Desc)
  /-- PINHOLE_DUMP (R187). -/
  | pinholeDump (src : CmdSrc) (d : Desc)
  /-- IMG_ENABLE (R191). -/
  | imgEnable (who : Initiator) (unit : ImgUnit) (value : Word)
  /-- IMAGE_WRITE_DONE (R191). -/
  | imageWriteDone (unit : ImgUnit) (ok : Bool)
  /-- IMAGE_LOAD_DONE (R191). -/
  | imageLoadDone (unit : ImgUnit) (ok : Bool)
  /-- DOMAIN_ENABLE (R257). -/
  | domainEnable (who : Initiator) (d : Fin 4) (value : Word)
  /-- DOMAIN_DISABLE (R257). -/
  | domainDisable (who : Initiator) (d : Fin 4) (value : Word)
  /-- INCR_WRITE (R266). -/
  | incrWrite (who : Initiator) (d : Fin 4) (value : Word)
  /-- SLEW_WRITE (R262). -/
  | slewWrite (who : Initiator) (d : Fin 4) (value : Word)
  /-- TIME_STEP (R263). -/
  | timeStep (who : Initiator) (d : Fin 4) (upper : Word)
  /-- TIME_SET (R261). -/
  | timeSet (who : Initiator) (d : Fin 4) (value : Word)
  /-- HANDOVER (R267). -/
  | handover (who : Initiator) (d : Fin 4)
  /-- TAKEBACK (R269). -/
  | takeback (who : Initiator) (d : Fin 4)
  /-- SERVO_WATCHDOG (R267). -/
  | servoWatchdog (d : Fin 4)
  /-- BUOY_CAPTURE (R282). -/
  | buoyCapture (b : Fin 16) (rising : Bool)
  /-- BUOY_POP (R282). -/
  | buoyPop (who : Initiator) (b : Fin 16)
  /-- LOCK_LOSS (R268). -/
  | lockLoss (d : Fin 4)
  /-- CATCH_ARM (R280). -/
  | catchArm (who : Initiator) (c : Fin 16) (value : Word)
  /-- CATCH_DISARM (R279). -/
  | catchDisarm (who : Initiator) (c : Fin 16) (value : Word)
  /-- CATCH_EDGE (R280). -/
  | catchEdge (c : Fin 16)
  /-- CATCH_PULSE_END (R278). -/
  | catchPulseEnd (c : Fin 16)
  /-- SNAPSHOT_CAPTURE (R291). -/
  | snapshotCapture (who : Initiator)
  /-- TIME_NOW_READ (R291). -/
  | timeNowRead (who : Initiator) (d : Fin 4)
  /-- REANCHOR (R288). -/
  | reanchor (src : CmdSrc) (d : Desc)
  /-- CAN_ENABLE (R294). -/
  | canEnable (who : Initiator) (c : Fin 32) (value : Word)
  /-- CAN_DISABLE (R294). -/
  | canDisable (who : Initiator) (c : Fin 32) (value : Word)
  /-- CAN_RECOVER (R295). -/
  | canRecover (who : Initiator) (c : Fin 32)
  /-- CAN_BUS_IDLE (R294). -/
  | canBusIdle (c : Fin 32)
  /-- CAN_FRAME_RX (R296). -/
  | canFrameRx (c : Fin 32) (f : CanFrame)
  /-- CAN_ERROR (R294). -/
  | canError (c : Fin 32) (e : CanErr)
  /-- CAN_RECOVERY_DONE (R295). -/
  | canRecoveryDone (c : Fin 32)
  /-- CAN_TX_START (R297). -/
  | canTxStart (c : Fin 32)
  /-- CAN_TX_DONE (R297). -/
  | canTxDone (c : Fin 32)
  /-- CAN_TX_DEADLINE (R297). -/
  | canTxDeadline (c : Fin 32)
  /-- LIN_RUN (R299). -/
  | linRun (who : Initiator) (l : Fin 16) (value : Word)
  /-- LIN_STOP (R299). -/
  | linStop (who : Initiator) (l : Fin 16) (value : Word)
  /-- LIN_TABLE_SELECT (R299). -/
  | linTableSelect (who : Initiator) (l : Fin 16) (value : Word)
  /-- LIN_SLOT_START (R299). -/
  | linSlotStart (l : Fin 16)
  /-- LIN_HEADER_RX (R300). -/
  | linHeaderRx (l : Fin 16) (pid : Byte)
  /-- LIN_RESPONSE_RX (R300). -/
  | linResponseRx (l : Fin 16) (data : List Byte) (checksum : Byte) (err : Fin 4) (age : Nat)
  /-- LIN_NO_RESPONSE (R301). -/
  | linNoResponse (l : Fin 16)
  /-- LIN_WAKE (R298). -/
  | linWake (who : Initiator) (l : Fin 16)
  /-- RIG_ETH_RX (R316). -/
  | rigEthRx
  /-- RIG_CYCLIC_TICK (R313). -/
  | rigCyclicTick
  /-- RIG_FRESH_TICK (R311). -/
  | rigFreshTick (upsets : List RigUpset := [])
  /-- ACF_BATCH_TIMEOUT (R318). -/
  | acfBatchTimeout (t : Fin 512)
  /-- HFP_RELAY (R334). -/
  | hfpRelay (port : Fin 64) (m : HfpMsg)
  /-- HELLO (R338). -/
  | hello (port : Fin 64) (mac : BitVec 48) (m : HfpMsg)
  /-- HELLO_TIMER (R337). -/
  | helloTimer
  /-- ADJ_DEAD (R338). -/
  | adjDead (port : Fin 64)
  /-- LSA (R339). -/
  | lsa (port : Fin 64) (m : HfpMsg)
  /-- LSA_TIMER (R339). -/
  | lsaTimer
  /-- LSA_EXPIRE (R339). -/
  | lsaExpire (origin : Fin 32)
  /-- REMOTE_REQUEST (R342). -/
  | remoteRequest (who : Initiator) (addr : Word) (req : RemReq)
  /-- BAR2_ACCESS (R367). -/
  | bar2Access (offset : BitVec 26) (req : RemReq)
  /-- REQUEST_RX (R347). -/
  | requestRx (port : Fin 64) (m : HfpMsg)
  /-- CMD_RX (R348). -/
  | cmdRx (port : Fin 64) (m : HfpMsg)
  /-- CPL (R343). -/
  | cpl (port : Fin 64) (m : HfpMsg)
  /-- CPL_TIMEOUT (R343). -/
  | cplTimeout (peer : Fin 32) (tag : BitVec 16)
  /-- ACK (R344). -/
  | ack (port : Fin 64) (m : HfpMsg)
  /-- ACK_TIMER (R344). -/
  | ackTimer (peer : Fin 32) (cls : Fin 4)
  /-- ACK_TIMEOUT (R344). -/
  | ackTimeout (peer : Fin 32) (cls : Fin 4)
  /-- LATE_ERR (R353). -/
  | lateErr (port : Fin 64) (m : HfpMsg)
  /-- REMOTE_CMD (R348). -/
  | remoteCmd (src : CmdSrc) (d : Desc)
  /-- LOCKED_SEQ (R350). -/
  | lockedSeq (src : CmdSrc) (d : Desc) (cox : Bool := false)
  /-- LOCK_REQ (R351). -/
  | lockReq (port : Fin 64) (m : HfpMsg) (cut : Option (Fin 4) := none)
  /-- LOCK_NAK (R351). -/
  | lockNak (port : Fin 64) (m : HfpMsg)
  /-- LOCK_REL (R350). -/
  | lockRel (port : Fin 64) (m : HfpMsg)
  /-- LOCK_MAX_EXPIRY (R350). -/
  | lockMaxExpiry
  /-- LOCK_BACKOFF_END (R351). -/
  | lockBackoffEnd (cox : Bool := false)
  /-- CLEAR_POISON (R355). -/
  | clearPoison (src : CmdSrc) (d : Desc)
  /-- CMIT_PREPARE (R357). -/
  | cmitPrepare (port : Fin 64) (m : HfpMsg)
  /-- CMIT_VOTE (R357). -/
  | cmitVote (port : Fin 64) (m : HfpMsg)
  /-- CMIT_ARM (R357). -/
  | cmitArm (port : Fin 64) (m : HfpMsg)
  /-- CMIT_ACK (R357). -/
  | cmitAck (port : Fin 64) (m : HfpMsg)
  /-- CMIT_ABORT (R358). -/
  | cmitAbort (port : Fin 64) (m : HfpMsg)
  /-- CMIT_CONFIRM (R459). -/
  | cmitConfirm (port : Fin 64) (m : HfpMsg)
  /-- PREPARE_TIMEOUT (R358). -/
  | prepareTimeout
  /-- ARM_MARGIN_DEADLINE (R358). -/
  | armMarginDeadline
  /-- ABORT_REPEAT (R358). -/
  | abortRepeat
  /-- PHASE2_DROP (R358). -/
  | phase2Drop
  /-- CONFIRM_REPEAT (R459). -/
  | confirmRepeat
  /-- HOST_RESET (R368). -/
  | hostReset (kind : HostResetKind)
  /-- DOORBELL_READ (R371). -/
  | doorbellRead
  /-- KICK (R371). -/
  | kick (who : Initiator)
  /-- TX_DESC_FETCH (R373). -/
  | txDescFetch
  /-- RING_ENABLE (R370). -/
  | ringEnable (who : Initiator) (ring : Ring) (value : Word)
  /-- RING_DISABLE (R370). -/
  | ringDisable (who : Initiator) (ring : Ring) (value : Word)
  /-- CMD_FETCH (R377). -/
  | cmdFetch
  /-- NOP (R380). -/
  | nop (src : CmdSrc) (d : Desc)
  /-- MSIX_HOLDOFF_END (R385). -/
  | msixHoldoffEnd (source : Fin 48)
  /-- LOCKSTEP_MISMATCH (R392). -/
  | lockstepMismatch (outPar : Bool) (inPar : Bool)
  /-- CHECKER_FAULT (R392). -/
  | checkerFault (alone : Option Bool) (outPar : Bool) (inPar : Bool)
  /-- SELFTEST (R394). -/
  | selftest (missA : Bool) (missB : Bool) (otherA : Bool) (otherB : Bool) (outPar : Bool := false) (inPar : Bool := false)
  /-- CORE_RELEASE (R397). -/
  | coreRelease (r : ReleaseResult)
  /-- WDOG_KICK (R402). -/
  | wdogKick (who : Initiator) (w : Fin 2) (value : Word) (ms : Nat)
  /-- WDOG_EXPIRY (R402). -/
  | wdogExpiry (w : Fin 2)
  /-- CLOCK_MON (R403). -/
  | clockMon (m : Fin 9) (persists : Bool)
  /-- SUPPLY_MON (R403). -/
  | supplyMon (rail : Fin 16) (persists : Bool)
  /-- TEMP_MON (R403). -/
  | tempMon (sensorFail : Bool) (tj : Byte) (persists : Bool) (beyond : Nat := 0)
  /-- UNFREEZE (R400). -/
  | unfreeze (who : Initiator)
  /-- COX_MODE (R404). -/
  | coxMode (src : CmdSrc) (d : Desc)
  /-- DEBUG_ATTACH (R406). -/
  | debugAttach (scans : List JtagScan := []) (attach : Bool := true)
  /-- LIFECYCLE (R408). -/
  | lifecycle (src : CmdSrc) (d : Desc)
  /-- OWNER_LOCK (R408). -/
  | ownerLock (src : CmdSrc) (d : Desc)
  /-- INJ_ENABLE (R410). -/
  | injEnable (who : Initiator)
  /-- INJ_DISABLE (R410). -/
  | injDisable (who : Initiator)
  /-- INJ_ARM (R410). -/
  | injArm (who : Initiator) (p : Fin 25) (value : Word)
  /-- KEY_GENERATE (R423). -/
  | keyGenerate (src : CmdSrc) (d : Desc)
  /-- KEY_WRAP (R424). -/
  | keyWrap (src : CmdSrc) (d : Desc) (upsets : List SlotUpset := [])
  /-- KEY_UNWRAP (R424). -/
  | keyUnwrap (src : CmdSrc) (d : Desc) (upsets : List SlotUpset := [])
  /-- KEY_DERIVE (R425). -/
  | keyDerive (src : CmdSrc) (d : Desc) (upsets : List SlotUpset := [])
  /-- KEY_DESTROY (R426). -/
  | keyDestroy (src : CmdSrc) (d : Desc)
  /-- ATTEST (R436). -/
  | attest (src : CmdSrc) (d : Desc)
  /-- RANDOM (R427). -/
  | random (src : CmdSrc) (d : Desc)
  /-- TRNG_HEALTH_FAIL (R421). -/
  | trngHealthFail (apt : Bool)
  /-- TRNG_RETEST (R421). -/
  | trngRetest (who : Initiator) (pass : Bool)
  /-- UPD_LOAD (R453). -/
  | updLoad (src : CmdSrc) (d : Desc)
  /-- UPD_VERIFY (R454). -/
  | updVerify (src : CmdSrc) (d : Desc)
  /-- FLASH_BLOCK_DONE (R447). -/
  | flashBlockDone (ok : Bool)
  /-- UPD_ACTIVATE (R455). -/
  | updActivate (src : CmdSrc) (d : Desc)
  /-- UPD_ACTIVATION (R456). -/
  | updActivation
  /-- HEALTH_CONFIRM (R457). -/
  | healthConfirm (who : Initiator) (value : Word)
  /-- HEALTH_EXPIRY (R457). -/
  | healthExpiry
  /-- UPD_ABORT (R458). -/
  | updAbort (src : CmdSrc) (d : Desc)
  /-- JOURNAL_REPLAY_DONE (R448). -/
  | journalReplayDone
  /-- POWER_STATE (R464). -/
  | powerState (src : CmdSrc) (d : Desc)
  /-- PWR_REQ (R464). -/
  | pwrReq (who : Initiator) (value : Word)
  /-- STAY (R481). -/
  | stay (who : Initiator)
  /-- PWR_DOMAINS_WRITE (R462). -/
  | pwrDomainsWrite (who : Initiator) (feather : Bool) (value : Word)
  /-- DOMAIN_POWER_GOOD (R461); `link`: the PCIe link that trains when PD7 comes up with PERST_N high, as lanes and speed code. -/
  | domainPowerGood (pd : Fin 15) (link : Option (Fin 3 × Fin 4) := none)
  /-- SLEEP_COMMIT (R471). -/
  | sleepCommit (failed : Option (Fin 4))
  /-- SLEEP_POWER_DOWN (R470). -/
  | sleepPowerDown
  /-- SLEEP_TIMEOUT (R470). -/
  | sleepTimeout
  /-- WAKE_IN (R476). -/
  | wakeIn
  /-- WAKE_TIMER (R475). -/
  | wakeTimer
  /-- VEHICLE_STILL_FALL (R475). -/
  | vehicleStillFall
  /-- WAKE_OUT_END (R479). -/
  | wakeOutEnd
  /-- FALSE_WAKE (R481). -/
  | falseWake
  /-- VBAT_SAMPLE (R482). -/
  | vbatSample (mv : BitVec 16) (still : Bool)
  /-- POWER_ON (R484). -/
  | powerOn (edge : BankVolt := .v18) (time : BankVolt := .v18)
  /-- BROWNOUT (R484). -/
  | brownout (rails : List (Fin 16) := [])
  /-- RESET_PIN (R484). -/
  | resetPin
  /-- THERMAL (R484). -/
  | thermal
  /-- JTAG_RESET (R484). -/
  | jtagReset
  /-- DEVICE_RESET (R491). -/
  | deviceReset (src : CmdSrc) (d : Desc)
  /-- ISLAND_READY (R489). -/
  | islandReady
  /-- START_OK (R497). -/
  | startOk (who : Initiator)
  /-- START_TIMEOUT (R497). -/
  | startTimeout
  /-- OPT_PROGRAM (R496). -/
  | optProgram (who : Initiator)
  /-- PERSISTENT_WRITE_DONE (R501). -/
  | persistentWriteDone
  /-- LOG_WORD_WRITE (R501). -/
  | logWordWrite (who : Initiator) (i : Fin 1024) (value : Word)
  /-- LOG_WRITE (R504). -/
  | logWrite (src : CmdSrc) (d : Desc)
  /-- RESET_RELEASE (R488). -/
  | resetRelease
  /-- POWER_LOSS (R487). -/
  | powerLoss
  /-- PERST_N_DEASSERT (R486). -/
  | perstNDeassert (link : Option (Fin 3 × Fin 4))
  /-- COMMAND_DONE (R377). -/
  | commandDone (missA : Bool) (missB : Bool)
  /-- SLEW_DONE (R262). -/
  | slewDone (d : Fin 4)
  /-- PLCA_BEACON_TIMEOUT (R94). -/
  | plcaBeaconTimeout (n : Fin 64)
  /-- SHAPER_REFILL (R211). -/
  | shaperRefill (n : Fin 70)
  /-- DEBUG_DETACH (R406). -/
  | debugDetach
  /-- WAKE_IN_RELEASE (R476). -/
  | wakeInRelease
  /-- XTAL32_FAIL (R514). -/
  | xtal32Fail
  /-- COX_FRAME_TX (R401); `mka` makes the frame an MKPDU with the key unit's part (R434). -/
  | coxFrameTx (bytes : List Byte) (ts : Option (BitVec 16)) (mka : Option MkaUse := none)
  deriving DecidableEq, Repr

end Sys2Proof
end

