-- ==== Sys2Proof/Decode.lean ====
section
/-! DEFINITION. The words of the operation table. The table of this block gives its rows no bits, so no word spells a
command. -/
namespace Sys2Proof

/-- The command that a word of the operation table spells: none, since no row of the table has bits. -/
def decodeTableWord (_nbits _w : Nat) : Option Instr := none

end Sys2Proof
end

