-- ==== Sys2Proof/Config.lean ====
section
/-! DEFINITION. What an implementation fixes and what the spec leaves open: opaque constants, of which no proof can
know anything beyond their type. -/
namespace Sys2Proof

/-- The `n`-th open value of `w` bits (a free value; the log says where each is used). -/
opaque Config.freeValue (w : Nat) : Nat → BitVec w

/-- SHA-512 of a byte string, 64 octets (the standard named by the spec; not restated there). -/
opaque Config.sha512 : List Byte → List Byte

/-- What an octet of DRAM holds after its contents have been lost for the `n`-th time. -/
opaque Config.dramPowerUp (n a : Nat) : Byte

/-- AES-256-GCM encryption: key, IV, additional data, plain text; the cipher text followed by its 16-octet tag. -/
opaque Config.gcmSeal (key iv aad plain : List Byte) : List Byte

/-- AES-256-GCM decryption of cipher text and tag: the plain text when the tag verifies. -/
opaque Config.gcmOpen (key iv aad sealed : List Byte) : Option (List Byte)

/-- AES-256 key wrap with padding (KWP) under a key. -/
opaque Config.kwpWrap (key plain : List Byte) : List Byte

/-- KWP unwrapping: the plain text when the integrity check passes. -/
opaque Config.kwpUnwrap (key wrapped : List Byte) : Option (List Byte)

/-- AES-256-CMAC of a message (R420), and AES-256 key wrap in KW mode with its unwrapping. -/
opaque Config.cmac (key msg : List Byte) : List Byte
opaque Config.kwWrap (key plain : List Byte) : List Byte
opaque Config.kwUnwrap (key wrapped : List Byte) : Option (List Byte)

/-- HKDF-SHA-512: input key, salt, info, octets wanted. -/
opaque Config.hkdf (ikm salt info : List Byte) (n : Nat) : List Byte

/-- The x-coordinate of an ECDH P-521 product, when the point is on the curve. -/
opaque Config.ecdh (priv point : List Byte) : Option (List Byte)

/-- The P-521 public key of a private key, 133 octets. -/
opaque Config.ecPublic (priv : List Byte) : List Byte

/-- The FUSE_SEED of the die (R412) and its GLB_UID. -/
opaque Config.fuseSeed : List Byte
opaque Config.uid : BitVec 64

/-- ECDSA P-521 verification of a message under a public key and a signature. -/
opaque Config.ecdsaVerify (pub msg sig : List Byte) : Bool

/-- ECDSA P-521 signature by a private key with a nonce. -/
opaque Config.ecdsaSign (key nonce msg : List Byte) : List Byte

/-- The fused hash of the Fyzaide release key (R454), and the SHA-512 of the resident Launch (R445). -/
opaque Config.releaseKeyHash : List Byte
opaque Config.launchDigest : List Byte

/-- The error of AON's 32.768 kHz clock during reference tick `tick` in 10^-6, before its limit: of the crystal, or of the RC while the
crystal has failed (R27, R271, R514). -/
opaque Config.aonError (rc : Bool) (tick : Nat) : Int

/-- The error of AON's clock within what R514 allows: ±50 · 10^-6 with the crystal, ±2 % with the RC. -/
def Config.aonPpm (rc : Bool) (tick : Nat) : Int :=
  let lim : Int := if rc then 20000 else 50
  max (-lim) (min lim (Config.aonError rc tick))

/-- The coefficients that a PHY converged to, its echo profile (32 octets) and the base page of the partner, as the `n`-th
open value (R78). -/
opaque Config.phyCoeffs (n : Nat) : List Byte
opaque Config.phyEcho (n : Nat) : List Byte
opaque Config.partnerPage (n : Nat) : BitVec 48

/-- What 64 KiB block `n` of the flash holds when the model's history begins. -/
opaque Config.flashBlock (n : Nat) : List Byte

end Sys2Proof
end

