-- ==== Sys2Proof/Machine/Regs.lean ====
section
/-! DEFINITION. The registers of the set-up space: their names, addresses and fields, from the register
sections of spec/01 to spec/16 and the counter tables (R94, R127, R165, R193, R230, R290, R330, R363, R387, R441). -/

namespace Sys2Proof.Machine

/-- The registers of the set-up space, by the names the manual gives them (R5). -/
inductive Reg where
  | GLB_ID | GLB_REV | GLB_CAP | GLB_UID | GLB_LOCK | GLB_ACCESS_ERR
  | GLB_ACCESS_ADDR | GLB_FAULT | GLB_FAULT_MASK | GLB_CFG_STATE | GLB_STAGED | GLB_COMMIT_SEC
  | GLB_COMMIT_NS | PRT_MODE | PRT_LINK_CFG | PRT_LINK_STATUS | PRT_LINK_EVENT | PRT_SQI
  | PRT_DIAG | PRT_PLCA_CFG | PRT_PLCA_STATUS | PRT_MDIO_CMD | PRT_MDIO_STATUS | PRT_TS_DELAY
  | PRT_RESUME_INFO | PRT_CNT_CLEAR | FST_CTRL | FST_CARVE | FST_STATUS | FST_DP_CFG
  | FST_POOL_INFO | FST_POOL_FREE | FST_POOL_LOW | FST_SHARED | FST_SHARED_USED | FST_HANDLE_FREE
  | FST_HANDLE_LOW | FST_QSEL | FST_QQUOTA | FST_QUSED | FST_QPEAK | FST_SCRUB_CFG
  | FST_ERR_LOC | FST_QUARANTINE | FST_CT_POOL | FST_CNT_CLEAR | FWD_AGE | FWD_FDB_STATUS
  | FWD_SMP_CFG | FWD_SMP_SRC | FWD_PORT_CFG | FWD_PORT_LEARNED | FWD_RES_LIMIT | FWD_CNT_CLEAR
  | REC_DRAM_CFG | REC_DRAM_STATUS | REC_ERR_LOC | REC_BASE | REC_PAGES | REC_CTRL
  | REC_STATUS | REC_HEAD | REC_OLDEST | REC_TRIG_PAGE | REC_TRIG_SEC | REC_TRIG_NS
  | REC_CNT_CLEAR | UMP_CFG | UMP_TRAP | UMP_STATUS | UMP_IMG | UMP_PH_PROFILE
  | UMP_PH_STATUS | UMP_CNT_CLEAR | LNE_OBS_PERIOD | LNE_TRAP_LANE | LNE_PORT_CFG | LNE_PRIO_MAP
  | LNE_LANE_STATUS | LNE_MM_CFG | LNE_MM_STATUS | LNE_CNT_CLEAR | GTE_HOLD | GTE_STATUS
  | GTE_CNT_CLEAR | HEAT_CFG | HEAT_STATUS | HEAT_RUN_TIME | HEAT_RUN_ID | HEAT_PAIRS
  | HEAT_BSEL | HEAT_BOUND | HEAT_BOUND_CHG | HEAT_UNDECL_SKIP | HEAT_CNT_CLEAR | TIM_DOM_CFG
  | TIM_DOM_STATUS | TIM_INCR | TIM_INCR_AVG | TIM_NOW_NS | TIM_NOW_FRAC | TIM_NOW_SEC
  | TIM_SHORT | TIM_SET_SEC | TIM_SET_NS | TIM_SLEW | TIM_SLEW_LEFT | TIM_STEP
  | TIM_JUMP_LIMIT | TIM_REFUSED_OFFSET | TIM_SERVO_CFG | TIM_SERVO_CTRL | TIM_LOCK_ERR | TIM_SNAP_CTRL
  | TIM_SNAP_SEC | TIM_SNAP_NS | TIM_EDGE_CFG | TIM_CNT_CLEAR | TIM_CATCH_CFG | TIM_CATCH_START_SEC
  | TIM_CATCH_START_NS | TIM_CATCH_PERIOD | TIM_CATCH_WIDTH | TIM_CATCH_STATUS | TIM_BUOY_CFG | TIM_BUOY_STATUS
  | TIM_BUOY_HEAD_NS | TIM_BUOY_HEAD_FRAC | TIM_BUOY_HEAD_SEC | TIM_BUOY_POP | EDG_CAN_CTRL | EDG_CAN_NBT
  | EDG_CAN_DBT | EDG_CAN_XL | EDG_CAN_STATUS | EDG_CAN_EVENT | EDG_CAN_LAST_TX | EDG_LIN_CTRL
  | EDG_LIN_SCHED | EDG_LIN_STATUS | EDG_XMODE | EDG_CNT_CLEAR | RIG_CFG | RIG_UDP
  | RIG_IP | RIG_MAC_LO | RIG_MAC_HI | RIG_STATUS | RIG_IMG | RIG_LOAD
  | RIG_BURST | RIG_ERR_LOC | RIG_STALE | RIG_CNT_CLEAR | HFP_CFG | HFP_ETYPE
  | HFP_TAG | HFP_MAC_LO | HFP_MAC_HI | HFP_PORTS | HFP_ACL | HFP_TIMEOUT
  | HFP_COMMIT_CFG | HFP_LOCK_CFG | HFP_FAB_STATUS | HFP_REACH | HFP_FCG | HFP_COMMIT_STATUS
  | HFP_ROUTE | HFP_ADJ | HFP_POISON | HFP_LOCK_STATUS | HFP_REVQ_HEAD | HFP_REVQ_TAIL
  | HFP_CNT_CLEAR | HIF_CTRL | HIF_STATUS | HIF_POLL | HIF_KICK | HIF_DB_BASE
  | HIF_ST_BASE | HIF_CMD_BASE | HIF_EVT_BASE | HIF_CMD_CFG | HIF_EVT_CFG | HIF_RWIN
  | HIF_RX_MAP | HIF_EVT_VEC | HIF_TX_BASE | HIF_RX_BASE | HIF_TX_CFG | HIF_RX_CFG
  | HIF_CNT_CLEAR | COX_STATUS | COX_CTRL | COX_FAULT_INFO | COX_SELFTEST | COX_WDOG_CFG
  | COX_WDOG_KICK | COX_MON | COX_LIFECYCLE | COX_NONCE | COX_RX_DROP | INJ_CTRL
  | INJ_ARM | KEY_STATUS | KEY_IMG | KEY_SLOT_SEL | KEY_SLOT_INFO | KEY_SLOT_LABEL
  | KEY_TRNG | KEY_PORT_STATUS | KEY_SA_PN | KEY_CNT_CLEAR | UPD_STATUS | UPD_CFG
  | UPD_FLASH | UPD_STAGE | UPD_PROGRESS | UPD_HEALTH | UPD_T_SEC | UPD_T_NS
  | UPD_SEQ | UPD_FLOOR | UPD_COND | PWR_STATUS | PWR_CTRL | PWR_REQ_STATUS
  | PWR_CFG | PWR_ACTIVE | PWR_FEATHER | PWR_IMG | PWR_VBAT | PWR_VBAT_CFG
  | WAK_CFG | WAK_SRC_EN | WAK_PORT_EN | WAK_PSLEEP | WAK_FWD_PORTS | WAK_OUT
  | WAK_TIMER | WAK_SOURCE | WAK_STATUS | WAK_COUNT | WAK_SLEEP_REQ_HELD | RST_CAUSE
  | RST_START | OPT_STATUS | OPT_BOOT | OPT_NEW_BOOT | OPT_FLASH | OPT_NEW_FLASH
  | OPT_SEQ | OPT_PROG | LOG_WORD | LOG_WEAR | LOG_STATUS | LOG_FAIL_START
  | LOG_SYS_WEAR | PRT_RX_FRAMES | PRT_RX_OCTETS | PRT_TX_FRAMES | PRT_TX_OCTETS | PRT_RX_FCS_ERR
  | PRT_RX_LEN_ERR | PRT_RX_PHY_ERR | PRT_RX_PAUSE | PRT_FEC_CORR | PRT_LINK_DOWN | PRT_RESUME
  | PRT_PLCA_CNT | PRT_LANE_DISC | FST_SHARED_DROP | FST_DP_DROP | FST_QUOTA_DROP | FST_HANDLE_DROP
  | FST_CT_FALLBACK | FST_MIRROR_SHED | FST_OFF_DROP | FST_ECC_CORR | FST_ECC_UNCORR | FST_HPAR_ERR
  | FST_SCRUB_PASS | FST_ALLOC_DROP | FWD_CT_ABORTED | FWD_CT_OUTGREW | FWD_AGE_DROP | FWD_VLAN_DROP
  | FWD_LEARN_FULL | FWD_LEARN_LIMIT | FWD_SA_CONFLICT | FWD_STATION_MOVE | FWD_OVERSIZE | FWD_MIRROR_SKIP
  | FWD_SMP_FRAMES | FWD_FLOOD | FWD_DA_DROP | FRER_CNT | REC_RECORDS | REC_DROP
  | REC_ECC_CORR | REC_ECC_UNCORR | UMP_OFF_DROP | UMP_DROP | UMP_MISS | UMP_PH_LEARN
  | UMP_PH_HIT | UMP_PH_FULL | UMP_PH_EXPIRE | UMP_TCAM_PAR | UMP_TRAP_CNT | UMP_ZONE_DENY
  | UMP_CNT_OCT | UMP_CNT_FRM | UMP_HIT | UMP_PAT_HIT | LNE_STR_FRAMES | LNE_STR_METER_DROP
  | LNE_STR_OVERSIZE | LNE_RSV_SKIP | LNE_MM_FRAG_TX | LNE_MM_FRAG_RX | LNE_MM_ASSY_ERR | LNE_MM_SMD_ERR
  | LNE_HINT_MISS | GTE_LATE_END | GTE_GUARD_DEFER | LNE_OBS_LAST | LNE_OBS_MIN | LNE_OBS_MAX
  | LNE_OBS_DEPTH | LNE_OBS_MAX_DEPTH | LNE_OBS_BIN | TIM_TS_LOST | TIM_STEP_REFUSED | TIM_LOCK_REJECT
  | TIM_CATCH_PULSES | TIM_CATCH_SKIPPED | TIM_BUOY_LOST | EDG_CAN_RX_FRAMES | EDG_CAN_TX_FRAMES | EDG_CAN_RX_UNMATCHED
  | EDG_CAN_RX_RTR | EDG_CAN_TX_LATE_DROP | EDG_CAN_BUSOFF_DROP | EDG_CAN_BUSOFF_CNT | EDG_CAN_ERR_CNT | EDG_LIN_RX
  | EDG_LIN_TX | EDG_LIN_CHK_ERR | EDG_LIN_NO_RESP | EDG_LIN_FRAME_ERR | RIG_GAP_SKIP | RIG_SAT
  | RIG_INVALID_IN | RIG_STALE_ENTER | RIG_SILENCED | RIG_OVERWRITE | RIG_ETH_UNMATCHED | RIG_CONT_SKIP
  | RIG_CONT_UNMATCHED | RIG_ACF_REJECT | RIG_ACF_XL_SKIP | RIG_ECC_CORR | RIG_ECC_UNCORR | HFP_TX_MSG
  | HFP_RX_MSG | HFP_RX_BAD | HFP_HOP_DROP | HFP_NO_ROUTE | HFP_SEQ_GAP | HFP_LATE_RECORDS
  | HFP_POISONED | HFP_CPL_TIMEOUT | HFP_CPL_LATE | HFP_LOCK_COLLIDE | HFP_LOCK_RETRY | HFP_REVQ_LOST
  | HFP_REVQ | HIF_TX_FRAMES | HIF_TX_DESC_ERR | HIF_RX_FRAMES | HIF_RX_NOBUF | HIF_RX_TRUNC
  | HIF_EVT_LOST | KEY_IN_UNTAGGED_DROP | KEY_IN_BAD_TAG | KEY_IN_NO_SCI | KEY_IN_NOT_USING_SA | KEY_IN_BYPASS
  | KEY_OUT_NO_SA | KEY_OUT_TOO_LONG | KEY_SA_OK | KEY_SA_NOT_VALID | KEY_SA_LATE | KEY_OFF_DROP
  | KEY_ECC_CORR | KEY_ECC_UNCORR
  deriving DecidableEq, Repr

/-- A register of the set-up space: its first address, the strides and counts of its array, its words, its
island, whether AON keeps a shadow of it, whether it is held in fuses or RRAM, its reset value and its fields. -/
structure RegDef where
  reg : Reg
  base : Nat
  dims : List (Nat × Nat)
  words : Nat
  island : Island
  shadow : Bool
  stored : Bool
  reset : Nat
  fields : List FieldDef
  deriving DecidableEq, Repr

/-- Device identity (spec/01_architecture). -/
def GLB_ID : Nat := 0x0
def GLB_ID_DEVICE : Fld := ⟨GLB_ID, 16, 16⟩
def GLB_ID_VENDOR : Fld := ⟨GLB_ID, 0, 16⟩
/-- Silicon revision (spec/01_architecture). -/
def GLB_REV : Nat := 0x4
def GLB_REV_LETTER : Fld := ⟨GLB_REV, 8, 8⟩
def GLB_REV_NUMBER : Fld := ⟨GLB_REV, 0, 8⟩
/-- Capabilities (spec/01_architecture). -/
def GLB_CAP : Nat := 0x8
def GLB_CAP_NLIN : Fld := ⟨GLB_CAP, 27, 5⟩
def GLB_CAP_NCAN : Fld := ⟨GLB_CAP, 21, 6⟩
def GLB_CAP_NZONES : Fld := ⟨GLB_CAP, 16, 5⟩
def GLB_CAP_NDOMAINS : Fld := ⟨GLB_CAP, 12, 4⟩
def GLB_CAP_NINT : Fld := ⟨GLB_CAP, 8, 4⟩
def GLB_CAP_NPORTS : Fld := ⟨GLB_CAP, 0, 8⟩
/-- Die unique identifier (spec/01_architecture). -/
def GLB_UID : Nat := 0x10
def GLB_UID_UID : Fld := ⟨GLB_UID, 0, 64⟩
/-- Set-up lock (spec/01_architecture). -/
def GLB_LOCK : Nat := 0x20
def GLB_LOCK_SETUP_LOCK : Fld := ⟨GLB_LOCK, 0, 1⟩
/-- Access error capture (spec/01_architecture). -/
def GLB_ACCESS_ERR : Nat := 0x30
def GLB_ACCESS_ERR_COUNT : Fld := ⟨GLB_ACCESS_ERR, 24, 8⟩
def GLB_ACCESS_ERR_OVERFLOW : Fld := ⟨GLB_ACCESS_ERR, 16, 1⟩
def GLB_ACCESS_ERR_INITIATOR : Fld := ⟨GLB_ACCESS_ERR, 8, 3⟩
def GLB_ACCESS_ERR_CAUSE : Fld := ⟨GLB_ACCESS_ERR, 1, 4⟩
def GLB_ACCESS_ERR_VALID : Fld := ⟨GLB_ACCESS_ERR, 0, 1⟩
/-- Access error address (spec/01_architecture). -/
def GLB_ACCESS_ADDR : Nat := 0x34
def GLB_ACCESS_ADDR_WRITE : Fld := ⟨GLB_ACCESS_ADDR, 31, 1⟩
def GLB_ACCESS_ADDR_PEER : Fld := ⟨GLB_ACCESS_ADDR, 26, 5⟩
def GLB_ACCESS_ADDR_ADDR : Fld := ⟨GLB_ACCESS_ADDR, 0, 26⟩
/-- Fault status (spec/01_architecture). -/
def GLB_FAULT : Nat := 0x40
def GLB_FAULT_START_PENDING : Fld := ⟨GLB_FAULT, 7, 1⟩
def GLB_FAULT_TEMP : Fld := ⟨GLB_FAULT, 6, 1⟩
def GLB_FAULT_SUPPLY : Fld := ⟨GLB_FAULT, 5, 1⟩
def GLB_FAULT_CLOCK : Fld := ⟨GLB_FAULT, 4, 1⟩
def GLB_FAULT_ECC_UNCORR : Fld := ⟨GLB_FAULT, 3, 1⟩
def GLB_FAULT_WDOG : Fld := ⟨GLB_FAULT, 2, 1⟩
def GLB_FAULT_CHECKER_FAULT : Fld := ⟨GLB_FAULT, 1, 1⟩
def GLB_FAULT_LOCKSTEP_MISMATCH : Fld := ⟨GLB_FAULT, 0, 1⟩
/-- Fault pin mask (spec/01_architecture). -/
def GLB_FAULT_MASK : Nat := 0x44
def GLB_FAULT_MASK_MASK : Fld := ⟨GLB_FAULT_MASK, 2, 5⟩
/-- Commit state (spec/01_architecture). -/
def GLB_CFG_STATE : Nat := 0x50
def GLB_CFG_STATE_COMMIT_ID : Fld := ⟨GLB_CFG_STATE, 16, 16⟩
def GLB_CFG_STATE_EPOCH : Fld := ⟨GLB_CFG_STATE, 3, 1⟩
def GLB_CFG_STATE_TIMED : Fld := ⟨GLB_CFG_STATE, 2, 1⟩
def GLB_CFG_STATE_STATE : Fld := ⟨GLB_CFG_STATE, 0, 2⟩
/-- Staged changes (spec/01_architecture). -/
def GLB_STAGED : Nat := 0x54
def GLB_STAGED_DIRTY : Fld := ⟨GLB_STAGED, 0, 17⟩
/-- Pending swap seconds (spec/01_architecture). -/
def GLB_COMMIT_SEC : Nat := 0x58
def GLB_COMMIT_SEC_SEC : Fld := ⟨GLB_COMMIT_SEC, 0, 48⟩
/-- Pending swap nanoseconds (spec/01_architecture). -/
def GLB_COMMIT_NS : Nat := 0x60
def GLB_COMMIT_NS_NS : Fld := ⟨GLB_COMMIT_NS, 0, 30⟩
/-- Port mode (spec/02_ports_and_line). -/
def PRT_MODE (i : Nat) : Nat := 0x400000 + 0x4000 * i
def PRT_MODE_LOOPBACK (i : Nat) : Fld := ⟨PRT_MODE i, 16, 2⟩
def PRT_MODE_TC10_EN (i : Nat) : Fld := ⟨PRT_MODE i, 12, 1⟩
def PRT_MODE_RS_FEC (i : Nat) : Fld := ⟨PRT_MODE i, 11, 1⟩
def PRT_MODE_AN_EN (i : Nat) : Fld := ⟨PRT_MODE i, 10, 1⟩
def PRT_MODE_ROLE (i : Nat) : Fld := ⟨PRT_MODE i, 8, 2⟩
def PRT_MODE_SPEED (i : Nat) : Fld := ⟨PRT_MODE i, 4, 4⟩
def PRT_MODE_MEDIA (i : Nat) : Fld := ⟨PRT_MODE i, 2, 2⟩
def PRT_MODE_ENABLE (i : Nat) : Fld := ⟨PRT_MODE i, 0, 1⟩
/-- Link settings (spec/02_ports_and_line). -/
def PRT_LINK_CFG (i : Nat) : Nat := 0x400004 + 0x4000 * i
def PRT_LINK_CFG_CORR_MIN (i : Nat) : Fld := ⟨PRT_LINK_CFG i, 24, 8⟩
def PRT_LINK_CFG_SQI_LOW (i : Nat) : Fld := ⟨PRT_LINK_CFG i, 16, 3⟩
def PRT_LINK_CFG_SQI_RESUME_MIN (i : Nat) : Fld := ⟨PRT_LINK_CFG i, 12, 3⟩
def PRT_LINK_CFG_RESUME_EN (i : Nat) : Fld := ⟨PRT_LINK_CFG i, 8, 1⟩
def PRT_LINK_CFG_LINK_HOLD (i : Nat) : Fld := ⟨PRT_LINK_CFG i, 0, 7⟩
/-- Link status (spec/02_ports_and_line). -/
def PRT_LINK_STATUS (i : Nat) : Nat := 0x400008 + 0x4000 * i
def PRT_LINK_STATUS_HOLD_LEFT (i : Nat) : Fld := ⟨PRT_LINK_STATUS i, 16, 7⟩
def PRT_LINK_STATUS_FALLBACK (i : Nat) : Fld := ⟨PRT_LINK_STATUS i, 12, 4⟩
def PRT_LINK_STATUS_SPEED_MISMATCH (i : Nat) : Fld := ⟨PRT_LINK_STATUS i, 10, 1⟩
def PRT_LINK_STATUS_RESUMED (i : Nat) : Fld := ⟨PRT_LINK_STATUS i, 9, 1⟩
def PRT_LINK_STATUS_ROLE_ACTIVE (i : Nat) : Fld := ⟨PRT_LINK_STATUS i, 8, 1⟩
def PRT_LINK_STATUS_SPEED_ACTIVE (i : Nat) : Fld := ⟨PRT_LINK_STATUS i, 4, 4⟩
def PRT_LINK_STATUS_STATE (i : Nat) : Fld := ⟨PRT_LINK_STATUS i, 0, 4⟩
/-- Link events (spec/02_ports_and_line). -/
def PRT_LINK_EVENT (i : Nat) : Nat := 0x40000C + 0x4000 * i
def PRT_LINK_EVENT_SPEED_MISMATCH (i : Nat) : Fld := ⟨PRT_LINK_EVENT i, 6, 1⟩
def PRT_LINK_EVENT_DIAG_DONE (i : Nat) : Fld := ⟨PRT_LINK_EVENT i, 5, 1⟩
def PRT_LINK_EVENT_SQI_LOW (i : Nat) : Fld := ⟨PRT_LINK_EVENT i, 4, 1⟩
def PRT_LINK_EVENT_RESUME_FALLBACK (i : Nat) : Fld := ⟨PRT_LINK_EVENT i, 3, 1⟩
def PRT_LINK_EVENT_HOLD_EXPIRED (i : Nat) : Fld := ⟨PRT_LINK_EVENT i, 2, 1⟩
def PRT_LINK_EVENT_LINK_DOWN (i : Nat) : Fld := ⟨PRT_LINK_EVENT i, 1, 1⟩
def PRT_LINK_EVENT_LINK_UP (i : Nat) : Fld := ⟨PRT_LINK_EVENT i, 0, 1⟩
/-- Signal quality (spec/02_ports_and_line). -/
def PRT_SQI (i : Nat) : Nat := 0x400010 + 0x4000 * i
def PRT_SQI_SQI_MIN (i : Nat) : Fld := ⟨PRT_SQI i, 4, 3⟩
def PRT_SQI_SQI (i : Nat) : Fld := ⟨PRT_SQI i, 0, 3⟩
/-- Cable diagnostic (spec/02_ports_and_line). -/
def PRT_DIAG (i : Nat) : Nat := 0x400014 + 0x4000 * i
def PRT_DIAG_DISTANCE (i : Nat) : Fld := ⟨PRT_DIAG i, 16, 16⟩
def PRT_DIAG_RESULT (i : Nat) : Fld := ⟨PRT_DIAG i, 4, 3⟩
def PRT_DIAG_STATUS (i : Nat) : Fld := ⟨PRT_DIAG i, 1, 2⟩
def PRT_DIAG_START (i : Nat) : Fld := ⟨PRT_DIAG i, 0, 1⟩
/-- settings (spec/02_ports_and_line). -/
def PRT_PLCA_CFG (i : Nat) : Nat := 0x400020 + 0x4000 * i
def PRT_PLCA_CFG_BURST_COUNT (i : Nat) : Fld := ⟨PRT_PLCA_CFG i, 24, 4⟩
def PRT_PLCA_CFG_TO_TIMER (i : Nat) : Fld := ⟨PRT_PLCA_CFG i, 16, 8⟩
def PRT_PLCA_CFG_NODE_COUNT (i : Nat) : Fld := ⟨PRT_PLCA_CFG i, 4, 5⟩
def PRT_PLCA_CFG_NODE_ID (i : Nat) : Fld := ⟨PRT_PLCA_CFG i, 0, 4⟩
/-- status (spec/02_ports_and_line). -/
def PRT_PLCA_STATUS (i : Nat) : Nat := 0x400024 + 0x4000 * i
def PRT_PLCA_STATUS_NODES_SEEN (i : Nat) : Fld := ⟨PRT_PLCA_STATUS i, 8, 5⟩
def PRT_PLCA_STATUS_CONFLICT (i : Nat) : Fld := ⟨PRT_PLCA_STATUS i, 1, 1⟩
def PRT_PLCA_STATUS_PLCA_OK (i : Nat) : Fld := ⟨PRT_PLCA_STATUS i, 0, 1⟩
/-- command (spec/02_ports_and_line). -/
def PRT_MDIO_CMD (i : Nat) : Nat := 0x400030 + 0x4000 * i
def PRT_MDIO_CMD_START (i : Nat) : Fld := ⟨PRT_MDIO_CMD i, 31, 1⟩
def PRT_MDIO_CMD_OP (i : Nat) : Fld := ⟨PRT_MDIO_CMD i, 26, 2⟩
def PRT_MDIO_CMD_PRTAD (i : Nat) : Fld := ⟨PRT_MDIO_CMD i, 21, 5⟩
def PRT_MDIO_CMD_DEVAD (i : Nat) : Fld := ⟨PRT_MDIO_CMD i, 16, 5⟩
def PRT_MDIO_CMD_DATA (i : Nat) : Fld := ⟨PRT_MDIO_CMD i, 0, 16⟩
/-- status (spec/02_ports_and_line). -/
def PRT_MDIO_STATUS (i : Nat) : Nat := 0x400034 + 0x4000 * i
def PRT_MDIO_STATUS_BUSY (i : Nat) : Fld := ⟨PRT_MDIO_STATUS i, 16, 1⟩
def PRT_MDIO_STATUS_RDATA (i : Nat) : Fld := ⟨PRT_MDIO_STATUS i, 0, 16⟩
/-- Board path delay (spec/02_ports_and_line). -/
def PRT_TS_DELAY (i : Nat) : Nat := 0x400040 + 0x4000 * i
def PRT_TS_DELAY_TX_DELAY (i : Nat) : Fld := ⟨PRT_TS_DELAY i, 16, 12⟩
def PRT_TS_DELAY_RX_DELAY (i : Nat) : Fld := ⟨PRT_TS_DELAY i, 0, 12⟩
/-- Stored resume record (spec/02_ports_and_line). -/
def PRT_RESUME_INFO (i : Nat) : Nat := 0x400050 + 0x4000 * i
def PRT_RESUME_INFO_RTD (i : Nat) : Fld := ⟨PRT_RESUME_INFO i, 16, 16⟩
def PRT_RESUME_INFO_TJ (i : Nat) : Fld := ⟨PRT_RESUME_INFO i, 8, 8⟩
def PRT_RESUME_INFO_SPEED (i : Nat) : Fld := ⟨PRT_RESUME_INFO i, 4, 4⟩
def PRT_RESUME_INFO_PARTNER_KNOWN (i : Nat) : Fld := ⟨PRT_RESUME_INFO i, 1, 1⟩
def PRT_RESUME_INFO_VALID (i : Nat) : Fld := ⟨PRT_RESUME_INFO i, 0, 1⟩
/-- Counter clear (spec/02_ports_and_line). -/
def PRT_CNT_CLEAR (i : Nat) : Nat := 0x4001C0 + 0x4000 * i
def PRT_CNT_CLEAR_CLEAR (i : Nat) : Fld := ⟨PRT_CNT_CLEAR i, 0, 1⟩
/-- Frame store control (spec/03_frame_store). -/
def FST_CTRL : Nat := 0x500000
def FST_CTRL_SCRUB_EN : Fld := ⟨FST_CTRL, 1, 1⟩
def FST_CTRL_RUN : Fld := ⟨FST_CTRL, 0, 1⟩
/-- Pool carve (spec/03_frame_store). -/
def FST_CARVE : Nat := 0x500004
def FST_CARVE_P2_GRAN : Fld := ⟨FST_CARVE, 20, 10⟩
def FST_CARVE_P1_GRAN : Fld := ⟨FST_CARVE, 10, 10⟩
def FST_CARVE_P0_GRAN : Fld := ⟨FST_CARVE, 0, 10⟩
/-- Frame store status (spec/03_frame_store). -/
def FST_STATUS : Nat := 0x500008
def FST_STATUS_CARVE_ERR : Fld := ⟨FST_STATUS, 1, 1⟩
def FST_STATUS_READY : Fld := ⟨FST_STATUS, 0, 1⟩
/-- Drop precedence (spec/03_frame_store). -/
def FST_DP_CFG : Nat := 0x500020
def FST_DP_CFG_FRAC : Fld := ⟨FST_DP_CFG, 8, 8⟩
def FST_DP_CFG_DP_LANE : Fld := ⟨FST_DP_CFG, 0, 4⟩
/-- Pool size (spec/03_frame_store). -/
def FST_POOL_INFO (i : Nat) : Nat := 0x500030 + 0x4 * i
def FST_POOL_INFO_QUAR (i : Nat) : Fld := ⟨FST_POOL_INFO i, 20, 10⟩
def FST_POOL_INFO_CHUNKS (i : Nat) : Fld := ⟨FST_POOL_INFO i, 0, 18⟩
/-- Free chunks (spec/03_frame_store). -/
def FST_POOL_FREE (i : Nat) : Nat := 0x500040 + 0x4 * i
def FST_POOL_FREE_FREE (i : Nat) : Fld := ⟨FST_POOL_FREE i, 0, 18⟩
/-- Free low-water mark (spec/03_frame_store). -/
def FST_POOL_LOW (i : Nat) : Nat := 0x500050 + 0x4 * i
def FST_POOL_LOW_LOW (i : Nat) : Fld := ⟨FST_POOL_LOW i, 0, 18⟩
/-- Shared remainder (spec/03_frame_store). -/
def FST_SHARED (i : Nat) : Nat := 0x500060 + 0x4 * i
def FST_SHARED_SHARED (i : Nat) : Fld := ⟨FST_SHARED i, 0, 18⟩
/-- Shared usage (spec/03_frame_store). -/
def FST_SHARED_USED (i : Nat) : Nat := 0x500070 + 0x4 * i
def FST_SHARED_USED_USED (i : Nat) : Fld := ⟨FST_SHARED_USED i, 0, 18⟩
/-- Free handles (spec/03_frame_store). -/
def FST_HANDLE_FREE : Nat := 0x500080
def FST_HANDLE_FREE_FREE : Fld := ⟨FST_HANDLE_FREE, 0, 18⟩
/-- Handle low-water mark (spec/03_frame_store). -/
def FST_HANDLE_LOW : Nat := 0x500084
def FST_HANDLE_LOW_LOW : Fld := ⟨FST_HANDLE_LOW, 0, 18⟩
/-- Quota select (spec/03_frame_store). -/
def FST_QSEL : Nat := 0x500090
def FST_QSEL_POOL : Fld := ⟨FST_QSEL, 8, 2⟩
def FST_QSEL_REQ : Fld := ⟨FST_QSEL, 0, 7⟩
/-- Selected quota (spec/03_frame_store). -/
def FST_QQUOTA : Nat := 0x500094
def FST_QQUOTA_QUOTA : Fld := ⟨FST_QQUOTA, 0, 18⟩
/-- Selected usage (spec/03_frame_store). -/
def FST_QUSED : Nat := 0x500098
def FST_QUSED_USED : Fld := ⟨FST_QUSED, 0, 18⟩
/-- Selected peak usage (spec/03_frame_store). -/
def FST_QPEAK : Nat := 0x50009C
def FST_QPEAK_PEAK : Fld := ⟨FST_QPEAK, 0, 18⟩
/-- Scrub period (spec/03_frame_store). -/
def FST_SCRUB_CFG : Nat := 0x5000A0
def FST_SCRUB_CFG_PERIOD : Fld := ⟨FST_SCRUB_CFG, 0, 10⟩
/-- Error location (spec/03_frame_store). -/
def FST_ERR_LOC : Nat := 0x5000A4
def FST_ERR_LOC_VALID : Fld := ⟨FST_ERR_LOC, 31, 1⟩
def FST_ERR_LOC_OVERFLOW : Fld := ⟨FST_ERR_LOC, 30, 1⟩
def FST_ERR_LOC_KIND : Fld := ⟨FST_ERR_LOC, 29, 1⟩
def FST_ERR_LOC_POOL : Fld := ⟨FST_ERR_LOC, 20, 2⟩
def FST_ERR_LOC_INDEX : Fld := ⟨FST_ERR_LOC, 0, 18⟩
/-- Quarantined resources (spec/03_frame_store). -/
def FST_QUARANTINE : Nat := 0x5000A8
def FST_QUARANTINE_HANDLES : Fld := ⟨FST_QUARANTINE, 16, 10⟩
def FST_QUARANTINE_CHUNKS : Fld := ⟨FST_QUARANTINE, 0, 10⟩
/-- Expected-size pool (spec/03_frame_store). -/
def FST_CT_POOL (i : Nat) : Nat := 0x500100 + 0x4 * i
def FST_CT_POOL_POOL (i : Nat) : Fld := ⟨FST_CT_POOL i, 0, 2⟩
/-- Counter clear (spec/03_frame_store). -/
def FST_CNT_CLEAR : Nat := 0x5002C0
def FST_CNT_CLEAR_CLEAR : Fld := ⟨FST_CNT_CLEAR, 0, 1⟩
/-- Ageing (spec/04_switching_core). -/
def FWD_AGE : Nat := 0x600000
def FWD_AGE_AGE_EN : Fld := ⟨FWD_AGE, 31, 1⟩
def FWD_AGE_AGE_TIME : Fld := ⟨FWD_AGE, 0, 16⟩
/-- Database occupancy (spec/04_switching_core). -/
def FWD_FDB_STATUS : Nat := 0x600004
def FWD_FDB_STATUS_CAM_USED : Fld := ⟨FWD_FDB_STATUS, 20, 9⟩
def FWD_FDB_STATUS_LEARNED : Fld := ⟨FWD_FDB_STATUS, 0, 17⟩
/-- Sampler (spec/04_switching_core). -/
def FWD_SMP_CFG : Nat := 0x600010
def FWD_SMP_CFG_RING : Fld := ⟨FWD_SMP_CFG, 28, 4⟩
def FWD_SMP_CFG_HOST_EN : Fld := ⟨FWD_SMP_CFG, 25, 1⟩
def FWD_SMP_CFG_COX_EN : Fld := ⟨FWD_SMP_CFG, 24, 1⟩
def FWD_SMP_CFG_TRUNC : Fld := ⟨FWD_SMP_CFG, 16, 4⟩
def FWD_SMP_CFG_N : Fld := ⟨FWD_SMP_CFG, 0, 16⟩
/-- Sampler sources (spec/04_switching_core). -/
def FWD_SMP_SRC (i : Nat) : Nat := 0x600014 + 0x4 * i
def FWD_SMP_SRC_PORTS (i : Nat) : Fld := ⟨FWD_SMP_SRC i, 0, 32⟩
/-- Port forwarding settings (spec/04_switching_core). -/
def FWD_PORT_CFG (i : Nat) : Nat := 0x600100 + 0x4 * i
def FWD_PORT_CFG_LEARN_LIMIT (i : Nat) : Fld := ⟨FWD_PORT_CFG i, 16, 16⟩
def FWD_PORT_CFG_SA_LOCK (i : Nat) : Fld := ⟨FWD_PORT_CFG i, 14, 1⟩
def FWD_PORT_CFG_CT_EN (i : Nat) : Fld := ⟨FWD_PORT_CFG i, 13, 1⟩
def FWD_PORT_CFG_LEARN_EN (i : Nat) : Fld := ⟨FWD_PORT_CFG i, 12, 1⟩
def FWD_PORT_CFG_PVID (i : Nat) : Fld := ⟨FWD_PORT_CFG i, 0, 12⟩
/-- Learned entries per port (spec/04_switching_core). -/
def FWD_PORT_LEARNED (i : Nat) : Nat := 0x600300 + 0x4 * i
def FWD_PORT_LEARNED_COUNT (i : Nat) : Fld := ⟨FWD_PORT_LEARNED i, 0, 17⟩
/-- Residence limit (spec/04_switching_core). -/
def FWD_RES_LIMIT (i : Nat) (j : Nat) : Nat := 0x600800 + 0x20 * i + 0x4 * j
def FWD_RES_LIMIT_LIMIT (i : Nat) (j : Nat) : Fld := ⟨FWD_RES_LIMIT i j, 0, 21⟩
/-- Counter clear (spec/04_switching_core). -/
def FWD_CNT_CLEAR : Nat := 0x6024C0
def FWD_CNT_CLEAR_CLEAR : Fld := ⟨FWD_CNT_CLEAR, 0, 1⟩
/-- set-up (spec/04_switching_core). -/
def REC_DRAM_CFG : Nat := 0x1500000
def REC_DRAM_CFG_DENSITY : Fld := ⟨REC_DRAM_CFG, 4, 3⟩
def REC_DRAM_CFG_ENABLE : Fld := ⟨REC_DRAM_CFG, 0, 1⟩
/-- status (spec/04_switching_core). -/
def REC_DRAM_STATUS : Nat := 0x1500004
def REC_DRAM_STATUS_USABLE_MIB : Fld := ⟨REC_DRAM_STATUS, 16, 16⟩
def REC_DRAM_STATUS_TRAIN_ERR : Fld := ⟨REC_DRAM_STATUS, 1, 1⟩
def REC_DRAM_STATUS_READY : Fld := ⟨REC_DRAM_STATUS, 0, 1⟩
/-- error location (spec/04_switching_core). -/
def REC_ERR_LOC : Nat := 0x1500008
def REC_ERR_LOC_VALID : Fld := ⟨REC_ERR_LOC, 31, 1⟩
def REC_ERR_LOC_OVERFLOW : Fld := ⟨REC_ERR_LOC, 30, 1⟩
def REC_ERR_LOC_ADDR : Fld := ⟨REC_ERR_LOC, 0, 28⟩
/-- Region base (spec/04_switching_core). -/
def REC_BASE : Nat := 0x1500010
def REC_BASE_BASE : Fld := ⟨REC_BASE, 0, 13⟩
/-- Region size (spec/04_switching_core). -/
def REC_PAGES : Nat := 0x1500014
def REC_PAGES_PAGES : Fld := ⟨REC_PAGES, 0, 18⟩
/-- Recorder control (spec/04_switching_core). -/
def REC_CTRL : Nat := 0x1500018
def REC_CTRL_POST_PAGES : Fld := ⟨REC_CTRL, 16, 16⟩
def REC_CTRL_BUOY : Fld := ⟨REC_CTRL, 8, 4⟩
def REC_CTRL_TRIG_BUOY : Fld := ⟨REC_CTRL, 5, 1⟩
def REC_CTRL_TRIG_FAULT : Fld := ⟨REC_CTRL, 4, 1⟩
def REC_CTRL_WRAP : Fld := ⟨REC_CTRL, 1, 1⟩
def REC_CTRL_ENABLE : Fld := ⟨REC_CTRL, 0, 1⟩
/-- Recorder status (spec/04_switching_core). -/
def REC_STATUS : Nat := 0x150001C
def REC_STATUS_WRAPPED : Fld := ⟨REC_STATUS, 9, 1⟩
def REC_STATUS_CFG_ERR : Fld := ⟨REC_STATUS, 8, 1⟩
def REC_STATUS_TRIG_SRC : Fld := ⟨REC_STATUS, 4, 3⟩
def REC_STATUS_STATE : Fld := ⟨REC_STATUS, 0, 2⟩
/-- Page indices (spec/04_switching_core). -/
def REC_HEAD : Nat := 0x1500020
def REC_HEAD_PAGE : Fld := ⟨REC_HEAD, 0, 18⟩
/-- Page indices (spec/04_switching_core). -/
def REC_OLDEST : Nat := 0x1500024
def REC_OLDEST_PAGE : Fld := ⟨REC_OLDEST, 0, 18⟩
/-- Page indices (spec/04_switching_core). -/
def REC_TRIG_PAGE : Nat := 0x1500028
def REC_TRIG_PAGE_PAGE : Fld := ⟨REC_TRIG_PAGE, 0, 18⟩
/-- Trigger seconds (spec/04_switching_core). -/
def REC_TRIG_SEC : Nat := 0x1500030
def REC_TRIG_SEC_SEC : Fld := ⟨REC_TRIG_SEC, 0, 48⟩
/-- Trigger nanoseconds (spec/04_switching_core). -/
def REC_TRIG_NS : Nat := 0x1500038
def REC_TRIG_NS_NS : Fld := ⟨REC_TRIG_NS, 0, 30⟩
/-- Counter clear (spec/04_switching_core). -/
def REC_CNT_CLEAR : Nat := 0x15000C0
def REC_CNT_CLEAR_CLEAR : Fld := ⟨REC_CNT_CLEAR, 0, 1⟩
/-- Umpire settings (spec/05_umpire). -/
def UMP_CFG : Nat := 0x800000
def UMP_CFG_PAT_EN : Fld := ⟨UMP_CFG, 5, 1⟩
def UMP_CFG_PH_EN : Fld := ⟨UMP_CFG, 4, 1⟩
def UMP_CFG_LL_DROP : Fld := ⟨UMP_CFG, 3, 1⟩
def UMP_CFG_FRAG_DROP : Fld := ⟨UMP_CFG, 2, 1⟩
def UMP_CFG_ODD_DROP : Fld := ⟨UMP_CFG, 1, 1⟩
def UMP_CFG_MISS_DROP : Fld := ⟨UMP_CFG, 0, 1⟩
/-- Trap enables (spec/05_umpire). -/
def UMP_TRAP : Nat := 0x800004
def UMP_TRAP_HFP : Fld := ⟨UMP_TRAP, 3, 1⟩
def UMP_TRAP_LLDP : Fld := ⟨UMP_TRAP, 2, 1⟩
def UMP_TRAP_EAPOL : Fld := ⟨UMP_TRAP, 1, 1⟩
def UMP_TRAP_GPTP : Fld := ⟨UMP_TRAP, 0, 1⟩
/-- Umpire status (spec/05_umpire). -/
def UMP_STATUS : Nat := 0x800008
def UMP_STATUS_IMG_BUSY : Fld := ⟨UMP_STATUS, 3, 1⟩
def UMP_STATUS_IMG_VALID : Fld := ⟨UMP_STATUS, 2, 1⟩
def UMP_STATUS_CLOSED : Fld := ⟨UMP_STATUS, 1, 1⟩
def UMP_STATUS_READY : Fld := ⟨UMP_STATUS, 0, 1⟩
/-- Table image (spec/05_umpire). -/
def UMP_IMG : Nat := 0x800010
def UMP_IMG_EN : Fld := ⟨UMP_IMG, 31, 1⟩
def UMP_IMG_BASE : Fld := ⟨UMP_IMG, 0, 13⟩
/-- Pinhole timeout profile (spec/05_umpire). -/
def UMP_PH_PROFILE (i : Nat) : Nat := 0x800020 + 0x4 * i
def UMP_PH_PROFILE_IDLE (i : Nat) : Fld := ⟨UMP_PH_PROFILE i, 16, 16⟩
def UMP_PH_PROFILE_CLOSE (i : Nat) : Fld := ⟨UMP_PH_PROFILE i, 0, 8⟩
/-- Pinhole occupancy (spec/05_umpire). -/
def UMP_PH_STATUS : Nat := 0x800030
def UMP_PH_STATUS_USED : Fld := ⟨UMP_PH_STATUS, 0, 15⟩
/-- Counter clear (spec/05_umpire). -/
def UMP_CNT_CLEAR : Nat := 0x802000
def UMP_CNT_CLEAR_CLEAR : Fld := ⟨UMP_CNT_CLEAR, 0, 1⟩
/-- Observation period (spec/06_lanes_gates_policing). -/
def LNE_OBS_PERIOD : Nat := 0xA00000
def LNE_OBS_PERIOD_PERIOD : Fld := ⟨LNE_OBS_PERIOD, 0, 20⟩
/-- Lanes of trapped frames (spec/06_lanes_gates_policing). -/
def LNE_TRAP_LANE : Nat := 0xA00004
def LNE_TRAP_LANE_HFP : Fld := ⟨LNE_TRAP_LANE, 12, 3⟩
def LNE_TRAP_LANE_LLDP : Fld := ⟨LNE_TRAP_LANE, 8, 3⟩
def LNE_TRAP_LANE_EAPOL : Fld := ⟨LNE_TRAP_LANE, 4, 3⟩
def LNE_TRAP_LANE_GPTP : Fld := ⟨LNE_TRAP_LANE, 0, 3⟩
/-- Port priority and observation (spec/06_lanes_gates_policing). -/
def LNE_PORT_CFG (i : Nat) : Nat := 0xA00100 + 0x4 * i
def LNE_PORT_CFG_BIN_WIDTH (i : Nat) : Fld := ⟨LNE_PORT_CFG i, 12, 20⟩
def LNE_PORT_CFG_OBS_EN (i : Nat) : Fld := ⟨LNE_PORT_CFG i, 8, 1⟩
def LNE_PORT_CFG_DEF_PRIO (i : Nat) : Fld := ⟨LNE_PORT_CFG i, 0, 3⟩
/-- Priority to lane (spec/06_lanes_gates_policing). -/
def LNE_PRIO_MAP (i : Nat) : Nat := 0xA00300 + 0x4 * i
def LNE_PRIO_MAP_MAP (i : Nat) : Fld := ⟨LNE_PRIO_MAP i, 0, 24⟩
/-- Active lane service (spec/06_lanes_gates_policing). -/
def LNE_LANE_STATUS (i : Nat) : Nat := 0xA00A00 + 0x4 * i
def LNE_LANE_STATUS_PREEMPT (i : Nat) : Fld := ⟨LNE_LANE_STATUS i, 16, 8⟩
def LNE_LANE_STATUS_STRICT (i : Nat) : Fld := ⟨LNE_LANE_STATUS i, 8, 8⟩
def LNE_LANE_STATUS_RESERVED (i : Nat) : Fld := ⟨LNE_LANE_STATUS i, 0, 8⟩
/-- merge settings (spec/06_lanes_gates_policing). -/
def LNE_MM_CFG (i : Nat) : Nat := 0xA00600 + 0x4 * i
def LNE_MM_CFG_VERIFY_TIME (i : Nat) : Fld := ⟨LNE_MM_CFG i, 8, 7⟩
def LNE_MM_CFG_ADD_FRAG (i : Nat) : Fld := ⟨LNE_MM_CFG i, 4, 2⟩
def LNE_MM_CFG_VERIFY_DIS (i : Nat) : Fld := ⟨LNE_MM_CFG i, 1, 1⟩
def LNE_MM_CFG_MM_EN (i : Nat) : Fld := ⟨LNE_MM_CFG i, 0, 1⟩
/-- merge status (spec/06_lanes_gates_policing). -/
def LNE_MM_STATUS (i : Nat) : Nat := 0xA00680 + 0x4 * i
def LNE_MM_STATUS_ACTIVE (i : Nat) : Fld := ⟨LNE_MM_STATUS i, 4, 1⟩
def LNE_MM_STATUS_VERIFY (i : Nat) : Fld := ⟨LNE_MM_STATUS i, 0, 3⟩
/-- Counter clear (spec/06_lanes_gates_policing). -/
def LNE_CNT_CLEAR : Nat := 0xA00FC0
def LNE_CNT_CLEAR_OBS_CLEAR : Fld := ⟨LNE_CNT_CLEAR, 1, 1⟩
def LNE_CNT_CLEAR_CLEAR : Fld := ⟨LNE_CNT_CLEAR, 0, 1⟩
/-- Lanes held closed (spec/06_lanes_gates_policing). -/
def GTE_HOLD (i : Nat) : Nat := 0xB00000 + 0x4 * i
def GTE_HOLD_LANES (i : Nat) : Fld := ⟨GTE_HOLD i, 0, 8⟩
/-- Gate status (spec/06_lanes_gates_policing). -/
def GTE_STATUS (i : Nat) : Nat := 0xB00200 + 0x4 * i
def GTE_STATUS_INDEX (i : Nat) : Fld := ⟨GTE_STATUS i, 16, 10⟩
def GTE_STATUS_LIST_EN (i : Nat) : Fld := ⟨GTE_STATUS i, 9, 1⟩
def GTE_STATUS_MAC_HELD (i : Nat) : Fld := ⟨GTE_STATUS i, 8, 1⟩
def GTE_STATUS_GATES (i : Nat) : Fld := ⟨GTE_STATUS i, 0, 8⟩
/-- Counter clear (spec/06_lanes_gates_policing). -/
def GTE_CNT_CLEAR : Nat := 0xB00FC0
def GTE_CNT_CLEAR_CLEAR : Fld := ⟨GTE_CNT_CLEAR, 0, 1⟩
/-- Reservation limit (spec/07_heat_admission). -/
def HEAT_CFG : Nat := 0xC00000
def HEAT_CFG_RSV_FRAC : Fld := ⟨HEAT_CFG, 0, 8⟩
/-- Last heat result (spec/07_heat_admission). -/
def HEAT_STATUS : Nat := 0xC00004
def HEAT_STATUS_FIRST_CODE : Fld := ⟨HEAT_STATUS, 24, 8⟩
def HEAT_STATUS_TRUNC : Fld := ⟨HEAT_STATUS, 16, 1⟩
def HEAT_STATUS_RECORDS : Fld := ⟨HEAT_STATUS, 8, 7⟩
def HEAT_STATUS_RESULT : Fld := ⟨HEAT_STATUS, 0, 3⟩
/-- Last heat duration (spec/07_heat_admission). -/
def HEAT_RUN_TIME : Nat := 0xC00008
def HEAT_RUN_TIME_TIME : Fld := ⟨HEAT_RUN_TIME, 0, 32⟩
/-- Last heat tag (spec/07_heat_admission). -/
def HEAT_RUN_ID : Nat := 0xC0000C
def HEAT_RUN_ID_COMMIT_ID : Fld := ⟨HEAT_RUN_ID, 0, 16⟩
/-- Active load (spec/07_heat_admission). -/
def HEAT_PAIRS : Nat := 0xC00010
def HEAT_PAIRS_DECLS : Fld := ⟨HEAT_PAIRS, 17, 11⟩
def HEAT_PAIRS_PAIRS : Fld := ⟨HEAT_PAIRS, 0, 17⟩
/-- Bound select (spec/07_heat_admission). -/
def HEAT_BSEL : Nat := 0xC00020
def HEAT_BSEL_DECL : Fld := ⟨HEAT_BSEL, 16, 10⟩
def HEAT_BSEL_PORT : Fld := ⟨HEAT_BSEL, 0, 7⟩
/-- Selected bound (spec/07_heat_admission). -/
def HEAT_BOUND : Nat := 0xC00024
def HEAT_BOUND_VALID : Fld := ⟨HEAT_BOUND, 31, 1⟩
def HEAT_BOUND_BOUND : Fld := ⟨HEAT_BOUND, 0, 31⟩
/-- Selected changeover bound (spec/07_heat_admission). -/
def HEAT_BOUND_CHG : Nat := 0xC00028
def HEAT_BOUND_CHG_VALID : Fld := ⟨HEAT_BOUND_CHG, 31, 1⟩
def HEAT_BOUND_CHG_BOUND_CHG : Fld := ⟨HEAT_BOUND_CHG, 0, 31⟩
/-- Undeclared copies (spec/07_heat_admission). -/
def HEAT_UNDECL_SKIP : Nat := 0xC00100
def HEAT_UNDECL_SKIP_COUNT : Fld := ⟨HEAT_UNDECL_SKIP, 0, 32⟩
/-- Counter clear (spec/07_heat_admission). -/
def HEAT_CNT_CLEAR : Nat := 0xC001C0
def HEAT_CNT_CLEAR_CLEAR : Fld := ⟨HEAT_CNT_CLEAR, 0, 1⟩
/-- Domain settings (spec/08_network_time). -/
def TIM_DOM_CFG (i : Nat) : Nat := 0xD00000 + 0x100 * i
def TIM_DOM_CFG_SLEW_PPM (i : Nat) : Fld := ⟨TIM_DOM_CFG i, 16, 10⟩
def TIM_DOM_CFG_GPTP_DOMAIN (i : Nat) : Fld := ⟨TIM_DOM_CFG i, 8, 8⟩
def TIM_DOM_CFG_OWNER (i : Nat) : Fld := ⟨TIM_DOM_CFG i, 1, 1⟩
def TIM_DOM_CFG_EN (i : Nat) : Fld := ⟨TIM_DOM_CFG i, 0, 1⟩
/-- Domain status (spec/08_network_time). -/
def TIM_DOM_STATUS (i : Nat) : Nat := 0xD00004 + 0x100 * i
def TIM_DOM_STATUS_STEP_SEQ (i : Nat) : Fld := ⟨TIM_DOM_STATUS i, 14, 2⟩
def TIM_DOM_STATUS_TAKE_CAUSE (i : Nat) : Fld := ⟨TIM_DOM_STATUS i, 8, 4⟩
def TIM_DOM_STATUS_SLEW_BUSY (i : Nat) : Fld := ⟨TIM_DOM_STATUS i, 4, 1⟩
def TIM_DOM_STATUS_JUMP_REFUSED (i : Nat) : Fld := ⟨TIM_DOM_STATUS i, 3, 1⟩
def TIM_DOM_STATUS_STATE (i : Nat) : Fld := ⟨TIM_DOM_STATUS i, 0, 3⟩
/-- Increment (spec/08_network_time). -/
def TIM_INCR (i : Nat) : Nat := 0xD00008 + 0x100 * i
def TIM_INCR_NS (i : Nat) : Fld := ⟨TIM_INCR i, 28, 4⟩
def TIM_INCR_FRAC (i : Nat) : Fld := ⟨TIM_INCR i, 0, 28⟩
/-- Average increment (spec/08_network_time). -/
def TIM_INCR_AVG (i : Nat) : Nat := 0xD0000C + 0x100 * i
def TIM_INCR_AVG_AVG (i : Nat) : Fld := ⟨TIM_INCR_AVG i, 0, 32⟩
/-- Current nanoseconds (spec/08_network_time). -/
def TIM_NOW_NS (i : Nat) : Nat := 0xD00010 + 0x100 * i
def TIM_NOW_NS_NS (i : Nat) : Fld := ⟨TIM_NOW_NS i, 0, 30⟩
/-- Latched fraction (spec/08_network_time). -/
def TIM_NOW_FRAC (i : Nat) : Nat := 0xD00014 + 0x100 * i
def TIM_NOW_FRAC_FRAC (i : Nat) : Fld := ⟨TIM_NOW_FRAC i, 0, 16⟩
/-- Latched seconds (spec/08_network_time). -/
def TIM_NOW_SEC (i : Nat) : Nat := 0xD00018 + 0x100 * i
def TIM_NOW_SEC_SEC (i : Nat) : Fld := ⟨TIM_NOW_SEC i, 0, 48⟩
/-- Current short time (spec/08_network_time). -/
def TIM_SHORT (i : Nat) : Nat := 0xD00020 + 0x100 * i
def TIM_SHORT_SHORT (i : Nat) : Fld := ⟨TIM_SHORT i, 0, 32⟩
/-- Set seconds (spec/08_network_time). -/
def TIM_SET_SEC (i : Nat) : Nat := 0xD00028 + 0x100 * i
def TIM_SET_SEC_SEC (i : Nat) : Fld := ⟨TIM_SET_SEC i, 0, 48⟩
/-- Set nanoseconds (spec/08_network_time). -/
def TIM_SET_NS (i : Nat) : Nat := 0xD00030 + 0x100 * i
def TIM_SET_NS_GO (i : Nat) : Fld := ⟨TIM_SET_NS i, 31, 1⟩
def TIM_SET_NS_NS (i : Nat) : Fld := ⟨TIM_SET_NS i, 0, 30⟩
/-- Slew (spec/08_network_time). -/
def TIM_SLEW (i : Nat) : Nat := 0xD00038 + 0x100 * i
def TIM_SLEW_AMOUNT (i : Nat) : Fld := ⟨TIM_SLEW i, 0, 32⟩
/-- Slew remaining (spec/08_network_time). -/
def TIM_SLEW_LEFT (i : Nat) : Nat := 0xD0003C + 0x100 * i
def TIM_SLEW_LEFT_LEFT (i : Nat) : Fld := ⟨TIM_SLEW_LEFT i, 0, 32⟩
/-- Step (spec/08_network_time). -/
def TIM_STEP (i : Nat) : Nat := 0xD00040 + 0x100 * i
def TIM_STEP_OFFSET (i : Nat) : Fld := ⟨TIM_STEP i, 0, 64⟩
/-- Jump limit (spec/08_network_time). -/
def TIM_JUMP_LIMIT (i : Nat) : Nat := 0xD00048 + 0x100 * i
def TIM_JUMP_LIMIT_LIMIT (i : Nat) : Fld := ⟨TIM_JUMP_LIMIT i, 0, 30⟩
/-- Refused offset (spec/08_network_time). -/
def TIM_REFUSED_OFFSET (i : Nat) : Nat := 0xD00050 + 0x100 * i
def TIM_REFUSED_OFFSET_OFFSET (i : Nat) : Fld := ⟨TIM_REFUSED_OFFSET i, 0, 64⟩
/-- Servo settings (spec/08_network_time). -/
def TIM_SERVO_CFG (i : Nat) : Nat := 0xD00058 + 0x100 * i
def TIM_SERVO_CFG_TIMEOUT (i : Nat) : Fld := ⟨TIM_SERVO_CFG i, 16, 14⟩
def TIM_SERVO_CFG_AVG_LOG (i : Nat) : Fld := ⟨TIM_SERVO_CFG i, 10, 3⟩
def TIM_SERVO_CFG_LOCK_EN (i : Nat) : Fld := ⟨TIM_SERVO_CFG i, 8, 1⟩
def TIM_SERVO_CFG_LOCK_BUOY (i : Nat) : Fld := ⟨TIM_SERVO_CFG i, 0, 4⟩
/-- Servo control (spec/08_network_time). -/
def TIM_SERVO_CTRL (i : Nat) : Nat := 0xD0005C + 0x100 * i
def TIM_SERVO_CTRL_TAKEBACK (i : Nat) : Fld := ⟨TIM_SERVO_CTRL i, 1, 1⟩
def TIM_SERVO_CTRL_HANDOVER (i : Nat) : Fld := ⟨TIM_SERVO_CTRL i, 0, 1⟩
/-- Lock error (spec/08_network_time). -/
def TIM_LOCK_ERR (i : Nat) : Nat := 0xD00060 + 0x100 * i
def TIM_LOCK_ERR_ERR (i : Nat) : Fld := ⟨TIM_LOCK_ERR i, 0, 32⟩
/-- Snapshot control (spec/08_network_time). -/
def TIM_SNAP_CTRL : Nat := 0xD00800
def TIM_SNAP_CTRL_DONE : Fld := ⟨TIM_SNAP_CTRL, 1, 1⟩
def TIM_SNAP_CTRL_CAPTURE : Fld := ⟨TIM_SNAP_CTRL, 0, 1⟩
/-- Snapshot (spec/08_network_time). -/
def TIM_SNAP_SEC (i : Nat) : Nat := 0xD00810 + 0x10 * i
def TIM_SNAP_SEC_SEC (i : Nat) : Fld := ⟨TIM_SNAP_SEC i, 0, 48⟩
/-- Snapshot (spec/08_network_time). -/
def TIM_SNAP_NS (i : Nat) : Nat := 0xD00818 + 0x10 * i
def TIM_SNAP_NS_NS (i : Nat) : Fld := ⟨TIM_SNAP_NS i, 0, 30⟩
/-- Edge stamps (spec/08_network_time). -/
def TIM_EDGE_CFG : Nat := 0xD00880
def TIM_EDGE_CFG_LIN_DELAY : Fld := ⟨TIM_EDGE_CFG, 20, 12⟩
def TIM_EDGE_CFG_CAN_DELAY : Fld := ⟨TIM_EDGE_CFG, 8, 9⟩
def TIM_EDGE_CFG_LIN_DOM : Fld := ⟨TIM_EDGE_CFG, 4, 2⟩
def TIM_EDGE_CFG_CAN_DOM : Fld := ⟨TIM_EDGE_CFG, 0, 2⟩
/-- Counter clear (spec/08_network_time). -/
def TIM_CNT_CLEAR : Nat := 0xD00AC0
def TIM_CNT_CLEAR_CLEAR : Fld := ⟨TIM_CNT_CLEAR, 0, 1⟩
/-- Catch settings (spec/08_network_time). -/
def TIM_CATCH_CFG (i : Nat) : Nat := 0xD01000 + 0x40 * i
def TIM_CATCH_CFG_INVERT (i : Nat) : Fld := ⟨TIM_CATCH_CFG i, 4, 1⟩
def TIM_CATCH_CFG_DOMAIN (i : Nat) : Fld := ⟨TIM_CATCH_CFG i, 2, 2⟩
def TIM_CATCH_CFG_ARM (i : Nat) : Fld := ⟨TIM_CATCH_CFG i, 1, 1⟩
def TIM_CATCH_CFG_EN (i : Nat) : Fld := ⟨TIM_CATCH_CFG i, 0, 1⟩
/-- Catch start (spec/08_network_time). -/
def TIM_CATCH_START_SEC (i : Nat) : Nat := 0xD01008 + 0x40 * i
def TIM_CATCH_START_SEC_SEC (i : Nat) : Fld := ⟨TIM_CATCH_START_SEC i, 0, 48⟩
/-- Catch start (spec/08_network_time). -/
def TIM_CATCH_START_NS (i : Nat) : Nat := 0xD01010 + 0x40 * i
def TIM_CATCH_START_NS_NS (i : Nat) : Fld := ⟨TIM_CATCH_START_NS i, 0, 30⟩
/-- Catch period (spec/08_network_time). -/
def TIM_CATCH_PERIOD (i : Nat) : Nat := 0xD01014 + 0x40 * i
def TIM_CATCH_PERIOD_PERIOD (i : Nat) : Fld := ⟨TIM_CATCH_PERIOD i, 0, 30⟩
/-- Catch width (spec/08_network_time). -/
def TIM_CATCH_WIDTH (i : Nat) : Nat := 0xD01018 + 0x40 * i
def TIM_CATCH_WIDTH_WIDTH (i : Nat) : Fld := ⟨TIM_CATCH_WIDTH i, 0, 29⟩
/-- Catch status (spec/08_network_time). -/
def TIM_CATCH_STATUS (i : Nat) : Nat := 0xD0101C + 0x40 * i
def TIM_CATCH_STATUS_CFG_ERR (i : Nat) : Fld := ⟨TIM_CATCH_STATUS i, 2, 1⟩
def TIM_CATCH_STATUS_MISSED (i : Nat) : Fld := ⟨TIM_CATCH_STATUS i, 1, 1⟩
def TIM_CATCH_STATUS_ACTIVE (i : Nat) : Fld := ⟨TIM_CATCH_STATUS i, 0, 1⟩
/-- Buoy settings (spec/08_network_time). -/
def TIM_BUOY_CFG (i : Nat) : Nat := 0xD02000 + 0x40 * i
def TIM_BUOY_CFG_FILTER (i : Nat) : Fld := ⟨TIM_BUOY_CFG i, 8, 8⟩
def TIM_BUOY_CFG_EVT_EN (i : Nat) : Fld := ⟨TIM_BUOY_CFG i, 6, 1⟩
def TIM_BUOY_CFG_DOMAIN (i : Nat) : Fld := ⟨TIM_BUOY_CFG i, 4, 2⟩
def TIM_BUOY_CFG_EDGE (i : Nat) : Fld := ⟨TIM_BUOY_CFG i, 1, 2⟩
def TIM_BUOY_CFG_EN (i : Nat) : Fld := ⟨TIM_BUOY_CFG i, 0, 1⟩
/-- Buoy status (spec/08_network_time). -/
def TIM_BUOY_STATUS (i : Nat) : Nat := 0xD02004 + 0x40 * i
def TIM_BUOY_STATUS_PIN (i : Nat) : Fld := ⟨TIM_BUOY_STATUS i, 5, 1⟩
def TIM_BUOY_STATUS_OVERFLOW (i : Nat) : Fld := ⟨TIM_BUOY_STATUS i, 4, 1⟩
def TIM_BUOY_STATUS_LEVEL (i : Nat) : Fld := ⟨TIM_BUOY_STATUS i, 0, 4⟩
/-- Head capture (spec/08_network_time). -/
def TIM_BUOY_HEAD_NS (i : Nat) : Nat := 0xD02008 + 0x40 * i
def TIM_BUOY_HEAD_NS_VALID (i : Nat) : Fld := ⟨TIM_BUOY_HEAD_NS i, 31, 1⟩
def TIM_BUOY_HEAD_NS_RISING (i : Nat) : Fld := ⟨TIM_BUOY_HEAD_NS i, 30, 1⟩
def TIM_BUOY_HEAD_NS_NS (i : Nat) : Fld := ⟨TIM_BUOY_HEAD_NS i, 0, 30⟩
/-- Head fraction (spec/08_network_time). -/
def TIM_BUOY_HEAD_FRAC (i : Nat) : Nat := 0xD0200C + 0x40 * i
def TIM_BUOY_HEAD_FRAC_FRAC (i : Nat) : Fld := ⟨TIM_BUOY_HEAD_FRAC i, 0, 16⟩
/-- Head seconds (spec/08_network_time). -/
def TIM_BUOY_HEAD_SEC (i : Nat) : Nat := 0xD02010 + 0x40 * i
def TIM_BUOY_HEAD_SEC_SEC (i : Nat) : Fld := ⟨TIM_BUOY_HEAD_SEC i, 0, 48⟩
/-- advance (spec/08_network_time). -/
def TIM_BUOY_POP (i : Nat) : Nat := 0xD02018 + 0x40 * i
def TIM_BUOY_POP_POP (i : Nat) : Fld := ⟨TIM_BUOY_POP i, 0, 1⟩
/-- control (spec/09_edge_and_rigger). -/
def EDG_CAN_CTRL (i : Nat) : Nat := 0xE00000 + 0x100 * i
def EDG_CAN_CTRL_XL_ERRSIG_OFF (i : Nat) : Fld := ⟨EDG_CAN_CTRL i, 9, 1⟩
def EDG_CAN_CTRL_TMS_EN (i : Nat) : Fld := ⟨EDG_CAN_CTRL i, 8, 1⟩
def EDG_CAN_CTRL_XL_EN (i : Nat) : Fld := ⟨EDG_CAN_CTRL i, 7, 1⟩
def EDG_CAN_CTRL_FD_EN (i : Nat) : Fld := ⟨EDG_CAN_CTRL i, 6, 1⟩
def EDG_CAN_CTRL_RECOVER (i : Nat) : Fld := ⟨EDG_CAN_CTRL i, 4, 1⟩
def EDG_CAN_CTRL_AUTO_RECOVER (i : Nat) : Fld := ⟨EDG_CAN_CTRL i, 3, 1⟩
def EDG_CAN_CTRL_MODE (i : Nat) : Fld := ⟨EDG_CAN_CTRL i, 1, 2⟩
def EDG_CAN_CTRL_ENABLE (i : Nat) : Fld := ⟨EDG_CAN_CTRL i, 0, 1⟩
/-- Nominal bit timing (spec/09_edge_and_rigger). -/
def EDG_CAN_NBT (i : Nat) : Nat := 0xE00004 + 0x100 * i
def EDG_CAN_NBT_NSJW (i : Nat) : Fld := ⟨EDG_CAN_NBT i, 24, 7⟩
def EDG_CAN_NBT_NTSEG2 (i : Nat) : Fld := ⟨EDG_CAN_NBT i, 17, 7⟩
def EDG_CAN_NBT_NTSEG1 (i : Nat) : Fld := ⟨EDG_CAN_NBT i, 8, 9⟩
def EDG_CAN_NBT_NBRP (i : Nat) : Fld := ⟨EDG_CAN_NBT i, 0, 6⟩
/-- Data bit timing (spec/09_edge_and_rigger). -/
def EDG_CAN_DBT (i : Nat) : Nat := 0xE00008 + 0x100 * i
def EDG_CAN_DBT_DSJW (i : Nat) : Fld := ⟨EDG_CAN_DBT i, 24, 5⟩
def EDG_CAN_DBT_DTSEG2 (i : Nat) : Fld := ⟨EDG_CAN_DBT i, 16, 5⟩
def EDG_CAN_DBT_DTSEG1 (i : Nat) : Fld := ⟨EDG_CAN_DBT i, 8, 6⟩
def EDG_CAN_DBT_DBRP (i : Nat) : Fld := ⟨EDG_CAN_DBT i, 0, 6⟩
/-- Delay compensation and PWM (spec/09_edge_and_rigger). -/
def EDG_CAN_XL (i : Nat) : Nat := 0xE0000C + 0x100 * i
def EDG_CAN_XL_PWMO (i : Nat) : Fld := ⟨EDG_CAN_XL i, 24, 6⟩
def EDG_CAN_XL_PWML (i : Nat) : Fld := ⟨EDG_CAN_XL i, 16, 6⟩
def EDG_CAN_XL_PWMS (i : Nat) : Fld := ⟨EDG_CAN_XL i, 8, 6⟩
def EDG_CAN_XL_TDC_EN (i : Nat) : Fld := ⟨EDG_CAN_XL i, 7, 1⟩
def EDG_CAN_XL_TDCO (i : Nat) : Fld := ⟨EDG_CAN_XL i, 0, 7⟩
/-- status (spec/09_edge_and_rigger). -/
def EDG_CAN_STATUS (i : Nat) : Nat := 0xE00010 + 0x100 * i
def EDG_CAN_STATUS_LAST_ERR (i : Nat) : Fld := ⟨EDG_CAN_STATUS i, 24, 3⟩
def EDG_CAN_STATUS_REC (i : Nat) : Fld := ⟨EDG_CAN_STATUS i, 16, 7⟩
def EDG_CAN_STATUS_TEC (i : Nat) : Fld := ⟨EDG_CAN_STATUS i, 8, 8⟩
def EDG_CAN_STATUS_STATE (i : Nat) : Fld := ⟨EDG_CAN_STATUS i, 0, 3⟩
/-- events (spec/09_edge_and_rigger). -/
def EDG_CAN_EVENT (i : Nat) : Nat := 0xE00014 + 0x100 * i
def EDG_CAN_EVENT_PROTOCOL_EXC (i : Nat) : Fld := ⟨EDG_CAN_EVENT i, 3, 1⟩
def EDG_CAN_EVENT_RECOVERED (i : Nat) : Fld := ⟨EDG_CAN_EVENT i, 2, 1⟩
def EDG_CAN_EVENT_ERR_PASSIVE (i : Nat) : Fld := ⟨EDG_CAN_EVENT i, 1, 1⟩
def EDG_CAN_EVENT_BUS_OFF (i : Nat) : Fld := ⟨EDG_CAN_EVENT i, 0, 1⟩
/-- Last transmit stamp (spec/09_edge_and_rigger). -/
def EDG_CAN_LAST_TX (i : Nat) : Nat := 0xE00018 + 0x100 * i
def EDG_CAN_LAST_TX_SHORT (i : Nat) : Fld := ⟨EDG_CAN_LAST_TX i, 0, 32⟩
/-- control (spec/09_edge_and_rigger). -/
def EDG_LIN_CTRL (i : Nat) : Nat := 0xE04000 + 0x100 * i
def EDG_LIN_CTRL_BAUD (i : Nat) : Fld := ⟨EDG_LIN_CTRL i, 16, 15⟩
def EDG_LIN_CTRL_BREAK_LEN (i : Nat) : Fld := ⟨EDG_LIN_CTRL i, 8, 5⟩
def EDG_LIN_CTRL_WAKE (i : Nat) : Fld := ⟨EDG_LIN_CTRL i, 3, 1⟩
def EDG_LIN_CTRL_RUN (i : Nat) : Fld := ⟨EDG_LIN_CTRL i, 2, 1⟩
def EDG_LIN_CTRL_ROLE (i : Nat) : Fld := ⟨EDG_LIN_CTRL i, 1, 1⟩
def EDG_LIN_CTRL_ENABLE (i : Nat) : Fld := ⟨EDG_LIN_CTRL i, 0, 1⟩
/-- Schedule selection (spec/09_edge_and_rigger). -/
def EDG_LIN_SCHED (i : Nat) : Nat := 0xE04004 + 0x100 * i
def EDG_LIN_SCHED_SLOT (i : Nat) : Fld := ⟨EDG_LIN_SCHED i, 8, 6⟩
def EDG_LIN_SCHED_ACTIVE (i : Nat) : Fld := ⟨EDG_LIN_SCHED i, 4, 2⟩
def EDG_LIN_SCHED_TABLE (i : Nat) : Fld := ⟨EDG_LIN_SCHED i, 0, 2⟩
/-- status (spec/09_edge_and_rigger). -/
def EDG_LIN_STATUS (i : Nat) : Nat := 0xE04008 + 0x100 * i
def EDG_LIN_STATUS_LAST_ERR (i : Nat) : Fld := ⟨EDG_LIN_STATUS i, 4, 3⟩
def EDG_LIN_STATUS_STATE (i : Nat) : Fld := ⟨EDG_LIN_STATUS i, 0, 2⟩
/-- Transceiver mode pins (spec/09_edge_and_rigger). -/
def EDG_XMODE : Nat := 0xE06000
def EDG_XMODE_LEVEL : Fld := ⟨EDG_XMODE, 0, 8⟩
/-- Counter clear (spec/09_edge_and_rigger). -/
def EDG_CNT_CLEAR : Nat := 0xE06FC0
def EDG_CNT_CLEAR_CLEAR : Fld := ⟨EDG_CNT_CLEAR, 0, 1⟩
/-- Rigger settings (spec/09_edge_and_rigger). -/
def RIG_CFG : Nat := 0xF00000
def RIG_CFG_ETYPE : Fld := ⟨RIG_CFG, 16, 16⟩
def RIG_CFG_ENABLE : Fld := ⟨RIG_CFG, 0, 1⟩
/-- port (spec/09_edge_and_rigger). -/
def RIG_UDP : Nat := 0xF00004
def RIG_UDP_PORT : Fld := ⟨RIG_UDP, 0, 16⟩
/-- IPv4 address (spec/09_edge_and_rigger). -/
def RIG_IP : Nat := 0xF00008
def RIG_IP_ADDR : Fld := ⟨RIG_IP, 0, 32⟩
/-- Rigger address (spec/09_edge_and_rigger). -/
def RIG_MAC_LO : Nat := 0xF0000C
def RIG_MAC_LO_LO : Fld := ⟨RIG_MAC_LO, 0, 32⟩
/-- Rigger address (spec/09_edge_and_rigger). -/
def RIG_MAC_HI : Nat := 0xF00010
def RIG_MAC_HI_HI : Fld := ⟨RIG_MAC_HI, 0, 16⟩
/-- Rigger status (spec/09_edge_and_rigger). -/
def RIG_STATUS : Nat := 0xF00014
def RIG_STATUS_IMG_BUSY : Fld := ⟨RIG_STATUS, 3, 1⟩
def RIG_STATUS_IMG_VALID : Fld := ⟨RIG_STATUS, 2, 1⟩
def RIG_STATUS_CLOSED : Fld := ⟨RIG_STATUS, 1, 1⟩
def RIG_STATUS_READY : Fld := ⟨RIG_STATUS, 0, 1⟩
/-- Table image (spec/09_edge_and_rigger). -/
def RIG_IMG : Nat := 0xF00018
def RIG_IMG_EN : Fld := ⟨RIG_IMG, 31, 1⟩
def RIG_IMG_BASE : Fld := ⟨RIG_IMG, 0, 13⟩
/-- Operation rate (spec/09_edge_and_rigger). -/
def RIG_LOAD : Nat := 0xF00020
def RIG_LOAD_STAGED : Fld := ⟨RIG_LOAD, 16, 16⟩
def RIG_LOAD_ACTIVE : Fld := ⟨RIG_LOAD, 0, 16⟩
/-- Operation burst (spec/09_edge_and_rigger). -/
def RIG_BURST : Nat := 0xF00024
def RIG_BURST_STAGED : Fld := ⟨RIG_BURST, 16, 16⟩
def RIG_BURST_ACTIVE : Fld := ⟨RIG_BURST, 0, 16⟩
/-- Error location (spec/09_edge_and_rigger). -/
def RIG_ERR_LOC : Nat := 0xF00028
def RIG_ERR_LOC_VALID : Fld := ⟨RIG_ERR_LOC, 31, 1⟩
def RIG_ERR_LOC_OVERFLOW : Fld := ⟨RIG_ERR_LOC, 30, 1⟩
def RIG_ERR_LOC_TABLE : Fld := ⟨RIG_ERR_LOC, 28, 2⟩
def RIG_ERR_LOC_INDEX : Fld := ⟨RIG_ERR_LOC, 0, 13⟩
/-- Stale routes (spec/09_edge_and_rigger). -/
def RIG_STALE (i : Nat) : Nat := 0xF01000 + 0x4 * i
def RIG_STALE_ROUTES (i : Nat) : Fld := ⟨RIG_STALE i, 0, 32⟩
/-- Counter clear (spec/09_edge_and_rigger). -/
def RIG_CNT_CLEAR : Nat := 0xF000C0
def RIG_CNT_CLEAR_CLEAR : Fld := ⟨RIG_CNT_CLEAR, 0, 1⟩
/-- Fabric settings (spec/10_fabric_and_bridge). -/
def HFP_CFG : Nat := 0x1000000
def HFP_CFG_HELLO_MS : Fld := ⟨HFP_CFG, 24, 8⟩
def HFP_CFG_DEPUTY_ID : Fld := ⟨HFP_CFG, 16, 5⟩
def HFP_CFG_ANCHOR_ID : Fld := ⟨HFP_CFG, 8, 5⟩
def HFP_CFG_EN : Fld := ⟨HFP_CFG, 5, 1⟩
def HFP_CFG_ID : Fld := ⟨HFP_CFG, 0, 5⟩
/-- EtherType (spec/10_fabric_and_bridge). -/
def HFP_ETYPE : Nat := 0x1000004
def HFP_ETYPE_ETYPE : Fld := ⟨HFP_ETYPE, 0, 16⟩
/-- Tag settings (spec/10_fabric_and_bridge). -/
def HFP_TAG : Nat := 0x1000008
def HFP_TAG_PCP_PRIV : Fld := ⟨HFP_TAG, 16, 3⟩
def HFP_TAG_PCP_ORD : Fld := ⟨HFP_TAG, 12, 3⟩
def HFP_TAG_VID : Fld := ⟨HFP_TAG, 0, 12⟩
/-- Device address (spec/10_fabric_and_bridge). -/
def HFP_MAC_LO : Nat := 0x100000C
def HFP_MAC_LO_LO : Fld := ⟨HFP_MAC_LO, 0, 32⟩
/-- Device address (spec/10_fabric_and_bridge). -/
def HFP_MAC_HI : Nat := 0x1000010
def HFP_MAC_HI_HI : Fld := ⟨HFP_MAC_HI, 0, 16⟩
/-- ports (spec/10_fabric_and_bridge). -/
def HFP_PORTS (i : Nat) : Nat := 0x1000014 + 0x4 * i
def HFP_PORTS_PORTS (i : Nat) : Fld := ⟨HFP_PORTS i, 0, 32⟩
/-- Write permission (spec/10_fabric_and_bridge). -/
def HFP_ACL : Nat := 0x100001C
def HFP_ACL_PEERS : Fld := ⟨HFP_ACL, 0, 32⟩
/-- Completion timeouts (spec/10_fabric_and_bridge). -/
def HFP_TIMEOUT : Nat := 0x1000020
def HFP_TIMEOUT_CPL_TIMEOUT : Fld := ⟨HFP_TIMEOUT, 16, 16⟩
def HFP_TIMEOUT_ACK_TIMEOUT : Fld := ⟨HFP_TIMEOUT, 0, 16⟩
/-- Fabric commit timing (spec/10_fabric_and_bridge). -/
def HFP_COMMIT_CFG : Nat := 0x1000024
def HFP_COMMIT_CFG_PREPARE_TIMEOUT : Fld := ⟨HFP_COMMIT_CFG, 16, 16⟩
def HFP_COMMIT_CFG_ARM_MARGIN : Fld := ⟨HFP_COMMIT_CFG, 0, 16⟩
/-- Lock limit (spec/10_fabric_and_bridge). -/
def HFP_LOCK_CFG : Nat := 0x1000028
def HFP_LOCK_CFG_LOCK_MAX : Fld := ⟨HFP_LOCK_CFG, 0, 16⟩
/-- Fabric status (spec/10_fabric_and_bridge). -/
def HFP_FAB_STATUS : Nat := 0x1000040
def HFP_FAB_STATUS_MEMBERS : Fld := ⟨HFP_FAB_STATUS, 24, 8⟩
def HFP_FAB_STATUS_AUTH_ID : Fld := ⟨HFP_FAB_STATUS, 16, 5⟩
def HFP_FAB_STATUS_AUTH_VALID : Fld := ⟨HFP_FAB_STATUS, 15, 1⟩
def HFP_FAB_STATUS_DIVERGED : Fld := ⟨HFP_FAB_STATUS, 10, 1⟩
def HFP_FAB_STATUS_TIME_HELD : Fld := ⟨HFP_FAB_STATUS, 9, 1⟩
def HFP_FAB_STATUS_ADRIFT : Fld := ⟨HFP_FAB_STATUS, 8, 1⟩
def HFP_FAB_STATUS_ROLE : Fld := ⟨HFP_FAB_STATUS, 0, 2⟩
/-- Partition (spec/10_fabric_and_bridge). -/
def HFP_REACH : Nat := 0x1000044
def HFP_REACH_PEERS : Fld := ⟨HFP_REACH, 0, 32⟩
/-- Configuration generation (spec/10_fabric_and_bridge). -/
def HFP_FCG : Nat := 0x1000048
def HFP_FCG_GEN : Fld := ⟨HFP_FCG, 0, 32⟩
/-- Fabric commit status (spec/10_fabric_and_bridge). -/
def HFP_COMMIT_STATUS : Nat := 0x100004C
def HFP_COMMIT_STATUS_COMMIT_ID : Fld := ⟨HFP_COMMIT_STATUS, 16, 16⟩
def HFP_COMMIT_STATUS_PEER : Fld := ⟨HFP_COMMIT_STATUS, 8, 5⟩
def HFP_COMMIT_STATUS_RESULT : Fld := ⟨HFP_COMMIT_STATUS, 4, 3⟩
def HFP_COMMIT_STATUS_PHASE : Fld := ⟨HFP_COMMIT_STATUS, 0, 3⟩
/-- Route to a device (spec/10_fabric_and_bridge). -/
def HFP_ROUTE (i : Nat) : Nat := 0x1000100 + 0x4 * i
def HFP_ROUTE_VALID (i : Nat) : Fld := ⟨HFP_ROUTE i, 31, 1⟩
def HFP_ROUTE_HOPS (i : Nat) : Fld := ⟨HFP_ROUTE i, 24, 5⟩
def HFP_ROUTE_PORT (i : Nat) : Fld := ⟨HFP_ROUTE i, 16, 8⟩
def HFP_ROUTE_COST (i : Nat) : Fld := ⟨HFP_ROUTE i, 0, 16⟩
/-- Adjacency (spec/10_fabric_and_bridge). -/
def HFP_ADJ (i : Nat) : Nat := 0x1000200 + 0x4 * i
def HFP_ADJ_COST (i : Nat) : Fld := ⟨HFP_ADJ i, 16, 16⟩
def HFP_ADJ_NEIGHBOR (i : Nat) : Fld := ⟨HFP_ADJ i, 8, 5⟩
def HFP_ADJ_STATE (i : Nat) : Fld := ⟨HFP_ADJ i, 0, 3⟩
/-- Poisoned peers (spec/10_fabric_and_bridge). -/
def HFP_POISON (i : Nat) : Nat := 0x1000300 + 0x4 * i
def HFP_POISON_PEERS (i : Nat) : Fld := ⟨HFP_POISON i, 0, 32⟩
/-- Lock status (spec/10_fabric_and_bridge). -/
def HFP_LOCK_STATUS : Nat := 0x1000310
def HFP_LOCK_STATUS_FAR_HELD : Fld := ⟨HFP_LOCK_STATUS, 31, 1⟩
def HFP_LOCK_STATUS_HOLDER : Fld := ⟨HFP_LOCK_STATUS, 24, 5⟩
def HFP_LOCK_STATUS_OUT_ACTIVE : Fld := ⟨HFP_LOCK_STATUS, 23, 1⟩
def HFP_LOCK_STATUS_BACKOFF_COX : Fld := ⟨HFP_LOCK_STATUS, 8, 8⟩
def HFP_LOCK_STATUS_BACKOFF_HOST : Fld := ⟨HFP_LOCK_STATUS, 0, 8⟩
/-- Remote event queue (spec/10_fabric_and_bridge). -/
def HFP_REVQ_HEAD : Nat := 0x1000400
def HFP_REVQ_HEAD_INDEX : Fld := ⟨HFP_REVQ_HEAD, 0, 8⟩
/-- Remote event queue (spec/10_fabric_and_bridge). -/
def HFP_REVQ_TAIL : Nat := 0x1000404
def HFP_REVQ_TAIL_INDEX : Fld := ⟨HFP_REVQ_TAIL, 0, 8⟩
/-- Counter clear (spec/10_fabric_and_bridge). -/
def HFP_CNT_CLEAR : Nat := 0x10005C0
def HFP_CNT_CLEAR_CLEAR : Fld := ⟨HFP_CNT_CLEAR, 0, 1⟩
/-- Host interface control (spec/11_host_interface). -/
def HIF_CTRL : Nat := 0x300000
def HIF_CTRL_ENABLE : Fld := ⟨HIF_CTRL, 0, 1⟩
/-- Host interface status (spec/11_host_interface). -/
def HIF_STATUS : Nat := 0x300004
def HIF_STATUS_CMD_OPCODE : Fld := ⟨HIF_STATUS, 16, 8⟩
def HIF_STATUS_CMD_RUNNING : Fld := ⟨HIF_STATUS, 9, 1⟩
def HIF_STATUS_LINK_UP : Fld := ⟨HIF_STATUS, 8, 1⟩
def HIF_STATUS_WIDTH : Fld := ⟨HIF_STATUS, 4, 4⟩
def HIF_STATUS_SPEED : Fld := ⟨HIF_STATUS, 0, 4⟩
/-- Doorbell polling (spec/11_host_interface). -/
def HIF_POLL : Nat := 0x300008
def HIF_POLL_MAX_US : Fld := ⟨HIF_POLL, 16, 10⟩
def HIF_POLL_MIN_NS : Fld := ⟨HIF_POLL, 0, 14⟩
/-- Poll now (spec/11_host_interface). -/
def HIF_KICK : Nat := 0x30000C
def HIF_KICK_KICK : Fld := ⟨HIF_KICK, 0, 1⟩
/-- Host memory bases (spec/11_host_interface). -/
def HIF_DB_BASE : Nat := 0x300010
def HIF_DB_BASE_ADDR : Fld := ⟨HIF_DB_BASE, 12, 52⟩
/-- Host memory bases (spec/11_host_interface). -/
def HIF_ST_BASE : Nat := 0x300018
def HIF_ST_BASE_ADDR : Fld := ⟨HIF_ST_BASE, 12, 52⟩
/-- Host memory bases (spec/11_host_interface). -/
def HIF_CMD_BASE : Nat := 0x300020
def HIF_CMD_BASE_ADDR : Fld := ⟨HIF_CMD_BASE, 6, 58⟩
/-- Host memory bases (spec/11_host_interface). -/
def HIF_EVT_BASE : Nat := 0x300030
def HIF_EVT_BASE_ADDR : Fld := ⟨HIF_EVT_BASE, 6, 58⟩
/-- Command and event rings (spec/11_host_interface). -/
def HIF_CMD_CFG : Nat := 0x300028
def HIF_CMD_CFG_LOG2_SIZE : Fld := ⟨HIF_CMD_CFG, 4, 5⟩
def HIF_CMD_CFG_ERR : Fld := ⟨HIF_CMD_CFG, 1, 1⟩
def HIF_CMD_CFG_EN : Fld := ⟨HIF_CMD_CFG, 0, 1⟩
/-- Command and event rings (spec/11_host_interface). -/
def HIF_EVT_CFG : Nat := 0x300038
def HIF_EVT_CFG_LOG2_SIZE : Fld := ⟨HIF_EVT_CFG, 4, 5⟩
def HIF_EVT_CFG_ERR : Fld := ⟨HIF_EVT_CFG, 1, 1⟩
def HIF_EVT_CFG_EN : Fld := ⟨HIF_EVT_CFG, 0, 1⟩
/-- Remote window (spec/11_host_interface). -/
def HIF_RWIN : Nat := 0x300040
def HIF_RWIN_STATUS_VALID : Fld := ⟨HIF_RWIN, 24, 1⟩
def HIF_RWIN_LAST_STATUS : Fld := ⟨HIF_RWIN, 16, 8⟩
def HIF_RWIN_EN : Fld := ⟨HIF_RWIN, 8, 1⟩
def HIF_RWIN_PEER : Fld := ⟨HIF_RWIN, 0, 5⟩
/-- Lane to RX ring (spec/11_host_interface). -/
def HIF_RX_MAP : Nat := 0x300050
def HIF_RX_MAP_RING : Fld := ⟨HIF_RX_MAP, 0, 32⟩
/-- Event group vector (spec/11_host_interface). -/
def HIF_EVT_VEC (i : Nat) : Nat := 0x300060 + 0x4 * i
def HIF_EVT_VEC_HOLDOFF (i : Nat) : Fld := ⟨HIF_EVT_VEC i, 16, 8⟩
def HIF_EVT_VEC_EN (i : Nat) : Fld := ⟨HIF_EVT_VEC i, 8, 1⟩
def HIF_EVT_VEC_VEC (i : Nat) : Fld := ⟨HIF_EVT_VEC i, 0, 5⟩
/-- Data ring bases (spec/11_host_interface). -/
def HIF_TX_BASE (i : Nat) : Nat := 0x301000 + 0x40 * i
def HIF_TX_BASE_ADDR (i : Nat) : Fld := ⟨HIF_TX_BASE i, 6, 58⟩
/-- Data ring bases (spec/11_host_interface). -/
def HIF_RX_BASE (i : Nat) : Nat := 0x302000 + 0x40 * i
def HIF_RX_BASE_ADDR (i : Nat) : Fld := ⟨HIF_RX_BASE i, 6, 58⟩
/-- Data ring settings (spec/11_host_interface). -/
def HIF_TX_CFG (i : Nat) : Nat := 0x301008 + 0x40 * i
def HIF_TX_CFG_HOLDOFF (i : Nat) : Fld := ⟨HIF_TX_CFG i, 24, 8⟩
def HIF_TX_CFG_VEC (i : Nat) : Fld := ⟨HIF_TX_CFG i, 16, 5⟩
def HIF_TX_CFG_VEC_EN (i : Nat) : Fld := ⟨HIF_TX_CFG i, 15, 1⟩
def HIF_TX_CFG_PRIO (i : Nat) : Fld := ⟨HIF_TX_CFG i, 12, 3⟩
def HIF_TX_CFG_LOG2_SIZE (i : Nat) : Fld := ⟨HIF_TX_CFG i, 4, 5⟩
def HIF_TX_CFG_ERR (i : Nat) : Fld := ⟨HIF_TX_CFG i, 1, 1⟩
def HIF_TX_CFG_EN (i : Nat) : Fld := ⟨HIF_TX_CFG i, 0, 1⟩
/-- Data ring settings (spec/11_host_interface). -/
def HIF_RX_CFG (i : Nat) : Nat := 0x302008 + 0x40 * i
def HIF_RX_CFG_HOLDOFF (i : Nat) : Fld := ⟨HIF_RX_CFG i, 24, 8⟩
def HIF_RX_CFG_VEC (i : Nat) : Fld := ⟨HIF_RX_CFG i, 16, 5⟩
def HIF_RX_CFG_VEC_EN (i : Nat) : Fld := ⟨HIF_RX_CFG i, 15, 1⟩
def HIF_RX_CFG_TS_EN (i : Nat) : Fld := ⟨HIF_RX_CFG i, 12, 1⟩
def HIF_RX_CFG_LOG2_SIZE (i : Nat) : Fld := ⟨HIF_RX_CFG i, 4, 5⟩
def HIF_RX_CFG_ERR (i : Nat) : Fld := ⟨HIF_RX_CFG i, 1, 1⟩
def HIF_RX_CFG_EN (i : Nat) : Fld := ⟨HIF_RX_CFG i, 0, 1⟩
/-- Counter clear (spec/11_host_interface). -/
def HIF_CNT_CLEAR : Nat := 0x3000C0
def HIF_CNT_CLEAR_CLEAR : Fld := ⟨HIF_CNT_CLEAR, 0, 1⟩
/-- Pair status (spec/12_cox_safety). -/
def COX_STATUS : Nat := 0x1100000
def COX_STATUS_CORE_RESETS : Fld := ⟨COX_STATUS, 24, 8⟩
def COX_STATUS_HALTED : Fld := ⟨COX_STATUS, 7, 1⟩
def COX_STATUS_FROZEN : Fld := ⟨COX_STATUS, 6, 1⟩
def COX_STATUS_LS_BROKEN : Fld := ⟨COX_STATUS, 5, 1⟩
def COX_STATUS_DEBUG : Fld := ⟨COX_STATUS, 4, 1⟩
def COX_STATUS_MODE : Fld := ⟨COX_STATUS, 0, 2⟩
/-- Pair control (spec/12_cox_safety). -/
def COX_CTRL : Nat := 0x1100004
def COX_CTRL_UNFREEZE : Fld := ⟨COX_CTRL, 0, 1⟩
/-- First fault (spec/12_cox_safety). -/
def COX_FAULT_INFO : Nat := 0x1100008
def COX_FAULT_INFO_SHORT0 : Fld := ⟨COX_FAULT_INFO + 4, 0, 32⟩
def COX_FAULT_INFO_VALID : Fld := ⟨COX_FAULT_INFO, 31, 1⟩
def COX_FAULT_INFO_OVERFLOW : Fld := ⟨COX_FAULT_INFO, 30, 1⟩
def COX_FAULT_INFO_CODE : Fld := ⟨COX_FAULT_INFO, 0, 8⟩
/-- Self-test record (spec/12_cox_safety). -/
def COX_SELFTEST : Nat := 0x1100010
def COX_SELFTEST_BIT : Fld := ⟨COX_SELFTEST, 16, 10⟩
def COX_SELFTEST_PASSES : Fld := ⟨COX_SELFTEST, 0, 16⟩
/-- Watchdog window (spec/12_cox_safety). -/
def COX_WDOG_CFG (i : Nat) : Nat := 0x1100020 + 0x8 * i
def COX_WDOG_CFG_MAX_MS (i : Nat) : Fld := ⟨COX_WDOG_CFG i, 16, 10⟩
def COX_WDOG_CFG_MIN_MS (i : Nat) : Fld := ⟨COX_WDOG_CFG i, 0, 8⟩
/-- Watchdog kick (spec/12_cox_safety). -/
def COX_WDOG_KICK (i : Nat) : Nat := 0x1100024 + 0x8 * i
def COX_WDOG_KICK_VALUE (i : Nat) : Fld := ⟨COX_WDOG_KICK i, 0, 16⟩
/-- Temperature monitor (spec/12_cox_safety). -/
def COX_MON : Nat := 0x1100030
def COX_MON_TJ : Fld := ⟨COX_MON, 16, 8⟩
def COX_MON_TEMP_LIMIT : Fld := ⟨COX_MON, 0, 8⟩
/-- Lifecycle and owner lock (spec/12_cox_safety). -/
def COX_LIFECYCLE : Nat := 0x1100040
def COX_LIFECYCLE_KEY_SET : Fld := ⟨COX_LIFECYCLE, 9, 1⟩
def COX_LIFECYCLE_OWNER_LOCK : Fld := ⟨COX_LIFECYCLE, 8, 1⟩
def COX_LIFECYCLE_STATE : Fld := ⟨COX_LIFECYCLE, 0, 2⟩
/-- Authorisation nonce (spec/12_cox_safety). -/
def COX_NONCE : Nat := 0x1100048
def COX_NONCE_NONCE : Fld := ⟨COX_NONCE, 0, 64⟩
/-- Discarded port 65 copies (spec/12_cox_safety). -/
def COX_RX_DROP : Nat := 0x1100050
def COX_RX_DROP_COUNT : Fld := ⟨COX_RX_DROP, 0, 32⟩
/-- Injection enable (spec/12_cox_safety). -/
def INJ_CTRL : Nat := 0x1400000
def INJ_CTRL_EN : Fld := ⟨INJ_CTRL, 0, 1⟩
/-- Injection point (spec/12_cox_safety). -/
def INJ_ARM (i : Nat) : Nat := 0x1400100 + 0x4 * i
def INJ_ARM_ARM (i : Nat) : Fld := ⟨INJ_ARM i, 31, 1⟩
def INJ_ARM_FIRED (i : Nat) : Fld := ⟨INJ_ARM i, 30, 1⟩
def INJ_ARM_BITS (i : Nat) : Fld := ⟨INJ_ARM i, 28, 2⟩
def INJ_ARM_SUB (i : Nat) : Fld := ⟨INJ_ARM i, 26, 2⟩
def INJ_ARM_TARGET (i : Nat) : Fld := ⟨INJ_ARM i, 0, 16⟩
/-- Key unit status (spec/13_keys_macsec_attestation). -/
def KEY_STATUS : Nat := 0x1200000
def KEY_STATUS_TRNG_FAIL : Fld := ⟨KEY_STATUS, 4, 1⟩
def KEY_STATUS_IMG_BUSY : Fld := ⟨KEY_STATUS, 3, 1⟩
def KEY_STATUS_IMG_VALID : Fld := ⟨KEY_STATUS, 2, 1⟩
def KEY_STATUS_CLOSED : Fld := ⟨KEY_STATUS, 1, 1⟩
def KEY_STATUS_READY : Fld := ⟨KEY_STATUS, 0, 1⟩
/-- Table image (spec/13_keys_macsec_attestation). -/
def KEY_IMG : Nat := 0x1200004
def KEY_IMG_EN : Fld := ⟨KEY_IMG, 31, 1⟩
def KEY_IMG_BASE : Fld := ⟨KEY_IMG, 0, 13⟩
/-- Slot select (spec/13_keys_macsec_attestation). -/
def KEY_SLOT_SEL : Nat := 0x1200010
def KEY_SLOT_SEL_STAGED : Fld := ⟨KEY_SLOT_SEL, 8, 1⟩
def KEY_SLOT_SEL_SLOT : Fld := ⟨KEY_SLOT_SEL, 0, 8⟩
/-- Selected slot (spec/13_keys_macsec_attestation). -/
def KEY_SLOT_INFO : Nat := 0x1200014
def KEY_SLOT_INFO_ORIGIN : Fld := ⟨KEY_SLOT_INFO, 10, 2⟩
def KEY_SLOT_INFO_EXPORT : Fld := ⟨KEY_SLOT_INFO, 9, 1⟩
def KEY_SLOT_INFO_VALID : Fld := ⟨KEY_SLOT_INFO, 8, 1⟩
def KEY_SLOT_INFO_USAGE : Fld := ⟨KEY_SLOT_INFO, 2, 3⟩
def KEY_SLOT_INFO_TYPE : Fld := ⟨KEY_SLOT_INFO, 0, 2⟩
/-- Selected label (spec/13_keys_macsec_attestation). -/
def KEY_SLOT_LABEL : Nat := 0x1200018
def KEY_SLOT_LABEL_LABEL : Fld := ⟨KEY_SLOT_LABEL, 0, 32⟩
/-- status (spec/13_keys_macsec_attestation). -/
def KEY_TRNG : Nat := 0x1200020
def KEY_TRNG_RETEST : Fld := ⟨KEY_TRNG, 31, 1⟩
def KEY_TRNG_APT_FAIL : Fld := ⟨KEY_TRNG, 8, 8⟩
def KEY_TRNG_RCT_FAIL : Fld := ⟨KEY_TRNG, 0, 8⟩
/-- Port MACsec status (spec/13_keys_macsec_attestation). -/
def KEY_PORT_STATUS (i : Nat) : Nat := 0x1200100 + 0x4 * i
def KEY_PORT_STATUS_EXHAUSTED (i : Nat) : Fld := ⟨KEY_PORT_STATUS i, 7, 1⟩
def KEY_PORT_STATUS_PN_LIMIT (i : Nat) : Fld := ⟨KEY_PORT_STATUS i, 6, 1⟩
def KEY_PORT_STATUS_ENCODING_AN (i : Nat) : Fld := ⟨KEY_PORT_STATUS i, 4, 2⟩
def KEY_PORT_STATUS_RX_EN (i : Nat) : Fld := ⟨KEY_PORT_STATUS i, 1, 1⟩
def KEY_PORT_STATUS_TX_EN (i : Nat) : Fld := ⟨KEY_PORT_STATUS i, 0, 1⟩
/-- Running PN (spec/13_keys_macsec_attestation). -/
def KEY_SA_PN (i : Nat) : Nat := 0x1206000 + 0x8 * i
def KEY_SA_PN_PN (i : Nat) : Fld := ⟨KEY_SA_PN i, 0, 64⟩
/-- Counter clear (spec/13_keys_macsec_attestation). -/
def KEY_CNT_CLEAR : Nat := 0x12003C0
def KEY_CNT_CLEAR_CLEAR : Fld := ⟨KEY_CNT_CLEAR, 0, 1⟩
/-- Update status (spec/14_firmware_update). -/
def UPD_STATUS : Nat := 0x1300000
def UPD_STATUS_REVERT_CAUSE : Fld := ⟨UPD_STATUS, 24, 8⟩
def UPD_STATUS_STATE : Fld := ⟨UPD_STATUS, 0, 4⟩
/-- Update settings (spec/14_firmware_update). -/
def UPD_CFG : Nat := 0x1300004
def UPD_CFG_HEALTH_S : Fld := ⟨UPD_CFG, 16, 10⟩
def UPD_CFG_VBAT_MIN : Fld := ⟨UPD_CFG, 8, 8⟩
/-- Journal location (spec/14_firmware_update). -/
def UPD_FLASH : Nat := 0x1300008
def UPD_FLASH_JOURNAL_BASE : Fld := ⟨UPD_FLASH, 16, 16⟩
def UPD_FLASH_JOURNAL_BLOCKS : Fld := ⟨UPD_FLASH, 0, 16⟩
/-- Staging area (spec/14_firmware_update). -/
def UPD_STAGE : Nat := 0x130000C
def UPD_STAGE_SIZE : Fld := ⟨UPD_STAGE, 16, 9⟩
def UPD_STAGE_BASE : Fld := ⟨UPD_STAGE, 0, 13⟩
/-- Write progress (spec/14_firmware_update). -/
def UPD_PROGRESS : Nat := 0x1300010
def UPD_PROGRESS_TOTAL : Fld := ⟨UPD_PROGRESS, 16, 16⟩
def UPD_PROGRESS_DONE : Fld := ⟨UPD_PROGRESS, 0, 16⟩
/-- Health confirmation (spec/14_firmware_update). -/
def UPD_HEALTH : Nat := 0x1300014
def UPD_HEALTH_CONFIRM : Fld := ⟨UPD_HEALTH, 0, 32⟩
/-- Activation time (spec/14_firmware_update). -/
def UPD_T_SEC : Nat := 0x1300018
def UPD_T_SEC_SEC : Fld := ⟨UPD_T_SEC, 0, 48⟩
/-- Activation time (spec/14_firmware_update). -/
def UPD_T_NS : Nat := 0x1300020
def UPD_T_NS_NS : Fld := ⟨UPD_T_NS, 0, 30⟩
/-- Sequence numbers (spec/14_firmware_update). -/
def UPD_SEQ : Nat := 0x1300028
def UPD_SEQ_VALUE : Fld := ⟨UPD_SEQ, 0, 32⟩
/-- Sequence numbers (spec/14_firmware_update). -/
def UPD_FLOOR : Nat := 0x130002C
def UPD_FLOOR_VALUE : Fld := ⟨UPD_FLOOR, 0, 32⟩
/-- Update conditions (spec/14_firmware_update). -/
def UPD_COND : Nat := 0x1300030
def UPD_COND_CLEAR : Fld := ⟨UPD_COND, 3, 1⟩
def UPD_COND_OWNER_LOCK : Fld := ⟨UPD_COND, 2, 1⟩
def UPD_COND_VBAT_OK : Fld := ⟨UPD_COND, 1, 1⟩
def UPD_COND_STILL : Fld := ⟨UPD_COND, 0, 1⟩
/-- Power status (spec/15_power_and_wake). -/
def PWR_STATUS : Nat := 0x102000
def PWR_STATUS_WARM : Fld := ⟨PWR_STATUS, 21, 1⟩
def PWR_STATUS_IMG_VALID : Fld := ⟨PWR_STATUS, 20, 1⟩
def PWR_STATUS_STATE : Fld := ⟨PWR_STATUS, 16, 3⟩
def PWR_STATUS_ON : Fld := ⟨PWR_STATUS, 1, 14⟩
/-- Power requests (spec/15_power_and_wake). -/
def PWR_CTRL : Nat := 0x102004
def PWR_CTRL_STAY : Fld := ⟨PWR_CTRL, 8, 1⟩
def PWR_CTRL_REQ : Fld := ⟨PWR_CTRL, 0, 3⟩
/-- Last register request (spec/15_power_and_wake). -/
def PWR_REQ_STATUS : Nat := 0x102008
def PWR_REQ_STATUS_STATUS : Fld := ⟨PWR_REQ_STATUS, 0, 8⟩
/-- Power settings (spec/15_power_and_wake). -/
def PWR_CFG : Nat := 0x10200C
def PWR_CFG_SLEEP_TIMEOUT : Fld := ⟨PWR_CFG, 16, 10⟩
def PWR_CFG_DEBUG_PWR : Fld := ⟨PWR_CFG, 1, 1⟩
def PWR_CFG_INH_SLEEP : Fld := ⟨PWR_CFG, 0, 1⟩
/-- Active domains (spec/15_power_and_wake). -/
def PWR_ACTIVE : Nat := 0x102010
def PWR_ACTIVE_DOMAINS : Fld := ⟨PWR_ACTIVE, 1, 14⟩
/-- Feather domains (spec/15_power_and_wake). -/
def PWR_FEATHER : Nat := 0x102014
def PWR_FEATHER_DOMAINS : Fld := ⟨PWR_FEATHER, 1, 14⟩
/-- Sleep image (spec/15_power_and_wake). -/
def PWR_IMG : Nat := 0x102018
def PWR_IMG_EN : Fld := ⟨PWR_IMG, 31, 1⟩
def PWR_IMG_BASE : Fld := ⟨PWR_IMG, 0, 13⟩
/-- Battery voltage (spec/15_power_and_wake). -/
def PWR_VBAT : Nat := 0x10201C
def PWR_VBAT_MV : Fld := ⟨PWR_VBAT, 0, 16⟩
/-- Battery divider (spec/15_power_and_wake). -/
def PWR_VBAT_CFG : Nat := 0x102020
def PWR_VBAT_CFG_RATIO : Fld := ⟨PWR_VBAT_CFG, 0, 6⟩
/-- Wake settings (spec/15_power_and_wake). -/
def WAK_CFG : Nat := 0x103000
def WAK_CFG_WAKE_IDLE_MS : Fld := ⟨WAK_CFG, 16, 16⟩
def WAK_CFG_WAKE_IN_FILTER : Fld := ⟨WAK_CFG, 8, 8⟩
def WAK_CFG_WAKE_TO : Fld := ⟨WAK_CFG, 1, 1⟩
def WAK_CFG_WAKE_IN_POL : Fld := ⟨WAK_CFG, 0, 1⟩
/-- Wake source enables (spec/15_power_and_wake). -/
def WAK_SRC_EN : Nat := 0x103004
def WAK_SRC_EN_STILL : Fld := ⟨WAK_SRC_EN, 3, 1⟩
def WAK_SRC_EN_TIMER : Fld := ⟨WAK_SRC_EN, 2, 1⟩
def WAK_SRC_EN_PORTS : Fld := ⟨WAK_SRC_EN, 1, 1⟩
def WAK_SRC_EN_WAKE_IN : Fld := ⟨WAK_SRC_EN, 0, 1⟩
/-- Port masks (spec/15_power_and_wake). -/
def WAK_PORT_EN (i : Nat) : Nat := 0x103010 + 0x4 * i
def WAK_PORT_EN_PORTS (i : Nat) : Fld := ⟨WAK_PORT_EN i, 0, 32⟩
/-- Port masks (spec/15_power_and_wake). -/
def WAK_PSLEEP (i : Nat) : Nat := 0x103018 + 0x4 * i
def WAK_PSLEEP_PORTS (i : Nat) : Fld := ⟨WAK_PSLEEP i, 0, 32⟩
/-- Port masks (spec/15_power_and_wake). -/
def WAK_FWD_PORTS (i : Nat) : Nat := 0x103020 + 0x4 * i
def WAK_FWD_PORTS_PORTS (i : Nat) : Fld := ⟨WAK_FWD_PORTS i, 0, 32⟩
/-- Wake output (spec/15_power_and_wake). -/
def WAK_OUT : Nat := 0x103028
def WAK_OUT_WIDTH_MS : Fld := ⟨WAK_OUT, 16, 8⟩
def WAK_OUT_SRC : Fld := ⟨WAK_OUT, 8, 8⟩
def WAK_OUT_POL : Fld := ⟨WAK_OUT, 1, 1⟩
def WAK_OUT_EN : Fld := ⟨WAK_OUT, 0, 1⟩
/-- Wake timer (spec/15_power_and_wake). -/
def WAK_TIMER : Nat := 0x10302C
def WAK_TIMER_SECONDS : Fld := ⟨WAK_TIMER, 0, 24⟩
/-- Recorded wake (spec/15_power_and_wake). -/
def WAK_SOURCE : Nat := 0x103030
def WAK_SOURCE_FALSE : Fld := ⟨WAK_SOURCE, 31, 1⟩
def WAK_SOURCE_FAULT : Fld := ⟨WAK_SOURCE, 24, 7⟩
def WAK_SOURCE_LATE_SOURCE : Fld := ⟨WAK_SOURCE, 20, 4⟩
def WAK_SOURCE_SOURCE : Fld := ⟨WAK_SOURCE, 16, 4⟩
def WAK_SOURCE_LATE_PORT : Fld := ⟨WAK_SOURCE, 8, 8⟩
def WAK_SOURCE_PORT : Fld := ⟨WAK_SOURCE, 0, 8⟩
/-- Wake status (spec/15_power_and_wake). -/
def WAK_STATUS : Nat := 0x103034
def WAK_STATUS_COPY_BAD : Fld := ⟨WAK_STATUS, 2, 1⟩
def WAK_STATUS_STILL : Fld := ⟨WAK_STATUS, 1, 1⟩
def WAK_STATUS_WAKE_IN : Fld := ⟨WAK_STATUS, 0, 1⟩
/-- Wake counters (spec/15_power_and_wake). -/
def WAK_COUNT : Nat := 0x103038
def WAK_COUNT_FALSE_WAKES : Fld := ⟨WAK_COUNT, 16, 16⟩
def WAK_COUNT_WAKES : Fld := ⟨WAK_COUNT, 0, 16⟩
/-- Held partner requests (spec/15_power_and_wake). -/
def WAK_SLEEP_REQ_HELD : Nat := 0x10303C
def WAK_SLEEP_REQ_HELD_COUNT : Fld := ⟨WAK_SLEEP_REQ_HELD, 0, 32⟩
/-- Reset cause (spec/16_reset_options_logbook). -/
def RST_CAUSE : Nat := 0x100000
def RST_CAUSE_RESETS : Fld := ⟨RST_CAUSE, 16, 16⟩
def RST_CAUSE_START : Fld := ⟨RST_CAUSE, 4, 4⟩
def RST_CAUSE_CAUSE : Fld := ⟨RST_CAUSE, 0, 4⟩
/-- Start confirmation (spec/16_reset_options_logbook). -/
def RST_START : Nat := 0x100004
def RST_START_ELAPSED_MS : Fld := ⟨RST_START, 16, 16⟩
def RST_START_BOATHOUSE : Fld := ⟨RST_START, 2, 1⟩
def RST_START_START_OPEN : Fld := ⟨RST_START, 1, 1⟩
def RST_START_START_OK : Fld := ⟨RST_START, 0, 1⟩
/-- Load status (spec/16_reset_options_logbook). -/
def OPT_STATUS : Nat := 0x101000
def OPT_STATUS_PROG_ERR : Fld := ⟨OPT_STATUS, 12, 1⟩
def OPT_STATUS_PROG_BUSY : Fld := ⟨OPT_STATUS, 11, 1⟩
def OPT_STATUS_TRIM_DEFAULTED : Fld := ⟨OPT_STATUS, 10, 1⟩
def OPT_STATUS_TRIM_COPY : Fld := ⟨OPT_STATUS, 8, 2⟩
def OPT_STATUS_DEFAULTED : Fld := ⟨OPT_STATUS, 6, 1⟩
def OPT_STATUS_COPY : Fld := ⟨OPT_STATUS, 4, 2⟩
def OPT_STATUS_VALID : Fld := ⟨OPT_STATUS, 3, 1⟩
def OPT_STATUS_LOAD_STATE : Fld := ⟨OPT_STATUS, 0, 3⟩
/-- Boot options (spec/16_reset_options_logbook). -/
def OPT_BOOT : Nat := 0x101004
def OPT_BOOT_MGMT_AN : Fld := ⟨OPT_BOOT, 24, 1⟩
def OPT_BOOT_MGMT_ROLE : Fld := ⟨OPT_BOOT, 22, 2⟩
def OPT_BOOT_MGMT_SPEED : Fld := ⟨OPT_BOOT, 18, 4⟩
def OPT_BOOT_MGMT_MEDIA : Fld := ⟨OPT_BOOT, 16, 2⟩
def OPT_BOOT_MGMT_PORT : Fld := ⟨OPT_BOOT, 8, 6⟩
def OPT_BOOT_FAIL_LIMIT : Fld := ⟨OPT_BOOT, 0, 4⟩
/-- Boot options (spec/16_reset_options_logbook). -/
def OPT_NEW_BOOT : Nat := 0x101010
def OPT_NEW_BOOT_MGMT_AN : Fld := ⟨OPT_NEW_BOOT, 24, 1⟩
def OPT_NEW_BOOT_MGMT_ROLE : Fld := ⟨OPT_NEW_BOOT, 22, 2⟩
def OPT_NEW_BOOT_MGMT_SPEED : Fld := ⟨OPT_NEW_BOOT, 18, 4⟩
def OPT_NEW_BOOT_MGMT_MEDIA : Fld := ⟨OPT_NEW_BOOT, 16, 2⟩
def OPT_NEW_BOOT_MGMT_PORT : Fld := ⟨OPT_NEW_BOOT, 8, 6⟩
def OPT_NEW_BOOT_FAIL_LIMIT : Fld := ⟨OPT_NEW_BOOT, 0, 4⟩
/-- Flash options (spec/16_reset_options_logbook). -/
def OPT_FLASH : Nat := 0x101008
def OPT_FLASH_DUMMY : Fld := ⟨OPT_FLASH, 8, 5⟩
def OPT_FLASH_DTR : Fld := ⟨OPT_FLASH, 3, 1⟩
def OPT_FLASH_CLK : Fld := ⟨OPT_FLASH, 0, 3⟩
/-- Flash options (spec/16_reset_options_logbook). -/
def OPT_NEW_FLASH : Nat := 0x101014
def OPT_NEW_FLASH_DUMMY : Fld := ⟨OPT_NEW_FLASH, 8, 5⟩
def OPT_NEW_FLASH_DTR : Fld := ⟨OPT_NEW_FLASH, 3, 1⟩
def OPT_NEW_FLASH_CLK : Fld := ⟨OPT_NEW_FLASH, 0, 3⟩
/-- Copy in use (spec/16_reset_options_logbook). -/
def OPT_SEQ : Nat := 0x10100C
def OPT_SEQ_SEQ : Fld := ⟨OPT_SEQ, 0, 32⟩
/-- Program options (spec/16_reset_options_logbook). -/
def OPT_PROG : Nat := 0x101018
def OPT_PROG_GO : Fld := ⟨OPT_PROG, 0, 1⟩
/-- Logbook word (spec/16_reset_options_logbook). -/
def LOG_WORD (i : Nat) : Nat := 0x200000 + 0x4 * i
def LOG_WORD_VALUE (i : Nat) : Fld := ⟨LOG_WORD i, 0, 32⟩
/-- Wear counter (spec/16_reset_options_logbook). -/
def LOG_WEAR (i : Nat) : Nat := 0x201000 + 0x4 * i
def LOG_WEAR_COUNT (i : Nat) : Fld := ⟨LOG_WEAR i, 0, 17⟩
/-- Logbook status (spec/16_reset_options_logbook). -/
def LOG_STATUS : Nat := 0x202000
def LOG_STATUS_LAST_WORN : Fld := ⟨LOG_STATUS, 16, 10⟩
def LOG_STATUS_WORN_HIT : Fld := ⟨LOG_STATUS, 2, 1⟩
def LOG_STATUS_DROPPED : Fld := ⟨LOG_STATUS, 1, 1⟩
def LOG_STATUS_BUSY : Fld := ⟨LOG_STATUS, 0, 1⟩
/-- Failed-start count (spec/16_reset_options_logbook). -/
def LOG_FAIL_START : Nat := 0x202004
def LOG_FAIL_START_FAILS : Fld := ⟨LOG_FAIL_START, 0, 4⟩
/-- Device word wear (spec/16_reset_options_logbook). -/
def LOG_SYS_WEAR (i : Nat) : Nat := 0x202100 + 0x4 * i
def LOG_SYS_WEAR_COUNT (i : Nat) : Fld := ⟨LOG_SYS_WEAR i, 0, 17⟩
/-- Counter (spec/02). -/
def PRT_RX_FRAMES (i : Nat) : Nat := 0x400100 + 0x4000 * i
def PRT_RX_FRAMES_COUNT (i : Nat) : Fld := ⟨PRT_RX_FRAMES i, 0, 64⟩
/-- Counter (spec/02). -/
def PRT_RX_OCTETS (i : Nat) : Nat := 0x400108 + 0x4000 * i
def PRT_RX_OCTETS_COUNT (i : Nat) : Fld := ⟨PRT_RX_OCTETS i, 0, 64⟩
/-- Counter (spec/02). -/
def PRT_TX_FRAMES (i : Nat) : Nat := 0x400110 + 0x4000 * i
def PRT_TX_FRAMES_COUNT (i : Nat) : Fld := ⟨PRT_TX_FRAMES i, 0, 64⟩
/-- Counter (spec/02). -/
def PRT_TX_OCTETS (i : Nat) : Nat := 0x400118 + 0x4000 * i
def PRT_TX_OCTETS_COUNT (i : Nat) : Fld := ⟨PRT_TX_OCTETS i, 0, 64⟩
/-- Counter (spec/02). -/
def PRT_RX_FCS_ERR (i : Nat) : Nat := 0x400120 + 0x4000 * i
def PRT_RX_FCS_ERR_COUNT (i : Nat) : Fld := ⟨PRT_RX_FCS_ERR i, 0, 32⟩
/-- Counter (spec/02). -/
def PRT_RX_LEN_ERR (i : Nat) : Nat := 0x400124 + 0x4000 * i
def PRT_RX_LEN_ERR_COUNT (i : Nat) : Fld := ⟨PRT_RX_LEN_ERR i, 0, 32⟩
/-- Counter (spec/02). -/
def PRT_RX_PHY_ERR (i : Nat) : Nat := 0x400128 + 0x4000 * i
def PRT_RX_PHY_ERR_COUNT (i : Nat) : Fld := ⟨PRT_RX_PHY_ERR i, 0, 32⟩
/-- Counter (spec/02). -/
def PRT_RX_PAUSE (i : Nat) : Nat := 0x40012C + 0x4000 * i
def PRT_RX_PAUSE_COUNT (i : Nat) : Fld := ⟨PRT_RX_PAUSE i, 0, 32⟩
/-- Counter (spec/02). -/
def PRT_FEC_CORR (i : Nat) : Nat := 0x400130 + 0x4000 * i
def PRT_FEC_CORR_COUNT (i : Nat) : Fld := ⟨PRT_FEC_CORR i, 0, 32⟩
/-- Counter (spec/02). -/
def PRT_LINK_DOWN (i : Nat) : Nat := 0x400134 + 0x4000 * i
def PRT_LINK_DOWN_COUNT (i : Nat) : Fld := ⟨PRT_LINK_DOWN i, 0, 32⟩
/-- Counter (spec/02). -/
def PRT_RESUME (i : Nat) : Nat := 0x400138 + 0x4000 * i
def PRT_RESUME_RESUME_FALLBACK (i : Nat) : Fld := ⟨PRT_RESUME i, 16, 16⟩
def PRT_RESUME_RESUME_OK (i : Nat) : Fld := ⟨PRT_RESUME i, 0, 16⟩
/-- Counter (spec/02). -/
def PRT_PLCA_CNT (i : Nat) : Nat := 0x40013C + 0x4000 * i
def PRT_PLCA_CNT_BEACON_FAULT (i : Nat) : Fld := ⟨PRT_PLCA_CNT i, 16, 16⟩
def PRT_PLCA_CNT_COLLISIONS (i : Nat) : Fld := ⟨PRT_PLCA_CNT i, 0, 16⟩
/-- Counter (spec/02). -/
def PRT_LANE_DISC (i : Nat) (j : Nat) : Nat := 0x400140 + 0x4000 * i + 0x4 * j
def PRT_LANE_DISC_COUNT (i : Nat) (j : Nat) : Fld := ⟨PRT_LANE_DISC i j, 0, 32⟩
/-- Counter (spec/03). -/
def FST_SHARED_DROP (i : Nat) : Nat := 0x500200 + 0x4 * i
def FST_SHARED_DROP_COUNT (i : Nat) : Fld := ⟨FST_SHARED_DROP i, 0, 32⟩
/-- Counter (spec/03). -/
def FST_DP_DROP (i : Nat) : Nat := 0x500210 + 0x4 * i
def FST_DP_DROP_COUNT (i : Nat) : Fld := ⟨FST_DP_DROP i, 0, 32⟩
/-- Counter (spec/03). -/
def FST_QUOTA_DROP : Nat := 0x500220
def FST_QUOTA_DROP_COUNT : Fld := ⟨FST_QUOTA_DROP, 0, 32⟩
/-- Counter (spec/03). -/
def FST_HANDLE_DROP : Nat := 0x500224
def FST_HANDLE_DROP_COUNT : Fld := ⟨FST_HANDLE_DROP, 0, 32⟩
/-- Counter (spec/03). -/
def FST_CT_FALLBACK : Nat := 0x500228
def FST_CT_FALLBACK_COUNT : Fld := ⟨FST_CT_FALLBACK, 0, 32⟩
/-- Counter (spec/03). -/
def FST_MIRROR_SHED : Nat := 0x50022C
def FST_MIRROR_SHED_COUNT : Fld := ⟨FST_MIRROR_SHED, 0, 32⟩
/-- Counter (spec/03). -/
def FST_OFF_DROP : Nat := 0x500230
def FST_OFF_DROP_COUNT : Fld := ⟨FST_OFF_DROP, 0, 32⟩
/-- Counter (spec/03). -/
def FST_ECC_CORR : Nat := 0x500234
def FST_ECC_CORR_COUNT : Fld := ⟨FST_ECC_CORR, 0, 32⟩
/-- Counter (spec/03). -/
def FST_ECC_UNCORR : Nat := 0x500238
def FST_ECC_UNCORR_COUNT : Fld := ⟨FST_ECC_UNCORR, 0, 32⟩
/-- Counter (spec/03). -/
def FST_HPAR_ERR : Nat := 0x50023C
def FST_HPAR_ERR_COUNT : Fld := ⟨FST_HPAR_ERR, 0, 32⟩
/-- Counter (spec/03). -/
def FST_SCRUB_PASS : Nat := 0x500240
def FST_SCRUB_PASS_COUNT : Fld := ⟨FST_SCRUB_PASS, 0, 32⟩
/-- Counter (spec/03). -/
def FST_ALLOC_DROP : Nat := 0x500244
def FST_ALLOC_DROP_COUNT : Fld := ⟨FST_ALLOC_DROP, 0, 32⟩
/-- Counter (spec/04). -/
def FWD_CT_ABORTED (i : Nat) : Nat := 0x602000 + 0x4 * i
def FWD_CT_ABORTED_COUNT (i : Nat) : Fld := ⟨FWD_CT_ABORTED i, 0, 32⟩
/-- Counter (spec/04). -/
def FWD_CT_OUTGREW (i : Nat) : Nat := 0x602080 + 0x4 * i
def FWD_CT_OUTGREW_COUNT (i : Nat) : Fld := ⟨FWD_CT_OUTGREW i, 0, 32⟩
/-- Counter (spec/04). -/
def FWD_AGE_DROP (i : Nat) : Nat := 0x602100 + 0x4 * i
def FWD_AGE_DROP_COUNT (i : Nat) : Fld := ⟨FWD_AGE_DROP i, 0, 32⟩
/-- Counter (spec/04). -/
def FWD_VLAN_DROP (i : Nat) : Nat := 0x602280 + 0x4 * i
def FWD_VLAN_DROP_COUNT (i : Nat) : Fld := ⟨FWD_VLAN_DROP i, 0, 32⟩
/-- Counter (spec/04). -/
def FWD_LEARN_FULL : Nat := 0x602400
def FWD_LEARN_FULL_COUNT : Fld := ⟨FWD_LEARN_FULL, 0, 32⟩
/-- Counter (spec/04). -/
def FWD_LEARN_LIMIT : Nat := 0x602404
def FWD_LEARN_LIMIT_COUNT : Fld := ⟨FWD_LEARN_LIMIT, 0, 32⟩
/-- Counter (spec/04). -/
def FWD_SA_CONFLICT : Nat := 0x602408
def FWD_SA_CONFLICT_COUNT : Fld := ⟨FWD_SA_CONFLICT, 0, 32⟩
/-- Counter (spec/04). -/
def FWD_STATION_MOVE : Nat := 0x60240C
def FWD_STATION_MOVE_COUNT : Fld := ⟨FWD_STATION_MOVE, 0, 32⟩
/-- Counter (spec/04). -/
def FWD_OVERSIZE : Nat := 0x602410
def FWD_OVERSIZE_COUNT : Fld := ⟨FWD_OVERSIZE, 0, 32⟩
/-- Counter (spec/04). -/
def FWD_MIRROR_SKIP : Nat := 0x602414
def FWD_MIRROR_SKIP_COUNT : Fld := ⟨FWD_MIRROR_SKIP, 0, 32⟩
/-- Counter (spec/04). -/
def FWD_SMP_FRAMES : Nat := 0x602418
def FWD_SMP_FRAMES_COUNT : Fld := ⟨FWD_SMP_FRAMES, 0, 32⟩
/-- Counter (spec/04). -/
def FWD_FLOOD : Nat := 0x60241C
def FWD_FLOOD_COUNT : Fld := ⟨FWD_FLOOD, 0, 32⟩
/-- Counter (spec/04). -/
def FWD_DA_DROP : Nat := 0x602420
def FWD_DA_DROP_COUNT : Fld := ⟨FWD_DA_DROP, 0, 32⟩
/-- Counter (spec/04). -/
def FRER_CNT (i : Nat) (j : Nat) : Nat := 0x700000 + 0x20 * i + 0x4 * j
def FRER_CNT_COUNT (i : Nat) (j : Nat) : Fld := ⟨FRER_CNT i j, 0, 32⟩
/-- Counter (spec/04). -/
def REC_RECORDS : Nat := 0x1500080
def REC_RECORDS_COUNT : Fld := ⟨REC_RECORDS, 0, 32⟩
/-- Counter (spec/04). -/
def REC_DROP : Nat := 0x1500084
def REC_DROP_COUNT : Fld := ⟨REC_DROP, 0, 32⟩
/-- Counter (spec/04). -/
def REC_ECC_CORR : Nat := 0x1500088
def REC_ECC_CORR_COUNT : Fld := ⟨REC_ECC_CORR, 0, 32⟩
/-- Counter (spec/04). -/
def REC_ECC_UNCORR : Nat := 0x150008C
def REC_ECC_UNCORR_COUNT : Fld := ⟨REC_ECC_UNCORR, 0, 32⟩
/-- Counter (spec/05). -/
def UMP_OFF_DROP : Nat := 0x800100
def UMP_OFF_DROP_COUNT : Fld := ⟨UMP_OFF_DROP, 0, 32⟩
/-- Counter (spec/05). -/
def UMP_DROP (i : Nat) : Nat := 0x800200 + 0x4 * i
def UMP_DROP_COUNT (i : Nat) : Fld := ⟨UMP_DROP i, 0, 32⟩
/-- Counter (spec/05). -/
def UMP_MISS : Nat := 0x800220
def UMP_MISS_COUNT : Fld := ⟨UMP_MISS, 0, 32⟩
/-- Counter (spec/05). -/
def UMP_PH_LEARN : Nat := 0x800224
def UMP_PH_LEARN_COUNT : Fld := ⟨UMP_PH_LEARN, 0, 32⟩
/-- Counter (spec/05). -/
def UMP_PH_HIT : Nat := 0x800228
def UMP_PH_HIT_COUNT : Fld := ⟨UMP_PH_HIT, 0, 32⟩
/-- Counter (spec/05). -/
def UMP_PH_FULL : Nat := 0x80022C
def UMP_PH_FULL_COUNT : Fld := ⟨UMP_PH_FULL, 0, 32⟩
/-- Counter (spec/05). -/
def UMP_PH_EXPIRE : Nat := 0x800230
def UMP_PH_EXPIRE_COUNT : Fld := ⟨UMP_PH_EXPIRE, 0, 32⟩
/-- Counter (spec/05). -/
def UMP_TCAM_PAR : Nat := 0x800234
def UMP_TCAM_PAR_COUNT : Fld := ⟨UMP_TCAM_PAR, 0, 32⟩
/-- Counter (spec/05). -/
def UMP_TRAP_CNT (i : Nat) : Nat := 0x800240 + 0x4 * i
def UMP_TRAP_CNT_COUNT (i : Nat) : Fld := ⟨UMP_TRAP_CNT i, 0, 32⟩
/-- Counter (spec/05). -/
def UMP_ZONE_DENY (i : Nat) : Nat := 0x800400 + 0x4 * i
def UMP_ZONE_DENY_COUNT (i : Nat) : Fld := ⟨UMP_ZONE_DENY i, 0, 32⟩
/-- Counter (spec/05). -/
def UMP_CNT_OCT (i : Nat) : Nat := 0x800800 + 0x10 * i
def UMP_CNT_OCT_COUNT (i : Nat) : Fld := ⟨UMP_CNT_OCT i, 0, 64⟩
/-- Counter (spec/05). -/
def UMP_CNT_FRM (i : Nat) : Nat := 0x800808 + 0x10 * i
def UMP_CNT_FRM_COUNT (i : Nat) : Fld := ⟨UMP_CNT_FRM i, 0, 64⟩
/-- Counter (spec/05). -/
def UMP_HIT (i : Nat) : Nat := 0x880000 + 0x4 * i
def UMP_HIT_COUNT (i : Nat) : Fld := ⟨UMP_HIT i, 0, 32⟩
/-- Counter (spec/05). -/
def UMP_PAT_HIT (i : Nat) : Nat := 0x8A0000 + 0x4 * i
def UMP_PAT_HIT_COUNT (i : Nat) : Fld := ⟨UMP_PAT_HIT i, 0, 32⟩
/-- Counter (spec/06). -/
def LNE_STR_FRAMES (i : Nat) : Nat := 0xA40000 + 0x10 * i
def LNE_STR_FRAMES_COUNT (i : Nat) : Fld := ⟨LNE_STR_FRAMES i, 0, 32⟩
/-- Counter (spec/06). -/
def LNE_STR_METER_DROP (i : Nat) : Nat := 0xA40004 + 0x10 * i
def LNE_STR_METER_DROP_COUNT (i : Nat) : Fld := ⟨LNE_STR_METER_DROP i, 0, 32⟩
/-- Counter (spec/06). -/
def LNE_STR_OVERSIZE (i : Nat) : Nat := 0xA40008 + 0x10 * i
def LNE_STR_OVERSIZE_COUNT (i : Nat) : Fld := ⟨LNE_STR_OVERSIZE i, 0, 32⟩
/-- Counter (spec/06). -/
def LNE_RSV_SKIP (i : Nat) : Nat := 0xA00800 + 0x4 * i
def LNE_RSV_SKIP_COUNT (i : Nat) : Fld := ⟨LNE_RSV_SKIP i, 0, 32⟩
/-- Counter (spec/06). -/
def LNE_MM_FRAG_TX (i : Nat) : Nat := 0xA00C00 + 0x10 * i
def LNE_MM_FRAG_TX_COUNT (i : Nat) : Fld := ⟨LNE_MM_FRAG_TX i, 0, 32⟩
/-- Counter (spec/06). -/
def LNE_MM_FRAG_RX (i : Nat) : Nat := 0xA00C04 + 0x10 * i
def LNE_MM_FRAG_RX_COUNT (i : Nat) : Fld := ⟨LNE_MM_FRAG_RX i, 0, 32⟩
/-- Counter (spec/06). -/
def LNE_MM_ASSY_ERR (i : Nat) : Nat := 0xA00C08 + 0x10 * i
def LNE_MM_ASSY_ERR_COUNT (i : Nat) : Fld := ⟨LNE_MM_ASSY_ERR i, 0, 32⟩
/-- Counter (spec/06). -/
def LNE_MM_SMD_ERR (i : Nat) : Nat := 0xA00C0C + 0x10 * i
def LNE_MM_SMD_ERR_COUNT (i : Nat) : Fld := ⟨LNE_MM_SMD_ERR i, 0, 32⟩
/-- Counter (spec/06). -/
def LNE_HINT_MISS : Nat := 0xA00E00
def LNE_HINT_MISS_COUNT : Fld := ⟨LNE_HINT_MISS, 0, 32⟩
/-- Counter (spec/06). -/
def GTE_LATE_END (i : Nat) : Nat := 0xB00400 + 0x4 * i
def GTE_LATE_END_COUNT (i : Nat) : Fld := ⟨GTE_LATE_END i, 0, 32⟩
/-- Counter (spec/06). -/
def GTE_GUARD_DEFER (i : Nat) : Nat := 0xB00600 + 0x4 * i
def GTE_GUARD_DEFER_COUNT (i : Nat) : Fld := ⟨GTE_GUARD_DEFER i, 0, 32⟩
/-- Counter (spec/06). -/
def LNE_OBS_LAST (i : Nat) (j : Nat) : Nat := 0xA80000 + 0x400 * i + 0x80 * j
def LNE_OBS_LAST_NS (i : Nat) (j : Nat) : Fld := ⟨LNE_OBS_LAST i j, 0, 32⟩
/-- Counter (spec/06). -/
def LNE_OBS_MIN (i : Nat) (j : Nat) : Nat := 0xA80004 + 0x400 * i + 0x80 * j
def LNE_OBS_MIN_NS (i : Nat) (j : Nat) : Fld := ⟨LNE_OBS_MIN i j, 0, 32⟩
/-- Counter (spec/06). -/
def LNE_OBS_MAX (i : Nat) (j : Nat) : Nat := 0xA80008 + 0x400 * i + 0x80 * j
def LNE_OBS_MAX_NS (i : Nat) (j : Nat) : Fld := ⟨LNE_OBS_MAX i j, 0, 32⟩
/-- Counter (spec/06). -/
def LNE_OBS_DEPTH (i : Nat) (j : Nat) : Nat := 0xA8000C + 0x400 * i + 0x80 * j
def LNE_OBS_DEPTH_BYTES (i : Nat) (j : Nat) : Fld := ⟨LNE_OBS_DEPTH i j, 0, 18⟩
/-- Counter (spec/06). -/
def LNE_OBS_MAX_DEPTH (i : Nat) (j : Nat) : Nat := 0xA80010 + 0x400 * i + 0x80 * j
def LNE_OBS_MAX_DEPTH_BYTES (i : Nat) (j : Nat) : Fld := ⟨LNE_OBS_MAX_DEPTH i j, 0, 18⟩
/-- Counter (spec/06). -/
def LNE_OBS_BIN (i : Nat) (j : Nat) (k : Nat) : Nat := 0xA80040 + 0x400 * i + 0x80 * j + 0x4 * k
def LNE_OBS_BIN_COUNT (i : Nat) (j : Nat) (k : Nat) : Fld := ⟨LNE_OBS_BIN i j k, 0, 32⟩
/-- Counter (spec/08). -/
def TIM_TS_LOST (i : Nat) : Nat := 0xD00900 + 0x4 * i
def TIM_TS_LOST_COUNT (i : Nat) : Fld := ⟨TIM_TS_LOST i, 0, 32⟩
/-- Counter (spec/08). -/
def TIM_STEP_REFUSED (i : Nat) : Nat := 0xD00A00 + 0x4 * i
def TIM_STEP_REFUSED_COUNT (i : Nat) : Fld := ⟨TIM_STEP_REFUSED i, 0, 32⟩
/-- Counter (spec/08). -/
def TIM_LOCK_REJECT (i : Nat) : Nat := 0xD00A10 + 0x4 * i
def TIM_LOCK_REJECT_COUNT (i : Nat) : Fld := ⟨TIM_LOCK_REJECT i, 0, 32⟩
/-- Counter (spec/08). -/
def TIM_CATCH_PULSES (i : Nat) : Nat := 0xD01020 + 0x40 * i
def TIM_CATCH_PULSES_COUNT (i : Nat) : Fld := ⟨TIM_CATCH_PULSES i, 0, 32⟩
/-- Counter (spec/08). -/
def TIM_CATCH_SKIPPED (i : Nat) : Nat := 0xD01024 + 0x40 * i
def TIM_CATCH_SKIPPED_COUNT (i : Nat) : Fld := ⟨TIM_CATCH_SKIPPED i, 0, 32⟩
/-- Counter (spec/08). -/
def TIM_BUOY_LOST (i : Nat) : Nat := 0xD0201C + 0x40 * i
def TIM_BUOY_LOST_COUNT (i : Nat) : Fld := ⟨TIM_BUOY_LOST i, 0, 32⟩
/-- Counter (spec/09). -/
def EDG_CAN_RX_FRAMES (i : Nat) : Nat := 0xE00040 + 0x100 * i
def EDG_CAN_RX_FRAMES_COUNT (i : Nat) : Fld := ⟨EDG_CAN_RX_FRAMES i, 0, 32⟩
/-- Counter (spec/09). -/
def EDG_CAN_TX_FRAMES (i : Nat) : Nat := 0xE00044 + 0x100 * i
def EDG_CAN_TX_FRAMES_COUNT (i : Nat) : Fld := ⟨EDG_CAN_TX_FRAMES i, 0, 32⟩
/-- Counter (spec/09). -/
def EDG_CAN_RX_UNMATCHED (i : Nat) : Nat := 0xE00048 + 0x100 * i
def EDG_CAN_RX_UNMATCHED_COUNT (i : Nat) : Fld := ⟨EDG_CAN_RX_UNMATCHED i, 0, 32⟩
/-- Counter (spec/09). -/
def EDG_CAN_RX_RTR (i : Nat) : Nat := 0xE0004C + 0x100 * i
def EDG_CAN_RX_RTR_COUNT (i : Nat) : Fld := ⟨EDG_CAN_RX_RTR i, 0, 32⟩
/-- Counter (spec/09). -/
def EDG_CAN_TX_LATE_DROP (i : Nat) : Nat := 0xE00050 + 0x100 * i
def EDG_CAN_TX_LATE_DROP_COUNT (i : Nat) : Fld := ⟨EDG_CAN_TX_LATE_DROP i, 0, 32⟩
/-- Counter (spec/09). -/
def EDG_CAN_BUSOFF_DROP (i : Nat) : Nat := 0xE00054 + 0x100 * i
def EDG_CAN_BUSOFF_DROP_COUNT (i : Nat) : Fld := ⟨EDG_CAN_BUSOFF_DROP i, 0, 32⟩
/-- Counter (spec/09). -/
def EDG_CAN_BUSOFF_CNT (i : Nat) : Nat := 0xE00058 + 0x100 * i
def EDG_CAN_BUSOFF_CNT_COUNT (i : Nat) : Fld := ⟨EDG_CAN_BUSOFF_CNT i, 0, 32⟩
/-- Counter (spec/09). -/
def EDG_CAN_ERR_CNT (i : Nat) : Nat := 0xE0005C + 0x100 * i
def EDG_CAN_ERR_CNT_COUNT (i : Nat) : Fld := ⟨EDG_CAN_ERR_CNT i, 0, 32⟩
/-- Counter (spec/09). -/
def EDG_LIN_RX (i : Nat) : Nat := 0xE04040 + 0x100 * i
def EDG_LIN_RX_COUNT (i : Nat) : Fld := ⟨EDG_LIN_RX i, 0, 32⟩
/-- Counter (spec/09). -/
def EDG_LIN_TX (i : Nat) : Nat := 0xE04044 + 0x100 * i
def EDG_LIN_TX_COUNT (i : Nat) : Fld := ⟨EDG_LIN_TX i, 0, 32⟩
/-- Counter (spec/09). -/
def EDG_LIN_CHK_ERR (i : Nat) : Nat := 0xE04048 + 0x100 * i
def EDG_LIN_CHK_ERR_COUNT (i : Nat) : Fld := ⟨EDG_LIN_CHK_ERR i, 0, 32⟩
/-- Counter (spec/09). -/
def EDG_LIN_NO_RESP (i : Nat) : Nat := 0xE0404C + 0x100 * i
def EDG_LIN_NO_RESP_COUNT (i : Nat) : Fld := ⟨EDG_LIN_NO_RESP i, 0, 32⟩
/-- Counter (spec/09). -/
def EDG_LIN_FRAME_ERR (i : Nat) : Nat := 0xE04050 + 0x100 * i
def EDG_LIN_FRAME_ERR_COUNT (i : Nat) : Fld := ⟨EDG_LIN_FRAME_ERR i, 0, 32⟩
/-- Counter (spec/09). -/
def RIG_GAP_SKIP : Nat := 0xF00100
def RIG_GAP_SKIP_COUNT : Fld := ⟨RIG_GAP_SKIP, 0, 32⟩
/-- Counter (spec/09). -/
def RIG_SAT : Nat := 0xF00104
def RIG_SAT_COUNT : Fld := ⟨RIG_SAT, 0, 32⟩
/-- Counter (spec/09). -/
def RIG_INVALID_IN : Nat := 0xF00108
def RIG_INVALID_IN_COUNT : Fld := ⟨RIG_INVALID_IN, 0, 32⟩
/-- Counter (spec/09). -/
def RIG_STALE_ENTER : Nat := 0xF0010C
def RIG_STALE_ENTER_COUNT : Fld := ⟨RIG_STALE_ENTER, 0, 32⟩
/-- Counter (spec/09). -/
def RIG_SILENCED : Nat := 0xF00110
def RIG_SILENCED_COUNT : Fld := ⟨RIG_SILENCED, 0, 32⟩
/-- Counter (spec/09). -/
def RIG_OVERWRITE : Nat := 0xF00114
def RIG_OVERWRITE_COUNT : Fld := ⟨RIG_OVERWRITE, 0, 32⟩
/-- Counter (spec/09). -/
def RIG_ETH_UNMATCHED : Nat := 0xF00118
def RIG_ETH_UNMATCHED_COUNT : Fld := ⟨RIG_ETH_UNMATCHED, 0, 32⟩
/-- Counter (spec/09). -/
def RIG_CONT_SKIP : Nat := 0xF0011C
def RIG_CONT_SKIP_COUNT : Fld := ⟨RIG_CONT_SKIP, 0, 32⟩
/-- Counter (spec/09). -/
def RIG_CONT_UNMATCHED : Nat := 0xF00120
def RIG_CONT_UNMATCHED_COUNT : Fld := ⟨RIG_CONT_UNMATCHED, 0, 32⟩
/-- Counter (spec/09). -/
def RIG_ACF_REJECT : Nat := 0xF00124
def RIG_ACF_REJECT_COUNT : Fld := ⟨RIG_ACF_REJECT, 0, 32⟩
/-- Counter (spec/09). -/
def RIG_ACF_XL_SKIP : Nat := 0xF00128
def RIG_ACF_XL_SKIP_COUNT : Fld := ⟨RIG_ACF_XL_SKIP, 0, 32⟩
/-- Counter (spec/09). -/
def RIG_ECC_CORR : Nat := 0xF0012C
def RIG_ECC_CORR_COUNT : Fld := ⟨RIG_ECC_CORR, 0, 32⟩
/-- Counter (spec/09). -/
def RIG_ECC_UNCORR : Nat := 0xF00130
def RIG_ECC_UNCORR_COUNT : Fld := ⟨RIG_ECC_UNCORR, 0, 32⟩
/-- Counter (spec/10). -/
def HFP_TX_MSG : Nat := 0x1000500
def HFP_TX_MSG_COUNT : Fld := ⟨HFP_TX_MSG, 0, 32⟩
/-- Counter (spec/10). -/
def HFP_RX_MSG : Nat := 0x1000504
def HFP_RX_MSG_COUNT : Fld := ⟨HFP_RX_MSG, 0, 32⟩
/-- Counter (spec/10). -/
def HFP_RX_BAD : Nat := 0x1000508
def HFP_RX_BAD_COUNT : Fld := ⟨HFP_RX_BAD, 0, 32⟩
/-- Counter (spec/10). -/
def HFP_HOP_DROP : Nat := 0x100050C
def HFP_HOP_DROP_COUNT : Fld := ⟨HFP_HOP_DROP, 0, 32⟩
/-- Counter (spec/10). -/
def HFP_NO_ROUTE : Nat := 0x1000510
def HFP_NO_ROUTE_COUNT : Fld := ⟨HFP_NO_ROUTE, 0, 32⟩
/-- Counter (spec/10). -/
def HFP_SEQ_GAP : Nat := 0x1000514
def HFP_SEQ_GAP_COUNT : Fld := ⟨HFP_SEQ_GAP, 0, 32⟩
/-- Counter (spec/10). -/
def HFP_LATE_RECORDS : Nat := 0x1000518
def HFP_LATE_RECORDS_COUNT : Fld := ⟨HFP_LATE_RECORDS, 0, 32⟩
/-- Counter (spec/10). -/
def HFP_POISONED : Nat := 0x100051C
def HFP_POISONED_COUNT : Fld := ⟨HFP_POISONED, 0, 32⟩
/-- Counter (spec/10). -/
def HFP_CPL_TIMEOUT : Nat := 0x1000520
def HFP_CPL_TIMEOUT_COUNT : Fld := ⟨HFP_CPL_TIMEOUT, 0, 32⟩
/-- Counter (spec/10). -/
def HFP_CPL_LATE : Nat := 0x1000524
def HFP_CPL_LATE_COUNT : Fld := ⟨HFP_CPL_LATE, 0, 32⟩
/-- Counter (spec/10). -/
def HFP_LOCK_COLLIDE : Nat := 0x1000528
def HFP_LOCK_COLLIDE_COUNT : Fld := ⟨HFP_LOCK_COLLIDE, 0, 32⟩
/-- Counter (spec/10). -/
def HFP_LOCK_RETRY : Nat := 0x100052C
def HFP_LOCK_RETRY_COUNT : Fld := ⟨HFP_LOCK_RETRY, 0, 32⟩
/-- Counter (spec/10). -/
def HFP_REVQ_LOST : Nat := 0x1000530
def HFP_REVQ_LOST_COUNT : Fld := ⟨HFP_REVQ_LOST, 0, 32⟩
/-- Counter (spec/10). -/
def HFP_REVQ (i : Nat) (j : Nat) : Nat := 0x1001000 + 0x20 * i + 0x4 * j
def HFP_REVQ_WORD (i : Nat) (j : Nat) : Fld := ⟨HFP_REVQ i j, 0, 32⟩
/-- Counter (spec/11). -/
def HIF_TX_FRAMES (i : Nat) : Nat := 0x301010 + 0x40 * i
def HIF_TX_FRAMES_COUNT (i : Nat) : Fld := ⟨HIF_TX_FRAMES i, 0, 32⟩
/-- Counter (spec/11). -/
def HIF_TX_DESC_ERR (i : Nat) : Nat := 0x301014 + 0x40 * i
def HIF_TX_DESC_ERR_COUNT (i : Nat) : Fld := ⟨HIF_TX_DESC_ERR i, 0, 32⟩
/-- Counter (spec/11). -/
def HIF_RX_FRAMES (i : Nat) : Nat := 0x302010 + 0x40 * i
def HIF_RX_FRAMES_COUNT (i : Nat) : Fld := ⟨HIF_RX_FRAMES i, 0, 32⟩
/-- Counter (spec/11). -/
def HIF_RX_NOBUF (i : Nat) : Nat := 0x302014 + 0x40 * i
def HIF_RX_NOBUF_COUNT (i : Nat) : Fld := ⟨HIF_RX_NOBUF i, 0, 32⟩
/-- Counter (spec/11). -/
def HIF_RX_TRUNC (i : Nat) : Nat := 0x302018 + 0x40 * i
def HIF_RX_TRUNC_COUNT (i : Nat) : Fld := ⟨HIF_RX_TRUNC i, 0, 32⟩
/-- Counter (spec/11). -/
def HIF_EVT_LOST : Nat := 0x3000A0
def HIF_EVT_LOST_COUNT : Fld := ⟨HIF_EVT_LOST, 0, 32⟩
/-- Counter (spec/13). -/
def KEY_IN_UNTAGGED_DROP (i : Nat) : Nat := 0x1202000 + 0x40 * i
def KEY_IN_UNTAGGED_DROP_COUNT (i : Nat) : Fld := ⟨KEY_IN_UNTAGGED_DROP i, 0, 32⟩
/-- Counter (spec/13). -/
def KEY_IN_BAD_TAG (i : Nat) : Nat := 0x1202004 + 0x40 * i
def KEY_IN_BAD_TAG_COUNT (i : Nat) : Fld := ⟨KEY_IN_BAD_TAG i, 0, 32⟩
/-- Counter (spec/13). -/
def KEY_IN_NO_SCI (i : Nat) : Nat := 0x1202008 + 0x40 * i
def KEY_IN_NO_SCI_COUNT (i : Nat) : Fld := ⟨KEY_IN_NO_SCI i, 0, 32⟩
/-- Counter (spec/13). -/
def KEY_IN_NOT_USING_SA (i : Nat) : Nat := 0x120200C + 0x40 * i
def KEY_IN_NOT_USING_SA_COUNT (i : Nat) : Fld := ⟨KEY_IN_NOT_USING_SA i, 0, 32⟩
/-- Counter (spec/13). -/
def KEY_IN_BYPASS (i : Nat) : Nat := 0x1202010 + 0x40 * i
def KEY_IN_BYPASS_COUNT (i : Nat) : Fld := ⟨KEY_IN_BYPASS i, 0, 32⟩
/-- Counter (spec/13). -/
def KEY_OUT_NO_SA (i : Nat) : Nat := 0x1202014 + 0x40 * i
def KEY_OUT_NO_SA_COUNT (i : Nat) : Fld := ⟨KEY_OUT_NO_SA i, 0, 32⟩
/-- Counter (spec/13). -/
def KEY_OUT_TOO_LONG (i : Nat) : Nat := 0x1202018 + 0x40 * i
def KEY_OUT_TOO_LONG_COUNT (i : Nat) : Fld := ⟨KEY_OUT_TOO_LONG i, 0, 32⟩
/-- Counter (spec/13). -/
def KEY_SA_OK (i : Nat) : Nat := 0x1204000 + 0x10 * i
def KEY_SA_OK_COUNT (i : Nat) : Fld := ⟨KEY_SA_OK i, 0, 32⟩
/-- Counter (spec/13). -/
def KEY_SA_NOT_VALID (i : Nat) : Nat := 0x1204004 + 0x10 * i
def KEY_SA_NOT_VALID_COUNT (i : Nat) : Fld := ⟨KEY_SA_NOT_VALID i, 0, 32⟩
/-- Counter (spec/13). -/
def KEY_SA_LATE (i : Nat) : Nat := 0x1204008 + 0x10 * i
def KEY_SA_LATE_COUNT (i : Nat) : Fld := ⟨KEY_SA_LATE i, 0, 32⟩
/-- Counter (spec/13). -/
def KEY_OFF_DROP : Nat := 0x1200300
def KEY_OFF_DROP_COUNT : Fld := ⟨KEY_OFF_DROP, 0, 32⟩
/-- Counter (spec/13). -/
def KEY_ECC_CORR : Nat := 0x1200304
def KEY_ECC_CORR_COUNT : Fld := ⟨KEY_ECC_CORR, 0, 32⟩
/-- Counter (spec/13). -/
def KEY_ECC_UNCORR : Nat := 0x1200308
def KEY_ECC_UNCORR_COUNT : Fld := ⟨KEY_ECC_UNCORR, 0, 32⟩

end Sys2Proof.Machine
end

