-- ==== Sys2Proof/Machine/RegTable.lean ====
section
/-! DEFINITION. The register table: for every register of Regs.lean its address, array shape, island, reset value and
fields with their access codes (R10) and stated ranges (R21), and the search of an address in it (R36). -/

namespace Sys2Proof.Machine

/-- Registers of block glb. -/
def glbRegs0 : List RegDef := [
  ⟨.GLB_ID, 0x0, [], 1, .cox, false, false, 0x64251F6A,
    [⟨31, 16, .ro, []⟩, ⟨15, 0, .ro, []⟩]⟩,
  ⟨.GLB_REV, 0x4, [], 1, .cox, false, false, 0x4101,
    [⟨15, 8, .ro, []⟩, ⟨7, 0, .ro, []⟩]⟩,
  ⟨.GLB_CAP, 0x8, [], 1, .cox, false, false, 0x84104640,
    [⟨31, 27, .ro, []⟩, ⟨26, 21, .ro, []⟩, ⟨20, 16, .ro, []⟩, ⟨15, 12, .ro, []⟩, ⟨11, 8, .ro, []⟩, ⟨7, 0, .ro, []⟩]⟩,
  ⟨.GLB_UID, 0x10, [], 2, .cox, false, true, 0x0,
    [⟨63, 0, .ro, []⟩]⟩,
  ⟨.GLB_LOCK, 0x20, [], 1, .cox, false, false, 0x0,
    [⟨0, 0, .rw, []⟩]⟩,
  ⟨.GLB_ACCESS_ERR, 0x30, [], 1, .cox, false, false, 0x0,
    [⟨31, 24, .ro, []⟩, ⟨16, 16, .ro, []⟩, ⟨10, 8, .ro, []⟩, ⟨4, 1, .ro, []⟩, ⟨0, 0, .w1c, []⟩]⟩,
  ⟨.GLB_ACCESS_ADDR, 0x34, [], 1, .cox, false, false, 0x0,
    [⟨31, 31, .ro, []⟩, ⟨30, 26, .ro, []⟩, ⟨25, 0, .ro, []⟩]⟩,
  ⟨.GLB_FAULT, 0x40, [], 1, .cox, false, false, 0x80,
    [⟨7, 7, .ro, []⟩, ⟨6, 6, .w1c, []⟩, ⟨5, 5, .w1c, []⟩, ⟨4, 4, .w1c, []⟩, ⟨3, 3, .w1c, []⟩, ⟨2, 2, .w1c, []⟩, ⟨1, 1, .w1c, []⟩, ⟨0, 0, .w1c, []⟩]⟩,
  ⟨.GLB_FAULT_MASK, 0x44, [], 1, .cox, false, false, 0x0,
    [⟨6, 2, .rwl, []⟩]⟩,
  ⟨.GLB_CFG_STATE, 0x50, [], 1, .fabric, false, false, 0x0,
    [⟨31, 16, .ro, []⟩, ⟨3, 3, .ro, []⟩, ⟨2, 2, .ro, []⟩, ⟨1, 0, .ro, []⟩]⟩,
  ⟨.GLB_STAGED, 0x54, [], 1, .fabric, false, false, 0x0,
    [⟨16, 0, .ro, []⟩]⟩,
  ⟨.GLB_COMMIT_SEC, 0x58, [], 2, .fabric, false, false, 0x0,
    [⟨47, 0, .ro, []⟩]⟩]
/-- Registers of block glb. -/
def glbRegs1 : List RegDef := [
  ⟨.GLB_COMMIT_NS, 0x60, [], 1, .fabric, false, false, 0x0,
    [⟨29, 0, .ro, []⟩]⟩]
/-- All registers of block glb. -/
def glbRegs : List RegDef := glbRegs0 ++ glbRegs1
/-- Registers of block aon. -/
def aonRegs0 : List RegDef := [
  ⟨.PWR_STATUS, 0x102000, [], 1, .aon, false, false, 0x0,
    [⟨21, 21, .ro, []⟩, ⟨20, 20, .ro, []⟩, ⟨18, 16, .ro, []⟩, ⟨14, 1, .ro, []⟩]⟩,
  ⟨.PWR_CTRL, 0x102004, [], 1, .aon, false, false, 0x0,
    [⟨8, 8, .wo, []⟩, ⟨2, 0, .wo, [(0, 2), (5, 5)]⟩]⟩,
  ⟨.PWR_REQ_STATUS, 0x102008, [], 1, .aon, false, false, 0x0,
    [⟨7, 0, .ro, []⟩]⟩,
  ⟨.PWR_CFG, 0x10200C, [], 1, .aon, false, false, 0x640000,
    [⟨25, 16, .rw, [(1, 1000)]⟩, ⟨1, 1, .rwl, []⟩, ⟨0, 0, .rw, []⟩]⟩,
  ⟨.PWR_ACTIVE, 0x102010, [], 1, .aon, false, false, 0x3FFE,
    [⟨14, 1, .rw, []⟩]⟩,
  ⟨.PWR_FEATHER, 0x102014, [], 1, .aon, false, false, 0x21E,
    [⟨14, 1, .rw, []⟩]⟩,
  ⟨.PWR_IMG, 0x102018, [], 1, .aon, false, false, 0x0,
    [⟨31, 31, .rw, []⟩, ⟨12, 0, .rwl, [(0, 8190)]⟩]⟩,
  ⟨.PWR_VBAT, 0x10201C, [], 1, .aon, false, false, 0x0,
    [⟨15, 0, .ro, []⟩]⟩,
  ⟨.PWR_VBAT_CFG, 0x102020, [], 1, .aon, false, false, 0x8,
    [⟨5, 0, .rwl, [(1, 32)]⟩]⟩,
  ⟨.WAK_CFG, 0x103000, [], 1, .aon, false, false, 0x1F41400,
    [⟨31, 16, .rw, [(0, 0), (10, 10000)]⟩, ⟨15, 8, .rw, [(1, 200)]⟩, ⟨1, 1, .rw, []⟩, ⟨0, 0, .rw, []⟩]⟩,
  ⟨.WAK_SRC_EN, 0x103004, [], 1, .aon, false, false, 0x1,
    [⟨3, 3, .rw, []⟩, ⟨2, 2, .rw, []⟩, ⟨1, 1, .rw, []⟩, ⟨0, 0, .rw, []⟩]⟩,
  ⟨.WAK_PORT_EN, 0x103010, [(0x4, 2)], 1, .aon, false, false, 0x0,
    [⟨31, 0, .rw, []⟩]⟩]
/-- Registers of block aon. -/
def aonRegs1 : List RegDef := [
  ⟨.WAK_PSLEEP, 0x103018, [(0x4, 2)], 1, .aon, false, false, 0x0,
    [⟨31, 0, .rw, []⟩]⟩,
  ⟨.WAK_FWD_PORTS, 0x103020, [(0x4, 2)], 1, .aon, false, false, 0x0,
    [⟨31, 0, .rw, []⟩]⟩,
  ⟨.WAK_OUT, 0x103028, [], 1, .aon, false, false, 0xA0000,
    [⟨23, 16, .rw, [(1, 255)]⟩, ⟨15, 9, .rw, []⟩, ⟨1, 1, .rw, []⟩, ⟨0, 0, .rw, []⟩]⟩,
  ⟨.WAK_TIMER, 0x10302C, [], 1, .aon, false, false, 0x0,
    [⟨23, 0, .rw, []⟩]⟩,
  ⟨.WAK_SOURCE, 0x103030, [], 1, .aon, false, false, 0x0,
    [⟨31, 31, .ro, []⟩, ⟨30, 24, .ro, []⟩, ⟨23, 20, .ro, []⟩, ⟨19, 16, .ro, []⟩, ⟨15, 8, .ro, []⟩, ⟨7, 0, .ro, []⟩]⟩,
  ⟨.WAK_STATUS, 0x103034, [], 1, .aon, false, false, 0x0,
    [⟨2, 2, .w1c, []⟩, ⟨1, 1, .ro, []⟩, ⟨0, 0, .ro, []⟩]⟩,
  ⟨.WAK_COUNT, 0x103038, [], 1, .aon, false, false, 0x0,
    [⟨31, 16, .rc, []⟩, ⟨15, 0, .ro, []⟩]⟩,
  ⟨.WAK_SLEEP_REQ_HELD, 0x10303C, [], 1, .aon, false, false, 0x0,
    [⟨31, 0, .rc, []⟩]⟩,
  ⟨.RST_CAUSE, 0x100000, [], 1, .aon, false, false, 0x11,
    [⟨31, 16, .ro, []⟩, ⟨7, 4, .ro, []⟩, ⟨3, 0, .ro, []⟩]⟩,
  ⟨.RST_START, 0x100004, [], 1, .aon, false, false, 0x0,
    [⟨31, 16, .ro, []⟩, ⟨2, 2, .ro, []⟩, ⟨1, 1, .ro, []⟩, ⟨0, 0, .wo, []⟩]⟩,
  ⟨.OPT_STATUS, 0x101000, [], 1, .aon, false, false, 0x0,
    [⟨12, 12, .w1c, []⟩, ⟨11, 11, .ro, []⟩, ⟨10, 10, .ro, []⟩, ⟨9, 8, .ro, []⟩, ⟨6, 6, .ro, []⟩, ⟨5, 4, .ro, []⟩, ⟨3, 3, .ro, []⟩, ⟨2, 0, .ro, []⟩]⟩,
  ⟨.OPT_BOOT, 0x101004, [], 1, .aon, false, false, 0x1800803,
    [⟨24, 24, .ro, []⟩, ⟨23, 22, .ro, []⟩, ⟨21, 18, .ro, []⟩, ⟨17, 16, .ro, []⟩, ⟨13, 8, .ro, []⟩, ⟨3, 0, .ro, []⟩]⟩]
/-- Registers of block aon. -/
def aonRegs2 : List RegDef := [
  ⟨.OPT_NEW_BOOT, 0x101010, [], 1, .aon, false, false, 0x1800803,
    [⟨24, 24, .rw, []⟩, ⟨23, 22, .rw, [(0, 2)]⟩, ⟨21, 18, .rw, []⟩, ⟨17, 16, .rw, [(0, 1)]⟩, ⟨13, 8, .rw, [(0, 31)]⟩, ⟨3, 0, .rw, [(1, 15)]⟩]⟩,
  ⟨.OPT_FLASH, 0x101008, [], 1, .aon, false, false, 0x800,
    [⟨12, 8, .ro, []⟩, ⟨3, 3, .ro, []⟩, ⟨2, 0, .ro, []⟩]⟩,
  ⟨.OPT_NEW_FLASH, 0x101014, [], 1, .aon, false, false, 0x800,
    [⟨12, 8, .rw, []⟩, ⟨3, 3, .rw, []⟩, ⟨2, 0, .rw, [(0, 4)]⟩]⟩,
  ⟨.OPT_SEQ, 0x10100C, [], 1, .aon, false, false, 0x0,
    [⟨31, 0, .ro, []⟩]⟩,
  ⟨.OPT_PROG, 0x101018, [], 1, .aon, false, false, 0x0,
    [⟨0, 0, .wo, []⟩]⟩]
/-- All registers of block aon. -/
def aonRegs : List RegDef := aonRegs0 ++ aonRegs1 ++ aonRegs2
/-- Registers of block log. -/
def logRegs0 : List RegDef := [
  ⟨.LOG_WORD, 0x200000, [(0x4, 1024)], 1, .aon, false, true, 0x0,
    [⟨31, 0, .pw, []⟩]⟩,
  ⟨.LOG_WEAR, 0x201000, [(0x4, 1024)], 1, .aon, false, true, 0x0,
    [⟨16, 0, .ro, []⟩]⟩,
  ⟨.LOG_STATUS, 0x202000, [], 1, .aon, false, false, 0x0,
    [⟨25, 16, .ro, []⟩, ⟨2, 2, .w1c, []⟩, ⟨1, 1, .w1c, []⟩, ⟨0, 0, .ro, []⟩]⟩,
  ⟨.LOG_FAIL_START, 0x202004, [], 1, .aon, false, true, 0x0,
    [⟨3, 0, .ro, []⟩]⟩,
  ⟨.LOG_SYS_WEAR, 0x202100, [(0x4, 8)], 1, .aon, false, true, 0x0,
    [⟨16, 0, .ro, []⟩]⟩]
/-- All registers of block log. -/
def logRegs : List RegDef := logRegs0
/-- Registers of block hif. -/
def hifRegs0 : List RegDef := [
  ⟨.HIF_CTRL, 0x300000, [], 1, .host, false, false, 0x0,
    [⟨0, 0, .rw, []⟩]⟩,
  ⟨.HIF_STATUS, 0x300004, [], 1, .host, false, false, 0x0,
    [⟨23, 16, .ro, []⟩, ⟨9, 9, .ro, []⟩, ⟨8, 8, .ro, []⟩, ⟨7, 4, .ro, []⟩, ⟨3, 0, .ro, []⟩]⟩,
  ⟨.HIF_POLL, 0x300008, [], 1, .host, false, false, 0x2001F4,
    [⟨25, 16, .rw, [(1, 1000)]⟩, ⟨13, 0, .rw, [(100, 10000)]⟩]⟩,
  ⟨.HIF_KICK, 0x30000C, [], 1, .host, false, false, 0x0,
    [⟨0, 0, .wo, []⟩]⟩,
  ⟨.HIF_DB_BASE, 0x300010, [], 2, .host, false, false, 0x0,
    [⟨63, 12, .rw, []⟩]⟩,
  ⟨.HIF_ST_BASE, 0x300018, [], 2, .host, false, false, 0x0,
    [⟨63, 12, .rw, []⟩]⟩,
  ⟨.HIF_CMD_BASE, 0x300020, [], 2, .host, false, false, 0x0,
    [⟨63, 6, .rw, []⟩]⟩,
  ⟨.HIF_EVT_BASE, 0x300030, [], 2, .host, false, false, 0x0,
    [⟨63, 6, .rw, []⟩]⟩,
  ⟨.HIF_CMD_CFG, 0x300028, [], 1, .host, false, false, 0x60,
    [⟨8, 4, .rw, [(6, 16)]⟩, ⟨1, 1, .w1c, []⟩, ⟨0, 0, .rw, []⟩]⟩,
  ⟨.HIF_EVT_CFG, 0x300038, [], 1, .host, false, false, 0x60,
    [⟨8, 4, .rw, [(6, 16)]⟩, ⟨1, 1, .w1c, []⟩, ⟨0, 0, .rw, []⟩]⟩,
  ⟨.HIF_RWIN, 0x300040, [], 1, .host, false, false, 0x0,
    [⟨24, 24, .w1c, []⟩, ⟨23, 16, .ro, []⟩, ⟨8, 8, .rw, []⟩, ⟨4, 0, .rw, []⟩]⟩,
  ⟨.HIF_RX_MAP, 0x300050, [], 1, .host, false, false, 0x0,
    [⟨31, 0, .rw, []⟩]⟩]
/-- Registers of block hif. -/
def hifRegs1 : List RegDef := [
  ⟨.HIF_EVT_VEC, 0x300060, [(0x4, 16)], 1, .host, false, false, 0x0,
    [⟨23, 16, .rw, []⟩, ⟨8, 8, .rw, []⟩, ⟨4, 0, .rw, []⟩]⟩,
  ⟨.HIF_TX_BASE, 0x301000, [(0x40, 16)], 2, .host, false, false, 0x0,
    [⟨63, 6, .rw, []⟩]⟩,
  ⟨.HIF_RX_BASE, 0x302000, [(0x40, 16)], 2, .host, false, false, 0x0,
    [⟨63, 6, .rw, []⟩]⟩,
  ⟨.HIF_TX_CFG, 0x301008, [(0x40, 16)], 1, .host, false, false, 0x60,
    [⟨31, 24, .rw, []⟩, ⟨20, 16, .rw, []⟩, ⟨15, 15, .rw, []⟩, ⟨14, 12, .rw, []⟩, ⟨8, 4, .rw, [(6, 16)]⟩, ⟨1, 1, .w1c, []⟩, ⟨0, 0, .rw, []⟩]⟩,
  ⟨.HIF_RX_CFG, 0x302008, [(0x40, 16)], 1, .host, false, false, 0x60,
    [⟨31, 24, .rw, []⟩, ⟨20, 16, .rw, []⟩, ⟨15, 15, .rw, []⟩, ⟨12, 12, .rw, []⟩, ⟨8, 4, .rw, [(6, 16)]⟩, ⟨1, 1, .w1c, []⟩, ⟨0, 0, .rw, []⟩]⟩,
  ⟨.HIF_CNT_CLEAR, 0x3000C0, [], 1, .host, false, false, 0x0,
    [⟨0, 0, .wo, []⟩]⟩,
  ⟨.HIF_TX_FRAMES, 0x301010, [(0x40, 16)], 1, .host, false, false, 0x0,
    [⟨31, 0, .ro, []⟩]⟩,
  ⟨.HIF_TX_DESC_ERR, 0x301014, [(0x40, 16)], 1, .host, false, false, 0x0,
    [⟨31, 0, .ro, []⟩]⟩,
  ⟨.HIF_RX_FRAMES, 0x302010, [(0x40, 16)], 1, .host, false, false, 0x0,
    [⟨31, 0, .ro, []⟩]⟩,
  ⟨.HIF_RX_NOBUF, 0x302014, [(0x40, 16)], 1, .host, false, false, 0x0,
    [⟨31, 0, .ro, []⟩]⟩,
  ⟨.HIF_RX_TRUNC, 0x302018, [(0x40, 16)], 1, .host, false, false, 0x0,
    [⟨31, 0, .ro, []⟩]⟩,
  ⟨.HIF_EVT_LOST, 0x3000A0, [], 1, .host, false, false, 0x0,
    [⟨31, 0, .ro, []⟩]⟩]
/-- All registers of block hif. -/
def hifRegs : List RegDef := hifRegs0 ++ hifRegs1
/-- Registers of block prt. -/
def prtRegs0 : List RegDef := [
  ⟨.PRT_MODE, 0x400000, [(0x4000, 64)], 1, .port, true, false, 0x0,
    [⟨17, 16, .rw, [(0, 1)]⟩, ⟨12, 12, .rw, []⟩, ⟨11, 11, .rwl, []⟩, ⟨10, 10, .rwl, []⟩, ⟨9, 8, .rwl, []⟩, ⟨7, 4, .rwl, []⟩, ⟨3, 2, .rwl, []⟩, ⟨0, 0, .rw, []⟩]⟩,
  ⟨.PRT_LINK_CFG, 0x400004, [(0x4000, 64)], 1, .port, true, false, 0xF3035100,
    [⟨31, 24, .rw, []⟩, ⟨18, 16, .rw, []⟩, ⟨14, 12, .rw, []⟩, ⟨8, 8, .rw, []⟩, ⟨6, 0, .rw, [(0, 100)]⟩]⟩,
  ⟨.PRT_LINK_STATUS, 0x400008, [(0x4000, 64)], 1, .port, false, false, 0x0,
    [⟨22, 16, .ro, []⟩, ⟨15, 12, .ro, []⟩, ⟨10, 10, .ro, []⟩, ⟨9, 9, .ro, []⟩, ⟨8, 8, .ro, []⟩, ⟨7, 4, .ro, []⟩, ⟨3, 0, .ro, []⟩]⟩,
  ⟨.PRT_LINK_EVENT, 0x40000C, [(0x4000, 64)], 1, .port, false, false, 0x0,
    [⟨6, 6, .w1c, []⟩, ⟨5, 5, .w1c, []⟩, ⟨4, 4, .w1c, []⟩, ⟨3, 3, .w1c, []⟩, ⟨2, 2, .w1c, []⟩, ⟨1, 1, .w1c, []⟩, ⟨0, 0, .w1c, []⟩]⟩,
  ⟨.PRT_SQI, 0x400010, [(0x4000, 64)], 1, .port, false, false, 0x70,
    [⟨6, 4, .rc, []⟩, ⟨2, 0, .ro, []⟩]⟩,
  ⟨.PRT_DIAG, 0x400014, [(0x4000, 64)], 1, .port, false, false, 0x0,
    [⟨31, 16, .ro, []⟩, ⟨6, 4, .ro, []⟩, ⟨2, 1, .ro, []⟩, ⟨0, 0, .wo, []⟩]⟩,
  ⟨.PRT_PLCA_CFG, 0x400020, [(0x4000, 64)], 1, .port, true, false, 0x200080,
    [⟨27, 24, .rwl, []⟩, ⟨23, 16, .rwl, [(2, 255)]⟩, ⟨8, 4, .rwl, [(1, 16)]⟩, ⟨3, 0, .rwl, [(1, 15)]⟩]⟩,
  ⟨.PRT_PLCA_STATUS, 0x400024, [(0x4000, 64)], 1, .port, false, false, 0x0,
    [⟨12, 8, .ro, []⟩, ⟨1, 1, .w1c, []⟩, ⟨0, 0, .ro, []⟩]⟩,
  ⟨.PRT_MDIO_CMD, 0x400030, [(0x4000, 64)], 1, .port, false, false, 0x0,
    [⟨31, 31, .wo, []⟩, ⟨27, 26, .rw, [(0, 1), (3, 3)]⟩, ⟨25, 21, .rw, []⟩, ⟨20, 16, .rw, []⟩, ⟨15, 0, .rw, []⟩]⟩,
  ⟨.PRT_MDIO_STATUS, 0x400034, [(0x4000, 64)], 1, .port, false, false, 0x0,
    [⟨16, 16, .ro, []⟩, ⟨15, 0, .ro, []⟩]⟩,
  ⟨.PRT_TS_DELAY, 0x400040, [(0x4000, 64)], 1, .port, true, false, 0x0,
    [⟨27, 16, .rw, []⟩, ⟨11, 0, .rw, []⟩]⟩,
  ⟨.PRT_RESUME_INFO, 0x400050, [(0x4000, 64)], 1, .aon, false, false, 0x0,
    [⟨31, 16, .ro, []⟩, ⟨15, 8, .ro, []⟩, ⟨7, 4, .ro, []⟩, ⟨1, 1, .ro, []⟩, ⟨0, 0, .ro, []⟩]⟩]
/-- Registers of block prt. -/
def prtRegs1 : List RegDef := [
  ⟨.PRT_CNT_CLEAR, 0x4001C0, [(0x4000, 64)], 1, .port, false, false, 0x0,
    [⟨0, 0, .wo, []⟩]⟩,
  ⟨.PRT_RX_FRAMES, 0x400100, [(0x4000, 64)], 2, .port, false, false, 0x0,
    [⟨63, 0, .ro, []⟩]⟩,
  ⟨.PRT_RX_OCTETS, 0x400108, [(0x4000, 64)], 2, .port, false, false, 0x0,
    [⟨63, 0, .ro, []⟩]⟩,
  ⟨.PRT_TX_FRAMES, 0x400110, [(0x4000, 64)], 2, .port, false, false, 0x0,
    [⟨63, 0, .ro, []⟩]⟩,
  ⟨.PRT_TX_OCTETS, 0x400118, [(0x4000, 64)], 2, .port, false, false, 0x0,
    [⟨63, 0, .ro, []⟩]⟩,
  ⟨.PRT_RX_FCS_ERR, 0x400120, [(0x4000, 64)], 1, .port, false, false, 0x0,
    [⟨31, 0, .ro, []⟩]⟩,
  ⟨.PRT_RX_LEN_ERR, 0x400124, [(0x4000, 64)], 1, .port, false, false, 0x0,
    [⟨31, 0, .ro, []⟩]⟩,
  ⟨.PRT_RX_PHY_ERR, 0x400128, [(0x4000, 64)], 1, .port, false, false, 0x0,
    [⟨31, 0, .ro, []⟩]⟩,
  ⟨.PRT_RX_PAUSE, 0x40012C, [(0x4000, 64)], 1, .port, false, false, 0x0,
    [⟨31, 0, .ro, []⟩]⟩,
  ⟨.PRT_FEC_CORR, 0x400130, [(0x4000, 64)], 1, .port, false, false, 0x0,
    [⟨31, 0, .ro, []⟩]⟩,
  ⟨.PRT_LINK_DOWN, 0x400134, [(0x4000, 64)], 1, .port, false, false, 0x0,
    [⟨31, 0, .ro, []⟩]⟩,
  ⟨.PRT_RESUME, 0x400138, [(0x4000, 64)], 1, .port, false, false, 0x0,
    [⟨31, 16, .ro, []⟩, ⟨15, 0, .ro, []⟩]⟩]
/-- Registers of block prt. -/
def prtRegs2 : List RegDef := [
  ⟨.PRT_PLCA_CNT, 0x40013C, [(0x4000, 64)], 1, .port, false, false, 0x0,
    [⟨31, 16, .ro, []⟩, ⟨15, 0, .ro, []⟩]⟩,
  ⟨.PRT_LANE_DISC, 0x400140, [(0x4000, 64), (0x4, 8)], 1, .port, false, false, 0x0,
    [⟨31, 0, .ro, []⟩]⟩]
/-- All registers of block prt. -/
def prtRegs : List RegDef := prtRegs0 ++ prtRegs1 ++ prtRegs2
/-- Registers of block fst. -/
def fstRegs0 : List RegDef := [
  ⟨.FST_CTRL, 0x500000, [], 1, .fabric, false, false, 0x2,
    [⟨1, 1, .rw, []⟩, ⟨0, 0, .rw, []⟩]⟩,
  ⟨.FST_CARVE, 0x500004, [], 1, .fabric, false, false, 0x10020040,
    [⟨29, 20, .rw, [(0, 511)]⟩, ⟨19, 10, .rw, [(0, 511)]⟩, ⟨9, 0, .rw, [(0, 511)]⟩]⟩,
  ⟨.FST_STATUS, 0x500008, [], 1, .fabric, false, false, 0x0,
    [⟨1, 1, .w1c, []⟩, ⟨0, 0, .ro, []⟩]⟩,
  ⟨.FST_DP_CFG, 0x500020, [], 1, .fabric, false, false, 0x1004,
    [⟨15, 8, .rw, []⟩, ⟨3, 0, .rw, [(0, 8)]⟩]⟩,
  ⟨.FST_POOL_INFO, 0x500030, [(0x4, 4)], 1, .fabric, false, false, 0x0,
    [⟨29, 20, .ro, []⟩, ⟨17, 0, .ro, []⟩]⟩,
  ⟨.FST_POOL_FREE, 0x500040, [(0x4, 4)], 1, .fabric, false, false, 0x0,
    [⟨17, 0, .ro, []⟩]⟩,
  ⟨.FST_POOL_LOW, 0x500050, [(0x4, 4)], 1, .fabric, false, false, 0x3FFFF,
    [⟨17, 0, .rc, []⟩]⟩,
  ⟨.FST_SHARED, 0x500060, [(0x4, 4)], 1, .fabric, false, false, 0x0,
    [⟨17, 0, .ro, []⟩]⟩,
  ⟨.FST_SHARED_USED, 0x500070, [(0x4, 4)], 1, .fabric, false, false, 0x0,
    [⟨17, 0, .ro, []⟩]⟩,
  ⟨.FST_HANDLE_FREE, 0x500080, [], 1, .fabric, false, false, 0x0,
    [⟨17, 0, .ro, []⟩]⟩,
  ⟨.FST_HANDLE_LOW, 0x500084, [], 1, .fabric, false, false, 0x3FFFF,
    [⟨17, 0, .rc, []⟩]⟩,
  ⟨.FST_QSEL, 0x500090, [], 1, .fabric, false, false, 0x0,
    [⟨9, 8, .rw, []⟩, ⟨6, 0, .rw, [(0, 69)]⟩]⟩]
/-- Registers of block fst. -/
def fstRegs1 : List RegDef := [
  ⟨.FST_QQUOTA, 0x500094, [], 1, .fabric, false, false, 0x0,
    [⟨17, 0, .ro, []⟩]⟩,
  ⟨.FST_QUSED, 0x500098, [], 1, .fabric, false, false, 0x0,
    [⟨17, 0, .ro, []⟩]⟩,
  ⟨.FST_QPEAK, 0x50009C, [], 1, .fabric, false, false, 0x0,
    [⟨17, 0, .rc, []⟩]⟩,
  ⟨.FST_SCRUB_CFG, 0x5000A0, [], 1, .fabric, false, false, 0x64,
    [⟨9, 0, .rw, [(10, 1000)]⟩]⟩,
  ⟨.FST_ERR_LOC, 0x5000A4, [], 1, .fabric, false, false, 0x0,
    [⟨31, 31, .w1c, []⟩, ⟨30, 30, .ro, []⟩, ⟨29, 29, .ro, []⟩, ⟨21, 20, .ro, []⟩, ⟨17, 0, .ro, []⟩]⟩,
  ⟨.FST_QUARANTINE, 0x5000A8, [], 1, .fabric, false, false, 0x0,
    [⟨25, 16, .ro, []⟩, ⟨9, 0, .ro, []⟩]⟩,
  ⟨.FST_CT_POOL, 0x500100, [(0x4, 32)], 1, .fabric, false, false, 0x2,
    [⟨1, 0, .rw, []⟩]⟩,
  ⟨.FST_CNT_CLEAR, 0x5002C0, [], 1, .fabric, false, false, 0x0,
    [⟨0, 0, .wo, []⟩]⟩,
  ⟨.FST_SHARED_DROP, 0x500200, [(0x4, 4)], 1, .fabric, false, false, 0x0,
    [⟨31, 0, .ro, []⟩]⟩,
  ⟨.FST_DP_DROP, 0x500210, [(0x4, 4)], 1, .fabric, false, false, 0x0,
    [⟨31, 0, .ro, []⟩]⟩,
  ⟨.FST_QUOTA_DROP, 0x500220, [], 1, .fabric, false, false, 0x0,
    [⟨31, 0, .ro, []⟩]⟩,
  ⟨.FST_HANDLE_DROP, 0x500224, [], 1, .fabric, false, false, 0x0,
    [⟨31, 0, .ro, []⟩]⟩]
/-- Registers of block fst. -/
def fstRegs2 : List RegDef := [
  ⟨.FST_CT_FALLBACK, 0x500228, [], 1, .fabric, false, false, 0x0,
    [⟨31, 0, .ro, []⟩]⟩,
  ⟨.FST_MIRROR_SHED, 0x50022C, [], 1, .fabric, false, false, 0x0,
    [⟨31, 0, .ro, []⟩]⟩,
  ⟨.FST_OFF_DROP, 0x500230, [], 1, .fabric, false, false, 0x0,
    [⟨31, 0, .ro, []⟩]⟩,
  ⟨.FST_ECC_CORR, 0x500234, [], 1, .fabric, false, false, 0x0,
    [⟨31, 0, .ro, []⟩]⟩,
  ⟨.FST_ECC_UNCORR, 0x500238, [], 1, .fabric, false, false, 0x0,
    [⟨31, 0, .ro, []⟩]⟩,
  ⟨.FST_HPAR_ERR, 0x50023C, [], 1, .fabric, false, false, 0x0,
    [⟨31, 0, .ro, []⟩]⟩,
  ⟨.FST_SCRUB_PASS, 0x500240, [], 1, .fabric, false, false, 0x0,
    [⟨31, 0, .ro, []⟩]⟩,
  ⟨.FST_ALLOC_DROP, 0x500244, [], 1, .fabric, false, false, 0x0,
    [⟨31, 0, .ro, []⟩]⟩]
/-- All registers of block fst. -/
def fstRegs : List RegDef := fstRegs0 ++ fstRegs1 ++ fstRegs2
/-- Registers of block fwd. -/
def fwdRegs0 : List RegDef := [
  ⟨.FWD_AGE, 0x600000, [], 1, .fabric, false, false, 0x8000012C,
    [⟨31, 31, .rw, []⟩, ⟨15, 0, .rw, [(10, 65535)]⟩]⟩,
  ⟨.FWD_FDB_STATUS, 0x600004, [], 1, .fabric, false, false, 0x0,
    [⟨28, 20, .ro, []⟩, ⟨16, 0, .ro, []⟩]⟩,
  ⟨.FWD_SMP_CFG, 0x600010, [], 1, .fabric, false, false, 0x20000,
    [⟨31, 28, .rw, []⟩, ⟨25, 25, .rw, []⟩, ⟨24, 24, .rw, []⟩, ⟨19, 16, .rw, [(1, 8)]⟩, ⟨15, 0, .rw, []⟩]⟩,
  ⟨.FWD_SMP_SRC, 0x600014, [(0x4, 3)], 1, .fabric, false, false, 0x0,
    [⟨31, 0, .rw, []⟩]⟩,
  ⟨.FWD_PORT_CFG, 0x600100, [(0x4, 70)], 1, .fabric, false, false, 0x1001,
    [⟨31, 16, .rw, []⟩, ⟨14, 14, .rw, []⟩, ⟨13, 13, .rw, []⟩, ⟨12, 12, .rw, []⟩, ⟨11, 0, .rw, [(1, 4094)]⟩]⟩,
  ⟨.FWD_PORT_LEARNED, 0x600300, [(0x4, 70)], 1, .fabric, false, false, 0x0,
    [⟨16, 0, .ro, []⟩]⟩,
  ⟨.FWD_RES_LIMIT, 0x600800, [(0x20, 70), (0x4, 8)], 1, .fabric, false, false, 0x4E20,
    [⟨20, 0, .rw, [(0, 2000000)]⟩]⟩,
  ⟨.FWD_CNT_CLEAR, 0x6024C0, [], 1, .fabric, false, false, 0x0,
    [⟨0, 0, .wo, []⟩]⟩,
  ⟨.FWD_CT_ABORTED, 0x602000, [(0x4, 32)], 1, .fabric, false, false, 0x0,
    [⟨31, 0, .ro, []⟩]⟩,
  ⟨.FWD_CT_OUTGREW, 0x602080, [(0x4, 32)], 1, .fabric, false, false, 0x0,
    [⟨31, 0, .ro, []⟩]⟩,
  ⟨.FWD_AGE_DROP, 0x602100, [(0x4, 70)], 1, .fabric, false, false, 0x0,
    [⟨31, 0, .ro, []⟩]⟩,
  ⟨.FWD_VLAN_DROP, 0x602280, [(0x4, 70)], 1, .fabric, false, false, 0x0,
    [⟨31, 0, .ro, []⟩]⟩]
/-- Registers of block fwd. -/
def fwdRegs1 : List RegDef := [
  ⟨.FWD_LEARN_FULL, 0x602400, [], 1, .fabric, false, false, 0x0,
    [⟨31, 0, .ro, []⟩]⟩,
  ⟨.FWD_LEARN_LIMIT, 0x602404, [], 1, .fabric, false, false, 0x0,
    [⟨31, 0, .ro, []⟩]⟩,
  ⟨.FWD_SA_CONFLICT, 0x602408, [], 1, .fabric, false, false, 0x0,
    [⟨31, 0, .ro, []⟩]⟩,
  ⟨.FWD_STATION_MOVE, 0x60240C, [], 1, .fabric, false, false, 0x0,
    [⟨31, 0, .ro, []⟩]⟩,
  ⟨.FWD_OVERSIZE, 0x602410, [], 1, .fabric, false, false, 0x0,
    [⟨31, 0, .ro, []⟩]⟩,
  ⟨.FWD_MIRROR_SKIP, 0x602414, [], 1, .fabric, false, false, 0x0,
    [⟨31, 0, .ro, []⟩]⟩,
  ⟨.FWD_SMP_FRAMES, 0x602418, [], 1, .fabric, false, false, 0x0,
    [⟨31, 0, .ro, []⟩]⟩,
  ⟨.FWD_FLOOD, 0x60241C, [], 1, .fabric, false, false, 0x0,
    [⟨31, 0, .ro, []⟩]⟩,
  ⟨.FWD_DA_DROP, 0x602420, [], 1, .fabric, false, false, 0x0,
    [⟨31, 0, .ro, []⟩]⟩]
/-- All registers of block fwd. -/
def fwdRegs : List RegDef := fwdRegs0 ++ fwdRegs1
/-- Registers of block frer. -/
def frerRegs0 : List RegDef := [
  ⟨.FRER_CNT, 0x700000, [(0x20, 1024), (0x4, 8)], 1, .fabric, false, false, 0x0,
    [⟨31, 0, .ro, []⟩]⟩]
/-- All registers of block frer. -/
def frerRegs : List RegDef := frerRegs0
/-- Registers of block ump. -/
def umpRegs0 : List RegDef := [
  ⟨.UMP_CFG, 0x800000, [], 1, .umpire, false, false, 0x3A,
    [⟨5, 5, .rw, []⟩, ⟨4, 4, .rw, []⟩, ⟨3, 3, .rw, []⟩, ⟨2, 2, .rw, []⟩, ⟨1, 1, .rw, []⟩, ⟨0, 0, .rw, []⟩]⟩,
  ⟨.UMP_TRAP, 0x800004, [], 1, .umpire, false, false, 0xF,
    [⟨3, 3, .rw, []⟩, ⟨2, 2, .rw, []⟩, ⟨1, 1, .rw, []⟩, ⟨0, 0, .rw, []⟩]⟩,
  ⟨.UMP_STATUS, 0x800008, [], 1, .umpire, false, false, 0x0,
    [⟨3, 3, .ro, []⟩, ⟨2, 2, .ro, []⟩, ⟨1, 1, .w1c, []⟩, ⟨0, 0, .ro, []⟩]⟩,
  ⟨.UMP_IMG, 0x800010, [], 1, .umpire, true, false, 0x0,
    [⟨31, 31, .rw, []⟩, ⟨12, 0, .rwl, []⟩]⟩,
  ⟨.UMP_PH_PROFILE, 0x800020, [(0x4, 4)], 1, .umpire, false, false, 0x78000A,
    [⟨31, 16, .rw, [(1, 65535)]⟩, ⟨7, 0, .rw, [(1, 255)]⟩]⟩,
  ⟨.UMP_PH_STATUS, 0x800030, [], 1, .umpire, false, false, 0x0,
    [⟨14, 0, .ro, []⟩]⟩,
  ⟨.UMP_CNT_CLEAR, 0x802000, [], 1, .umpire, false, false, 0x0,
    [⟨0, 0, .wo, []⟩]⟩,
  ⟨.UMP_OFF_DROP, 0x800100, [], 1, .fabric, false, false, 0x0,
    [⟨31, 0, .rc, []⟩]⟩,
  ⟨.UMP_DROP, 0x800200, [(0x4, 8)], 1, .umpire, false, false, 0x0,
    [⟨31, 0, .ro, []⟩]⟩,
  ⟨.UMP_MISS, 0x800220, [], 1, .umpire, false, false, 0x0,
    [⟨31, 0, .ro, []⟩]⟩,
  ⟨.UMP_PH_LEARN, 0x800224, [], 1, .umpire, false, false, 0x0,
    [⟨31, 0, .ro, []⟩]⟩,
  ⟨.UMP_PH_HIT, 0x800228, [], 1, .umpire, false, false, 0x0,
    [⟨31, 0, .ro, []⟩]⟩]
/-- Registers of block ump. -/
def umpRegs1 : List RegDef := [
  ⟨.UMP_PH_FULL, 0x80022C, [], 1, .umpire, false, false, 0x0,
    [⟨31, 0, .ro, []⟩]⟩,
  ⟨.UMP_PH_EXPIRE, 0x800230, [], 1, .umpire, false, false, 0x0,
    [⟨31, 0, .ro, []⟩]⟩,
  ⟨.UMP_TCAM_PAR, 0x800234, [], 1, .umpire, false, false, 0x0,
    [⟨31, 0, .ro, []⟩]⟩,
  ⟨.UMP_TRAP_CNT, 0x800240, [(0x4, 4)], 1, .umpire, false, false, 0x0,
    [⟨31, 0, .ro, []⟩]⟩,
  ⟨.UMP_ZONE_DENY, 0x800400, [(0x4, 256)], 1, .umpire, false, false, 0x0,
    [⟨31, 0, .ro, []⟩]⟩,
  ⟨.UMP_CNT_OCT, 0x800800, [(0x10, 256)], 2, .umpire, false, false, 0x0,
    [⟨63, 0, .ro, []⟩]⟩,
  ⟨.UMP_CNT_FRM, 0x800808, [(0x10, 256)], 2, .umpire, false, false, 0x0,
    [⟨63, 0, .ro, []⟩]⟩,
  ⟨.UMP_HIT, 0x880000, [(0x4, 8192)], 1, .umpire, false, false, 0x0,
    [⟨31, 0, .ro, []⟩]⟩,
  ⟨.UMP_PAT_HIT, 0x8A0000, [(0x4, 2048)], 1, .umpire, false, false, 0x0,
    [⟨31, 0, .ro, []⟩]⟩]
/-- All registers of block ump. -/
def umpRegs : List RegDef := umpRegs0 ++ umpRegs1
/-- Registers of block lne. -/
def lneRegs0 : List RegDef := [
  ⟨.LNE_OBS_PERIOD, 0xA00000, [], 1, .fabric, false, false, 0x3E8,
    [⟨19, 0, .rw, [(1, 1000000)]⟩]⟩,
  ⟨.LNE_TRAP_LANE, 0xA00004, [], 1, .fabric, false, false, 0x6557,
    [⟨14, 12, .rw, []⟩, ⟨10, 8, .rw, []⟩, ⟨6, 4, .rw, []⟩, ⟨2, 0, .rw, []⟩]⟩,
  ⟨.LNE_PORT_CFG, 0xA00100, [(0x4, 70)], 1, .fabric, false, false, 0x3E8000,
    [⟨31, 12, .rw, [(1, 1000000)]⟩, ⟨8, 8, .rw, []⟩, ⟨2, 0, .rw, []⟩]⟩,
  ⟨.LNE_PRIO_MAP, 0xA00300, [(0x4, 70)], 1, .fabric, false, false, 0xFAC688,
    [⟨23, 0, .rw, []⟩]⟩,
  ⟨.LNE_LANE_STATUS, 0xA00A00, [(0x4, 70)], 1, .fabric, false, false, 0x0,
    [⟨23, 16, .ro, []⟩, ⟨15, 8, .ro, []⟩, ⟨7, 0, .ro, []⟩]⟩,
  ⟨.LNE_MM_CFG, 0xA00600, [(0x4, 32)], 1, .fabric, false, false, 0xA00,
    [⟨14, 8, .rw, [(1, 127)]⟩, ⟨5, 4, .rw, []⟩, ⟨1, 1, .rw, []⟩, ⟨0, 0, .rw, []⟩]⟩,
  ⟨.LNE_MM_STATUS, 0xA00680, [(0x4, 32)], 1, .fabric, false, false, 0x0,
    [⟨4, 4, .ro, []⟩, ⟨2, 0, .ro, []⟩]⟩,
  ⟨.LNE_CNT_CLEAR, 0xA00FC0, [], 1, .fabric, false, false, 0x0,
    [⟨1, 1, .wo, []⟩, ⟨0, 0, .wo, []⟩]⟩,
  ⟨.LNE_STR_FRAMES, 0xA40000, [(0x10, 4096)], 1, .fabric, false, false, 0x0,
    [⟨31, 0, .ro, []⟩]⟩,
  ⟨.LNE_STR_METER_DROP, 0xA40004, [(0x10, 4096)], 1, .fabric, false, false, 0x0,
    [⟨31, 0, .ro, []⟩]⟩,
  ⟨.LNE_STR_OVERSIZE, 0xA40008, [(0x10, 4096)], 1, .fabric, false, false, 0x0,
    [⟨31, 0, .ro, []⟩]⟩,
  ⟨.LNE_RSV_SKIP, 0xA00800, [(0x4, 70)], 1, .fabric, false, false, 0x0,
    [⟨31, 0, .ro, []⟩]⟩]
/-- Registers of block lne. -/
def lneRegs1 : List RegDef := [
  ⟨.LNE_MM_FRAG_TX, 0xA00C00, [(0x10, 32)], 1, .fabric, false, false, 0x0,
    [⟨31, 0, .ro, []⟩]⟩,
  ⟨.LNE_MM_FRAG_RX, 0xA00C04, [(0x10, 32)], 1, .fabric, false, false, 0x0,
    [⟨31, 0, .ro, []⟩]⟩,
  ⟨.LNE_MM_ASSY_ERR, 0xA00C08, [(0x10, 32)], 1, .fabric, false, false, 0x0,
    [⟨31, 0, .ro, []⟩]⟩,
  ⟨.LNE_MM_SMD_ERR, 0xA00C0C, [(0x10, 32)], 1, .fabric, false, false, 0x0,
    [⟨31, 0, .ro, []⟩]⟩,
  ⟨.LNE_HINT_MISS, 0xA00E00, [], 1, .fabric, false, false, 0x0,
    [⟨31, 0, .ro, []⟩]⟩,
  ⟨.LNE_OBS_LAST, 0xA80000, [(0x400, 70), (0x80, 8)], 1, .fabric, false, false, 0x0,
    [⟨31, 0, .ro, []⟩]⟩,
  ⟨.LNE_OBS_MIN, 0xA80004, [(0x400, 70), (0x80, 8)], 1, .fabric, false, false, 0xFFFFFFFF,
    [⟨31, 0, .rc, []⟩]⟩,
  ⟨.LNE_OBS_MAX, 0xA80008, [(0x400, 70), (0x80, 8)], 1, .fabric, false, false, 0x0,
    [⟨31, 0, .rc, []⟩]⟩,
  ⟨.LNE_OBS_DEPTH, 0xA8000C, [(0x400, 70), (0x80, 8)], 1, .fabric, false, false, 0x0,
    [⟨17, 0, .ro, []⟩]⟩,
  ⟨.LNE_OBS_MAX_DEPTH, 0xA80010, [(0x400, 70), (0x80, 8)], 1, .fabric, false, false, 0x0,
    [⟨17, 0, .rc, []⟩]⟩,
  ⟨.LNE_OBS_BIN, 0xA80040, [(0x400, 70), (0x80, 8), (0x4, 16)], 1, .fabric, false, false, 0x0,
    [⟨31, 0, .ro, []⟩]⟩]
/-- All registers of block lne. -/
def lneRegs : List RegDef := lneRegs0 ++ lneRegs1
/-- Registers of block gte. -/
def gteRegs0 : List RegDef := [
  ⟨.GTE_HOLD, 0xB00000, [(0x4, 70)], 1, .fabric, false, false, 0x0,
    [⟨7, 0, .rw, []⟩]⟩,
  ⟨.GTE_STATUS, 0xB00200, [(0x4, 70)], 1, .fabric, false, false, 0xFF,
    [⟨25, 16, .ro, []⟩, ⟨9, 9, .ro, []⟩, ⟨8, 8, .ro, []⟩, ⟨7, 0, .ro, []⟩]⟩,
  ⟨.GTE_CNT_CLEAR, 0xB00FC0, [], 1, .fabric, false, false, 0x0,
    [⟨0, 0, .wo, []⟩]⟩,
  ⟨.GTE_LATE_END, 0xB00400, [(0x4, 70)], 1, .fabric, false, false, 0x0,
    [⟨31, 0, .ro, []⟩]⟩,
  ⟨.GTE_GUARD_DEFER, 0xB00600, [(0x4, 70)], 1, .fabric, false, false, 0x0,
    [⟨31, 0, .ro, []⟩]⟩]
/-- All registers of block gte. -/
def gteRegs : List RegDef := gteRegs0
/-- Registers of block heat. -/
def heatRegs0 : List RegDef := [
  ⟨.HEAT_CFG, 0xC00000, [], 1, .fabric, false, false, 0xC0,
    [⟨7, 0, .rw, [(1, 255)]⟩]⟩,
  ⟨.HEAT_STATUS, 0xC00004, [], 1, .fabric, false, false, 0x0,
    [⟨31, 24, .ro, []⟩, ⟨16, 16, .ro, []⟩, ⟨14, 8, .ro, []⟩, ⟨2, 0, .ro, []⟩]⟩,
  ⟨.HEAT_RUN_TIME, 0xC00008, [], 1, .fabric, false, false, 0x0,
    [⟨31, 0, .ro, []⟩]⟩,
  ⟨.HEAT_RUN_ID, 0xC0000C, [], 1, .fabric, false, false, 0x0,
    [⟨15, 0, .ro, []⟩]⟩,
  ⟨.HEAT_PAIRS, 0xC00010, [], 1, .fabric, false, false, 0x0,
    [⟨27, 17, .ro, []⟩, ⟨16, 0, .ro, []⟩]⟩,
  ⟨.HEAT_BSEL, 0xC00020, [], 1, .fabric, false, false, 0x0,
    [⟨25, 16, .rw, []⟩, ⟨6, 0, .rw, [(0, 69)]⟩]⟩,
  ⟨.HEAT_BOUND, 0xC00024, [], 1, .fabric, false, false, 0x0,
    [⟨31, 31, .ro, []⟩, ⟨30, 0, .ro, []⟩]⟩,
  ⟨.HEAT_BOUND_CHG, 0xC00028, [], 1, .fabric, false, false, 0x0,
    [⟨31, 31, .ro, []⟩, ⟨30, 0, .ro, []⟩]⟩,
  ⟨.HEAT_UNDECL_SKIP, 0xC00100, [], 1, .fabric, false, false, 0x0,
    [⟨31, 0, .ro, []⟩]⟩,
  ⟨.HEAT_CNT_CLEAR, 0xC001C0, [], 1, .fabric, false, false, 0x0,
    [⟨0, 0, .wo, []⟩]⟩]
/-- All registers of block heat. -/
def heatRegs : List RegDef := heatRegs0
/-- Registers of block tim. -/
def timRegs0 : List RegDef := [
  ⟨.TIM_DOM_CFG, 0xD00000, [(0x100, 4)], 1, .time, true, false, 0x640001,
    [⟨25, 16, .rw, [(1, 1000)]⟩, ⟨15, 8, .rw, [(0, 127)]⟩, ⟨1, 1, .rwl, []⟩, ⟨0, 0, .rw, []⟩]⟩,
  ⟨.TIM_DOM_STATUS, 0xD00004, [(0x100, 4)], 1, .time, false, false, 0x0,
    [⟨15, 14, .ro, []⟩, ⟨11, 8, .ro, []⟩, ⟨4, 4, .ro, []⟩, ⟨3, 3, .ro, []⟩, ⟨2, 0, .ro, []⟩]⟩,
  ⟨.TIM_INCR, 0xD00008, [(0x100, 4)], 1, .time, false, false, 0x20000000,
    [⟨31, 28, .rw, []⟩, ⟨27, 0, .rw, []⟩]⟩,
  ⟨.TIM_INCR_AVG, 0xD0000C, [(0x100, 4)], 1, .time, false, false, 0x20000000,
    [⟨31, 0, .ro, []⟩]⟩,
  ⟨.TIM_NOW_NS, 0xD00010, [(0x100, 4)], 1, .time, false, false, 0x0,
    [⟨29, 0, .ro, []⟩]⟩,
  ⟨.TIM_NOW_FRAC, 0xD00014, [(0x100, 4)], 1, .time, false, false, 0x0,
    [⟨15, 0, .ro, []⟩]⟩,
  ⟨.TIM_NOW_SEC, 0xD00018, [(0x100, 4)], 2, .time, false, false, 0x0,
    [⟨47, 0, .ro, []⟩]⟩,
  ⟨.TIM_SHORT, 0xD00020, [(0x100, 4)], 1, .time, false, false, 0x0,
    [⟨31, 0, .ro, []⟩]⟩,
  ⟨.TIM_SET_SEC, 0xD00028, [(0x100, 4)], 2, .time, false, false, 0x0,
    [⟨47, 0, .rw, []⟩]⟩,
  ⟨.TIM_SET_NS, 0xD00030, [(0x100, 4)], 1, .time, false, false, 0x0,
    [⟨31, 31, .wo, []⟩, ⟨29, 0, .rw, [(0, 999999999)]⟩]⟩,
  ⟨.TIM_SLEW, 0xD00038, [(0x100, 4)], 1, .time, false, false, 0x0,
    [⟨31, 0, .wo, []⟩]⟩,
  ⟨.TIM_SLEW_LEFT, 0xD0003C, [(0x100, 4)], 1, .time, false, false, 0x0,
    [⟨31, 0, .ro, []⟩]⟩]
/-- Registers of block tim. -/
def timRegs1 : List RegDef := [
  ⟨.TIM_STEP, 0xD00040, [(0x100, 4)], 2, .time, false, false, 0x0,
    [⟨63, 0, .wo, []⟩]⟩,
  ⟨.TIM_JUMP_LIMIT, 0xD00048, [(0x100, 4)], 1, .time, true, false, 0x2710,
    [⟨29, 0, .rwl, [(1, 1000000000)]⟩]⟩,
  ⟨.TIM_REFUSED_OFFSET, 0xD00050, [(0x100, 4)], 2, .time, false, false, 0x0,
    [⟨63, 0, .ro, []⟩]⟩,
  ⟨.TIM_SERVO_CFG, 0xD00058, [(0x100, 4)], 1, .time, true, false, 0xFA1000,
    [⟨29, 16, .rw, [(10, 10000)]⟩, ⟨12, 10, .rw, []⟩, ⟨8, 8, .rw, []⟩, ⟨3, 0, .rw, []⟩]⟩,
  ⟨.TIM_SERVO_CTRL, 0xD0005C, [(0x100, 4)], 1, .time, false, false, 0x0,
    [⟨1, 1, .wo, []⟩, ⟨0, 0, .wo, []⟩]⟩,
  ⟨.TIM_LOCK_ERR, 0xD00060, [(0x100, 4)], 1, .time, false, false, 0x0,
    [⟨31, 0, .ro, []⟩]⟩,
  ⟨.TIM_SNAP_CTRL, 0xD00800, [], 1, .time, false, false, 0x0,
    [⟨1, 1, .ro, []⟩, ⟨0, 0, .wo, []⟩]⟩,
  ⟨.TIM_SNAP_SEC, 0xD00810, [(0x10, 4)], 2, .time, false, false, 0x0,
    [⟨47, 0, .ro, []⟩]⟩,
  ⟨.TIM_SNAP_NS, 0xD00818, [(0x10, 4)], 1, .time, false, false, 0x0,
    [⟨29, 0, .ro, []⟩]⟩,
  ⟨.TIM_EDGE_CFG, 0xD00880, [], 1, .time, false, false, 0x0,
    [⟨31, 20, .rw, [(0, 40950)]⟩, ⟨16, 8, .rw, []⟩, ⟨5, 4, .rw, []⟩, ⟨1, 0, .rw, []⟩]⟩,
  ⟨.TIM_CNT_CLEAR, 0xD00AC0, [], 1, .time, false, false, 0x0,
    [⟨0, 0, .wo, []⟩]⟩,
  ⟨.TIM_CATCH_CFG, 0xD01000, [(0x40, 16)], 1, .time, false, false, 0x0,
    [⟨4, 4, .rw, []⟩, ⟨3, 2, .rw, []⟩, ⟨1, 1, .rw, []⟩, ⟨0, 0, .rw, []⟩]⟩]
/-- Registers of block tim. -/
def timRegs2 : List RegDef := [
  ⟨.TIM_CATCH_START_SEC, 0xD01008, [(0x40, 16)], 2, .time, false, false, 0x0,
    [⟨47, 0, .rw, []⟩]⟩,
  ⟨.TIM_CATCH_START_NS, 0xD01010, [(0x40, 16)], 1, .time, false, false, 0x0,
    [⟨29, 0, .rw, [(0, 999999999)]⟩]⟩,
  ⟨.TIM_CATCH_PERIOD, 0xD01014, [(0x40, 16)], 1, .time, false, false, 0x0,
    [⟨29, 0, .rw, [(0, 0), (100, 1000000000)]⟩]⟩,
  ⟨.TIM_CATCH_WIDTH, 0xD01018, [(0x40, 16)], 1, .time, false, false, 0x8,
    [⟨28, 0, .rw, [(8, 500000000)]⟩]⟩,
  ⟨.TIM_CATCH_STATUS, 0xD0101C, [(0x40, 16)], 1, .time, false, false, 0x0,
    [⟨2, 2, .w1c, []⟩, ⟨1, 1, .w1c, []⟩, ⟨0, 0, .ro, []⟩]⟩,
  ⟨.TIM_BUOY_CFG, 0xD02000, [(0x40, 16)], 1, .time, false, false, 0x0,
    [⟨15, 8, .rw, []⟩, ⟨6, 6, .rw, []⟩, ⟨5, 4, .rw, []⟩, ⟨2, 1, .rw, []⟩, ⟨0, 0, .rw, []⟩]⟩,
  ⟨.TIM_BUOY_STATUS, 0xD02004, [(0x40, 16)], 1, .time, false, false, 0x0,
    [⟨5, 5, .ro, []⟩, ⟨4, 4, .w1c, []⟩, ⟨3, 0, .ro, []⟩]⟩,
  ⟨.TIM_BUOY_HEAD_NS, 0xD02008, [(0x40, 16)], 1, .time, false, false, 0x0,
    [⟨31, 31, .ro, []⟩, ⟨30, 30, .ro, []⟩, ⟨29, 0, .ro, []⟩]⟩,
  ⟨.TIM_BUOY_HEAD_FRAC, 0xD0200C, [(0x40, 16)], 1, .time, false, false, 0x0,
    [⟨15, 0, .ro, []⟩]⟩,
  ⟨.TIM_BUOY_HEAD_SEC, 0xD02010, [(0x40, 16)], 2, .time, false, false, 0x0,
    [⟨47, 0, .ro, []⟩]⟩,
  ⟨.TIM_BUOY_POP, 0xD02018, [(0x40, 16)], 1, .time, false, false, 0x0,
    [⟨0, 0, .wo, []⟩]⟩,
  ⟨.TIM_TS_LOST, 0xD00900, [(0x4, 64)], 1, .time, false, false, 0x0,
    [⟨31, 0, .ro, []⟩]⟩]
/-- Registers of block tim. -/
def timRegs3 : List RegDef := [
  ⟨.TIM_STEP_REFUSED, 0xD00A00, [(0x4, 4)], 1, .time, false, false, 0x0,
    [⟨31, 0, .ro, []⟩]⟩,
  ⟨.TIM_LOCK_REJECT, 0xD00A10, [(0x4, 4)], 1, .time, false, false, 0x0,
    [⟨31, 0, .ro, []⟩]⟩,
  ⟨.TIM_CATCH_PULSES, 0xD01020, [(0x40, 16)], 1, .time, false, false, 0x0,
    [⟨31, 0, .ro, []⟩]⟩,
  ⟨.TIM_CATCH_SKIPPED, 0xD01024, [(0x40, 16)], 1, .time, false, false, 0x0,
    [⟨31, 0, .ro, []⟩]⟩,
  ⟨.TIM_BUOY_LOST, 0xD0201C, [(0x40, 16)], 1, .time, false, false, 0x0,
    [⟨31, 0, .ro, []⟩]⟩]
/-- All registers of block tim. -/
def timRegs : List RegDef := timRegs0 ++ timRegs1 ++ timRegs2 ++ timRegs3
/-- Registers of block edg. -/
def edgRegs0 : List RegDef := [
  ⟨.EDG_CAN_CTRL, 0xE00000, [(0x100, 32)], 1, .edge, false, false, 0x0,
    [⟨9, 9, .rw, []⟩, ⟨8, 8, .rw, []⟩, ⟨7, 7, .rw, []⟩, ⟨6, 6, .rw, []⟩, ⟨4, 4, .wo, []⟩, ⟨3, 3, .rw, []⟩, ⟨2, 1, .rw, [(0, 2)]⟩, ⟨0, 0, .rw, []⟩]⟩,
  ⟨.EDG_CAN_NBT, 0xE00004, [(0x100, 32)], 1, .edge, false, false, 0x20407F01,
    [⟨30, 24, .rw, [(1, 127)]⟩, ⟨23, 17, .rw, [(2, 127)]⟩, ⟨16, 8, .rw, [(2, 256)]⟩, ⟨5, 0, .rw, [(1, 32)]⟩]⟩,
  ⟨.EDG_CAN_DBT, 0xE00008, [(0x100, 32)], 1, .edge, false, false, 0x8081F01,
    [⟨28, 24, .rw, [(1, 31)]⟩, ⟨20, 16, .rw, [(1, 31)]⟩, ⟨13, 8, .rw, [(1, 63)]⟩, ⟨5, 0, .rw, [(1, 32)]⟩]⟩,
  ⟨.EDG_CAN_XL, 0xE0000C, [(0x100, 32)], 1, .edge, false, false, 0x0,
    [⟨29, 24, .rw, []⟩, ⟨21, 16, .rw, [(1, 63)]⟩, ⟨13, 8, .rw, [(1, 63)]⟩, ⟨7, 7, .rw, []⟩, ⟨6, 0, .rw, []⟩]⟩,
  ⟨.EDG_CAN_STATUS, 0xE00010, [(0x100, 32)], 1, .edge, false, false, 0x0,
    [⟨26, 24, .ro, []⟩, ⟨22, 16, .ro, []⟩, ⟨15, 8, .ro, []⟩, ⟨2, 0, .ro, []⟩]⟩,
  ⟨.EDG_CAN_EVENT, 0xE00014, [(0x100, 32)], 1, .edge, false, false, 0x0,
    [⟨3, 3, .w1c, []⟩, ⟨2, 2, .w1c, []⟩, ⟨1, 1, .w1c, []⟩, ⟨0, 0, .w1c, []⟩]⟩,
  ⟨.EDG_CAN_LAST_TX, 0xE00018, [(0x100, 32)], 1, .edge, false, false, 0x0,
    [⟨31, 0, .ro, []⟩]⟩,
  ⟨.EDG_LIN_CTRL, 0xE04000, [(0x100, 16)], 1, .edge, false, false, 0x4B000D00,
    [⟨30, 16, .rw, [(1000, 20000)]⟩, ⟨12, 8, .rw, [(13, 20)]⟩, ⟨3, 3, .wo, []⟩, ⟨2, 2, .rw, []⟩, ⟨1, 1, .rw, []⟩, ⟨0, 0, .rw, []⟩]⟩,
  ⟨.EDG_LIN_SCHED, 0xE04004, [(0x100, 16)], 1, .edge, false, false, 0x0,
    [⟨13, 8, .ro, []⟩, ⟨5, 4, .ro, []⟩, ⟨1, 0, .rw, []⟩]⟩,
  ⟨.EDG_LIN_STATUS, 0xE04008, [(0x100, 16)], 1, .edge, false, false, 0x0,
    [⟨6, 4, .ro, []⟩, ⟨1, 0, .ro, []⟩]⟩,
  ⟨.EDG_XMODE, 0xE06000, [], 1, .edge, false, false, 0x0,
    [⟨7, 0, .rw, []⟩]⟩,
  ⟨.EDG_CNT_CLEAR, 0xE06FC0, [], 1, .edge, false, false, 0x0,
    [⟨0, 0, .wo, []⟩]⟩]
/-- Registers of block edg. -/
def edgRegs1 : List RegDef := [
  ⟨.EDG_CAN_RX_FRAMES, 0xE00040, [(0x100, 32)], 1, .edge, false, false, 0x0,
    [⟨31, 0, .ro, []⟩]⟩,
  ⟨.EDG_CAN_TX_FRAMES, 0xE00044, [(0x100, 32)], 1, .edge, false, false, 0x0,
    [⟨31, 0, .ro, []⟩]⟩,
  ⟨.EDG_CAN_RX_UNMATCHED, 0xE00048, [(0x100, 32)], 1, .edge, false, false, 0x0,
    [⟨31, 0, .ro, []⟩]⟩,
  ⟨.EDG_CAN_RX_RTR, 0xE0004C, [(0x100, 32)], 1, .edge, false, false, 0x0,
    [⟨31, 0, .ro, []⟩]⟩,
  ⟨.EDG_CAN_TX_LATE_DROP, 0xE00050, [(0x100, 32)], 1, .edge, false, false, 0x0,
    [⟨31, 0, .ro, []⟩]⟩,
  ⟨.EDG_CAN_BUSOFF_DROP, 0xE00054, [(0x100, 32)], 1, .edge, false, false, 0x0,
    [⟨31, 0, .ro, []⟩]⟩,
  ⟨.EDG_CAN_BUSOFF_CNT, 0xE00058, [(0x100, 32)], 1, .edge, false, false, 0x0,
    [⟨31, 0, .ro, []⟩]⟩,
  ⟨.EDG_CAN_ERR_CNT, 0xE0005C, [(0x100, 32)], 1, .edge, false, false, 0x0,
    [⟨31, 0, .ro, []⟩]⟩,
  ⟨.EDG_LIN_RX, 0xE04040, [(0x100, 16)], 1, .edge, false, false, 0x0,
    [⟨31, 0, .ro, []⟩]⟩,
  ⟨.EDG_LIN_TX, 0xE04044, [(0x100, 16)], 1, .edge, false, false, 0x0,
    [⟨31, 0, .ro, []⟩]⟩,
  ⟨.EDG_LIN_CHK_ERR, 0xE04048, [(0x100, 16)], 1, .edge, false, false, 0x0,
    [⟨31, 0, .ro, []⟩]⟩,
  ⟨.EDG_LIN_NO_RESP, 0xE0404C, [(0x100, 16)], 1, .edge, false, false, 0x0,
    [⟨31, 0, .ro, []⟩]⟩]
/-- Registers of block edg. -/
def edgRegs2 : List RegDef := [
  ⟨.EDG_LIN_FRAME_ERR, 0xE04050, [(0x100, 16)], 1, .edge, false, false, 0x0,
    [⟨31, 0, .ro, []⟩]⟩]
/-- All registers of block edg. -/
def edgRegs : List RegDef := edgRegs0 ++ edgRegs1 ++ edgRegs2
/-- Registers of block rig. -/
def rigRegs0 : List RegDef := [
  ⟨.RIG_CFG, 0xF00000, [], 1, .edge, false, false, 0x88B60000,
    [⟨31, 16, .rw, []⟩, ⟨0, 0, .rw, []⟩]⟩,
  ⟨.RIG_UDP, 0xF00004, [], 1, .edge, false, false, 0xC224,
    [⟨15, 0, .rw, []⟩]⟩,
  ⟨.RIG_IP, 0xF00008, [], 1, .edge, false, false, 0x0,
    [⟨31, 0, .rw, []⟩]⟩,
  ⟨.RIG_MAC_LO, 0xF0000C, [], 1, .edge, false, false, 0x0,
    [⟨31, 0, .rw, []⟩]⟩,
  ⟨.RIG_MAC_HI, 0xF00010, [], 1, .edge, false, false, 0x0,
    [⟨15, 0, .rw, []⟩]⟩,
  ⟨.RIG_STATUS, 0xF00014, [], 1, .edge, false, false, 0x0,
    [⟨3, 3, .ro, []⟩, ⟨2, 2, .ro, []⟩, ⟨1, 1, .w1c, []⟩, ⟨0, 0, .ro, []⟩]⟩,
  ⟨.RIG_IMG, 0xF00018, [], 1, .edge, true, false, 0x0,
    [⟨31, 31, .rw, []⟩, ⟨12, 0, .rwl, []⟩]⟩,
  ⟨.RIG_LOAD, 0xF00020, [], 1, .edge, false, false, 0x0,
    [⟨31, 16, .ro, []⟩, ⟨15, 0, .ro, []⟩]⟩,
  ⟨.RIG_BURST, 0xF00024, [], 1, .edge, false, false, 0x0,
    [⟨31, 16, .ro, []⟩, ⟨15, 0, .ro, []⟩]⟩,
  ⟨.RIG_ERR_LOC, 0xF00028, [], 1, .edge, false, false, 0x0,
    [⟨31, 31, .w1c, []⟩, ⟨30, 30, .ro, []⟩, ⟨29, 28, .ro, []⟩, ⟨12, 0, .ro, []⟩]⟩,
  ⟨.RIG_STALE, 0xF01000, [(0x4, 256)], 1, .edge, false, false, 0xFFFFFFFF,
    [⟨31, 0, .ro, []⟩]⟩,
  ⟨.RIG_CNT_CLEAR, 0xF000C0, [], 1, .edge, false, false, 0x0,
    [⟨0, 0, .wo, []⟩]⟩]
/-- Registers of block rig. -/
def rigRegs1 : List RegDef := [
  ⟨.RIG_GAP_SKIP, 0xF00100, [], 1, .edge, false, false, 0x0,
    [⟨31, 0, .ro, []⟩]⟩,
  ⟨.RIG_SAT, 0xF00104, [], 1, .edge, false, false, 0x0,
    [⟨31, 0, .ro, []⟩]⟩,
  ⟨.RIG_INVALID_IN, 0xF00108, [], 1, .edge, false, false, 0x0,
    [⟨31, 0, .ro, []⟩]⟩,
  ⟨.RIG_STALE_ENTER, 0xF0010C, [], 1, .edge, false, false, 0x0,
    [⟨31, 0, .ro, []⟩]⟩,
  ⟨.RIG_SILENCED, 0xF00110, [], 1, .edge, false, false, 0x0,
    [⟨31, 0, .ro, []⟩]⟩,
  ⟨.RIG_OVERWRITE, 0xF00114, [], 1, .edge, false, false, 0x0,
    [⟨31, 0, .ro, []⟩]⟩,
  ⟨.RIG_ETH_UNMATCHED, 0xF00118, [], 1, .edge, false, false, 0x0,
    [⟨31, 0, .ro, []⟩]⟩,
  ⟨.RIG_CONT_SKIP, 0xF0011C, [], 1, .edge, false, false, 0x0,
    [⟨31, 0, .ro, []⟩]⟩,
  ⟨.RIG_CONT_UNMATCHED, 0xF00120, [], 1, .edge, false, false, 0x0,
    [⟨31, 0, .ro, []⟩]⟩,
  ⟨.RIG_ACF_REJECT, 0xF00124, [], 1, .edge, false, false, 0x0,
    [⟨31, 0, .ro, []⟩]⟩,
  ⟨.RIG_ACF_XL_SKIP, 0xF00128, [], 1, .edge, false, false, 0x0,
    [⟨31, 0, .ro, []⟩]⟩,
  ⟨.RIG_ECC_CORR, 0xF0012C, [], 1, .edge, false, false, 0x0,
    [⟨31, 0, .ro, []⟩]⟩]
/-- Registers of block rig. -/
def rigRegs2 : List RegDef := [
  ⟨.RIG_ECC_UNCORR, 0xF00130, [], 1, .edge, false, false, 0x0,
    [⟨31, 0, .ro, []⟩]⟩]
/-- All registers of block rig. -/
def rigRegs : List RegDef := rigRegs0 ++ rigRegs1 ++ rigRegs2
/-- Registers of block hfp. -/
def hfpRegs0 : List RegDef := [
  ⟨.HFP_CFG, 0x1000000, [], 1, .fabric, false, false, 0xA010000,
    [⟨31, 24, .rw, [(1, 255)]⟩, ⟨20, 16, .rwl, []⟩, ⟨12, 8, .rwl, []⟩, ⟨5, 5, .rw, []⟩, ⟨4, 0, .rwl, []⟩]⟩,
  ⟨.HFP_ETYPE, 0x1000004, [], 1, .fabric, false, false, 0x88B5,
    [⟨15, 0, .rw, []⟩]⟩,
  ⟨.HFP_TAG, 0x1000008, [], 1, .fabric, false, false, 0x75000,
    [⟨18, 16, .rw, []⟩, ⟨14, 12, .rw, []⟩, ⟨11, 0, .rw, [(0, 4094)]⟩]⟩,
  ⟨.HFP_MAC_LO, 0x100000C, [], 1, .fabric, false, false, 0x0,
    [⟨31, 0, .rw, []⟩]⟩,
  ⟨.HFP_MAC_HI, 0x1000010, [], 1, .fabric, false, false, 0x0,
    [⟨15, 0, .rw, []⟩]⟩,
  ⟨.HFP_PORTS, 0x1000014, [(0x4, 2)], 1, .fabric, false, false, 0x0,
    [⟨31, 0, .rw, []⟩]⟩,
  ⟨.HFP_ACL, 0x100001C, [], 1, .fabric, false, false, 0xFFFFFFFF,
    [⟨31, 0, .rwl, []⟩]⟩,
  ⟨.HFP_TIMEOUT, 0x1000020, [], 1, .fabric, false, false, 0x14000A,
    [⟨31, 16, .rw, [(1, 1000)]⟩, ⟨15, 0, .rw, [(1, 1000)]⟩]⟩,
  ⟨.HFP_COMMIT_CFG, 0x1000024, [], 1, .fabric, false, false, 0x320005,
    [⟨31, 16, .rw, [(1, 1000)]⟩, ⟨15, 0, .rw, [(1, 1000)]⟩]⟩,
  ⟨.HFP_LOCK_CFG, 0x1000028, [], 1, .fabric, false, false, 0x14,
    [⟨15, 0, .rw, [(5, 1000)]⟩]⟩,
  ⟨.HFP_FAB_STATUS, 0x1000040, [], 1, .fabric, false, false, 0x1000000,
    [⟨31, 24, .ro, []⟩, ⟨20, 16, .ro, []⟩, ⟨15, 15, .ro, []⟩, ⟨10, 10, .ro, []⟩, ⟨9, 9, .ro, []⟩, ⟨8, 8, .ro, []⟩, ⟨1, 0, .ro, []⟩]⟩,
  ⟨.HFP_REACH, 0x1000044, [], 1, .fabric, false, false, 0x0,
    [⟨31, 0, .ro, []⟩]⟩]
/-- Registers of block hfp. -/
def hfpRegs1 : List RegDef := [
  ⟨.HFP_FCG, 0x1000048, [], 1, .fabric, false, false, 0x0,
    [⟨31, 0, .ro, []⟩]⟩,
  ⟨.HFP_COMMIT_STATUS, 0x100004C, [], 1, .fabric, false, false, 0x0,
    [⟨31, 16, .ro, []⟩, ⟨12, 8, .ro, []⟩, ⟨6, 4, .ro, []⟩, ⟨2, 0, .ro, []⟩]⟩,
  ⟨.HFP_ROUTE, 0x1000100, [(0x4, 32)], 1, .fabric, false, false, 0x0,
    [⟨31, 31, .ro, []⟩, ⟨28, 24, .ro, []⟩, ⟨23, 16, .ro, []⟩, ⟨15, 0, .ro, []⟩]⟩,
  ⟨.HFP_ADJ, 0x1000200, [(0x4, 64)], 1, .fabric, false, false, 0x0,
    [⟨31, 16, .rw, []⟩, ⟨12, 8, .ro, []⟩, ⟨2, 0, .ro, []⟩]⟩,
  ⟨.HFP_POISON, 0x1000300, [(0x4, 2)], 1, .fabric, false, false, 0x0,
    [⟨31, 0, .ro, []⟩]⟩,
  ⟨.HFP_LOCK_STATUS, 0x1000310, [], 1, .fabric, false, false, 0x0,
    [⟨31, 31, .ro, []⟩, ⟨28, 24, .ro, []⟩, ⟨23, 23, .ro, []⟩, ⟨15, 8, .ro, []⟩, ⟨7, 0, .ro, []⟩]⟩,
  ⟨.HFP_REVQ_HEAD, 0x1000400, [], 1, .fabric, false, false, 0x0,
    [⟨7, 0, .ro, []⟩]⟩,
  ⟨.HFP_REVQ_TAIL, 0x1000404, [], 1, .fabric, false, false, 0x0,
    [⟨7, 0, .rw, []⟩]⟩,
  ⟨.HFP_CNT_CLEAR, 0x10005C0, [], 1, .fabric, false, false, 0x0,
    [⟨0, 0, .wo, []⟩]⟩,
  ⟨.HFP_TX_MSG, 0x1000500, [], 1, .fabric, false, false, 0x0,
    [⟨31, 0, .ro, []⟩]⟩,
  ⟨.HFP_RX_MSG, 0x1000504, [], 1, .fabric, false, false, 0x0,
    [⟨31, 0, .ro, []⟩]⟩,
  ⟨.HFP_RX_BAD, 0x1000508, [], 1, .fabric, false, false, 0x0,
    [⟨31, 0, .ro, []⟩]⟩]
/-- Registers of block hfp. -/
def hfpRegs2 : List RegDef := [
  ⟨.HFP_HOP_DROP, 0x100050C, [], 1, .fabric, false, false, 0x0,
    [⟨31, 0, .ro, []⟩]⟩,
  ⟨.HFP_NO_ROUTE, 0x1000510, [], 1, .fabric, false, false, 0x0,
    [⟨31, 0, .ro, []⟩]⟩,
  ⟨.HFP_SEQ_GAP, 0x1000514, [], 1, .fabric, false, false, 0x0,
    [⟨31, 0, .ro, []⟩]⟩,
  ⟨.HFP_LATE_RECORDS, 0x1000518, [], 1, .fabric, false, false, 0x0,
    [⟨31, 0, .ro, []⟩]⟩,
  ⟨.HFP_POISONED, 0x100051C, [], 1, .fabric, false, false, 0x0,
    [⟨31, 0, .ro, []⟩]⟩,
  ⟨.HFP_CPL_TIMEOUT, 0x1000520, [], 1, .fabric, false, false, 0x0,
    [⟨31, 0, .ro, []⟩]⟩,
  ⟨.HFP_CPL_LATE, 0x1000524, [], 1, .fabric, false, false, 0x0,
    [⟨31, 0, .ro, []⟩]⟩,
  ⟨.HFP_LOCK_COLLIDE, 0x1000528, [], 1, .fabric, false, false, 0x0,
    [⟨31, 0, .ro, []⟩]⟩,
  ⟨.HFP_LOCK_RETRY, 0x100052C, [], 1, .fabric, false, false, 0x0,
    [⟨31, 0, .ro, []⟩]⟩,
  ⟨.HFP_REVQ_LOST, 0x1000530, [], 1, .fabric, false, false, 0x0,
    [⟨31, 0, .ro, []⟩]⟩,
  ⟨.HFP_REVQ, 0x1001000, [(0x20, 256), (0x4, 8)], 1, .fabric, false, false, 0x0,
    [⟨31, 0, .ro, []⟩]⟩]
/-- All registers of block hfp. -/
def hfpRegs : List RegDef := hfpRegs0 ++ hfpRegs1 ++ hfpRegs2
/-- Registers of block cox. -/
def coxRegs0 : List RegDef := [
  ⟨.COX_STATUS, 0x1100000, [], 1, .cox, false, false, 0x0,
    [⟨31, 24, .ro, []⟩, ⟨7, 7, .ro, []⟩, ⟨6, 6, .ro, []⟩, ⟨5, 5, .ro, []⟩, ⟨4, 4, .ro, []⟩, ⟨1, 0, .ro, []⟩]⟩,
  ⟨.COX_CTRL, 0x1100004, [], 1, .cox, false, false, 0x0,
    [⟨0, 0, .wo, []⟩]⟩,
  ⟨.COX_FAULT_INFO, 0x1100008, [], 2, .cox, false, false, 0x0,
    [⟨63, 32, .ro, []⟩, ⟨31, 31, .w1c, []⟩, ⟨30, 30, .ro, []⟩, ⟨7, 0, .ro, []⟩]⟩,
  ⟨.COX_SELFTEST, 0x1100010, [], 1, .cox, false, false, 0x0,
    [⟨25, 16, .ro, []⟩, ⟨15, 0, .ro, []⟩]⟩,
  ⟨.COX_WDOG_CFG, 0x1100020, [(0x8, 2)], 1, .cox, false, false, 0x140002,
    [⟨25, 16, .rwl, [(1, 1000)]⟩, ⟨7, 0, .rwl, []⟩]⟩,
  ⟨.COX_WDOG_KICK, 0x1100024, [(0x8, 2)], 1, .cox, false, false, 0x0,
    [⟨15, 0, .wo, []⟩]⟩,
  ⟨.COX_MON, 0x1100030, [], 1, .cox, false, false, 0x87,
    [⟨23, 16, .ro, []⟩, ⟨7, 0, .rwl, [(100, 135)]⟩]⟩,
  ⟨.COX_LIFECYCLE, 0x1100040, [], 1, .cox, false, true, 0x0,
    [⟨9, 9, .ro, []⟩, ⟨8, 8, .ro, []⟩, ⟨1, 0, .ro, []⟩]⟩,
  ⟨.COX_NONCE, 0x1100048, [], 2, .cox, false, false, 0x0,
    [⟨63, 0, .ro, []⟩]⟩,
  ⟨.COX_RX_DROP, 0x1100050, [], 1, .cox, false, false, 0x0,
    [⟨31, 0, .rc, []⟩]⟩]
/-- All registers of block cox. -/
def coxRegs : List RegDef := coxRegs0
/-- Registers of block key. -/
def keyRegs0 : List RegDef := [
  ⟨.KEY_STATUS, 0x1200000, [], 1, .key, false, false, 0x0,
    [⟨4, 4, .ro, []⟩, ⟨3, 3, .ro, []⟩, ⟨2, 2, .ro, []⟩, ⟨1, 1, .w1c, []⟩, ⟨0, 0, .ro, []⟩]⟩,
  ⟨.KEY_IMG, 0x1200004, [], 1, .key, true, false, 0x0,
    [⟨31, 31, .rw, []⟩, ⟨12, 0, .rwl, []⟩]⟩,
  ⟨.KEY_SLOT_SEL, 0x1200010, [], 1, .key, false, false, 0x0,
    [⟨8, 8, .rw, []⟩, ⟨7, 0, .rw, []⟩]⟩,
  ⟨.KEY_SLOT_INFO, 0x1200014, [], 1, .key, false, false, 0x0,
    [⟨11, 10, .ro, []⟩, ⟨9, 9, .ro, []⟩, ⟨8, 8, .ro, []⟩, ⟨4, 2, .ro, []⟩, ⟨1, 0, .ro, []⟩]⟩,
  ⟨.KEY_SLOT_LABEL, 0x1200018, [], 1, .key, false, false, 0x0,
    [⟨31, 0, .ro, []⟩]⟩,
  ⟨.KEY_TRNG, 0x1200020, [], 1, .key, false, false, 0x0,
    [⟨31, 31, .wo, []⟩, ⟨15, 8, .ro, []⟩, ⟨7, 0, .ro, []⟩]⟩,
  ⟨.KEY_PORT_STATUS, 0x1200100, [(0x4, 32)], 1, .key, false, false, 0x0,
    [⟨7, 7, .ro, []⟩, ⟨6, 6, .ro, []⟩, ⟨5, 4, .ro, []⟩, ⟨1, 1, .ro, []⟩, ⟨0, 0, .ro, []⟩]⟩,
  ⟨.KEY_SA_PN, 0x1206000, [(0x8, 256)], 2, .key, false, false, 0x0,
    [⟨63, 0, .ro, []⟩]⟩,
  ⟨.KEY_CNT_CLEAR, 0x12003C0, [], 1, .key, false, false, 0x0,
    [⟨0, 0, .wo, []⟩]⟩,
  ⟨.KEY_IN_UNTAGGED_DROP, 0x1202000, [(0x40, 32)], 1, .key, false, false, 0x0,
    [⟨31, 0, .ro, []⟩]⟩,
  ⟨.KEY_IN_BAD_TAG, 0x1202004, [(0x40, 32)], 1, .key, false, false, 0x0,
    [⟨31, 0, .ro, []⟩]⟩,
  ⟨.KEY_IN_NO_SCI, 0x1202008, [(0x40, 32)], 1, .key, false, false, 0x0,
    [⟨31, 0, .ro, []⟩]⟩]
/-- Registers of block key. -/
def keyRegs1 : List RegDef := [
  ⟨.KEY_IN_NOT_USING_SA, 0x120200C, [(0x40, 32)], 1, .key, false, false, 0x0,
    [⟨31, 0, .ro, []⟩]⟩,
  ⟨.KEY_IN_BYPASS, 0x1202010, [(0x40, 32)], 1, .key, false, false, 0x0,
    [⟨31, 0, .ro, []⟩]⟩,
  ⟨.KEY_OUT_NO_SA, 0x1202014, [(0x40, 32)], 1, .key, false, false, 0x0,
    [⟨31, 0, .ro, []⟩]⟩,
  ⟨.KEY_OUT_TOO_LONG, 0x1202018, [(0x40, 32)], 1, .key, false, false, 0x0,
    [⟨31, 0, .ro, []⟩]⟩,
  ⟨.KEY_SA_OK, 0x1204000, [(0x10, 256)], 1, .key, false, false, 0x0,
    [⟨31, 0, .ro, []⟩]⟩,
  ⟨.KEY_SA_NOT_VALID, 0x1204004, [(0x10, 256)], 1, .key, false, false, 0x0,
    [⟨31, 0, .ro, []⟩]⟩,
  ⟨.KEY_SA_LATE, 0x1204008, [(0x10, 256)], 1, .key, false, false, 0x0,
    [⟨31, 0, .ro, []⟩]⟩,
  ⟨.KEY_OFF_DROP, 0x1200300, [], 1, .fabric, false, false, 0x0,
    [⟨31, 0, .rc, []⟩]⟩,
  ⟨.KEY_ECC_CORR, 0x1200304, [], 1, .key, false, false, 0x0,
    [⟨31, 0, .ro, []⟩]⟩,
  ⟨.KEY_ECC_UNCORR, 0x1200308, [], 1, .key, false, false, 0x0,
    [⟨31, 0, .ro, []⟩]⟩]
/-- All registers of block key. -/
def keyRegs : List RegDef := keyRegs0 ++ keyRegs1
/-- Registers of block upd. -/
def updRegs0 : List RegDef := [
  ⟨.UPD_STATUS, 0x1300000, [], 1, .cox, false, true, 0x0,
    [⟨31, 24, .ro, []⟩, ⟨3, 0, .ro, []⟩]⟩,
  ⟨.UPD_CFG, 0x1300004, [], 1, .cox, false, false, 0x3C7400,
    [⟨25, 16, .rwl, [(5, 600)]⟩, ⟨15, 8, .rwl, [(90, 160)]⟩]⟩,
  ⟨.UPD_FLASH, 0x1300008, [], 1, .cox, false, false, 0x3000100,
    [⟨31, 16, .rwl, [(1, 8191)]⟩, ⟨15, 0, .rwl, [(4, 8190)]⟩]⟩,
  ⟨.UPD_STAGE, 0x130000C, [], 1, .cox, false, false, 0x0,
    [⟨24, 16, .rw, [(0, 256)]⟩, ⟨12, 0, .rw, []⟩]⟩,
  ⟨.UPD_PROGRESS, 0x1300010, [], 1, .cox, false, false, 0x0,
    [⟨31, 16, .ro, []⟩, ⟨15, 0, .ro, []⟩]⟩,
  ⟨.UPD_HEALTH, 0x1300014, [], 1, .cox, false, false, 0x0,
    [⟨31, 0, .wo, []⟩]⟩,
  ⟨.UPD_T_SEC, 0x1300018, [], 2, .cox, false, false, 0x0,
    [⟨47, 0, .ro, []⟩]⟩,
  ⟨.UPD_T_NS, 0x1300020, [], 1, .cox, false, false, 0x0,
    [⟨29, 0, .ro, []⟩]⟩,
  ⟨.UPD_SEQ, 0x1300028, [], 1, .cox, false, true, 0x0,
    [⟨31, 0, .ro, []⟩]⟩,
  ⟨.UPD_FLOOR, 0x130002C, [], 1, .cox, false, true, 0x0,
    [⟨31, 0, .ro, []⟩]⟩,
  ⟨.UPD_COND, 0x1300030, [], 1, .cox, false, false, 0x0,
    [⟨3, 3, .ro, []⟩, ⟨2, 2, .ro, []⟩, ⟨1, 1, .ro, []⟩, ⟨0, 0, .ro, []⟩]⟩]
/-- All registers of block upd. -/
def updRegs : List RegDef := updRegs0
/-- Registers of block inj. -/
def injRegs0 : List RegDef := [
  ⟨.INJ_CTRL, 0x1400000, [], 1, .cox, false, false, 0x0,
    [⟨0, 0, .rwl, []⟩]⟩,
  ⟨.INJ_ARM, 0x1400100, [(0x4, 25)], 1, .cox, false, false, 0x0,
    [⟨31, 31, .rw, []⟩, ⟨30, 30, .w1c, []⟩, ⟨29, 28, .rw, []⟩, ⟨27, 26, .rw, []⟩, ⟨15, 0, .rw, []⟩]⟩]
/-- All registers of block inj. -/
def injRegs : List RegDef := injRegs0
/-- Registers of block rec. -/
def recRegs0 : List RegDef := [
  ⟨.REC_DRAM_CFG, 0x1500000, [], 1, .dram, false, false, 0x20,
    [⟨6, 4, .rwl, [(0, 3)]⟩, ⟨0, 0, .rw, []⟩]⟩,
  ⟨.REC_DRAM_STATUS, 0x1500004, [], 1, .dram, false, false, 0x0,
    [⟨31, 16, .ro, []⟩, ⟨1, 1, .ro, []⟩, ⟨0, 0, .ro, []⟩]⟩,
  ⟨.REC_ERR_LOC, 0x1500008, [], 1, .dram, false, false, 0x0,
    [⟨31, 31, .w1c, []⟩, ⟨30, 30, .ro, []⟩, ⟨27, 0, .ro, []⟩]⟩,
  ⟨.REC_BASE, 0x1500010, [], 1, .dram, false, false, 0x0,
    [⟨12, 0, .rw, []⟩]⟩,
  ⟨.REC_PAGES, 0x1500014, [], 1, .dram, false, false, 0x1000,
    [⟨17, 0, .rw, [(2, 253952)]⟩]⟩,
  ⟨.REC_CTRL, 0x1500018, [], 1, .dram, false, false, 0x2,
    [⟨31, 16, .rw, []⟩, ⟨11, 8, .rw, []⟩, ⟨5, 5, .rw, []⟩, ⟨4, 4, .rw, []⟩, ⟨1, 1, .rw, []⟩, ⟨0, 0, .rw, []⟩]⟩,
  ⟨.REC_STATUS, 0x150001C, [], 1, .dram, false, false, 0x0,
    [⟨9, 9, .ro, []⟩, ⟨8, 8, .w1c, []⟩, ⟨6, 4, .ro, []⟩, ⟨1, 0, .ro, []⟩]⟩,
  ⟨.REC_HEAD, 0x1500020, [], 1, .dram, false, false, 0x0,
    [⟨17, 0, .ro, []⟩]⟩,
  ⟨.REC_OLDEST, 0x1500024, [], 1, .dram, false, false, 0x0,
    [⟨17, 0, .ro, []⟩]⟩,
  ⟨.REC_TRIG_PAGE, 0x1500028, [], 1, .dram, false, false, 0x0,
    [⟨17, 0, .ro, []⟩]⟩,
  ⟨.REC_TRIG_SEC, 0x1500030, [], 2, .dram, false, false, 0x0,
    [⟨47, 0, .ro, []⟩]⟩,
  ⟨.REC_TRIG_NS, 0x1500038, [], 1, .dram, false, false, 0x0,
    [⟨29, 0, .ro, []⟩]⟩]
/-- Registers of block rec. -/
def recRegs1 : List RegDef := [
  ⟨.REC_CNT_CLEAR, 0x15000C0, [], 1, .dram, false, false, 0x0,
    [⟨0, 0, .wo, []⟩]⟩,
  ⟨.REC_RECORDS, 0x1500080, [], 1, .dram, false, false, 0x0,
    [⟨31, 0, .ro, []⟩]⟩,
  ⟨.REC_DROP, 0x1500084, [], 1, .dram, false, false, 0x0,
    [⟨31, 0, .ro, []⟩]⟩,
  ⟨.REC_ECC_CORR, 0x1500088, [], 1, .dram, false, false, 0x0,
    [⟨31, 0, .ro, []⟩]⟩,
  ⟨.REC_ECC_UNCORR, 0x150008C, [], 1, .dram, false, false, 0x0,
    [⟨31, 0, .ro, []⟩]⟩]
/-- All registers of block rec. -/
def recRegs : List RegDef := recRegs0 ++ recRegs1
/-- The registers whose addresses start in the 1 MiB piece `b` of the set-up space (R36). -/
def regsOfPiece (b : Nat) : List RegDef :=
  match b with
  | 0 => glbRegs
  | 1 => aonRegs
  | 2 => logRegs
  | 3 => hifRegs
  | 4 => prtRegs
  | 5 => fstRegs
  | 6 => fwdRegs
  | 7 => frerRegs
  | 8 => umpRegs
  | 10 => lneRegs
  | 11 => gteRegs
  | 12 => heatRegs
  | 13 => timRegs
  | 14 => edgRegs
  | 15 => rigRegs
  | 16 => hfpRegs
  | 17 => coxRegs
  | 18 => keyRegs
  | 19 => updRegs
  | 20 => injRegs
  | 21 => recRegs
  | _ => []

/-- The indices at which a register's array reaches offset `off`, when it does, and the word of the instance. -/
def dimSearch : List (Nat × Nat) → Nat → Nat → Option (List Nat × Nat)
  | [], words, off => if off < 4 * words then some ([], off / 4) else none
  | (s, c) :: ds, words, off =>
    if off / s < c then (dimSearch ds words (off % s)).map fun r => (off / s :: r.1, r.2) else none

/-- Where an address lies in a list of registers: the register, its indices and the word of the instance. -/
def searchRegs (a : Nat) : List RegDef → Option (RegDef × List Nat × Nat)
  | [] => none
  | d :: ds =>
    if d.base ≤ a then
      match dimSearch d.dims d.words (a - d.base) with
      | some (is, w) => some (d, is, w)
      | none => searchRegs a ds
    else searchRegs a ds

/-- The register at a local address (R36, R37); `none` where the map defines none. -/
def regAt (a : Nat) : Option (RegDef × List Nat × Nat) := searchRegs (a / 4 * 4) (regsOfPiece (a / 0x100000))

/-- The reset value of the word at a local address. TIM_DOM_CFG differs by domain (its locator line). -/
def resetWord (a : Nat) : BitVec 32 :=
  match regAt a with
  | none => 0
  | some (d, is, w) =>
    let v := if d.reg = .TIM_DOM_CFG ∧ is ≠ [0] then 0x00640000 + 0x100 * is.headD 0 else d.reset
    BitVec.ofNat 32 (v / 2 ^ (32 * w))

end Sys2Proof.Machine
end

