-- ==== Sys2Proof/Machine/SMap.lean ====
section
/-! DEFINITION. Operations on sparse maps (every table, buffer, counter array and memory of the block is held in
one) and on little- and big-endian byte strings (R17, R18). -/
namespace Sys2Proof

/-- The value listed for `k`, if any. -/
def SMap.find {α : Type} : SMap α → Nat → Option α
  | [], _ => none
  | (k', v) :: t, k => if k' = k then some v else SMap.find t k

/-- The value at `k`, with `d` the value an unlisted key reads as. -/
def SMap.get {α : Type} (m : SMap α) (d : α) (k : Nat) : α :=
  match SMap.find m k with
  | some v => v
  | none => d

/-- Drops every entry of `k`. -/
def SMap.erase {α : Type} : SMap α → Nat → SMap α
  | [], _ => []
  | (k', v) :: t, k => if k' = k then SMap.erase t k else (k', v) :: SMap.erase t k

/-- Lists `v` at `k`, keeping the keys in rising order. -/
def SMap.insert {α : Type} : SMap α → Nat → α → SMap α
  | [], k, v => [(k, v)]
  | (k', v') :: t, k, v =>
    if k < k' then (k, v) :: (k', v') :: t
    else if k' = k then (k, v) :: t
    else (k', v') :: SMap.insert t k v

/-- Sets `k` to `v`; `d` is what the unlisted key reads as, and a value equal to it is not listed. -/
def SMap.put {α : Type} [DecidableEq α] (m : SMap α) (d : α) (k : Nat) (v : α) : SMap α :=
  if v = d then SMap.erase m k else SMap.insert m k v

/-- Applies `f` to the value at `k`. -/
def SMap.upd {α : Type} [DecidableEq α] (m : SMap α) (d : α) (k : Nat) (f : α → α) : SMap α :=
  SMap.put m d k (f (SMap.get m d k))

/-- The canonical form: keys strictly rising, no entry equal to what its key reads as when unlisted. -/
def SMap.wf {α : Type} [DecidableEq α] (d : Nat → α) : SMap α → Bool
  | [] => true
  | [(k, v)] => decide (v ≠ d k)
  | (k, v) :: (k', v') :: t => decide (v ≠ d k) && decide (k < k') && SMap.wf d ((k', v') :: t)

/-- Keeps the entries whose key satisfies `p`. -/
def SMap.keep {α : Type} (m : SMap α) (p : Nat → Bool) : SMap α := List.filter (fun e => p e.1) m

/-- The octets of `v`, least significant first (R18). -/
def leBytes : Nat → Nat → List Byte
  | 0, _ => []
  | n + 1, v => BitVec.ofNat 8 v :: leBytes n (v / 256)

/-- The number that octets spell, least significant first (R18). -/
def leNat : List Byte → Nat
  | [] => 0
  | b :: t => b.toNat + 256 * leNat t

/-- The octets of `v`, most significant first (R17). -/
def beBytes (n v : Nat) : List Byte := (leBytes n v).reverse

/-- The number that octets spell, most significant first (R17). -/
def beNat (l : List Byte) : Nat := l.foldl (fun a b => a * 256 + b.toNat) 0

/-- Bits `lo` up, `w` of them, of `v`. -/
def bits (v lo w : Nat) : Nat := v / 2 ^ lo % 2 ^ w

/-- `v` with bits `lo` up, `w` of them, replaced by `x`. -/
def setBits (v lo w x : Nat) : Nat := v / 2 ^ (lo + w) * 2 ^ (lo + w) + x % 2 ^ w * 2 ^ lo + v % 2 ^ lo

/-- Bit `i` of `v`. -/
def bit (v i : Nat) : Bool := v / 2 ^ i % 2 == 1

/-- `n` octets of a byte string from offset `o`; octets past its end read 0. -/
def sliceBytes (l : List Byte) (o n : Nat) : List Byte :=
  (l.drop o).take n ++ List.replicate (n - (l.drop o).length) 0

/-- The big-endian number at offset `o` of a byte string, `n` octets. -/
def beAt (l : List Byte) (o n : Nat) : Nat := beNat (sliceBytes l o n)

/-- The little-endian number at offset `o` of a byte string, `n` octets. -/
def leAt (l : List Byte) (o n : Nat) : Nat := leNat (sliceBytes l o n)

/-- `l` with the octets from offset `o` replaced by `x`, extended with zeros where it is shorter. -/
def putBytes (l : List Byte) (o : Nat) (x : List Byte) : List Byte :=
  sliceBytes l 0 o ++ x ++ l.drop (o + x.length)

/-- The signed value of the `w`-bit number `v`. -/
def sext (w v : Nat) : Int := if v % 2 ^ w < 2 ^ (w - 1) then ((v % 2 ^ w : Nat) : Int) else ((v % 2 ^ w : Nat) : Int) - (2 ^ w : Nat)

/-- The two's-complement `w`-bit number of an integer. -/
def wrapInt (w : Nat) (i : Int) : Nat := (i % (2 ^ w : Nat)).toNat

/-- Short-time comparison of R22: `(int32)(a - b)`. -/
def shortDiff (a b : Nat) : Int := sext 32 (wrapInt 32 ((a : Int) - (b : Int)))

/-- One reflected CRC-32C step over an octet (polynomial 0x82F63B78). PRESUMED: the manual names CRC-32C only. -/
def crcBits : Nat → Nat → Nat
  | 0, c => c
  | k + 1, c => crcBits k (if c % 2 = 1 then (c / 2) ^^^ 0x82F63B78 else c / 2)

/-- CRC-32C of a byte string. PRESUMED parameters: initial value and final inversion all ones, reflected. -/
def crc32c (l : List Byte) : Nat :=
  (l.foldl (fun c b => crcBits 8 (c ^^^ b.toNat)) 0xFFFFFFFF) ^^^ 0xFFFFFFFF

/-- The reflected CRC-32 of the Ethernet FCS over a byte string. -/
def fcsBits : Nat → Nat → Nat
  | 0, c => c
  | k + 1, c => fcsBits k (if c % 2 = 1 then (c / 2) ^^^ 0xEDB88320 else c / 2)

/-- Index of the lowest set bit of the low `n` bits, if any. -/
def lowestBit (n v : Nat) : Option Nat := (List.range n).find? (fun i => bit v i)

/-- The number of set bits among the low `n`. -/
def popCount (n v : Nat) : Nat := ((List.range n).filter (fun i => bit v i)).length

/-- The mask of a list of bit numbers. -/
def maskOf (l : List Nat) : Nat := l.foldl (fun m i => m ||| 2 ^ i) 0

end Sys2Proof
end

