-- ==== Sys2Proof/Machine/State.lean ====
section
/-! DEFINITION. The state of the VF6425 as plain data, the faults and refusals of the model, and the state right after
a power-on reset. -/
namespace Sys2Proof.Machine

/-- What stops the block. No command of this block does: a faulty access is recorded and the block goes on (R11, R31,
R36), and a fault of the hardware is an event and a status bit. The one constructor is never raised. -/
inductive Fault where
  /-- Raised by no command: the spec stops the block nowhere. Safe. -/
  | none_
  deriving DecidableEq, Repr

/-- Why the model refuses a command. -/
inductive Refusal where
  /-- A command whose meaning is not written; raised by a dispatch arm only. Safe. -/
  | notModelled (mnemonic : String)
  deriving DecidableEq, Repr

/-- An event record (R382): CODE, SOURCE, SHORT0, and octets 8–31 as one little-endian number. -/
structure EventRec where
  code : Nat
  source : Nat
  short0 : Nat
  body : Nat
  deriving DecidableEq, Repr

/-- Why a command is still running, and so what ends it (R377): `plain` carries the status and RESULT that
COMMAND_DONE writes back; the others are ended by their own rows or carry what the end does. -/
inductive LongKind where
  | plain (status result : Nat)
  | commit
  | fabricCommit
  | islandReset
  | logWrite (word : Nat)
  | coxMode (target : Nat)
  | lifecycle (target : Nat) (keyHash : List Byte)
  | ownerLock (set : Bool)
  | power (target : Nat)
  | remoteCmd
  | lockedSeq
  | updLoad (addr off len : Nat) (first : Bool)
  | updVerify
  | updActivate
  | updAbort
  | failClear
  deriving DecidableEq, Repr

/-- The command that the processor runs (R377); `cut` once a Host reset or a device reset has cut off its
writeback (R368, R490). -/
structure Running where
  src : CmdSrc
  desc : Desc
  kind : LongKind
  cut : Bool
  deriving DecidableEq, Repr

/-- The configuration space of the PCIe function (R364, R365, R385): Memory Space Enable and Bus Master Enable, the bases of the two
BARs, MSI-X Enable and Function Mask, the power state (D0 or D3hot), max payload and max read request as coded in Device Control,
ASPM L1, and the AER status words, which 1 bits clear. PRESUMED (log 132): reset values as PCI Express has them. -/
structure PciCfg where
  memOn : Bool := false
  busMaster : Bool := false
  bar0 : Nat := 0
  bar2 : Nat := 0
  maxPayload : Nat := 0
  maxRead : Nat := 2
  msixOn : Bool := false
  msixMask : Bool := false
  d3hot : Bool := false
  aspmL1 : Bool := false
  aerUncorr : Word := 0
  aerCorr : Word := 0
  deriving DecidableEq, Repr

/-- The Host island beyond its registers: the ring indices and producer words as last read (R369, R370), the poll
interval and the words of the doorbell page as last read (R371), the lost flag (R382), the MSI-X table and pending bits (R365), the holdoff of each source (R385:
0 idle, 1 in holdoff, 2 with a deferred raise), the level of PERST_N, the ring last served at each PRIO (R373), the configuration space (R364), the event
records that AON holds for the first enabling of the ring (R500), the command that runs, and the rings stopped on an index error
(TX t, RX 16 + r, command 32, event 33). -/
structure Hif where
  cmdProd : Word := 0
  cmdCons : Word := 0
  evtProd : Word := 0
  evtCons : Word := 0
  txProd : SMap Word := []
  txCons : SMap Word := []
  rxProd : SMap Word := []
  rxCons : SMap Word := []
  pollNs : Nat := 500
  evtLost : Bool := false
  msixTab : SMap Word := []
  msixPba : Nat := 0
  holdoff : SMap Nat := []
  perstLow : Bool := true
  txLast : SMap Nat := []
  bells : SMap Word := []
  pci : PciCfg := {}
  heldEvents : List EventRec := []
  running : Option Running := none
  stopped : List Nat := []
  deriving DecidableEq, Repr

/-- What the last HELLO on a port said of its sender (R337): its MAC address, UID, fabric ID, AUTH_ID and FCG. -/
structure Adj where
  mac : Nat := 0
  uid : Nat := 0
  id : Nat := 0
  auth : Nat := 0xFF
  fcg : Nat := 0
  deriving DecidableEq, Repr

/-- An entry of an LSA (R339). -/
structure LsaEntry where
  neighbor : Nat
  port : Nat
  cost : Nat
  deriving DecidableEq, Repr

/-- The LSA of an origin (R339): its sequence number and its entries. -/
structure Lsa where
  seq : Nat
  entries : List LsaEntry
  deriving DecidableEq, Repr

/-- What a request of the bridge belongs to: a register access of an initiator, a TLP through BAR2 (R367), REMOTE_CMD
or LOCKED_SEQ. -/
inductive ReqKind where
  | access
  | bar2 (tlp : Nat)
  | cmd | lock
  deriving DecidableEq, Repr

/-- A request as its initiator gives it to the bridge (R342): peer, class, initiator code, message type, whether it is
posted, its full fabric address, LEN and the octets of DATA. -/
structure HfpAsk where
  peer : Nat
  cls : Nat
  init : Nat
  typ : Nat
  posted : Bool
  addr : Nat
  len : Nat
  data : List Byte
  kind : ReqKind
  deriving DecidableEq, Repr

/-- A request that is outstanding or held for acknowledgement (R343, R344): its tag, SEQ and the HFP_ROUTE word it left by. -/
structure HfpReq where
  ask : HfpAsk
  tag : Nat
  seq : Nat
  route : Nat
  deriving DecidableEq, Repr

/-- What a completed remote access returned to its initiator: initiator code, fabric address, status, words. -/
structure HfpResult where
  init : Nat
  addr : Nat
  status : Nat
  words : List Word
  deriving DecidableEq, Repr

/-- A read TLP of the remote window (R367): its fabric address, its words so far, the HFP completions still to come, and the
last status other than OK. -/
structure Tlp where
  addr : Nat
  words : List Word
  left : Nat
  status : Nat := 0
  deriving DecidableEq, Repr

/-- An operation of a locked sequence (R349). -/
structure LockOp where
  addr : Nat
  far : Bool
  kind : Nat
  data : Nat
  deriving DecidableEq, Repr

/-- An outgoing locked sequence (R349–R351): its peer, operations and result address, and whether it holds the bus
(false: it waits for the end of a back-off). -/
structure LockSeq where
  peer : Nat
  ops : List LockOp
  result : Nat
  holds : Bool
  deriving DecidableEq, Repr

/-- A LOCK_REQ that waits for the bus (R351), whether it waited already when the present holder took it, the tick since
which it waits, and after how many operations LOCK_MAX will cut it short, if it does (R350). -/
structure LockWait where
  port : Nat
  msg : HfpMsg
  old : Bool
  since : Nat := 0
  cut : Option Nat := none
  deriving DecidableEq, Repr

/-- What waits for the set-up bus while it is held, or for earlier requests of its stream (R345, R350): a request of a peer with the
port it came by, a LOCK_REQ, a CMD; or an access of an initiator of this device: a write, a read, the words of a TLP (R366), a
watchdog kick (R402) with the time since the last one, a TRNG retest (R421) with its outcome. -/
inductive BusWait where
  | peer (port : Nat) (msg : HfpMsg)
  | lock (req : LockWait)
  | cmd (port : Nat) (msg : HfpMsg)
  | write (who : Initiator) (addr : Nat) (value : Word)
  | read (who : Initiator) (addr : Nat)
  | span (who : Initiator) (addr : Nat) (req : RemReq)
  | kick (who : Initiator) (wdog : Nat) (value : Word) (ms : Nat)
  | retest (who : Initiator) (pass : Bool)
  deriving DecidableEq, Repr

/-- A fabric-wide commit or update activation as its initiator runs it (R357–R359, R459): members still voting or
answering, those that confirmed an update, T in ns, new FCG, COMMIT_ID, MASK, DRY_RUN, UPDATE, the status of the own
heat once known, failures by peer with their status, and whether it has sent ARM or ABORT. -/
structure FabInit where
  members : List Nat
  waiting : List Nat
  t : Nat
  fcg : Nat
  id : Nat
  mask : Nat
  dryRun : Bool := false
  update : Bool := false
  own : Option Nat := none
  failed : List (Nat × Nat) := []
  armed : Bool := false
  aborting : Bool := false
  confirmed : List Nat := []
  done : Bool := false
  deriving DecidableEq, Repr

/-- A fabric-wide commit or update activation as a member holds it (R357–R359, R459). -/
structure FabMember where
  from_ : Nat
  t : Nat
  fcg : Nat
  id : Nat
  mask : Nat
  dryRun : Bool
  update : Bool
  phase : Nat
  deriving DecidableEq, Repr

/-- The bridge beyond its registers (chapter 10): neighbours by port, the link-state database by origin, the number of
the own LSA, the next tag, requests outstanding or held for acknowledgement, requests that wait to be sent (R343,
R345), the next SEQ of each stream sent and expected and the requests not yet acknowledged (keyed 4 · peer + class),
results returned to initiators, the requests that wait in their initiator for a queue entry (R346), the outgoing locked sequences
of the host and of Cox with the half ticks at which their back-offs end, what waits for a held bus or for earlier requests (R345,
R350), those messages of peers that wait for a queue entry (R346), the fabric commit as initiator and as member, every message sent with its egress port, and the reads of the remote
window that wait for completions, with the number of the next (R367). -/
structure HfpUnit where
  adj : SMap Adj := []
  lsdb : SMap Lsa := []
  ownSeq : Nat := 0
  nextTag : Nat := 0
  reqs : List HfpReq := []
  waitReq : List HfpAsk := []
  txSeq : SMap Nat := []
  rxSeq : SMap Nat := []
  rxUnacked : SMap Nat := []
  results : List HfpResult := []
  stalled : List HfpAsk := []
  lockOut : Option LockSeq := none
  lockCox : Option LockSeq := none
  backEnd : SMap Nat := []
  busWait : List BusWait := []
  rxStall : List BusWait := []
  fabInit : Option FabInit := none
  fabMember : Option FabMember := none
  out : List (Nat × HfpMsg) := []
  tlps : SMap Tlp := []
  nextTlp : Nat := 0
  deriving DecidableEq, Repr

/-- A frame delivered to port 65: its octets, the port it came from, its ingress stamp record, and whether it is a
sampler copy (R155, R401). -/
structure CoxFrame where
  bytes : List Byte
  port : Nat
  stamp : List Byte
  sampled : Bool
  deriving DecidableEq, Repr

/-- The Cox island beyond its registers: its own queue of event records (R55), the frames delivered to it (port 65), egress stamp records returned to it (R275),
whether the cores are held in reset (R397), the start code of the next release (R484), whether the safe-reaction
sequence runs and GLB_FAULT bits 0–1 are not yet writable (R397, R398), the watchdogs (0 stopped, 1 before the first
kick, 2 kicked once) and the kick value each expects next (R402), the causes a monitor still sees (GLB_FAULT), the
position of the next self-test (R394), the owner key hash (R408), and the debugger. -/
structure CoxUnit where
  events : List EventRec := []
  rxFrames : List CoxFrame := []
  stamps : List (List Byte) := []
  coresHeld : Bool := true
  startCode : Nat := 1
  seqRunning : Bool := false
  faultLocked : Bool := false
  wdog : SMap Nat := []
  wdogSecond : SMap Bool := []
  present : List Nat := []
  nextBit : Nat := 0
  keyHash : List Byte := []
  firmware : Nat := 0
  deriving DecidableEq, Repr

/-- A fraction in lowest terms, with a positive denominator. -/
structure Frac where
  num : Int := 0
  den : Nat := 1
  deriving DecidableEq, Repr

/-- What a heat finds for one pair (R238–R247); 0xFFFFFFFF stands for a bound not computed or unbounded. -/
structure PairBound where
  decl : Nat
  port : Nat
  lane : Nat
  bound : Nat
  chg : Nat
  deadline : Nat
  deriving DecidableEq, Repr

/-- A reason record (R254). -/
structure HeatRec where
  code : Nat
  lane : Nat
  decl : Nat
  stream : Nat
  port : Nat
  pool : Nat
  value : Nat
  limit : Nat
  deriving DecidableEq, Repr

/-- The result of a heat (R238–R256): its bounds, its records and whether there were more, its quotas keyed
4 · requester + pool, the counts n of the declarations (R250), and each lane's backlog keyed 8 · port + lane, in
bits (R246). -/
structure HeatResult where
  bounds : List PairBound := []
  records : List HeatRec := []
  trunc : Bool := false
  quotas : SMap Nat := []
  counts : SMap Nat := []
  backlog : SMap Frac := []
  deriving DecidableEq, Repr

/-- What the Umpire hands the Fabric island for a frame (R33, R166): its outcome (0 forward, 1 dropped by a DROP
rule, 2 redirect, 3 dropped with another cause), redirect target, trap, zone permit, mirror session, stream hint,
source zone, and the UMP_CNT_OCT counter that takes the stored length once it is known. -/
structure UDesc where
  outcome : Nat := 0
  target : Nat := 0
  trap : Option Nat := none
  permit : Nat := 0
  mirror : Option Nat := none
  hint : Option Nat := none
  zone : Nat := 0
  octets : Option Nat := none
  deriving DecidableEq, Repr

/-- The request of a TX descriptor (R372): its source, ring or 0, TS_TAG and TS_REQ. -/
structure TxTag where
  ring : Nat
  tag : Nat
  req : Bool
  deriving DecidableEq, Repr

/-- A frame on its way into the store (R105–R110): ingress port, octets received so far without FCS, epoch (R52),
ingress stamp in each domain as the 24 octets of R274, ARRIVAL (R148), whether MACsec verified it, its descriptor
and whether that has reached the Fabric island, whether its last byte is in, its provisional handle, the size that
R108 computed, the meter charge of R198, the function that holds it (R152), and the descriptor data of a host or Cox
frame. -/
structure RxFrame where
  port : Nat
  bytes : List Byte
  epoch : Nat
  stamp : List Byte
  arrival : Nat
  secured : Bool := false
  desc : Option UDesc := none
  descHere : Bool := false
  ended : Bool := false
  ctTried : Bool := false
  handle : Option Nat := none
  size : Option Nat := none
  charged : Option (Nat × Nat) := none
  heldBy : Option Nat := none
  tag : Option TxTag := none
  direct : Option Nat := none
  bad : Bool := false
  stream : Option Nat := none
  reserved : Bool := false
  settled : Bool := false
  deriving DecidableEq, Repr

/-- A frame handle (R102) with the octets of its chunk. `info` gathers what the descriptor settled: VID, whether the
frame arrived untagged, priority, the R-TAG a generation function gives it, POP, and the trap it took. `uncorr`: an
uncorrectable word has been found, so that the scrubber rewrites the chunk (R123); `parBad`: bit q for a quarter whose PARITY is
wrong; `desc` is DESC;
`released` that it is freed when its write ends, `frame` the frame it belongs to. -/
structure Handle where
  pool : Nat
  chunk : Nat
  bytes : List Byte
  refcnt : Nat := 0
  rcopies : Nat := 0
  state : Nat := 0
  quotaOf : Option Nat := none
  epoch : Nat := 0
  stream : Option Nat := none
  reserved : Bool := false
  arrival : Nat := 0
  stamp : List Byte := []
  port : Nat := 0
  frame : Nat := 0
  vid : Nat := 0
  untagged : Bool := false
  prio : Nat := 0
  rtag : Option Nat := none
  pop : Bool := false
  trapped : Bool := false
  tag : Option TxTag := none
  learn : Bool := false
  desc : UDesc := {}
  uncorr : Bool := false
  parBad : BitVec 4 := 0
  released : Bool := false
  deriving DecidableEq, Repr

/-- A queue entry (R117): its handle and frame, whether it is a forwarded copy, a mirror copy or a sampler copy
(0, 1, 2), its lane, whether the lane was reserved, and its mirror session with CAP_BYTES and TRIGGER. -/
structure Copy where
  handle : Nat
  kind : Nat
  lane : Nat
  rsv : Bool
  session : Nat := 0
  cap : Nat := 0
  trigger : Bool := false
  deriving DecidableEq, Repr

/-- A copy in transmission or the preempted remainder of one (R206, R225): the copy, whether it began as a
preemptable one, its octets as sealed under an SA when MACsec protects it (fixed at its start, R432), what holds its
lane shut now (`late`: bit 0 its gate, bit 1 GTE_HOLD, bit 2 for a preemptable copy a held MAC), the octets left at the tick at which
this part of it began, and the words of its chunk that have been read. -/
structure Sending where
  copy : Copy
  preempt : Bool
  out : Option (List Byte) := none
  late : Nat := 0
  left : Nat := 0
  since : Nat := 0
  words : Nat := 0
  deriving DecidableEq, Repr

/-- Lane service of a port (R208, R209): ptr, deficits and visited by lane, what is in transmission, the preempted
remainder, and the class-10 entry of before a swap that is in force until the next frame boundary (R205). -/
structure PortLanes where
  ptr : Nat := 7
  deficit : SMap Nat := []
  visited : SMap Bool := []
  sending : Option Sending := none
  rest : Option Sending := none
  entry : Option Nat := none
  deriving DecidableEq, Repr

/-- A learned entry of the forwarding database (R134, R140): FID and MAC as key, port and hit bit. Its place is the
key of the map: 4 · bucket + way, or 65,536 + CAM entry. -/
structure Learned where
  fid : Nat
  mac : Nat
  port : Nat
  hit : Bool
  deriving DecidableEq, Repr

/-- A pending mark of a recovery function (R152): the sequence number, the frame that made it, the previous recov, and whether a swap
has emptied the history that it stood in (R150). -/
structure FrerMark where
  seq : Nat
  frame : Nat
  prev : Nat
  stale : Bool := false
  deriving DecidableEq, Repr

/-- The state of an FRER function (R150–R152): fresh, recov, the history bits (bit 0 is recov itself), the tick of the
last pass, the next sequence number of a generation function, and the pending marks. -/
structure Frer where
  fresh : Bool := true
  recov : Nat := 0
  hist : Nat := 0
  lastPass : Nat := 0
  next : Nat := 0
  pending : List FrerMark := []
  deriving DecidableEq, Repr

/-- A token bucket (R199, R211): level in 1/4,000,000 byte as a signed number, and the tick of its last update. -/
structure Bucket where
  level : Int
  tick : Nat
  deriving DecidableEq, Repr

/-- The gate unit of a port (R215–R217): the operation in force, the short time of the next boundary. -/
structure Gate where
  index : Nat
  next : Nat
  deriving DecidableEq, Repr

/-- The commit that runs, is pending or drains (R46–R53): its class mask, whether it is timed, fabric-wide, a dry run,
its COMMIT_ID, the heat that passed for it, its swap time in ns of domain 0, whether it is
an update activation, one whose swap time is 1 ms after its heat (R455), a commit that firmware makes on its own (R445), and whether its
heat has ended. -/
structure CommitJob where
  mask : Nat
  timed : Bool
  fabric : Bool
  dryRun : Bool
  id : Nat
  heat : HeatResult := {}
  at_ : Nat := 0
  upd : Bool := false
  soon : Bool := false
  own : Bool := false
  heated : Bool := false
  deriving DecidableEq, Repr

/-- The Fabric island beyond its registers: the active, staged and old banks keyed 2^20 · class + index (R40), the
commit in progress and the epoch of the old banks, the active heat and the last one with its tag and pairs (R252),
frames on their way in keyed 2^32 · port + frame number, the numbers given to internal frames, handles, lanes keyed
8 · port + lane, lane service, round robin of allocation (R103), the words of the store with a wrong code (1 correctable, 2
uncorrectable, 3 uncorrectable and not to be cleared by a rewrite), quarantined chunks keyed pool · 2^18 + chunk and
those waiting for the scrubber (`true` once they failed again) with the words it has rewritten of them, quarantined handles with
the FST_ERR_LOC words of the parity errors not yet reported, the scrub position in words,
peak quota use keyed 4 · port + pool, learned entries, the ageing tick, FRER functions, meters and shapers,
gates, the sampler's count, the verify attempts of the MAC merge sublayers (R222), and what has been sent on the
lines (port and octets with FCS; an aborted copy with its inverted FCS), with the ports that sent an error code-group or, in
SerDes mode, /E/ (R146). -/
structure Fabric where
  active : SMap Nat := []
  staged : SMap Nat := []
  old : SMap Nat := []
  swapTick : Nat := 0
  job : Option CommitJob := none
  heat : HeatResult := {}
  lastHeat : HeatResult := {}
  rx : SMap RxFrame := []
  nextFrame : Nat := 0
  handles : SMap Handle := []
  lanes : SMap (List Copy) := []
  service : SMap PortLanes := []
  allocLast : Nat := 69
  badWords : SMap Nat := []
  suspect : SMap Bool := []
  rewritten : SMap Nat := []
  deadHandles : List Nat := []
  parityDue : List Nat := []
  scrub : Nat := 0
  quotaPeak : SMap Nat := []
  learned : SMap Learned := []
  ageTick : Nat := 0
  frer : SMap Frer := []
  meters : SMap Bucket := []
  shapers : SMap Bucket := []
  gates : SMap Gate := []
  sample : Nat := 0
  verify : SMap Nat := []
  lineOut : List (Nat × List Byte) := []
  lineErr : List (Nat × Bool) := []
  deriving DecidableEq, Repr

/-- A pinhole (R183, R184): IP version, the stored tuple, RET_ZONE, FROM, profile, state and the second of its last
use. Its key is 4 · bucket + way. -/
structure Pinhole where
  v : Nat
  sip : Nat
  dip : Nat
  proto : Nat
  sport : Nat
  dport : Nat
  retZone : Nat
  from_ : Nat
  profile : Nat
  closing : Bool
  last : Nat
  deriving DecidableEq, Repr

/-- The Umpire beyond its registers: pinholes, the 1 s tick (R185), the TCAM and pattern entries whose stored parity
is inverted (R192), and whether an image load is in progress (R191). -/
structure UmpUnit where
  pinholes : SMap Pinhole := []
  second : Nat := 0
  tcamBad : List Nat := []
  patBad : List Nat := []
  deriving DecidableEq, Repr

/-- The sleep image (R467): the active banks it holds, the Fabric island's set-up registers, and the active heat. -/
structure SleepImage where
  banks : SMap Nat
  regs : SMap Word
  heat : HeatResult
  deriving DecidableEq, Repr

/-- DRAM and the recorder (chapter 4): octets, how often the contents have been lost (power-down or training),
whether the recorder has an open page, its records so far, octets used, open time in ns, drops since the last close,
pages closed since OFF, pages closed since the trigger, whether page 0 has been closed, the table images
of the Umpire, Rigger and key units written since the last training, the sleep image with its BASE (R467), and the words that ECC_DRAM has
broken. -/
structure DramUnit where
  bytes : SMap Byte := []
  epoch : Nat := 0
  open_ : Bool := false
  records : Nat := 0
  used : Nat := 64
  openNs : Nat := 0
  dropped : Nat := 0
  seq : Nat := 0
  post : Nat := 0
  sessions : List Nat := []
  images : SMap (SMap Nat) := []
  sleepImg : Option (Nat × SleepImage) := none
  badWords : SMap Nat := []
  deriving DecidableEq, Repr

/-- A persistent word of the device (R501): a logbook word, or one that the device keeps in RRAM itself, the key slots 1–7 among them
(R415). -/
inductive PTgt where
  | logWord (i : Nat)
  | failStart
  | updState
  | updSeq
  | updFloor
  | ownerLock
  | keyHash
  | optWord (copy i : Nat)
  | keySlot (i : Nat)
  deriving DecidableEq, Repr

/-- A persistent write in progress or waiting for the one before it (R501). -/
structure PWrite where
  tgt : PTgt
  val : Nat
  deriving DecidableEq, Repr

/-- The power unit beyond its registers (chapter 15): the state entry into Sleep came from, the coordinated ports
still without acknowledgement, the AON sleep commit latch, the wake or fault latched after it, the false-wake timer,
the WAKE_OUT pulse, the ports that still receive a forwarded wake (R479), INH_OUT, the domains that
are switched on, the state a switch goes to, whether a wake waits for the cores, whether its wake copy was good (R468),
whether the crystal of AON has failed (R514), the phase of AON's own 32.768 kHz oscillator in 1/(5 · 10^14) of a period (R27, R271), what the recovery service
writes of the bridge once the Fabric island is up (R336), a false-wake return that waits for WAKE_IN, the images that load, the units (0 Umpire, 1 Rigger) whose tables
firmware still has to take from flash (R445), whether the last
sleep entry wrote a sleep image that has not been restored yet, REC_DRAM_CFG and REC_DRAM_STATUS while DRAM is in self-refresh (R467), and the TC10 signals sent (port; 0 sleep request, 1 acknowledgement, 2 wake-up request). -/
structure PowerUnit where
  entryFrom : Nat := 0
  waitAck : List Nat := []
  latched : Bool := false
  lateSource : Nat := 0
  latePort : Nat := 0
  lateFault : Nat := 0
  idleTimer : Bool := false
  wakeOut : Bool := false
  fwdDue : List Nat := []
  inhHigh : Bool := true
  inhStayed : Bool := true
  want : Nat := 0
  goal : Option Nat := none
  wakeCores : Bool := false
  copyGood : Bool := true
  xtalFailed : Bool := false
  aon : Nat := 0
  bootHfp : Option BootHfp := none
  falsePending : Bool := false
  loading : List Nat := []
  tablesDue : List Nat := []
  imgWritten : Bool := false
  selfRefresh : Option (Word × Word) := none
  tc10Out : List (Nat × Nat) := []
  deriving DecidableEq, Repr

/-- The trim words in RRAM as the model's history begins, keyed 128 · copy + word: word 0 is MAGIC, word 1 SEQ, words 2–63 the trim,
word 64 the CRC (R492). DESIGN CHOICE (log 125): two valid copies of SEQ 0 whose trim words are 0. -/
def trimReset : SMap Word := [(0, 0x54524D31), (64, 0xEC48EC94), (128, 0x54524D31), (192, 0xEC48EC94)]

/-- Reset, options and persistent words beyond their registers (chapter 16): the causes whose reset is still held
(R484), the islands held in reset (port n as 100 + n), the Off state, the option words and the trim words in RRAM (R492), the wear of option
words 1–15 keyed 16 · copy + word (R502), the persistent writes in order, the reference tick of the start, and the copy whose next load OPT_CRC breaks (R505). -/
structure ResetUnit where
  hold : List Nat := []
  islands : List Nat := []
  off : Bool := false
  optWords : SMap Word := []
  trimWords : SMap Word := trimReset
  optWear : SMap Nat := []
  pw : List PWrite := []
  startTick : Nat := 0
  optInj : Option Nat := none
  asked : Bool := false
  deriving DecidableEq, Repr

/-- Pins whose level no register shows: the hold of FAULT_N (R56), the TXD levels released by their channel, Catch
levels, MDC activity and the MDI and SerDes releases live with their units; the rest is here, with the rails whose banks have left
their valid range (R487) and what the last POWER_ON found VDDIO_EDGE and VDDIO_TIME to be (R507). -/
structure Pins where
  faultHold : Bool := false
  catchHigh : Nat := 0
  mdcOn : Nat := 0
  mdiReleased : SMap Bool := []
  pcieTxOn : Bool := false
  railsOut : List Nat := []
  edgeBank : BankVolt := .v18
  timeBank : BankVolt := .v18
  deriving DecidableEq, Repr

/-- The resume record of a port (R78): its mode, the converged coefficients, the 32-tap echo profile, the partner's base
page, and whether its CRC has been corrupted; junction temperature and round-trip delay stand in PRT_RESUME_INFO. How the
channel compares with the profile, and the partner with the page, comes with the events of the resume. -/
structure ResumeRec where
  media : Nat := 0
  speed : Nat := 0
  role : Nat := 0
  anEn : Nat := 0
  coeffs : List Byte := []
  echo : List Byte := []
  page : Nat := 0
  crcBad : Bool := false
  deriving DecidableEq, Repr

/-- An external port beyond its registers (chapter 2): partner signal, PHY link status, the analog start and the
echo probe of a resume, the state a diagnostic came from, the SQI streaks (R89), the last measured round-trip delay,
its AON resume record, the tick at which a hold ends, whether the PHY trains from default coefficients, whether it resolved
to SLAVE in the last link start, and when each PLCA node last transmitted (R95). -/
structure PortSt where
  partner : Bool := false
  linkOk : Bool := false
  analog : Bool := false
  probed : Bool := false
  diagFrom : Nat := 0
  lowRun : Nat := 0
  highRun : Nat := 0
  sqiArmed : Bool := true
  rtd : Nat := 0
  resume : ResumeRec := {}
  holdEnd : Nat := 0
  freshCoeffs : Bool := false
  slave : Bool := false
  heard : SMap Nat := []
  deriving DecidableEq, Repr

/-- An MDIO frame queued or on a bus (R72): its port, OP, PRTAD, DEVAD and DATA. -/
structure MdioFrame where
  port : Nat
  op : Nat
  prtad : Nat
  devad : Nat
  data : Nat
  deriving DecidableEq, Repr

/-- What AON keeps of a time domain over a PD2 power-down (R271): full time in 2^-28 ns, average, AON count. -/
structure SavedTime where
  time : Nat
  avg : Nat
  aon : Nat
  deriving DecidableEq, Repr

/-- A capture in a Buoy FIFO (R282): its time in quarter nanoseconds and its edge. -/
structure Capture where
  quarters : Nat
  rising : Bool
  deriving DecidableEq, Repr

/-- An egress stamp record awaiting return (R275): the 24 octets of R274, its source (port 64 or 65) and TX ring, and
whether its copy's last bit has left; `handle` names the frame. -/
structure StampRec where
  handle : Nat
  octets : List Byte
  source : Nat
  ring : Nat
  ready : Bool
  deriving DecidableEq, Repr

/-- The Time island beyond its registers: domain times in 2^-28 ns (R258), what remains of each slew in units of
10^-6 · 2^-28 ns and the part of a contribution below 2^-28 ns (R262), good pulses in a row and the tick of the last
good pulse (R268), the times AON keeps (R271), the index of each Catch's next edge and its pin (R278–R281), the
FIFO, the last capture's tick and the level of each Buoy (R282), the egress records awaiting return (R275), and for the order inside
one tick (R270) the place of the last event of each domain in it: 2 REANCHOR, 3 set or step, 4 takeover, 5 takeback, 6 a write of TIM_INCR,
7 a capture, stamp, Catch edge or gate boundary. -/
structure TimeUnit where
  now : SMap Nat := []
  slew : SMap Int := []
  carry : SMap Int := []
  good : SMap Nat := []
  lastGood : SMap Nat := []
  saved : SMap SavedTime := []
  catchNext : SMap Nat := []
  catchPulse : SMap Bool := []
  buoyFifo : SMap (List Capture) := []
  buoyLast : SMap Nat := []
  stampsWait : SMap (List StampRec) := []
  place : SMap Nat := []
  deriving DecidableEq, Repr

/-- What a CAN channel puts on its bus beside its own frames (R294): the dominant acknowledgement of a frame it has received, an
active error flag (dominant) or a passive one (recessive). -/
inductive CanMark where
  | ack | activeFlag | passiveFlag
  deriving DecidableEq, Repr

/-- A CAN frame queued for transmission (R297): the PDU or tunnel that gave it, its format, identifier and fields, the ESI it
was tunnelled with, its data, and the tick after which it may not start. -/
structure CanTx where
  pdu : Option Nat
  fmt : Nat
  ext : Bool
  brs : Bool
  esi : Bool := false
  id : Nat
  sdt : Nat := 0
  vcid : Nat := 0
  sec : Bool := false
  af : Nat := 0
  data : List Byte
  deadline : Nat
  deriving DecidableEq, Repr

/-- A CAN channel beyond its registers (R294–R297): the error counters in full, pending mailboxes, the tunnel FIFO, the
frame in transmission with its mailbox (32: the FIFO head) and the short time of its start of frame, and whether
bus-off recovery runs. -/
structure CanSt where
  txErr : Nat := 0
  rxErr : Nat := 0
  boxes : SMap CanTx := []
  fifo : List CanTx := []
  sending : Option (Nat × CanTx) := none
  sof : Nat := 0
  recovering : Bool := false
  deriving DecidableEq, Repr

/-- A LIN channel beyond its registers (R299, R300): the next slot of the schedule, whether the schedule runs (RUN = 0
stops it only after the running slot), and the identifier and source PDU of the response that is expected. -/
structure LinSt where
  next : Nat := 0
  running : Bool := false
  wait : Option (Nat × Nat) := none
  deriving DecidableEq, Repr

/-- What a LIN channel drives on its bus: a header with its PID, and the octets of its own response and checksum. An empty
`pid` is the wake-up signal. -/
structure LinOut where
  channel : Nat
  pid : Option Nat
  header : Bool
  resp : List Byte
  deriving DecidableEq, Repr

/-- A PDU beyond its entry (R309, R315, R322, R324): its buffer, the payload last emitted, the stamp of the newest source
frame that updated it (domain and full ns), its emissions, and the tick of the last frame processed. -/
structure PduSt where
  buf : List Byte := []
  last : Option (List Byte) := none
  stamp : Option (Nat × Nat) := none
  seq : Nat := 0
  proc : Option Nat := none
  deriving DecidableEq, Repr

/-- A route beyond its entry (R309, R311): whether it is fresh, the tick of its last update, and whether what it wrote
last was DST_INV. -/
structure RouteSt where
  fresh : Bool := false
  last : Option Nat := none
  inv : Bool := false
  deriving DecidableEq, Repr

/-- A tunnel beyond its entry (R318): the messages gathered, and sequence_num. -/
structure TunSt where
  msgs : List (List Byte) := []
  seq : Nat := 0
  deriving DecidableEq, Repr

/-- The Edge island beyond its registers (chapter 9): channels, PDUs, routes, tunnels, the 1 ms tick of the Rigger, the
IPv4 identification, entries with an uncorrectable error (R328), frames delivered from port 66 with their ARRIVAL
and not yet read, the acknowledgements and error flags of the CAN channels, and what the CAN and LIN channels have sent. -/
structure EdgeUnit where
  can : SMap CanSt := []
  lin : SMap LinSt := []
  pdus : SMap PduSt := []
  routes : SMap RouteSt := []
  tuns : SMap TunSt := []
  tick : Nat := 0
  ipId : Nat := 0
  broken : List Nat := []
  rigIn : List (List Byte × Nat) := []
  canMarks : List (Nat × CanMark) := []
  canOut : List (Nat × CanTx) := []
  linOut : List LinOut := []
  deriving DecidableEq, Repr

/-- The Key island beyond its registers: OWNER_SEED (R412), the persistent slots 1–7 of RRAM (R415), the ones written
in MANUFACTURE, the running PNs that AON keeps (R438), the PNs that the SAs changed by the last swap had before it (R430), the statements since the last reset (R436), the SAs that have
raised MACSEC_PN_LIMIT (R433), the wear of slots 1–7 (R502), the measurements by part: VERSION and DIGEST (R435),
whether protected ports act as with PD6 off after a reset of the island (R490), the slots whose memory holds one wrong bit (1) or
more (2) that no read has met yet, the persistent slots whose seal no longer holds, the key under which each is sealed (R413), and whether the identity of slot 0 is lost
until the next start (R439).
Slots 8–255 are
entries of class 15 in the banks. A slot is held as octets: VALID, ORIGIN, TYPE, USAGE, EXPORT at 0–4, LABEL at 8, KEY at
16 (80 octets). -/
structure KeyUnit where
  ownerSeed : List Byte := []
  slots : SMap Nat := []
  fromManufacture : List Nat := []
  savedPn : SMap Nat := []
  oldPn : SMap Nat := []
  statements : Nat := 0
  limitHit : List Nat := []
  wear : SMap Nat := []
  meas : SMap (Nat × List Byte) := []
  closed : Bool := false
  slotErr : SMap Nat := []
  badSeals : List Nat := []
  seals : SMap (List Byte) := []
  idLost : Bool := false
  deriving DecidableEq, Repr

/-- An installed part entry of a manifest (R443). -/
structure UpdPart where
  part : Nat
  version : Nat
  length : Nat
  offset : Nat
  flash : Nat
  digest : List Byte
  deriving DecidableEq, Repr

/-- The wake copy of the Cox firmware in RRAM (R468): the firmware, its SHA-512 digest, and the CRC-32C of each 64 KiB block. -/
structure WakeCopy where
  data : List Byte := []
  digest : List Byte := []
  crcs : List Nat := []
  deriving DecidableEq, Repr

/-- The update unit beyond its registers (chapter 14): the manifest of the running
update with its SEQ, FLOOR and installed entries, the flash blocks still to write (with the staging offset of the block
record, or none for block 0), the attempts at the block in work, the journal slots that the update has taken (R447),
the flash blocks that have been written, the journal's among them, whether UPD_REVERTED waits for the restored image to start (R451), and
the wake copy (R468). -/
structure UpdUnit where
  manifest : List Byte := []
  seq : Nat := 0
  floor : Nat := 0
  entries : List UpdPart := []
  todo : List (Nat × Option Nat) := []
  tries : Nat := 0
  slots : Nat := 0
  flash : SMap (List Byte) := []
  revertedDue : Bool := false
  copy : WakeCopy := {}
  deriving DecidableEq, Repr

/-- The JTAG test access port (R517): the instruction in force, which is IDCODE after a reset of the port (PRESUMED from IEEE
1149.1), the boundary cells that SAMPLE/PRELOAD or EXTEST loaded last, and the bits that have come out at TDO. -/
structure JtagUnit where
  ir : JtagIr := .idcode
  cells : List Bool := []
  tdo : List Bool := []
  deriving DecidableEq, Repr

/-- The state of the block. `pending` is the queue of commands, first in, first out. `regs` is the set-up space as far
as a word differs from its reset value; `readData` what the last register read returned; `latch` the upper
words that reads of lower words latched (R94, TIM_NOW_NS); `mdioOut` lists the MDIO frames started on the buses; `refTicks` counts 2 ns ticks
of the reference; `freeCtr` numbers the free values taken (the model's own field). -/
structure State where
  pending : List Instr
  regs : SMap Word
  readData : Word
  latch : SMap Word
  hostMem : SMap Byte
  refTicks : Nat
  freeCtr : Nat
  pins : Pins
  hif : Hif
  cox : CoxUnit
  pwr : PowerUnit
  rst : ResetUnit
  prt : SMap PortSt
  mdioQueue : List MdioFrame
  mdioBus : SMap MdioFrame
  mdioOut : List MdioFrame
  tim : TimeUnit
  fab : Fabric
  ump : UmpUnit
  dram : DramUnit
  edge : EdgeUnit
  hfp : HfpUnit
  key : KeyUnit
  upd : UpdUnit
  jtag : JtagUnit
  deriving DecidableEq, Repr

/-- Class 1 entry 1 after reset (R132, R133): VID 1 with every port a member, untagged and flooded, FID 1, VALID and
LEARN. -/
def resetVlan : Nat :=
  (2 ^ 70 - 1) + (2 ^ 70 - 1) * 2 ^ 128 + (2 ^ 70 - 1) * 2 ^ 256 + 2 ^ 384 + 3 * 2 ^ 400

/-- The reset contents of a table bank: only VLAN entry 1 differs from its empty entry. -/
def resetBank : SMap Nat := [(2 ^ 20 + 1, resetVlan)]

/-- The state at the release of a power-on reset (R484, R485): every register at its reset value, options not yet
loaded, the switched domains off, the cores held, PERST_N low and the Host island in reset. -/
def State.reset : State :=
  { pending := [], regs := [], readData := 0, latch := [], hostMem := [], refTicks := 0, freeCtr := 0, pins := {}, hif := {},
    cox := {}, pwr := {}, rst := { islands := [6] }, prt := [], mdioQueue := [], mdioBus := [], mdioOut := [], tim := {},
    fab := { active := resetBank, staged := resetBank },
    ump := {}, dram := {}, edge := {}, hfp := {}, key := {}, upd := {}, jtag := {} }

end Sys2Proof.Machine
end

