-- ==== Sys2Proof/Machine/Ops.lean ====
section
/-! DEFINITION. The named operations that every command is built from: registers and their fields, host memory,
events and interrupts, access errors, fault bits and FAULT_N, island availability, persistent words, and the
completion of commands. -/
namespace Sys2Proof

/-- The INITIATOR code of an access. -/
def Initiator.code : Initiator → Nat
  | .host => 0
  | .cox => 1
  | .hfp _ => 2
  | .jtag => 3
  | .cfg => 0

/-- The PEER field of GLB_ACCESS_ADDR. -/
def Initiator.peer : Initiator → Nat
  | .hfp p => p.val
  | _ => 0

/-- The PEER octet of a record: the fabric ID, or 0xFF for the local ring (R384). -/
def CmdSrc.peerByte : CmdSrc → Nat
  | .localRing => 0xFF
  | .hfp p _ _ _ => p.val

/-- The command came by HFP. -/
def CmdSrc.remote : CmdSrc → Bool
  | .localRing => false
  | .hfp _ _ _ _ => true

end Sys2Proof

namespace Sys2Proof.Machine

/-! ### Registers (R9) -/

/-- The word of the set-up space at local address `a`, as held. -/
def State.rd (s : State) (a : Nat) : Word := SMap.get s.regs (resetWord a) a

/-- Sets the word at local address `a`. -/
def State.wr (s : State) (a : Nat) (v : Word) : State := { s with regs := SMap.put s.regs (resetWord a) a v }

/-- The value of a field. -/
def State.get (s : State) (f : Fld) : Nat :=
  if f.lo + f.w ≤ 32 then bits (s.rd f.addr).toNat f.lo f.w
  else bits ((s.rd f.addr).toNat + 2 ^ 32 * (s.rd (f.addr + 4)).toNat) f.lo f.w

/-- Sets a field, leaving the other bits of its register. -/
def State.set (s : State) (f : Fld) (v : Nat) : State :=
  if f.lo + f.w ≤ 32 then s.wr f.addr (BitVec.ofNat 32 (setBits (s.rd f.addr).toNat f.lo f.w v))
  else
    let x := setBits ((s.rd f.addr).toNat + 2 ^ 32 * (s.rd (f.addr + 4)).toNat) f.lo f.w v
    (s.wr f.addr (BitVec.ofNat 32 x)).wr (f.addr + 4) (BitVec.ofNat 32 (x / 2 ^ 32))

/-- A one-bit field as a truth value. -/
def State.on (s : State) (f : Fld) : Bool := s.get f == 1

/-- Sets a one-bit field from a truth value. -/
def State.put (s : State) (f : Fld) (b : Bool) : State := s.set f (if b then 1 else 0)

/-- Adds `k` to a counter that saturates at its maximum (R14). -/
def State.add (s : State) (f : Fld) (k : Nat) : State := s.set f (min (s.get f + k) (2 ^ f.w - 1))

/-- Adds 1 to a counter that saturates (R14). -/
def State.inc (s : State) (f : Fld) : State := s.add f 1

/-- Adds 1 to a counter that wraps. -/
def State.incWrap (s : State) (f : Fld) : State := s.set f (s.get f + 1)

/-- Returns the word at `a` to its reset value. -/
def State.clearWord (s : State) (a : Nat) : State := s.wr a (resetWord a)

/-- Applies `f` for each of a list, in order. -/
def State.each {α : Type} (s : State) (l : List α) (f : State → α → State) : State := l.foldl f s

/-! ### Free values and time -/

/-- A value that the spec leaves open: `w` bits that nothing constrains, a fresh one at each use. -/
def State.free (s : State) (w : Nat) : BitVec w × State :=
  (Config.freeValue w s.freeCtr, { s with freeCtr := s.freeCtr + 1 })

/-- Time of domain `d` in units of 2^-28 ns (R257, R259). -/
def State.domTime (s : State) (d : Nat) : Nat := SMap.get s.tim.now 0 d

/-- Whole nanoseconds of domain `d`. -/
def State.domNs (s : State) (d : Nat) : Nat := s.domTime d / 2 ^ 28

/-- Short time of domain `d` (R22). -/
def State.short (s : State) (d : Nat) : Nat := s.domNs d % 2 ^ 32

/-! ### Host memory -/

/-- `n` octets of host memory from address `a`. -/
def State.hostBytes (s : State) (a n : Nat) : List Byte :=
  (List.range n).map fun i => SMap.get s.hostMem 0 ((a + i) % 2 ^ 64)

/-- The device may issue memory requests: Bus Master Enable, and the function in D0 (R364; PRESUMED, log 132). -/
def State.dmaOn (s : State) : Bool := s.hif.pci.busMaster && !s.hif.pci.d3hot

/-- Octets in host memory from address `a` on. -/
def State.hostStore (s : State) : Nat → List Byte → State
  | _, [] => s
  | a, b :: t => State.hostStore { s with hostMem := SMap.put s.hostMem 0 (a % 2 ^ 64) b } (a + 1) t

/-- Writes octets to host memory from address `a`, while the device may. -/
def State.hostPut (s : State) (a : Nat) (l : List Byte) : State := if s.dmaOn then s.hostStore a l else s

/-- The little-endian number of `n` octets of host memory at `a` (R18). -/
def State.hostRd (s : State) (a n : Nat) : Nat := leNat (s.hostBytes a n)

/-- Writes `n` octets of `v` to host memory at `a`, little-endian (R18). -/
def State.hostWr (s : State) (a n v : Nat) : State := s.hostPut a (leBytes n v)

/-! ### Power, islands and power states -/

/-- The power domain of an island (R26); port islands by port number. AON has none (0). -/
def domainOf (i : Island) (n : Nat) : Nat :=
  match i with
  | .fabric => 3
  | .umpire => 4
  | .cox => 1
  | .time => 2
  | .edge => 5
  | .key => 6
  | .host => 7
  | .dram => 8
  | .debug => 14
  | .aon => 0
  | .port => if n < 4 then 9 else if n < 8 then 10 else if n < 20 then 11 else if n < 32 then 12 else 13

/-- The number under which an island is held in reset. -/
def islandKey (i : Island) (n : Nat) : Nat :=
  match i with
  | .fabric => 0
  | .umpire => 1
  | .time => 2
  | .edge => 3
  | .key => 4
  | .dram => 5
  | .host => 6
  | .cox => 7
  | .debug => 8
  | .aon => 9
  | .port => 100 + n

/-- The device is powered and no device reset is held (R484). -/
def State.alive (s : State) : Bool := !s.rst.off && s.rst.hold.isEmpty

/-- Domain `pd` is at power-good (PWR_STATUS.ON, R461). -/
def State.pdOn (s : State) (pd : Nat) : Bool := pd == 0 || bit (s.get PWR_STATUS_ON) (pd - 1)

/-- An island is powered and out of reset. -/
def State.up (s : State) (i : Island) (n : Nat := 0) : Bool :=
  s.alive && s.pdOn (domainOf i n) && !s.rst.islands.contains (islandKey i n)

/-- The power state code of R460. -/
def State.power (s : State) : Nat := s.get PWR_STATUS_STATE

/-- The commit state of GLB_CFG_STATE. -/
def State.commitState (s : State) : Nat := s.get GLB_CFG_STATE_STATE

/-- COX_STATUS.FROZEN (R399). -/
def State.frozen (s : State) : Bool := s.on COX_STATUS_FROZEN

/-- The power states in which forwarding and the Fabric island's tables act: Active, Feather and entering sleep. -/
def State.serving (s : State) : Bool := s.power == 0 || s.power == 1 || s.power == 3

/-! ### MSI-X and events (R382, R385, R356, R500) -/

/-- Word `k` of MSI-X table entry `v`; PRESUMED: the PCIe reset value, masked. -/
def State.msixWord (s : State) (v k : Nat) : Word := SMap.get s.hif.msixTab (if k = 3 then 1 else 0) (4 * v + k)

/-- Vector `v` is masked by its entry or by the Function Mask, or the function may issue no request (R364, R385). PRESUMED: the PCIe
rules of MSI-X; a vector that falls due then pends. -/
def State.msixMasked (s : State) (v : Nat) : Bool :=
  s.hif.pci.msixMask || !s.dmaOn || (s.msixWord v 3).toNat % 2 == 1

/-- Sends vector `v`, or sets its pending bit while it is masked; with MSI-X Enable = 0 it sends nothing (R385). -/
def State.sendVector (s : State) (v : Nat) : State :=
  if !s.hif.pci.msixOn then s
  else if s.msixMasked v then { s with hif := { s.hif with msixPba := s.hif.msixPba ||| 2 ^ v } }
  else s.hostWr ((s.msixWord v 0).toNat + 2 ^ 32 * (s.msixWord v 1).toNat) 4 (s.msixWord v 2).toNat

/-- Raises the vector of a source (0–15 TX rings, 16–31 RX rings, 32–47 event groups) under its holdoff (R385). -/
def State.raiseSource (s : State) (source : Nat) (en : Bool) (vec holdoff : Nat) : State :=
  if !en then s
  else if SMap.get s.hif.holdoff 0 source = 0 then
    (if holdoff = 0 then s else { s with hif := { s.hif with holdoff := SMap.put s.hif.holdoff 0 source 1 } }).sendVector vec
  else { s with hif := { s.hif with holdoff := SMap.put s.hif.holdoff 0 source 2 } }

/-- The 32 octets of an event record as one little-endian number (R382). -/
def EventRec.image (e : EventRec) (phase lost : Bool) : Nat :=
  e.code % 2 ^ 16 + (if phase then 2 ^ 16 else 0) + (if lost then 2 ^ 17 else 0) + e.source % 256 * 2 ^ 24
    + e.short0 % 2 ^ 32 * 2 ^ 32 + e.body % 2 ^ 192 * 2 ^ 64

/-- The number of slots of a ring from its LOG2_SIZE (R370). -/
def ringSize (log2 : Nat) : Nat := 2 ^ log2

/-- The event ring runs: enabled, not stopped, the Host island up and a bus master. -/
def State.evtRuns (s : State) : Bool :=
  s.up .host && s.dmaOn && s.on HIF_CTRL_ENABLE && s.on HIF_EVT_CFG_EN && !s.hif.stopped.contains 33

/-- The event ring has no free slot, by EVT_CONS as last read (R382). -/
def State.evtFull (s : State) : Bool :=
  (s.hif.evtProd - s.hif.evtCons).toNat ≥ ringSize (s.get HIF_EVT_CFG_LOG2_SIZE)

/-- The record image as the ring would hold it now. -/
def State.recordImage (s : State) (e : EventRec) : Nat :=
  e.image (bit s.hif.evtProd.toNat (s.get HIF_EVT_CFG_LOG2_SIZE)) s.hif.evtLost

/-- Writes a record at EVT_PROD, advances it and raises the vector of its group (R382, R385, R386). -/
def State.writeRing (s : State) (e : EventRec) : State :=
  let slot := s.hif.evtProd.toNat % ringSize (s.get HIF_EVT_CFG_LOG2_SIZE)
  let s1 := s.hostWr (s.get HIF_EVT_BASE_ADDR * 64 + 32 * slot) 32 (s.recordImage e)
  let s2 := { s1 with hif := { s1.hif with evtProd := s1.hif.evtProd + 1, evtLost := false } }
  let s3 := s2.hostWr (s2.get HIF_ST_BASE_ADDR * 4096 + 4) 4 s2.hif.evtProd.toNat
  let g := e.code / 256 % 16
  s3.raiseSource (32 + g) (s3.on (HIF_EVT_VEC_EN g)) (s3.get (HIF_EVT_VEC_VEC g)) (s3.get (HIF_EVT_VEC_HOLDOFF g))

/-- A record that the ring does not take counts in HIF_EVT_LOST (R368, R382). -/
def State.loseRecord (s : State) : State :=
  { s with hif := { s.hif with evtLost := true } }.inc HIF_EVT_LOST_COUNT

/-- The event ring takes the record or loses it. -/
def State.toRing (s : State) (e : EventRec) : State :=
  if s.evtRuns && !s.evtFull then s.writeRing e else s.loseRecord

/-- Copies a record image into the remote event queue, or counts it in HFP_REVQ_LOST when the queue is full
(R356); the second result says that the count has left 0. -/
def State.toRevq (s : State) (img : Nat) : State × Bool :=
  if !s.up .fabric then (s, false)
  else
    let h := s.get HFP_REVQ_HEAD_INDEX
    if (h + 1) % 256 = s.get HFP_REVQ_TAIL_INDEX then (s.inc HFP_REVQ_LOST_COUNT, s.get HFP_REVQ_LOST_COUNT == 0)
    else
      let s1 := s.each (List.range 8) fun t k => t.wr (HFP_REVQ h k) (BitVec.ofNat 32 (img / 2 ^ (32 * k)))
      (s1.set HFP_REVQ_HEAD_INDEX (h + 1), false)

/-- The record reaches Cox at once (R55), then the event ring and the remote event queue. A record that a full ring
does not write is not copied to the remote queue; one that meets a stopped ring is (R356, R368). -/
def State.deliver (s : State) (e : EventRec) : State × Bool :=
  let img := s.recordImage e
  let full := s.evtRuns && s.evtFull
  let s1 := { s with cox := { s.cox with events := s.cox.events ++ [e] } }
  let s2 := s1.toRing e
  if full then (s2, false) else s2.toRevq img

/-- Raises an event: one record, with ARG octets `body` from offset 8 (R55, R382, R383); REVQ_OVERFLOW follows when
the remote queue's count leaves 0 (R356). -/
def State.emit (s : State) (code source body : Nat) : State :=
  let r := s.deliver ⟨code, source, s.short 0, body⟩
  if r.2 then (r.1.deliver ⟨0x0805, 0, s.short 0, 0⟩).1 else r.1

/-- ARG0–ARG3 of a record. -/
def args (a0 : Nat) (a1 : Nat := 0) (a2 : Nat := 0) (a3 : Nat := 0) : Nat :=
  a0 % 2 ^ 32 + a1 % 2 ^ 32 * 2 ^ 32 + a2 % 2 ^ 32 * 2 ^ 64 + a3 % 2 ^ 32 * 2 ^ 96

/-- Raises START, OPT_DEFAULTED or BOATHOUSE: Cox receives it at once, and AON holds it until the event ring is
first enabled (R500). -/
def State.emitHeld (s : State) (code body : Nat) : State :=
  let e : EventRec := ⟨code, 0, s.short 0, body⟩
  { s with cox := { s.cox with events := s.cox.events ++ [e] },
           hif := { s.hif with heldEvents := s.hif.heldEvents ++ [e] } }

/-! ### Access errors (R10, R11, R36, R529, R530) -/

/-- Records one faulty access in GLB_ACCESS_ERR and GLB_ACCESS_ADDR (R530). -/
def State.accessErr (s : State) (who : Initiator) (isWrite : Bool) (addr cause : Nat) : State :=
  let s1 := s.inc GLB_ACCESS_ERR_COUNT
  if s.on GLB_ACCESS_ERR_VALID then s1.set GLB_ACCESS_ERR_OVERFLOW 1
  else
    ((((s1.set GLB_ACCESS_ERR_VALID 1).set GLB_ACCESS_ERR_CAUSE cause).set GLB_ACCESS_ERR_INITIATOR who.code).set
      GLB_ACCESS_ADDR_ADDR addr).set GLB_ACCESS_ADDR_PEER who.peer |>.put GLB_ACCESS_ADDR_WRITE isWrite

/-- The island and port of a local address, where the map defines a register there. -/
def islandAt (a : Nat) : Option (Island × Nat) :=
  (regAt a).map fun r => (r.1.island, if r.1.island = .port then r.2.1.headD 0 else 0)

/-- The island of an address answers, or its wrapper completes the access with cause 5 (domain off) or 7 (in reset)
(R31). The second result says whether the access goes on. -/
def State.access (s : State) (who : Initiator) (isWrite : Bool) (a : Nat) : State × Bool :=
  match islandAt a with
  | none => (s.accessErr who isWrite a 4, false)
  | some (i, n) =>
    if s.up i n then (s, true)
    else (s.accessErr who isWrite a (if s.pdOn (domainOf i n) then 7 else 5), false)

/-- The set-up bus is held, for a peer or for an outgoing sequence (R350). -/
def State.busHeld (s : State) : Bool := s.up .fabric && (s.on HFP_LOCK_STATUS_FAR_HELD || s.on HFP_LOCK_STATUS_OUT_ACTIVE)

/-- An access of this device waits for the bus (R350). -/
def State.busWaits (s : State) (w : BusWait) : State := { s with hfp := { s.hfp with busWait := s.hfp.busWait ++ [w] } }

/-- Changes the configuration space. -/
def State.pciSet (s : State) (f : PciCfg → PciCfg) : State := { s with hif := { s.hif with pci := f s.hif.pci } }

/-- A memory request of the host finds the function taking none: the Host island down, Memory Space Enable = 0, or D3hot (R364;
PRESUMED, log 132). -/
def State.hostTurned (s : State) (who : Initiator) : Bool :=
  who == .host && !(s.up .host && s.hif.pci.memOn && !s.hif.pci.d3hot)

/-- An unsupported request (PCI Express): its AER bit sets; a read returns all ones. -/
def State.unsupported (s : State) (isRead : Bool) : State :=
  let s1 := if s.up .host then s.pciSet fun p => { p with aerUncorr := p.aerUncorr ||| 0x100000 } else s
  if isRead then { s1 with readData := 0xFFFFFFFF } else s1

/-! ### Persistent words (R501–R503) -/

/-- The wear counter of a persistent word that a register shows (LOG_WEAR, LOG_SYS_WEAR). -/
def wearFld : PTgt → Option Fld
  | .logWord i => some (LOG_WEAR_COUNT i)
  | .failStart => some (LOG_SYS_WEAR_COUNT 0)
  | .updState => some (LOG_SYS_WEAR_COUNT 1)
  | .updSeq => some (LOG_SYS_WEAR_COUNT 2)
  | .updFloor => some (LOG_SYS_WEAR_COUNT 3)
  | .ownerLock => some (LOG_SYS_WEAR_COUNT 4)
  | .keyHash => some (LOG_SYS_WEAR_COUNT 5)
  | .optWord c 0 => some (LOG_SYS_WEAR_COUNT (6 + c))
  | .optWord _ _ => none
  | .keySlot _ => none

/-- The stored value of a persistent word. -/
def State.pwStored (s : State) : PTgt → Nat
  | .logWord i => s.get (LOG_WORD_VALUE i)
  | .failStart => s.get LOG_FAIL_START_FAILS
  | .updState => (s.rd UPD_STATUS).toNat
  | .updSeq => s.get UPD_SEQ_VALUE
  | .updFloor => s.get UPD_FLOOR_VALUE
  | .ownerLock => s.get COX_LIFECYCLE_OWNER_LOCK
  | .keyHash => beNat s.cox.keyHash
  | .optWord c i => (SMap.get s.rst.optWords 0 (16 * c + i)).toNat
  | .keySlot i => SMap.get s.key.slots 0 i

/-- The update state takes what RRAM holds now; a change of STATE raises UPD_STATE (R449). -/
def State.updStored (s : State) (v : Nat) : State :=
  let old := s.get UPD_STATUS_STATE
  let s1 := s.wr UPD_STATUS (BitVec.ofNat 32 v)
  if v % 16 = old then s1 else s1.emit 0x0A00 0 (args (v % 16) old)

/-- The octets of an ASCII string. -/
def ascii (t : String) : List Byte := t.toList.map fun c => BitVec.ofNat 8 c.toNat

/-- GLB_UID as eight octets in network order. -/
def uidBytes : List Byte := beBytes 8 Config.uid.toNat

/-- The Seal key (R413). -/
def State.sealKey (s : State) : List Byte := Config.hkdf s.key.ownerSeed uidBytes (ascii "VF6425 SEAL") 32

/-- A persistent slot takes its new contents, sealed under the Seal key; what it showed wrong before is gone (R415, R439). Slots written in MANUFACTURE are known as
such (R414). -/
def State.slotStored (s : State) (i e : Nat) : State :=
  let rest := s.key.fromManufacture.filter (· ≠ i)
  { s with key := { s.key with
      slots := SMap.put s.key.slots 0 i e, seals := SMap.insert s.key.seals i s.sealKey, slotErr := SMap.erase s.key.slotErr i, badSeals := s.key.badSeals.filter (· ≠ i)
      fromManufacture := if s.get COX_LIFECYCLE_STATE = 0 then rest ++ [i] else rest } }

/-- Stores a persistent word. -/
def State.pwStore (s : State) (t : PTgt) (v : Nat) : State :=
  match t with
  | .logWord i => s.set (LOG_WORD_VALUE i) v
  | .failStart => s.set LOG_FAIL_START_FAILS v
  | .updState => s.updStored v
  | .updSeq => s.set UPD_SEQ_VALUE v
  | .updFloor => s.set UPD_FLOOR_VALUE v
  | .ownerLock => s.set COX_LIFECYCLE_OWNER_LOCK v
  | .keyHash => { s with cox := { s.cox with keyHash := beBytes 64 v } }.set COX_LIFECYCLE_KEY_SET 1
  | .optWord c i => { s with rst := { s.rst with optWords := SMap.put s.rst.optWords 0 (16 * c + i) (BitVec.ofNat 32 v) } }
  | .keySlot i => s.slotStored i v

/-- The wear counter of a persistent word (R502). -/
def State.wear (s : State) (t : PTgt) : Nat :=
  match t with
  | .keySlot i => SMap.get s.key.wear 0 i
  | .optWord c (i + 1) => SMap.get s.rst.optWear 0 (16 * c + i + 1)
  | t => match wearFld t with
    | some f => s.get f
    | none => 0

/-- The word is worn: its counter is at 100,000 or more (R502). -/
def State.worn (s : State) (t : PTgt) : Bool := s.wear t ≥ 100000

/-- The wear of one write: 1, or 4 with the junction above 125 °C at its start (R502). -/
def State.wearStep (s : State) : Nat := if sext 8 (s.get COX_MON_TJ) > 125 then 4 else 1

/-- A wear counter after one more write; counters without a register saturate as those with one do. -/
def State.moreWear (s : State) (k : Nat) : Nat := min (k + s.wearStep) 131071

/-- Counts the wear of a write that starts. -/
def State.countWear (s : State) (t : PTgt) : State :=
  match t with
  | .keySlot i => { s with key := { s.key with wear := SMap.upd s.key.wear 0 i s.moreWear } }
  | .optWord c (i + 1) => { s with rst := { s.rst with optWear := SMap.upd s.rst.optWear 0 (16 * c + i + 1) s.moreWear } }
  | t => match wearFld t with
    | some f => s.add f s.wearStep
    | none => s

/-- LOG_STATUS.BUSY: a write of a logbook word is in progress (R503). -/
def State.logBusyNow (s : State) : Bool :=
  s.rst.pw.any fun w => match w.tgt with
    | .logWord _ => true
    | .failStart => true
    | _ => false

/-- OPT_STATUS.PROG_BUSY: an option copy is being programmed (R496). -/
def State.optBusyNow (s : State) : Bool :=
  s.rst.pw.any fun w => match w.tgt with
    | .optWord _ _ => true
    | _ => false

/-- Shows the busy flags of the writes in progress. -/
def State.showBusy (s : State) : State :=
  (s.put LOG_STATUS_BUSY s.logBusyNow).put OPT_STATUS_PROG_BUSY s.optBusyNow

/-- A write to a worn word is refused and its value kept (R502). A register write brought about the writes of an option program: WORN_HIT
sets, and LOG_WORN is raised. DESIGN CHOICE (log 128): the spec gives option words no address, and the event's is a free value. -/
def State.wornRefused (s : State) (t : PTgt) : State :=
  match t with
  | .optWord _ _ => (s.free 32).2.set LOG_STATUS_WORN_HIT 1 |>.emit 0x0C02 0 (s.free 32).1.toNat
  | _ => s

/-- Starts the first write of the list that has anything to do: one whose value is stored already is not carried out and counts no wear
(R501), one to a worn word is refused (R502). -/
def State.startPw (s : State) : List PWrite → State
  | [] => { s with rst := { s.rst with pw := [] } }.showBusy
  | w :: t =>
    if s.pwStored w.tgt = w.val then s.startPw t
    else if s.worn w.tgt then (s.wornRefused w.tgt).startPw t
    else ({ s with rst := { s.rst with pw := w :: t } }.countWear w.tgt).showBusy

/-- Asks for persistent writes: they run in order, each for 50 µs (R501). -/
def State.pwRequest (s : State) (l : List PWrite) : State :=
  if s.rst.pw.isEmpty then s.startPw l else { s with rst := { s.rst with pw := s.rst.pw ++ l } }.showBusy

/-- The write in progress completes into RRAM, and the next begins (R501). -/
def State.pwDone (s : State) : State :=
  match s.rst.pw with
  | [] => s
  | w :: t => (s.pwStore w.tgt w.val).startPw t

/-- Every write asked for completes: what has to be in RRAM before something else happens. -/
def State.pwFlush (s : State) : State := s.each s.rst.pw fun t _ => t.pwDone

/-- The value that a persistent word will hold once the writes asked for are done (R501). -/
def State.pwLast (s : State) (t : PTgt) : Nat :=
  (s.rst.pw.filterMap fun w => if w.tgt = t then some w.val else none).getLastD (s.pwStored t)

/-- The update state of R449 with the writes asked for done; UPD_STATUS shows what is stored. -/
def State.updLive (s : State) : Nat := s.pwLast .updState % 16

/-- REVERT_CAUSE, likewise. -/
def State.updCause (s : State) : Nat := s.pwLast .updState / 2 ^ 24

/-- A register write to a worn word sets WORN_HIT and raises LOG_WORN with the word's address (R502). -/
def State.wornHit (s : State) (i : Nat) : State :=
  ((s.set LOG_STATUS_WORN_HIT 1).set LOG_STATUS_LAST_WORN i).emit 0x0C02 0 (args (LOG_WORD i))

/-! ### Command completion (R376, R377, R379, R384) -/

/-- Bits of a descriptor from an octet offset. -/
def descBits (d : Desc) (off w : Nat) : Nat := bits d.toNat (8 * off) w

/-- Octets `[a, b)` of a descriptor are 0. -/
def descZero (d : Desc) (a b : Nat) : Bool := descBits d a (8 * (b - a)) == 0

/-- The OPCODE of a descriptor (R376). -/
def descOp (d : Desc) : Nat := descBits d 0 8

/-- Header reserved bits are 0; DEDUCED: octets 8–15 are the device's and are not checked, their reserved bits are. -/
def descHeaderOk (d : Desc) : Bool :=
  descBits d 1 8 / 2 == 0 && descZero d 4 8 && descBits d 9 8 / 2 == 0 && descZero d 10 12

/-- The command ring runs. -/
def State.cmdRuns (s : State) : Bool :=
  s.up .host && s.dmaOn && s.on HIF_CTRL_ENABLE && s.on HIF_CMD_CFG_EN && !s.hif.stopped.contains 32

/-- The host address of the descriptor at CMD_CONS (R370). -/
def State.cmdSlot (s : State) : Nat :=
  s.get HIF_CMD_BASE_ADDR * 64 + 64 * (s.hif.cmdCons.toNat % ringSize (s.get HIF_CMD_CFG_LOG2_SIZE))

/-- The writeback of octets 8–15 and the advance of CMD_CONS (R376, R386). -/
def State.writeBack (s : State) (status result : Nat) : State :=
  if s.cmdRuns then
    let s1 := s.hostWr (s.cmdSlot + 8) 8 (status % 256 + 256 + result % 2 ^ 32 * 2 ^ 32)
    let s2 := { s1 with hif := { s1.hif with cmdCons := s1.hif.cmdCons + 1 } }
    s2.hostWr (s2.get HIF_ST_BASE_ADDR * 4096) 4 s2.hif.cmdCons.toNat
  else s

/-- The CMD_DONE record of a completed command (R384). -/
def cmdDoneBody (src : CmdSrc) (d : Desc) (status result : Nat) : Nat :=
  descOp d + status % 256 * 2 ^ 8 + descBits d 2 16 * 2 ^ 16 + result % 2 ^ 32 * 2 ^ 32 + src.peerByte * 2 ^ 64

/-! ### Frames that the device makes itself (R107), and HFP frames (R331–R334) -/

/-- The key of a frame on its way in. -/
def rxKey (port frame : Nat) : Nat := port * 2 ^ 32 + frame

/-- From the last acknowledgement of a sleep entry on, the device accepts no frame on any port (R470 step 3). -/
def State.framesStopped (s : State) : Bool := s.power == 3 && s.pwr.waitAck.isEmpty

/-- A frame enters at an internal port with its last octet in (R107): host, Cox, Rigger and bridge frames. Without the
Fabric island it is lost. DESIGN CHOICE (log 36): its epoch (R52) is fixed here, when it is made or fetched. -/
def State.internalIn (s : State) (port : Nat) (bytes : List Byte) (tag : Option TxTag) (direct : Option Nat) : State :=
  if !s.up .fabric || s.framesStopped then s
  else
    let x : RxFrame := { port := port, bytes := bytes, epoch := s.get GLB_CFG_STATE_EPOCH, stamp := leBytes 24 0,
                         arrival := s.short 0, ended := true, tag := tag, direct := direct }
    { s with fab := { s.fab with rx := SMap.insert s.fab.rx (rxKey port s.fab.nextFrame) x,
                                 nextFrame := s.fab.nextFrame + 1 } }

/-- The 16-octet header of a message (R332). -/
def hfpHeader (m : HfpMsg) : List Byte :=
  [m.ver, m.typ] ++ beBytes 2 m.len.toNat ++ beBytes 1 m.src.val ++ [m.dst] ++ beBytes 1 m.cls.val ++ [m.hops]
    ++ beBytes 4 m.seq.toNat ++ beBytes 2 m.tag.toNat ++ [0, 0]

/-- The octets of an HFP frame without its FCS (R331) on its way to port `n`. -/
def State.hfpFrame (s : State) (n : Nat) (m : HfpMsg) : List Byte :=
  let da := if m.typ = 1 then 0x034846500001 else (SMap.get s.hfp.adj {} n).mac
  let sa := s.get HFP_MAC_HI_HI * 2 ^ 32 + s.get HFP_MAC_LO_LO
  let vid := s.get HFP_TAG_VID
  let pcp := if m.cls = 0 then s.get HFP_TAG_PCP_ORD else s.get HFP_TAG_PCP_PRIV
  let f := beBytes 6 da ++ beBytes 6 sa ++ (if vid = 0 then [] else beBytes 2 0x8100 ++ beBytes 2 (pcp * 8192 + vid))
    ++ beBytes 2 (s.get HFP_ETYPE_ETYPE) ++ hfpHeader m ++ m.body.take (m.len.toNat - 16)
  f ++ leBytes (60 - f.length) 0

/-- A message enters the switch at port 69 with one egress port (R334). -/
def State.sendHfpOn (s : State) (n : Nat) (m : HfpMsg) : State :=
  if !s.up .fabric then s
  else
    let s1 := { s with hfp := { s.hfp with out := s.hfp.out ++ [(n, m)] } }.inc HFP_TX_MSG_COUNT
    s1.internalIn 69 (s.hfpFrame n m) none (some n)

/-- The port toward a fabric ID: its route, over a FULL adjacency (R338, R340). -/
def State.routePort (s : State) (f : Nat) : Option Nat :=
  let n := s.get (HFP_ROUTE_PORT f)
  if f < 32 && s.on (HFP_ROUTE_VALID f) && s.get (HFP_ADJ_STATE n) == 3 then some n else none

/-- A message leaves by the route of its destination; without one it is discarded and counted (R334). -/
def State.sendHfp (s : State) (m : HfpMsg) : State :=
  match s.routePort m.dst.toNat with
  | some n => s.sendHfpOn n m
  | none => s.inc HFP_NO_ROUTE_COUNT

/-- A message of this device (R332): own ID, 31 hops, LENGTH of header and body. -/
def State.hfpMsg (s : State) (typ dst cls seq tag : Nat) (body : List Byte) : HfpMsg :=
  { ver := 1, typ := BitVec.ofNat 8 typ, src := Fin.ofNat 32 (s.get HFP_CFG_ID), dst := BitVec.ofNat 8 dst,
    cls := Fin.ofNat 4 cls, hops := 31, seq := BitVec.ofNat 32 seq, tag := BitVec.ofNat 16 tag,
    len := BitVec.ofNat 16 (16 + body.length), body := body }

/-- A completion to a peer (R333, R343): STATUS and, with it, LEN octets of data. -/
def State.sendCpl (s : State) (peer : Fin 32) (cls : Fin 4) (tag : BitVec 16) (status : Nat) (data : List Byte) : State :=
  s.sendHfp (s.hfpMsg 7 peer.val cls.val 0 tag.toNat
    ([BitVec.ofNat 8 status, 0, 0, 0] ++ beBytes 2 data.length ++ [0, 0] ++ data))

/-- A command completes: its writeback and CMD_CONS for a local one, its CPL with RESULT for one that came by HFP,
then its CMD_DONE record when EVT = 1 or it came by HFP (R384, R386). A command that a reset of the Host island has cut off leaves
neither writeback nor record (R368); one by HFP keeps its CPL. -/
def State.complete (s : State) (src : CmdSrc) (d : Desc) (cut : Bool) (status result : Nat) : State :=
  let s1 := match src with
    | .localRing => if cut then s else s.writeBack status result
    | .hfp p t c _ => s.sendCpl p c t status (beBytes 4 result)
  if !cut && (src.remote || descBits d 1 1 == 1) then s1.emit 0x0001 0 (cmdDoneBody src d status result) else s1

/-- The STATE_REFUSED record (R379, R384). -/
def State.stateRefused (s : State) (src : CmdSrc) (d : Desc) (reason detail : Nat) : State :=
  s.emit 0x0002 0 (descOp d + reason * 2 ^ 8 + descBits d 2 16 * 2 ^ 16
    + (s.power % 4 + s.commitState * 2 ^ 4 + s.get HFP_FAB_STATUS_ADRIFT * 2 ^ 8) * 2 ^ 32
    + detail % 2 ^ 32 * 2 ^ 64 + src.peerByte * 2 ^ 96)

/-- What a command's own rules make of it: it ends now with a status and RESULT, it is refused in the present state
with REASON and DETAIL (R379), or it goes on running. -/
inductive CmdOut where
  | done (s : State) (status result : Nat)
  | refuse (reason detail : Nat)
  | long (s : State) (kind : LongKind)

/-- Shows the running command in HIF_STATUS. -/
def State.showRunning (s : State) (op : Nat) (run : Bool) : State :=
  (s.put HIF_STATUS_CMD_RUNNING run).set HIF_STATUS_CMD_OPCODE (if run then op else 0)

/-- The running command ends with a status and RESULT (R377). -/
def State.finishRunning (s : State) (status result : Nat) : State :=
  match s.hif.running with
  | none => s
  | some r => ({ s with hif := { s.hif with running := none } }.showRunning 0 false).complete r.src r.desc r.cut status result

/-- The running command ends with STATE and its record (R379, R399). -/
def State.refuseRunning (s : State) (reason detail : Nat) : State :=
  match s.hif.running with
  | none => s
  | some r =>
    let s1 := { s with hif := { s.hif with running := none } }.showRunning 0 false
    (if r.cut then s1 else s1.stateRefused r.src r.desc reason detail).complete r.src r.desc r.cut 4 0

/-- The kind of the running command. -/
def State.runningKind (s : State) : Option LongKind := s.hif.running.map (·.kind)

/-- The false-wake timer stops for good, and with it a return that waits for WAKE_IN (R481). -/
def State.stopIdle (s : State) : State := { s with pwr := { s.pwr with idleTimer := false, falsePending := false } }

/-- The command processor takes a command (R377, R378): BUSY for a remote one while a command runs; a local one
waits in its ring. A descriptor read and a command by HFP stop the false-wake timer (R481). The header's reserved
fields are checked with the arguments. `st` lists the power states that accept it (R380), `frz` says that R399
refuses it while FROZEN = 1. -/
def State.runCmd (s : State) (src : CmdSrc) (d : Desc) (argsOk : Bool) (st : List Nat) (frz : Bool)
    (body : State → CmdOut) : State :=
  match s.hif.running with
  | some _ => if src.remote then s.stopIdle.complete src d false 1 0 else s
  | none =>
    let s0 := s.stopIdle
    if !(descHeaderOk d && argsOk) then s0.complete src d false 3 0
    else if !st.contains s0.power then (s0.stateRefused src d 1 0).complete src d false 4 0
    else if frz && s0.frozen then (s0.stateRefused src d 6 1).complete src d false 4 0
    else match body s0 with
      | .done s1 status result => s1.complete src d false status result
      | .refuse reason detail => (s0.stateRefused src d reason detail).complete src d false 4 0
      | .long s1 kind =>
        { s1 with hif := { s1.hif with running := some ⟨src, d, kind, false⟩ } }.showRunning (descOp d) true

end Sys2Proof.Machine
end

