-- ==== Sys2Proof/Machine/Flags.lean ====
section
/-! DEFINITION. Fault bits, the level of FAULT_N (R56) and the injection points of R410, R411. -/
namespace Sys2Proof.Machine

/-! ### FAULT_N (R56) -/

/-- The GLB_FAULT bits that drive FAULT_N by themselves: bits 0 and 1 always, bits 2–6 unless masked. -/
def State.unmaskedFaults (s : State) : Nat :=
  let f := (s.rd GLB_FAULT).toNat
  f % 4 + (f / 4 % 32 &&& (31 - s.get GLB_FAULT_MASK_MASK)) * 4

/-- A cause that holds FAULT_N low is present (R56). -/
def State.faultCause (s : State) : Bool :=
  s.unmaskedFaults ≠ 0 || s.on GLB_FAULT_START_PENDING || s.frozen || !s.alive || s.power == 2

/-- The level of FAULT_N, `true` for low: a cause, or the 10 µs of an assertion (R56). -/
def State.faultNLow (s : State) : Bool := s.faultCause || s.pins.faultHold

/-- `t` after `s`: an assertion that begins starts its minimum time. -/
def State.holdFaultN (s t : State) : State :=
  if t.faultCause && !s.faultNLow then { t with pins := { t.pins with faultHold := true } } else t

/-- Sets a GLB_FAULT bit. -/
def State.setFaultBit (s : State) (f : Fld) : State := s.holdFaultN (s.set f 1)

/-- Captures the first finding in COX_FAULT_INFO; a later one sets OVERFLOW (R397). -/
def State.captureFault (s : State) (code : Nat) : State :=
  if s.on COX_FAULT_INFO_VALID then s.set COX_FAULT_INFO_OVERFLOW 1
  else ((s.set COX_FAULT_INFO_VALID 1).set COX_FAULT_INFO_CODE code).set COX_FAULT_INFO_SHORT0 (s.short 0)

/-! ### Banks of outputs (R487, R507) -/

/-- The bank of rail `r` is out of its valid range: its output stages are off (R487). -/
def State.bankOff (s : State) (r : Nat) : Bool := s.rst.off || s.pins.railsOut.contains r

/-- The bank of rail `r` has been found between its two voltages at POWER_ON: its outputs stay in their hold (R507). -/
def State.bankHeld (s : State) (r : Nat) : Bool :=
  (r == 11 && s.pins.edgeBank == .between) || (r == 12 && s.pins.timeBank == .between)

/-- The outputs of the bank of rail `r` show what their units drive. -/
def State.bankDrives (s : State) (r : Nat) : Bool := !s.bankOff r && !s.bankHeld r

/-! ### Injection points (R410) -/

/-- Point `p` is armed with target `t`. -/
def State.injArmedFor (s : State) (p t : Nat) : Bool := s.on (INJ_ARM_ARM p) && s.get (INJ_ARM_TARGET p) == t

/-- A "once" point acts: FIRED sets and ARM clears. -/
def State.injSpend (s : State) (p : Nat) : State := (s.set (INJ_ARM_FIRED p) 1).set (INJ_ARM_ARM p) 0

/-- A "level" point acts: FIRED sets. -/
def State.injMark (s : State) (p : Nat) : State := s.set (INJ_ARM_FIRED p) 1

/-- What TARGET, SUB and BITS values a point accepts (R411). -/
def injAccepts (p target sub nbits : Nat) : Bool × Bool × Bool :=
  let t := match p with
    | 0 => target == 0
    | 1 => target < 2
    | 2 => target < 2
    | 3 => target < 3
    | 4 => target < 2
    | 5 => 0x20 ≤ target && target ≤ 0x28
    | 6 => target < 16
    | 7 => target == 0
    | 8 => target < 16
    | 9 => target == 0
    | 10 => target == 0
    | 11 => target < 32
    | 12 => target < 64
    | 13 => target < 32
    | 14 => target < 8192
    | 15 => target < 2048
    | 16 => target < 2048
    | 17 => target < 4
    | 18 => target < 4
    | 19 => target < 8192
    | 20 => if sub = 0 then target < 8192 else if sub = 1 then target < 8192 else target < 512
    | 21 => target < 32
    | 22 => target < 32
    | 23 => target < 2
    | 24 => target < 256
    | _ => false
  (t, if p = 20 then sub < 3 else sub == 0, if p = 8 ∨ p = 10 then nbits == 1 || nbits == 2 else nbits == 0)

end Sys2Proof.Machine
end

