-- ==== Sys2Proof/Machine/Tables.lean ====
section
/-! DEFINITION. The banked tables (R40–R44, R52), and the gate lists that run from them (R213–R220). -/
namespace Sys2Proof.Machine

/-! ### Banks -/

/-- The key of an entry in a bank. -/
def entryKey (c i : Nat) : Nat := c * 2 ^ 20 + i

/-- The empty entry of a class, as one little-endian number (R44). -/
def emptyEntry (k : Nat) : Nat :=
  let c := k / 2 ^ 20
  let i := k % 2 ^ 20
  if c = 5 then (if i < 256 then 1 else 0)
  else if c = 9 then (if i < 40960 then 0xFF + 1000 * 2 ^ 32 else 0)
  else if c = 10 then leNat ((List.range 8).flatMap fun _ => leBytes 4 2048)
  else 0

/-- Entries of a class (R40 and the owning chapters). -/
def classSize : Nat → Nat
  | 0 => 4096
  | 1 => 4095
  | 2 => 1024
  | 3 => 8192
  | 4 => 2048
  | 5 => 326
  | 6 => 4096
  | 7 => 2048
  | 8 => 560
  | 9 => 41030
  | 10 => 70
  | 11 => 8192
  | 12 => 8192
  | 13 => 512
  | 14 => 1024
  | 15 => 608
  | 16 => 64
  | _ => 0

/-- Octets of an entry of a class. -/
def entrySize : Nat → Nat
  | 0 => 32
  | 1 => 64
  | 2 => 32
  | 3 => 192
  | 4 => 80
  | 5 => 16
  | 6 => 32
  | 7 => 16
  | 8 => 16
  | 9 => 16
  | 10 => 48
  | 11 => 80
  | 12 => 64
  | 13 => 48
  | 14 => 64
  | 15 => 160
  | 16 => 64
  | _ => 0

/-- Bits of an entry: octet offset, lowest bit there, width. -/
def ebits (e off lo w : Nat) : Nat := bits e (8 * off + lo) w

/-- One bit of an entry. -/
def ebit (e off lo : Nat) : Bool := bit e (8 * off + lo)

/-- An entry of a bank. -/
def bankGet (b : SMap Nat) (c i : Nat) : Nat := SMap.get b (emptyEntry (entryKey c i)) (entryKey c i)

/-- A bank with an entry written. -/
def bankPut (b : SMap Nat) (c i v : Nat) : SMap Nat := SMap.put b (emptyEntry (entryKey c i)) (entryKey c i) v

/-- An entry of the active bank. -/
def State.tab (s : State) (c i : Nat) : Nat := bankGet s.fab.active c i

/-- The ingress-side bank of an epoch (R52): the active one, or the old one while it drains. -/
def State.bankOf (s : State) (epoch : Nat) : SMap Nat :=
  if epoch = s.get GLB_CFG_STATE_EPOCH then s.fab.active else s.fab.old

/-- An entry of the bank of an epoch. -/
def State.tabAt (s : State) (epoch c i : Nat) : Nat := bankGet (s.bankOf epoch) c i

/-- The entries that a bank lists for a class, as index and entry, in rising order: every valid entry is among them,
since an unlisted one is empty. -/
def listed (b : SMap Nat) (c : Nat) : List (Nat × Nat) :=
  (b.filter fun e => e.1 / 2 ^ 20 == c).map fun e => (e.1 % 2 ^ 20, e.2)

/-- A bank with the entries of a class replaced by those of another bank. -/
def copyClass (src dst : SMap Nat) (c : Nat) : SMap Nat :=
  (src.filter fun e => e.1 / 2 ^ 20 == c).foldl (fun b e => SMap.insert b e.1 e.2)
    (dst.filter fun e => e.1 / 2 ^ 20 != c)

/-- Bit `c` of GLB_STAGED: the staged bank of class `c` differs from the active one (R42). DESIGN CHOICE (log 86): a STAGE that makes
both equal again clears the bit, though GLB_STAGED names the refill and OP 3 alone as what clears it. -/
def State.showStaged (s : State) (c : Nat) : State :=
  s.set GLB_STAGED_DIRTY (setBits (s.get GLB_STAGED_DIRTY) c 1 (if listed s.fab.staged c = listed s.fab.active c then 0 else 1))

/-! ### Gate lists (R213–R220) -/

/-- The header of port `n` in the active bank. -/
def State.gateHeader (s : State) (n : Nat) : Nat := s.tab 9 (40960 + n)

/-- The index of operation `k` of port `n` (R213). -/
def gateOpIndex (n k : Nat) : Nat :=
  if n < 32 then 1024 * n + k else if n < 64 then 38912 + 64 * (n - 32) + k else 1024 * (n - 32) + k

/-- An operation of a gate list: GATES, OP, INTERVAL (R214). -/
structure GateOp where
  gates : Nat
  op : Nat
  interval : Nat
  deriving DecidableEq, Repr

/-- A gate list as it runs: its operations, BASE in ns, CYCLE_NS and DOMAIN. -/
structure GateList where
  ops : List GateOp
  base : Nat
  cycle : Nat
  domain : Nat
  deriving DecidableEq, Repr

/-- The gate list of port `n` in a bank, when it is enabled. -/
def gateListIn (b : SMap Nat) (n : Nat) : Option GateList :=
  let h := bankGet b 9 (40960 + n)
  if ebit h 6 0 then
    some { ops := (List.range (ebits h 6 5 11)).map fun k =>
             let e := bankGet b 9 (gateOpIndex n k)
             { gates := ebits e 0 0 8, op := ebits e 1 0 2, interval := ebits e 4 0 32 },
           base := ebits h 0 0 48 * 10 ^ 9 + ebits h 8 0 32, cycle := ebits h 12 0 32, domain := ebits h 6 1 2 }
  else none

/-- The active gate list of port `n`. -/
def State.gateList (s : State) (n : Nat) : Option GateList := gateListIn s.fab.active n

/-- The operation in force at a phase and the position at which it ends; the cycle cuts or stretches the last one
(R215). -/
def gateAt (cycle phase : Nat) : List GateOp → Nat → Nat → Nat × Nat
  | [], k, _ => (k - 1, cycle)
  | [_], k, _ => (k, cycle)
  | o :: rest, k, sum =>
    if sum + o.interval > phase then (k, min (sum + o.interval) cycle) else gateAt cycle phase rest (k + 1) (sum + o.interval)

/-- The operations of a cycle with their durations: the cycle cuts or stretches the last (R215). -/
def gateSpans (cycle : Nat) : List GateOp → Nat → List (GateOp × Nat)
  | [], _ => []
  | [o], start => [(o, cycle - start)]
  | o :: t, start => if start + o.interval ≥ cycle then [(o, cycle - start)] else (o, o.interval) :: gateSpans cycle t (start + o.interval)

/-- Whether the MAC is held at operation `k` (R215). -/
def gateHold (ops : List GateOp) (k : Nat) : Bool :=
  let marks := fun l : List GateOp => l.filterMap fun o => if o.op = 1 then some true else if o.op = 2 then some false else none
  (marks (ops.take (k + 1))).getLastD ((marks ops).getLastD false)

/-- Shows the gate state of a port in GTE_STATUS. -/
def State.showGate (s : State) (n k gates : Nat) (hold listEn : Bool) : State :=
  (((s.set (GTE_STATUS_INDEX n) k).put (GTE_STATUS_LIST_EN n) listEn).put (GTE_STATUS_MAC_HELD n) hold).set
    (GTE_STATUS_GATES n) gates

/-- The phase of port `n`'s list is computed from its domain's time, and its gates take effect (R215, R217, R218,
R220). -/
def State.gateRecompute (s : State) (n : Nat) : State :=
  match s.gateList n with
  | none => { s with fab := { s.fab with gates := SMap.erase s.fab.gates n } }.showGate n 0 0xFF false false
  | some g =>
    let t := s.domNs g.domain
    let phase := (((t : Int) - (g.base : Int)) % (g.cycle : Int)).toNat
    let r := gateAt g.cycle phase g.ops 0 0
    let next := (s.short g.domain + (r.2 - phase)) % 2 ^ 32
    { s with fab := { s.fab with gates := SMap.insert s.fab.gates n ⟨r.1, next⟩ } }.showGate n r.1
      ((g.ops[r.1]?).elim 0xFF GateOp.gates) (gateHold ((gateSpans g.cycle g.ops 0).map Prod.fst) r.1) true

/-- Every gate list on domain `d` recomputes after a step (R217). -/
def State.gatesFollow (s : State) (d : Nat) : State :=
  s.each ((List.range 70).filter fun n => (s.gateList n).any fun g => g.domain == d) fun t n => t.gateRecompute n

/-- Gate `l` of port `n` is open, by the list (R215). -/
def State.gateOpen (s : State) (n l : Nat) : Bool := bit (s.get (GTE_STATUS_GATES n)) l

/-- GTE_HOLD holds lane `l` of port `n` closed (R219). -/
def State.heldLane (s : State) (n l : Nat) : Bool := bit (s.get (GTE_HOLD_LANES n)) l

end Sys2Proof.Machine
end

