-- ==== Sys2Proof/Machine/RecOps.lean ====
section
/-! DEFINITION. The DRAM recorder (R156–R163): pages, records, triggers and states. -/
namespace Sys2Proof.Machine

/-- The octet of DRAM at an address. What DRAM holds after it has lost its contents is a free value. -/
def State.dramByte (s : State) (a : Nat) : Byte := SMap.get s.dram.bytes (Config.dramPowerUp s.dram.epoch a) a

/-- `n` octets of DRAM. -/
def State.dramBytes (s : State) (a n : Nat) : List Byte := (List.range n).map fun i => s.dramByte (a + i)

/-- Writes octets to DRAM. -/
def State.dramRaw (s : State) : Nat → List Byte → State
  | _, [] => s
  | a, b :: t =>
    State.dramRaw { s with dram := { s.dram with bytes := SMap.put s.dram.bytes (Config.dramPowerUp s.dram.epoch a) a b } } (a + 1) t

/-- A write of the `n` octets of DRAM from `a` begins: their words have valid codes again, a table image or a sleep image that lies there is
lost (R164, R191, R467), and ECC_DRAM, when armed, breaks the first word: 1 bit or 2 (R164). -/
def State.dramTaken (s : State) (a n : Nat) : State :=
  let meets := fun b len : Nat => decide (a < b + len) && decide (b < a + n)
  let s1 := { s with dram := { s.dram with
    badWords := s.dram.badWords.filter fun e => !(decide (a / 64 ≤ e.1) && decide (e.1 * 64 < a + n))
    images := s.dram.images.filter fun e => !meets (e.1 / 4 * 2 ^ 21) (2 ^ 21)
    sleepImg := s.dram.sleepImg.filter fun i => !meets (i.1 * 2 ^ 21) (2 ^ 22) } }
  if s1.on (INJ_ARM_ARM 10) then
    (s1.injSpend 10) |> fun t => { t with dram := { t.dram with badWords := SMap.put t.dram.badWords 0 (a / 64) (s.get (INJ_ARM_BITS 10)) } }
  else s1

/-- A DRAM write with its injection point (R164). -/
def State.dramPut (s : State) (a : Nat) (l : List Byte) : State := if l.isEmpty then s else (s.dramTaken a l.length).dramRaw a l

/-- DRAM is in service (R164). -/
def State.dramReady (s : State) : Bool := s.up .dram && s.on REC_DRAM_STATUS_READY

/-- REC_STATUS.STATE: 0 OFF, 1 RECORDING, 2 POST, 3 FROZEN. -/
def State.recState (s : State) : Nat := s.get REC_STATUS_STATE

/-- The DRAM address of a recorder page (R156). -/
def State.pageAddr (s : State) (p : Nat) : Nat := s.get REC_BASE_BASE * 2 ^ 21 + p * 65536

/-- The region fits in the usable capacity (R156). -/
def State.regionFits (s : State) : Bool :=
  s.get REC_BASE_BASE * 2 * 16 + s.get REC_PAGES_PAGES ≤ s.get REC_DRAM_STATUS_USABLE_MIB * 16

/-- A page opens at REC_HEAD (R158); in a full region it overwrites the oldest page. -/
def State.openPage (s : State) : State :=
  let p := s.get REC_HEAD_PAGE
  let s1 := if s.dram.seq ≥ s.get REC_PAGES_PAGES then
    s.set REC_OLDEST_PAGE (if p + 1 ≥ s.get REC_PAGES_PAGES then 0 else p + 1) else s
  { s1 with dram := { s1.dram with open_ := true, records := 0, used := 64, openNs := s.domNs 0 } }

/-- The header of the open page (R160), without its CRC. -/
def State.pageHeader (s : State) (trigger last : Bool) : List Byte :=
  beBytes 4 0x46524543 ++ beBytes 4 ((s.dram.seq + 1) % 2 ^ 32) ++ beBytes 4 (s.get REC_HEAD_PAGE)
    ++ beBytes 2 ((if trigger then 1 else 0) + (if last then 2 else 0)) ++ beBytes 2 s.dram.records
    ++ beBytes 6 (s.dram.openNs / 10 ^ 9) ++ beBytes 2 0 ++ beBytes 4 (s.dram.openNs % 10 ^ 9)
    ++ beBytes 4 (s.dram.openNs % 2 ^ 32) ++ beBytes 4 s.dram.used ++ beBytes 4 s.dram.dropped ++ leBytes 20 0

/-- The CRC of the open page over its header and records (R160). -/
def State.pageCrc (s : State) (hdr : List Byte) : Nat :=
  crc32c (hdr ++ leBytes 4 0 ++ s.dramBytes (s.pageAddr (s.get REC_HEAD_PAGE) + 64) (s.dram.used - 64))

/-- The open page closes: its header and CRC are written, REC_HEAD and REC_OLDEST move on (R157, R158, R160). -/
def State.writePage (s : State) (trigger last : Bool) : State :=
  let p := s.get REC_HEAD_PAGE
  let hdr := s.pageHeader trigger last
  let s1 := s.dramPut (s.pageAddr p) (hdr ++ beBytes 4 (s.pageCrc hdr))
  let wrap := p + 1 ≥ s.get REC_PAGES_PAGES
  let s2 := s1.set REC_HEAD_PAGE (if wrap then 0 else p + 1)
  let again := s.dram.seq ≥ s.get REC_PAGES_PAGES
  let s3 := if p = 0 && again then s2.set REC_STATUS_WRAPPED 1 else s2
  let full := s.dram.seq + 1 ≥ s.get REC_PAGES_PAGES
  let s4 := if full then s3.set REC_OLDEST_PAGE (s3.get REC_HEAD_PAGE) else s3
  { s4 with dram := { s4.dram with open_ := false, records := 0, used := 64, dropped := 0, seq := s4.dram.seq + 1 } }

/-- Entry into FROZEN raises REC_FROZEN (R159). -/
def State.recFreeze (s : State) : State :=
  let s1 := s.set REC_STATUS_STATE 3
  s1.emit 0x0301 0 (args (s1.rd REC_STATUS).toNat (s1.get REC_TRIG_PAGE_PAGE))

/-- What a trigger stores: its time, its page and its source (R159). -/
def State.recTriggered (s : State) (src page : Nat) : State :=
  (((s.set REC_TRIG_SEC_SEC (s.domNs 0 / 10 ^ 9)).set REC_TRIG_NS_NS (s.domNs 0 % 10 ^ 9)).set REC_STATUS_TRIG_SRC src).set
    REC_TRIG_PAGE_PAGE page

/-- A page closes by itself (R157, R158): POST counts it, and the last page of a region that does not wrap freezes the
recorder. -/
def State.closePage (s : State) : State :=
  let p := s.get REC_HEAD_PAGE
  let lastOne := p + 1 ≥ s.get REC_PAGES_PAGES && !s.on REC_CTRL_WRAP
  if s.recState = 1 then
    (if lastOne then ((s.writePage true true).recTriggered 5 p).recFreeze else s.writePage false false)
  else if s.recState = 2 then
    let done := s.dram.post + 1 ≥ s.get REC_CTRL_POST_PAGES
    if lastOne || done then (s.writePage false true).recFreeze
    else
      let s1 := s.writePage false false
      { s1 with dram := { s1.dram with post := s1.dram.post + 1 } }
  else s

/-- A trigger other than the full trigger (R157, R159): RECORDING goes to POST with the trigger page closed, or to
FROZEN at once with POST_PAGES = 0. DESIGN CHOICE (log 78): a trigger whose page is the last page with WRAP = 0 freezes the recorder at
once too, and keeps its own source. -/
def State.recTrigger (s : State) (src : Nat) : State :=
  if s.recState ≠ 1 then s
  else
    let p := s.get REC_HEAD_PAGE
    let s1 := if s.dram.open_ then s else s.openPage
    let now := s.get REC_CTRL_POST_PAGES == 0
    let full := p + 1 ≥ s.get REC_PAGES_PAGES && !s.on REC_CTRL_WRAP
    let s2 := (s1.writePage true (now || full)).recTriggered src p
    let s3 := { s2 with dram := { s2.dram with post := 0 } }
    if now || full then s3.recFreeze else s3.set REC_STATUS_STATE 2

/-- The fault trigger: a GLB_FAULT bit has gone from 0 to 1 (R159). -/
def State.recFaultTrigger (s : State) : State :=
  if s.up .dram && s.on REC_CTRL_TRIG_FAULT then s.recTrigger 2 else s

/-- The Buoy trigger (R159). -/
def State.recBuoyTrigger (s : State) (b : Nat) : State :=
  if s.up .dram && s.on REC_CTRL_TRIG_BUOY && s.get REC_CTRL_BUOY == b then s.recTrigger 3 else s

/-- What a record says of a copy (R161): its octets and the stored length of its frame, among the rest. -/
structure RecCopy where
  bytes : List Byte
  stored : Nat
  port : Nat
  session : Nat
  stream : Option Nat
  reserved : Bool
  arrival : Nat
  cap : Nat
  trigger : Bool
  deriving DecidableEq, Repr

/-- A record of a copy (R161); the stored frame ends with its FCS, which the record includes. -/
def recImage (c : RecCopy) (written : Nat) : List Byte :=
  let flen := c.stored
  let clen := if c.cap = 0 then c.bytes.length else min c.cap c.bytes.length
  let rlen := (24 + clen + 7) / 8 * 8
  beBytes 2 rlen ++ beBytes 2 flen ++ beBytes 2 clen ++ beBytes 1 c.port ++ beBytes 1 c.session
    ++ beBytes 2 (match c.stream with | some k => k % 4096 + 2 ^ 15 | none => 0)
    ++ beBytes 2 ((if clen < flen then 1 else 0) + (if c.reserved then 2 else 0))
    ++ beBytes 4 c.arrival ++ beBytes 4 written ++ beBytes 4 0
    ++ c.bytes.take clen ++ leBytes (rlen - 24 - clen) 0

/-- Port 67 drops a copy (R157). -/
def State.recDrop (s : State) : State :=
  { s.inc REC_DROP_COUNT with dram := { s.dram with dropped := s.dram.dropped + 1 } }

/-- The record of a copy is written into the open page, a page opening or closing first as it needs (R158, R161); the
first record of a session with TRIGGER triggers the recorder (R159). With PD2 off ARRIVAL and WRITTEN are 0 (R463). -/
def State.recWrite (s : State) (c : RecCopy) : State :=
  let r := if s.pdOn 2 then recImage c (s.short 0) else recImage { c with arrival := 0 } 0
  let s1 := if s.dram.open_ && s.dram.used + r.length > 65536 then s.closePage else s
  if s1.recState ≠ 1 && s1.recState ≠ 2 then s1.recDrop
  else
    let s2 := if s1.dram.open_ then s1 else s1.openPage
    let s3 := s2.dramPut (s2.pageAddr (s2.get REC_HEAD_PAGE) + s2.dram.used) r
    let s4 := { s3.inc REC_RECORDS_COUNT with
                dram := { s3.dram with records := s3.dram.records + 1, used := s3.dram.used + r.length } }
    if c.trigger && !s4.dram.sessions.contains c.session then
      { s4 with dram := { s4.dram with sessions := s4.dram.sessions ++ [c.session] } }.recTrigger 4
    else s4

end Sys2Proof.Machine
end

