-- ==== Sys2Proof/Machine/TimeOps.lean ====
section
/-! DEFINITION. The Time island (chapter 8): the tick, steps, takeover, Catch, Buoy and the restore of R271. -/
namespace Sys2Proof.Machine

/-- Changes the Time unit. -/
def State.tset (s : State) (f : TimeUnit → TimeUnit) : State := { s with tim := f s.tim }

/-- TIM_DOM_STATUS.STATE (R265). -/
def State.domState (s : State) (d : Nat) : Nat := s.get (TIM_DOM_STATUS_STATE d)

/-- Domain `d` is enabled. -/
def State.domEn (s : State) (d : Nat) : Bool := s.on (TIM_DOM_CFG_EN d)

/-! ### Slew (R262) -/

/-- One nanosecond in the units of a slew. -/
def slewUnit : Int := 2 ^ 28 * 10 ^ 6

/-- Shows what remains of a slew. -/
def State.showSlew (s : State) (d : Nat) : State :=
  let left := SMap.get s.tim.slew 0 d
  (s.set (TIM_SLEW_LEFT_LEFT d) (wrapInt 32 (left.tdiv slewUnit))).put (TIM_DOM_STATUS_SLEW_BUSY d) (left != 0)

/-- Sets what remains of a slew, in slew units. -/
def State.setSlew (s : State) (d : Nat) (v : Int) : State :=
  (s.tset fun t => { t with slew := SMap.put t.slew 0 d v }).showSlew d

/-- A slew is discarded. -/
def State.dropSlew (s : State) (d : Nat) : State := s.setSlew d 0

/-! ### The tick (R259, R262) -/

/-- One tick of domain `d`: the increment and the slew's contribution; DEDUCED: what a contribution holds below
2^-28 ns is carried to the next tick. -/
def State.tickDomain (s : State) (d : Nat) : State :=
  if !s.domEn d then s
  else
    let left := SMap.get s.tim.slew 0 d
    let step : Int := 2 * s.get (TIM_DOM_CFG_SLEW_PPM d) * 2 ^ 28
    let use := if left > step then step else if left < -step then -step else left
    let acc := SMap.get s.tim.carry 0 d + use
    let whole := acc / 10 ^ 6
    let now := ((s.domTime d : Int) + (s.rd (TIM_INCR d)).toNat + whole).toNat
    let s1 := s.tset fun t => { t with now := SMap.put t.now 0 d now, carry := SMap.put t.carry 0 d (acc - whole * 10 ^ 6) }
    if left = 0 then s1 else s1.setSlew d (left - use)

/-- What one tick of 2 ns adds to the phase of AON's 32.768 kHz oscillator, in 1/(5 · 10^14) of a period (R514). -/
def aonPhase (rc : Bool) (tick : Nat) : Nat := (32768 * (10 ^ 6 + Config.aonPpm rc tick)).toNat

/-- One tick of 2 ns: the reference counts, AON's own oscillator counts (R27), and every enabled domain of a running Time island
advances. -/
def State.tick (s : State) : State :=
  let s1 := { s with refTicks := s.refTicks + 1,
                     pwr := { s.pwr with aon := s.pwr.aon + aonPhase s.pwr.xtalFailed s.refTicks } }
  if s1.up .time then
    ((s1.tset fun t => { t with place := [] }).each (List.range 4) fun t d => t.tickDomain d)
  else s1

/-! ### The order inside a tick (R270) -/

/-- An event of domain `d` takes its place `k` in the tick (R270). DESIGN CHOICE (log 7): when an event of a later place has come first,
that one was of the tick before, and the next tick begins. -/
def State.inPlace (s : State) (d k : Nat) : State :=
  (if SMap.get s.tim.place 0 d > k then s.tick else s).tset fun t => { t with place := SMap.put t.place 0 d k }

/-- A capture, stamp, Catch edge or gate boundary has seen the time of this tick, in any domain (R270). -/
def State.timeSeen (s : State) : State := s.tset fun t => { t with place := (List.range 4).map fun d => (d, 7) }

/-! ### Catch (R278–R281) -/

/-- START of Catch `c` in ns. -/
def State.catchStart (s : State) (c : Nat) : Nat := s.get (TIM_CATCH_START_SEC_SEC c) * 10 ^ 9 + s.get (TIM_CATCH_START_NS_NS c)

/-- E_k of Catch `c` (R278). -/
def State.catchEdgeAt (s : State) (c k : Nat) : Nat := s.catchStart c + k * s.get (TIM_CATCH_PERIOD_PERIOD c)

/-- The index of the first E_k at or after a time, if there is one. -/
def State.firstEdge (s : State) (c t : Nat) : Option Nat :=
  let p := s.get (TIM_CATCH_PERIOD_PERIOD c)
  if s.catchStart c ≥ t then some 0
  else if p = 0 then none
  else some ((t - s.catchStart c + p - 1) / p)

/-- The edge of index `k` of Catch `c` is due: compared in short time as R280 states. DEDUCED: an edge that lies 2^31 ns or more ahead,
which short time cannot tell from a past one, waits. -/
def State.catchDue (s : State) (c k : Nat) : Bool :=
  let d := s.get (TIM_CATCH_CFG_DOMAIN c)
  decide (shortDiff (s.short d) (s.catchEdgeAt c k % 2 ^ 32) ≥ 0) && decide (s.catchEdgeAt c k < s.domNs d + 2 ^ 31)

/-- The pin of Catch `c`: low with EN = 0, else its level (R279). -/
def State.catchPin (s : State) (c : Nat) : State :=
  let level := s.on (TIM_CATCH_CFG_EN c) && (s.on (TIM_CATCH_STATUS_ACTIVE c) != s.on (TIM_CATCH_CFG_INVERT c))
  { s with pins := { s.pins with catchHigh := setBits s.pins.catchHigh c 1 (if level then 1 else 0) } }

/-- A one-shot whose edge lies in the past (R280). -/
def State.catchMiss (s : State) (c : Nat) : State :=
  let s1 := (s.set (TIM_CATCH_STATUS_MISSED c) 1).set (TIM_CATCH_CFG_ARM c) 0
  (s1.tset fun t => { t with catchNext := SMap.erase t.catchNext c }).emit 0x0604 c 0

/-- The next edge of Catch `c` becomes the first at or after `t` (R280, R281). -/
def State.catchSeek (s : State) (c t : Nat) : State :=
  match s.firstEdge c t with
  | some k => s.tset fun u => { u with catchNext := SMap.insert u.catchNext c k }
  | none => s.catchMiss c

/-- Catch `c` follows a step of its domain (R281): skipped edges count, or a one-shot is missed. -/
def State.catchFollow (s : State) (c : Nat) : State :=
  match SMap.find s.tim.catchNext c with
  | none =>
    if s.on (TIM_CATCH_CFG_ARM c) && s.get (TIM_CATCH_PERIOD_PERIOD c) == 0
        && s.domNs (s.get (TIM_CATCH_CFG_DOMAIN c)) ≤ s.catchStart c then
      s.tset fun u => { u with catchNext := SMap.insert u.catchNext c 0 }
    else s
  | some k =>
    let now := s.domNs (s.get (TIM_CATCH_CFG_DOMAIN c))
    let s1 := s.catchSeek c now
    match SMap.find s1.tim.catchNext c with
    | some k2 => if k2 > k then s1.add (TIM_CATCH_SKIPPED_COUNT c) (k2 - k) else s1
    | none => s1

/-! ### Steps (R258, R263, R281, R217) -/

/-- Moves a domain's time by whole ns, with everything that follows a step in the same tick: STEP_SEQ, gates, Catch
outputs. A pending commit follows in `State.swapDue` (R50). -/
def State.stepBy (s : State) (d : Nat) (ns : Int) : State :=
  let now := ((s.domTime d : Int) + ns * 2 ^ 28).toNat
  let s1 := (s.tset fun t => { t with now := SMap.put t.now 0 d now }).incWrap (TIM_DOM_STATUS_STEP_SEQ d)
  (s1.gatesFollow d).each ((List.range 16).filter fun c => s1.on (TIM_CATCH_CFG_ARM c) && s1.get (TIM_CATCH_CFG_DOMAIN c) == d)
    fun t c => t.catchFollow c

/-- A step or slew is refused (R264). -/
def State.jumpRefused (s : State) (d : Nat) (v : Int) : State :=
  let w := wrapInt 64 v
  (((s.set (TIM_DOM_STATUS_JUMP_REFUSED d) 1).set (TIM_REFUSED_OFFSET_OFFSET d) w).inc (TIM_STEP_REFUSED_COUNT d)).emit 0x0600 d
    (args w (w / 2 ^ 32))

/-- A step or slew judged in SW state (R263, R264); TIME_JUMP refuses the next one judged (R289). -/
def State.jumpJudge (s : State) (d : Nat) (v : Int) : State × Bool :=
  if s.injArmedFor 18 d then ((s.injSpend 18).jumpRefused d v, false)
  else if s.on (TIM_DOM_STATUS_JUMP_REFUSED d) || v.natAbs > s.get (TIM_JUMP_LIMIT_LIMIT d) then (s.jumpRefused d v, false)
  else (s, true)

/-! ### Takeover and takeback (R266–R269) -/

/-- The servo forgets the pulses it has judged. -/
def State.noPulses (s : State) (d : Nat) : State :=
  s.tset fun t => { t with good := SMap.put t.good 0 d 0, lastGood := SMap.erase t.lastGood d }

/-- The servo takes a domain over with a cause (R267). -/
def State.takeover (s : State) (d cause : Nat) : State :=
  let s0 := s.inPlace d 4
  let s1 := (s0.wr (TIM_INCR d) (s0.rd (TIM_INCR_AVG d))).dropSlew d
  ((((s1.set (TIM_DOM_STATUS_STATE d) 3).set (TIM_DOM_STATUS_TAKE_CAUSE d) cause)).noPulses d).emit 0x0601 d (args cause)

/-- A reset of the Cox island takes over each domain that Cox steers (R267, cause 2). -/
def State.takeoverByReset (s : State) (d : Nat) : State :=
  if s.up .time && s.domEn d && s.domState d == 2 && s.get (TIM_DOM_CFG_OWNER d) == 0 then s.takeover d 2 else s

/-- TIME_WDOG: the watchdog of an armed domain in SW expires at once (R289). -/
def State.injTimeWdog (s : State) (d : Nat) : State :=
  if s.injArmedFor 17 d && s.up .time && s.domEn d && s.domState d == 2 then (s.injSpend 17).takeover d 1 else s

/-- Entry into SW: the average is TIM_INCR (R266); an armed TIME_WDOG then acts (R289, R410). -/
def State.enterSw (s : State) (d : Nat) : State :=
  ((s.set (TIM_DOM_STATUS_STATE d) 2).wr (TIM_INCR_AVG d) (s.rd (TIM_INCR d))).injTimeWdog d

/-! ### Enabling (R257) -/

/-- EN 0 → 1: counting from 0 in UNSET. -/
def State.domainStarts (s : State) (d : Nat) : State :=
  let s1 := s.tset fun t => { t with now := SMap.put t.now 0 d 0, carry := SMap.put t.carry 0 d 0 }
  (((s1.dropSlew d).set (TIM_DOM_STATUS_STATE d) 0).set (TIM_DOM_STATUS_JUMP_REFUSED d) 0).gatesFollow d

/-- EN 1 → 0: UNSET with time 0, the slew discarded, JUMP_REFUSED clear. -/
def State.domainStops (s : State) (d : Nat) : State := (s.noPulses d).domainStarts d

/-! ### Power (R271, R272) -/

/-- The 32.768 kHz periods that AON has counted (R271). -/
def State.aonCount (s : State) : Nat := s.pwr.aon / (5 * 10 ^ 14)

/-- At PD2 power-down AON keeps each domain that is not UNSET (R271). -/
def State.saveTime (s : State) : State :=
  let l := (List.range 4).filter fun d => s.domEn d && s.domState d != 0
  s.tset fun t => { t with saved := l.map fun d => (d, ⟨s.domTime d, (s.rd (TIM_INCR_AVG d)).toNat, s.aonCount⟩) }

/-- At PD2 power-up a kept domain restarts from the estimate in RESTORED, the others at 0 in UNSET (R271). -/
def State.restoreDomain (s : State) (d : Nat) : State :=
  match SMap.find s.tim.saved d with
  | some v =>
    let now := v.time + (s.aonCount - v.aon) * (10 ^ 9 * 2 ^ 13)
    ((s.tset fun t => { t with now := SMap.put t.now 0 d now }).wr (TIM_INCR d) (BitVec.ofNat 32 v.avg)).set (TIM_DOM_STATUS_STATE d) 1
  | none => s

/-- PD2 power-up. -/
def State.timePowerUp (s : State) : State :=
  let s1 := s.each (List.range 4) fun t d => t.restoreDomain d
  (s1.tset fun t => { t with saved := [] }).each (List.range 4) fun t d => t.gatesFollow d

/-! ### Stamps (R274, R275, R284) -/

/-- Time of domain `d` in quarter ns. -/
def State.quarters (s : State) (d : Nat) : Nat := s.domTime d / 2 ^ 26

/-- The stamp record of R274 for an instant `off` quarter ns from now (later when positive). -/
def State.stampRecord (s : State) (off : Int) (egress : Bool) (port tag : Nat) : List Byte :=
  let on := fun d => s.up .time && s.domEn d
  let q := fun d => if on d then ((s.quarters d : Int) + off).toNat else 0
  let four := List.range 4
  (four.flatMap fun d => leBytes 4 (q d / 4))
    ++ leBytes 1 (four.foldl (fun a d => a + q d % 4 * 4 ^ d) 0)
    ++ leBytes 1 (four.foldl (fun a d => a + (if on d then 2 ^ d else 0)) 0 + (if egress then 16 else 0))
    ++ leBytes 1 port
    ++ leBytes 1 (four.foldl (fun a d => a + (if on d then s.get (TIM_DOM_STATUS_STEP_SEQ d) else 0) * 4 ^ d) 0)
    ++ leBytes 2 tag ++ leBytes 2 0

/-! ### Buoy (R282) -/

/-- The image of a capture: TIM_BUOY_HEAD_NS, FRAC and seconds. -/
def Capture.image (c : Capture) : Nat × Nat × Nat :=
  let ns := c.quarters / 4
  (2 ^ 31 + (if c.rising then 2 ^ 30 else 0) + ns % 10 ^ 9, c.quarters % 4 * 0x4000, ns / 10 ^ 9)

/-- Shows the head and level of a Buoy's FIFO. -/
def State.showBuoy (s : State) (b : Nat) : State :=
  let q := SMap.get s.tim.buoyFifo [] b
  let h := match q with
    | [] => (0, 0, 0)
    | c :: _ => c.image
  (((s.set (TIM_BUOY_STATUS_LEVEL b) q.length).wr (TIM_BUOY_HEAD_NS b) (BitVec.ofNat 32 h.1)).set (TIM_BUOY_HEAD_FRAC_FRAC b) h.2.1).set
    (TIM_BUOY_HEAD_SEC_SEC b) h.2.2

/-- A capture enters the FIFO of Buoy `b`, or is lost when it is full (R282). -/
def State.buoyPush (s : State) (b : Nat) (c : Capture) : State :=
  let q := SMap.get s.tim.buoyFifo [] b
  if q.length ≥ 8 then
    let s1 := s.inc (TIM_BUOY_LOST_COUNT b)
    if s1.on (TIM_BUOY_STATUS_OVERFLOW b) then s1 else (s1.set (TIM_BUOY_STATUS_OVERFLOW b) 1).emit 0x0606 b 0
  else
    let s1 := (s.tset fun t => { t with buoyFifo := SMap.put t.buoyFifo [] b (q ++ [c]) }).showBuoy b
    let i := c.image
    if s1.on (TIM_BUOY_CFG_EVT_EN b) then s1.emit 0x0605 b (args i.1 i.2.1 i.2.2 (i.2.2 / 2 ^ 32)) else s1

/-- 10^9 / n in 4.28, within the range of R259 (R268). -/
def servoIncr (n : Nat) : Nat := min (max (10 ^ 9 * 2 ^ 28 / n) 0x1FFBE76D) 0x20041893

/-- A capture on the lock Buoy of domain `d` is judged (R268): a reject clears the count of good pulses, and the distance of the next
one is still that from the previous good pulse. DEDUCED: the distance is judged only when a good pulse came less than 3 s before. -/
def State.servoJudge (s : State) (d : Nat) (c : Capture) : State :=
  let ns : Nat := c.quarters / 4 % 10 ^ 9
  let e : Int := if ns < 500000000 then (ns : Int) else (ns : Int) - 10 ^ 9
  let n := ((SMap.find s.tim.lastGood d).map fun t => s.refTicks - t).filter fun k => decide (k < 1500000000)
  let off := match n with
    | some k => k * 2 < 10 ^ 9 - 100000 || k * 2 > 10 ^ 9 + 100000
    | none => false
  if e.natAbs > s.get (TIM_JUMP_LIMIT_LIMIT d) || off then 
    (s.inc (TIM_LOCK_REJECT_COUNT d)).tset fun t => { t with good := SMap.put t.good 0 d 0 }
  else
    let good := SMap.get s.tim.good 0 d + 1
    let s1 := s.tset fun t => { t with good := SMap.put t.good 0 d good, lastGood := SMap.insert t.lastGood d s.refTicks }
    match n with
    | some k =>
      if good ≥ 2 then
        let s2 := (s1.wr (TIM_INCR d) (BitVec.ofNat 32 (servoIncr k))).setSlew d (-e * slewUnit)
        (s2.set (TIM_DOM_STATUS_STATE d) 4).set (TIM_LOCK_ERR_ERR d) (wrapInt 32 e)
      else s1
    | none => s1

/-- The domains whose servo locks to rising captures of Buoy `b` (R268). -/
def State.lockers (s : State) (b : Nat) : List Nat :=
  (List.range 4).filter fun d => s.domEn d && (s.domState d == 3 || s.domState d == 4) && s.on (TIM_SERVO_CFG_LOCK_EN d)
    && s.get (TIM_SERVO_CFG_LOCK_BUOY d) == b && s.get (TIM_BUOY_CFG_DOMAIN b) == d && s.get (TIM_BUOY_CFG_EDGE b) % 2 == 1

end Sys2Proof.Machine
end

