-- ==== Sys2Proof/Machine/UmpOps.lean ====
section
/-! DEFINITION. The Umpire (chapter 5): parser, key, patterns, TCAM, zones and pinholes. -/
namespace Sys2Proof.Machine

/-! ### Parser (R167–R172) -/

/-- What the parser finds in a frame. `start` is where the payload window begins, `vlanOff` how many octets the tags
take. -/
structure Parsed where
  tags : Nat := 0
  outer : Nat := 0
  inner : Nat := 0
  rtag : Bool := false
  seq : Nat := 0
  etype : Nat := 0
  pkt : Nat := 0
  after : Nat := 0
  start : Nat := 0
  frag : Bool := false
  fragFirst : Bool := false
  odd : Bool := false
  deep : Bool := false
  tunnel : Bool := false
  ipOpt : Bool := false
  proto : Nat := 0
  tos : Nat := 0
  sip : Nat := 0
  dip : Nat := 0
  l4src : Nat := 0
  l4dst : Nat := 0
  tcp : Nat := 0
  ttl : Nat := 0
  streamId : Nat := 0
  deriving DecidableEq, Repr

/-- A TPID of a VLAN tag (R129, R167). -/
def isTpid (t : Nat) : Bool := t == 0x8100 || t == 0x88A8

/-- The packet type of an EtherType (R168): the fixed codes win over the configured HFP EtherType. -/
def pktType (etype hfp : Nat) (secured : Bool) : Nat :=
  if etype = 0x0800 then 1
  else if etype = 0x86DD then 2
  else if etype = 0x0806 then 3
  else if etype = 0x88F7 then 4
  else if etype = 0x22F0 then 5
  else if etype = 0x88CC then 7
  else if etype = 0x88E5 then (if secured then 0 else 8)
  else if etype = 0x888E then 9
  else if etype = hfp then 6
  else 0

/-- Layer 2: tags, R-TAG, EtherType (R167). -/
def parseL2 (b : List Byte) (hfp : Nat) (secured : Bool) : Parsed :=
  let t1 := isTpid (beAt b 12 2)
  let t2 := t1 && isTpid (beAt b 16 2)
  let n := (if t1 then 1 else 0) + (if t2 then 1 else 0)
  let o := 12 + 4 * n
  let r := beAt b o 2 == 0xF1C1
  let o2 := if r then o + 6 else o
  let et := beAt b o2 2
  { tags := n, outer := if t1 then beAt b 14 2 else 0, inner := if t2 then beAt b 18 2 else 0, rtag := r,
    seq := if r then beAt b (o + 4) 2 else 0, etype := et, pkt := pktType et hfp secured, after := o2 + 2, start := o2 + 2,
    odd := n == 2 && isTpid et }

/-- The one's-complement sum of 16-bit words of a header. -/
def ipSum (b : List Byte) (o n : Nat) : Nat :=
  let t := (List.range (n / 2)).foldl (fun a i => a + beAt b (o + 2 * i) 2) 0
  let u := t / 65536 + t % 65536
  u / 65536 + u % 65536

/-- A protocol that carries another IP packet or GRE (R170). -/
def tunnelProto (p : Nat) : Bool := p == 4 || p == 41 || p == 47

/-- Layer 4 at offset `o` (R169, R170). `whole` says that the frame has been received to its end, so that a header
cut short or a length beyond the frame shows. DESIGN CHOICE (log 119): a header that is both beyond octet 256 and cut short
is DEEP alone, and the end of the frame, not an IP length, decides what is cut short. -/
def parseL4 (b : List Byte) (whole : Bool) (p : Parsed) (o : Nat) : Parsed :=
  let need := if p.proto = 6 then 20 else if p.proto = 17 then 8 else if p.proto = 132 then 12
    else if p.proto = 1 ∨ p.proto = 58 then 4 else 0
  let q := { p with start := o, tunnel := tunnelProto p.proto }
  let doff := beAt b (o + 12) 1 / 16
  if p.frag || need = 0 then q
  else if o + need > 256 then { q with deep := true }
  else if whole && o + need > b.length then { q with odd := true }
  else if p.proto = 6 ∧ doff ≥ 5 ∧ o + doff * 4 > 256 then { q with deep := true }
  else if p.proto = 6 ∧ (doff < 5 ∨ (whole ∧ o + doff * 4 > b.length)) then { q with odd := true }
  else if p.proto = 17 ∧ whole ∧ o + beAt b (o + 4) 2 > b.length then { q with odd := true }
  else if p.proto = 1 ∨ p.proto = 58 then { q with l4src := beAt b o 2 }
  else
    let d := beAt b (o + 2) 2
    { q with l4src := beAt b o 2, l4dst := d, tcp := if p.proto = 6 then beAt b (o + 13) 1 else 0,
             tunnel := q.tunnel || (p.proto == 17 && (d == 4789 || d == 6081)) }

/-- IPv4 at the end of layer 2 (R169, R170). -/
def parseV4 (b : List Byte) (whole : Bool) (p : Parsed) : Parsed :=
  let o := p.after
  let ihl := beAt b o 1 % 16
  let bad := beAt b o 1 / 16 ≠ 4 ∨ ihl < 5 ∨ ipSum b o (4 * ihl) ≠ 0xFFFF ∨ (whole ∧ o + 4 * ihl > b.length)
    ∨ (whole ∧ o + beAt b (o + 2) 2 > b.length)
  if bad then { p with odd := true }
  else
    let fo := beAt b (o + 6) 2
    let frag := bit fo 13 || fo % 8192 ≠ 0
    let q := { p with tos := beAt b (o + 1) 1, ttl := beAt b (o + 8) 1, proto := beAt b (o + 9) 1, sip := beAt b (o + 12) 4,
                      dip := beAt b (o + 16) 4, ipOpt := ihl > 5, frag := frag, fragFirst := frag && fo % 8192 == 0 }
    parseL4 b whole q (o + 4 * ihl)

/-- The extension headers of IPv6 (R169): at most four followed, then Fragment, ESP, AH or layer 4. -/
def parseExt (b : List Byte) (whole : Bool) : Nat → Parsed → Nat → Nat → Parsed
  | fuel, p, nh, o =>
    if nh = 44 then
      let fo := beAt b (o + 2) 2 / 8
      { p with proto := beAt b o 1, frag := true, fragFirst := fo == 0, ipOpt := true, start := o + 8, tunnel := tunnelProto (beAt b o 1) }
    else if nh = 50 ∨ nh = 51 then { p with proto := nh, start := o }
    else if nh = 0 ∨ nh = 43 ∨ nh = 60 then
      match fuel with
      | 0 => { p with proto := nh, deep := true, ipOpt := true, start := o }
      | f + 1 =>
        let e := o + 8 * (beAt b (o + 1) 1 + 1)
        if e > 256 then { p with proto := nh, deep := true, ipOpt := true, start := o }
        else if whole && e > b.length then { p with odd := true, ipOpt := true, start := o }
        else parseExt b whole f { p with ipOpt := true } (beAt b o 1) e
    else parseL4 b whole { p with proto := nh } o

/-- IPv6 at the end of layer 2 (R169, R170). DESIGN CHOICE (log 119): a version other than 6 is ODD, as R170 has it for IPv4. -/
def parseV6 (b : List Byte) (whole : Bool) (p : Parsed) : Parsed :=
  let o := p.after
  if beAt b o 1 / 16 ≠ 6 ∨ (whole ∧ o + 40 > b.length) ∨ (whole ∧ o + 40 + beAt b (o + 4) 2 > b.length) then { p with odd := true }
  else
    let q := { p with tos := beAt b o 2 / 16 % 256, ttl := beAt b (o + 7) 1, sip := beAt b (o + 8) 16, dip := beAt b (o + 24) 16 }
    parseExt b whole 4 q (beAt b (o + 6) 1) (o + 40)

/-- The parse of a frame (R167–R170). -/
def parseFrame (b : List Byte) (hfp : Nat) (secured whole : Bool) : Parsed :=
  let p := parseL2 b hfp secured
  if p.odd then p
  else if p.pkt = 1 then parseV4 b whole p
  else if p.pkt = 2 then parseV6 b whole p
  else if p.pkt = 3 then { p with sip := beAt b (p.after + 14) 4, dip := beAt b (p.after + 24) 4 }
  else if p.pkt = 5 && beAt b (p.after + 1) 1 / 128 == 1 then { p with streamId := beAt b (p.after + 4) 8 }
  else p

/-- The 80 octets of the key (R171). -/
def keyBytes (b : List Byte) (p : Parsed) (port zone : Nat) (phHit secured : Bool) (pgroup : Nat) : List Byte :=
  let da := beAt b 0 6
  let flag := fun (c : Bool) (i : Nat) => if c then 2 ^ i else 0
  let flags := flag (p.tags ≥ 1) 0 + flag (p.tags ≥ 2) 1 + flag p.frag 2 + flag p.fragFirst 3 + flag p.odd 4 + flag p.deep 5
    + flag p.tunnel 6 + flag p.ipOpt 7 + flag (bit da 40) 8 + flag (da == 2 ^ 48 - 1) 9 + flag phHit 10 + flag p.rtag 11
    + flag secured 12
  let ip := p.pkt == 1 || p.pkt == 2 || p.odd
  beBytes 1 port ++ beBytes 1 (p.pkt * 16 + zone) ++ beBytes 2 flags ++ beBytes 6 da ++ beBytes 6 (beAt b 6 6)
    ++ beBytes 2 p.outer ++ beBytes 2 p.inner ++ beBytes 2 p.etype ++ beBytes 1 p.proto ++ beBytes 1 p.tos
    ++ beBytes 16 p.sip ++ beBytes 16 p.dip ++ beBytes 2 p.l4src ++ beBytes 2 p.l4dst ++ beBytes 1 p.tcp ++ beBytes 1 p.ttl
    ++ beBytes 1 (if ip then 0 else beAt b p.after 1) ++ beBytes 1 (if ip then 0 else beAt b (p.after + 1) 1)
    ++ beBytes 8 p.streamId ++ beBytes 8 pgroup

/-! ### Patterns and TCAM (R174–R178) -/

/-- A pattern entry matches a window (R174). -/
def patMatches (win : List Byte) (e : Nat) : Bool :=
  let len := ebits e 64 0 8
  let anchor := ebits e 66 0 2
  let off := ebits e 68 0 16
  (List.range (win.length + 1 - len)).any fun o =>
    (anchor == 0 || (anchor == 1 && o == off) || (anchor == 2 && off ≤ o && o ≤ off + ebits e 70 0 16))
    && o + len ≤ win.length
    && (((leAt win o len ^^^ ebits e 0 0 (8 * len)) &&& ebits e 32 0 (8 * len)) == 0)

/-- The patterns that match a window, with their groups. -/
def patHits (b : SMap Nat) (win : List Byte) : List (Nat × Nat) :=
  (listed b 4).filterMap fun e => if ebit e.2 65 7 && patMatches win e.2 then some (e.1, ebits e.2 65 0 6) else none

/-- A TCAM entry matches a key (R176). -/
def tcamMatches (key e : Nat) : Bool := ((key ^^^ ebits e 0 0 640) &&& ebits e 80 0 640) == 0

/-- The winning entry of a lookup (R176). -/
def tcamWinner (b : SMap Nat) (key : Nat) : Option (Nat × Nat) :=
  (listed b 3).find? fun e => ebit e.2 160 0 && tcamMatches key e.2

/-! ### Zones (R179–R182) -/

/-- The zone of a port in a bank (R180). -/
def zoneOf (b : SMap Nat) (n : Nat) : Nat := ebits (bankGet b 5 (256 + n)) 0 0 4

/-- The policy of a pair of zones: 0 DENY, 1 RULE, 2 ALLOW. -/
def policyOf (b : SMap Nat) (z d : Nat) : Nat := ebits (bankGet b 5 (16 * z + d)) 0 0 2

/-- The zone fold (R179). -/
def zoneFold (b : SMap Nat) (zone opened : Nat) (ret : Option Nat) : Nat :=
  maskOf ((List.range 16).filter fun d =>
    let p := policyOf b zone d
    p == 2 || (p == 1 && (bit opened d || ret == some d)))

/-! ### Pinholes (R183–R187) -/

/-- Changes the Umpire unit. -/
def State.uset (s : State) (f : UmpUnit → UmpUnit) : State := { s with ump := f s.ump }

/-- The bucket of a tuple (R184). -/
def phBucket (v sip dip proto sport dport : Nat) : Nat :=
  crc32c (beBytes 1 v ++ beBytes 16 sip ++ beBytes 16 dip ++ beBytes 1 proto ++ beBytes 2 sport ++ beBytes 2 dport) % 4096

/-- The place of a stored tuple, if it is held. -/
def State.phFind (s : State) (v sip dip proto sport dport : Nat) : Option (Nat × Pinhole) :=
  let k := phBucket v sip dip proto sport dport
  ((List.range 4).filterMap fun w => (SMap.find s.ump.pinholes (4 * k + w)).map fun p => (4 * k + w, p)).find? fun e =>
    e.2.v == v && e.2.sip == sip && e.2.dip == dip && e.2.proto == proto && e.2.sport == sport && e.2.dport == dport

/-- Stores or drops pinholes, and shows their number. -/
def State.phStore (s : State) (m : SMap Pinhole) : State :=
  (s.uset fun u => { u with pinholes := m }).set UMP_PH_STATUS_USED m.length

/-- IP version of a packet type. -/
def ipv (pkt : Nat) : Nat := if pkt = 1 then 4 else 6

/-- A frame whose tuple can be a pinhole's: TCP or UDP, not FRAG, ODD or DEEP. -/
def phKind (p : Parsed) : Bool :=
  (p.pkt == 1 || p.pkt == 2) && (p.proto == 6 || p.proto == 17) && !p.frag && !p.odd && !p.deep

/-- FIN or RST is set in a TCP frame. -/
def finRst (p : Parsed) : Bool := p.proto == 6 && (bit p.tcp 0 || bit p.tcp 2)

/-- The pinhole lookup of a frame (R184, R185): a hit refreshes the entry and counts. -/
def State.phLookup (s : State) (p : Parsed) (zone : Nat) : State × Option Nat :=
  if !phKind p then (s, none)
  else match s.phFind (ipv p.pkt) p.sip p.dip p.proto p.l4src p.l4dst with
    | some (k, e) =>
      if bit e.from_ zone then
        let e2 := { e with last := s.ump.second, closing := e.closing || finRst p }
        ((s.phStore (SMap.insert s.ump.pinholes k e2)).inc UMP_PH_HIT_COUNT, some e.retZone)
      else (s, none)
    | none => (s, none)

/-- A winning entry learns or refreshes the reverse tuple (R183, R185). -/
def State.phLearn (s : State) (p : Parsed) (zone opened profile : Nat) : State :=
  let v := ipv p.pkt
  let syn := p.proto == 6 && bit p.tcp 1 && !bit p.tcp 4
  match s.phFind v p.dip p.sip p.proto p.l4dst p.l4src with
  | some (k, e) =>
    s.phStore (SMap.insert s.ump.pinholes k
      { e with retZone := zone, from_ := opened, profile := profile, last := s.ump.second,
               closing := (if syn then false else e.closing) || finRst p })
  | none =>
    let k := phBucket v p.dip p.sip p.proto p.l4dst p.l4src
    match (List.range 4).find? fun w => (SMap.find s.ump.pinholes (4 * k + w)).isNone with
    | some w =>
      (s.phStore (SMap.insert s.ump.pinholes (4 * k + w)
        { v := v, sip := p.dip, dip := p.sip, proto := p.proto, sport := p.l4dst, dport := p.l4src, retZone := zone,
          from_ := opened, profile := profile, closing := finRst p, last := s.ump.second })).inc UMP_PH_LEARN_COUNT
    | none => s.inc UMP_PH_FULL_COUNT

/-! ### Parity (R192) -/

/-- A failing TCAM entry is rewritten, counted and reported. -/
def State.tcamRewrite (s : State) (i : Nat) : State :=
  ((s.uset fun u => { u with tcamBad := u.tcamBad.filter (· ≠ i) }).inc UMP_TCAM_PAR_COUNT).emit 0x0401 0 (args 0 i)

/-- A failing pattern entry is rewritten, counted and reported. -/
def State.patRewrite (s : State) (i : Nat) : State :=
  ((s.uset fun u => { u with patBad := u.patBad.filter (· ≠ i) }).inc UMP_TCAM_PAR_COUNT).emit 0x0401 0 (args 1 i)

/-- An injection point inverts the stored parity bit of an entry (R192): `k` 0 TCAM, 1 pattern. -/
def State.umpParityFlip (s : State) (k t : Nat) : State :=
  s.uset fun u =>
    if k = 0 then { u with tcamBad := if u.tcamBad.contains t then u.tcamBad.filter (· ≠ t) else u.tcamBad ++ [t] }
    else { u with patBad := if u.patBad.contains t then u.patBad.filter (· ≠ t) else u.patBad ++ [t] }

/-! ### Classification (R166) -/

/-- The trap that takes a packet type, and whether it is enabled (R173). -/
def State.trapOf (s : State) (pkt : Nat) : Option Nat :=
  if pkt = 4 && s.on UMP_TRAP_GPTP then some 0
  else if pkt = 9 && s.on UMP_TRAP_EAPOL then some 1
  else if pkt = 7 && s.on UMP_TRAP_LLDP then some 2
  else if pkt = 6 && s.on UMP_TRAP_HFP then some 3
  else none

/-- A frame is dropped with a cause (R193). -/
def State.umpDrop (s : State) (cause zone : Nat) : State × UDesc :=
  (s.inc (UMP_DROP_COUNT cause), { outcome := if cause = 0 then 1 else 3, zone := zone })

/-- The octets of a counted frame: now when the frame is whole, else at its end (UMP_CNT_OCT). -/
def State.countOctets (s : State) (k len : Nat) (whole : Bool) : State × Option Nat :=
  if whole then (s.add (UMP_CNT_OCT_COUNT k) len, none) else (s, some k)

/-- Steps 6–9 of R166 on the key of a frame. -/
def State.judge (s : State) (b : List Byte) (p : Parsed) (epoch zone key : Nat) (ret : Option Nat) (whole : Bool) :
    State × UDesc :=
  let bank := s.bankOf epoch
  match tcamWinner bank key with
  | none =>
    let s1 := s.inc UMP_MISS_COUNT
    if s.on UMP_CFG_MISS_DROP then s1.umpDrop 1 zone
    else (s1, { outcome := 0, permit := zoneFold bank zone 0 ret, zone := zone })
  | some (i, e) =>
    if s.ump.tcamBad.contains i then (s.tcamRewrite i).umpDrop 6 zone
    else
      let act := ebits e 160 1 2
      let opened := ebits e 164 0 16
      let permit := zoneFold bank zone opened ret
      let s1 := s.inc (UMP_HIT_COUNT i)
      let k := ebits e 168 0 8
      let c := if ebit e 160 3 then (s1.inc (UMP_CNT_FRM_COUNT k)).countOctets k (b.length + 4) whole else (s1, none)
      let mirror := if ebit e 160 4 then some (ebits e 162 0 6) else none
      let hint := if ebit e 160 5 then some (ebits e 166 0 12) else none
      let d : UDesc := { outcome := act, target := ebits e 161 0 8, permit := permit, mirror := mirror, hint := hint,
                         zone := zone, octets := c.2 }
      if act = 1 then (c.1.inc (UMP_DROP_COUNT 0), d)
      else if act = 2 then
        let tz := zoneOf bank d.target
        if bit permit tz then (c.1, d)
        else
          let r := (c.1.inc (UMP_ZONE_DENY_COUNT (16 * zone + tz))).umpDrop 5 zone
          (r.1, { r.2 with octets := c.2 })
      else if ebit e 160 6 && s.on UMP_CFG_PH_EN && phKind p then (c.1.phLearn p zone opened (ebits e 163 0 2), d)
      else (c.1, d)

/-- The classification of a frame (R166): its effects on the Umpire, and its descriptor. -/
def State.classify (s : State) (b : List Byte) (port epoch : Nat) (secured whole : Bool) : State × UDesc :=
  let bank := s.bankOf epoch
  let zone := zoneOf bank port
  if !s.on UMP_STATUS_READY then s.umpDrop 7 zone
  else
    let p := parseFrame b (s.get HFP_ETYPE_ETYPE) secured whole
    let da := beAt b 0 6
    match (if port < 64 then s.trapOf p.pkt else none) with
    | some t => (s.inc (UMP_TRAP_CNT_COUNT t), { outcome := 2, target := if t = 3 then 69 else 65, trap := some t, zone := zone })
    | none =>
      if port < 64 && s.on UMP_CFG_LL_DROP && da / 16 == 0x0180C200000 then s.umpDrop 4 zone
      else if p.odd && s.on UMP_CFG_ODD_DROP then s.umpDrop 2 zone
      else if p.frag && s.on UMP_CFG_FRAG_DROP then s.umpDrop 3 zone
      else
        let ph := s.phLookup p zone
        let win := (b.drop p.start).take 512
        let hits := if s.on UMP_CFG_PAT_EN && !p.frag && !p.odd && !p.deep then patHits bank win else []
        let s1 := ph.1.each hits fun t h => t.inc (UMP_PAT_HIT_COUNT h.1)
        let key := leNat (keyBytes b p port zone ph.2.isSome secured (maskOf (hits.map (·.2)).eraseDups))
        s1.judge b p epoch zone key ph.2 whole

end Sys2Proof.Machine
end

