-- ==== Sys2Proof/Machine/FdbOps.lean ====
section
/-! DEFINITION. The forwarding database (R134–R144): static entries and their places, learned entries, lookup, learning,
flush and ageing. -/
namespace Sys2Proof.Machine

/-- Changes the Fabric unit. -/
def State.fset (s : State) (f : Fabric → Fabric) : State := { s with fab := f s.fab }

/-- The bucket of a key (R134): the FID as two octets, then the MAC octets in wire order. -/
def fdbBucket (fid mac : Nat) : Nat := crc32c (beBytes 2 fid ++ beBytes 6 mac) % 16384

/-- A static entry of class 0 as the lookup uses it: index, FID, MAC, DEST, DROP and PIN (R135). -/
structure Static where
  index : Nat
  fid : Nat
  mac : Nat
  dest : Nat
  drop : Bool
  pin : Bool
  deriving DecidableEq, Repr

/-- The valid static entries of a bank that act, in index order: of two with one key the lower index (R135). -/
def statics (b : SMap Nat) : List Static :=
  (listed b 0).foldl (fun l e =>
    let t : Static := { index := e.1, fid := ebits e.2 6 0 12, mac := beNat (leBytes 6 (ebits e.2 0 0 48)),
                        dest := ebits e.2 8 0 70, drop := ebit e.2 24 1, pin := ebit e.2 24 2 }
    if ebit e.2 24 0 && !(l.any fun u => u.fid == t.fid && u.mac == t.mac) then l ++ [t] else l) []

/-- The static entry of a key in a bank. -/
def staticOf (b : SMap Nat) (fid mac : Nat) : Option Static := (statics b).find? fun t => t.fid == fid && t.mac == mac

/-- The places of static entries (R136): `4 · bucket + way` for the first four of a bucket, `65536 + k` in the CAM for
the others, in index order. -/
def placeStatics (l : List Static) : List (Nat × Static) :=
  (l.foldl (fun (r : List (Nat × Static) × Nat) t =>
    let k := fdbBucket t.fid t.mac
    let used := (r.1.filter fun e => e.1 < 65536 && e.1 / 4 == k).length
    if used < 4 then (r.1 ++ [(4 * k + used, t)], r.2) else (r.1 ++ [(65536 + r.2, t)], r.2 + 1)) ([], 0)).1

/-- The CAM entries that the static entries of a bank need (R136). -/
def camNeed (b : SMap Nat) : Nat := ((placeStatics (statics b)).filter fun e => e.1 ≥ 65536).length

/-- The learned entry of a key and its place. -/
def State.learnedOf (s : State) (fid mac : Nat) : Option (Nat × Learned) :=
  s.fab.learned.find? fun e => e.2.fid == fid && e.2.mac == mac

/-- Learned entries on a port. -/
def State.learnedOn (s : State) (n : Nat) : Nat := (s.fab.learned.filter fun e => e.2.port == n).length

/-- Shows the occupancy in FWD_FDB_STATUS and FWD_PORT_LEARNED. -/
def State.showFdb (s : State) : State :=
  let cam := camNeed s.fab.active + (s.fab.learned.filter fun e => e.1 ≥ 65536).length
  let s1 := (s.set FWD_FDB_STATUS_LEARNED s.fab.learned.length).set FWD_FDB_STATUS_CAM_USED cam
  s1.each (List.range 70) fun t n => t.set (FWD_PORT_LEARNED_COUNT n) (s.learnedOn n)

/-- Replaces the learned entries. -/
def State.setLearned (s : State) (m : SMap Learned) : State := (s.fset fun f => { f with learned := m }).showFdb

/-- Removes the learned entries of a port (all ports: `none`), of one FID or of all (R142, R143). -/
def State.flushLearned (s : State) (port fid : Option Nat) : State :=
  s.setLearned (s.fab.learned.filter fun e => !((port.all (· == e.2.port)) && (fid.all (· == e.2.fid))))

/-- The lowest free way of a bucket, else the lowest free CAM entry (R140). -/
def State.freePlace (s : State) (k : Nat) : Option Nat :=
  let st := (placeStatics (statics s.fab.active)).map (·.1)
  let free := fun p => !st.contains p && (SMap.find s.fab.learned p).isNone
  ((List.range 4).map (4 * k + ·) ++ (List.range 256).map (65536 + ·)).find? free

/-- A source address is learned or refreshed (R140). -/
def State.learn (s : State) (port fid mac : Nat) : State :=
  match staticOf s.fab.active fid mac with
  | some _ => s
  | none =>
    match s.learnedOf fid mac with
    | some (p, e) =>
      if e.port = port then s.setLearned (SMap.insert s.fab.learned p { e with hit := true })
      else (s.setLearned (SMap.insert s.fab.learned p { e with port := port, hit := true })).inc FWD_STATION_MOVE_COUNT
    | none =>
      let lim := s.get (FWD_PORT_CFG_LEARN_LIMIT port)
      if lim ≠ 0 ∧ s.learnedOn port ≥ lim then s.inc FWD_LEARN_LIMIT_COUNT
      else match s.freePlace (fdbBucket fid mac) with
        | some p => s.setLearned (SMap.insert s.fab.learned p ⟨fid, mac, port, true⟩)
        | none => s.inc FWD_LEARN_FULL_COUNT

/-- The ageing sweep (R141). -/
def State.ageSweep (s : State) : State :=
  s.setLearned ((s.fab.learned.filter fun e => e.2.hit).map fun e => (e.1, { e.2 with hit := false }))

/-- At a swap of class 0, a learned entry whose key or place a static entry takes is removed (R41, R136). -/
def State.fdbSwapped (s : State) : State :=
  let st := placeStatics (statics s.fab.active)
  s.setLearned (s.fab.learned.filter fun e =>
    !(st.any fun p => p.1 == e.1 || (p.2.fid == e.2.fid && p.2.mac == e.2.mac)))

end Sys2Proof.Machine
end

