-- ==== Sys2Proof/Machine/Macsec.lean ====
section
/-! DEFINITION. MACsec on ports 0–31 (R428–R433, R437), and the key slots it reads. -/
namespace Sys2Proof.Machine

/-- Changes the Key unit. -/
def State.kset (s : State) (f : KeyUnit → KeyUnit) : State := { s with key := f s.key }

/-- Slot `i` as the active or staged bank, or RRAM, holds it (R415). -/
def State.slotIn (s : State) (b : SMap Nat) (i : Nat) : Nat := if i < 8 then SMap.get s.key.slots 0 i else bankGet b 15 i

/-- A slot holds a key. -/
def slotValid (e : Nat) : Bool := ebit e 0 0

/-- Octets of a key by TYPE (R416). -/
def keyLen (ty : Nat) : Nat := if ty = 0 then 32 else if ty = 1 then 64 else 66

/-- The key octets of a slot. -/
def slotKey (e : Nat) : List Byte := leBytes (keyLen (ebits e 2 0 8)) (ebits e 16 0 640)

/-- A port entry of class 15 (R429), with bits TX_EN, RX_EN, CONF, BYPASS_GPTP. -/
def State.macPort (s : State) (n : Nat) : Nat := s.tab 15 (512 + n)

/-- The active port entry protects what port `n` sends. -/
def State.txSecure (s : State) (n : Nat) : Bool := n < 32 && ebit (s.macPort n) 0 0

/-- The port entry of an epoch validates what port `n` receives (R430). -/
def State.rxSecure (s : State) (epoch n : Nat) : Bool := n < 32 && ebit (s.tabAt epoch 15 (512 + n)) 0 1

/-- The SA entry `a` of the active bank. -/
def State.saEntry (s : State) (a : Nat) : Nat := s.tab 15 (256 + a)

/-- An SA is valid, and the slot it names holds a key (R426). -/
def State.saValid (s : State) (a : Nat) : Bool :=
  ebit (s.saEntry a) 0 0 && slotValid (s.slotIn s.fab.active (ebits (s.saEntry a) 4 0 8))

/-- The valid SA with a direction, SC and AN. -/
def State.saOf (s : State) (dir sc an : Nat) : Option Nat :=
  (List.range 256).find? fun a =>
    let e := s.saEntry a
    s.saValid a && ebits e 0 1 1 == dir && ebits e 2 0 16 == sc && ebits e 1 0 2 == an

/-- The running PN of an SA (KEY_SA_PN). -/
def State.saPn (s : State) (a : Nat) : Nat := s.get (KEY_SA_PN_PN a)

/-- The IV of a frame under an SA: SCI and PN, or with XPN the salt with SSCI and PN (IEEE 802.1AE-2018). -/
def State.saIv (s : State) (a pn : Nat) (sci : List Byte) : List Byte :=
  let e := s.saEntry a
  if ebit e 0 2 then
    (List.zip (leBytes 12 (ebits e 24 0 96)) (beBytes 4 (ebits e 16 0 32) ++ beBytes 8 pn)).map fun p => p.1 ^^^ p.2
  else sci ++ beBytes 4 pn

/-- The key of an SA. -/
def State.saKey (s : State) (a : Nat) : List Byte := slotKey (s.slotIn s.fab.active (ebits (s.saEntry a) 4 0 8))

/-- The PN of a received frame, recovered to 64 bits under XPN (IEEE 802.1AE-2018; PRESUMED: that standard's rule). -/
def recoverPn (xpn : Bool) (low pn : Nat) : Nat :=
  if !xpn then pn
  else if low % 2 ^ 32 ≥ 2 ^ 31 ∧ pn < 2 ^ 31 then (low / 2 ^ 32 + 1) * 2 ^ 32 + pn
  else low / 2 ^ 32 * 2 ^ 32 + pn

/-- The receive SC of port `n` whose SCI a frame's SecTAG carries or implies (R431). -/
def State.rxSc (s : State) (n : Nat) (b : List Byte) : Option Nat :=
  let sci := if bit (beAt b 14 1) 5 then sliceBytes b 20 8 else sliceBytes b 6 6 ++ [0, 1]
  (List.range 64).find? fun c =>
    let e := s.tab 15 (544 + c)
    ebit e 0 0 && ebits e 1 0 8 == n && ebits e 8 0 64 == leNat sci

/-- A received frame on a port with RX_EN = 1 is judged (R431): `none` when it is dropped and counted, else the frame
as it goes on and whether it was verified. DEDUCED: a receive SA that was loaded as exhausted (R438), whose lowest acceptable PN reads 0,
accepts no PN where REPLAY_PROTECT asks. -/
def State.macReceive (s : State) (n : Nat) (b : List Byte) : State × Option (List Byte × Bool) :=
  let et := beAt b 12 2
  if et ≠ 0x88E5 then
    if et = 0x888E ∨ (et = 0x88F7 ∧ ebit (s.macPort n) 0 3) then (s.inc (KEY_IN_BYPASS_COUNT n), some (b, false))
    else (s.inc (KEY_IN_UNTAGGED_DROP_COUNT n), none)
  else
    let tci := beAt b 14 1
    let sc := bit tci 5
    let tag := if sc then 16 else 8
    let data := b.length - 12 - tag - 16
    let sl := beAt b 15 1
    if bit tci 7 || b.length < 12 + tag + 16 || sl ≠ (if data < 48 then data else 0) then (s.inc (KEY_IN_BAD_TAG_COUNT n), none)
    else
      let sci := if sc then sliceBytes b 20 8 else sliceBytes b 6 6 ++ [0, 1]
      match s.rxSc n b with
      | none => (s.inc (KEY_IN_NO_SCI_COUNT n), none)
      | some c =>
        match s.saOf 0 c (tci % 4) with
        | none => (s.inc (KEY_IN_NOT_USING_SA_COUNT n), none)
        | some a =>
          let e := s.tab 15 (544 + c)
          let low := s.saPn a
          let pn := recoverPn (ebit (s.saEntry a) 0 2) low (beAt b 16 4)
          if ebit e 0 1 && (low == 0 || pn < low) then (s.inc (KEY_SA_LATE_COUNT a), none)
          else
            let hdr := b.take (12 + tag)
            let body := b.drop (12 + tag)
            let sealed := if bit tci 3 then body else body.drop data
            let aad := if bit tci 3 then hdr else hdr ++ body.take data
            let hit := s.injArmedFor 24 a
            let s1 := if hit then s.injSpend 24 else s
            match (if hit then none else Config.gcmOpen (s.saKey a) (s.saIv a pn sci) aad sealed) with
            | none =>
              let first := s1.get (KEY_SA_NOT_VALID_COUNT a) == 0
              let s2 := s1.inc (KEY_SA_NOT_VALID_COUNT a)
              (if first then s2.emit 0x0900 n (args a) else s2, none)
            | some plain =>
              let s2 := s1.inc (KEY_SA_OK_COUNT a)
              let floor_ := if low = 0 then 0 else max low (pn + 1 - ebits e 4 0 32)
              (s2.set (KEY_SA_PN_PN a) floor_, some (b.take 12 ++ (if bit tci 3 then plain else body.take data), true))

/-- The largest PN of an SA. -/
def pnMax (xpn : Bool) : Nat := if xpn then 2 ^ 64 - 1 else 2 ^ 32 - 1

/-- An SA has sent its last PN, or lost its AON copy: it sends nothing more (R433, R438). -/
def State.saExhausted (s : State) (a : Nat) : Bool :=
  s.saPn a == 0 || s.saPn a > pnMax (ebit (s.saEntry a) 0 2)

/-- Shows a port's MACsec state (KEY_PORT_STATUS). -/
def State.showMac (s : State) (n : Nat) : State :=
  let e := s.macPort n
  let an := ebits e 1 0 2
  let sa := s.saOf 1 n an
  let ex := sa.any fun a => s.saExhausted a
  let lim := sa.any fun a => s.key.limitHit.contains a
  ((((s.put (KEY_PORT_STATUS_EXHAUSTED n) ex).put (KEY_PORT_STATUS_PN_LIMIT n) lim).set (KEY_PORT_STATUS_ENCODING_AN n) an).put
    (KEY_PORT_STATUS_RX_EN n) (ebit e 0 1)).put (KEY_PORT_STATUS_TX_EN n) (ebit e 0 0)

/-- A transmit SA uses its next PN (R432, R433): MACSEC_PN_LIMIT once, when the next PN reaches its limit point. -/
def State.usePn (s : State) (n a : Nat) : State :=
  let xpn := ebit (s.saEntry a) 0 2
  let next := s.saPn a + 1
  let point := if xpn then 0xC000000000000000 else 0xC0000000
  let s1 := (s.inc (KEY_SA_OK_COUNT a)).set (KEY_SA_PN_PN a) next
  let s2 := if next ≥ point && !s.key.limitHit.contains a then
      (s1.kset fun k => { k with limitHit := k.limitHit ++ [a] }).emit 0x0901 n (args a)
    else s1
  s2.showMac n

/-- What R432 makes of a copy that starts on port `n`: sent as it is, protected under an SA, or discarded. -/
inductive Protect where
  | plain
  | under (a : Nat)
  | drop
  deriving DecidableEq, Repr

/-- The key unit cannot serve protected ports: PD6 off, class 15 not loaded yet, or a reset after which it has not been set up again (R437,
R438, R490). -/
def State.keyDown (s : State) : Bool := !s.up .key || s.key.closed || !s.on KEY_STATUS_READY

/-- The verdict of R432 and R437 on a copy of egress length `len` with EtherType `et` from ingress port `inPort`; a
discard is counted. -/
def State.macSend (s : State) (n inPort et len classMax : Nat) : State × Protect :=
  if !s.txSecure n then (s, .plain)
  else if s.keyDown then (s.inc KEY_OFF_DROP_COUNT, .drop)
  else if inPort = 65 ∧ (et = 0x888E ∨ (et = 0x88F7 ∧ ebit (s.macPort n) 0 3)) then (s, .plain)
  else match s.saOf 1 n (ebits (s.macPort n) 1 0 2) with
    | none => (s.inc (KEY_OUT_NO_SA_COUNT n), .drop)
    | some a =>
      if s.saExhausted a then (s.inc (KEY_OUT_NO_SA_COUNT n), .drop)
      else if len + 32 > classMax then (s.inc (KEY_OUT_TOO_LONG_COUNT n), .drop)
      else (s.usePn n a, .under a)

/-- The octets of a copy protected under SA `a` with PN `pn` (R428). -/
def State.macSeal (s : State) (n a pn : Nat) (b : List Byte) : List Byte :=
  let conf := ebit (s.macPort n) 0 2
  let sci := leBytes 8 (ebits (s.macPort n) 8 0 64)
  let data := b.drop 12
  let tci := 32 + (if conf then 12 else 0) + ebits (s.saEntry a) 1 0 2
  let hdr := b.take 12 ++ beBytes 2 0x88E5 ++ beBytes 1 tci ++ beBytes 1 (if data.length < 48 then data.length else 0)
    ++ beBytes 4 pn ++ sci
  if conf then hdr ++ Config.gcmSeal (s.saKey a) (s.saIv a pn sci) hdr data
  else hdr ++ data ++ Config.gcmSeal (s.saKey a) (s.saIv a pn sci) (hdr ++ data) []

end Sys2Proof.Machine
end

