-- ==== Sys2Proof/Machine/Store.lean ====
section
/-! DEFINITION. The frame store (chapter 3): pools, handles, charges, reference counts, lanes and flushes. -/
namespace Sys2Proof.Machine

/-! ### Pools (R97–R103) -/

/-- Octets of a chunk of pool `p` (R97). -/
def chunkBytes (p : Nat) : Nat := if p = 0 then 128 else if p = 1 then 512 else if p = 2 then 2048 else 9216

/-- Chunks of pool `p` in a granule (R97). -/
def perGranule (p : Nat) : Nat := if p = 0 then 512 else if p = 1 then 128 else if p = 2 then 32 else 7

/-- Granules of pool `p` by FST_CARVE (R97). -/
def State.granules (s : State) (p : Nat) : Nat :=
  let a := s.get FST_CARVE_P0_GRAN
  let b := s.get FST_CARVE_P1_GRAN
  let c := s.get FST_CARVE_P2_GRAN
  if p = 0 then a else if p = 1 then b else if p = 2 then c else 512 - a - b - c

/-- Chunks of pool `p`, as the running carve has them. -/
def State.chunks (s : State) (p : Nat) : Nat := s.get (FST_POOL_INFO_CHUNKS p)

/-- The smallest carved pool that holds `n` octets (R106). -/
def State.fit (s : State) (n : Nat) : Option Nat := (List.range 4).find? fun p => s.granules p ≠ 0 && n ≤ chunkBytes p

/-- The first granule of pool `p`: the carve gives the granules to the pools in order (R97). -/
def State.firstGranule (s : State) (p : Nat) : Nat := ((List.range p).map s.granules).foldl (· + ·) 0

/-- The word of the store at which chunk `c` of pool `p` begins (R97). -/
def State.wordOf (s : State) (p c : Nat) : Nat :=
  (s.firstGranule p + c / perGranule p) * 1024 + c % perGranule p * (chunkBytes p / 64)

/-- The pool, chunk and word of the chunk at a word of the store; none in the unused part of a P3 granule (R97). -/
def State.wordAt (s : State) (w : Nat) : Option (Nat × Nat × Nat) :=
  let g := w / 1024
  let a := s.granules 0
  let b := a + s.granules 1
  let c := b + s.granules 2
  let p := if g < a then (0, g) else if g < b then (1, g - a) else if g < c then (2, g - b) else (3, g - c)
  let per := chunkBytes p.1 / 64
  let k := w % 1024 / per
  if k < perGranule p.1 then some (p.1, p.2 * perGranule p.1 + k, w % 1024 % per) else none

/-- The words that `n` octets take (R96). -/
def storeLines (n : Nat) : Nat := (n + 63) / 64

/-- A word of the store is written with a valid code; ECC_SRAM flips bits of the next word written to its bank (R96, R126). -/
def State.writeWord (s : State) (bank word : Nat) : State :=
  let hit := s.on (INJ_ARM_ARM 8) && bank == s.get (INJ_ARM_TARGET 8)
  let s1 := if hit then s.injSpend 8 else s
  s1.fset fun f => { f with badWords := SMap.put f.badWords 0 word (if hit then s.get (INJ_ARM_BITS 8) else 0) }

/-- Words `a` to `b` - 1 of a chunk are written; word `w` of chunk `c` lies in bank (c + w) mod 16 (R96). -/
def State.writeWords (s : State) (p c a b : Nat) : State :=
  let base := s.wordOf p c
  s.each ((List.range (b - a)).map (· + a)) fun t w => t.writeWord ((c + w) % 16) (base + w)

/-- The key of a chunk among the quarantined. -/
def chunkKey (p c : Nat) : Nat := p * 2 ^ 18 + c

/-- The chunks of pool `p` that are not free. -/
def State.usedChunks (s : State) (p : Nat) : List Nat :=
  (s.fab.handles.filterMap fun e => if e.2.pool = p then some e.2.chunk else none)
    ++ (s.fab.suspect.filterMap fun e => if e.1 / 2 ^ 18 = p then some (e.1 % 2 ^ 18) else none)

/-- The least number that is not in a list. -/
def mex (l : List Nat) : Nat := ((List.range (l.length + 1)).find? fun k => !l.contains k).getD 0

/-- The free chunk with the lowest index (R103). -/
def State.freeChunk (s : State) (p : Nat) : Option Nat :=
  let c := mex (s.usedChunks p)
  if c < s.chunks p then some c else none

/-- The free handle with the lowest index (R103). -/
def State.freeHandle (s : State) : Option Nat :=
  let h := mex (s.fab.handles.map (·.1) ++ s.fab.deadHandles)
  if h < 131072 then some h else none

/-- Free chunks of pool `p`. -/
def State.freeCount (s : State) (p : Nat) : Nat := s.chunks p - (s.usedChunks p).length

/-! ### Quotas and the shared remainder (R111–R116) -/

/-- The quota of requester `q` in pool `p`. -/
def State.quota (s : State) (q p : Nat) : Nat := SMap.get s.fab.heat.quotas 0 (4 * q + p)

/-- The sum of a list of numbers. -/
def natSum (l : List Nat) : Nat := l.foldl (· + ·) 0

/-- The sum of the quotas of pool `p`. -/
def State.quotaSum (s : State) (p : Nat) : Nat :=
  natSum (s.fab.heat.quotas.filterMap fun e => if e.1 % 4 = p then some e.2 else none)

/-- Quarantined chunks of pool `p`: the ones that failed again (R123, R124). DESIGN CHOICE (log 71): a chunk that waits for the
scrubber's rewrite is out of the free bitmap but is not counted among the quarantined yet. -/
def State.quarantined (s : State) (p : Nat) : Nat := (s.fab.suspect.filter fun e => e.1 / 2 ^ 18 == p && e.2).length

/-- The shared remainder of pool `p` (R111). -/
def State.remainder (s : State) (p : Nat) : Nat := s.chunks p - s.quotaSum p - s.quarantined p

/-- Chunks of pool `p` charged to the shared remainder. -/
def State.sharedUsed (s : State) (p : Nat) : Nat := (s.fab.handles.filter fun e => e.2.pool == p && e.2.quotaOf.isNone).length

/-- Free shared chunks of pool `p`. -/
def State.freeShared (s : State) (p : Nat) : Nat := min (s.remainder p - s.sharedUsed p) (s.freeCount p)

/-- Chunks of pool `p` charged to the quota of requester `q`. -/
def State.quotaUse (s : State) (q p : Nat) : Nat := (s.fab.handles.filter fun e => e.2.pool == p && e.2.quotaOf == some q).length

/-- Free shared handles (R111). -/
def State.freeSharedHandles (s : State) : Nat :=
  131072 - natSum (s.fab.heat.quotas.map (·.2)) - s.fab.deadHandles.length - (s.fab.handles.filter fun e => e.2.quotaOf.isNone).length

/-- The headroom of pool `p` (R114). -/
def State.headroom (s : State) (p : Nat) : Nat := s.remainder p * s.get FST_DP_CFG_FRAC / 256

/-- Shows one pool in the FST registers. -/
def State.showPool (s : State) (p : Nat) : State :=
  let f := s.freeCount p
  ((((s.set (FST_POOL_FREE_FREE p) f).set (FST_POOL_LOW_LOW p) (min (s.get (FST_POOL_LOW_LOW p)) f)).set (FST_SHARED_SHARED p)
    (s.remainder p)).set (FST_SHARED_USED_USED p) (s.sharedUsed p)).set (FST_POOL_INFO_QUAR p) (min (s.quarantined p) 1023)

/-- Shows the store in the FST registers. -/
def State.showStore (s : State) : State :=
  let s1 := s.each (List.range 4) fun t p => t.showPool p
  let h := 131072 - s.fab.handles.length - s.fab.deadHandles.length
  let q := natSum ((List.range 4).map s.quarantined)
  (((s1.set FST_HANDLE_FREE_FREE h).set FST_HANDLE_LOW_LOW (min (s1.get FST_HANDLE_LOW_LOW) h)).set FST_QUARANTINE_HANDLES
    (min s.fab.deadHandles.length 1023)).set FST_QUARANTINE_CHUNKS (min q 1023)

/-! ### Handles -/

/-- Handle `h`. -/
def State.handle (s : State) (h : Nat) : Option Handle := SMap.find s.fab.handles h

/-- Changes handle `h`. -/
def State.hset (s : State) (h : Nat) (f : Handle → Handle) : State :=
  match s.handle h with
  | some x => s.fset fun b => { b with handles := SMap.insert b.handles h (f x) }
  | none => s

/-- Chunk and handle are taken (R103); HANDLE_PAR gives the handle a wrong parity, in all its quarters (R126). -/
def State.takeHandle (s : State) (port p c h : Nat) (x : Handle) : State :=
  let hit := s.on (INJ_ARM_ARM 9)
  let s1 := if hit then s.injSpend 9 else s
  (s1.fset fun f => { f with handles := SMap.insert f.handles h { x with pool := p, chunk := c, parBad := if hit then 15 else 0 }, allocLast := port }).showStore

/-- The words of a frame's chunk that hold octets of it: while it is still written, the ones that are full (R109). -/
def Handle.words (x : Handle) : Nat := if x.state = 0 then x.bytes.length / 64 else storeLines (x.bytes.length + 4)

/-- What the words of a stored frame from word `a` on show when they are read, as far as they show an error (R122, R123). -/
def State.frameErrs (s : State) (x : Handle) (a : Nat) : List Nat :=
  let base := s.wordOf x.pool x.chunk
  (((List.range x.words).drop a).map fun w => SMap.get s.fab.badWords 0 (base + w)).filter (· ≠ 0)

/-- An error strikes the first word of the frame of handle `h`. -/
def State.strike (s : State) (h e : Nat) : State :=
  match s.handle h with
  | some x => if e = 0 then s else s.fset fun f => { f with badWords := SMap.upd f.badWords 0 (s.wordOf x.pool x.chunk) fun v => max v e }
  | none => s

/-- Captures FST_ERR_LOC (R123, R124). -/
def State.fstErrLoc (s : State) (kind pool index : Nat) : State :=
  if s.on FST_ERR_LOC_VALID then s.set FST_ERR_LOC_OVERFLOW 1
  else (((s.set FST_ERR_LOC_VALID 1).set FST_ERR_LOC_KIND kind).set FST_ERR_LOC_POOL pool).set FST_ERR_LOC_INDEX index

/-- A handle read with wrong parity (R124): counted and located, quarantined with its chunk, and to be reported. A frame that still
arrives has lost it. -/
def State.handleParity (s : State) (h : Nat) (x : Handle) : State :=
  let s1 := (s.inc FST_HPAR_ERR_COUNT).fstErrLoc 1 0 h
  (s1.fset fun f => { f with
    handles := SMap.erase f.handles h, deadHandles := f.deadHandles ++ [h],
    suspect := SMap.insert f.suspect (chunkKey x.pool x.chunk) true,
    parityDue := f.parityDue ++ [(s1.rd FST_ERR_LOC).toNat],
    rx := f.rx.map fun e => if e.2.handle = some h then (e.1, { e.2 with handle := none, bad := true, settled := true, heldBy := none }) else e }).showStore

/-- Handle `h` is read (R124): a wrong parity quarantines it, and nothing else happens; else `f` acts on what it holds. -/
def State.readHandle (s : State) (h : Nat) (f : Handle → State) : State :=
  match s.handle h with
  | none => s
  | some x => if x.parBad = 0 then f x else s.handleParity h x

/-- The port that R103 serves of those that ask in one cycle. -/
def State.served (s : State) (asks : List Nat) : Option Nat :=
  ((List.range 70).map fun k => (s.fab.allocLast + 1 + k) % 70).find? fun n => asks.contains n

/-- The chunk and handle of a frame are freed (R119); a chunk with an uncorrectable word waits for the scrubber (R123). -/
def State.freeFrame (s : State) (h : Nat) : State :=
  match s.handle h with
  | none => s
  | some x =>
    (s.fset fun f => { f with handles := SMap.erase f.handles h,
                              suspect := if x.uncorr then SMap.insert f.suspect (chunkKey x.pool x.chunk) false else f.suspect }).showStore

/-- Freed when no copy is left and the write has ended (R119). -/
def State.freeIfDone (s : State) (h : Nat) : State :=
  match s.handle h with
  | some x => if x.refcnt = 0 && x.state ≠ 0 then s.freeFrame h else s
  | none => s

/-! ### Lanes and copies (R117–R121) -/

/-- The queue of lane `l` of port `n`. -/
def State.lane (s : State) (n l : Nat) : List Copy := SMap.get s.fab.lanes [] (8 * n + l)

/-- Sets the queue of a lane. A lane that becomes empty loses its deficit and visited mark (R209). -/
def State.setLane (s : State) (n l : Nat) (q : List Copy) : State :=
  s.fset fun f =>
    let f1 := { f with lanes := SMap.put f.lanes [] (8 * n + l) q }
    if q.isEmpty then
      { f1 with service := SMap.upd f1.service {} n fun v => { v with deficit := SMap.put v.deficit 0 l 0, visited := SMap.put v.visited false l false } }
    else f1

/-- Lane service of port `n`. -/
def State.svc (s : State) (n : Nat) : PortLanes := SMap.get s.fab.service {} n

/-- Changes the lane service of port `n`. -/
def State.svcSet (s : State) (n : Nat) (g : PortLanes → PortLanes) : State :=
  s.fset fun f => { f with service := SMap.upd f.service {} n g }

/-- Every queue entry of handle `h`, in lanes, in transmission and preempted, with its port. -/
def State.entriesOf (s : State) (h : Nat) : Nat :=
  natSum (s.fab.lanes.map fun e => (e.2.filter fun c => c.handle == h).length)
    + natSum (s.fab.service.map fun e =>
        ([e.2.sending, e.2.rest].filter fun x => x.any fun y => y.copy.handle == h).length)

/-- The copies of handle `h` on port `n`, or on every port, leave no egress record: the ones not yet ready go (R275). -/
def State.dropStamps (s : State) (n : Option Nat) (h : Nat) : State :=
  { s with tim := { s.tim with stampsWait := s.tim.stampsWait.filterMap fun e =>
      let l := if n.getD e.1 = e.1 then e.2.filter fun r => r.ready || r.handle != h else e.2
      if l.isEmpty then none else some (e.1, l) } }

/-- Removes every queue entry of handle `h`; those of port 67 count in DROPPED of the page (R160). -/
def State.purge (s0 : State) (h : Nat) : State :=
  let on67 := natSum ((s0.fab.lanes.filter fun e => e.1 / 8 == 67).map fun e => (e.2.filter fun c => c.handle == h).length)
  let s := if on67 = 0 then s0 else { s0 with dram := { s0.dram with dropped := s0.dram.dropped + on67 } }
  let s1 := s.each ((s.fab.lanes.filter fun e => e.2.any fun c => c.handle == h).map (·.1)) fun t k =>
    t.setLane (k / 8) (k % 8) ((t.lane (k / 8) (k % 8)).filter fun c => c.handle != h)
  let clean := fun (o : Option Sending) => o.bind fun x => if x.copy.handle = h then none else some x
  (s1.dropStamps none h).fset fun f => { f with service := (f.service.map fun e =>
    (e.1, { e.2 with sending := clean e.2.sending, rest := clean e.2.rest })) }

/-- A reserved frame without reserved copies moves to the shared remainder, or its copies are shed (R121). -/
def State.moveCharge (s : State) (h : Nat) : State :=
  match s.handle h with
  | none => s
  | some x =>
    if x.quotaOf.isNone || x.rcopies ≠ 0 || x.refcnt = 0 then s
    else if s.freeSharedHandles > 0 && s.remainder x.pool > s.sharedUsed x.pool then
      (s.hset h fun y => { y with quotaOf := none }).showStore
    else
      let s1 := (s.add FST_MIRROR_SHED_COUNT x.refcnt).purge h
      (s1.hset h fun y => { y with refcnt := 0 }).freeIfDone h

/-- REFCNT and RCOPIES without a copy (R118). -/
def State.uncount (s : State) (c : Copy) : State :=
  s.hset c.handle fun x => { x with refcnt := x.refcnt - 1, rcopies := if c.rsv then x.rcopies - 1 else x.rcopies }

/-- A copy leaves (R118). -/
def State.copyLeaves (s : State) (c : Copy) : State :=
  s.readHandle c.handle fun _ => ((s.uncount c).freeIfDone c.handle).moveCharge c.handle

/-- A copy discarded on external port `n` counts in PRT_LANE_DISC of its lane (R77, R88). -/
def State.discCount (s : State) (n : Nat) (c : Copy) : State := if n < 64 then s.inc (PRT_LANE_DISC_COUNT n c.lane) else s

/-- A copy of a lane of port `n` is discarded (R77, R88). -/
def State.laneDiscard (s : State) (n : Nat) (c : Copy) : State := (s.discCount n c).copyLeaves c

/-- Every copy of a lane is discarded. -/
def State.flushLane (s : State) (n l : Nat) : State :=
  (s.setLane n l []).each (s.lane n l) fun t c => t.laneDiscard n c

/-- The copy in transmission on port `n`, and a preempted remainder, are discarded (R84). -/
def State.discardInTransmission (s : State) (n : Nat) : State :=
  let v := s.svc n
  (s.svcSet n fun w => { w with sending := none, rest := none }).each ([v.sending, v.rest].filterMap fun o => o.map (·.copy))
    fun t c => (t.dropStamps (some n) c.handle).laneDiscard n c

/-- RESERVED of a port in the active bank (R205). -/
def State.reservedMask (s : State) (n : Nat) : Nat := ebits (s.tab 10 n) 33 0 8

/-- Every frame in the reserved lanes of a port is discarded (R84). -/
def State.discardReserved (s : State) (n : Nat) : State :=
  s.each ((List.range 8).filter fun l => bit (s.reservedMask n) l) fun t l => t.flushLane n l

/-- Every frame of a port is discarded (R88). -/
def State.flushPort (s : State) (n : Nat) : State :=
  (s.each (List.range 8) fun t l => t.flushLane n l).discardInTransmission n

/-- What a port does with a copy at enqueue (R77): `true` when its lane takes it. Internal ports always do. -/
def State.laneTakes (s : State) (n : Nat) (rsv : Bool) : Bool :=
  n ≥ 64 || s.get (PRT_LINK_STATUS_STATE n) == 4 || (s.get (PRT_LINK_STATUS_STATE n) == 5 && !rsv)

/-- A copy is enqueued on port `n`, or discarded there (R77, R117), which REFCNT shows at once; what becomes of a frame that no
copy is left of is settled once every copy is (R121). -/
def State.enqueue (s : State) (n : Nat) (c : Copy) : State :=
  if s.laneTakes n c.rsv then s.setLane n c.lane (s.lane n c.lane ++ [c]) else (s.discCount n c).uncount c

/-- STATE of a handle becomes bad (R110, R120, R123). -/
def State.markBad (s : State) (h : Nat) : State := s.hset h fun x => { x with state := 2 }

end Sys2Proof.Machine
end

