-- ==== Sys2Proof/Machine/Forward.lean ====
section
/-! DEFINITION. Stream identification, meters, FRER and the forwarding decision (R128–R155, R181, R194–R204, R237). -/
namespace Sys2Proof.Machine

/-- The class maximum of a port (R58, R138). -/
def classMax (n : Nat) : Nat := if 32 ≤ n ∧ n < 64 then 2048 else 9216

/-! ### VLAN assignment (R129) -/

/-- The VID of a frame from port `n`; `none` for VID 4095. -/
def State.vidOf (s : State) (n : Nat) (b : List Byte) : Option Nat :=
  let pvid := s.get (FWD_PORT_CFG_PVID n)
  if isTpid (beAt b 12 2) then
    let v := beAt b 14 2 % 4096
    if v = 4095 then none else if v = 0 then some pvid else some v
  else some pvid

/-! ### Streams and meters (R194–R200) -/

/-- A stream entry takes frames of an ingress port. -/
def streamPort (e n : Nat) : Bool := ebits e 8 0 8 == 0xFF || ebits e 8 0 8 == n

/-- The stream entry that a frame selects, with LNE_HINT_MISS counted (R194). -/
def State.streamOf (s : State) (x : RxFrame) (hint : Option Nat) : State × Option Nat :=
  match hint with
  | some k =>
    let e := s.tabAt x.epoch 6 k
    if ebit e 9 0 && streamPort e x.port then (s, some k) else (s.inc LNE_HINT_MISS_COUNT, none)
  | none =>
    let vid := s.vidOf x.port x.bytes
    let hit := (listed (s.bankOf x.epoch) 6).find? fun e =>
      let mode := ebits e.2 9 1 2
      let mac := beNat (leBytes 6 (ebits e.2 0 0 48))
      ebit e.2 9 0 && ((mode == 1 && mac == beAt x.bytes 0 6) || (mode == 2 && mac == beAt x.bytes 6 6))
        && vid == some (ebits e.2 6 0 12) && streamPort e.2 x.port
    (s, hit.map (·.1))

/-- The declaration that admits a stream in a bank (R195), as its entry. -/
def declOf (b : SMap Nat) (k : Nat) : Option Nat :=
  ((listed b 14).find? fun e => ebit e.2 2 0 && ebits e.2 0 0 12 == k).map (·.2)

/-- The units of a bucket in one byte: 1 kbit/s refills one unit in a tick of 2 ns. -/
def bucketByte : Int := 4000000

/-- The level of a bucket after its refill (R199, R211): rate in kbit/s, size in bytes; an unlisted bucket is full. -/
def State.refilled (s : State) (m : SMap Bucket) (k rate size : Nat) : Int :=
  match SMap.find m k with
  | some b => min (size * bucketByte) (b.level + rate * ((s.refTicks - b.tick : Nat) : Int))
  | none => size * bucketByte

/-- Sets the level of meter `k`. -/
def State.setMeter (s : State) (k : Nat) (v : Int) : State :=
  s.fset fun f => { f with meters := SMap.insert f.meters k ⟨v, s.refTicks⟩ }

/-- A frame of `len` bytes is charged to meter `k`: `true` when it conforms (R199); METER_DROP makes the next one
non-conforming (R229). -/
def State.meterJudge (s : State) (epoch k len : Nat) : State × Bool :=
  if s.injArmedFor 16 k then (s.injSpend 16, false)
  else
    let e := s.tabAt epoch 7 k
    if !ebit e 8 0 then (s, false)
    else
      let t := s.refilled s.fab.meters k (ebits e 0 0 32) (ebits e 4 0 24)
      if t ≥ len * bucketByte then (s.setMeter k (t - len * bucketByte), true) else (s.setMeter k t, false)

/-- The meter's bucket is adjusted at the end of an estimated frame (R198). -/
def State.meterAdjust (s : State) (epoch k : Nat) (diff : Int) : State :=
  let e := s.tabAt epoch 7 k
  let size := ebits e 4 0 24
  s.setMeter k (min (size * bucketByte) (s.refilled s.fab.meters k (ebits e 0 0 32) size + diff * bucketByte))

/-- The meter's bucket takes the difference of the estimate and the stored length of a frame that has ended (R198). -/
def State.adjustCharge (s : State) (x : RxFrame) : State :=
  match x.charged with
  | some (k, e) => s.meterAdjust x.epoch k ((e : Int) - ((x.bytes.length + 4 : Nat) : Int))
  | none => s

/-- MAX_LEN of a stream entry for an ingress port (R196). -/
def maxLen (e n : Nat) : Nat := if ebits e 14 0 16 = 0 then classMax n else ebits e 14 0 16

/-- A frame dropped by its meter counts; METER_DROP is raised when the count leaves 0 (R197, R229). -/
def State.meterDrop (s : State) (k : Nat) : State :=
  let s1 := s.inc (LNE_STR_METER_DROP_COUNT k)
  if s.get (LNE_STR_METER_DROP_COUNT k) = 0 then s1.emit 0x0500 0 (args k) else s1

/-- The checks of R197 on a frame of length `len`, or its estimate. -/
def State.streamChecks (s : State) (x : RxFrame) (k len : Nat) : State × Bool :=
  let e := s.tabAt x.epoch 6 k
  if len > maxLen e x.port then (s.inc (LNE_STR_OVERSIZE_COUNT k), false)
  else if ebit e 9 3 then
    let r := s.meterJudge x.epoch (ebits e 10 0 11) len
    if r.2 then (r.1, true) else (r.1.meterDrop k, false)
  else (s, true)

/-- The priority of a frame (R201). -/
def State.prioOf (s : State) (x : RxFrame) : Nat :=
  let stream := x.stream.bind fun k =>
    let e := s.tabAt x.epoch 6 k
    if ebit e 9 4 then some (ebits e 12 4 3) else none
  match stream with
  | some p => p
  | none => if isTpid (beAt x.bytes 12 2) then beAt x.bytes 14 1 / 32 else s.get (LNE_PORT_CFG_DEF_PRIO x.port)

/-! ### FRER (R149–R152) -/

/-- The function of a stream with a FUNC (0 recovery, 1 generation): the lowest valid entry. -/
def frerFn (b : SMap Nat) (k fn : Nat) : Option (Nat × Nat) :=
  (listed b 2).find? fun e => ebit e.2 2 0 && ebits e.2 2 1 1 == fn && ebits e.2 0 0 12 == k

/-- The state of FRER function `i`. -/
def State.frerSt (s : State) (i : Nat) : Frer := SMap.get s.fab.frer {} i

/-- Sets the state of FRER function `i`. -/
def State.frerSet (s : State) (i : Nat) (f : Frer) : State := s.fset fun b => { b with frer := SMap.put b.frer {} i f }

/-- What recovery makes of a frame. -/
inductive Recover where
  | pass | hold | discard
  deriving DecidableEq, Repr

/-- A frame passes: the mark is pending while the frame is still written (R152); PASSED counts. -/
def State.frerPass (s : State) (i : Nat) (f : Frer) (seq frame prev : Nat) (writing : Bool) : State × Recover :=
  let g := { f with fresh := false, lastPass := s.refTicks,
                    pending := if writing then f.pending ++ [⟨seq, frame, prev, false⟩] else f.pending }
  ((s.frerSet i g).inc (FRER_CNT_COUNT i 0), .pass)

/-- A frame whose number is marked: held while that mark is pending, else discarded (R151, R152). -/
def State.frerDup (s : State) (i : Nat) (f : Frer) (seq : Nat) : State × Recover :=
  if f.pending.any fun p => p.seq == seq && !p.stale then (s.inc (FRER_CNT_COUNT i 7), .hold) else (s.inc (FRER_CNT_COUNT i 1), .discard)

/-- Recovery decides (R151). DESIGN CHOICE (log 75): a frame without R-TAG that passes under TAKE_NO_SEQ leaves fresh and the time of
the last pass as they are. -/
def State.frerRecover (s : State) (i e : Nat) (p : Parsed) (frame : Nat) (writing : Bool) : State × Recover :=
  let f := s.frerSt i
  let w := p.seq
  if !p.rtag then
    (if ebit e 2 4 then (s.inc (FRER_CNT_COUNT i 0), .pass) else (s.inc (FRER_CNT_COUNT i 6), .discard))
  else if f.fresh || s.refTicks - f.lastPass ≥ ebits e 4 0 16 * 500000 then
    (s.inc (FRER_CNT_COUNT i 5)).frerPass i { f with recov := w, hist := 1 } w frame f.recov writing
  else if ebit e 2 2 then
    (if w = f.recov then s.frerDup i f w else s.frerPass i { f with recov := w, hist := 1 } w frame f.recov writing)
  else
    let h := ebits e 3 0 8
    let d := sext 16 (wrapInt 16 ((w : Int) - f.recov))
    if d ≥ h ∨ d ≤ -(h : Int) then (s.inc (FRER_CNT_COUNT i 3), .discard)
    else if d > 0 then
      let k := d.toNat
      let lost := k - popCount k (f.hist / 2 ^ (h - k))
      (s.add (FRER_CNT_COUNT i 4) lost).frerPass i { f with recov := w, hist := f.hist * 2 ^ k % 2 ^ h + 1 } w frame f.recov writing
    else
      let k := (-d).toNat
      if bit f.hist k then s.frerDup i f w
      else (s.inc (FRER_CNT_COUNT i 2)).frerPass i { f with hist := f.hist + 2 ^ k } w frame f.recov writing

/-- A pending mark of a frame becomes final, or clears when the frame is bad (R152). -/
def State.frerSettle (s : State) (frame : Nat) (good : Bool) : State :=
  s.each (s.fab.frer.filter fun e => e.2.pending.any fun p => p.frame == frame) fun t e =>
    let f := t.frerSt e.1
    match f.pending.find? fun p => p.frame == frame with
    | none => t
    | some p =>
      let rest := f.pending.filter fun q => q.frame != frame
      if good then t.frerSet e.1 { f with pending := rest }
      else
        let k := wrapInt 16 ((f.recov : Int) - p.seq)
        let hist := if bit f.hist k then f.hist - 2 ^ k else f.hist
        let isMatch := ebit (t.tab 2 e.1) 2 2
        let g := if p.stale then { f with pending := rest }
          else { f with pending := rest, hist := hist, recov := if isMatch then p.prev else f.recov }
        (t.frerSet e.1 g).set (FRER_CNT_COUNT e.1 0) (t.get (FRER_CNT_COUNT e.1 0) - 1)

/-! ### Egress edits (R131, R138, R151) -/

/-- The VLAN entry of a VID in a bank. -/
def vlanOf (b : SMap Nat) (vid : Nat) : Nat := bankGet b 1 vid

/-- A VLAN entry sends the VLAN untagged on port `n`; bits of UNTAG outside MEMBER are ignored (R132). -/
def untagsOn (vlan n : Nat) : Bool := bit (ebits vlan 16 0 128) n && bit (ebits vlan 0 0 128) n

/-- Octets that the edits of a forwarded copy add to the stored length (R138). -/
def editDelta (untag untagged rtag pop : Bool) : Int :=
  (if untag && !untagged then -4 else if !untag && untagged then 4 else 0) + (if rtag then 6 else 0) - (if pop then 6 else 0)

/-- The octets after the VLAN tags' end of a frame. -/
def tagsEnd (b : List Byte) : Nat :=
  if isTpid (beAt b 12 2) then (if isTpid (beAt b 16 2) then 20 else 16) else 12

/-- The egress edits of a forwarded copy (R131, R151). -/
def editFrame (b : List Byte) (untag untagged : Bool) (vid prio : Nat) (rtag : Option Nat) (pop : Bool) : List Byte :=
  let b1 := if untag && !untagged then b.take 12 ++ b.drop 16
    else if !untag && untagged then b.take 12 ++ beBytes 2 0x8100 ++ beBytes 2 (prio * 8192 + vid) ++ b.drop 12
    else b
  let k := tagsEnd b1
  let b2 := if pop && beAt b1 k 2 == 0xF1C1 then b1.take k ++ b1.drop (k + 6) else b1
  match rtag with
  | some q => b2.take k ++ beBytes 2 0xF1C1 ++ beBytes 2 0 ++ beBytes 2 q ++ b2.drop k
  | none => b2

/-! ### The copy set (R128) -/

/-- What the forwarding decision settles beside the copies. -/
structure Route where
  copies : List (Nat × Copy) := []
  vid : Nat := 0
  fid : Nat := 0
  prio : Nat := 0
  untagged : Bool := false
  rtag : Option Nat := none
  pop : Bool := false
  learn : Bool := false
  hold : Option Nat := none
  deriving DecidableEq, Repr

/-- The lane of a forwarded copy (R202). -/
def State.laneOf (s : State) (x : RxFrame) (trap : Option Nat) (prio n : Nat) : Nat :=
  match trap with
  | some 0 => s.get LNE_TRAP_LANE_GPTP
  | some 1 => s.get LNE_TRAP_LANE_EAPOL
  | some 2 => s.get LNE_TRAP_LANE_LLDP
  | some _ => s.get LNE_TRAP_LANE_HFP
  | none =>
    match x.stream with
    | some k => ebits (s.tabAt x.epoch 6 k) 12 0 3
    | none => bits (s.get (LNE_PRIO_MAP_MAP n)) (3 * prio) 3

/-- The destination lookup of step 4 (R135, R137), with its counters: the port set before the restrictions. -/
def State.destination (s : State) (x : RxFrame) (fid flood : Nat) : State × Nat :=
  let da := beAt x.bytes 0 6
  match staticOf (s.bankOf x.epoch) fid da with
  | some t => if t.drop then (s.inc FWD_DA_DROP_COUNT, 0) else (s, t.dest)
  | none =>
    if bit da 40 then (s, flood)
    else match s.learnedOf fid da with
      | some (_, e) => (s, 2 ^ e.port)
      | none => (s.inc FWD_FLOOD_COUNT, flood)

/-- The source lookup (R140): a conflict counts, and says whether it drops the frame. -/
def State.sourceCheck (s : State) (x : RxFrame) (fid : Nat) : State × Bool :=
  match staticOf (s.bankOf x.epoch) fid (beAt x.bytes 6 6) with
  | some t =>
    if bit t.dest x.port then (s, false)
    else (s.inc FWD_SA_CONFLICT_COUNT, t.pin || s.on (FWD_PORT_CFG_SA_LOCK x.port))
  | none => (s, false)

/-- The zone check of a copy to port `n` (R181): a copy that is not permitted counts. -/
def State.zoneCheck (s : State) (epoch zone permit n : Nat) : State × Bool :=
  let z := zoneOf (s.bankOf epoch) n
  if bit permit z then (s, true) else (s.inc (UMP_ZONE_DENY_COUNT (16 * zone + z)), false)

/-- One forwarded copy to port `n` is made, or skipped and counted (R203, R237, R138). A frame that still arrives has the length that
R108 computed; DESIGN CHOICE (log 112): where that is none, the copy is made, and is checked once the length is known. -/
def State.forwardCopy (s : State) (x : RxFrame) (d : UDesc) (r : Route) (vlan n : Nat) : State × Option (Nat × Copy) :=
  let lane := s.laneOf x d.trap r.prio n
  let rsv := bit (s.reservedMask n) lane
  let decl := (x.stream.bind fun k => declOf (s.bankOf x.epoch) k).getD 0
  let known := if x.ended then some (x.bytes.length + 4) else x.size
  let long := known.any fun k => decide ((k : Int) + editDelta (untagsOn vlan n) r.untagged r.rtag.isSome r.pop > classMax n)
  if x.reserved && !bit (ebits decl 24 0 128) n then (s.inc HEAT_UNDECL_SKIP_COUNT, none)
  else if rsv && !x.reserved then (s.inc (LNE_RSV_SKIP_COUNT n), none)
  else if long then (s.inc FWD_OVERSIZE_COUNT, none)
  else (s, some (n, { handle := 0, kind := 0, lane := lane, rsv := rsv }))

/-- The mirror copies of a frame (R153, R154, R181). DESIGN CHOICE (log 76): a session skipped for a reserved lane counts though its
target may hold a copy already, and leaves the copy of that target to the next session. DESIGN CHOICE (log
113): step 6 of R128 is over when mirror copies are made, so that the egress length check removes none of them. DEDUCED: a trapped frame has no permit, so its mirror copies to ports
other than 67 and 68 are not made. -/
def State.mirrorCopies (s : State) (x : RxFrame) (d : UDesc) (fwd : List (Nat × Copy)) : State × List (Nat × Copy) :=
  let covers := (listed (s.bankOf x.epoch) 16).filter fun m =>
    ebit m.2 34 0
      && (bit (ebits m.2 0 0 128) x.port || (fwd.any fun c => bit (ebits m.2 16 0 128) c.1) || d.mirror == some m.1)
      && (!ebit m.2 34 1 || x.stream == some (ebits m.2 36 0 12))
  covers.foldl (fun (r : State × List (Nat × Copy)) m =>
    let n := ebits m.2 32 0 8
    let lane := ebits m.2 33 0 3
    if bit (r.1.reservedMask n) lane then (r.1.inc FWD_MIRROR_SKIP_COUNT, r.2)
    else if (fwd ++ r.2).any (fun c => c.1 == n) then r
    else
      let z := if n = 67 ∨ n = 68 then (r.1, true) else r.1.zoneCheck x.epoch d.zone d.permit n
      if z.2 then
        (z.1, r.2 ++ [(n, { handle := 0, kind := 1, lane := lane, rsv := false, session := m.1,
                            cap := ebits m.2 38 0 16, trigger := ebit m.2 34 2 })])
      else (z.1, r.2)) (s, [])

/-- The sampler (R155). -/
def State.sampleCopy (s : State) (port : Nat) (copies : List (Nat × Copy)) (forwarded : Bool) : State × List (Nat × Copy) :=
  let n := s.get FWD_SMP_CFG_N
  if n = 0 || !forwarded || !bit (s.get (FWD_SMP_SRC_PORTS (port / 32))) (port % 32) then (s, [])
  else if s.fab.sample + 1 ≥ n then
    let s1 := (s.fset fun f => { f with sample := 0 }).inc FWD_SMP_FRAMES_COUNT
    (s1, if copies.any (fun c => c.1 == 68) then [] else [(68, { handle := 0, kind := 2, lane := 0, rsv := false })])
  else (s.fset fun f => { f with sample := f.sample + 1 }, [])

/-- Step 7 and the end of R128. -/
def State.withMirrors (s : State) (x : RxFrame) (d : UDesc) (r : Route) (fwd : List (Nat × Copy)) : State × Route :=
  let m := s.mirrorCopies x d fwd
  let p := m.1.sampleCopy x.port (fwd ++ m.2) (!fwd.isEmpty)
  (p.1, { r with copies := fwd ++ m.2 ++ p.2 })

/-- The egress copy set of a frame (R128). `frame` names it for FRER, `writing` says that it is still arriving. -/
def State.route (s : State) (x : RxFrame) (d : UDesc) (frame : Nat) (writing : Bool) : State × Route :=
  let bank := s.bankOf x.epoch
  let p := parseFrame x.bytes (s.get HFP_ETYPE_ETYPE) x.secured (!writing)
  let base : Route := { prio := s.prioOf x, untagged := !isTpid (beAt x.bytes 12 2) }
  if d.outcome = 1 then s.withMirrors x d base []
  else
    let vid := s.vidOf x.port x.bytes
    let vlan := vlanOf bank (vid.getD 0)
    if vid.isNone || !ebit vlan 50 0 || !bit (ebits vlan 0 0 128) x.port then (s.inc (FWD_VLAN_DROP_COUNT x.port), base)
    else
      let fid := ebits vlan 48 0 12
      let r0 := { base with vid := vid.getD 0, fid := fid }
      let rec_ := x.stream.bind fun k => frerFn bank k 0
      let v := match rec_ with
        | some (i, e) => s.frerRecover i e p frame writing
        | none => (s, .pass)
      match v.2 with
      | .hold => (v.1, { r0 with hold := rec_.map (·.1) })
      | .discard => (v.1, r0)
      | .pass =>
        let gen := x.stream.bind fun k => frerFn bank k 1
        let r1 := { r0 with rtag := gen.map fun g => (v.1.frerSt g.1).next,
                            pop := p.rtag && rec_.any fun q => ebit q.2 2 3 }
        let s1 := match gen with
          | some g => let f := v.1.frerSt g.1; v.1.frerSet g.1 { f with fresh := false, next := (f.next + 1) % 65536 }
          | none => v.1
        let src := s1.sourceCheck x fid
        if src.2 then (src.1, r1) else
        let set : State × List Nat :=
          if d.outcome = 2 then (src.1, [d.target])
          else
            let flood := ebits vlan 32 0 128 &&& ebits vlan 0 0 128
            let t := match x.direct with
              | some n => (src.1, 2 ^ n)
              | none => src.1.destination x fid flood
            let l := (List.range 70).filter fun n => bit (t.2 &&& ebits vlan 0 0 128) n && n != x.port
            l.foldl (fun (a : State × List Nat) n =>
              let z := a.1.zoneCheck x.epoch d.zone d.permit n
              (z.1, if z.2 then a.2 ++ [n] else a.2)) (t.1, [])
        let fwd := set.2.foldl (fun (a : State × List (Nat × Copy)) n =>
          let c := a.1.forwardCopy x d r1 vlan n
          (c.1, a.2 ++ c.2.toList)) (set.1, [])
        let sa := beAt x.bytes 6 6
        let learn := s.on (FWD_PORT_CFG_LEARN_EN x.port) && ebit vlan 50 1 && !bit sa 40 && sa != 0 && !fwd.2.isEmpty
        fwd.1.withMirrors x d { r1 with learn := learn } fwd.2

end Sys2Proof.Machine
end

