-- ==== Sys2Proof/Machine/HfpOps.lean ====
section
/-! DEFINITION. The fabric as the rest of the device sees it (chapter 10): adjacencies, routes, authority, and the
requests of the bridge with their completions and losses (R337–R345, R352–R355). -/
namespace Sys2Proof.Machine

/-- Changes the bridge. -/
def State.bset (s : State) (f : HfpUnit → HfpUnit) : State := { s with hfp := f s.hfp }

/-- The own fabric ID. -/
def State.ownId (s : State) : Nat := s.get HFP_CFG_ID

/-- HFP runs (R335). -/
def State.hfpRuns (s : State) : Bool := s.up .fabric && s.on HFP_CFG_EN

/-- The firmware that HFP relies on runs: Cox, or the recovery service of Boathouse (R336). -/
def State.firmware (s : State) : Bool := !s.cox.coresHeld || s.power == 2

/-! ### Authority (R341) -/

/-- A peer holds authority in the partition. -/
def State.peerHasAuthority (s : State) (peer : Nat) : Bool := s.on HFP_FAB_STATUS_AUTH_VALID && s.get HFP_FAB_STATUS_AUTH_ID == peer

/-- The device is adrift. -/
def State.adrift (s : State) : Bool := s.on HFP_FAB_STATUS_ADRIFT

/-- An enabled time domain has JUMP_REFUSED = 1. -/
def State.timeHeld (s : State) : Bool :=
  s.up .time && (List.range 4).any fun d => s.on (TIM_DOM_CFG_EN d) && s.on (TIM_DOM_STATUS_JUMP_REFUSED d)

/-- The partition as a mask: itself and every ID with a valid route (R340). -/
def State.partition (s : State) : Nat :=
  if s.on HFP_CFG_EN then maskOf ((List.range 32).filter fun f => f == s.ownId || s.on (HFP_ROUTE_VALID f)) else 0

/-- The device that holds authority (R341). -/
def State.authority (s : State) : Option Nat :=
  let a := s.get HFP_CFG_ANCHOR_ID
  let d := s.get HFP_CFG_DEPUTY_ID
  if bit s.partition a then some a else if bit s.partition d then some d else none

/-- HFP_FAB_STATUS.ROLE; with EN = 0 it reads its reset value. -/
def State.fabRole (s : State) : Nat :=
  if !s.on HFP_CFG_EN then 0
  else if s.ownId = s.get HFP_CFG_ANCHOR_ID then 1
  else if s.ownId = s.get HFP_CFG_DEPUTY_ID then (if s.authority = some s.ownId then 2 else 3)
  else 0

/-- HFP_REACH and HFP_FAB_STATUS are written; a change of ADRIFT raises FABRIC_STATE (R340, R341). -/
def State.showFabric (s : State) : State :=
  if !s.up .fabric then s
  else
    let adrift := s.on HFP_CFG_EN && (s.authority.isNone || s.timeHeld)
    let s1 := (s.set HFP_REACH_PEERS s.partition).set HFP_FAB_STATUS_MEMBERS (max 1 (popCount 32 s.partition))
    let s2 := (s1.put HFP_FAB_STATUS_AUTH_VALID s.authority.isSome).set HFP_FAB_STATUS_AUTH_ID (s.authority.getD 0)
    let s3 := ((s2.put HFP_FAB_STATUS_TIME_HELD s.timeHeld).set HFP_FAB_STATUS_ROLE s.fabRole).put HFP_FAB_STATUS_ADRIFT adrift
    if adrift = s.adrift then s3 else s3.emit 0x0803 0 (args (s3.rd HFP_FAB_STATUS).toNat)

/-! ### Routing (R339, R340) -/

/-- The rate of an external port's mode in Mbit/s (R59). -/
def rateOf (n media speed : Nat) : Nat :=
  if n < 8 then
    (if media = 0 then (if speed = 0 then 25000 else if speed = 1 then 10000 else if speed = 2 then 5000 else 2500)
     else if speed = 0 then 25000 else if speed ≤ 2 then 10000 else if speed = 3 then 5000 else 2500)
  else if n < 32 then (if speed = 0 then 1000 else 100)
  else 10

/-- The cost of a rate (R340). -/
def rateCost (mbps : Nat) : Nat :=
  if mbps ≥ 25000 then 1 else if mbps ≥ 10000 then 2 else if mbps ≥ 5000 then 4 else if mbps ≥ 2500 then 8
  else if mbps ≥ 1000 then 20 else if mbps ≥ 100 then 200 else 2000

/-- The link cost of a port (R340). -/
def State.linkCost (s : State) (n : Nat) : Nat :=
  if s.get (HFP_ADJ_COST n) = 0 then rateCost (rateOf n (s.get (PRT_MODE_MEDIA n)) (s.get (PRT_LINK_STATUS_SPEED_ACTIVE n)))
  else s.get (HFP_ADJ_COST n)

/-- The adjacency of a port (R338). -/
def State.adjState (s : State) (n : Nat) : Nat := s.get (HFP_ADJ_STATE n)

/-- The ports with a FULL adjacency. -/
def State.fullPorts (s : State) : List Nat := (List.range 64).filter fun n => s.adjState n == 3

/-- An ID that two UIDs claim (R338). -/
def State.conflicted (s : State) (f : Nat) : Bool :=
  let l := s.hfp.adj.filterMap fun e => if e.2.id = f then some e.2.uid else none
  (l.any fun u => l.any fun v => u != v) || (f == s.ownId && l.any fun u => u != Config.uid.toNat)

/-- A distance: cost and hops; the smaller cost is better, then the fewer hops. -/
def better (a b : Nat × Nat) : Bool := a.1 < b.1 || (a.1 == b.1 && a.2 < b.2)

/-- The links of the database that a path may use: origin, neighbour, cost; not through this device or an ID in
conflict. -/
def State.links (s : State) : List (Nat × Nat × Nat) :=
  s.hfp.lsdb.flatMap fun e =>
    if e.1 = s.ownId || s.conflicted e.1 then []
    else e.2.entries.filterMap fun x =>
      if x.neighbor < 32 && x.neighbor ≠ s.ownId && !s.conflicted x.neighbor then some (e.1, x.neighbor, x.cost) else none

/-- One pass over the links. -/
def relax (links : List (Nat × Nat × Nat)) (d : SMap (Nat × Nat)) : SMap (Nat × Nat) :=
  links.foldl (fun m l =>
    match SMap.find m l.1 with
    | none => m
    | some a =>
      let c := (a.1 + l.2.2, a.2 + 1)
      match SMap.find m l.2.1 with
      | some b => if better c b then SMap.insert m l.2.1 c else m
      | none => SMap.insert m l.2.1 c) d

/-- The distances from a neighbour: 32 passes reach every device. -/
def distances (links : List (Nat × Nat × Nat)) (start : Nat) : SMap (Nat × Nat) :=
  (List.range 32).foldl (fun d _ => relax links d) [(start, (0, 0))]

/-- The best route to a device: cost, hops and port; a tie goes to the lower next-hop ID, then to the lower port
(R340). `hops` lists each FULL neighbour with its port, link cost and distances. -/
def bestRoute (hops : List (Nat × Nat × Nat × SMap (Nat × Nat))) (f : Nat) : Option (Nat × Nat × Nat) :=
  (hops.foldl (fun (b : Option (Nat × Nat × Nat × Nat)) h =>
    match SMap.find h.2.2.2 f with
    | none => b
    | some d =>
      let c := h.2.2.1 + d.1
      match b with
      | some o => if c < o.1 || (c == o.1 && (h.1 < o.2.2.1 || (h.1 == o.2.2.1 && h.2.1 < o.2.2.2))) then some (c, d.2 + 1, h.1, h.2.1) else b
      | none => some (c, d.2 + 1, h.1, h.2.1)) none).map fun o => (o.1, o.2.1, o.2.2.2)

/-- Cox firmware computes the routes and writes HFP_ROUTE (R340). -/
def State.computeRoutes (s : State) : State :=
  if !s.firmware then s
  else
    let hops := (s.fullPorts.filter fun n => !s.conflicted (s.get (HFP_ADJ_NEIGHBOR n))).map fun n =>
      (s.get (HFP_ADJ_NEIGHBOR n), n, s.linkCost n, distances s.links (s.get (HFP_ADJ_NEIGHBOR n)))
    (s.each (List.range 32) fun t f =>
      match (if f = s.ownId || s.conflicted f then none else bestRoute hops f) with
      | some r => (((t.set (HFP_ROUTE_VALID f) 1).set (HFP_ROUTE_HOPS f) r.2.1).set (HFP_ROUTE_PORT f) r.2.2).set (HFP_ROUTE_COST f) (min r.1 65535)
      | none => t.clearWord (HFP_ROUTE f)).showFabric

/-- The body of an LSA (R339). -/
def lsaBody (l : Lsa) : List Byte :=
  beBytes 4 l.seq ++ beBytes 1 l.entries.length ++ [0, 0, 0]
    ++ l.entries.flatMap fun e => beBytes 1 e.neighbor ++ beBytes 1 e.port ++ beBytes 2 e.cost

/-- An LSA of an origin leaves on a port, link-local (R334, R339). -/
def State.sendLsa (s : State) (n origin : Nat) (l : Lsa) : State :=
  s.sendHfpOn n { s.hfpMsg 2 0xFF 0 0 0 (lsaBody l) with src := Fin.ofNat 32 origin }

/-- The own LSA is renewed and flooded over the FULL adjacencies (R339). -/
def State.floodOwn (s : State) : State :=
  if !(s.hfpRuns && s.firmware) then s
  else
    let l : Lsa := { seq := s.hfp.ownSeq + 1,
                     entries := s.fullPorts.map fun n => ⟨s.get (HFP_ADJ_NEIGHBOR n), n, s.linkCost n⟩ }
    let s1 := s.bset fun b => { b with ownSeq := b.ownSeq + 1, lsdb := SMap.insert b.lsdb s.ownId l }
    s1.each s.fullPorts fun t n => t.sendLsa n s.ownId l

/-- An adjacency changes state. Leaving FULL raises PEER_DOWN, entering it PEER_UP; either changes the own LSA and the
routes, and every change floods the own LSA. A neighbour that is forgotten can end an ID conflict (R338–R340). -/
def State.setAdj (s : State) (n st : Nat) : State :=
  let old := s.adjState n
  let nb := s.get (HFP_ADJ_NEIGHBOR n)
  let s1 := s.set (HFP_ADJ_STATE n) st
  let s2 := if st = 2 ∨ st = 3 then s1 else s1.set (HFP_ADJ_NEIGHBOR n) 0
  let s3 := if st = 0 then s2.bset fun b => { b with adj := SMap.erase b.adj n } else s2
  if old = 3 ∧ st ≠ 3 then ((s3.emit 0x0801 n (args nb)).floodOwn).computeRoutes
  else if old ≠ 3 ∧ st = 3 then ((s3.emit 0x0800 n (args nb)).floodOwn).computeRoutes
  else if old ≠ st then (if st = 0 then s3.floodOwn.computeRoutes else s3.floodOwn)
  else s3

/-- The port leaves UP, or EN = 0: its adjacency goes DOWN (R338). -/
def State.adjPortDown (s : State) (n : Nat) : State :=
  if s.up .fabric && s.adjState n ≠ 0 then s.setAdj n 0 else s

/-- EN = 0: every adjacency goes DOWN, nothing is routed (R335, R338). -/
def State.hfpStop (s : State) : State :=
  let s1 := s.each (List.range 64) fun t n => t.adjPortDown n
  let s2 := s1.bset fun b => { b with lsdb := [] }
  (s2.each (List.range 32) fun t f => t.clearWord (HFP_ROUTE f)).showFabric

/-! ### Requests of the bridge (R342–R345, R354) -/

/-- The words of a completion's data. -/
def wordsOf (data : List Byte) (n : Nat) : List Word := (List.range n).map fun i => BitVec.ofNat 32 (beAt data (4 * i) 4)

/-- The outgoing sequence of an initiator: 0 the host, 1 Cox. -/
def State.lockOf (s : State) (i : Nat) : Option LockSeq := if i = 0 then s.hfp.lockOut else s.hfp.lockCox

/-- Sets the outgoing sequence of an initiator. -/
def State.lockPut (s : State) (i : Nat) (l : Option LockSeq) : State :=
  if i = 0 then s.bset fun b => { b with lockOut := l } else s.bset fun b => { b with lockCox := l }

/-- The back-off of an initiator in HFP_LOCK_STATUS. -/
def backoffFld (i : Nat) : Fld := if i = 0 then HFP_LOCK_STATUS_BACKOFF_HOST else HFP_LOCK_STATUS_BACKOFF_COX

/-- A back-off of `n` steps of 125 ns starts: 62.5 ticks each (R351). -/
def State.backOff (s : State) (i n : Nat) : State :=
  (s.bset fun b => { b with backEnd := SMap.insert b.backEnd i (2 * s.refTicks + 125 * n) }).set (backoffFld i) n

/-- A sequence ends toward its initiator: the host's command completes, Cox gets a result (R350). -/
def State.lockTell (s : State) (i : Nat) (l : LockSeq) (status : Nat) (words : List Word) : State :=
  if i = 0 then s.finishRunning status 0
  else s.bset fun b => { b with results := b.results ++ [⟨1, l.result, status, words⟩] }

/-- The outgoing locked sequence of an initiator ends: the own bus is released, LOCK_REL goes to the peer, and
the initiator is told (R350, R351). RETRY counts, and starts its back-off: 2–16 µs in 125 ns steps. -/
def State.lockEnd (s : State) (i status : Nat) (words : List Word := []) : State :=
  match s.lockOf i with
  | none => s
  | some l =>
    let s0 := s.lockPut i none
    let s1 := (if l.holds then s0.set HFP_LOCK_STATUS_OUT_ACTIVE 0 else s0).lockTell i l status words
    let s2 := if status = 14 then
        let r := s1.free 32
        (r.2.inc HFP_LOCK_RETRY_COUNT).backOff i (16 + r.1.toNat % 113)
      else s1
    if l.holds && status ≠ 14 then s2.sendHfp (s2.hfpMsg 0x0C l.peer i 0 0 []) else s2

/-- The words of one span of a TLP are in (R367). -/
def State.tlpPart (s : State) (id addr status : Nat) (w : List Word) : State :=
  match SMap.find s.hfp.tlps id with
  | some x =>
    let k := (addr - x.addr) / 4
    let x' : Tlp := { x with words := x.words.take k ++ w ++ x.words.drop (k + w.length), left := x.left - 1,
                             status := if status = 0 then x.status else status }
    s.bset fun b => { b with tlps := SMap.insert b.tlps id x' }
  | none => s

/-- A TLP of the remote window completes once every HFP completion has arrived (R367). -/
def State.tlpEnd (s : State) (id : Nat) : State :=
  match SMap.find s.hfp.tlps id with
  | some x =>
    if x.left = 0 then
      { s.bset fun b => { b with tlps := SMap.erase b.tlps id, results := b.results ++ [⟨0, x.addr, x.status, x.words⟩] } with
        readData := match x.words with
          | w :: _ => w
          | [] => s.readData }
    else s
  | none => s

/-- A non-posted request completes with a status and the data of its CPL (R343, R354, R367). -/
def State.completeAsk (s : State) (a : HfpAsk) (status : Nat) (data : List Byte) : State :=
  let s0 := if status = 10 then s.inc HFP_POISONED_COUNT else if status = 11 then s.inc HFP_CPL_TIMEOUT_COUNT else s
  let words := if a.typ = 5 then wordsOf data (a.len / 4) else []
  match a.kind with
  | .access =>
    let w := if status = 0 then words else []
    { s0.bset fun b => { b with results := b.results ++ [⟨a.init, a.addr, status, w⟩] } with
      readData := match w with
        | x :: _ => x
        | [] => s0.readData }
  | .bar2 id =>
    let w := if status = 0 then words else List.replicate (a.len / 4) 0xFFFFFFFF
    let s1 := if status ≠ 0 && s0.up .host then (s0.set HIF_RWIN_LAST_STATUS status).set HIF_RWIN_STATUS_VALID 1 else s0
    (s1.tlpPart id a.addr status w).tlpEnd id
  | .cmd => s0.finishRunning status (beAt data 0 4)
  | .lock => s0.lockEnd a.init status

/-- An initiator is poisoned toward a peer (R354); the bridge's own requests never are. -/
def State.poisoned (s : State) (init peer : Nat) : Bool := init < 2 && bit (s.get (HFP_POISON_PEERS init)) peer

/-- The non-posted requests of a pair complete with POISONED (R354). -/
def State.poisonPair (s : State) (init peer : Nat) : State :=
  let hit := fun a : HfpAsk => !a.posted && a.init == init && a.peer == peer
  let l := (s.hfp.reqs.filter fun r => hit r.ask).map (·.ask) ++ s.hfp.waitReq.filter hit ++ s.hfp.stalled.filter hit
  (s.bset fun b => { b with reqs := b.reqs.filter fun r => !hit r.ask, waitReq := b.waitReq.filter fun a => !hit a,
                            stalled := b.stalled.filter fun a => !hit a }).each l
    fun t a => t.completeAsk a 10 []

/-- A Late Error Record (R353): the LATE_ERROR event, the count, and the poisoning of the pair (R354). -/
def State.lateRecord (s : State) (init peer cls tag addr seq cause : Nat) : State :=
  let body := tag % 2 ^ 16 + peer % 256 * 2 ^ 16 + init % 256 * 2 ^ 24 + addr % 2 ^ 32 * 2 ^ 32 + cause % 256 * 2 ^ 64
    + cls % 256 * 2 ^ 72 + seq % 2 ^ 32 * 2 ^ 96 + s.short 0 * 2 ^ 128
  let s1 := (s.emit 0x0804 0 body).inc HFP_LATE_RECORDS_COUNT
  if init < 2 then (s1.set (HFP_POISON_PEERS init) (setBits (s1.get (HFP_POISON_PEERS init)) peer 1 1)).poisonPair init peer
  else s1

/-- A posted write is lost with a cause (R344, R353). -/
def State.loseReq (s : State) (r : HfpReq) (cause : Nat) : State :=
  (s.bset fun b => { b with reqs := b.reqs.filter fun q => q.tag != r.tag }).lateRecord r.ask.init r.ask.peer r.ask.cls r.tag
    r.ask.addr r.seq cause

/-- The next tag that no request holds (R343); DESIGN CHOICE: in rising order. -/
def State.freeTag (s : State) : Nat :=
  (((List.range (s.hfp.reqs.length + 1)).map fun k => (s.hfp.nextTag + k) % 65536).find? fun t =>
    !(s.hfp.reqs.any fun r => r.tag == t)).getD 0

/-- The body of a request (R333). -/
def requestBody (a : HfpAsk) : List Byte :=
  if a.typ = 0x0A then a.data
  else beBytes 4 (a.addr % 2 ^ 26) ++ beBytes 2 a.len ++ beBytes 1 a.init ++ [0] ++ a.data

/-- A request leaves with its tag and SEQ; HFP_SEQ_GAP discards it after it took its SEQ (R343, R344, R362). -/
def State.sendAsk (s : State) (a : HfpAsk) : State :=
  let tag := s.freeTag
  let k := 4 * a.peer + a.cls
  let seq := SMap.get s.hfp.txSeq 0 k
  let r : HfpReq := { ask := a, tag := tag, seq := seq, route := (s.rd (HFP_ROUTE a.peer)).toNat }
  let s1 := s.bset fun b => { b with reqs := b.reqs ++ [r], nextTag := (tag + 1) % 65536,
                                     txSeq := SMap.put b.txSeq 0 k ((seq + 1) % 2 ^ 32) }
  if a.cls = 0 && s1.injArmedFor 22 a.peer then s1.injSpend 22
  else s1.sendHfp (s1.hfpMsg a.typ a.peer a.cls seq tag (requestBody a))

/-- The depth of the queue for posted or non-posted requests of a class (R346). -/
def queueDepth (cls : Nat) (posted : Bool) : Nat := if cls = 0 then (if posted then 64 else 32) else 8

/-- No further non-posted request may be outstanding: 256 are (R343). DESIGN CHOICE: class 0 leaves eight of them to each of the
classes 1 to 3, which it never stalls (R346). -/
def State.npFull (s : State) (cls : Nat) : Bool :=
  let l := s.hfp.reqs.filter fun r => !r.ask.posted
  l.length ≥ 256 || (cls == 0 && (l.filter fun r => r.ask.cls == 0).length ≥ 232)

/-- A request must wait: too many non-posted requests are outstanding, the route to its peer has changed under earlier ones,
or an earlier one of its initiator to that peer waits (R343, R345). -/
def State.mustWait (s : State) (a : HfpAsk) : Bool :=
  (!a.posted && s.npFull a.cls)
  || (s.hfp.reqs.any fun r => r.ask.peer == a.peer && r.route != (s.rd (HFP_ROUTE a.peer)).toNat)
  || ((s.hfp.waitReq ++ s.hfp.stalled).any fun w => w.peer == a.peer && w.init == a.init && w.cls == a.cls)

/-- A request waits in the bridge's queue of its class, or in its initiator while that queue is full or holds an earlier one back
(R343, R345, R346). -/
def State.askWaits (s : State) (a : HfpAsk) : State :=
  if !(s.hfp.stalled.any fun w => w.peer == a.peer && w.init == a.init && w.cls == a.cls)
      && (s.hfp.waitReq.filter fun w => w.cls == a.cls && w.posted == a.posted).length < queueDepth a.cls a.posted then
    s.bset fun b => { b with waitReq := b.waitReq ++ [a] }
  else s.bset fun b => { b with stalled := b.stalled ++ [a] }

/-- An initiator gives the bridge a request (R342, R354). The SEQ of a write that is never sent is left open. DESIGN CHOICE: in
Boathouse, where the device sends no request of its own (R336), it ends as one without a route. -/
def State.ask (s : State) (a : HfpAsk) : State :=
  if !a.posted && s.poisoned a.init a.peer then s.completeAsk a 10 []
  else if s.power = 2 || !bit (s.get HFP_REACH_PEERS) a.peer then
    (if a.posted then
      let r := s.free 32
      r.2.lateRecord a.init a.peer a.cls r.2.freeTag a.addr r.1.toNat 11
     else s.completeAsk a 12 [])
  else if s.mustWait a then s.askWaits a
  else s.sendAsk a

/-- The waiting requests are tried again, in order (R343, R345). -/
def State.retryAsks (s : State) : State :=
  (s.bset fun b => { b with waitReq := [], stalled := [] }).each (s.hfp.waitReq ++ s.hfp.stalled) fun t a => t.ask a

end Sys2Proof.Machine
end

