-- ==== Sys2Proof/Machine/LaneOps.lean ====
section
/-! DEFINITION. Lane service (R205–R211), guard bands and preemption (R221–R226), and the selection of the next copy
(R207–R209). -/
namespace Sys2Proof.Machine

/-! ### Lengths and rates (R138, R206) -/

/-- The rate of a port in kbit/s (R206). -/
def State.portRate (s : State) (n : Nat) : Nat :=
  if n < 64 then rateOf n (s.get (PRT_MODE_MEDIA n)) (s.get (PRT_LINK_STATUS_SPEED_ACTIVE n)) * 1000
  else if n = 64 then 50000000 else if n = 66 ∨ n = 69 then 2000000 else if n = 67 then 40000000 else 1000000

/-- The octets of a copy as it leaves, without FCS and MACsec: forwarded copies are edited (R131). -/
def State.copyBytes (s : State) (n : Nat) (c : Copy) (h : Handle) : List Byte :=
  if c.kind ≠ 0 then h.bytes
  else editFrame h.bytes (untagsOn (vlanOf (s.bankOf h.epoch) h.vid) n) h.untagged h.vid h.prio h.rtag h.pop

/-- The stored length of a frame; while it is still written, the length that R108 computed. -/
def State.storedLen (s : State) (h : Handle) : Nat :=
  if h.state = 0 then (((SMap.find s.fab.rx (rxKey h.port h.frame)).bind (·.size)).getD (h.bytes.length + 4)) else h.bytes.length + 4

/-- The egress length of a copy (R138). -/
def State.egressLen (s : State) (n : Nat) (c : Copy) (h : Handle) : Nat :=
  s.storedLen h + (s.copyBytes n c h).length - h.bytes.length

/-- The octets that a copy which starts has to send. DESIGN CHOICE (log 114): one of a frame that still arrives and whose length R108
could not compute counts with the class maximum of its port until the frame's last byte has come. -/
def State.spanOf (s : State) (n : Nat) (c : Copy) (h : Handle) : Nat :=
  if h.state = 0 && ((SMap.find s.fab.rx (rxKey h.port h.frame)).bind (·.size)).isNone then classMax n else s.egressLen n c h

/-- The charged length of a copy (R206); a copy whose handle is gone charges nothing. -/
def State.charged (s : State) (n : Nat) (c : Copy) : Nat :=
  match s.handle c.handle with
  | none => 0
  | some h => s.egressLen n c h + (if n < 64 then 20 else 0) + (if s.txSecure n then 32 else 0)

/-! ### MAC merge (R221, R222) -/

/-- The MAC merge sublayer of a port is active. -/
def State.mmActive (s : State) (n : Nat) : Bool := n < 32 && s.on (LNE_MM_STATUS_ACTIVE n)

/-- The class-10 entry that serves a port: the one of before a swap until the port's next frame boundary (R205). -/
def State.laneEntry (s : State) (n : Nat) : Nat := (s.svc n).entry.getD (s.tab 10 n)

/-- The lanes of a port that are preemptable now (R222). -/
def State.preemptMask (s : State) (n : Nat) : Nat := if s.mmActive n then ebits (s.laneEntry n) 34 0 8 else 0

/-- Shows the lane service of a port in LNE_LANE_STATUS: that of the active bank. -/
def State.showLanes (s : State) (n : Nat) : State :=
  let e := s.tab 10 n
  ((s.set (LNE_LANE_STATUS_PREEMPT n) (if s.mmActive n then ebits e 34 0 8 else 0)).set (LNE_LANE_STATUS_STRICT n) (ebits e 32 0 8)).set
    (LNE_LANE_STATUS_RESERVED n) (s.reservedMask n)

/-- Sets ACTIVE and VERIFY of a port. -/
def State.setMm (s : State) (n : Nat) (active : Bool) (verify : Nat) : State :=
  ((s.put (LNE_MM_STATUS_ACTIVE n) active).set (LNE_MM_STATUS_VERIFY n) verify).showLanes n

/-- Entry into UP: MM_EN takes effect, and verification begins (R222). -/
def State.mmLinkUp (s : State) (n : Nat) : State :=
  if n ≥ 32 || !s.up .fabric then s
  else if s.get (LNE_MM_CFG_MM_EN n) = 0 ∨ s.get (PRT_MODE_MEDIA n) ≠ 0 then s.setMm n false 0
  else if s.on (LNE_MM_CFG_VERIFY_DIS n) then s.setMm n true 5
  else (s.fset fun f => { f with verify := SMap.put f.verify 0 n 1 }).setMm n false 2

/-- The port leaves UP. -/
def State.mmLinkDown (s : State) (n : Nat) : State :=
  if n ≥ 32 || !s.up .fabric then s else (s.fset fun f => { f with verify := SMap.put f.verify 0 n 0 }).setMm n false 0

/-! ### Gates over time (R215, R216, R223) -/

/-- The time from `acc` on until lane `l` closes, or for a preemptable lane until the MAC becomes held (R223): `ops` in
the order in which they come. -/
def closeTime (l : Nat) (preempt : Bool) : List (GateOp × Nat) → Bool → Nat → Option Nat
  | [], _, _ => none
  | (o, d) :: t, held, acc =>
    if !bit o.gates l then some acc
    else if preempt && o.op == 1 && !held then some acc
    else closeTime l preempt t (if o.op = 1 then true else if o.op = 2 then false else held) (acc + d)

/-- time_to_close of lane `l` of port `n` in ns; `none` when it is unbounded (R223). Two cycles suffice. -/
def State.timeToClose (s : State) (n l : Nat) (preempt : Bool) : Option Nat :=
  match s.gateList n, SMap.find s.fab.gates n with
  | some g, some st =>
    let sp := gateSpans g.cycle g.ops 0
    closeTime l preempt (sp.drop (st.index + 1) ++ sp ++ sp) (s.on (GTE_STATUS_MAC_HELD n)) (shortDiff st.next (s.short g.domain)).toNat
  | _, _ => none

/-- A copy of `c` charged bytes passes the guard band of lane `l` (R224, R225). -/
def State.guardPass (s : State) (n l c : Nat) : Bool :=
  let preempt := bit (s.preemptMask n) l
  let len := if preempt then min c (64 * (s.get (LNE_MM_CFG_ADD_FRAG n) + 1) + 20) else c
  match s.timeToClose n l preempt with
  | none => true
  | some t => len * 8 * 10 ^ 6 ≤ t * s.portRate n

/-! ### Eligibility and selection (R207–R211) -/

/-- The shaper entry of a lane. -/
def State.shaperEntry (s : State) (n l : Nat) : Nat := s.tab 8 (8 * n + l)

/-- The level of a lane's shaper now (R211). -/
def State.shaperLevel (s : State) (n l : Nat) : Int :=
  let e := s.shaperEntry n l
  s.refilled s.fab.shapers (8 * n + l) (ebits e 0 0 32) (ebits e 4 0 24)

/-- The shaper admits a copy of `c` charged bytes (R211). -/
def State.shaperAdmits (s : State) (n l c : Nat) : Bool :=
  let e := s.shaperEntry n l
  ebits e 0 0 32 == 0 || decide (s.shaperLevel n l ≥ min c (ebits e 4 0 24) * bucketByte)

/-- A copy that starts is charged to its shaper (R211). -/
def State.shaperCharge (s : State) (n l c : Nat) : State :=
  if ebits (s.shaperEntry n l) 0 0 32 = 0 then s
  else s.fset fun f => { f with shapers := SMap.insert f.shapers (8 * n + l) ⟨s.shaperLevel n l - c * bucketByte, s.refTicks⟩ }

/-- A copy may begin (R145): its frame is complete, or it cuts through. A copy whose frame is gone is taken and dropped. -/
def State.canBegin (s : State) (n : Nat) (c : Copy) : Bool :=
  match s.handle c.handle with
  | none => true
  | some h => h.state ≠ 0 || (n < 32 && s.portRate n ≤ s.portRate h.port && !s.txSecure n)

/-- The port serves: UP, or internal (R207). -/
def State.portServes (s : State) (n : Nat) : Bool := n ≥ 64 || s.get (PRT_LINK_STATUS_STATE n) == 4

/-- Everything of R207 but the guard band holds for lane `l`. -/
def State.eligibleButGuard (s : State) (n l : Nat) : Bool :=
  match s.lane n l with
  | [] => false
  | c :: _ =>
    s.canBegin n c && s.portServes n && s.gateOpen n l && !s.heldLane n l && s.shaperAdmits n l (s.charged n c)
      && (!bit (s.preemptMask n) l || (!s.on (GTE_STATUS_MAC_HELD n) && (s.svc n).rest.isNone))

/-- Lane `l` is eligible (R207). -/
def State.eligible (s : State) (n l : Nat) : Bool :=
  s.eligibleButGuard n l && s.guardPass n l (((s.lane n l).head?.map (s.charged n)).getD 0)

/-- The round robin of R208 over the eligible lanes: the lane, and the state it leaves. 1,300 visits cover every round
that a copy can need with the smallest quantum. -/
def drr (elig : Nat → Bool) (charge quantum : Nat → Nat) : Nat → PortLanes → Option Nat × PortLanes
  | 0, v => (none, v)
  | k + 1, v =>
    let l := v.ptr
    let v1 := if elig l && !SMap.get v.visited false l then
        { v with deficit := SMap.put v.deficit 0 l (SMap.get v.deficit 0 l + quantum l), visited := SMap.put v.visited false l true }
      else v
    if elig l && SMap.get v1.deficit 0 l ≥ charge l then
      (some l, { v1 with deficit := SMap.put v1.deficit 0 l (SMap.get v1.deficit 0 l - charge l) })
    else drr elig charge quantum k { v1 with visited := SMap.put v1.visited false l false, ptr := (l + 7) % 8 }

/-- A selection within a set of lanes (R208): the lane, the service it leaves, and whether the round robin made it. -/
def State.selectIn (s : State) (n mask : Nat) : Option (Nat × PortLanes × Bool) :=
  let strict := ebits (s.laneEntry n) 32 0 8
  let elig := fun l => bit mask l && s.eligible n l
  let v := s.svc n
  match [7, 6, 5, 4, 3, 2, 1, 0].find? fun l => bit strict l && elig l with
  | some l => some (l, v, false)
  | none =>
    let e2 := fun l => !bit strict l && elig l
    if (List.range 8).any e2 then
      let r := drr e2 (fun l => ((s.lane n l).head?.map (s.charged n)).getD 0) (fun l => ebits (s.laneEntry n) (4 * l) 0 17) 1300 v
      r.1.map fun l => (l, r.2, true)
    else none

/-- The express lanes of a port. -/
def State.expressMask (s : State) (n : Nat) : Nat := 255 - s.preemptMask n

/-- The next copy of a port (R208): express first, then preemptable. -/
def State.selectLane (s : State) (n : Nat) : Option (Nat × PortLanes × Bool) :=
  match s.selectIn n (s.expressMask n) with
  | some r => some r
  | none => s.selectIn n (s.preemptMask n)

/-- A selection instant at which some lane waits only for its guard band counts (GTE_GUARD_DEFER). -/
def State.countDefer (s : State) (n : Nat) : State :=
  if (List.range 8).any fun l => s.eligibleButGuard n l && !s.eligible n l then s.inc (GTE_GUARD_DEFER_COUNT n) else s

/-- A frame boundary, with no copy in transmission and no remainder waiting: a change of class 10 takes effect, every deficit at 0 and
ptr at 7 (R52, R205, R209). -/
def State.frameBoundary (s : State) (n : Nat) : State :=
  let v := s.svc n
  if v.entry.isSome && v.sending.isNone && v.rest.isNone then
    (s.svcSet n fun v => { v with entry := none, ptr := 7, deficit := [] }).showLanes n
  else s

/-- The octets of a copy that have been sent at the first point at which Clause 99 lets it be preempted (R221, R225): at least the
minimum fragment, whose last 4 octets are its mCRC; none where less than 64 octets would remain. -/
def State.cutPoint (s : State) (n : Nat) (x : Sending) : Option Nat :=
  let gone := (s.refTicks - x.since) * 2 * s.portRate n / 8000000
  let k := max gone (64 * (s.get (LNE_MM_CFG_ADD_FRAG n) + 1) - 4)
  if k + 64 ≤ x.left then some k else none

/-- A preemptable copy in transmission is preempted where Clause 99 still permits it (R225); else it goes on to its end. -/
def State.preemptNow (s : State) (n : Nat) : State :=
  match (s.svc n).sending with
  | none => s
  | some x =>
    match s.cutPoint n x with
    | none => s
    | some k => (s.svcSet n fun v => { v with rest := some { x with left := x.left - k }, sending := none }).inc (LNE_MM_FRAG_TX_COUNT n)

/-- What holds the lane of the copy in transmission shut: bit 0 the list, bit 1 GTE_HOLD, bit 2 for a preemptable copy a held MAC. -/
def State.shutFor (s : State) (n : Nat) (x : Sending) : Nat :=
  (if s.gateOpen n x.copy.lane then 0 else 1) + (if s.heldLane n x.copy.lane then 2 else 0)
    + (if x.preempt && s.on (GTE_STATUS_MAC_HELD n) then 4 else 0)

/-- What the closing of a gate, a hold or the swap of a list does to the copy in transmission (R219, R220, R225, R226): an express copy
counts and finishes; a preemptable one is preempted by whatever comes to hold it, but for a swap, after which it finishes. -/
def State.gateMoved (s : State) (n : Nat) (swap : Bool) : State :=
  match (s.svc n).sending with
  | none => s
  | some x =>
    let shut := s.shutFor n x
    if shut == x.late then s
    else
      let s1 := s.svcSet n fun v => { v with sending := some { x with late := shut } }
      if !x.preempt then (if x.late = 0 then s1.inc (GTE_LATE_END_COUNT n) else s1)
      else if swap || (List.range 3).all fun k => !bit shut k || bit x.late k then s1
      else s1.preemptNow n

/-- What a closed gate, a held MAC or a hold does to the copy in transmission outside a swap (R225, R226). -/
def State.cutSending (s : State) (n : Nat) : State := s.gateMoved n false

/-- The preempted remainder may resume (R225): its gate is open, the MAC is released, and no express copy waits. -/
def State.restMayResume (s : State) (n : Nat) : Bool :=
  (s.svc n).rest.any fun x =>
    s.gateOpen n x.copy.lane && !s.heldLane n x.copy.lane && !s.on (GTE_STATUS_MAC_HELD n)
      && (List.range 8).all fun l => !bit (s.expressMask n) l || (s.lane n l).isEmpty

/-- Every port's gates follow the time or the table again (R215–R220), and copies in transmission with them. -/
def State.gateChanged (s : State) (n : Nat) : State := (s.gateRecompute n).cutSending n

/-! ### Bad frames (R110, R120, R146) -/

/-- The 4 octets of the FCS over a frame (IEEE 802.3 CRC-32, least significant octet first; PRESUMED: the spec names
the FCS only). -/
def fcsOf (b : List Byte) : List Byte :=
  leBytes 4 ((b.foldl (fun c x => fcsBits 8 (c ^^^ x.toNat)) 0xFFFFFFFF) ^^^ 0xFFFFFFFF)

/-- The copy in `o` is of handle `h`. -/
def isOf (h : Nat) (o : Option Sending) : Bool := o.any fun x => x.copy.handle == h

/-- A copy in transmission, or its preempted remainder, is ended on port `n` (R146): its octets, an error code-group or /E/, and a
complemented FCS on the line, FWD_CT_ABORTED on ports 0–31, and no egress record (R275). DEDUCED: on an internal port it is delivered
nowhere. -/
def State.abortOn (s : State) (n : Nat) (x : Sending) : State :=
  let sent := x.out.getD (((s.handle x.copy.handle).map (s.copyBytes n x.copy)).getD [])
  let clean := fun (o : Option Sending) => if isOf x.copy.handle o then none else o
  let s1 := s.svcSet n fun v => { v with sending := clean v.sending, rest := clean v.rest }
  let coded := s.get (PRT_MODE_MEDIA n) == 1
  let ended := fun (f : Fabric) => { f with
    lineOut := f.lineOut ++ [(n, sent ++ (fcsOf sent).map (~~~ ·))], lineErr := f.lineErr ++ [(n, coded)] }
  let s2 := if n < 64 then s1.fset ended else s1
  let s3 := s2.dropStamps (some n) x.copy.handle
  (if n < 32 then s3.inc (FWD_CT_ABORTED_COUNT n) else s3).copyLeaves x.copy

/-- Every copy of handle `h` that has begun is ended. -/
def State.abortCopies (s : State) (h : Nat) : State :=
  s.each ((s.fab.service.flatMap fun e => ([e.2.sending, e.2.rest].filterMap id).map fun x => (e.1, x)).filter fun e =>
    e.2.copy.handle == h) fun t e => t.abortOn e.1 e.2

end Sys2Proof.Machine
end

