-- ==== Sys2Proof/Machine/KeyOps.lean ====
section
/-! DEFINITION. The key unit (chapter 13): seeds, slots, blobs, the running PNs, and the effects of lifecycle changes. -/
namespace Sys2Proof.Machine

/-- `n` octets that the spec leaves open: TRNG or DRBG output (R421, R427). -/
def State.freeBytes (s : State) (n : Nat) : List Byte × State :=
  let r := s.free (8 * n)
  (beBytes n r.1.toNat, r.2)

/-- The order of P-521 (FIPS 186-5). PRESUMED: the manual names n only. -/
def p521n : Nat :=
  0x01FFFFFFFFFFFFFFFFFFFFFFFFFFFFFFFFFFFFFFFFFFFFFFFFFFFFFFFFFFFFFFFFFFFA51868783BF2F966B7FCC0148F709A5D03BB5C9B8899C47AEBB6FB71E91386409

/-- A P-521 private key from 74 octets (R413). -/
def scalarOf (b : List Byte) : List Byte := beBytes 66 (beNat b % (p521n - 1) + 1)

/-- The blob key (R413). -/
def State.blobKey (s : State) : List Byte := Config.hkdf s.key.ownerSeed uidBytes (ascii "VF6425 BLOB") 32

/-- The identity key (R413). -/
def identityKey : List Byte := scalarOf (Config.hkdf Config.fuseSeed uidBytes (ascii "VF6425 DEVID") 74)

/-- A slot as octets: VALID, ORIGIN, TYPE, USAGE, EXPORT, LABEL and KEY. -/
def slotMake (origin ty usage export_ label : Nat) (key : List Byte) : Nat :=
  leNat ([1, BitVec.ofNat 8 origin, BitVec.ofNat 8 ty, BitVec.ofNat 8 usage, BitVec.ofNat 8 export_, 0, 0, 0]
    ++ leBytes 4 label ++ [0, 0, 0, 0] ++ sliceBytes key 0 80)

/-- TYPE of a slot. -/
def slotType (e : Nat) : Nat := ebits e 2 0 8
/-- USAGE of a slot. -/
def slotUsage (e : Nat) : Nat := ebits e 3 0 8
/-- EXPORT of a slot. -/
def slotExport (e : Nat) : Bool := ebit e 4 0

/-- The pairs of TYPE and USAGE of R416. -/
def pairOk (ty usage : Nat) : Bool :=
  (ty == 0 && usage ≤ 3) || (ty == 1 && usage == 3) || (ty == 2 && (usage == 3 || usage == 4))

/-- A slot that commands use: the identity in slot 0, RRAM for 1–7, the active bank otherwise. -/
def State.slot (s : State) (i : Nat) : Nat :=
  if i = 0 then (if s.key.idLost then 0 else slotMake 0 2 4 0 0 identityKey) else s.slotIn s.fab.active i

/-- The bank entry that a command would write: RRAM or the staged bank (R415). -/
def State.slotTarget (s : State) (i : Nat) : Nat := s.slotIn s.fab.staged i

/-- A slot of RRAM is worn (R502). -/
def State.slotWorn (s : State) (i : Nat) : Bool := 1 ≤ i && i < 8 && s.worn (.keySlot i)

/-- What slot `i` showed wrong before is gone with its new contents (R439). -/
def State.slotSound (s : State) (i : Nat) : State :=
  s.kset fun k => { k with slotErr := SMap.erase k.slotErr i, badSeals := k.badSeals.filter (· ≠ i) }

/-- Writes a slot: a persistent write into RRAM, or the staged bank (R415). -/
def State.slotWrite (s : State) (i e : Nat) : State :=
  if i < 8 then s.pwRequest [⟨.keySlot i, e⟩] else (s.fset fun f => { f with staged := bankPut f.staged 15 i e }).showStaged 15

/-- What follows from a change of the slots: an SA without its key is not valid, and its KEY_SA_PN reads 0 (R426). -/
def State.sasFollow (s : State) : State :=
  (s.each ((List.range 256).filter fun a => !s.saValid a) fun t a =>
    (t.set (KEY_SA_PN_PN a) 0).kset fun k => { k with limitHit := k.limitHit.filter (· ≠ a) }).each (List.range 32) fun t n => t.showMac n

/-- A slot acts as destroyed from now on: zeros in RRAM or in both banks; slot 0 is lost until the next start (R426, R439). -/
def State.slotGone (s : State) (i : Nat) : State :=
  if i = 0 then s.kset fun k => { k with idLost := true }
  else if i < 8 then (s.slotStored i 0).sasFollow
  else ((s.slotSound i).fset fun f => { f with active := bankPut f.active 15 i 0, staged := bankPut f.staged 15 i 0 }).sasFollow

/-- The slot memory takes an error, which shows at the next read of the slot or, for a seal, at the next load (R439). -/
def State.slotUpset (s : State) (u : SlotUpset) : State :=
  let i := u.slot.toNat
  s.kset fun k =>
    if u.kind = 2 then (if 1 ≤ i && i < 8 then { k with badSeals := k.badSeals.filter (· ≠ i) ++ [i] } else k)
    else { k with slotErr := SMap.put k.slotErr 0 i (max (SMap.get k.slotErr 0 i) (u.kind.val + 1)) }

/-! ### Blobs (R418, R419) -/

/-- The 48 octets of a blob that its tag covers beside the key. -/
def blobHead (ty usage export_ label : Nat) (iv : List Byte) : List Byte :=
  beBytes 4 0x464B4231 ++ beBytes 1 1 ++ beBytes 1 ty ++ beBytes 1 usage ++ beBytes 1 export_ ++ beBytes 2 (keyLen ty) ++ [0, 0]
    ++ beBytes 4 label ++ uidBytes ++ sliceBytes iv 0 12 ++ leBytes 12 0

/-- The device blob of a slot under an IV. -/
def State.makeBlob (s : State) (e : Nat) (iv : List Byte) : List Byte :=
  let hdr := blobHead (slotType e) (slotUsage e) (ebits e 4 0 8) (ebits e 8 0 32) iv
  hdr ++ sliceBytes (Config.gcmSeal s.blobKey iv hdr (leBytes 80 (ebits e 16 0 640))) 0 96

/-- The slot that a blob holds, when it is accepted (R419). -/
def State.openBlob (s : State) (b : List Byte) : Option Nat :=
  let ty := beAt b 5 1
  let usage := beAt b 6 1
  if beAt b 0 4 ≠ 0x464B4231 ∨ beAt b 4 1 ≠ 1 ∨ beAt b 16 8 ≠ Config.uid.toNat ∨ ty > 2 ∨ !pairOk ty usage ∨ beAt b 8 2 ≠ keyLen ty then none
  else match Config.gcmOpen s.blobKey (sliceBytes b 24 12) (sliceBytes b 0 48) (sliceBytes b 48 96) with
    | none => none
    | some k =>
      if (k.drop (keyLen ty)).any (· != 0) then none
      else some (slotMake 2 ty usage (beAt b 7 1 % 2) (beAt b 12 4) (sliceBytes k 0 80))

/-! ### Running PNs (R430, R433, R438) -/

/-- At PD6 power-down the running PN of every valid SA goes to AON (R438). -/
def State.savePns (s : State) : State :=
  if !s.up .key then s
  else s.kset fun k => { k with savedPn := ((List.range 256).filter s.saValid).map fun a => (a, s.saPn a) }

/-- The PN that an SA starts with at power-up: the kept one, 2^16 further when it transmits (R438). One that was exhausted, that has no PN
left so far on, or whose AON copy is lost starts exhausted: a PN is never used twice (R433). -/
def State.restorePn (s : State) (a : Nat) : State :=
  let e := s.saEntry a
  let top := pnMax (ebit e 0 2)
  let start := match SMap.find s.key.savedPn a with
    | some p => if !ebit e 0 1 then p else if p = 0 ∨ p + 2 ^ 16 > top then 0 else p + 2 ^ 16
    | none => 0
  s.set (KEY_SA_PN_PN a) (if s.saValid a then start else 0)

/-- At a swap of class 15 a changed SA starts at its staged PN, an SA that is not valid reads 0 (R41, R430). What the changed ones read
before is kept for frames whose SecTAG was read before the swap. -/
def State.saSwapped (s0 : State) (old : SMap Nat) : State :=
  let changed := (List.range 256).filter fun a => bankGet old 15 (256 + a) ≠ s0.saEntry a
  let s := s0.kset fun k => { k with oldPn := changed.map fun a => (a, s0.saPn a) }
  let s1 := s.each (List.range 256) fun t a =>
    if !t.saValid a then (t.set (KEY_SA_PN_PN a) 0).kset fun k => { k with limitHit := k.limitHit.filter (· ≠ a) }
    else if bankGet old 15 (256 + a) = t.saEntry a then t
    else (t.set (KEY_SA_PN_PN a) (ebits (t.saEntry a) 8 0 64)).kset fun k => { k with limitHit := k.limitHit.filter (· ≠ a) }
  (s1.kset fun k => { k with closed := false, slotErr := k.slotErr.filter (·.1 < 8) }).each (List.range 32) fun t n => t.showMac n

/-! ### Lifecycle (R412, R414) -/

/-- OWNER_SEED is drawn (R412). -/
def State.drawSeed (s : State) : State :=
  let r := s.freeBytes 32
  r.2.kset fun k => { k with ownerSeed := r.1 }

/-- Every banked slot and SA goes, in both banks (R414). -/
def State.zeroKeys (s : State) : State :=
  let keep := fun (b : SMap Nat) => b.filter fun e => !(e.1 / 2 ^ 20 == 15 && e.1 % 2 ^ 20 < 512)
  let img := fun (m : SMap (SMap Nat)) => m.map fun e => if e.1 % 4 = 2 then (e.1, keep e.2) else e
  let s1 := { s.fset fun f => { f with active := keep f.active, staged := keep f.staged, old := keep f.old } with
              dram := { s.dram with images := img s.dram.images } }
  s1.each (List.range 256) fun t a => t.set (KEY_SA_PN_PN a) 0

/-- Entry into RETURNED, or with `owned` into OWNED (R414): the erased slots are erased in RRAM before the command completes, which wears
them (R501, R502). A slot that stays is sealed under the old seed, and its seal fails at the next load (R413, R439). -/
def State.keysChanged (s : State) (owned : Bool) : State :=
  let gone := (s.key.slots.map (·.1)).filter fun i => !owned || s.key.fromManufacture.contains i
  let s1 := gone.foldl (fun t i => (t.countWear (.keySlot i)).slotStored i 0) s.drawSeed.zeroKeys
  s1.kset fun k => { k with fromManufacture := [], slotErr := [] }

/-- The first start in MANUFACTURE draws OWNER_SEED (R412). -/
def State.firstSeed (s : State) : State :=
  if s.key.ownerSeed.isEmpty && s.get COX_LIFECYCLE_STATE == 0 then s.drawSeed else s

/-- KEY_FAULT (R421, R438, R439). -/
def State.keyFault (s : State) (slot cause : Nat) : State := s.emit 0x0902 0 (args slot cause)

end Sys2Proof.Machine
end

