-- ==== Sys2Proof/Machine/Heat.lean ====
section
/-! DEFINITION. Heat, deadline admission (chapter 7): exact rational arithmetic over a candidate configuration, the
bounds, the refusal records and the quotas (R231–R254). -/
namespace Sys2Proof.Machine

/-! ### Exact fractions -/

/-- The fraction `n / d` in lowest terms; 0 over 0 counts as 0. -/
def fr (n : Int) (d : Nat := 1) : Frac :=
  let g := Nat.gcd n.natAbs d
  if d = 0 ∨ g = 0 then ⟨0, 1⟩ else ⟨n / (g : Int), d / g⟩

/-- Sum. -/
def fadd (a b : Frac) : Frac := fr (a.num * b.den + b.num * a.den) (a.den * b.den)
/-- Difference. -/
def fsub (a b : Frac) : Frac := fr (a.num * b.den - b.num * a.den) (a.den * b.den)
/-- Product. -/
def fmul (a b : Frac) : Frac := fr (a.num * b.num) (a.den * b.den)
/-- Quotient; by 0 it is 0. -/
def fdiv (a b : Frac) : Frac := if b.num < 0 then fr (-(a.num * b.den)) (a.den * b.num.natAbs) else fr (a.num * b.den) (a.den * b.num.natAbs)
/-- Strictly less. -/
def flt (a b : Frac) : Bool := decide (a.num * b.den < b.num * a.den)
/-- The larger of two. -/
def fmax (a b : Frac) : Frac := if flt a b then b else a
/-- The smaller of two. -/
def fmin (a b : Frac) : Frac := if flt a b then a else b
/-- The largest integer not above. -/
def ffloor (a : Frac) : Int := a.num / (a.den : Int)
/-- The smallest integer not below. -/
def fceil (a : Frac) : Int := -((-a.num) / (a.den : Int))
/-- The sum of a list. -/
def fsum (l : List Frac) : Frac := l.foldl fadd ⟨0, 1⟩

/-! ### Declarations (R235, R241) -/

/-- A valid declaration with what its stream entry says of it: LANE, and whether the stream check and the length check of
R251 and R248 pass. -/
structure HDecl where
  idx : Nat
  entry : Nat
  stream : Nat
  inPort : Nat
  maxF : Nat
  minF : Nat
  interval : Nat
  frames : Nat
  deadline : Nat
  egress : List Nat
  se : Nat
  lane : Nat
  streamOk : Bool
  lenOk : Bool
  gen : Bool
  deriving DecidableEq, Repr

/-- The valid declarations of a bank, in index order. -/
def declsOf (b : SMap Nat) : List HDecl :=
  (listed b 14).filterMap fun e =>
    if !ebit e.2 2 0 then none
    else
      let k := ebits e.2 0 0 12
      let se := bankGet b 6 k
      let inp := ebits e.2 3 0 8
      let mx := ebits se 14 0 16
      some { idx := e.1, entry := e.2, stream := k, inPort := inp, maxF := ebits e.2 4 0 16, minF := ebits e.2 6 0 16,
             interval := ebits e.2 8 0 32, frames := ebits e.2 12 0 16, deadline := ebits e.2 16 0 32,
             egress := (List.range 70).filter fun n => bit (ebits e.2 24 0 128) n, se := se, lane := ebits se 12 0 3,
             streamOk := ebit se 9 0 && streamPort se inp, lenOk := mx ≠ 0 && mx ≤ ebits e.2 4 0 16,
             gen := (frerFn b k 1).isSome }

/-- The rate of a port by its mode, in Mbit/s (R232). -/
def State.heatRate (s : State) (n : Nat) : Nat :=
  if n < 64 then rateOf n (s.get (PRT_MODE_MEDIA n)) (s.get (PRT_MODE_SPEED n))
  else s.portRate n / 1000

/-- T(x) on a port, in ns (R238). -/
def State.tx (s : State) (n x : Nat) : Frac := fr (8000 * x) (s.heatRate n)

/-- MACsec on ingress (bit 1) or egress (bit 0) of a port in a bank. -/
def macOn (b : SMap Nat) (n k : Nat) : Bool := n < 32 && ebit (bankGet b 15 (512 + n)) 0 k

/-- The overhead that R206 charges on a port. -/
def overhead (b : SMap Nat) (n : Nat) : Nat := (if n < 64 then 20 else 0) + (if macOn b n 0 then 32 else 0)

/-- PHY latencies of a port: PHY_RX and PHY_TX (R239). -/
def State.phy (s : State) (n : Nat) : Nat × Nat :=
  let sp := s.get (PRT_MODE_SPEED n)
  if n ≥ 64 then (0, 0)
  else if n ≥ 32 then (2000, 1200)
  else if n ≥ 8 then (if sp = 0 then (2400, 800) else (1500, 700))
  else if s.get (PRT_MODE_MEDIA n) = 0 then
    (if sp = 0 then (400, 200) else if sp = 1 then (600, 250) else if sp = 2 then (1000, 400) else (1800, 700))
  else if sp = 0 then (if s.get (PRT_MODE_RS_FEC n) = 0 then (150, 100) else (350, 180))
  else if sp = 1 then (150, 100) else (250, 150)

/-- T_IN of a declaration (R238). -/
def State.tIn (s : State) (b : SMap Nat) (d : HDecl) : Frac :=
  if d.inPort ≥ 64 then ⟨0, 1⟩ else s.tx d.inPort (d.maxF + (if macOn b d.inPort 1 then 32 else 0))

/-- F of a path in tenths of a nanosecond (R240): the 200 ns of the Umpire on every path (R188, the term 2000) and the
crossings of R29. -/
def pathF (b : SMap Nat) (i p : Nat) : Nat :=
  (if i < 64 then 128 else if i = 66 then 100 else if i = 65 then 125 else if i = 64 then 120 else 0)
    + 2000 + 48 + 320 + 32 + 40 + (if p < 64 then 64 else if p = 66 then 100 else if p = 64 then 120 else 0)
    + (if macOn b i 1 then 100 else 0) + (if macOn b p 0 then 100 else 0)

/-- E of a declaration (R241). -/
def HDecl.e (d : HDecl) : Nat := d.maxF + 4 + (if d.gen then 6 else 0)

/-- C of a declaration on a port (R241). -/
def HDecl.c (d : HDecl) (b : SMap Nat) (p : Nat) : Nat := d.e + overhead b p

/-- J of a declaration (R241). -/
def State.jOf (s : State) (b : SMap Nat) (d : HDecl) : Frac := fadd (fr 200) (s.tIn b d)

/-- r of a declaration on a port, bits per ns. -/
def rOf (b : SMap Nat) (p : Nat) (d : HDecl) : Frac := fr (8 * d.frames * d.c b p) d.interval

/-- b of a declaration on a port, bits. -/
def State.bOf (s : State) (b : SMap Nat) (p : Nat) (d : HDecl) : Frac :=
  fadd (fr (8 * d.frames * d.c b p)) (fmul (rOf b p d) (s.jOf b d))

/-! ### Lane service in a candidate bank -/

/-- RESERVED, STRICT and PREEMPT of a lane. -/
def isRsv (b : SMap Nat) (p l : Nat) : Bool := bit (ebits (bankGet b 10 p) 33 0 8) l
/-- STRICT of a lane. -/
def isStrict (b : SMap Nat) (p l : Nat) : Bool := bit (ebits (bankGet b 10 p) 32 0 8) l
/-- PREEMPT of a lane. -/
def isPre (b : SMap Nat) (p l : Nat) : Bool := bit (ebits (bankGet b 10 p) 34 0 8) l

/-- A pair passes the lane, length and stream checks (R253), so that it counts at its lane. -/
def pairCounts (b : SMap Nat) (d : HDecl) (p : Nat) : Bool :=
  d.streamOk && d.lenOk && isRsv b p d.lane && isStrict b p d.lane && !isPre b p d.lane && d.e ≤ classMax p

/-- The declarations at a lane (R241). -/
def atLane (b : SMap Nat) (ds : List HDecl) (p l : Nat) : List HDecl :=
  ds.filter fun d => d.lane == l && d.egress.contains p && pairCounts b d p

/-- C_max of a lane (R241). -/
def cMax (b : SMap Nat) (ds : List HDecl) (p l : Nat) : Nat :=
  match atLane b ds p l with
  | [] => if isRsv b p l then 0 else classMax p + overhead b p
  | m => m.foldl (fun a d => max a (d.c b p)) 0

/-- term(m) of R242. -/
def State.term (s : State) (b : SMap Nat) (ds : List HDecl) (p m : Nat) : Frac :=
  if p < 32 && isPre b p m && s.on (LNE_MM_CFG_MM_EN p) && s.on (LNE_MM_CFG_VERIFY_DIS p) then
    s.tx p (64 * (s.get (LNE_MM_CFG_ADD_FRAG p) + 1) + 79)
  else s.tx p (cMax b ds p m)

/-! ### Windows (R242, R243) -/

/-- The operations of a cycle as they run: GATES with start and end. -/
def gateParts (g : GateList) : List (Nat × Nat × Nat) :=
  ((gateSpans g.cycle g.ops 0).foldl (fun (r : List (Nat × Nat × Nat) × Nat) o =>
    (r.1 ++ [(o.1.gates, r.2, r.2 + o.2)], r.2 + o.2)) ([], 0)).1

/-- The open spans of a lane within the cycle, neighbours joined. -/
def openSpans (parts : List (Nat × Nat × Nat)) (l : Nat) : List (Nat × Nat) :=
  parts.foldl (fun r x =>
    if !bit x.1 l then r
    else match r.getLast? with
      | some y => if y.2 = x.2.1 then r.dropLast ++ [(y.1, x.2.2)] else r ++ [x.2]
      | none => [x.2]) []

/-- The windows of a lane as opening and length, joined across the cycle end (R242). A lane that is always open has one
window from 0 (DEDUCED). -/
def windowsOf (cycle : Nat) (parts : List (Nat × Nat × Nat)) (l : Nat) : List (Nat × Nat) :=
  match openSpans parts l with
  | [] => []
  | [x] => [(x.1, x.2 - x.1)]
  | x :: t =>
    match t.getLast? with
    | some y =>
      if x.1 = 0 ∧ y.2 = cycle then (t.dropLast.map fun z => (z.1, z.2 - z.1)) ++ [(y.1, y.2 - y.1 + (x.2 - x.1))]
      else ((x :: t).map fun z => (z.1, z.2 - z.1))
    | none => []

/-- GATES in force at a position. -/
def gatesAt (parts : List (Nat × Nat × Nat)) (a : Nat) : Nat :=
  ((parts.find? fun x => x.2.1 ≤ a && a < x.2.2).map (·.1)).getD 0

/-- The lanes other than `l` that are not strict above it. -/
def others (b : SMap Nat) (p l : Nat) : List Nat := (List.range 8).filter fun m => m ≠ l && !(m > l && isStrict b p m)

/-- Two lanes are open at the same time. -/
def overlaps (parts : Option (List (Nat × Nat × Nat))) (l m : Nat) : Bool :=
  match parts with
  | none => true
  | some q => q.any fun x => bit x.1 l && bit x.1 m

/-- Bw of a window opening at `a` (R242). -/
def State.bw (s : State) (b : SMap Nat) (ds : List HDecl) (p l cycle : Nat) (parts : List (Nat × Nat × Nat)) (a : Nat) : Frac :=
  let before := gatesAt parts ((a + cycle - 1) % cycle)
  (((others b p l).filter fun m => bit before m && bit (gatesAt parts a) m).map (s.term b ds p)).foldl fmax ⟨0, 1⟩

/-- The usable spans of a lane: start and length, after the blocking of Bw (R242). -/
def State.usable (s : State) (b : SMap Nat) (ds : List HDecl) (p l : Nat) (g : GateList) (parts : List (Nat × Nat × Nat)) : List (Frac × Frac) :=
  ((windowsOf g.cycle parts l).map fun w =>
    let bw := s.bw b ds p l g.cycle parts w.1
    let tail := fadd (s.tx p (cMax b ds p l)) (fr ((w.2 * 2 + 9999) / 10000))
    (fadd (fr w.1) bw, fsub (fsub (fr w.2) bw) tail)).filter fun w => flt ⟨0, 1⟩ w.2

/-- X of R242: the largest wait that a span can meet, over the ends of usable spans and the starts that follow within a
cycle, less the usable time between them. -/
def latencyX (cycle : Nat) (us : List (Frac × Frac)) (rho : Frac) : Frac :=
  let two := us ++ us.map fun u => (fadd u.1 (fr cycle), u.2)
  let k := us.length
  (List.range k).foldl (fun best i =>
    let endI := (us[i]?).elim (⟨0, 1⟩ : Frac) fun u => fadd u.1 u.2
    ((List.range k).foldl (fun (r : Frac × Frac) j =>
      match two[i + 1 + j]? with
      | some u => (fmax r.1 (fsub (fsub u.1 endI) (fdiv r.2 rho)), fadd r.2 u.2)
      | none => r) (best, ⟨0, 1⟩)).1) ⟨0, 1⟩

/-- ρ and X of a lane; `none` when Σu = 0 (R242). -/
def State.rhoX (s : State) (b : SMap Nat) (ds : List HDecl) (p l : Nat) : Option (Frac × Frac) :=
  match gateListIn b p with
  | none => some (⟨1, 1⟩, ⟨0, 1⟩)
  | some g =>
    let us := s.usable b ds p l g (gateParts g)
    let sum := fsum (us.map (·.2))
    if sum.num ≤ 0 then none
    else
      let rho := fdiv sum (fr g.cycle)
      some (rho, latencyX g.cycle us rho)

/-! ### The delay of a lane (R244, R246, R247) -/

/-- PLCA_WAIT of a port (R244). -/
def State.plcaWait (s : State) (p : Nat) : Nat :=
  if !(32 ≤ p && p < 64) then 0
  else
    let nc := if s.get (PRT_MODE_ROLE p) = 0 then s.get (PRT_PLCA_CFG_NODE_COUNT p) else 16
    2000 + nc * s.get (PRT_PLCA_CFG_TO_TIMER p) * 100 + (nc - 1) * (1 + s.get (PRT_PLCA_CFG_BURST_COUNT p)) * 1654400

/-- What a lane gives its pairs: `none` unbounded with the offending lane, else R_l, T_l, its own b and r. -/
inductive LaneDelay where
  | unbounded (value : Nat)
  | overload (r rl : Frac)
  | delay (rl tl b r : Frac)
  deriving DecidableEq, Repr

/-- The strict lanes above `l` whose windows overlap its own. -/
def aboveLanes (b : SMap Nat) (p l : Nat) : List Nat :=
  let parts := (gateListIn b p).map gateParts
  (List.range 8).filter fun h => h > l && isStrict b p h && overlaps parts l h

/-- b and r that lane `h` contributes (R244), with `extra` its backlog of the active configuration. -/
def State.laneBR (s : State) (b : SMap Nat) (ds : List HDecl) (p h : Nat) (extra : Nat → Frac) : Frac × Frac :=
  if isRsv b p h then
    (fadd (fsum ((atLane b ds p h).map (s.bOf b p))) (extra h), fsum ((atLane b ds p h).map (rOf b p)))
  else
    let e := bankGet b 8 (8 * p + h)
    (fadd (fr (8 * (ebits e 4 0 24 + cMax b ds p h))) (extra h), fr (ebits e 0 0 32) 1000000)

/-- The delay of lane `l` on port `p` (R244). -/
def State.laneDelay (s : State) (b : SMap Nat) (ds : List HDecl) (p l : Nat) (extra : Nat → Frac) : LaneDelay :=
  match s.rhoX b ds p l with
  | none => .unbounded 0xFF
  | some (rho, x) =>
    let hs := aboveLanes b p l
    match hs.find? fun h => !isRsv b p h && ebits (bankGet b 8 (8 * p + h)) 0 0 32 == 0 with
    | some h => .unbounded h
    | none =>
      let parts := (gateListIn b p).map gateParts
      let b0 := (((others b p l).filter (overlaps parts l)).map (s.term b ds p)).foldl fmax ⟨0, 1⟩
      let rg := fmul (fr (s.heatRate p) 1000) rho
      let br := hs.map fun h => s.laneBR b ds p h extra
      let own := s.laneBR b ds p l extra
      let rl := fsub rg (fsum (br.map (·.2)))
      let shaper := ebits (bankGet b 8 (8 * p + l)) 0 0 32
      let rl2 := if shaper = 0 then rl else fmin rl (fr shaper 1000000)
      if !flt own.2 rl2 then .overload own.2 rl2
      else
        let tl := fdiv (fadd (fmul rg (fadd x b0)) (fsum (br.map (·.1)))) rl
        let tl2 := if shaper = 0 then tl else fadd tl (fdiv (fr (8 * cMax b ds p l)) (fr shaper 1000000))
        .delay rl2 tl2 own.1 own.2

/-- frames_l_and_above (R244). -/
def framesAbove (b : SMap Nat) (ds : List HDecl) (p l : Nat) : Nat :=
  natSum ((l :: aboveLanes b p l).flatMap fun h => (atLane b ds p h).map (·.frames))

/-- The bound of a pair from the delay of its lane, in ns (R238). -/
def State.boundOf (s : State) (b : SMap Nat) (ds : List HDecl) (d : HDecl) (p : Nat) (rl tl bl : Frac) : Frac :=
  let q := fadd (fadd tl (fdiv bl rl)) (fr (s.plcaWait p * (1 + framesAbove b ds p d.lane)))
  fadd (fadd (fadd (fr ((s.phy d.inPort).1 + (s.phy p).2)) (s.tIn b d)) (fr (pathF b d.inPort p) 10)) q

/-- What a port entry of class 15 says of its egress secure associations: TX_EN and CONF, the association in use and
the transmit SCI; RX_EN and BYPASS_GPTP are no part of them. DEDUCED (log 79): R246 names the associations alone. -/
def egressPart (e : Nat) : Bool × Bool × Nat × Nat := (ebit e 0 0, ebit e 0 2, ebits e 1 0 2, ebits e 8 0 64)

/-- Port `p` changes in classes 8, 9, 10 or in its egress secure associations (R246). -/
def portTablesChange (old new : SMap Nat) (p : Nat) : Bool :=
  let diff := fun c i => bankGet old c i != bankGet new c i
  (List.range 8).any (fun l => diff 8 (8 * p + l)) || diff 9 (40960 + p) || diff 10 p
  || (List.range (if 32 ≤ p ∧ p < 64 then 64 else 1024)).any (fun k => diff 9 (gateOpIndex p k))
  || (p < 32 && (egressPart (bankGet old 15 (512 + p)) != egressPart (bankGet new 15 (512 + p)) || (List.range 256).any fun a =>
        let tx := fun e => ebit e 0 0 && ebit e 0 1 && ebits e 2 0 16 == p
        diff 15 (256 + a) && (tx (bankGet old 15 (256 + a)) || tx (bankGet new 15 (256 + a)))))

/-- The declarations in a lane, each as its index and entry of class 14, for the comparison of R246. -/
def laneSet (ds : List HDecl) (p l : Nat) : List (Nat × Nat) :=
  (ds.filter fun d => d.lane == l && d.egress.contains p).map fun d => (d.idx, d.entry)

/-- Lane `l` of port `p` is changed for the changeover check (R246). -/
def laneChanged (old new : SMap Nat) (od nd : List HDecl) (p l : Nat) : Bool :=
  portTablesChange old new p
  || (l :: (List.range 8).filter fun h => h > l && isStrict new p h).any fun h => laneSet od p h != laneSet nd p h

/-- The added delay of R247: `none` unbounded. -/
def State.newReserved (s : State) (old new : SMap Nat) (p l : Nat) : Option Frac :=
  let ls := (l :: (List.range 8).filter fun h => h > l && isStrict new p h).filter fun h => isRsv new p h && !isRsv old p h
  if ls.isEmpty then some ⟨0, 1⟩
  else
    let lim := ls.foldl (fun a h => max a (s.get (FWD_RES_LIMIT_LIMIT p h))) 0
    if lim = 0 then none else some (fadd (fr (lim * 1000)) (s.tx p (classMax p + overhead new p)))

/-- What the heat finds for a pair: its bound and changeover bound, and its records' codes with VALUE and LIMIT. -/
structure PairOut where
  bound : Option Nat := none
  chg : Option Nat := none
  recs : List (Nat × Nat × Nat) := []
  deriving DecidableEq, Repr

/-- An unbounded value. -/
def unb : Nat := 0xFFFFFFFF

/-- The checks of a pair (R245–R247, R253). -/
def State.judgePair (s : State) (old new : SMap Nat) (od nd : List HDecl) (k : Nat → Nat → Frac) (d : HDecl) (p : Nat) : PairOut :=
  let lane := (if isRsv new p d.lane then [] else [(6, d.lane, 0)]) ++ (if isStrict new p d.lane then [] else [(7, d.lane, 0)])
    ++ (if isPre new p d.lane then [(8, d.lane, 0)] else []) ++ (if d.e ≤ classMax p then [] else [(9, d.e, classMax p)])
  if !pairCounts new d p then { recs := lane }
  else match s.laneDelay new nd p d.lane (fun _ => ⟨0, 1⟩) with
    | .unbounded v => { recs := [(4, v, 0)] }
    | .overload r rl =>
      { recs := [(3, (fceil (fmul r (fr 1000000))).toNat, (ffloor (fmul rl (fr 1000000))).toNat)] }
    | .delay rl tl bl _ =>
      let bound := (fceil (s.boundOf new nd d p rl tl bl)).toNat
      let chg : Option Nat :=
        if !laneChanged old new od nd p d.lane then some bound
        else match s.laneDelay new nd p d.lane (k p), s.newReserved old new p d.lane with
          | .delay rl2 tl2 bl2 _, some extra => some (fceil (fadd (s.boundOf new nd d p rl2 tl2 bl2) extra)).toNat
          | _, _ => none
      let lim := s.get (FWD_RES_LIMIT_LIMIT p d.lane) * 1000
      { bound := some bound, chg := chg,
        recs := (if bound > d.deadline then [(1, bound, d.deadline)]
                 else if chg.elim true (fun c => c > d.deadline) then [(2, chg.getD unb, d.deadline)] else [])
          ++ (if lim ≠ 0 ∧ bound > lim then [(5, bound, lim)] else []) }

/-! ### Declaration checks (R248, R249, R251) -/

/-- An earlier valid declaration of the same stream. -/
def earlier (ds : List HDecl) (d : HDecl) : Option Nat := (ds.find? fun e => e.stream == d.stream && e.idx < d.idx).map (·.idx)

/-- The meter of a stream that is valid and used; `none` is UNMETERED. -/
def meterOf (b : SMap Nat) (d : HDecl) : Option Nat :=
  let m := ebits d.se 10 0 11
  if ebit d.se 9 3 && ebit (bankGet b 7 m) 8 0 then some m else none

/-- The set D of a meter (R248). -/
def meterSet (b : SMap Nat) (ds : List HDecl) (m : Nat) : List HDecl :=
  ds.filter fun d => d.streamOk && (earlier ds d).isNone && meterOf b d == some m

/-- CIR needed by a set, in kbit/s (R248). -/
def cirNeed (l : List HDecl) : Nat := (fceil (fsum (l.map fun d => fr (8 * d.frames * d.maxF * 1000000) d.interval))).toNat

/-- CBS needed by a set, in bytes (R248). -/
def State.cbsNeed (s : State) (b : SMap Nat) (l : List HDecl) : Nat :=
  natSum (l.map fun d =>
    d.frames * d.maxF + (fceil (fdiv (fmul (fr (d.frames * d.maxF)) (s.jOf b d)) (fr d.interval))).toNat)

/-- The pools of a carve: those with chunks (R249, R251). -/
def State.carved (s : State) (p : Nat) : Bool := s.get (FST_POOL_INFO_CHUNKS p) ≠ 0

/-- The smallest carved pool that holds `n` octets. -/
def State.fitCarved (s : State) (n : Nat) : Option Nat := (List.range 4).find? fun p => s.carved p && n ≤ chunkBytes p

/-- The pool that cut-through charges on an ingress port (R109, R249). -/
def State.ctPool (s : State) (n : Nat) : Option Nat :=
  if n < 32 && s.on (FWD_PORT_CFG_CT_EN n) then (List.range 4).find? fun p => p ≥ s.get (FST_CT_POOL_POOL n) && s.carved p else none

/-- The pools in which a declaration is charged (R249). -/
def State.poolsOf (s : State) (d : HDecl) : List Nat :=
  match s.fitCarved d.minF, s.fitCarved d.maxF with
  | some a, some c => (List.range 4).filter fun p => s.carved p && ((a ≤ p && p ≤ c) || s.ctPool d.inPort == some p)
  | _, _ => []

/-- The records of a declaration that name no egress port, codes 10–17, as code, port, pool, VALUE, LIMIT (R252,
R253); `n` is its count of R250. -/
def State.declRecs (s : State) (b : SMap Nat) (ds : List HDecl) (d : HDecl) (n : Nat) : List (Nat × Nat × Nat × Nat × Nat) :=
  let plain : Nat → Nat → Nat → Nat × Nat × Nat × Nat × Nat := fun c v l => (c, 0xFF, 0xFF, v, l)
  let set := match meterOf b d with
    | some m => meterSet b ds m
    | none => []
  let first := (set.head?.map (·.idx)) == some d.idx
  let me := bankGet b 7 (ebits d.se 10 0 11)
  (if d.streamOk then [] else [plain 10 0 0])
    ++ (if d.lenOk then [] else [plain 11 (maxLen d.se d.inPort) d.maxF])
    ++ (if (meterOf b d).isSome then [] else [plain 12 0 0])
    ++ (if first && ebits me 0 0 32 < cirNeed set then [plain 13 (cirNeed set) (ebits me 0 0 32)] else [])
    ++ (if first && ebits me 4 0 24 < s.cbsNeed b set then [plain 14 (s.cbsNeed b set) (ebits me 4 0 24)] else [])
    ++ (match earlier ds d with
        | some i => [plain 15 i 0]
        | none => [])
    ++ (match s.ctPool d.inPort with
        | some p => if chunkBytes p < d.maxF then [(16, d.inPort, p, d.maxF, chunkBytes p)] else []
        | none => [])
    ++ (if (s.fitCarved d.maxF).isNone then [(17, d.inPort, 0xFF, n, 0)] else [])

/-- A record (R254). -/
def recOf (d : HDecl) (lane port pool : Nat) (code v l : Nat) : HeatRec :=
  { code := code, lane := lane, decl := d.idx, stream := d.stream, port := port, pool := pool, value := v, limit := l }

/-- K_old of a lane: b + r · T_l (R246). -/
def State.backlogOf (s : State) (b : SMap Nat) (ds : List HDecl) (p l : Nat) : Option Frac :=
  if (atLane b ds p l).isEmpty then none
  else match s.laneDelay b ds p l (fun _ => ⟨0, 1⟩) with
    | .delay _ tl bl r => some (fadd bl (fmul r tl))
    | _ => none

/-- A heat over the candidate bank `new` (R238–R254). -/
def State.runHeat (s : State) (new : SMap Nat) : HeatResult :=
  let old := s.fab.active
  let od := declsOf old
  let nd := declsOf new
  let k := fun p l => SMap.get s.fab.heat.backlog ⟨0, 1⟩ (8 * p + l)
  let pairs := nd.map fun d => (d, d.egress.map fun p => (p, s.judgePair old new od nd k d p))
  let count := fun (x : HDecl × List (Nat × PairOut)) =>
    let d := x.1
    let res := x.2.foldl (fun a q => match q.2.bound, q.2.chg with
      | some b, some c => max a (max b c)
      | _, _ => a) 0
    let n := d.frames * (1 + res / d.interval)
    if od.any fun o => o.idx == d.idx && o.stream == d.stream then max n (SMap.get s.fab.heat.counts 0 d.idx) else n
  let counts := pairs.map fun x => (x.1.idx, count x)
  let quotas := pairs.foldl (fun (m : SMap Nat) x =>
    (s.poolsOf x.1).foldl (fun m p => SMap.upd m 0 (4 * x.1.inPort + p) (· + count x)) m) []
  let declR := pairs.flatMap fun x =>
    (s.declRecs new nd x.1 (count x)).map (fun r => recOf x.1 0xFF r.2.1 r.2.2.1 r.1 r.2.2.2.1 r.2.2.2.2)
      ++ x.2.flatMap fun q => q.2.recs.map fun r => recOf x.1 x.1.lane q.1 0xFF r.1 r.2.1 r.2.2
  let frac := s.get HEAT_CFG_RSV_FRAC
  let poolR := (List.range 4).filterMap fun p =>
    let sum := natSum (quotas.filterMap fun e => if e.1 % 4 = p then some e.2 else none)
    let lim := (s.get (FST_POOL_INFO_CHUNKS p) - s.quarantined p) * frac / 256
    if sum > lim then some { code := 17, lane := 0xFF, decl := 0xFFFF, stream := 0xFFFF, port := 0xFF, pool := p, value := sum, limit := lim } else none
  let all := natSum (quotas.map (·.2))
  let hl := (131072 - s.fab.deadHandles.length) * frac / 256
  let handR : List HeatRec := if all > hl then
    [{ code := 18, lane := 0xFF, decl := 0xFFFF, stream := 0xFFFF, port := 0xFF, pool := 0xFF, value := all, limit := hl }] else []
  let recs := declR ++ poolR ++ handR
  { bounds := pairs.flatMap fun x => x.2.map fun q =>
      { decl := x.1.idx, port := q.1, lane := x.1.lane, bound := q.2.bound.getD unb, chg := q.2.chg.getD unb, deadline := x.1.deadline },
    records := recs.take 64, trunc := recs.length > 64, quotas := quotas, counts := counts,
    backlog := (List.range 70).flatMap fun p => (List.range 8).filterMap fun l =>
      (s.backlogOf new nd p l).map fun f => (8 * p + l, f) }

end Sys2Proof.Machine
end

