-- ==== Sys2Proof/Machine/EdgeTab.lean ====
section
/-! DEFINITION. The tables of the Rigger (R303–R308, R317, R321): entries, bit walks, the checks of classes 11, 12 and 13,
the load, and what a swap does to the Edge island (R311, R324, R328). -/
namespace Sys2Proof.Machine

/-- Changes the Edge unit. -/
def State.eset (s : State) (f : EdgeUnit → EdgeUnit) : State := { s with edge := f s.edge }

/-! ### PDU entries (R303) -/

/-- DIR: 0 source, 1 destination. -/
def pduDir (e : Nat) : Nat := ebits e 0 1 1
/-- BUS: 0 CAN, 1 LIN, 2 Ethernet. -/
def pduBus (e : Nat) : Nat := ebits e 0 2 2
/-- TRIGGER (R313). -/
def pduTrig (e : Nat) : Nat := ebits e 0 4 2
/-- CHANNEL. -/
def pduChan (e : Nat) : Nat := ebits e 1 0 8
/-- LEN in octets. -/
def pduLen (e : Nat) : Nat := ebits e 2 0 16
/-- ID. -/
def pduId (e : Nat) : Nat := ebits e 4 0 32
/-- FORMAT: 0 classical, 1 FD, 2 XL. -/
def pduFmt (e : Nat) : Nat := ebits e 8 0 2
/-- MBOX. -/
def pduBox (e : Nat) : Nat := ebits e 9 0 5
/-- A PDU with a cyclic trigger. -/
def pduCyclic (e : Nat) : Bool := pduTrig e ≥ 2
/-- A valid PDU entry. -/
def pduValid (e : Nat) : Bool := ebit e 0 0

/-- LEN is in the range of its bus and format. -/
def pduLenOk (e : Nat) : Bool :=
  let n := pduLen e
  if pduBus e = 1 then 1 ≤ n && n ≤ 8
  else if pduBus e = 2 then 1 ≤ n && n ≤ 1024
  else if pduFmt e = 0 then n ≤ 8
  else if pduFmt e = 1 then n ≤ 8 || [12, 16, 20, 24, 32, 48, 64].contains n
  else 1 ≤ n && n ≤ 2048

/-- Every field of a PDU entry is in the range of its BUS, FORMAT and DIR (R304). -/
def pduOk (e : Nat) : Bool :=
  let bus := pduBus e
  let idOk := if bus = 0 then pduFmt e ≤ 2 && decide (pduId e < if ebit e 8 2 && pduFmt e ≠ 2 then 2 ^ 29 else 2 ^ 11)
    else if bus = 1 then decide (pduId e ≤ 63) else pduId e != 0
  let chanOk := if bus = 0 then pduChan e ≤ 31 else bus != 1 || pduChan e ≤ 15
  let gap := ebits e 12 0 32
  let dead := ebits e 16 0 32
  let per := ebits e 20 0 16
  let srcOk := pduDir e == 1 || (50 ≤ gap && gap ≤ 10000000)
  let deadOk := !(pduDir e == 1 && bus == 0) || (100 ≤ dead && dead ≤ 1000000)
  let cycOk := !(pduDir e == 1 && bus != 1 && pduCyclic e) || (1 ≤ per && per ≤ 10000 && ebits e 22 0 16 < per)
  bus ≤ 2 && idOk && chanOk && pduLenOk e && srcOk && deadOk && cycOk

/-- Two source PDUs match the same frames (R303, R304). -/
def pduSame (a b : Nat) : Bool :=
  pduBus a == pduBus b &&
  (if pduBus a = 2 then pduId a == pduId b
   else pduChan a == pduChan b && pduId a == pduId b
     && (pduBus a == 1 || (ebit a 8 2 == ebit b 8 2 && pduFmt a == pduFmt b && (pduFmt a != 2 || ebits a 25 0 8 == ebits b 25 0 8))))

/-- The valid PDU entries of a bank with their indices. -/
def pdusOf (b : SMap Nat) : List (Nat × Nat) := (listed b 12).filter fun e => e.1 < 4096 && pduValid e.2

/-! ### Routes (R306–R308) -/

/-- SRC_PDU. -/
def rtSrc (e : Nat) : Nat := ebits e 0 0 12
/-- DST_PDU. -/
def rtDst (e : Nat) : Nat := ebits e 2 0 12
/-- A valid route. -/
def rtValid (e : Nat) : Bool := ebit e 10 7

/-- The valid routes of a bank with their indices, in rising order. -/
def routesOf (b : SMap Nat) : List (Nat × Nat) := (listed b 11).filter fun e => rtValid e.2

/-- The walk of R306 from the most significant bit of a big-endian field. -/
def walkBig : Nat → Nat → List Nat
  | 0, _ => []
  | k + 1, p => p :: walkBig k (if p % 8 = 0 then p + 15 else p - 1)

/-- The bit positions of a field, least significant first (R306). -/
def fieldBits (pos len : Nat) (big : Bool) : List Nat :=
  if big then (walkBig len pos).reverse else (List.range len).map (pos + ·)

/-- extract() of R306 on a buffer as a number. -/
def extract (buf : Nat) (ps : List Nat) : Nat := leNatBits (ps.map (bit buf))
where
  /-- The number that bits spell, least significant first. -/
  leNatBits : List Bool → Nat
    | [] => 0
    | b :: t => (if b then 1 else 0) + 2 * leNatBits t

/-- insert() of R306 on a buffer as a number. -/
def insertBits (buf : Nat) : List Nat → Nat → Nat
  | [], _ => buf
  | p :: t, v => insertBits (setBits buf p 1 (v % 2)) t (v / 2)

/-- The bits of the source field of a route. -/
def rtSrcBits (e : Nat) : List Nat := fieldBits (ebits e 4 0 16) (ebits e 8 0 8) (ebit e 10 0)
/-- The bits of the destination field of a route. -/
def rtDstBits (e : Nat) : List Nat := fieldBits (ebits e 6 0 16) (ebits e 9 0 8) (ebit e 10 2)

/-- A raw value of the destination field as DST_SIGNED reads it. -/
def rtDstVal (e raw : Nat) : Int := if ebit e 10 3 then sext (ebits e 9 0 8) raw else raw

/-- DST_MIN and DST_MAX as DST_SIGNED reads them. -/
def rtMin (e : Nat) : Int := if ebit e 10 3 then sext 64 (ebits e 32 0 64) else ebits e 32 0 64
/-- The highest value written. -/
def rtMax (e : Nat) : Int := if ebit e 10 3 then sext 64 (ebits e 40 0 64) else ebits e 40 0 64
/-- DST_INV. -/
def rtInv (e : Nat) : Nat := ebits e 56 0 64
/-- STALE_ACT (R312). -/
def rtAct (e : Nat) : Nat := ebits e 11 0 2

/-- A value is representable in the destination field. -/
def rtFits (e : Nat) (v : Int) : Bool :=
  let n := ebits e 9 0 8
  if ebit e 10 3 then decide (-(2 ^ (n - 1) : Int) ≤ v ∧ v < 2 ^ (n - 1)) else decide (0 ≤ v ∧ v < 2 ^ n)

/-- The checks of R308 on a route against the PDUs of a bank. -/
def routeOk (b : SMap Nat) (e : Nat) : Bool :=
  let src := bankGet b 12 (rtSrc e)
  let dst := bankGet b 12 (rtDst e)
  let sl := ebits e 8 0 8
  let dl := ebits e 9 0 8
  let inv := rtInv e
  pduValid src && pduDir src == 0 && pduValid dst && pduDir dst == 1
    && 1 ≤ sl && sl ≤ 64 && 1 ≤ dl && dl ≤ 64 && ebits e 20 0 8 ≤ 32
    && (rtSrcBits e).all (fun p => decide (p < 8 * pduLen src)) && (rtDstBits e).all (fun p => decide (p < 8 * pduLen dst))
    && (ebit e 10 4 || sl == dl)
    && decide (rtMin e ≤ rtMax e) && rtFits e (rtMin e) && rtFits e (rtMax e)
    && decide (inv < 2 ^ dl) && decide (ebits e 64 0 64 < 2 ^ dl) && decide (ebits e 48 0 64 < 2 ^ sl)
    && !((ebit e 10 5 || ebit e 10 6 || rtAct e == 2) && decide (rtMin e ≤ rtDstVal e inv ∧ rtDstVal e inv ≤ rtMax e))

/-! ### Tunnels (R317) -/

/-- The ranges of a tunnel entry. -/
def tunOk (e : Nat) : Bool :=
  let dead := ebits e 32 0 32
  if ebit e 16 1 then !ebit e 16 2 && 100 ≤ dead && dead ≤ 1000000
  else 1 ≤ ebits e 17 0 8 && ebits e 17 0 8 ≤ 16 && ebits e 18 0 16 ≤ 100

/-- The valid tunnels of a bank with their indices. -/
def tunsOf (b : SMap Nat) : List (Nat × Nat) := (listed b 13).filter fun e => ebit e.2 16 0

/-! ### Load (R321) -/

/-- The weight of source PDU `p`. -/
def pduWeight (b : SMap Nat) (p : Nat) : Nat :=
  let l := (routesOf b).filter fun r => rtSrc r.2 == p
  let ds := (l.map fun r => rtDst r.2).eraseDups.filter fun d =>
    let e := bankGet b 12 d
    pduValid e && pduDir e == 1 && pduBus e != 1 && pduTrig e != 2
  l.length + 8 * ds.length

/-- The rate of R321 in operations a second. -/
def rigRate (b : SMap Nat) : Frac :=
  fsum ((pdusOf b).map fun e =>
    if pduDir e.2 = 0 then fr (pduWeight b e.1 * 1000000) (ebits e.2 12 0 32)
    else if pduBus e.2 ≠ 1 ∧ pduCyclic e.2 then fr 8000 (ebits e.2 20 0 16) else ⟨0, 1⟩)

/-- The weights of the source PDUs of a bus, and of a channel of it. -/
def busWeights (b : SMap Nat) (bus chan : Nat) : List Nat :=
  (pdusOf b).filterMap fun e =>
    if pduDir e.2 = 0 ∧ pduBus e.2 = bus ∧ (bus = 2 ∨ pduChan e.2 = chan) then some (pduWeight b e.1) else none

/-- Puts a number into a list in falling order. -/
def insDown (x : Nat) : List Nat → List Nat
  | [] => [x]
  | y :: t => if x ≥ y then x :: y :: t else y :: insDown x t

/-- The burst of R321. -/
def rigBurst (b : SMap Nat) : Nat :=
  let top := fun l : List Nat => l.foldl max 0
  let four := ((busWeights b 2 0).foldl (fun l x => insDown x l) []).take 4
  ((List.range 32).map fun c => top (busWeights b 0 c)).foldl (· + ·) 0
    + ((List.range 16).map fun c => top (busWeights b 1 c)).foldl (· + ·) 0 + four.foldl (· + ·) 0 + 8

/-- The load check of R321. -/
def rigFits (b : SMap Nat) : Bool := !flt (fr 50000000) (rigRate b) && rigBurst b ≤ 650

/-- RIG_LOAD and RIG_BURST show both banks. -/
def State.showLoad (s : State) : State :=
  if !s.up .edge then s
  else
    let k := fun b => min (fceil (fdiv (rigRate b) (fr 1000))).toNat 65535
    (((s.set RIG_LOAD_STAGED (k s.fab.staged)).set RIG_LOAD_ACTIVE (k s.fab.active)).set RIG_BURST_STAGED
      (rigBurst s.fab.staged)).set RIG_BURST_ACTIVE (rigBurst s.fab.active)

/-! ### Stale routes (R311) -/

/-- The state of route `r` beyond its entry. -/
def State.routeSt (s : State) (r : Nat) : RouteSt := SMap.get s.edge.routes {} r

/-- An entry shows an uncorrectable error (R328): table 0 route, 1 PDU or slot, 2 tunnel. -/
def State.rigBroken (s : State) (t i : Nat) : Bool := s.edge.broken.contains (t * 2 ^ 20 + i)

/-- The valid routes that are stale; DEDUCED: RIG_STALE is raised when there is a first one, since the bit of a route that
is not valid, or acts so, reads 1 always. -/
def State.staleRoutes (s : State) : List Nat :=
  (routesOf s.fab.active).filterMap fun e => if (s.routeSt e.1).fresh || s.rigBroken 0 e.1 then none else some e.1

/-- Shows route `r` in RIG_STALE. -/
def State.showStale (s : State) (r : Nat) : State :=
  let fresh := rtValid (s.tab 11 r) && !s.rigBroken 0 r && (s.routeSt r).fresh
  s.set ⟨RIG_STALE (r / 32), r % 32, 1⟩ (if fresh then 0 else 1)

/-- The RIG_STALE event when the first stale route comes: `before` says that there was one. -/
def State.staleEvent (s : State) (before : Bool) : State :=
  match s.staleRoutes with
  | r :: _ => if before then s else s.emit 0x0702 0 (args r)
  | [] => s

/-- Route `r` enters stale (R311). -/
def State.enterStale (s : State) (r : Nat) : State :=
  let before := !s.staleRoutes.isEmpty
  let s1 := s.eset fun e => { e with routes := SMap.upd e.routes {} r fun x => { x with fresh := false } }
  ((s1.showStale r).inc RIG_STALE_ENTER_COUNT).staleEvent before

/-! ### A swap (R311, R324, R328) -/

/-- The indices of a class whose entries differ between two banks. -/
def changedIn (old new : SMap Nat) (c : Nat) : List Nat :=
  (((listed old c).map (·.1)) ++ ((listed new c).map (·.1))).eraseDups.filter fun i => bankGet old c i != bankGet new c i

/-- Route `r` of a bank that has just come into force is stale until its first update: it shows and counts when it is valid
(R311). -/
def State.newRoute (s : State) (r : Nat) : State :=
  let t := s.showStale r
  if rtValid (t.tab 11 r) then t.inc RIG_STALE_ENTER_COUNT else t

/-- The routes of a loaded image are stale from power-up on (R311, R326). -/
def State.routesLoaded (s : State) : State := ((s.each (routesOf s.fab.active) fun t r => t.newRoute r.1).staleEvent false).showLoad

/-- What a swap of the classes in `mask` does to the Edge island: changed PDUs, tunnels and routes start anew, an entry
that was broken is restored. DEDUCED (log 81): a route that is changed, new, or valid again after an error enters stale at the
swap, and counts. -/
def State.edgeSwapped (s : State) (old : SMap Nat) (mask : Nat) : State :=
  let mended := (s.edge.broken.filter (· < 2 ^ 20)).filter fun r => bankGet old 11 r == s.tab 11 r
  let ch := fun c => if bit mask c then changedIn old s.fab.active c ++ (if c = 11 then mended else []) else []
  let before := !((routesOf old).filter fun e => !(s.routeSt e.1).fresh).isEmpty
  let s1 := s.eset fun e =>
    { e with pdus := e.pdus.filter fun p => !(ch 12).contains p.1, routes := e.routes.filter fun r => !(ch 11).contains r.1,
             tuns := e.tuns.filter fun t => !(ch 13).contains t.1,
             broken := e.broken.filter fun k => !bit mask (11 + k / 2 ^ 20) }
  let s2 := s1.each (ch 11) fun t r => t.newRoute r
  (if (ch 11).isEmpty then s2 else s2.staleEvent before).showLoad

end Sys2Proof.Machine
end

