-- ==== Sys2Proof/Machine/StageOps.lean ====
section
/-! DEFINITION. The checks of STAGE by class (R45, and the owning chapters), and STAGE itself (R43–R45). -/
namespace Sys2Proof.Machine

/-- The entries of a class that carry VALID, with its value; the others always count as valid (R45). -/
def entryLive (c i e : Nat) : Bool :=
  if c = 0 then ebit e 24 0 else if c = 1 then ebit e 50 0 else if c = 2 then ebit e 2 0 else if c = 3 then ebit e 160 0
  else if c = 4 then ebit e 65 7 else if c = 6 then ebit e 9 0 else if c = 7 then ebit e 8 0 else if c = 11 then rtValid e
  else if c = 12 then pduValid e else if c = 13 then ebit e 16 0 else if c = 14 then ebit e 2 0
  else if c = 15 then (512 ≤ i && i < 544) || ebit e 0 0 else if c = 16 then ebit e 34 0 else true

/-- An entry whose checks apply: neither the empty entry of its class nor one with VALID = 0 (R45). -/
def entryChecked (c i e : Nat) : Bool := e != emptyEntry (entryKey c i) && entryLive c i e

/-- Class 2 (R150). -/
def frerOk (e : Nat) : Bool :=
  let rst := ebits e 4 0 16
  let h := ebits e 3 0 8
  ebit e 2 1 || (1 ≤ rst && rst ≤ 10000 && (ebit e 2 2 || (2 ≤ h && h ≤ 32)))

/-- Class 4 (R175). -/
def patternOk (e : Nat) : Bool :=
  let len := ebits e 64 0 8
  let off := ebits e 68 0 16
  let rng := ebits e 70 0 16
  let anchor := ebits e 66 0 2
  1 ≤ len && len ≤ 32 && anchor ≤ 2 && off ≤ 511 && off + len ≤ 512 && (anchor != 2 || (rng ≤ 511 && off + rng + len ≤ 512))

/-- Class 6 (R196). -/
def streamEntryOk (e : Nat) : Bool :=
  let mode := ebits e 9 1 2
  let vid := ebits e 6 0 12
  let ip := ebits e 8 0 8
  let ml := ebits e 14 0 16
  mode ≤ 2 && (mode == 0 || (1 ≤ vid && vid ≤ 4094)) && (ip ≤ 69 || ip == 255) && (ml == 0 || (64 ≤ ml && ml ≤ 9216))

/-- Class 9 (R213, R214). -/
def gclOk (i e : Nat) : Bool :=
  if i < 40960 then ebits e 1 0 2 ≤ 2 && 64 ≤ ebits e 4 0 32 && ebits e 4 0 32 ≤ 1000000000
  else
    let n := i - 40960
    let len := ebits e 6 5 11
    let cyc := ebits e 12 0 32
    1 ≤ len && len ≤ (if 32 ≤ n ∧ n < 64 then 64 else 1024) && ebits e 8 0 32 ≤ 999999999 && 1000 ≤ cyc && cyc ≤ 1000000000

/-- Class 10 (R205). -/
def laneEntryOk (i e : Nat) : Bool :=
  ((List.range 8).all fun l => 64 ≤ ebits e (4 * l) 0 17)
    && (ebits e 33 0 8 == 0 || !([65, 67, 68, 69].contains i)) && (ebits e 34 0 8 == 0 || i ≤ 31)

/-- Class 14 (R235, R236). -/
def declOk (e : Nat) : Bool :=
  let inP := ebits e 3 0 8
  let mx := ebits e 4 0 16
  let mn := ebits e 6 0 16
  let iv := ebits e 8 0 32
  let fr := ebits e 12 0 16
  let dl := ebits e 16 0 32
  let eg := ebits e 24 0 70
  (inP ≤ 66 || inP == 69) && 64 ≤ mx && mx ≤ 9216 && 64 ≤ mn && mn ≤ mx && 1000 ≤ iv && iv ≤ 1000000000 && 1 ≤ fr && fr ≤ 1024
    && 1000 ≤ dl && dl ≤ 1000000000 && eg != 0 && !bit eg inP && [65, 67, 68, 69].all fun p => !bit eg p

/-- The ranges of an SA or receive SC entry of class 15; a slot entry is checked as a blob (R419, R429). -/
def saOk (i e : Nat) : Bool :=
  if i < 256 then true
  else if i < 512 then
    let pn := ebits e 8 0 64
    ebits e 2 0 16 < (if ebit e 0 1 then 32 else 64) && ebits e 4 0 8 != 0 && pn != 0 && (ebit e 0 2 || pn < 2 ^ 32)
  else i < 544 || ebits e 1 0 8 < 32

/-- The checks that an entry passes by itself. -/
def entryOk (c i e : Nat) : Bool :=
  let fid := fun o => 1 ≤ ebits e o 0 12 && ebits e o 0 12 ≤ 4094
  if c = 0 then fid 6
  else if c = 1 then fid 48
  else if c = 2 then frerOk e
  else if c = 3 then ebits e 160 1 2 ≤ 2 && ebits e 161 0 8 ≤ 69
  else if c = 4 then patternOk e
  else if c = 5 then i ≥ 256 || ebits e 0 0 2 ≤ 2
  else if c = 6 then streamEntryOk e
  else if c = 7 then 1 ≤ ebits e 0 0 32 && ebits e 0 0 32 ≤ 100000000 && 64 ≤ ebits e 4 0 24
  else if c = 8 then ebits e 0 0 32 == 0 || (ebits e 0 0 32 ≤ 100000000 && 64 ≤ ebits e 4 0 24)
  else if c = 9 then gclOk i e
  else if c = 10 then laneEntryOk i e
  else if c = 12 then if i < 4096 then pduOk e else 1 ≤ ebits e 4 0 8
  else if c = 13 then tunOk e
  else if c = 14 then declOk e
  else if c = 15 then saOk i e
  else if c = 16 then
    let cap := ebits e 38 0 16
    ebits e 32 0 8 ≤ 69 && (ebits e 32 0 8 != 67 || cap == 0 || (64 ≤ cap && cap ≤ 9216))
  else true

/-- A key slot holds what an SA needs of it (R429). -/
def State.saSlotOk (s : State) (b : SMap Nat) (e : Nat) : Bool :=
  let k := s.slotIn b (ebits e 4 0 8)
  slotValid k && slotType k == 0 && slotUsage k == (if ebit e 0 1 then 0 else 1)

/-- The checks of an entry against the rest of the staged bank `b` that it would stand in (R304, R308, R317, R429). -/
def State.entryFits (s : State) (b : SMap Nat) (c i e : Nat) : Bool :=
  if c = 11 then routeOk b e
  else if c = 12 && i < 4096 then
    let clash := fun (x : Nat × Nat) => x.1 != i && pduDir x.2 == pduDir e &&
      (if pduDir e = 0 then pduSame x.2 e
       else pduBus e == 0 && pduBus x.2 == 0 && pduChan x.2 == pduChan e && pduBox x.2 == pduBox e)
    !(pdusOf b).any clash && (routesOf b).all fun r => (rtSrc r.2 != i && rtDst r.2 != i) || routeOk b r.2
  else if c = 13 then
    !ebit e 16 1 || !(tunsOf b).any fun t => t.1 != i && ebit t.2 16 1 && ebits t.2 0 0 64 == ebits e 0 0 64
  else if c = 15 && 256 ≤ i && i < 512 then
    s.saSlotOk b e && !((listed b 15).any fun x => x.1 != i && 256 ≤ x.1 && x.1 < 512 && ebit x.2 0 0
      && ebits x.2 0 1 1 == ebits e 0 1 1 && ebits x.2 2 0 16 == ebits e 2 0 16 && ebits x.2 1 0 2 == ebits e 1 0 2)
  else if c = 15 && 544 ≤ i then
    !((listed b 15).any fun x => x.1 != i && 544 ≤ x.1 && ebit x.2 0 0 && ebits x.2 1 0 8 == ebits e 1 0 8
      && ebits x.2 8 0 64 == ebits e 8 0 64)
  else true

/-- The entries that an OP 0 STAGE carries, as numbers. -/
def splitEntries (c : Nat) (data : List Byte) (n : Nat) : List Nat :=
  (List.range n).map fun k => leNat (sliceBytes data (k * entrySize c) (entrySize c))

/-- A slot entry of class 15 as it is stored: opened, or none where its blob fails R419. -/
def State.stagedSlot (s : State) (e : Nat) : Option Nat :=
  if ebit e 0 0 then s.openBlob (leBytes 144 (ebits e 16 0 1152)) else some 0

/-- The value that an OP 0 STAGE stores for an entry, or none for a blob that is not accepted. -/
def State.storedEntry (s : State) (c i e : Nat) : Option Nat :=
  if c = 15 && 8 ≤ i && i < 256 then s.stagedSlot e else some e

/-- The bank that a STAGE would leave: OP 0 and 1 write entries, OP 2 clears the class, OP 3 copies the active one
(R43, R44). -/
def State.stagedBank (s : State) (c op index : Nat) (es : List Nat) : SMap Nat :=
  if op = 2 then s.fab.staged.filter fun e => e.1 / 2 ^ 20 != c
  else if op = 3 then copyClass s.fab.active s.fab.staged c
  else (es.foldl (fun (r : SMap Nat × Nat) e =>
    (if r.2 < classSize c then bankPut r.1 c r.2 ((s.storedEntry c r.2 e).getD 0) else r.1, r.2 + 1)) (s.fab.staged, index)).1

/-- The class is one that the STAGE rules of R190, R325 and R437 bind to a power domain. -/
def classDomain (c : Nat) : Option Nat :=
  if 3 ≤ c ∧ c ≤ 5 then some 4 else if 11 ≤ c ∧ c ≤ 13 then some 5 else if c = 15 then some 6 else none

/-- The first power domain that is off and that a class of a mask needs. -/
def State.classOff (s : State) (mask : Nat) : Option Nat :=
  (List.range 17).findSome? fun c =>
    if bit mask c then (classDomain c).bind fun pd => if s.pdOn pd then none else some pd else none

/-- The fields of a STAGE (R43). -/
structure StageArgs where
  cls : Nat
  op : Nat
  index : Nat
  count : Nat
  addr : Nat
  len : Nat
  deriving DecidableEq, Repr

/-- The arguments of a STAGE descriptor. -/
def stageArgs (d : Desc) : StageArgs :=
  { cls := descBits d 16 8, op := descBits d 17 8, index := descBits d 20 32, count := descBits d 24 32,
    addr := descBits d 32 64, len := descBits d 40 32 }

/-- The octets of the entries of a STAGE: host memory, or behind the descriptor of a CMD (R43, R348). -/
def State.stageData (s : State) (src : CmdSrc) (a : StageArgs) : List Byte :=
  match src with
  | .localRing => s.hostBytes a.addr a.len
  | .hfp _ _ _ extra => sliceBytes extra 0 a.len

/-- The entries of a STAGE: what it carries with OP 0, empty entries with OP 1. -/
def State.stageEntries (s : State) (src : CmdSrc) (a : StageArgs) : List Nat :=
  if a.op = 0 then splitEntries a.cls (s.stageData src a) a.count
  else if a.op = 1 then (List.range a.count).map fun k => emptyEntry (entryKey a.cls (a.index + k)) else []

/-- Reserved fields 0 and arguments in range (R43, R45, R348). DESIGN CHOICE (log 85): DATA_LEN and the alignment of DATA_ADDR are
checked for OP 0 only, the one that reads data; the layout limits only DATA_ADDR to OP 0. -/
def stageFormOk (src : CmdSrc) (d : Desc) : Bool :=
  let a := stageArgs d
  descZero d 18 20 && descZero d 28 32 && descZero d 44 64 && a.cls ≤ 16 && a.op ≤ 3
    && (a.op ≥ 2 || (1 ≤ a.count && a.count ≤ 4096 && !(a.cls == 1 && a.index == 0) && !(a.cls == 15 && a.index < 8)))
    && (a.op != 0 || (a.len == a.count * entrySize a.cls && (if src.remote then a.addr == 0 && a.len ≤ 192 else a.addr % 64 == 0)))

/-- Every entry of an OP 0 STAGE passes the checks of its class (R45). -/
def State.stageEntriesOk (s : State) (a : StageArgs) (es : List Nat) : Bool :=
  let b := s.stagedBank a.cls 0 a.index es
  (List.range es.length).all fun k =>
    let i := a.index + k
    let e := es.getD k 0
    i ≥ classSize a.cls || !entryChecked a.cls i e || (entryOk a.cls i e && s.entryFits b a.cls i e)

/-- A staged bank breaks a limit of its class (R136, R321). -/
def stageTooMuch (b : SMap Nat) (c : Nat) : Bool :=
  (c == 0 && decide (camNeed b > 256)) || ((c == 11 || c == 12) && !rigFits b)

/-- A remote STAGE, COMMIT or REANCHOR comes from the device that holds authority (R341). -/
def State.remoteMay (s : State) (src : CmdSrc) : Bool := !src.remote || s.peerHasAuthority src.peerByte

/-- What STAGE makes of its arguments once they have passed (R45): the states that refuse it, its limits, its effect. -/
def State.stageBody (s : State) (src : CmdSrc) (a : StageArgs) : CmdOut :=
  if s.commitState ≠ 0 then .refuse 2 0
  else if !s.remoteMay src then .refuse 4 0
  else match s.classOff (2 ^ a.cls) with
    | some pd => .refuse 3 pd
    | none =>
      let es := s.stageEntries src a
      let b := s.stagedBank a.cls a.op a.index es
      if a.op ≤ 1 && a.index + a.count > classSize a.cls then .done s 6 0
      else if a.op = 0 && (List.range es.length).any (fun k => (s.storedEntry a.cls (a.index + k) (es.getD k 0)).isNone) then .done s 7 0
      else if stageTooMuch b a.cls then .done s 6 0
      else
        let t := (s.fset fun f => { f with staged := b }).showStaged a.cls
        .done (if 11 ≤ a.cls ∧ a.cls ≤ 12 then t.showLoad else t) 0 0

/-- The arguments of a STAGE pass (R378 step 2). -/
def State.stageOk (s : State) (src : CmdSrc) (d : Desc) : Bool :=
  let a := stageArgs d
  stageFormOk src d && (a.op != 0 || s.stageEntriesOk a (s.stageEntries src a))

end Sys2Proof.Machine
end

