-- ==== Sys2Proof/Machine/CommitOps.lean ====
section
/-! DEFINITION. Commits (R46–R54, R116, R220, R357–R361): acceptance, the heat, the swap, the drain, the fabric-wide
sequence, and what a freeze cancels (R399). -/
namespace Sys2Proof.Machine

/-! ### Arguments (R46, R47) -/

/-- The fields of a COMMIT. -/
structure CommitArgs where
  mask : Nat
  timed : Bool
  fabric : Bool
  emergency : Bool
  dryRun : Bool
  at_ : Nat
  ns : Nat
  id : Nat
  deriving DecidableEq, Repr

/-- The arguments of a COMMIT descriptor. -/
def commitArgs (d : Desc) : CommitArgs :=
  { mask := descBits d 16 32, timed := descBits d 20 1 == 1, fabric := bit (descBits d 20 8) 1, emergency := bit (descBits d 20 8) 2,
    dryRun := bit (descBits d 20 8) 3, at_ := descBits d 24 48 * 10 ^ 9 + descBits d 32 32, ns := descBits d 32 32,
    id := descBits d 36 16 }

/-- The classes of a commit set: MASK 0 takes every class with staged changes. -/
def State.commitSet (s : State) (mask : Nat) : Nat := if mask = 0 then s.get GLB_STAGED_DIRTY else mask

/-- No valid staged SA names a slot that holds no key (R426). -/
def State.stagedSasOk (s : State) : Bool :=
  (listed s.fab.staged 15).all fun e =>
    !(256 ≤ e.1 && e.1 < 512 && ebit e.2 0 0) || slotValid (s.slotIn s.fab.staged (ebits e.2 4 0 8))

/-- Reserved fields 0 and arguments in range (R46, R47, R426). -/
def State.commitOk (s : State) (d : Desc) : Bool :=
  let a := commitArgs d
  descZero d 30 32 && descZero d 38 64 && descBits d 20 32 / 16 == 0 && decide (a.mask < 2 ^ 17) && (!a.fabric || a.timed)
    && (!a.emergency || s.commitSet a.mask &&& (2 ^ 17 - 1 - maskOf [3, 4, 5, 7]) == 0) && decide (a.ns ≤ 999999999)
    && (!a.timed || decide (a.at_ ≤ s.domNs 0 + 86400 * 10 ^ 9))
    && (!bit (s.commitSet a.mask) 15 || s.stagedSasOk)

/-! ### The heat (R48, R252–R256) -/

/-- The configuration that would be active (R48). -/
def State.candidate (s : State) (mask : Nat) : SMap Nat :=
  (List.range 17).foldl (fun b c => if bit mask c then copyClass s.fab.staged b c else b) s.fab.active

/-- Changes the commit in progress. -/
def State.jobSet (s : State) (j : Option CommitJob) : State := s.fset fun f => { f with job := j }

/-- The commit state becomes idle. -/
def State.commitIdle (s : State) : State := ((s.jobSet none).set GLB_CFG_STATE_STATE 0).set GLB_CFG_STATE_TIMED 0

/-- A commit begins: its heat runs (R48, R256). -/
def State.startHeat (s : State) (j : CommitJob) : State :=
  (((s.jobSet (some j)).set GLB_CFG_STATE_STATE 1).put GLB_CFG_STATE_TIMED j.timed).set GLB_CFG_STATE_COMMIT_ID j.id

/-- A heat has passed. -/
def heatPassed (r : HeatResult) : Bool := r.records.isEmpty && !r.trunc

/-- The HEAT registers show a heat (R252). -/
def State.showHeat (s : State) (r : HeatResult) (dry : Bool) (id us : Nat) : State :=
  let res := if heatPassed r then (if dry then 3 else 1) else if dry then 4 else 2
  let s1 := ((s.set HEAT_STATUS_RESULT res).set HEAT_STATUS_RECORDS r.records.length).put HEAT_STATUS_TRUNC r.trunc
  ((s1.set HEAT_STATUS_FIRST_CODE ((r.records.head?.map (·.code)).getD 0)).set HEAT_RUN_ID_COMMIT_ID id).set HEAT_RUN_TIME_TIME us

/-- The heat of a job ends after `us` µs: its result is kept, and shown. -/
def State.heatEnds (s : State) (j : CommitJob) (us : Nat) : State × CommitJob :=
  let r := s.runHeat (s.candidate j.mask)
  let j2 := { j with heat := r, heated := true }
  (((s.fset fun f => { f with lastHeat := r }).showHeat r j.dryRun j.id us).jobSet (some j2), j2)

/-! ### The swap and the drain (R41, R42, R50–R53, R116, R200, R209, R220) -/

/-- The ports whose gate list differs between two banks. -/
def gatePorts (old new : SMap Nat) : List Nat :=
  ((changedIn old new 9).map fun i =>
    if i ≥ 40960 then i - 40960 else if i ≥ 38912 then 32 + (i - 38912) / 64 else if i ≥ 32768 then 32 + i / 1024 else i / 1024).eraseDups

/-- No frame of an old epoch is left in the device (R53). -/
def State.drained (s : State) : Bool :=
  let e := s.get GLB_CFG_STATE_EPOCH
  (s.fab.rx.all fun x => x.2.epoch == e) && (s.fab.handles.all fun h => h.2.epoch == e)

/-- The end of the drain (R42, R53): refill, idle, COMMIT_DONE, and the completion of an immediate COMMIT (R49). -/
def State.drainEnds (s : State) : State :=
  match s.fab.job with
  | none => s
  | some j =>
    let cls := (List.range 17).filter fun c => bit j.mask c
    let s1 := s.fset fun f => { f with staged := cls.foldl (fun b c => copyClass f.active b c) f.staged, old := [] }
    let s2 := (s1.each cls fun t c => t.showStaged c).commitIdle.showLoad
    let s3 := s2.emit 0x0003 0 (args j.id (s2.get GLB_CFG_STATE_EPOCH + (if j.fabric then 2 else 0)) (s2.get HFP_FCG_GEN))
    if s3.runningKind = some .commit then s3.finishRunning 0 0 else s3

/-- Ends the drain where no frame of the old epoch is known any more. The model calls it in the row DRAIN_END alone, which says that the
last frame of the old epoch has left, those included that no row has named yet (R53, log 36). -/
def State.drainCheck (s : State) : State := if s.commitState = 3 && s.drained then s.drainEnds else s

/-- The tables of a unit have changed (R191, R326, R438): its image matches them no longer, and with EN = 1 its write begins. -/
def State.startImage (s : State) (u : ImgUnit) : State :=
  let go := fun (i : Island) (en busy valid : Fld) =>
    if !s.up i then s else if s.on en then (s.set busy 1).set valid 0 else s.set valid 0
  match u with
  | .ump => go .umpire UMP_IMG_EN UMP_STATUS_IMG_BUSY UMP_STATUS_IMG_VALID
  | .rig => go .edge RIG_IMG_EN RIG_STATUS_IMG_BUSY RIG_STATUS_IMG_VALID
  | .key => go .key KEY_IMG_EN KEY_STATUS_IMG_BUSY KEY_STATUS_IMG_VALID

/-- The images that a swap makes due. -/
def State.swapImages (s : State) (old : SMap Nat) (mask : Nat) : State :=
  let ch := fun c => bit mask c && !(changedIn old s.fab.active c).isEmpty
  let s1 := if ch 3 || ch 4 || ch 5 then s.startImage .ump else s
  let s2 := if ch 11 || ch 12 || ch 13 then s1.startImage .rig else s1
  if ch 15 then s2.startImage .key else s2

/-- HEAT_PAIRS of the active bank. -/
def State.showPairs (s : State) : State :=
  let ds := declsOf s.fab.active
  (s.set HEAT_PAIRS_DECLS ds.length).set HEAT_PAIRS_PAIRS (natSum (ds.map fun d => d.egress.length))

/-- What the dynamic state of the Fabric and Umpire islands does at a swap (R41, R116, R136, R150, R200, R205, R220). -/
def State.fabricSwapped (s : State) (old : SMap Nat) (mask : Nat) : State :=
  let ch := fun c => if bit mask c then changedIn old s.fab.active c else []
  let s1 := s.fset fun f =>
    { f with meters := f.meters.filter fun e => !(ch 7).contains e.1, shapers := f.shapers.filter fun e => !(ch 8).contains e.1,
             frer := f.frer.filterMap fun e =>
               if !(ch 2).contains e.1 then some e
               else if e.2.pending.isEmpty then none
               else some (e.1, { pending := e.2.pending.map fun p => { p with stale := true } }) }
  let s2 := s1.uset fun u => { u with tcamBad := u.tcamBad.filter fun i => !(ch 3).contains i,
                                      patBad := u.patBad.filter fun i => !(ch 4).contains i }
  let s3 := if bit mask 0 then s2.fdbSwapped else s2
  let s4 := s3.each (if bit mask 9 then gatePorts old s.fab.active else []) fun t n => (t.gateRecompute n).gateMoved n true
  s4.each (ch 10) fun t n =>
    ((t.svcSet n fun v => { v with entry := some (v.entry.getD (bankGet old 10 n)) }).showLanes n).frameBoundary n

/-- The swap of a job (R49–R53, R357 step 5). -/
def State.swapNow (s : State) (j : CommitJob) : State :=
  let old := s.fab.active
  let s1 := s.fset fun f => { f with active := s.candidate j.mask, old := old, heat := j.heat, swapTick := s.refTicks }
  let s2 := (s1.set GLB_CFG_STATE_EPOCH (1 - s.get GLB_CFG_STATE_EPOCH)).set GLB_CFG_STATE_STATE 3
  let s3 := if j.timed then s2
    else (s2.set GLB_COMMIT_SEC_SEC (s.domNs 0 / 10 ^ 9)).set GLB_COMMIT_NS_NS (s.domNs 0 % 10 ^ 9)
  let s4 := (((s3.fabricSwapped old j.mask).edgeSwapped old j.mask).showPairs).showStore
  let s5 := if bit j.mask 15 then s4.saSwapped old else s4
  let s6 := s5.swapImages old j.mask
  let s7 := if j.fabric && !j.upd then
      (((s6.set HFP_FCG_GEN ((s6.hfp.fabInit.map (·.fcg)).getD ((s6.hfp.fabMember.map (·.fcg)).getD (s6.get HFP_FCG_GEN)))).set
        HFP_COMMIT_STATUS_RESULT 1).set HFP_COMMIT_STATUS_PHASE 0).set HFP_FAB_STATUS_DIVERGED 0
        |>.bset fun b => { b with fabMember := none, fabInit := none }
    else s6
  s7

/-- A pending commit whose swap time has been reached swaps (R50); an update activation has its own row. -/
def State.swapDue (s : State) : State :=
  match s.fab.job with
  | none => s
  | some j => if s.commitState = 2 ∧ ¬j.upd ∧ s.domNs 0 ≥ j.at_ then s.swapNow j else s

/-- The commit becomes pending (R49): its swap time shows, for an update activation in UPD_T too (R455). -/
def State.commitPends (s : State) (j : CommitJob) : State :=
  let s1 := (((s.jobSet (some j)).set GLB_CFG_STATE_STATE 2).set GLB_COMMIT_SEC_SEC (j.at_ / 10 ^ 9)).set GLB_COMMIT_NS_NS (j.at_ % 10 ^ 9)
  if j.upd then (s1.set UPD_T_SEC_SEC (j.at_ / 10 ^ 9)).set UPD_T_NS_NS (j.at_ % 10 ^ 9) else s1

/-! ### The fabric-wide sequence (R357–R359) -/

/-- The body of a CMIT message (R359). -/
def cmitBody (phase result id mask t fcg first : Nat) (update dry : Bool) : List Byte :=
  beBytes 1 phase ++ beBytes 1 result ++ beBytes 2 id ++ beBytes 4 mask ++ beBytes 6 (t / 10 ^ 9) ++ beBytes 2 (if update then 1 else 0)
    ++ beBytes 4 (t % 10 ^ 9) ++ beBytes 4 fcg ++ beBytes 1 first ++ beBytes 1 (if dry then 1 else 0) ++ leBytes 6 0

/-- A CMIT message leaves for a member. -/
def State.sendCmit (s : State) (dst : Nat) (body : List Byte) : State := s.sendHfp (s.hfpMsg 0x0D dst 2 0 0 body)

/-- The initiator sends a phase to every device of a list. -/
def State.cmitAll (s : State) (f : FabInit) (l : List Nat) (phase : Nat) : State :=
  s.each l fun t m => t.sendCmit m (cmitBody phase 0 f.id f.mask f.t f.fcg 0 f.update f.dryRun)

/-- HFP_COMMIT_STATUS. -/
def State.showCmit (s : State) (id phase result peer : Nat) : State :=
  (((s.set HFP_COMMIT_STATUS_COMMIT_ID id).set HFP_COMMIT_STATUS_PHASE phase).set HFP_COMMIT_STATUS_RESULT result).set
    HFP_COMMIT_STATUS_PEER peer

/-- PREPARE_TIMEOUT and ARM_MARGIN in ns. -/
def State.prepareNs (s : State) : Nat := s.get HFP_COMMIT_CFG_PREPARE_TIMEOUT * 10 ^ 6
/-- ARM_MARGIN in ns. -/
def State.marginNs (s : State) : Nat := s.get HFP_COMMIT_CFG_ARM_MARGIN * 10 ^ 6

/-- The members of a fabric-wide commit: the partition without the device itself (R357). -/
def State.members (s : State) : List Nat := (List.range 32).filter fun f => bit s.partition f && f != s.ownId

/-- The initiator starts the sequence (R357 step 1). -/
def State.fabStart (s : State) (t id mask : Nat) (dry update : Bool) : State :=
  let f : FabInit := { members := s.members, waiting := s.members, t := t, fcg := (s.get HFP_FCG_GEN + 1) % 2 ^ 32, id := id,
                       mask := mask, dryRun := dry, update := update }
  ((s.bset fun b => { b with fabInit := some f }).showCmit id 1 0 0).cmitAll f f.members 1

/-- UPD_STATUS is to hold a state and a cause: one persistent write, which a worn word refuses (R449, R450, R502). -/
def State.updSet (s : State) (st cause : Nat) : State :=
  let v := cause * 2 ^ 24 + st
  if s.pwLast .updState = v || s.worn .updState then s else s.pwRequest [⟨.updState, v⟩]

/-- The update state changes (R449). -/
def State.updTo (s : State) (st : Nat) : State := s.updSet st s.updCause

/-- The initiator gives the sequence up with a status (R358): ABORT to all, the banks as they were. -/
def State.fabFail (s : State) (f : FabInit) (status result peer : Nat) : State :=
  let s1 := (s.bset fun b => { b with fabInit := some { f with aborting := true, waiting := f.members, done := true } }).showCmit f.id 0 result peer
  let s2 := (s1.cmitAll f f.members 5).commitIdle
  let s3 := if f.update && s2.updLive = 5 then s2.updTo 4 else s2
  s3.finishRunning status 0

/-- The lowest of a list of peers. -/
def lowest (l : List Nat) : Nat := l.foldl min 31

/-- All votes and the own heat are in: ARM, or the failure of R358. -/
def State.fabDecide (s : State) (f : FabInit) : State :=
  let own := f.own.getD 0
  let bad := (if own = 0 then [] else [(s.ownId, own)]) ++ f.failed
  let heat := (bad.filter fun e => e.2 == 5).map (·.1)
  if !heat.isEmpty then s.fabFail f 5 2 (lowest heat)
  else if !bad.isEmpty then s.fabFail f 12 3 (lowest (bad.map (·.1)))
  else if f.dryRun then
    (((s.bset fun b => { b with fabInit := none }).showCmit f.id 0 0 0).commitIdle).finishRunning 0 0
  else
    let f2 := { f with armed := true, waiting := f.members }
    let s1 := ((s.bset fun b => { b with fabInit := some f2 }).showCmit f.id 3 0 0).cmitAll f2 f2.members 3
    if f2.members.isEmpty then
      match s1.fab.job with
      | some j =>
        let s2 := (s1.bset fun b => { b with fabInit := some { f2 with done := true } }).commitPends { j with at_ := f.t }
        (if f.update then s2.updTo 5 else s2).finishRunning 0 0
      | none => s1
    else s1

/-- The sequence goes on once every vote and the own heat are in (R357 step 3). -/
def State.fabAdvance (s : State) : State :=
  match s.hfp.fabInit with
  | some f => if f.own.isSome && f.waiting.isEmpty && !f.armed && !f.aborting then s.fabDecide f else s
  | none => s

/-- Every ACK of ARM is in: the command completes and the initiator is pending (R357 step 4). -/
def State.fabArmed (s : State) : State :=
  match s.hfp.fabInit, s.fab.job with
  | some f, some j =>
    if f.armed && f.waiting.isEmpty && !f.done && !f.aborting then
      let s2 := (s.bset fun b => { b with fabInit := some { f with done := true } }).commitPends { j with at_ := f.t }
      (if f.update then s2.updTo 5 else s2).finishRunning 0 0
    else s
  | _, _ => s

/-- A member votes (R357 step 2, R359). -/
def State.sendVote (s : State) (m : FabMember) (result : Nat) : State :=
  s.sendCmit m.from_ (cmitBody 2 result m.id m.mask m.t m.fcg (if result = 5 then s.get HEAT_STATUS_FIRST_CODE else 0) m.update m.dryRun)

/-- A member answers with ACK. -/
def State.sendCmitAck (s : State) (m : FabMember) : State :=
  s.sendCmit m.from_ (cmitBody 4 0 m.id m.mask m.t m.fcg 0 m.update m.dryRun)

/-- The heat of a member has ended: it votes. A dry run leaves nothing behind (DEDUCED). -/
def State.memberVotes (s : State) (m : FabMember) (ok : Bool) : State :=
  let s1 := s.sendVote m (if ok then 0 else 5)
  if !ok then (((s1.bset fun b => { b with fabMember := none }).commitIdle).showCmit m.id 0 2 (s.ownId))
  else if m.dryRun then ((s1.bset fun b => { b with fabMember := none }).commitIdle).showCmit m.id 0 0 0
  else (s1.bset fun b => { b with fabMember := some { m with phase := 2 } }).showCmit m.id 2 0 0

/-- A member drops the commit with a RESULT (R358). -/
def State.memberDrops (s : State) (m : FabMember) (result : Nat) : State :=
  let s1 := ((s.bset fun b => { b with fabMember := none }).commitIdle).showCmit m.id 0 result 0
  if m.update && s1.updLive = 5 then s1.updTo 4 else s1

/-! ### Cancellation (R51, R399) -/

/-- What FROZEN = 1 does to the commit in progress (R399, R455): a running heat ends with STATE, a local pending commit is
cancelled, a fabric-wide one that holds ARM goes on. -/
def State.freezeCommits (s : State) : State :=
  match s.fab.job with
  | none => s
  | some j =>
    if s.commitState = 1 then
      match s.hfp.fabMember, s.hfp.fabInit with
      | some m, _ => if m.phase = 1 then (s.sendVote m 4).memberDrops m 3 else s
      | none, some f =>
        if f.armed || f.aborting then s
        else ((s.bset fun b => { b with fabInit := none }).cmitAll f f.members 5).commitIdle.refuseRunning 6 1
      | none, none => if j.own then s.commitIdle else s.commitIdle.refuseRunning 6 1
    else if s.commitState = 2 && !j.fabric then
      (if j.upd then s.commitIdle.updTo 4 else s.commitIdle)
    else s

end Sys2Proof.Machine
end

