-- ==== Sys2Proof/Machine/PortOps.lean ====
section
/-! DEFINITION. The operations on external ports that the link rows, power and reset share (R58–R90). -/
namespace Sys2Proof.Machine

/-- The state of port `n` beyond its registers. -/
def State.prtOf (s : State) (n : Nat) : PortSt := SMap.get s.prt {} n

/-- Changes the state of port `n` beyond its registers. -/
def State.prtSet (s : State) (n : Nat) (f : PortSt → PortSt) : State := { s with prt := SMap.upd s.prt {} n f }

/-- PRT_LINK_STATUS.STATE (R73). -/
def State.link (s : State) (n : Nat) : Nat := s.get (PRT_LINK_STATUS_STATE n)

/-- A T1 B-port or a G-port (R59). -/
def State.isT1 (s : State) (n : Nat) : Bool := n < 32 && s.get (PRT_MODE_MEDIA n) == 0

/-- A SerDes B-port. -/
def State.isSerdes (s : State) (n : Nat) : Bool := n < 8 && s.get (PRT_MODE_MEDIA n) == 1

/-- An S-port (R58). -/
def isS (n : Nat) : Bool := 32 ≤ n && n < 64

/-- The link fault of INJ point 12 is armed for the port (R93). -/
def State.linkForced (s : State) (n : Nat) : Bool := s.injArmedFor 12 n

/-- A PLCA node transmits on the segment of port `n` (R95). -/
def State.noteNode (s : State) (n k : Nat) : State := s.prtSet n fun p => { p with heard := SMap.insert p.heard k s.refTicks }

/-- Port `n` transmits on its own segment as the node of its role: the coordinator is node 0 (R95). In MAC loopback nothing is
transmitted. -/
def State.noteOwn (s : State) (n : Nat) : State :=
  if isS n && s.get (PRT_MODE_LOOPBACK n) ≠ 1 then s.noteNode n (if s.get (PRT_MODE_ROLE n) = 0 then 0 else s.get (PRT_PLCA_CFG_NODE_ID n)) else s

/-- NODES_SEEN: the distinct node IDs that transmitted in the last 1 s (R95); 0 on a port that is no S-port. -/
def State.nodesSeen (s : State) (n : Nat) : Nat :=
  if isS n then (List.range 16).countP fun k =>
    match SMap.find (s.prtOf n).heard k with
    | some t => decide (s.refTicks < t + 500000000)
    | none => false
  else 0

/-- Sets a PRT_LINK_EVENT bit and raises its event (R55, R383). -/
def State.linkEvent (s : State) (n : Nat) (f : Fld) (code arg1 : Nat) : State :=
  (s.set f 1).emit code n (args (s.rd (PRT_LINK_STATUS n)).toNat arg1)

/-- Shows a link state; SPEED_ACTIVE and ROLE_ACTIVE read 0 outside UP, HOLD_LEFT 0 outside HOLD; DEDUCED: SPEED_MISMATCH is
shown only while the port waits for its partner (R67). -/
def State.setLink (s : State) (n st : Nat) : State :=
  let s0 := s.set (PRT_LINK_STATUS_STATE n) st
  let s1 := if st = 1 ∨ st = 5 then s0 else s0.set (PRT_LINK_STATUS_SPEED_MISMATCH n) 0
  let s2 := if st = 4 then s1 else (s1.set (PRT_LINK_STATUS_SPEED_ACTIVE n) 0).set (PRT_LINK_STATUS_ROLE_ACTIVE n) 0
  if st = 5 then s2 else s2.set (PRT_LINK_STATUS_HOLD_LEFT n) 0

/-- Entry into UP with the LINK_UP event (R74); DEDUCED: a role that Clause 98 resolves is the one the link reports. -/
def State.enterUp (s : State) (n : Nat) (slave resumed : Bool) : State :=
  let role := s.get (PRT_MODE_ROLE n)
  let s1 := (s.setLink n 4).put (PRT_LINK_STATUS_RESUMED n) resumed
  let s2 := s1.set (PRT_LINK_STATUS_SPEED_ACTIVE n) (s.get (PRT_MODE_SPEED n))
  let s3 := s2.put (PRT_LINK_STATUS_ROLE_ACTIVE n) (if role = 2 then slave else role = 1)
  let s5 := if isS n then s3.set (PRT_PLCA_STATUS_PLCA_OK n) 1 else s3
  ((s5.prtSet n fun p => { p with linkOk := true, analog := false, probed := false }).mmLinkUp n).linkEvent n
    (PRT_LINK_EVENT_LINK_UP n) 0x0200 0

/-- What leaving UP does beside the lanes: PLCA and MAC merge fall, and an HFP adjacency goes DOWN (R338). -/
def State.leaveUp (s : State) (n : Nat) : State :=
  let s1 := if isS n then s.set (PRT_PLCA_STATUS_PLCA_OK n) 0 else s
  ((s1.prtSet n fun p => { p with linkOk := false }).mmLinkDown n).adjPortDown n

/-- The resume record stops being usable (R79). -/
def State.dropRecord (s : State) (n : Nat) : State := s.set (PRT_RESUME_INFO_VALID n) 0

/-- The port writes its resume record (R78), with what its PHY has converged to as free values. S-ports and SerDes ports keep
none. RESUME_CRC armed for the port corrupts the record's CRC (R93, R410). -/
def State.writeRecord (s : State) (n : Nat) : State :=
  if !s.isT1 n then s
  else
    let an := s.get (PRT_MODE_AN_EN n)
    let s1 := (s.set (PRT_RESUME_INFO_VALID n) 1).set (PRT_RESUME_INFO_PARTNER_KNOWN n) an
    let s2 := (s1.set (PRT_RESUME_INFO_SPEED n) (s.get (PRT_MODE_SPEED n))).set (PRT_RESUME_INFO_TJ n) (s.get COX_MON_TJ)
    let hit := s.injArmedFor 13 n
    let r : ResumeRec := { media := s.get (PRT_MODE_MEDIA n), speed := s.get (PRT_MODE_SPEED n),
                           role := s.get (PRT_MODE_ROLE n), anEn := an, coeffs := Config.phyCoeffs s.freeCtr,
                           echo := Config.phyEcho s.freeCtr,
                           page := if an = 1 then (Config.partnerPage s.freeCtr).toNat else 0, crcBad := hit }
    { ((if hit then s2.injSpend 13 else s2).set (PRT_RESUME_INFO_RTD n) (s.prtOf n).rtd).prtSet n fun p => { p with resume := r } with freeCtr := s.freeCtr + 1 }

/-- The MDI of the port drives, or is released. -/
def State.putMdi (s : State) (n : Nat) (on : Bool) : State :=
  { s with pins := { s.pins with mdiReleased := SMap.put s.pins.mdiReleased false n on } }

/-- The port leaves OFF with ENABLE = 1 on a powered line domain: LISTEN, or UP in MAC loopback with the MDI silent (R64, R74,
PRT_MODE.LOOPBACK). -/
def State.portLeaveOff (s : State) (n : Nat) : State :=
  if s.get (PRT_MODE_LOOPBACK n) = 1 then (s.putMdi n false).enterUp n false false else (s.putMdi n true).setLink n 1

/-- What a port beyond its registers is in OFF. -/
def PortSt.stop (p : PortSt) : PortSt :=
  { p with partner := false, linkOk := false, analog := false, probed := false, freshCoeffs := false }

/-- A diagnostic that runs is dropped. DESIGN CHOICE (log 120): its STATUS becomes 0 (idle) and no DIAG_DONE is raised; the spec does
not say what ENABLE = 0 makes of a running diagnostic's STATUS. -/
def State.dropDiag (s : State) (n : Nat) : State := if s.link n = 7 then s.set (PRT_DIAG_STATUS n) 0 else s

/-- A port in UP leaves it; in another state nothing changes. -/
def State.leaveIfUp (s : State) (n : Nat) : State := if s.link n = 4 then s.leaveUp n else s

/-- ENABLE = 0: OFF, all lanes and learned addresses flushed, the record invalid, the MDI silent (R64, R74, R87). -/
def State.portToOff (s : State) (n : Nat) : State :=
  (((((((s.leaveIfUp n).flushPort n).flushLearned (some n) none).dropRecord n).putMdi n false).dropDiag n).setLink n 0).prtSet
    n PortSt.stop

/-- A frame takes an MDIO bus and is sent (R72). -/
def State.mdioTake (s : State) (f : MdioFrame) : State :=
  { s with mdioBus := SMap.insert s.mdioBus (f.port / 4) f, mdioOut := s.mdioOut ++ [f],
           pins := { s.pins with mdcOn := setBits s.pins.mdcOn (f.port / 4) 1 1 } }

/-- The frame on a bus is over: the next frame of the bus starts, or MDC stops (R72). -/
def State.mdioNext (s : State) (bus : Nat) : State :=
  match s.mdioQueue.find? fun q => q.port / 4 == bus with
  | some q => { s with mdioQueue := s.mdioQueue.erase q }.mdioTake q
  | none => { s with mdioBus := SMap.erase s.mdioBus bus, pins := { s.pins with mdcOn := setBits s.pins.mdcOn bus 1 0 } }

/-- The port enters SLEEP: its record, then its lanes and learned addresses flushed (R74, R78, R83). -/
def State.portSleep (s : State) (n : Nat) : State :=
  let s1 := s.writeRecord n
  ((((s1.leaveUp n).flushPort n).flushLearned (some n) none).setLink n 6).prtSet n fun p =>
    { p with partner := false, linkOk := false }

/-- A sleeping port wakes as from OFF: toward RESUME after the analog start with a usable record, else LISTEN
(R74, R80); in MAC loopback it is UP at once (PRT_MODE.LOOPBACK). -/
def State.portWake (s : State) (n : Nat) : State :=
  if s.link n ≠ 6 ∨ !s.up .port n then s
  else if s.get (PRT_MODE_ENABLE n) = 0 then s.setLink n 0
  else if s.on (PRT_RESUME_INFO_VALID n) && s.get (PRT_MODE_LOOPBACK n) ≠ 1 then s.prtSet n fun p => { p with analog := true }
  else s.portLeaveOff n

/-- A resume check fails with a code (R80): the record is consumed; codes 2–8 raise the event and count. -/
def State.resumeFallback (s : State) (n code : Nat) (partner : Bool) : State :=
  let s1 := (s.set (PRT_LINK_STATUS_FALLBACK n) code).dropRecord n
  let s2 := s1.prtSet n fun p => { p with partner := partner, analog := false, probed := false, linkOk := false }
  let s3 := s2.setLink n (if code ≥ 2 && partner then 2 else 1)
  if code ≥ 2 then
    (s3.inc (PRT_RESUME_RESUME_FALLBACK n)).linkEvent n (PRT_LINK_EVENT_RESUME_FALLBACK n) 0x0203 0
  else s3

/-- A resume reaches UP (R80, R81): RESUMED, RESUME_OK counts, the record is consumed (R79). -/
def State.resumeUp (s : State) (n : Nat) : State :=
  (((s.set (PRT_LINK_STATUS_FALLBACK n) 0).dropRecord n).inc (PRT_RESUME_RESUME_OK n)).enterUp n (s.prtOf n).slave true

/-- The checks of R80 that need only the record, at entry into RESUME. -/
def State.resumeStart (s : State) (n : Nat) (crcOk partner : Bool) : State :=
  let r := (s.prtOf n).resume
  let s1 := (s.setLink n 3).prtSet n fun p => { p with analog := false, probed := false, linkOk := false, partner := partner }
  let dt := sext 8 (s.get COX_MON_TJ) - sext 8 (s.get (PRT_RESUME_INFO_TJ n))
  if s.get (PRT_LINK_CFG_RESUME_EN n) = 0 ∨ !s.on (PRT_RESUME_INFO_VALID n) then s1.resumeFallback n 1 partner
  else if r.crcBad || !crcOk then s1.resumeFallback n 2 partner
  else if r.media ≠ s.get (PRT_MODE_MEDIA n) ∨ r.speed ≠ s.get (PRT_MODE_SPEED n) ∨ r.role ≠ s.get (PRT_MODE_ROLE n)
      ∨ r.anEn ≠ s.get (PRT_MODE_AN_EN n) then s1.resumeFallback n 3 partner
  else if dt > 40 ∨ dt < -40 then s1.resumeFallback n 4 partner
  else s1

/-- Hold expiry (R86): every frame and learned entry of the port goes, and it retrains or listens. -/
def State.holdExpire (s : State) (n : Nat) (partner : Bool) : State :=
  let s1 := (s.flushPort n).flushLearned (some n) none
  let s2 := (s1.setLink n (if s.isT1 n && partner then 2 else 1)).prtSet n fun p => { p with partner := partner }
  s2.linkEvent n (PRT_LINK_EVENT_HOLD_EXPIRED n) 0x0202 0

/-- Link status FAIL in UP (R84): HOLD, the reserved lanes and the frame in transmission discarded, LINK_DOWN; with
LINK_HOLD = 0 the hold expires at once. -/
def State.linkFail (s : State) (n : Nat) (partner : Bool) : State :=
  let hold := s.get (PRT_LINK_CFG_LINK_HOLD n)
  let s1 := ((s.leaveUp n).setLink n 5).inc (PRT_LINK_DOWN_COUNT n)
  let s2 := (s1.set (PRT_LINK_STATUS_HOLD_LEFT n) hold).prtSet n fun p =>
    { p with partner := partner, holdEnd := s.refTicks + hold * 500000, freshCoeffs := false }
  let s3 := (s2.discardReserved n).discardInTransmission n
  let s4 := s3.linkEvent n (PRT_LINK_EVENT_LINK_DOWN n) 0x0201 0
  if hold = 0 then s4.holdExpire n partner else s4

end Sys2Proof.Machine
end

