-- ==== Sys2Proof/Machine/ResetOps.lean ====
section
/-! DEFINITION. What a reset or a power-down of an island loses, what its start brings back, table images, and the
sleep image (R65, R191, R326, R407, R438, R461, R466–R468, R485, R490). -/
namespace Sys2Proof.Machine

/-! ### Lifecycle (R407) -/

/-- Cox debug is granted by lifecycle state and owner lock (R407). -/
def State.debugAllowed (s : State) : Bool :=
  let l := s.get COX_LIFECYCLE_STATE
  l == 0 || l == 3 || (l == 1 && !s.on COX_LIFECYCLE_OWNER_LOCK)

/-- INJ_CTRL.EN may be set (R407). -/
def State.injAllowed (s : State) : Bool :=
  let l := s.get COX_LIFECYCLE_STATE
  l == 0 || l == 3 || !s.on COX_LIFECYCLE_OWNER_LOCK

/-- A TC10 signal leaves on a port: 0 a sleep request, 1 an acknowledgement, 2 a wake-up request. -/
def State.sendTc10 (s : State) (n k : Nat) : State := { s with pwr := { s.pwr with tc10Out := s.pwr.tc10Out ++ [(n, k)] } }

/-! ### Registers that a reset clears -/

/-- The word at `a` belongs to an island, for a port island to port `n`, and is lost with its power: neither fuses or
RRAM hold it nor an AON shadow (R65, R461). -/
def lostWord (i : Island) (n : Nat) (a : Nat) : Bool :=
  match regAt a with
  | none => false
  | some r => r.1.island == i && (i != .port || r.2.1.headD 0 == n) && !r.1.stored && !r.1.shadow

/-- The registers of an island return to their reset values, and the words latched for their reads go. -/
def State.clearRegs (s : State) (i : Island) (n : Nat) : State :=
  { s with regs := SMap.keep s.regs fun a => !lostWord i n a, latch := SMap.keep s.latch fun a => !lostWord i n a }

/-- A word that a device reset keeps: fuses and RRAM, and the RST block except at power-on (R485). -/
def resetKeeps (cause a : Nat) : Bool :=
  match regAt a with
  | none => false
  | some r => r.1.stored || (cause != 1 && (r.1.reg == .RST_CAUSE || r.1.reg == .RST_START))

/-! ### Table images (R191, R326, R438) -/

/-- The number of a unit that keeps an image. -/
def unitIdx : ImgUnit → Nat
  | .ump => 0
  | .rig => 1
  | .key => 2

/-- The classes of a unit. -/
def unitClasses : ImgUnit → List Nat
  | .ump => [3, 4, 5]
  | .rig => [11, 12, 13]
  | .key => [15]

/-- IMG.EN of a unit. -/
def unitEn : ImgUnit → Fld
  | .ump => UMP_IMG_EN
  | .rig => RIG_IMG_EN
  | .key => KEY_IMG_EN

/-- STATUS.READY of a unit. -/
def unitReady : ImgUnit → Fld
  | .ump => UMP_STATUS_READY
  | .rig => RIG_STATUS_READY
  | .key => KEY_STATUS_READY

/-- STATUS.CLOSED of a unit. -/
def unitClosed : ImgUnit → Fld
  | .ump => UMP_STATUS_CLOSED
  | .rig => RIG_STATUS_CLOSED
  | .key => KEY_STATUS_CLOSED

/-- STATUS.IMG_VALID of a unit. -/
def unitImgValid : ImgUnit → Fld
  | .ump => UMP_STATUS_IMG_VALID
  | .rig => RIG_STATUS_IMG_VALID
  | .key => KEY_STATUS_IMG_VALID

/-- STATUS.IMG_BUSY of a unit. -/
def unitImgBusy : ImgUnit → Fld
  | .ump => UMP_STATUS_IMG_BUSY
  | .rig => RIG_STATUS_IMG_BUSY
  | .key => KEY_STATUS_IMG_BUSY

/-- BASE of a unit's image. -/
def unitImgBase : ImgUnit → Fld
  | .ump => UMP_IMG_BASE
  | .rig => RIG_IMG_BASE
  | .key => KEY_IMG_BASE

/-- The island of a unit. -/
def unitIsland : ImgUnit → Island
  | .ump => .umpire
  | .rig => .edge
  | .key => .key

/-- A bank restricted to the classes of a list. -/
def bankOnly (l : List Nat) (b : SMap Nat) : SMap Nat := b.filter fun e => l.contains (e.1 / 2 ^ 20)

/-- A bank with the classes of a list taken from another. -/
def bankWith (l : List Nat) (src dst : SMap Nat) : SMap Nat := l.foldl (fun b c => copyClass src b c) dst

/-- Both banks of the classes of a list take contents, and GLB_STAGED follows (R191). -/
def State.loadBanks (s : State) (l : List Nat) (b : SMap Nat) : State :=
  let s1 := s.fset fun f => { f with active := bankWith l b f.active, staged := bankWith l b f.staged }
  s1.each l fun t c => t.showStaged c

/-- The key of a unit's image in DRAM: its 2 MiB region and the unit. -/
def State.imgKey (s : State) (u : ImgUnit) : Nat := 4 * s.get (unitImgBase u) + unitIdx u

/-- The image of a unit as it stands in DRAM after a write, in the place of what its region held (R164, R191, R438). -/
def State.writeImage (s : State) (u : ImgUnit) : State :=
  let k := s.imgKey u
  let s1 := s.dramTaken (k / 4 * 2 ^ 21) (2 ^ 21)
  { s1 with dram := { s1.dram with images := SMap.insert s1.dram.images k (bankOnly (unitClasses u) s.fab.active) } }

/-- The image of a unit can be loaded: DRAM is ready and the image has been written since the last training (R191). -/
def State.imageThere (s : State) (u : ImgUnit) : Bool := s.dramReady && (SMap.find s.dram.images (s.imgKey u)).isSome

/-- What the SAs of class 15 resume with after a load (R438); AON's copy serves once. -/
def State.resumeSas (s : State) : State :=
  ((s.each (List.range 256) fun t a => t.restorePn a).kset fun k => { k with savedPn := [] }).each (List.range 32) fun t n => t.showMac n

/-- What a unit's tables bring about once they stand. -/
def State.unitTaken (s : State) (u : ImgUnit) : State :=
  match u with
  | .ump => s
  | .rig => s.routesLoaded
  | .key => s.resumeSas

/-- The Umpire or the Rigger has its tables from no image: firmware takes them from flash at its start (R445). -/
def State.tablesLack (s : State) (u : ImgUnit) : State :=
  if u = .key then s else { s with pwr := { s.pwr with tablesDue := s.pwr.tablesDue.filter (· ≠ unitIdx u) ++ [unitIdx u] } }

/-- A unit starts with its island (R191): with EN = 1 its image loads, else it takes the reset content at once; a key unit that was reset
keeps its port entries (R490). -/
def State.unitStarts (s : State) (u : ImgUnit) : State :=
  if s.on (unitEn u) then { s with pwr := { s.pwr with loading := s.pwr.loading.filter (· ≠ unitIdx u) ++ [unitIdx u] } }
  else if u = .key && s.key.closed then (s.set KEY_STATUS_READY 1).resumeSas
  else (((s.loadBanks (unitClasses u) resetBank).set (unitReady u) 1).unitTaken u).tablesLack u

/-- Every enabled unit that is powered has loaded its image (R468). -/
def State.imagesLoaded (s : State) : Bool :=
  [ImgUnit.ump, .rig, .key].all fun u => !s.on (unitEn u) || !s.pdOn (domainOf (unitIsland u) 0) || !s.on (unitClosed u)

/-- The images of powered units are brought up to date (R470 step 3). -/
def State.refreshImages (s : State) : State :=
  s.each [ImgUnit.ump, .rig, .key] fun t u =>
    let t1 := t.set (unitImgBusy u) 0
    if t.up (unitIsland u) && t.on (unitEn u) && t.dramReady then (t1.writeImage u).set (unitImgValid u) 1 else t1

/-! ### The frame store (R97–R100) -/

/-- RUN = 1 with a legal carve: every handle and bitmap is cleared, the pools take their sizes (R100). -/
def State.fstStart (s : State) : State :=
  let s1 := s.fset fun f => { f with handles := [], badWords := [], suspect := [], rewritten := [], deadHandles := [], parityDue := [],
                                     lanes := [], quotaPeak := [], scrub := 0 }
  let s2 := s1.set FST_CTRL_RUN 1
  let bank := s.get (INJ_ARM_TARGET 8)
  let w := (List.range 256).find? fun w => (s.wordAt w).any fun r => (r.2.1 + r.2.2) % 16 == bank
  match w with
  | some k => s2.writeWord bank k
  | none => s2

/-- The store is ready (R100): its pools have their chunks, and allocation begins (R101, R251). -/
def State.fstReady (s : State) : State :=
  let s1 := s.each (List.range 4) fun t p =>
    (t.set (FST_POOL_INFO_CHUNKS p) (t.granules p * perGranule p)).set (FST_POOL_LOW_LOW p) (t.granules p * perGranule p)
  ((s1.set FST_HANDLE_LOW_LOW 131072).set FST_STATUS_READY 1).showStore

/-! ### The sleep image (R467) -/

/-- The classes of the sleep image. -/
def sleepClasses : List Nat := [0, 1, 2, 6, 7, 8, 9, 10, 14, 16]

/-- The bits of word `w` of a register that software sets up. -/
def setupMask (d : RegDef) (w : Nat) : Nat :=
  let m := d.fields.foldl (fun m f => if f.acc = .rw || f.acc = .rwl then m ||| ((2 ^ (f.hi - f.lo + 1) - 1) * 2 ^ f.lo) else m) 0
  m / 2 ^ (32 * w) % 2 ^ 32

/-- The set-up bits of the word at `a`, for a register of the Fabric island. -/
def fabricSetup (a : Nat) : Nat :=
  match regAt a with
  | none => 0
  | some r => if r.1.island = .fabric then setupMask r.1 r.2.2 else 0

/-- What sleep entry writes (R467). -/
def State.sleepImage (s : State) : SleepImage :=
  { banks := bankOnly sleepClasses s.fab.active, regs := s.regs.filter fun e => fabricSetup e.1 != 0, heat := s.fab.heat }

/-- A set-up word of the Fabric island takes its stored value back. -/
def State.restoreWord (s : State) (a : Nat) (v : Word) : State :=
  let m := BitVec.ofNat 32 (fabricSetup a)
  s.wr a ((s.rd a &&& ~~~m) ||| (v &&& m))

/-- The Fabric island runs on restored tables: gates, pairs, the frame store and the bridge (R467). -/
def State.fabricRestored (s : State) : State :=
  let s1 := (s.each (List.range 70) fun t n => t.gateRecompute n).showPairs
  (if s1.on FST_CTRL_RUN then s1.fstStart else s1).showFabric

/-- A valid sleep image returns into both banks, with its registers and its heat (R467). -/
def State.restoreImage (s : State) (i : SleepImage) : State :=
  let s1 := (s.loadBanks sleepClasses i.banks).fset fun f => { f with heat := i.heat }
  (s1.each i.regs fun t e => t.restoreWord e.1 e.2).fabricRestored

/-! ### What an island loses (R461, R490) -/

/-- The message of a peer that waits; an access of this device has none. -/
def BusWait.msg : BusWait → Option HfpMsg
  | .peer _ m | .cmd _ m => some m
  | .lock w => some w.msg
  | .write _ _ _ | .read _ _ | .span _ _ _ | .kick _ _ _ _ | .retest _ _ => none

/-- An access of this device that waits for the bus, which a reset of the bridge does not lose. -/
def waitIsLocal (w : BusWait) : Bool := w.msg.isNone

/-- What the assembly buffer of a port keeps of a frame over a reset of the Fabric island (R105, R485): its octets and what the MAC and
the Umpire know of it. -/
def RxFrame.keptInPort (x : RxFrame) (epoch : Nat) : RxFrame :=
  { port := x.port, bytes := x.bytes, epoch := epoch, stamp := x.stamp, arrival := x.arrival, secured := x.secured, desc := x.desc,
    ended := x.ended, ctTried := true, bad := x.bad, settled := x.bad }

/-- The Fabric island: stored frames, its classes, learned entries, adjacencies and everything else that is dynamic, with the egress
records of copies it cuts off (R275). Frames that are still in the assembly buffers of the ports, which have islands of their own,
stay (R105). DEDUCED (log 116): R485 names the island alone, and the epoch of such a frame is the one that follows the reset. -/
def State.fabricLost (s : State) : State :=
  let others := (List.range 17).filter fun c => !sleepClasses.contains c
  let held := s.fab.rx.filterMap fun e => if e.1 / 2 ^ 32 < 64 && e.2.handle.isNone then some e else none
  let f : Fabric := { rx := held, active := bankWith others s.fab.active resetBank, staged := bankWith others s.fab.staged resetBank,
                      ageTick := s.refTicks, nextFrame := s.fab.nextFrame, lineOut := s.fab.lineOut, lineErr := s.fab.lineErr }
  let s0 := { s with fab := f, hfp := { out := s.hfp.out, results := s.hfp.results, busWait := s.hfp.busWait.filter waitIsLocal } }.clearRegs .fabric 0
  let s1 := s0.fset fun g => { g with rx := g.rx.map fun e => (e.1, e.2.keptInPort (s0.get GLB_CFG_STATE_EPOCH)) }
  let done := s1.tim.stampsWait.filterMap fun e =>
    let l := e.2.filter (·.ready)
    if l.isEmpty then none else some (e.1, l)
  let s2 := { s1 with tim := { s1.tim with stampsWait := done } }
  s2.each (List.range 17) fun t c => t.showStaged c

/-- Staged changes of the classes of a unit are lost (R190). -/
def State.stagedLost (s : State) (u : ImgUnit) : State :=
  let s1 := s.fset fun f => { f with staged := bankWith (unitClasses u) f.active f.staged }
  s1.each (unitClasses u) fun t c => t.showStaged c

/-- A descriptor still on its way to the Fabric ends with the Umpire: its frame finds none and is dropped (R190, R489). -/
def RxFrame.descLost (x : RxFrame) : RxFrame :=
  if x.desc.isSome && !x.descHere then { x with desc := some { outcome := 3 } } else x

/-- The Umpire: staged changes and pinholes, and the descriptors in flight (R190, R489). -/
def State.umpLost (s : State) : State :=
  let cut := s.fab.rx.filter fun e => e.2.desc.isSome && !e.2.descHere
  let s1 := (s.add UMP_OFF_DROP_COUNT cut.length).fset fun f => { f with rx := f.rx.map fun e => (e.1, e.2.descLost) }
  { (s1.clearRegs .umpire 0).stagedLost .ump with ump := {} }

/-- The Time island: every domain, Catch pins low, Buoy FIFOs empty (R271, R490). -/
def State.timeLost (s : State) : State :=
  let s1 := { (s.clearRegs .time 0) with tim := { saved := s.tim.saved }, pins := { s.pins with catchHigh := 0 } }
  (s1.each (List.range 4) fun t d => t.gatesFollow d).showFabric

/-- The Edge island: every channel OFF, no entry of classes 11–13 valid, the Rigger's state (R303, R307, R317, R326, R490). -/
def State.edgeLost (s : State) : State :=
  { (s.clearRegs .edge 0).loadBanks (unitClasses .rig) resetBank with edge := { canMarks := s.edge.canMarks, canOut := s.edge.canOut, linOut := s.edge.linOut } }

/-- A bank whose class 15 keeps its port entries alone (R429). -/
def portsOnly (b : SMap Nat) : SMap Nat :=
  b.filter fun e => e.1 / 2 ^ 20 != 15 || (decide (512 ≤ e.1 % 2 ^ 20) && decide (e.1 % 2 ^ 20 < 544))

/-- The Key island: the slots and SAs of class 15 go with its memory, and its port entries stay in force (R437, R490). STMT_SEQ counts anew
(R436). -/
def State.keyLost (s : State) : State :=
  (((s.clearRegs .key 0).fset fun f => { f with active := portsOnly f.active }).stagedLost .key).kset fun k =>
    { k with statements := 0, oldPn := [], slotErr := k.slotErr.filter (·.1 < 8) }

/-- The Host island (R368): rings stop; a running command runs on without a writeback and without its CMD_DONE record. -/
def State.hostLost (s : State) : State :=
  let run := s.hif.running.map fun r => { r with cut := true }
  { (s.clearRegs .host 0) with hif := { running := run, perstLow := s.hif.perstLow, heldEvents := s.hif.heldEvents } }

/-- The PCIe link trains, or does not: lanes and speed code in HIF_STATUS. -/
def State.pcieLink (s : State) (link : Option (Fin 3 × Fin 4)) : State :=
  match link with
  | some (w, g) => ((s.set HIF_STATUS_LINK_UP 1).set HIF_STATUS_WIDTH (2 ^ w.val)).set HIF_STATUS_SPEED (g.val + 1)
  | none => s

/-- The PCIe link that HIF_STATUS shows. -/
def State.linkNow (s : State) : Option (Fin 3 × Fin 4) :=
  if s.on HIF_STATUS_LINK_UP then
    some (Fin.ofNat 3 (s.get HIF_STATUS_WIDTH / 2), Fin.ofNat 4 (s.get HIF_STATUS_SPEED - 1))
  else none

/-- The recorder is OFF and DRAM is not trained (R490). -/
def State.dramLost (s : State) : State :=
  let d : DramUnit := { bytes := s.dram.bytes, epoch := s.dram.epoch, badWords := s.dram.badWords }
  { (s.clearRegs .dram 0) with dram := d }

/-- DRAM loses what it held, and no image in it matches the active banks (R191). -/
def State.dramForgets (s : State) : State :=
  { s with dram := { s.dram with bytes := [], badWords := [], images := [], sleepImg := none, epoch := s.dram.epoch + 1 } }.each
    [ImgUnit.ump, .rig, .key] fun t u => t.set (unitImgValid u) 0

/-- The frames that a port was receiving are lost with its assembly buffers (R105): one that is being written to the store as well
stays there as a bad frame. -/
def State.assemblyLost (s : State) (n : Nat) : State :=
  s.each (s.fab.rx.filter fun e => e.1 / 2 ^ 32 == n && !(e.2.ended && e.2.handle.isSome)) fun t e =>
    let t1 := ((t.fset fun f => { f with rx := SMap.erase f.rx e.1 }).adjustCharge e.2).frerSettle e.1 false
    match e.2.handle with
    | none => t1
    | some h => t1.readHandle h fun _ => ((t1.markBad h).abortCopies h).freeIfDone h

/-- The MDIO frames of a port are gone; the next frame of its bus starts (R72). DESIGN CHOICE (log 121): the spec does not say what
becomes of a frame of a port whose island is reset or whose line domain goes off; it is dropped at once. -/
def State.mdioLost (s : State) (n : Nat) : State :=
  let s1 := { s with mdioQueue := s.mdioQueue.filter fun q => q.port != n }
  match SMap.find s.mdioBus (n / 4) with
  | some f => if f.port = n then s1.mdioNext (n / 4) else s1
  | none => s1

/-- A port beyond its AON shadow and its resume record (R65, R78); a record in use ends with RESUME (R79). The frames that it was
receiving are lost with its assembly buffer (R105). -/
def State.portLost (s : State) (n : Nat) : State :=
  let s0 := if s.link n = 3 then s.dropRecord n else s
  let s1 := if s0.link n = 0 then s0 else ((s0.leaveIfUp n).flushPort n).flushLearned (some n) none
  ((((s1.assemblyLost n).mdioLost n).clearRegs .port n).putMdi n false).prtSet n fun p => { resume := p.resume }

/-- A port whose line domain reaches power-good (R65, R74): every register but the AON shadow at its reset value; OFF unless
enabled; RESUME follows the analog start when it has a usable record, MAC loopback is UP at once. DESIGN CHOICE (log 70): without a usable record the port
listens as R74 has it and FALLBACK keeps the 0 of the power-up, though R80 gives code 1 to a resume without a record. -/
def State.portPowerGood (s : State) (n : Nat) : State :=
  let s1 := (s.clearRegs .port n).prtSet n fun p => { resume := p.resume }
  if s1.get (PRT_MODE_ENABLE n) = 0 then s1
  else if s1.on (PRT_RESUME_INFO_VALID n) && s1.isT1 n && s1.get (PRT_MODE_LOOPBACK n) ≠ 1 then
    (s1.putMdi n true).prtSet n fun p => { p with analog := true }
  else s1.portLeaveOff n

/-- The Cox island in Sleep (R466): what AON does not keep. -/
def State.coxLost (s : State) : State :=
  let gone := fun a => match regAt a with
    | some r => r.1.reg == .GLB_ACCESS_ERR || r.1.reg == .GLB_ACCESS_ADDR || r.1.reg == .INJ_CTRL || r.1.reg == .INJ_ARM
    | none => false
  { s with regs := SMap.keep s.regs fun a => !gone a,
           cox := { s.cox with events := [], rxFrames := [], stamps := [], coresHeld := true, wdog := [], wdogSecond := [] } }

/-- An island is reset: its registers return to their reset values and its dynamic state is lost (R490). -/
def State.clearIsland (s : State) (i : Island) (n : Nat) : State :=
  match i with
  | .fabric => s.fabricLost
  | .umpire => s.umpLost
  | .time => s.timeLost
  | .edge => s.edgeLost
  | .key => s.keyLost.kset fun k => { k with closed := true, savedPn := [] }
  | .host => s.hostLost
  | .dram => { s.dramLost with dram := { s.dramLost.dram with images := [] } }
  | .port => s.portLost n
  | _ => s

/-- A power domain has gone off: its islands lose their state (R461). In sleep DRAM is in self-refresh (R467). -/
def State.domainLost (s : State) (pd : Nat) : State :=
  match pd with
  | 1 => s.coxLost
  | 2 => s.timeLost
  | 3 => s.fabricLost
  | 4 => s.umpLost
  | 5 => s.edgeLost
  | 6 => s.keyLost
  | 7 => { s.hostLost with pins := { s.pins with pcieTxOn := false } }
  | 8 =>
    if s.power = 3 && s.on REC_DRAM_STATUS_READY then
      { s.dramLost with pwr := { s.pwr with selfRefresh := some (s.rd REC_DRAM_CFG, s.rd REC_DRAM_STATUS) },
                        dram := { s.dramLost.dram with images := s.dram.images, sleepImg := s.dram.sleepImg } }
    else s.dramLost.dramForgets
  | 14 => s.set COX_STATUS_DEBUG 0
  | _ => s.each ((List.range 64).filter fun n => domainOf .port n == pd) fun t n => t.portLost n

/-- PD8 reaches power-good: DRAM leaves self-refresh without training (R467); DEDUCED: its set-up and status read as
before. -/
def State.dramPowerUp (s : State) : State :=
  match s.pwr.selfRefresh with
  | some r => ({ s with pwr := { s.pwr with selfRefresh := none } }.wr REC_DRAM_CFG r.1).wr REC_DRAM_STATUS r.2
  | none => s

/-- The recovery service writes the bridge's registers from the boot configuration, and the management port's bit in HFP_PORTS, once
the Fabric island is up in Boathouse (R336). -/
def State.bootBridge (s : State) : State :=
  match s.pwr.bootHfp with
  | none => s
  | some b =>
    if s.power = 2 && s.up .fabric then
      let n := s.get OPT_BOOT_MGMT_PORT
      let only := fun (a : Nat) (v : Word) => BitVec.ofNat 32 (v.toNat &&& fabricSetup a)
      let s1 := ((s.wr HFP_CFG (only HFP_CFG b.cfg)).wr HFP_ETYPE (only HFP_ETYPE b.etype)).wr HFP_MAC_LO (only HFP_MAC_LO b.macLo)
      let s2 := (s1.wr HFP_MAC_HI (only HFP_MAC_HI b.macHi)).set (HFP_PORTS_PORTS (n / 32)) (setBits 0 (n % 32) 1 1)
      { s2 with pwr := { s2.pwr with bootHfp := none } }.showFabric
    else s

/-- An island starts (R461, R489, R490): its table image loads, or it takes the reset content. -/
def State.islandStarts (s : State) (i : Island) (_n : Nat) : State :=
  match i with
  | .fabric => (s.fset fun f => { f with ageTick := s.refTicks }).bootBridge
  | .umpire => s.unitStarts .ump
  | .edge => s.unitStarts .rig
  | .key => s.firstSeed.unitStarts .key
  | _ => s

/-! ### Device resets (R485) -/

/-- The units of a device reset beyond their registers. -/
def State.unitsCleared (s : State) (cause : Nat) : State :=
  { s with
    pins := { railsOut := s.pins.railsOut, edgeBank := s.pins.edgeBank, timeBank := s.pins.timeBank }
    hif := { perstLow := s.hif.perstLow }
    cox := { keyHash := s.cox.keyHash, startCode := cause, firmware := s.cox.firmware }
    pwr := { xtalFailed := s.pwr.xtalFailed, aon := s.pwr.aon, tc10Out := s.pwr.tc10Out }
    prt := []
    mdioQueue := []
    mdioBus := []
    jtag := { tdo := s.jtag.tdo }
    tim := {}
    ump := {}
    hfp := { out := s.hfp.out, results := s.hfp.results }
    edge := { canMarks := s.edge.canMarks, canOut := s.edge.canOut, linOut := s.edge.linOut } }

/-- The stores that a device reset keeps in part: banks, DRAM, RRAM slots, and persistent words. -/
def State.storesCleared (s : State) : State :=
  { s with
    fab := { active := resetBank, staged := resetBank, ageTick := s.refTicks, nextFrame := s.fab.nextFrame, lineOut := s.fab.lineOut, lineErr := s.fab.lineErr }
    dram := { bytes := s.dram.bytes, epoch := s.dram.epoch, badWords := s.dram.badWords }
    key := { ownerSeed := s.key.ownerSeed, slots := s.key.slots, fromManufacture := s.key.fromManufacture, wear := s.key.wear,
             slotErr := s.key.slotErr.filter (·.1 < 8), badSeals := s.key.badSeals, seals := s.key.seals }
    upd := { s.upd with todo := [], tries := 0, revertedDue := s.upd.revertedDue } }

/-- The reset unit after a device reset: a write in progress has kept the old value (R501). -/
def State.rstCleared (s : State) : State :=
  { s with rst := { s.rst with pw := [], islands := if s.hif.perstLow then [islandKey .host 0] else [], optInj := none, asked := false } }

/-- RST_CAUSE after a device reset (R484). -/
def State.recordReset (s : State) (cause : Nat) : State :=
  let s1 := s.set RST_CAUSE_CAUSE cause
  let s2 := if cause = 1 then s1 else (s1.incWrap RST_CAUSE_RESETS).set RST_START_BOATHOUSE 0
  if cause = 2 then s2.set RST_START_START_OPEN 0 else s2

/-- What a device reset clears (R485). The queue of commands given from outside is no state of the device. -/
def State.clearDevice (s : State) (cause : Nat) : State :=
  let still := s.get WAK_STATUS_STILL
  let s1 := { s with regs := SMap.keep s.regs (resetKeeps cause), latch := [] }
  let s2 := ((s1.unitsCleared cause).storesCleared).rstCleared
  let s3 := if cause ≤ 2 then s2.dramForgets else s2
  let s4 := (s3.set WAK_STATUS_STILL still).recordReset cause
  s.holdFaultN s4

/-! ### Declared paths (R462) -/

/-- Switching off the domains of a mask would take a declared path or the time that declarations and gate lists need
(R462). -/
def State.lostDeclared (s : State) (m : Nat) : Bool :=
  let ds := declsOf s.fab.active
  (ds.any fun d => (d.inPort :: d.egress).any fun n => n < 64 && bit m (domainOf .port n))
    || (bit m 2 && (!ds.isEmpty || (List.range 70).any fun n => ebit (s.gateHeader n) 6 0))

end Sys2Proof.Machine
end

