-- ==== Sys2Proof/Machine/UpdOps.lean ====
section
/-! DEFINITION. Firmware update (chapter 14): manifest, checks, flash and journal, states, reverts, and what Launch does at
a core release (R435, R442–R458). -/
namespace Sys2Proof.Machine

/-- Changes the update unit. -/
def State.pset (s : State) (f : UpdUnit → UpdUnit) : State := { s with upd := f s.upd }

/-! ### The manifest (R442, R443) -/

/-- COUNT of a manifest. -/
def manCount (m : List Byte) : Nat := beAt m 5 1

/-- SEQ and FLOOR of a manifest. -/
def manSeq (m : List Byte) : Nat := beAt m 8 4
/-- FLOOR. -/
def manFloor (m : List Byte) : Nat := beAt m 12 4

/-- The length of a manifest. -/
def manLen (m : List Byte) : Nat := 304 + 96 * manCount m

/-- Part entry `k`. -/
def manPart (m : List Byte) (k : Nat) : UpdPart :=
  let o := 168 + 96 * k
  { part := beAt m o 1, version := beAt m (o + 4) 4, length := beAt m (o + 8) 4, offset := beAt m (o + 12) 4,
    flash := beAt m (o + 16) 4, digest := sliceBytes m (o + 32) 64 }

/-- The entries that this device installs, with their numbers (R443). -/
def State.installed (s : State) (m : List Byte) : List (Nat × UpdPart) :=
  ((List.range (manCount m)).filter fun k =>
    let t := beAt m (169 + 96 * k) 1
    t == 0xFF || t == s.get HFP_CFG_ID).map fun k => (k, manPart m k)

/-- Octets `[a, b)` of a byte string are 0. -/
def bytesZero (m : List Byte) (a b : Nat) : Bool := beAt m a (b - a) == 0

/-- Entry `k` is spelled as R443 says. -/
def manEntryOk (m : List Byte) (k : Nat) : Bool :=
  let o := 168 + 96 * k
  let p := manPart m k
  p.part ≤ 4 && bytesZero m (o + 2) (o + 4) && bytesZero m (o + 20) (o + 32) && 1 ≤ p.length && p.length ≤ 268435456

/-- 64 KiB blocks of a part. -/
def partBlocks (p : UpdPart) : Nat := (p.length + 65535) / 65536

/-! ### Staging (R444) -/

/-- The DRAM address of staging offset `o`. -/
def State.stageAddr (s : State) (o : Nat) : Nat := s.get UPD_STAGE_BASE * 2 ^ 21 + o

/-- `n` staged octets from offset `o`. -/
def State.staged (s : State) (o n : Nat) : List Byte := s.dramBytes (s.stageAddr o) n

/-- The data of block record `j` of a part. -/
def State.recordData (s : State) (p : UpdPart) (j : Nat) : List Byte := s.staged (p.offset + 65540 * j) 65536

/-- The CRC of every block record of a part is good. -/
def State.partCrcOk (s : State) (p : UpdPart) : Bool :=
  (List.range (partBlocks p)).all fun j =>
    crc32c (s.recordData p j) == beNat (s.staged (p.offset + 65540 * j + 65536) 4)

/-- SHA-512 over the data of a part. -/
def State.partDigest (s : State) (p : UpdPart) : List Byte :=
  Config.sha512 (((List.range (partBlocks p)).flatMap fun j => s.recordData p j).take p.length)

/-- The flash blocks that a part takes. -/
def partFlash (p : UpdPart) : List Nat := if p.part = 0 then [] else (List.range (partBlocks p)).map fun j => p.flash / 65536 + j

/-- Alignment, room in the package, and no overlap of a part with the others of the manifest, block 0 and the journal (R446). -/
def State.partPlaced (s : State) (pkg : Nat) (all : List (Nat × UpdPart)) (k : Nat) (p : UpdPart) : Bool :=
  let j0 := s.get UPD_FLASH_JOURNAL_BASE
  let j1 := j0 + s.get UPD_FLASH_JOURNAL_BLOCKS
  p.offset % 4 == 0 && (p.part == 0 || p.flash % 65536 == 0) && p.offset + 65540 * partBlocks p ≤ pkg
    && (partFlash p).all fun b => b != 0 && !(j0 ≤ b && b < j1) && !(all.any fun q => q.1 != k && (partFlash q.2).contains b)

/-- The update conditions of check 11 (R454, UPD_COND): STILL, VBAT_OK, OWNER_LOCK clear. -/
def State.vbatOk (s : State) : Bool := s.get PWR_VBAT_MV ≥ s.get UPD_CFG_VBAT_MIN * 10
/-- UPD_COND.CLEAR. -/
def State.updClear (s : State) : Bool := !s.on COX_LIFECYCLE_OWNER_LOCK && s.vbatOk && s.on WAK_STATUS_STILL

/-- The hash that a package key must have (R454 check 3). -/
def State.wantedKey (s : State) : List Byte := if s.on COX_LIFECYCLE_KEY_SET then s.cox.keyHash else Config.releaseKeyHash

/-- The number of the first entry that fails a test. -/
def failing (l : List (Nat × UpdPart)) (f : Nat → UpdPart → Bool) : Option Nat := (l.find? fun e => !f e.1 e.2).map (·.1)

/-- The checks of R454 in order: the check that fails, its entry (0xFF for none) and its status. -/
def State.updChecks (s : State) (pkg : Nat) (write : Bool) : Option (Nat × Nat × Nat) :=
  let h := s.staged 0 6
  let m := s.staged 0 (manLen h)
  let c := manCount m
  let form := beAt m 0 4 == 0x464D4E46 && beAt m 4 1 == 1 && 1 ≤ c && c ≤ 40 && bytesZero m 6 8 && bytesZero m 21 32
    && bytesZero m 165 168 && bytesZero m (300 + 96 * c) (304 + 96 * c) && manLen m ≤ pkg
  if !form then some (1, 0xFF, 3)
  else match (List.range c).find? fun k => !manEntryOk m k with
    | some k => some (1, k, 3)
    | none =>
      let l := s.installed m
      let parts := (List.range c).map fun k => (k, manPart m k)
      let key := sliceBytes m 32 133
      let body := 168 + 96 * c
      let displaced := (l.flatMap fun e => partFlash e.2).length
      let steps : List (Option (Nat × Nat × Nat)) := [
        if beAt m 16 4 == 0x64251F6A && beAt m 20 1 ≤ s.get GLB_REV_NUMBER then none else some (2, 0xFF, 3),
        if Config.sha512 key == s.wantedKey then none else some (3, 0xFF, 7),
        if Config.ecdsaVerify key (m.take body) (sliceBytes m body 132) then none else some (4, 0xFF, 7),
        if s.get UPD_FLOOR_VALUE ≤ manSeq m && manFloor m ≤ manSeq m then none else some (5, 0xFF, 7),
        (failing l fun _ p => s.partCrcOk p).map fun k => (6, k, 7),
        (failing l fun _ p => s.partDigest p == p.digest).map fun k => (7, k, 7),
        (failing parts fun k p => s.partPlaced pkg parts k p).map fun k => (8, k, 3),
        (failing l fun _ p => p.part != 0 || p.digest == Config.launchDigest).map fun k => (9, k, 9),
        if 2 * (displaced + 1) ≤ s.get UPD_FLASH_JOURNAL_BLOCKS then none else some (10, 0xFF, 6),
        if !write || s.updClear then none else some (11, 0xFF, 13)]
      steps.findSome? id

/-! ### Flash and the journal (R446–R448) -/

/-- Flash block `b`. -/
def State.flashAt (s : State) (b : Nat) : List Byte := (SMap.find s.upd.flash b).getD (Config.flashBlock b)

/-- What a write puts into a block: the block record of staging, or for block 0 the new manifest. DEDUCED: the rest of
block 0 is padded as R444 pads a block. -/
def State.newBlock (s : State) (src : Option Nat) : List Byte :=
  match src with
  | some o => s.staged o 65536
  | none => s.upd.manifest ++ List.replicate (65536 - s.upd.manifest.length) 0xFF

/-- The blocks that an update writes, block 0 last. -/
def writeList (l : List (Nat × UpdPart)) : List (Nat × Option Nat) :=
  (l.flatMap fun e => if e.2.part = 0 then [] else
    (List.range (partBlocks e.2)).map fun j => (e.2.flash / 65536 + j, some (e.2.offset + 65540 * j))) ++ [(0, none)]

/-- UPD_PROGRESS. -/
def State.progress (s : State) (total done : Nat) : State := (s.set UPD_PROGRESS_TOTAL total).set UPD_PROGRESS_DONE done

/-- What a flash block holds once it is erased. PRESUMED (log 129): NOR flash erases to ones. -/
def erasedBlock : List Byte := List.replicate 65536 0xFF

/-- A block of flash takes new octets. -/
def State.flashPut (s : State) (b : Nat) (l : List Byte) : State := s.pset fun u => { u with flash := SMap.insert u.flash b l }

/-- The header of a journal slot (R447). -/
def slotHeader (useq i addr crc : Nat) : List Byte :=
  let h := beBytes 4 0x464A524E ++ beBytes 4 useq ++ beBytes 4 i ++ beBytes 4 addr ++ beBytes 4 crc ++ leBytes 40 0
  h ++ beBytes 4 (crc32c h)

/-- The first flash block of journal slot `i` (R447). -/
def State.slotBlock (s : State) (i : Nat) : Nat := s.get UPD_FLASH_JOURNAL_BASE + 2 * i

/-- The old content of block `b` goes to the next free journal slot, which takes two blocks (R447). -/
def State.journalPut (s : State) (b : Nat) : State :=
  let i := s.upd.slots
  let old := s.flashAt b
  let img := slotHeader s.upd.seq i (b * 65536) (crc32c old) ++ old
  ((s.flashPut (s.slotBlock i) (img.take 65536)).flashPut (s.slotBlock i + 1) (img.drop 65536 ++ erasedBlock.drop 64)).pset fun u =>
    { u with slots := i + 1 }

/-- Journal slot `i` as flash holds it: its block and the old octets, when it is valid (R447). DEDUCED: a header has its MAGIC. -/
def State.slotAt (s : State) (i : Nat) : Option (Nat × List Byte) :=
  let img := s.flashAt (s.slotBlock i) ++ (s.flashAt (s.slotBlock i + 1)).take 64
  let old := img.drop 64
  if beAt img 0 4 == 0x464A524E && beAt img 4 4 == s.upd.seq && beAt img 60 4 == crc32c (img.take 60) && beAt img 16 4 == crc32c old then
    some (beAt img 12 4 / 65536, old)
  else none

/-- The valid slots from slot `i` on, at most `n`. DEDUCED: without its first slot the journal is invalid (R448), so that the first slot
that is not valid ends it. -/
def State.slotsFrom (s : State) : Nat → Nat → List (Nat × List Byte)
  | 0, _ => []
  | n + 1, i =>
    match s.slotAt i with
    | none => []
    | some e => e :: s.slotsFrom n (i + 1)

/-- The valid journal slots, in INDEX order (R447, R448). -/
def State.validSlots (s : State) : List (Nat × List Byte) := s.slotsFrom (s.get UPD_FLASH_JOURNAL_BLOCKS / 2) 0

/-- The journal's first slot is erased, which invalidates the whole journal (R448). -/
def State.journalOff (s : State) : State := (s.flashPut (s.slotBlock 0) erasedBlock).flashPut (s.slotBlock 0 + 1) erasedBlock

/-- The first attempt at a block begins with its journal slot (R447). -/
def State.journalFirst (s : State) : State :=
  match s.upd.todo with
  | (b, _) :: _ => if s.upd.tries = 0 then s.journalPut b else s
  | [] => s

/-- An attempt at the block in work has failed its read-back: what the block holds is a free value (R447). -/
def State.blockSpoiled (s : State) : State :=
  match s.upd.todo with
  | (b, _) :: _ =>
    let r := s.free 524288
    (r.2.flashPut b (beBytes 65536 r.1.toNat)).pset fun u => { u with tries := u.tries + 1 }
  | [] => s

/-- The block in work has been written and read back correctly; after the last one the state becomes WRITTEN (R447, R454). -/
def State.flashWritten (s : State) : State :=
  match s.upd.todo with
  | [] => s
  | (b, src) :: rest =>
    let s1 := ((s.flashPut b (s.newBlock src)).pset fun u => { u with todo := rest, tries := 0 }).set UPD_PROGRESS_DONE
      (s.get UPD_PROGRESS_DONE + 1)
    if rest.isEmpty then s1.updTo 4 else s1

/-- An activation that is still pending is cancelled. -/
def State.dropActivation (s : State) : State :=
  if s.commitState = 2 && s.fab.job.any (·.upd) then (s.bset fun b => { b with fabMember := none, fabInit := none }).commitIdle else s

/-- The device enters REVERTING with a cause, in one persistent write (R450); DEDUCED: an activation that is pending is
cancelled with it. -/
def State.beginRevert (s : State) (cause : Nat) : State :=
  let s1 := s.dropActivation.pset fun u => { u with todo := [], tries := 0 }
  (s1.progress s1.validSlots.length 0).updSet 8 cause

/-- A replay ends: every valid slot's old content is back, the journal is invalid, the state is IDLE (R448, R450). -/
def State.replayed (s : State) : State :=
  let l := s.validSlots
  let s1 := (s.each l fun t e => t.flashPut e.1 e.2).journalOff
  ((s1.pset fun u => { u with revertedDue := true, entries := [], slots := 0 }).progress l.length l.length).updTo 0

/-- UPD_REVERTED, once the restored image runs (R451). -/
def State.sayReverted (s : State) : State :=
  if s.upd.revertedDue then (s.pset fun u => { u with revertedDue := false }).emit 0x0A01 0 (args s.updCause) else s

/-- The update is committed (R457): UPD_FLOOR, UPD_SEQ, the journal, the state. -/
def State.updCommitted (s : State) : State :=
  let s1 := s.pwRequest [⟨.updFloor, max (s.get UPD_FLOOR_VALUE) s.upd.floor⟩, ⟨.updSeq, s.upd.seq⟩]
  (s1.journalOff.pset fun u => { u with entries := [], slots := 0 }).updTo 0

/-- REVERT_CAUSE is in RRAM before the reset that it goes with (R457). -/
def State.storeCause (s : State) (cause : Nat) : State := (s.updSet s.updLive cause).pwFlush

/-! ### Parts in flash, and the tables among them (R435, R445, R456) -/

/-- The data of a part as flash holds it. -/
def State.flashPart (s : State) (p : UpdPart) : List Byte :=
  ((List.range (partBlocks p)).flatMap fun j => s.flashAt (p.flash / 65536 + j)).take p.length

/-- The manifest of the running image, in flash block 0 (R446). -/
def State.runningManifest (s : State) : List Byte := if beAt (s.flashAt 0) 0 4 = 0x464D4E46 then s.flashAt 0 else []

/-- The entries of the running image that this device installs (R443). -/
def State.runningParts (s : State) : List UpdPart := (s.installed s.runningManifest).map (·.2)

/-- The Cox firmware and the microcode in flash agree with block 0 (R456). -/
def State.digestsOk (s : State) : Bool :=
  (s.runningParts.filter fun p => p.part == 1 || p.part == 2).all fun p => Config.sha512 (s.flashPart p) == p.digest

/-- A bank with a class taken from an entry image: its entries one after another; the class is empty beyond the image. -/
def imageClass (b : SMap Nat) (c : Nat) (data : List Byte) : SMap Nat :=
  (List.range (classSize c)).foldl (fun b i =>
    let o := i * entrySize c
    bankPut b c i (if o + entrySize c ≤ data.length then leAt data o (entrySize c) else emptyEntry (entryKey c i))) b

/-- The classes of part 3 (Rigger) and part 4 (Umpire), in the order of their images (R445; PRESUMED: class after class). -/
def partClasses (part : Nat) : List Nat := if part = 3 then [11, 12, 13] else if part = 4 then [3, 4, 5] else []

/-- A part's classes are staged from its image. -/
def stageClasses (b : SMap Nat) : List Nat → List Byte → SMap Nat
  | [], _ => b
  | c :: l, data => stageClasses (imageClass b c data) l (data.drop (classSize c * entrySize c))

/-- The key unit hashes a part as it is read from flash (R435). -/
def State.measured (s : State) (p : UpdPart) : State :=
  let d := if p.part = 0 then Config.launchDigest else Config.sha512 (s.flashPart p)
  { s with key := { s.key with meas := SMap.insert s.key.meas p.part (p.version, d) } }

/-- Cox firmware stages the table images of parts 3 and 4 from flash (R445, R455); they are measured then (R435). -/
def State.stageTables (s : State) (l : List UpdPart) : State :=
  let s1 := s.fset fun f => { f with staged := l.foldl (fun b p => stageClasses b (partClasses p.part) (s.flashPart p)) f.staged }
  (s1.each [3, 4, 5, 11, 12, 13] fun t c => t.showStaged c).each l fun t p => t.measured p

/-- The classes of parts 3 and 4 that changed, as a mask. -/
def State.partMask (s : State) : Nat :=
  maskOf ([3, 4, 5, 11, 12, 13].filter fun c => !(changedIn s.fab.active s.fab.staged c).isEmpty)

/-- Firmware takes the tables of units that came up without an image from flash, and commits them once (R445). DESIGN CHOICE (log 130): it
does so while it runs, no commit is in progress and FROZEN is 0, at its start or when the load fails; its commit is immediate, of COMMIT_ID
0, and completes no command. -/
def State.tablesCommit (s : State) : State :=
  if s.pwr.tablesDue.isEmpty || s.cox.coresHeld || s.commitState ≠ 0 || s.frozen || s.power = 2 then s
  else
    let l := s.runningParts.filter fun p =>
      (p.part == 3 && s.pwr.tablesDue.contains 1 && s.up .edge) || (p.part == 4 && s.pwr.tablesDue.contains 0 && s.up .umpire)
    let s1 := { s with pwr := { s.pwr with tablesDue := [] } }.stageTables l
    if l.isEmpty || s1.partMask = 0 then s1
    else s1.startHeat { mask := s1.partMask, timed := false, fabric := false, dryRun := false, id := 0, own := true }

/-! ### Launch (R435, R450) -/

/-- The cause with which Launch reverts at a core release with a start code, if it must (R450, R456). -/
def State.launchReverts (s : State) (code : Nat) (digestOk : Bool) : Option Nat :=
  let st := s.updLive
  if 3 ≤ st ∧ st ≤ 5 then some 2
  else if st = 6 ∨ st = 7 then
    (if code = 5 then some s.updCause else if code ≤ 8 then some 2
     else if code = 11 && !digestOk then some 3 else none)
  else none

/-- LOADING or VERIFIED found after a reset becomes IDLE (R450). -/
def State.launchIdles (s : State) (code : Nat) : State :=
  if code ≤ 8 && (s.updLive = 1 || s.updLive = 2) then s.updTo 0 else s

/-- The measurement registers after a load from flash (R435): Launch, the firmware and the microcode of the running image as flash holds
them, and the option area as part 5. -/
def State.measure (s : State) : State :=
  let opt := (List.range 16).flatMap fun k => leBytes 4 (SMap.get s.rst.optWords 0 (16 * s.get OPT_STATUS_COPY + k)).toNat
  let s1 := s.each (s.runningParts.filter fun p => p.part ≤ 2) fun t p => t.measured p
  if s.get OPT_STATUS_COPY = 2 then s1
  else { s1 with key := { s1.key with meas := SMap.insert s1.key.meas 5 (0, Config.sha512 opt) } }

/-- The CRC-32C of each 64 KiB block of a firmware (R468). -/
def blockCrcs (l : List Byte) : List Nat := (List.range ((l.length + 65535) / 65536)).map fun k => crc32c ((l.drop (65536 * k)).take 65536)

/-- Every block CRC of the wake copy is good (R468). -/
def State.copySound (s : State) : Bool := blockCrcs s.upd.copy.data == s.upd.copy.crcs

/-- A start that loaded the firmware from flash rewrites the wake copy when the digest differs (R468). -/
def State.copyKept (s : State) : State :=
  match s.runningParts.find? fun p => p.part == 1 with
  | none => s
  | some p =>
    let fw := s.flashPart p
    if Config.sha512 fw = s.upd.copy.digest then s
    else s.pset fun u => { u with copy := { data := fw, digest := Config.sha512 fw, crcs := blockCrcs fw } }

/-! ### Confirmation (R457, R459) -/

/-- HFP_FCG takes the number of a fabric update that this device has committed; DEDUCED: the update is the fabric-wide swap that ends
DIVERGED (R361, R459). -/
def State.fcgSet (s : State) (g : Nat) : State := (s.set HFP_FCG_GEN g).set HFP_FAB_STATUS_DIVERGED 0

/-- The initiator of a fabric update commits once every device has confirmed, and tells the members (R459 step 2). -/
def State.fabConfirmed (s : State) : State :=
  match s.hfp.fabInit with
  | some f =>
    if f.update && f.waiting.isEmpty && s.updLive = 7 && (s.ownId :: f.members).all f.confirmed.contains then
      let s1 := s.updCommitted.fcgSet f.fcg
      let g := { f with waiting := f.members }
      (s1.bset fun b => { b with fabInit := if f.members.isEmpty then none else some g }).cmitAll g g.members 6
    else s
  | none => s

/-- The new firmware confirms in state 6 (R457): a local update is committed, a member tells the initiator, the initiator
counts its own confirmation (R459). -/
def State.healthConfirm (s : State) : State :=
  match s.hfp.fabMember, s.hfp.fabInit with
  | some m, _ =>
    if m.update then (s.updTo 7).sendCmit m.from_ (cmitBody 6 0 m.id m.mask m.t m.fcg 0 true false) else s.updCommitted
  | none, some f =>
    if f.update then
      ((s.updTo 7).bset fun b => { b with fabInit := some { f with confirmed := f.confirmed ++ [s.ownId] } }).fabConfirmed
    else s.updCommitted
  | none, none => s.updCommitted

end Sys2Proof.Machine
end

