-- ==== Sys2Proof/Machine/PowerOps.lean ====
section
/-! DEFINITION. Power states, domains, sleep entry, its abort, and wake (chapter 15), as the rows of power, ports and
faults share them. -/
namespace Sys2Proof.Machine

/-- All external ports. -/
def extPorts : List Nat := List.range 64

/-- The domains that a power state powers, as a mask with bit n for PDn (R460, R462, R407). -/
def State.wantedDomains (s : State) (st : Nat) : Nat :=
  let dbg := s.on PWR_CFG_DEBUG_PWR && s.debugAllowed
  let cut := fun m : Nat => if dbg then m else m &&& (2 ^ 14 - 1)
  if st = 1 then cut (s.get PWR_FEATHER_DOMAINS * 2) ||| maskOf [1, 3, 4]
  else if st = 2 then maskOf [1, 3, 7, domainOf .port (s.get OPT_BOOT_MGMT_PORT)]
  else cut (s.get PWR_ACTIVE_DOMAINS * 2) ||| maskOf [1, 2, 3, 4, 7]

/-- Changes PWR_STATUS.STATE and raises POWER_STATE; DEDUCED: at every change that Cox or a host can observe. -/
def State.toPower (s : State) (st : Nat) : State := (s.set PWR_STATUS_STATE st).emit 0x0B00 0 (args st s.power)

/-- A switched domain goes off: time is saved with PD2 (R271), PNs with PD6 (R438), the islands lose their state
(R461). -/
def State.domainOff (s : State) (pd : Nat) : State :=
  if !s.pdOn pd then s
  else
    let s1 := if pd = 2 then s.saveTime else if pd = 6 then s.savePns else s
    let s2 := s1.set PWR_STATUS_ON (setBits (s1.get PWR_STATUS_ON) (pd - 1) 1 0)
    s2.domainLost pd

/-- In Boathouse PD8 goes off once the update state is IDLE again (R452). -/
def State.updDramOff (s : State) : State :=
  if s.power = 2 && s.pdOn 8 && s.updLive = 0 then s.domainOff 8 else s

/-- Earlier staged data is discarded (R453): what the staging area reads as is open then, as after a power-up. -/
def State.stageCleared (s : State) : State :=
  let lo := s.stageAddr 0
  let hi := s.stageAddr (s.get UPD_STAGE_SIZE * 2 ^ 21)
  { s with dram := { s.dram with bytes := SMap.keep s.dram.bytes fun a => !(decide (lo ≤ a) && decide (a < hi)) } }

/-- UPD_LOAD takes its data (R453): the state after it, and its status. -/
def State.updLoaded (s : State) (addr off len : Nat) (first : Bool) : State × Nat :=
  if off + len > s.get UPD_STAGE_SIZE * 2 ^ 21 then (s, 6)
  else
    let s1 := (if first then s.stageCleared else s).dramPut (s.stageAddr off) (s.hostBytes addr len)
    (if s1.updLive = 1 then s1 else s1.updTo 1, 0)

/-- The DRAM training that an UPD_LOAD in Boathouse waits for has ended (R452): the load completes, or finds DRAM not READY. -/
def State.updLoadGoes (s : State) : State :=
  match s.runningKind with
  | some (.updLoad addr off len first) =>
    if s.on REC_DRAM_STATUS_READY then
      let r := s.updLoaded addr off len first
      (r.1.finishRunning r.2 0).updDramOff
    else (s.refuseRunning 6 0).updDramOff
  | _ => s

/-- Ports UP with TC10_EN = 1 whose line domain is in `m` (R465, R469); a SerDes port has no TC10 (R71). -/
def State.coordinated (s : State) (m : Nat) : List Nat :=
  extPorts.filter fun n => s.link n == 4 && s.on (PRT_MODE_TC10_EN n) && (s.isT1 n || isS n) && bit m (domainOf .port n)

/-- Ports of the domains in `m`. -/
def portsOf (m : Nat) : List Nat := extPorts.filter fun n => bit m (domainOf .port n)

/-- A write of a table image is in progress in a domain, which stays on meanwhile (R191, R326, R438). -/
def State.imgHolds (s : State) (pd : Nat) : Bool :=
  [ImgUnit.ump, .rig, .key].any fun u => pd == domainOf (unitIsland u) 0 && s.pdOn pd && s.on (unitImgBusy u)

/-- Switches domains toward the wanted set of a state: the ones it does not want go off now, or once their image is written; the others
come on by DOMAIN_POWER_GOOD. -/
def State.switchDomains (s : State) (st : Nat) : State :=
  let want := s.wantedDomains st
  let s1 := { s with pwr := { s.pwr with want := want } }
  let off := (List.range 15).filter fun pd => pd ≠ 0 && s.pdOn pd && !bit want pd && !s.imgHolds pd
  s1.each off fun t pd => t.domainOff pd

/-- The domains follow a change of their settings in the present state, in a sleep entry that of the state it was entered from, unless a
switch to another state runs (R460, R462); a wake takes them up at its end. -/
def State.domainsFollow (s : State) : State :=
  let st := if s.power = 3 then s.pwr.entryFrom else s.power
  if st ≤ 1 && s.pwr.goal.isNone && !(s.power == 3 && s.pwr.latched) then s.switchDomains st else s

/-- PD6 goes off at the end of the command for which Boathouse powered it (R422, R460). -/
def State.keyOff (s : State) : State := if s.power = 2 then s.domainOff 6 else s

/-- Every wanted domain is at power-good. -/
def State.domainsReady (s : State) : Bool := (List.range 15).all fun pd => !bit s.pwr.want pd || s.pdOn pd

/-- No domain that is not wanted waits for the write of an image. -/
def State.imgsFree (s : State) : Bool := (List.range 15).all fun pd => bit s.pwr.want pd || !s.imgHolds pd

/-- A switch to Active or Feather that has reached its domains ends: the state changes and the request completes
(R464, R465). -/
def State.finishSwitch (s : State) : State :=
  match s.pwr.goal with
  | none => s
  | some g =>
    if s.domainsReady && s.imgsFree && s.pwr.waitAck.isEmpty then
      let s1 := { s with pwr := { s.pwr with goal := none } }
      let s2 := if s1.power = g then s1 else s1.toPower g
      match s2.runningKind with
      | some (.power _) => s2.finishRunning 0 0
      | _ => s2
    else s

/-- A running switch to Active or Feather goes as far as it can (R464, R465). -/
def State.settleSwitch (s : State) : State :=
  match s.pwr.goal with
  | some g => if s.pwr.waitAck.isEmpty then (s.switchDomains g).finishSwitch else s
  | none => s

/-- The write of an image has ended: its domain goes off when it is not wanted (R191). -/
def State.imgReleases (s : State) (pd : Nat) : State :=
  (if s.pwr.want ≠ 0 && !bit s.pwr.want pd && !s.imgHolds pd then s.domainOff pd else s).settleSwitch

/-- The coordinated ports of a list ask their partners to sleep; DEDUCED: an S-port, which has no TC10 exchange (R82), sleeps
at once (R83). -/
def State.askSleep (s : State) (co : List Nat) : State :=
  s.each co fun t n => if n < 32 then t.sendTc10 n 0 else t.portSleep n

/-- A request for Active or Feather begins (R464, R465): for Feather the coordinated ports of the domains that it drops
ask their partners to sleep first. -/
def State.startSwitch (s : State) (target : Nat) : State :=
  let lost := s.wantedDomains s.power &&& (2 ^ 15 - 1 - s.wantedDomains 1)
  let co := if target = 1 then s.coordinated lost else []
  { s with pwr := { s.pwr with goal := some target, waitAck := co.filter (· < 32) } }.askSleep co

/-- The resume records at device sleep entry: every T1 port that is UP writes one, no other port keeps one (R78). -/
def State.sleepRecords (s : State) : State :=
  s.each extPorts fun t n => if t.link n = 4 then t.writeRecord n else t.dropRecord n

/-- Sleep entry begins (R469, R470, step 1): the ports that are UP write their records, and each coordinated port asks its
partner to sleep. -/
def State.enterSleepEntry (s : State) : State :=
  let co := s.coordinated (2 ^ 15 - 1)
  let from_ := s.power
  let s1 := s.toPower 3
  let s2 := s1.sleepRecords.askSleep co
  { s2 with pwr := { s2.pwr with entryFrom := from_, waitAck := co.filter (· < 32), latched := false, lateSource := 0, latePort := 0,
                                 lateFault := 0, idleTimer := false, goal := none } }

/-- Sleep entry is aborted with a cause (R472): the state it came from returns with its domains as they are set now (R462), sleeping ports
wake as on a local wake, and SLEEP_ABORTED is raised. WAK_SOURCE is written at each aborted entry (R475): DESIGN CHOICE (log 127): with a
cause other than a wake the spec says no value, and it is a free one. -/
def State.abortEntry (s0 : State) (cause detail : Nat) : State :=
  let s := if cause = 1 then s0 else (s0.free 32).2.wr WAK_SOURCE (s0.free 32).1
  let s1 := (s.set PWR_STATUS_STATE s.pwr.entryFrom).emit 0x0B00 0 (args s.pwr.entryFrom 3)
  let s2 := { s1 with pwr := { s1.pwr with waitAck := [], latched := false } }
  let s3 := s2.each extPorts fun t n => if t.link n = 6 then (t.portWake n).sendTc10 n 2 else t
  s3.domainsFollow.emit 0x0B02 0 (args cause detail)

/-- The commit point of sleep entry has passed: every acknowledgement is in and the latch is set (R471). -/
def State.pastCommit (s : State) : Bool := s.power == 3 && s.pwr.latched && s.pwr.waitAck.isEmpty

/-- WAK_SOURCE for a wake (R475); LATE fields are 0 outside a wake during entry. -/
def State.recordWake (s : State) (source port late latePort fault : Nat) : State :=
  (((((s.set WAK_SOURCE_SOURCE source).set WAK_SOURCE_PORT port).set WAK_SOURCE_LATE_SOURCE late).set
    WAK_SOURCE_LATE_PORT latePort).set WAK_SOURCE_FAULT fault).set WAK_SOURCE_FALSE 0

/-- WAKE_OUT pulses when its source forwards (R479); a pulse in progress is not extended. -/
def State.forwardWake (s : State) (source : Nat) : State :=
  if s.on WAK_OUT_EN && bit (s.get WAK_OUT_SRC) source && !s.pwr.wakeOut then
    { s with pwr := { s.pwr with wakeOut := true } }
  else s

/-- A port receives a forwarded wake once its line domain is at power-good (R479); a SerDes port has no TC10 (R71). -/
def State.forwardPorts (s : State) : State :=
  let now := s.pwr.fwdDue.filter fun n => s.pdOn (domainOf .port n)
  { s with pwr := { s.pwr with fwdDue := s.pwr.fwdDue.filter fun n => !now.contains n } }.each (now.filter fun n => s.isT1 n || isS n) fun t n =>
    t.sendTc10 n 2

/-- The ports of WAK_FWD_PORTS receive the wake (R479). -/
def State.forwardTc10 (s : State) : State :=
  let l := extPorts.filter fun n => bit (s.get (WAK_FWD_PORTS_PORTS (n / 32))) (n % 32)
  { s with pwr := { s.pwr with fwdDue := l } }.forwardPorts

/-- The false-wake timer starts at a wake event when WAKE_IDLE_MS is nonzero (R481). -/
def State.startIdleTimer (s : State) : State :=
  { s with pwr := { s.pwr with idleTimer := s.get WAK_CFG_WAKE_IDLE_MS ≠ 0, falsePending := false } }

/-- What AON and the cores take on at the begin of a wake (R477 steps 1 and 3, R478, R480): PD1–PD8 come up in any case. -/
def State.wakeUnits (s : State) (dest : Nat) : State :=
  { s with pwr := { s.pwr with inhHigh := true, latched := false, lateSource := 0, latePort := 0, lateFault := 0,
                               wakeCores := true, want := s.wantedDomains dest ||| maskOf [1, 2, 3, 4, 5, 6, 7, 8], copyGood := true },
           cox := { s.cox with coresHeld := true, startCode := 9 } }

/-- A wake from Sleep begins (R477 step 1, R480): STATE = 5, INH_OUT high, domains coming up; GLB_FAULT takes its
reset value, so START_PENDING = 1 (R466, R478); the cores' next release is a start with code 9. -/
def State.beginWake (s : State) (source port late latePort fault : Nat) : State :=
  let s1 := (s.recordWake source port late latePort fault).set PWR_STATUS_STATE 5
  let s2 := (s1.clearWord GLB_FAULT).incWrap WAK_COUNT_WAKES
  let s3 := s2.wakeUnits (s2.get WAK_CFG_WAKE_TO)
  s.holdFaultN ((s3.forwardWake source).forwardTc10.startIdleTimer)

/-- A qualified wake source acts in the present state (R472, R473, R475): it wakes a sleeping device, leaves Feather,
aborts an entry before the commit point, and is latched after it. -/
def State.wakeEvent (s : State) (source port : Nat) : State :=
  if s.power = 4 then s.beginWake source port 0 0 0
  else if s.power = 1 then
    let s1 := ((s.recordWake source port 0 0 0).forwardWake source).forwardTc10.startIdleTimer
    (s1.emit 0x0B01 0 (args (s1.rd WAK_SOURCE).toNat)).startSwitch 0
  else if s.power = 3 then
    if s.pastCommit then
      (if s.pwr.lateSource = 0 then { s with pwr := { s.pwr with lateSource := source, latePort := port } } else s)
    else
      let s1 := (s.recordWake source port 0 0 0).startIdleTimer
      let w := (s1.rd WAK_SOURCE).toNat
      (s1.emit 0x0B01 0 (args w)).abortEntry 1 w
  else s

/-- A source of R475 is enabled; port sources also need the port's bit. -/
def State.sourceOn (s : State) (source port : Nat) : Bool :=
  match source with
  | 1 => s.on WAK_SRC_EN_WAKE_IN
  | 2 => s.on WAK_SRC_EN_PORTS && bit (s.get (WAK_PORT_EN_PORTS (port / 32))) (port % 32)
  | 3 => s.on WAK_SRC_EN_PORTS && bit (s.get (WAK_PORT_EN_PORTS (port / 32))) (port % 32)
  | 4 => s.on WAK_SRC_EN_TIMER
  | 5 => s.on WAK_SRC_EN_STILL
  | _ => false

/-- A GLB_FAULT bit that becomes 1 during sleep entry: unmasked, it aborts the entry with cause 6 before the commit
point and is latched after it (R472, R473). -/
def State.faultInEntry (s : State) : State :=
  if s.power ≠ 3 ∨ s.unmaskedFaults = 0 then s
  else if s.pastCommit then
    (if s.pwr.lateSource = 0 then
      { s with pwr := { s.pwr with lateSource := 7, latePort := 0xFF, lateFault := (s.rd GLB_FAULT).toNat % 128 } }
     else { s with pwr := { s.pwr with lateFault := s.pwr.lateFault ||| (s.rd GLB_FAULT).toNat % 128 } })
  else s.abortEntry 6 (s.rd GLB_FAULT).toNat

/-- What a request for a power state is refused with, if anything (R464): REASON and DETAIL. -/
def State.powerRefused (s : State) (target : Nat) : Option (Nat × Nat) :=
  if s.power = 3 then (if target = 4 ∨ s.pastCommit then some (1, 0) else none)
  else if target = s.power then some (1, 0)
  else if target ≠ 0 ∧ s.commitState ≠ 0 then some (2, 0)
  else if target = 4 ∧ 3 ≤ s.updLive ∧ s.updLive ≤ 7 then some (6, 16)
  else if target = 1 ∧ s.lostDeclared (s.wantedDomains 0 &&& (2 ^ 15 - 1 - s.wantedDomains 1)) then some (6, 17)
  else if target = 4 ∧ s.on WAK_STATUS_WAKE_IN then some (6, 18)
  else none

/-- An accepted request for a power state acts (R464, R470, R472). -/
def State.powerRequest (s : State) (target : Nat) : State :=
  if s.power = 3 then s.abortEntry 4 target
  else if target = 4 then s.enterSleepEntry
  else s.startSwitch target

end Sys2Proof.Machine
end

