-- ==== Sys2Proof/Machine/Fault.lean ====
section
/-! DEFINITION. What a detector's finding does: its GLB_FAULT bit, its event, the recorder's fault trigger, and sleep
entry (R55–R57, R159, R392, R402, R403, R472). -/
namespace Sys2Proof.Machine

/-- A GLB_FAULT bit sets: FAULT_N, and when it was 0 the recorder trigger and sleep entry follow (R159, R472). -/
def State.faultBit (s : State) (f : Fld) : State :=
  if s.on f then s.setFaultBit f else ((s.setFaultBit f).recFaultTrigger).faultInEntry

/-- A finding of a Cox detector or a monitor (R392, R402, R403): captured, its bit set, its event raised. -/
def State.finding (s : State) (code : Nat) (f : Fld) (event : Nat) : State :=
  ((s.captureFault code).faultBit f).emit event 0 (args code)

/-- The copies of port 65 that firmware has not yet taken when a core reset finds them: no row says when it takes one, so
their number is a free value up to every copy delivered (R401). -/
def State.rxUnread (s : State) : Nat × State :=
  if s.cox.rxFrames.isEmpty then (0, s)
  else
    let r := s.free 32
    (r.1.toNat % (s.cox.rxFrames.length + 1), r.2)

/-- What a core reset clears (R398, R401): Cox-private queues are lost and their port 65 copies count, the watchdogs stop, domains owned
by Cox are taken over with cause 2. -/
def State.coreCleared (s : State) : State :=
  let n := s.rxUnread
  let s1 := n.2.add COX_RX_DROP_COUNT n.1
  let c := { s1.cox with events := [], rxFrames := [], stamps := [], coresHeld := true, wdog := [], wdogSecond := [] }
  { s1 with cox := c }.each (List.range 4) fun t d => t.takeoverByReset d

/-- The core reset of a safe reaction (R398, R399): beside that, a running heat ends with STATE, a pending commit is cancelled. -/
def State.coreReset (s : State) : State := s.coreCleared.freezeCommits

/-- The safe reaction (R397): a finding while the sequence runs starts no second one. -/
def State.safeReaction (s : State) : State :=
  if s.cox.seqRunning then s
  else
    let s1 := s.holdFaultN (s.set COX_STATUS_FROZEN 1)
    let s2 := { s1 with cox := { s1.cox with seqRunning := true, faultLocked := true, startCode := 10 } }
    s2.coreReset

/-- A finding that starts the safe reaction (R397). -/
def State.coxFinding (s : State) (code : Nat) (f : Fld) (event : Nat) : State := (s.finding code f event).safeReaction

/-- A checker finding (codes 0x02–0x08). -/
def State.checkerFinding (s : State) (code : Nat) : State := s.coxFinding code GLB_FAULT_CHECKER_FAULT 0x0101

/-- A mismatch (code 0x01). -/
def State.mismatchFinding (s : State) : State := s.coxFinding 1 GLB_FAULT_LOCKSTEP_MISMATCH 0x0100

/-- A watchdog finding (codes 0x10–0x13). -/
def State.wdogFinding (s : State) (code : Nat) : State := s.coxFinding code GLB_FAULT_WDOG 0x0102

/-- The delay registers run, and their parity is checked in every cycle: in paired mode (R391, R405). -/
def State.delaying (s : State) : Bool := s.up .cox && s.get COX_STATUS_MODE == 0

/-- The comparators work: no debugger has broken the pair since the last release either (R391, R405, R406). -/
def State.comparing (s : State) : Bool := s.delaying && !s.on COX_STATUS_LS_BROKEN

/-- The parity errors of a cycle in the output and the input delay register (R391–R393). -/
def State.parityFindings (s : State) (outPar inPar : Bool) : State :=
  let s1 := if outPar && s.delaying then s.checkerFinding 4 else s
  if inPar && s.delaying then s1.checkerFinding 5 else s1

/-- Whether a monitor's cause stays present, so that its bit sets again when cleared (GLB_FAULT). -/
def State.keepCause (s : State) (code : Nat) (persists : Bool) : State :=
  let rest := s.cox.present.filter (· ≠ code)
  { s with cox := { s.cox with present := if persists then rest ++ [code] else rest } }

/-- A monitor finds its clock, rail or temperature out of range (R403). -/
def State.monitorFinding (s : State) (code : Nat) (f : Fld) (event : Nat) (persists : Bool) : State :=
  (s.keepCause code persists).finding code f event

/-- An uncorrectable ECC error of SRAM (`source` 0) or DRAM (`source` 1), with its location register (R123, R164). -/
def State.eccUncorr (s : State) (source loc : Nat) : State :=
  (s.faultBit GLB_FAULT_ECC_UNCORR).emit 0x0106 source (args loc)

/-! ### The slot memory of the key unit (R439) -/

/-- An uncorrectable error in a slot, or a seal that fails (`cause` 4): the slot acts as destroyed. -/
def State.slotLost (s : State) (i cause : Nat) : State :=
  let s1 := if i < 8 then s.slotGone i else (s.slotGone i).startImage .key
  ((s1.slotSound i).inc KEY_ECC_UNCORR_COUNT).faultBit GLB_FAULT_ECC_UNCORR |>.keyFault i cause

/-- A read of slot `i` shows the error that its memory holds. -/
def State.slotRead (s : State) (i : Nat) : State :=
  match SMap.get s.key.slotErr 0 i with
  | 0 => s
  | 1 => (s.slotSound i).inc KEY_ECC_CORR_COUNT
  | _ => s.slotLost i 1

/-- At a start of the key unit the identity is derived anew and the seals of the persistent slots are checked (R413, R439). -/
def State.slotsLoad (s : State) : State :=
  (s.kset fun k => { k with idLost := false }).each [1, 2, 3, 4, 5, 6, 7] fun t i =>
    if slotValid (t.slot i) && (t.key.badSeals.contains i || SMap.find t.key.seals i != some t.sealKey) then t.slotLost i 4 else t

/-- TCAM_PAR and PATTERN_PAR act on the Umpire's memories, or wait for its power-up (R192, R410). -/
def State.injUmp (s : State) : State :=
  s.each [14, 15] fun t p =>
    if t.up .umpire && t.on (INJ_ARM_ARM p) then (t.injSpend p).umpParityFlip (p - 14) (t.get (INJ_ARM_TARGET p)) else t

/-- An island starts; the key unit loads its persistent slots (R439), and the points armed for the Umpire act (R410). -/
def State.islandUp (s : State) (i : Island) (n : Nat) : State :=
  let s1 := (if i = .key then s.slotsLoad else s).islandStarts i n
  if i = .umpire then s1.injUmp else s1

/-! ### Uncorrectable words -/

/-- Captures REC_ERR_LOC (R164). -/
def State.recErrLoc (s : State) (word : Nat) : State :=
  if s.on REC_ERR_LOC_VALID then s.set REC_ERR_LOC_OVERFLOW 1
  else (s.set REC_ERR_LOC_VALID 1).set REC_ERR_LOC_ADDR word

/-- A read of a broken word of DRAM (R164): one wrong bit is corrected and counted. Two are not: the word counts, is located and
reported, and what it reads as from here on is a free value. -/
def State.dramBroken (s : State) (word nbits : Nat) : State :=
  if nbits = 1 then s.inc REC_ECC_CORR_COUNT
  else
    let s1 := (s.inc REC_ECC_UNCORR_COUNT).recErrLoc word
    let s2 := s1.eccUncorr 1 (s1.rd REC_ERR_LOC).toNat
    let r := s2.free 512
    r.2.dramRaw (word * 64) (leBytes 64 r.1.toNat)

/-- The broken words among `n` octets of DRAM. -/
def State.dramBad (s : State) (a n : Nat) : List (Nat × Nat) := s.dram.badWords.filter fun e => a < e.1 * 64 + 64 && e.1 * 64 < a + n

/-- `n` octets of DRAM are read (R164): what is broken in them shows, and `dramBytes` then gives what the read returns. -/
def State.dramFetch (s : State) (a n : Nat) : State := s.each (s.dramBad a n) fun t e => t.dramBroken e.1 e.2

/-- The handle parity errors found are reported (R124): GLB_FAULT.ECC_UNCORR, and HANDLE_PARITY with FST_ERR_LOC (R383). -/
def State.sayParity (s : State) : State :=
  (s.fset fun f => { f with parityDue := [] }).each s.fab.parityDue fun t loc =>
    (t.faultBit GLB_FAULT_ECC_UNCORR).emit 0x0107 0 (args loc)

end Sys2Proof.Machine
end

