-- ==== Sys2Proof/Machine/HostOps.lean ====
section
/-! DEFINITION. Ring service shared by the host rows and by egress on port 64: ring addresses, index checks, and the
delivery of a copy into an RX ring (R369–R375). -/
namespace Sys2Proof.Machine

/-- The CFG fields of a ring: EN, LOG2_SIZE. -/
def ringEn : Ring → Fld
  | .tx t => HIF_TX_CFG_EN t.val
  | .rx r => HIF_RX_CFG_EN r.val
  | .cmd => HIF_CMD_CFG_EN
  | .evt => HIF_EVT_CFG_EN

/-- The LOG2_SIZE field of a ring. -/
def ringLog : Ring → Fld
  | .tx t => HIF_TX_CFG_LOG2_SIZE t.val
  | .rx r => HIF_RX_CFG_LOG2_SIZE r.val
  | .cmd => HIF_CMD_CFG_LOG2_SIZE
  | .evt => HIF_EVT_CFG_LOG2_SIZE

/-- The ERR field of a ring. -/
def ringErr : Ring → Fld
  | .tx t => HIF_TX_CFG_ERR t.val
  | .rx r => HIF_RX_CFG_ERR r.val
  | .cmd => HIF_CMD_CFG_ERR
  | .evt => HIF_EVT_CFG_ERR

/-- The CFG register of a ring. -/
def ringCfg : Ring → Nat
  | .tx t => HIF_TX_CFG t.val
  | .rx r => HIF_RX_CFG r.val
  | .cmd => HIF_CMD_CFG
  | .evt => HIF_EVT_CFG

/-- The SOURCE of RING_ERR, and the key of a stopped ring (R383). -/
def ringKey : Ring → Nat
  | .tx t => t.val
  | .rx r => 16 + r.val
  | .cmd => 32
  | .evt => 33

/-- The offset of the device's word of a ring in the status page (R369). -/
def ringStatusOff : Ring → Nat
  | .tx t => 0x40 + 4 * t.val
  | .rx r => 0x80 + 4 * r.val
  | .cmd => 0
  | .evt => 4

/-- A ring runs: enabled, not stopped, with the Host island up and a bus master, and HIF_CTRL.ENABLE = 1. -/
def State.ringRuns (s : State) (r : Ring) : Bool :=
  s.up .host && s.dmaOn && s.on HIF_CTRL_ENABLE && s.on (ringEn r) && !s.hif.stopped.contains (ringKey r)

/-- Both indices of a ring are 0 and its status word is written 0 (R370, EN 0 → 1). -/
def State.ringZero (s : State) (r : Ring) : State :=
  let h := { s.hif with stopped := s.hif.stopped.filter (· ≠ ringKey r) }
  let h2 := match r with
    | .tx t => { h with txProd := SMap.put h.txProd 0 t.val 0, txCons := SMap.put h.txCons 0 t.val 0 }
    | .rx q => { h with rxProd := SMap.put h.rxProd 0 q.val 0, rxCons := SMap.put h.rxCons 0 q.val 0 }
    | .cmd => { h with cmdProd := 0, cmdCons := 0 }
    | .evt => { h with evtProd := 0, evtCons := 0 }
  { s with hif := h2 }.hostWr (s.get HIF_ST_BASE_ADDR * 4096 + ringStatusOff r) 4 0

/-- An inconsistent index stops a ring: ERR sets and RING_ERR is raised with the value read (R370). -/
def State.ringFail (s : State) (r : Ring) (v : Word) : State :=
  ({ s with hif := { s.hif with stopped := s.hif.stopped ++ [ringKey r] } }.set (ringErr r) 1).emit 0x0D01 (ringKey r) (args v.toNat)

/-- A record that AON held goes to the event ring and, unless that ring is full, to the remote event queue (R356, R500). -/
def State.flushOne (s : State) (e : EventRec) : State :=
  if s.evtFull then s.toRing e
  else
    let r := (s.toRing e).toRevq (s.recordImage e)
    if r.2 then (r.1.deliver ⟨0x0805, 0, s.short 0, 0⟩).1 else r.1

/-- The records of a start held in AON go to the ring when it runs after the start: START, OPT_DEFAULTED and BOATHOUSE in that
order. An OPT_DEFAULTED of the load waits for its start (R500). -/
def State.flushHeld (s : State) : State :=
  let h := s.hif.heldEvents
  if s.evtRuns && h.any fun e => e.code != 0x0C01 then
    let l := h.filter (fun e => e.code == 0x0C00) ++ h.filter (fun e => e.code == 0x0C01) ++ h.filter (fun e => e.code == 0x0C03)
    { s with hif := { s.hif with heldEvents := [] } }.each l fun t e => t.flushOne e
  else s

/-- A copy as RX delivery needs it: its octets without FCS after egress edits, and what the writeback says of it. -/
structure RxCopy where
  bytes : List Byte
  maxLen : Nat
  port : Nat
  sampled : Bool
  mirror : Bool
  reserved : Bool
  stream : Option Nat
  stamp : List Byte
  deriving DecidableEq, Repr

/-- Delivery of a copy into RX ring `r` (R374, R375): data, writeback in the layout of R374, RX_CONS, vector; a descriptor that is out of
range gets no data, and a ring that is disabled or has no posted buffer discards the copy. -/
def State.rxDeliver (s : State) (r : Fin 16) (c : RxCopy) : State :=
  let cons := SMap.get s.hif.rxCons 0 r.val
  let prod := SMap.get s.hif.rxProd 0 r.val
  if !s.ringRuns (.rx r) || cons == prod then s.inc (HIF_RX_NOBUF_COUNT r.val)
  else
    let slot := cons.toNat % ringSize (s.get (HIF_RX_CFG_LOG2_SIZE r.val))
    let a := s.get (HIF_RX_BASE_ADDR r.val) * 64 + 32 * slot
    let d := s.hostRd a 32
    let addr := bits d 0 64
    let buf := bits d 64 16
    let good := buf % 64 == 0 && 64 ≤ buf && buf ≤ 16384 && d / 2 ^ 80 == 0 && addr % 64 == 0
    let flen := c.bytes.length
    let n := if good then min (min flen buf) c.maxLen else 0
    let ts := s.on (HIF_RX_CFG_TS_EN r.val) && c.port < 64
    let trunc := n < flen
    let flags := 1 + (if ts then 2 else 0) + (if trunc || !good then 4 else 0) + (if c.sampled then 8 else 0)
      + (if c.mirror then 16 else 0) + (if c.reserved then 32 else 0)
    let st := match c.stream with
      | some k => k % 4096 + 2 ^ 15
      | none => 0
    let wb := n + flen % 2 ^ 16 * 2 ^ 16 + c.port * 2 ^ 32 + flags * 2 ^ 40 + st * 2 ^ 48
    let s1 := s.hostPut addr (c.bytes.take n)
    let s2 := s1.hostPut a (leBytes 8 wb ++ (if ts then sliceBytes c.stamp 0 24 else leBytes 24 0))
    let s3 := { s2 with hif := { s2.hif with rxCons := SMap.put s2.hif.rxCons 0 r.val (cons + 1) } }
    let s4 := s3.hostWr (s3.get HIF_ST_BASE_ADDR * 4096 + 0x80 + 4 * r.val) 4 (cons + 1).toNat
    let s5 := if n > 0 then s4.inc (HIF_RX_FRAMES_COUNT r.val) else s4
    let s6 := if trunc || !good then s5.inc (HIF_RX_TRUNC_COUNT r.val) else s5
    s6.raiseSource (16 + r.val) (s6.on (HIF_RX_CFG_VEC_EN r.val)) (s6.get (HIF_RX_CFG_VEC r.val)) (s6.get (HIF_RX_CFG_HOLDOFF r.val))

/-! ### Doorbells (R370, R371) -/

/-- The doorbell word of a ring as the page holds it. -/
def State.bell (s : State) (off : Nat) : Word := BitVec.ofNat 32 (s.hostRd (s.get HIF_DB_BASE_ADDR * 4096 + off) 4)

/-- One ring's word of a doorbell read (R370, R371). -/
def State.ringRead (s : State) (r : Ring) : State :=
  if !s.ringRuns r then s
  else
    let size := ringSize (s.get (ringLog r))
    match r with
    | .cmd =>
      let v := s.bell 0
      if (v - s.hif.cmdCons).toNat > size then s.ringFail r v else { s with hif := { s.hif with cmdProd := v } }
    | .evt =>
      let v := s.bell 4
      if (s.hif.evtProd - v).toNat > size then s.ringFail r v else { s with hif := { s.hif with evtCons := v } }
    | .tx t =>
      let v := s.bell (0x40 + 4 * t.val)
      if (v - SMap.get s.hif.txCons 0 t.val).toNat > size then s.ringFail r v
      else { s with hif := { s.hif with txProd := SMap.put s.hif.txProd 0 t.val v } }
    | .rx q =>
      let v := s.bell (0x80 + 4 * q.val)
      if (v - SMap.get s.hif.rxCons 0 q.val).toNat > size then s.ringFail r v
      else { s with hif := { s.hif with rxProd := SMap.put s.hif.rxProd 0 q.val v } }

/-- Every ring, in the order of the page. -/
def allRings : List Ring :=
  [.cmd, .evt] ++ (List.finRange 16).map Ring.tx ++ (List.finRange 16).map Ring.rx

/-- Octets 0x00–0xBF of the doorbell page as words (R371). -/
def State.bellWords (s : State) : SMap Word :=
  (List.range 48).foldl (fun m k => SMap.put m 0 k (s.bell (4 * k))) []

/-- One read of the doorbell page; the poll interval adapts to whether any word of it has changed since the last read (R371).
DESIGN CHOICE: the first read after a reset of the Host island compares with words of 0. -/
def State.readDoorbell (s : State) : State :=
  let w := s.bellWords
  let s1 := s.each allRings fun t r => t.ringRead r
  let iv := if w = s.hif.bells then min (2 * s.hif.pollNs) (s.get HIF_POLL_MAX_US * 1000) else s.get HIF_POLL_MIN_NS
  { s1 with hif := { s1.hif with pollNs := iv, bells := w } }

/-- The words of the status page that no ring owns are written 0 (R369). DESIGN CHOICE: once, when HIF_CTRL.ENABLE is set. -/
def State.statusZero (s : State) : State :=
  let a := s.get HIF_ST_BASE_ADDR * 4096
  (s.hostPut (a + 8) (leBytes 56 0)).hostPut (a + 0xC0) (leBytes 3904 0)

/-- A kick: a read at once, and the interval restarts at MIN_NS (R371). -/
def State.kick (s : State) : State :=
  if s.on HIF_CTRL_ENABLE && s.dmaOn then
    let s1 := s.readDoorbell
    { s1 with hif := { s1.hif with pollNs := s.get HIF_POLL_MIN_NS } }
  else s

end Sys2Proof.Machine
end

