-- ==== Sys2Proof/Machine/Start.lean ====
section
/-! DEFINITION. Device resets, the option load, starts of Cox, Boathouse and the end of a wake (R484–R500, R466–R478). -/
namespace Sys2Proof.Machine

/-! ### Option load (R492–R495) -/

/-- Word `i` of option copy `c` in RRAM. -/
def State.optWord (s : State) (c i : Nat) : Nat := (SMap.get s.rst.optWords 0 (16 * c + i)).toNat

/-- A mode is legal for a port (R59): MEDIA, SPEED, ROLE, AN_EN, RS_FEC. -/
def modeLegal (n media speed role an fec : Nat) : Bool :=
  let speedOk := if n < 8 then (if media = 0 then speed ≤ 3 else media == 1 && speed ≤ 4)
    else if n < 32 then media == 0 && speed ≤ 1
    else media == 0 && speed == 0
  speedOk && (an == 0 || (media == 0 && n < 32)) && (role ≤ 1 || (role == 2 && an == 1)) && (fec == 0 || (media == 1 && speed == 0))

/-- BOOT and FLASH words are in range and the management mode is legal (R492). -/
def optValuesOk (boot flash : Nat) : Bool :=
  boot / 2 ^ 25 == 0 && bits boot 14 2 == 0 && bits boot 4 4 == 0 && flash / 2 ^ 13 == 0 && bits flash 4 4 == 0
  && 1 ≤ bits boot 0 4 && bits boot 8 6 ≤ 31 && bits flash 0 3 ≤ 4
  && modeLegal (bits boot 8 6) (bits boot 16 2) (bits boot 18 4) (bits boot 22 2) (bits boot 24 1) 0

/-- Copy `c` of the option area is valid (R492). -/
def State.optValid (s : State) (c : Nat) : Bool :=
  s.optWord c 0 == 0x4F505431 && (List.range 11).all (fun k => s.optWord c (4 + k) == 0)
  && s.optWord c 15 == crc32c ((List.range 15).flatMap fun k => leBytes 4 (s.optWord c k))
  && optValuesOk (s.optWord c 2) (s.optWord c 3)

/-- Word `i` of trim copy `c` in RRAM. -/
def State.trimWord (s : State) (c i : Nat) : Nat := (SMap.get s.rst.trimWords 0 (128 * c + i)).toNat

/-- Copy `c` of the trim area is valid: MAGIC and CRC check (R492). -/
def State.trimValid (s : State) (c : Nat) : Bool :=
  s.trimWord c 0 == 0x54524D31 && s.trimWord c 64 == crc32c ((List.range 64).flatMap fun k => leBytes 4 (s.trimWord c k))

/-- The choice between two copies (R493): 0, 1, or 2 for defaults. -/
def chooseCopy (ok0 ok1 : Bool) (seq0 seq1 : Nat) : Nat :=
  if ok0 && ok1 then (if shortDiff seq0 seq1 ≥ 0 then 0 else 1) else if ok0 then 0 else if ok1 then 1 else 2

/-- The load of trim and options (R493, R495); `inj` names a copy in which OPT_CRC makes a bad CRC (R505). DESIGN CHOICE (log 126): the load
is one step, no command falls inside it, and LOAD_STATE goes from 0 to 4. -/
def State.loadOptions (s : State) (inj : Option Nat) : State :=
  let ok := fun c => s.optValid c && inj != some c
  let use := chooseCopy (ok 0) (ok 1) (s.optWord 0 1) (s.optWord 1 1)
  let tr := chooseCopy (s.trimValid 0) (s.trimValid 1) (s.trimWord 0 1) (s.trimWord 1 1)
  let boot := if use = 2 then resetWord OPT_BOOT else BitVec.ofNat 32 (s.optWord use 2)
  let flash := if use = 2 then resetWord OPT_FLASH else BitVec.ofNat 32 (s.optWord use 3)
  let s1 := (((s.wr OPT_BOOT boot).wr OPT_NEW_BOOT boot).wr OPT_FLASH flash).wr OPT_NEW_FLASH flash
  let s2 := ((s1.set OPT_SEQ_SEQ (if use = 2 then 0 else s.optWord use 1)).set OPT_STATUS_COPY use).put OPT_STATUS_DEFAULTED (use == 2)
  let s3 := (s2.set OPT_STATUS_TRIM_COPY tr).put OPT_STATUS_TRIM_DEFAULTED (tr == 2)
  let s4 := (s3.set OPT_STATUS_LOAD_STATE 4).set OPT_STATUS_VALID 1
  let s5 := if use = 2 then s4.emitHeld 0x0C01 0 else s4
  if tr = 2 then s5.emitHeld 0x0C01 0 else s5

/-- The start sequence after a reset is released (R488): options load, and the domains of PWR_ACTIVE are switched
on. -/
def State.startSequence (s : State) (inj : Option Nat) : State :=
  let s1 := s.loadOptions inj
  { s1 with pwr := { s1.pwr with want := s1.wantedDomains 0 } }

/-- The copy in which OPT_CRC breaks the next load: as armed, or as it was armed before a reset that is still held (R505). -/
def State.optInjected (s : State) : Option Nat := if s.on (INJ_ARM_ARM 23) then some (s.get (INJ_ARM_TARGET 23)) else s.rst.optInj

/-- A device reset (R484, R485): causes 2, 3 and 6 hold it until RESET_RELEASE. -/
def State.deviceReset (s : State) (cause : Nat) : State :=
  let s1 := s.clearDevice cause
  if cause = 2 ∨ cause = 3 ∨ cause = 6 then
    { s1 with rst := { s1.rst with hold := s.rst.hold.filter (· ≠ cause) ++ [cause], optInj := s.optInjected } }
  else s1.startSequence s.optInjected

/-! ### Starts (R497–R500) -/

/-- What a start leads to (R497). -/
inductive StartKind where
  | go | boathouse | reset
  deriving DecidableEq, Repr

/-- The 2 s window of a start opens (R497). -/
def State.openStart (s : State) : State :=
  { s.set RST_START_START_OPEN 1 with rst := { s.rst with startTick := s.refTicks } }

/-- A start event is held in AON, and goes to the ring with what is held before it when the ring runs (R500). -/
def State.emitStart (s : State) (code : Nat) : State := (s.emitHeld 0x0C00 (args code)).flushHeld

/-- START_PENDING sets with a start (R466, R497). -/
def State.startPends (s : State) : State :=
  s.holdFaultN ((if s.on GLB_FAULT_START_PENDING then s else s.recFaultTrigger).set GLB_FAULT_START_PENDING 1)

/-- The failed-start count as the writes asked for will leave it (R497, R501). -/
def State.failsNow (s : State) : Nat :=
  s.pwLast .failStart

/-- A start is counted (R497); the second result says that the limit is reached. -/
def State.countStart (s : State) : State × Bool :=
  if s.on RST_START_START_OPEN then
    let fails := min (s.failsNow + 1) 15
    (s.pwRequest [⟨.failStart, fails⟩], decide (fails ≥ s.get OPT_BOOT_FAIL_LIMIT))
  else (s, decide (s.failsNow ≥ s.get OPT_BOOT_FAIL_LIMIT))

/-- A start that has failed too often without following a reset: a device reset with cause 8 (R497). DEDUCED: the failed-start count that
the start writes is in RRAM before the reset that the same start brings on, in the order of R497. -/
def State.failReset (s : State) : State := s.pwFlush.deviceReset 8

/-- A start of Cox: RST_CAUSE.START, the START event, START_PENDING, and the failed-start count (R484, R497), which Boathouse leaves
alone (R498). -/
def State.startCounted (s : State) : State × StartKind :=
  let code := s.cox.startCode
  let s2 := ((s.set RST_CAUSE_START code).startPends).emitStart code
  if s2.power = 2 then (s2, .go)
  else
    let r := s2.countStart
    if r.2 then (r.1, if code ≤ 8 then .boathouse else .reset) else (r.1.openStart, .go)

/-- Boathouse (R498): power state 2, the management port enabled in its configured mode, the bridge set up from the boot
configuration (R336), the BOATHOUSE event. -/
def State.enterBoathouse (s : State) (boot : Option BootHfp) : State :=
  let n := s.get OPT_BOOT_MGMT_PORT
  let s1 := (((s.set (PRT_MODE_MEDIA n) (s.get OPT_BOOT_MGMT_MEDIA)).set (PRT_MODE_SPEED n) (s.get OPT_BOOT_MGMT_SPEED)).set
    (PRT_MODE_ROLE n) (s.get OPT_BOOT_MGMT_ROLE)).set (PRT_MODE_AN_EN n) (s.get OPT_BOOT_MGMT_AN)
  let s2 := (s1.set (PRT_MODE_ENABLE n) 1).set RST_START_BOATHOUSE 1
  let s3 := s.holdFaultN ((s2.toPower 2).switchDomains 2)
  let s4 := if s3.up .port n && s3.link n == 0 then s3.portLeaveOff n else s3
  ({ s4 with pwr := { s4.pwr with bootHfp := boot } }.bootBridge.emitHeld 0x0C03 (args s4.failsNow)).flushHeld

/-! ### The end of a wake (R477) -/

/-- The table images of powered units have loaded or given up. -/
def State.imagesSettled (s : State) : Bool := s.pwr.loading.isEmpty

/-- A wake ends when its domains, images and cores are ready: STATE 0 or 1, POWER_STATE and WAKE (R477 step 7), with the domains of that
state as they are set now (R462);
WARM says whether it was warm (R468). -/
def State.finishWake (s : State) : State :=
  if s.power = 5 && s.domainsReady && !s.pwr.wakeCores && s.imagesSettled then
    let dest := s.get WAK_CFG_WAKE_TO
    let warm := s.on PWR_STATUS_IMG_VALID && s.imagesLoaded && s.pwr.copyGood && s.pwr.inhStayed
    let s1 := ((s.put PWR_STATUS_WARM warm).toPower dest).switchDomains dest
    s1.emit 0x0B01 0 (args (s1.rd WAK_SOURCE).toNat)
  else s

end Sys2Proof.Machine
end

