-- ==== Sys2Proof/Machine/Cox.lean ====
section
/-! DEFINITION. The rows of the Cox pair: comparators, self-test, release, watchdogs, monitors, mode, debug, lifecycle
and injection points (R388–R414). -/
namespace Sys2Proof.Machine

/-- LOCKSTEP_MISMATCH: both comparators see a mismatch; parity findings of the same cycle come first (R392, R393). -/
def execLockstepMismatch (outPar inPar : Bool) (s : State) : Host.Outcome State Fault Refusal :=
  let s1 := s.parityFindings outPar inPar
  .next (if s.comparing then s1.mismatchFinding else s1)

/-- CHECKER_FAULT: one comparator alone, or a parity error of a delay register (R392, R393). -/
def execCheckerFault (alone : Option Bool) (outPar inPar : Bool) (s : State) : Host.Outcome State Fault Refusal :=
  let s1 := match alone with
    | some b => if s.comparing then s.checkerFinding (if b then 3 else 2) else s
    | none => s
  .next (s1.parityFindings outPar inPar)

/-- The self-test is hidden from a comparator by injection point 3 (R411): comparator A, comparator B. -/
def State.testHidden (s : State) : Bool × Bool :=
  if s.on (INJ_ARM_ARM 3) then
    let t := s.get (INJ_ARM_TARGET 3)
    (t == 0 || t == 2, t == 1 || t == 2)
  else (false, false)

/-- One self-test at the next position (R394): COX_SELFTEST, and whether comparator A and B missed it. -/
def State.runSelftest (s : State) (missA missB : Bool) : State × Bool × Bool :=
  let h := s.testHidden
  let a := missA || h.1
  let b := missB || h.2
  let s1 := if h.1 || h.2 then s.injSpend 3 else s
  let s2 := s1.set COX_SELFTEST_BIT s1.cox.nextBit
  let s3 := { s2 with cox := { s2.cox with nextBit := (s2.cox.nextBit + 1) % 640 } }
  (if a || b then s3 else s3.incWrap COX_SELFTEST_PASSES, a, b)

/-- The code of a missed self-test (R392). -/
def missCode (a b : Bool) : Nat := if a && b then 8 else if a then 6 else 7

/-- SELFTEST: one bit injected and both comparators judged (R394, R395); a flag on another bit is a real finding, and parity errors of
the same cycle come in the order of their codes (R393). -/
def execSelftest (missA missB otherA otherB : Bool) (s : State) (outPar : Bool := false) (inPar : Bool := false) :
    Host.Outcome State Fault Refusal :=
  if !s.comparing || s.cox.coresHeld then .next (s.parityFindings outPar inPar)
  else
    let r := s.runSelftest missA missB
    let s1 := if otherA && !otherB then r.1.checkerFinding 2 else if otherB && !otherA then r.1.checkerFinding 3 else r.1
    let s2 := s1.parityFindings outPar inPar
    let s3 := if r.2.1 || r.2.2 then s2.checkerFinding (missCode r.2.1 r.2.2) else s2
    .next (if otherA && otherB then s3.mismatchFinding else s3)

/-- The watchdogs of released cores start: 0 always, 1 in split mode (R402). -/
def State.startWdogs (s : State) : State :=
  let w := SMap.put [] 0 0 1
  { s with cox := { s.cox with wdog := if s.get COX_STATUS_MODE = 1 then SMap.put w 0 1 1 else w, wdogSecond := [] } }

/-- A fresh COX_NONCE (R409). -/
def State.newNonce (s : State) : State :=
  let r := s.free 64
  r.2.set COX_NONCE_NONCE r.1.toNat

/-- A running watchdog expires (R402). -/
def State.wdogExpire (s : State) (w : Nat) : State :=
  if SMap.get s.cox.wdog 0 w = 0 then s else s.wdogFinding (if w = 0 then 0x10 else 0x12)

/-- The points that act as soon as they are armed, where their detector runs (R411). DEDUCED: an injected expiry is a
finding while the safe reaction runs, though its watchdog is stopped (R397, R411). -/
def State.injActNow (s : State) (p : Nat) : State :=
  let t := s.get (INJ_ARM_TARGET p)
  match p with
  | 0 => if s.comparing then (s.injSpend 0).mismatchFinding else s
  | 1 => if s.comparing && t < 2 then (s.injSpend 1).checkerFinding (2 + t) else s
  | 2 => if s.delaying && t < 2 then (s.injSpend 2).checkerFinding (4 + t) else s
  | 4 => if SMap.get s.cox.wdog 0 t = 0 && !(s.cox.seqRunning && (t == 0 || (t == 1 && s.get COX_STATUS_MODE == 1))) then s
    else (s.injSpend 4).wdogFinding (if t = 0 then 0x10 else 0x12)
  | 5 => if 0x20 ≤ t ∧ t ≤ 0x28 then (s.injSpend 5).monitorFinding t GLB_FAULT_CLOCK 0x0103 false else s
  | 6 => if t < 16 then (s.injSpend 6).monitorFinding (0x30 + t) GLB_FAULT_SUPPLY 0x0104 false else s
  | 7 => (s.injSpend 7).monitorFinding 0x50 GLB_FAULT_TEMP 0x0105 false
  | 12 => if t < 64 ∧ s.link t = 4 ∧ s.get (PRT_MODE_LOOPBACK t) = 0 then (s.injMark 12).linkFail t (s.prtOf t).partner
    else if t < 64 ∧ s.link t = 3 ∧ (s.prtOf t).linkOk then (s.injMark 12).prtSet t fun p => { p with linkOk := false } else s
  | 13 => if t < 32 ∧ s.on (PRT_RESUME_INFO_VALID t) then
      (s.injSpend 13).prtSet t fun q => { q with resume := { q.resume with crcBad := true } } else s
  | 14 => s.injUmp
  | 15 => s.injUmp
  | 17 => s.injTimeWdog t
  | _ => s

/-- The points whose detectors of the pair run only now act (R410). -/
def State.pairPoints (s : State) : State := s.each [0, 1, 2, 4] fun t p => if t.on (INJ_ARM_ARM p) then t.injActNow p else t

/-- What firmware's start brings about: UPD_REVERTED after a restored image (R451), the points that were armed while the
cores were held act now (R410), and tables that no image gave come from flash (R445). -/
def State.afterRelease (s : State) : State := s.sayReverted.pairPoints.tablesCommit

/-- The cores leave reset (R397 step 4, R398, R402, R406, R409); firmware that runs again writes the routes of what has changed
since (R340). -/
def State.releaseCores (s : State) : State :=
  let s1 := if s.cox.startCode = 10 then s.inc COX_STATUS_CORE_RESETS else s
  let s2 := { s1 with cox := { s1.cox with coresHeld := false, seqRunning := false, faultLocked := false } }
  let s3 := if s2.on COX_STATUS_DEBUG then s2 else s2.set COX_STATUS_LS_BROKEN 0
  (s3.newNonce.startWdogs).afterRelease.computeRoutes

/-- The start self-test of a release in paired mode (R394, R396): a miss holds the cores and sets HALTED. -/
def State.releaseTested (s : State) (missA missB : Bool) : State :=
  if s.get COX_STATUS_MODE ≠ 0 then s.releaseCores
  else
    let r := s.runSelftest missA missB
    if r.2.1 || r.2.2 then
      (r.1.finding (missCode r.2.1 r.2.2) GLB_FAULT_CHECKER_FAULT 0x0101).set COX_STATUS_HALTED 1
    else r.1.releaseCores

/-- A wake copy with a block that fails its CRC is shown, and the wake is not warm (R468). -/
def State.copyChecked (s : State) (bad : Bool) : State :=
  if s.cox.startCode = 9 && bad then { s.set WAK_STATUS_COPY_BAD 1 with pwr := { s.pwr with copyGood := false } } else s

/-- What Launch does before a start: an update state left over becomes IDLE, and what it read from flash is measured and becomes the wake
copy (R435, R450, R468). -/
def State.launchLoads (s : State) (copyBad : Bool) : State :=
  let s1 := s.launchIdles s.cox.startCode
  if s.cox.startCode = 9 && !copyBad then s1 else s1.measure.copyKept

/-- The cores have been released, or not: a wake goes on (R477). -/
def State.wakeReleased (s : State) : State :=
  if s.cox.coresHeld then s else { s with pwr := { s.pwr with wakeCores := false } }.finishWake

/-- The start itself (R388, R394, R397, R497). DEDUCED: the failed-start count that a start writes is in RRAM before the
reset that the same start brings on, in the order of R497. -/
def State.startCores (s : State) (r : ReleaseResult) : State :=
  match s.startCounted with
  | (s1, .boathouse) => (s1.enterBoathouse r.boot).releaseTested r.missA r.missB
  | (s1, .reset) => s1.failReset
  | (s1, .go) => (if r.digestOk then s1.releaseTested r.missA r.missB else s1).wakeReleased

/-- CORE_RELEASE: Launch has reloaded the memory and tested the pair, or starts a revert first (R388, R396, R397, R450,
R468, R488, R497). -/
def execCoreRelease (r : ReleaseResult) (s : State) : Host.Outcome State Fault Refusal :=
  if !(s.up .cox && s.cox.coresHeld && !s.on COX_STATUS_HALTED && s.on OPT_STATUS_VALID) || s.updLive = 8 then .next s
  else
    let bad := r.copyBad || !s.copySound
    let ok := r.digestOk && (s.cox.startCode != 11 || s.digestsOk)
    match s.launchReverts s.cox.startCode ok with
    | some cause => .next (s.beginRevert cause)
    | none => .next (((s.copyChecked bad).launchLoads bad).startCores { r with digestOk := ok })

/-- A write of COX_WDOG_KICK[w], `ms` after the previous kick or release (R402). -/
def State.wdogKick (s : State) (who : Initiator) (w : Nat) (value : Word) (ms : Nat) : State :=
  let ok := s.access who true (COX_WDOG_KICK w)
  if !ok.2 then ok.1
  else
    let s1 := if value.toNat / 2 ^ 16 ≠ 0 then ok.1.accessErr who true (COX_WDOG_KICK w) 0 else ok.1
    let run := SMap.get s1.cox.wdog 0 w
    let second := SMap.get s1.cox.wdogSecond false w
    let want := if second then 0xA5A5 else 0x5A5A
    if run = 0 then s1
    else if value.toNat % 2 ^ 16 ≠ want ∨ (run = 2 ∧ ms < s1.get (COX_WDOG_CFG_MIN_MS w)) then
      s1.wdogFinding (if w = 0 then 0x11 else 0x13)
    else { s1 with cox := { s1.cox with wdog := SMap.put s1.cox.wdog 0 w 2, wdogSecond := SMap.put s1.cox.wdogSecond false w (!second) } }

/-- WDOG_KICK: it waits while the set-up bus is held (R350, R402). -/
def execWdogKick (who : Initiator) (w : Fin 2) (value : Word) (ms : Nat) (s : State) : Host.Outcome State Fault Refusal :=
  .next (if s.hostTurned who then s.unsupported false else if s.busHeld then s.busWaits (.kick who w.val value ms) else s.wdogKick who w.val value ms)

/-- WDOG_EXPIRY (R402). -/
def execWdogExpiry (w : Fin 2) (s : State) : Host.Outcome State Fault Refusal := .next (s.wdogExpire w.val)

/-- CLOCK_MON: monitor `m`, code 0x20 + m (R403). -/
def execClockMon (m : Fin 9) (persists : Bool) (s : State) : Host.Outcome State Fault Refusal :=
  if s.up .cox then .next (s.monitorFinding (0x20 + m.val) GLB_FAULT_CLOCK 0x0103 persists) else .next s

/-- SUPPLY_MON: rail `rail`, code 0x30 + rail (R403). -/
def execSupplyMon (rail : Fin 16) (persists : Bool) (s : State) : Host.Outcome State Fault Refusal :=
  if s.up .cox then .next (s.monitorFinding (0x30 + rail.val) GLB_FAULT_SUPPLY 0x0104 persists) else .next s

/-- TEMP_MON: the sensor's 1 ms reading, or its failure (R403, COX_MON.TJ). The temperature is `tj` in signed °C plus `beyond`, for a
junction hotter than the signed octet TJ can say; DESIGN CHOICE (log 124): TJ then reads 127. -/
def execTempMon (sensorFail : Bool) (tj : Byte) (persists : Bool) (s : State) (beyond : Nat := 0) : Host.Outcome State Fault Refusal :=
  if !s.up .cox then .next s
  else if sensorFail then .next (s.monitorFinding 0x51 GLB_FAULT_TEMP 0x0105 persists)
  else
    let t : Int := sext 8 tj.toNat + beyond
    let s1 := s.set COX_MON_TJ (wrapInt 8 (min t 127))
    if t > (s.get COX_MON_TEMP_LIMIT : Int) then .next (s1.monitorFinding 0x50 GLB_FAULT_TEMP 0x0105 persists)
    else .next (s1.keepCause 0x50 false)

/-- The conditions of R400. -/
def State.mayUnfreeze (s : State) : Bool :=
  !s.on GLB_FAULT_START_PENDING && (s.rd GLB_FAULT).toNat % 4 == 0 && !s.on COX_STATUS_HALTED

/-- COX_MODE (R404). -/
def execCoxMode (src : CmdSrc) (d : Desc) (s : State) : Host.Outcome State Fault Refusal :=
  .next <| s.runCmd src d (descBits d 16 8 < 2 && descZero d 17 64) [0, 1] true fun t =>
    let mode := descBits d 16 1
    if mode = t.get COX_STATUS_MODE ∨ t.get COX_STATUS_MODE = 2 then .refuse 5 (t.get COX_STATUS_MODE)
    else if t.on COX_STATUS_DEBUG then .refuse 6 2
    else .long (t.set COX_STATUS_MODE 2) (.coxMode mode)

/-- A self-test missed in service holds the cores (R396, cited by R405): the finding starts the safe reaction (R397), HALTED keeps the
cores from being released, and the attempt counts as a start (R497). DEDUCED: START_PENDING is set as at any start. -/
def State.testHalts (s : State) (code : Nat) : State :=
  let s1 := ((s.checkerFinding code).set COX_STATUS_HALTED 1).startPends.countStart
  if s1.2 then s1.1.failReset else s1.1.openStart

/-- The change of mode ends (R405): to split, watchdog 1 starts with 0x5A5A as its next kick (R402); to paired, a self-test runs and
watchdog 1 stops. Points armed for a detector that runs only now act (R410). -/
def State.coxModeDone (s : State) (target : Nat) (missA missB : Bool) : State :=
  if target = 1 then
    let w := { s.cox with wdog := SMap.put s.cox.wdog 0 1 1, wdogSecond := SMap.put s.cox.wdogSecond false 1 false }
    ({ s.set COX_STATUS_MODE 1 with cox := w }.finishRunning 0 0).pairPoints
  else
    let s1 := { s.set COX_STATUS_MODE 0 with cox := { s.cox with wdog := SMap.put s.cox.wdog 0 1 0 } }
    let r := s1.runSelftest missA missB
    if r.2.1 || r.2.2 then
      (r.1.finishRunning 0 0).testHalts (missCode r.2.1 r.2.2)
    else (r.1.finishRunning 0 0).pairPoints

/-- IDCODE of the device at A1 (R517): version 1, part 0x6425, manufacturer 0x3B5, and the fixed 1 of IEEE 1149.1. -/
def jtagIdcode : Word := 0x1642576B

/-- The lifecycle state permits a JTAG instruction: in FIELD, IDCODE only (R407, R517), and BYPASS, which reaches nothing. -/
def State.scanAllowed (s : State) (i : JtagIr) : Bool := s.get COX_LIFECYCLE_STATE != 2 || i == .idcode || i == .bypass

/-- What a data register captures before it shifts (PRESUMED from IEEE 1149.1): a 0 for BYPASS, the code for IDCODE, the levels of the
pins, which are free values, for the boundary scan. -/
def State.jtagCapture (s : State) (i : JtagIr) (n : Nat) : List Bool × State :=
  match i with
  | .bypass => ([false], s)
  | .idcode => ((List.range 32).map fun k => bit jtagIdcode.toNat k, s)
  | _ => let v := s.free n
         ((List.range n).map fun k => bit v.1.toNat k, v.2)

/-- A scan (R517): the captured bits come out first, then what went in; the boundary scan loads its cells, which drive the pins under
EXTEST. An instruction that the lifecycle state does not permit selects BYPASS (DESIGN CHOICE, log 83). -/
def State.jtagScan (s : State) (x : JtagScan) : State :=
  let i := if s.scanAllowed x.ir then x.ir else .bypass
  let r := s.jtagCapture i x.tdi.length
  let cells := if i = .samplePreload ∨ i = .extest then x.tdi else s.jtag.cells
  { r.2 with jtag := { ir := i, cells := cells, tdo := s.jtag.tdo ++ (r.1 ++ x.tdi).take x.tdi.length } }

/-- DEBUG_ATTACH: a tester scans the test access port (R517), and a debugger attaches (`attach`), which lifecycle and owner lock grant, with
the debug domain on (R406, R407, R460). DEDUCED (log 83): scans do not need the debug domain, which R460 keeps off where R407 permits
IDCODE and boundary scan. -/
def execDebugAttach (s0 : State) (scans : List JtagScan := []) (attach : Bool := true) : Host.Outcome State Fault Refusal :=
  let s := if s0.alive then s0.each scans fun t x => t.jtagScan x else s0
  if !(attach && s.debugAllowed && s.up .debug && s.up .cox) then .next s
  else
    let s1 := s.set COX_STATUS_DEBUG 1
    .next (if s.get COX_STATUS_MODE = 0 then s1.set COX_STATUS_LS_BROKEN 1 else s1)

/-- DEBUG_DETACH (R406). -/
def execDebugDetach (s : State) : Host.Outcome State Fault Refusal := .next (s.set COX_STATUS_DEBUG 0)

/-- The authorisation block at a host address (R409): PUBKEY and the signature. -/
def State.authBlock (s : State) (a : Nat) : List Byte × List Byte :=
  let b := s.hostBytes a 272
  (sliceBytes b 0 133, sliceBytes b 136 132)

/-- A signature of the owner over UID, nonce and purpose (R409). -/
def State.ownerSigned (s : State) (a purpose : Nat) : Bool :=
  let b := s.authBlock a
  let msg := uidBytes ++ beBytes 8 (s.get COX_NONCE_NONCE) ++ [BitVec.ofNat 8 purpose]
  Config.sha512 b.1 == s.cox.keyHash && s.on COX_LIFECYCLE_KEY_SET && Config.ecdsaVerify b.1 msg b.2

/-- The next states of R407. -/
def lifecycleNext (now target : Nat) : Bool :=
  (now == 0 && target == 1) || (now == 1 && (target == 2 || target == 3)) || (now == 2 && target == 3)

/-- LIFECYCLE (R408, R409); it draws a nonce, so a failed TRNG refuses it (R421). -/
def execLifecycle (src : CmdSrc) (d : Desc) (s : State) : Host.Outcome State Fault Refusal :=
  let op := descBits d 16 8
  let a := descBits d 24 64
  let ok := 1 ≤ op && op ≤ 3 && descZero d 17 24 && descZero d 32 64 && a % 8 == 0 && (if op = 2 then a == 0 else true)
    && !src.remote
  .next <| s.runCmd src d ok [0, 1, 2] true fun t =>
    if !lifecycleNext (t.get COX_LIFECYCLE_STATE) op then .refuse 6 4
    else if t.on KEY_STATUS_TRNG_FAIL then .refuse 6 8
    else if op = 3 && !t.on WAK_STATUS_STILL then .done t 13 0
    else if op = 1 then
      let h := Config.sha512 (t.authBlock a).1
      if t.worn .keyHash then .done t.newNonce 8 0 else .long ((t.countWear .keyHash).newNonce) (.lifecycle 1 h)
    else if op = 2 then .long t (.lifecycle 2 [])
    else if t.ownerSigned a 2 then .long t.newNonce (.lifecycle 3 [])
    else .done t.newNonce 7 0

/-- A lifecycle fuse write ends (R408); RETURNED acts on key material (R414), and PD14 follows what R407 permits (R460). -/
def State.lifecycleDone (s : State) (target : Nat) (h : List Byte) : State :=
  let s1 := s.set COX_LIFECYCLE_STATE target
  let s2 := if target = 1 then ({ s1.set COX_LIFECYCLE_KEY_SET 1 with cox := { s1.cox with keyHash := h } }).keysChanged true
    else if target = 3 then s1.keysChanged false else s1
  s2.domainsFollow.finishRunning 0 0

/-- OWNER_LOCK (R408, R409), which a failed TRNG refuses (R421). -/
def execOwnerLock (src : CmdSrc) (d : Desc) (s : State) : Host.Outcome State Fault Refusal :=
  let op := descBits d 16 8
  let a := descBits d 24 64
  let ok := op ≤ 1 && descZero d 17 24 && descZero d 32 64 && a % 8 == 0 && (if op = 0 then a == 0 else true) && !src.remote
  .next <| s.runCmd src d ok [0, 1, 2] true fun t =>
    if t.get COX_LIFECYCLE_STATE = 0 then .refuse 6 4
    else if t.on KEY_STATUS_TRNG_FAIL then .refuse 6 8
    else if op = 1 && !t.ownerSigned a 1 then .done t.newNonce 7 0
    else
      let t1 := if op = 1 then t.newNonce else t
      if t1.get COX_LIFECYCLE_OWNER_LOCK = 1 - op then .done t1 0 0
      else if t1.worn .ownerLock then .done t1 8 0
      else .long (t1.countWear .ownerLock) (.ownerLock (op == 0))

/-- Every point is disarmed (R410). -/
def State.disarmAll (s : State) : State := s.each (List.range 25) fun t p => t.set (INJ_ARM_ARM p) 0

end Sys2Proof.Machine
end

