-- ==== Sys2Proof/Machine/EdgeOps.lean ====
section
/-! DEFINITION. The Rigger (R306–R328): routes, freshness, emission, IEEE 1722 tunnels, and what it makes of frames from
port 66. -/
namespace Sys2Proof.Machine

/-- The Rigger's tables stand and the island is up (R326). -/
def State.rigReady (s : State) : Bool := s.up .edge && s.on RIG_STATUS_READY

/-- Routes, emissions and tunnels run. -/
def State.rigRuns (s : State) : Bool := s.rigReady && s.on RIG_CFG_ENABLE

/-! ### Integrity (R328) -/

/-- Captures an entry in RIG_ERR_LOC. -/
def State.rigErrLoc (s : State) (t i : Nat) : State :=
  if s.on RIG_ERR_LOC_VALID then s.set RIG_ERR_LOC_OVERFLOW 1
  else ((s.set RIG_ERR_LOC_VALID 1).set RIG_ERR_LOC_TABLE t).set RIG_ERR_LOC_INDEX i

/-- An uncorrectable error is found in entry `i` of table `t`: it acts as not valid from here on, in RIG_STALE too (R311, R328). -/
def State.rigBreak (s : State) (t i : Nat) : State :=
  if s.rigBroken t i then s
  else
    let s1 := s.eset fun e => { e with broken := e.broken ++ [t * 2 ^ 20 + i] }
    let s2 := ((s1.inc RIG_ECC_UNCORR_COUNT).rigErrLoc t i).faultBit GLB_FAULT_ECC_UNCORR
    let s3 := s2.emit 0x0704 0 (args (s2.rd RIG_ERR_LOC).toNat)
    if t = 0 then s3.showStale i else s3

/-- A read of entry `i` of table `t` meets an uncorrectable error when RIG_ECC is armed for it (R328, R329). -/
def State.rigTouch (s : State) (t i : Nat) : State :=
  if s.injArmedFor 20 i && s.get (INJ_ARM_SUB 20) == t && !s.rigBroken t i then (s.injSpend 20).rigBreak t i else s

/-- An error that the memories of the Rigger show on their own: corrected and counted, or uncorrectable (R328). -/
def State.rigUpset (s : State) (u : RigUpset) : State :=
  if u.lost then s.rigBreak u.table.val u.index.toNat else s.inc RIG_ECC_CORR_COUNT

/-- The valid PDUs that can be read. -/
def State.livePdus (s : State) : List (Nat × Nat) := (pdusOf s.fab.active).filter fun e => !s.rigBroken 1 e.1

/-- The valid tunnels that can be read. -/
def State.liveTuns (s : State) : List (Nat × Nat) := (tunsOf s.fab.active).filter fun e => !s.rigBroken 2 e.1

/-- The state of PDU `p` beyond its entry. -/
def State.pduSt (s : State) (p : Nat) : PduSt := SMap.get s.edge.pdus {} p

/-- Changes the state of PDU `p`. -/
def State.pduSet (s : State) (p : Nat) (f : PduSt → PduSt) : State :=
  s.eset fun e => { e with pdus := SMap.upd e.pdus {} p f }

/-- The buffer of PDU `p` as a number, bit position p of R306 its bit p. -/
def State.pduBuf (s : State) (p : Nat) : Nat := leNat (s.pduSt p).buf

/-- Bits are written into the buffer of PDU `p`. -/
def State.bufWrite (s : State) (p : Nat) (ps : List Nat) (v : Nat) : State :=
  let n := pduLen (s.tab 12 p)
  s.pduSet p fun x => { x with buf := leBytes n (insertBits (leNat x.buf) ps v) }

/-! ### Stamps (R284, R315) -/

/-- Full time of a domain less a number of ns, when the domain counts. -/
def State.stampIn (s : State) (d back : Nat) : Option (Nat × Nat) :=
  if s.up .time && s.domEn d then some (d, s.domNs d - back) else none

/-- The stamp of a CAN frame whose start of frame lies `age` ns back. -/
def State.canStamp (s : State) (age : Nat) : Option (Nat × Nat) :=
  s.stampIn (s.get TIM_EDGE_CFG_CAN_DOM) (age + s.get TIM_EDGE_CFG_CAN_DELAY)

/-- The stamp of a LIN frame whose break began `age` ns ago. -/
def State.linStamp (s : State) (age : Nat) : Option (Nat × Nat) :=
  s.stampIn (s.get TIM_EDGE_CFG_LIN_DOM) (age + 10 * s.get TIM_EDGE_CFG_LIN_DELAY)

/-- ARRIVAL extended to full time of domain 0 (R277). -/
def State.ethStamp (s : State) (arrival : Nat) : Option (Nat × Nat) :=
  if s.up .time && s.domEn 0 then some (0, ((s.domNs 0 : Int) + shortDiff arrival (s.short 0)).toNat) else none

/-! ### Routes (R309, R311) -/

/-- What a route writes for the bytes received (R309): the raw output, whether the input was invalid, whether the result
saturated. -/
def routeOut (e : Nat) (data : List Byte) : Nat × Bool × Bool :=
  let ps := rtSrcBits e
  if ps.any (fun p => p ≥ 8 * data.length) then (rtInv e, true, false)
  else
    let raw := extract (leNat data) ps
    if ebit e 10 5 && raw == ebits e 48 0 64 then (rtInv e, true, false)
    else if !ebit e 10 4 then (raw, false, false)
    else
      let v : Int := if ebit e 10 1 then sext (ebits e 8 0 8) raw else raw
      let acc := v * sext 32 (ebits e 16 0 32) + sext 64 (ebits e 24 0 64)
      let sh := ebits e 20 0 8
      let q : Int := if sh = 0 then acc else (acc + 2 ^ (sh - 1)) / 2 ^ sh
      let out := fun x : Int => wrapInt (ebits e 9 0 8) x
      if q < rtMin e then (if ebit e 10 6 then rtInv e else out (rtMin e), false, true)
      else if q > rtMax e then (if ebit e 10 6 then rtInv e else out (rtMax e), false, true)
      else (out q, false, false)

/-- One route of a source frame runs (R309): its destination, its freshness and its counts. -/
def State.runRoute (s : State) (data : List Byte) (stamp : Option (Nat × Nat)) (r e : Nat) : State :=
  let s0 := s.rigTouch 0 r
  if s0.rigBroken 0 r then s0
  else
    let o := routeOut e data
    let inv := o.2.1 || (o.2.2 && ebit e 10 6)
    let s1 := if o.2.1 then s0.inc RIG_INVALID_IN_COUNT else s0
    let s2 := if o.2.2 then s1.inc RIG_SAT_COUNT else s1
    let s3 := ((s2.bufWrite (rtDst e) (rtDstBits e) o.1).pduSet (rtDst e) fun x => { x with stamp := stamp }).eset fun g =>
      { g with routes := SMap.put g.routes {} r { fresh := true, last := some s.refTicks, inv := inv } }
    s3.showStale r

/-- Route `r` is past its FRESH_MS (R311). -/
def State.pastFresh (s : State) (r e : Nat) : Bool :=
  let ms := ebits e 12 0 16
  let x := s.routeSt r
  ms ≠ 0 && x.fresh && match x.last with
    | some t => (s.refTicks - t) * 2 > ms * 1000000
    | none => false

/-- The freshness of route `r` is judged. -/
def State.judgeFresh (s : State) (r e : Nat) : State := if s.pastFresh r e then s.enterStale r else s

/-! ### Emission (R312–R315) -/

/-- The valid routes that write destination `d`. -/
def State.routesTo (s : State) (d : Nat) : List (Nat × Nat) := (routesOf s.fab.active).filter fun r => rtDst r.2 == d

/-- A stale route acts on the buffer of its destination (R312). -/
def State.staleAct (s : State) (r e : Nat) : State :=
  let x := s.routeSt r
  let w := fun v => s.bufWrite (rtDst e) (rtDstBits e) v
  match rtAct e with
  | 0 => if x.last.isNone then w (ebits e 64 0 64) else s
  | 1 => w (ebits e 64 0 64)
  | 2 => w (rtInv e)
  | _ => s

/-- What an emission sends: its payload, and whether a stale action applied and DST_INV was written. -/
structure Payload where
  data : List Byte
  stale : Bool
  invalid : Bool
  deriving DecidableEq, Repr

/-- The payload of destination `d` after R312, or none when it is silent (R312, R328). -/
def State.assemble (s : State) (d : Nat) : State × Option Payload :=
  let l := s.routesTo d
  let s1 := s.each l fun t r => (t.rigTouch 0 r.1).judgeFresh r.1 r.2
  let stale := fun (r : Nat × Nat) => !(s1.routeSt r.1).fresh
  if l.any fun r => s1.rigBroken 0 r.1 || (stale r && rtAct r.2 == 3) then (s1.inc RIG_SILENCED_COUNT, none)
  else
    let s2 := s1.each (l.filter stale) fun t r => t.staleAct r.1 r.2
    let inv := l.any fun r => if stale r then rtAct r.2 == 2 else (s1.routeSt r.1).inv
    (s2, some { data := sliceBytes (s2.pduSt d).buf 0 (pduLen (s2.tab 12 d)), stale := l.any stale, invalid := inv })

/-- The Ethernet header of R315: addresses and tag. -/
def State.rigHeader (s : State) (dmac tci : Nat) : List Byte :=
  leBytes 6 dmac ++ beBytes 2 (s.get RIG_MAC_HI_HI) ++ beBytes 4 (s.get RIG_MAC_LO_LO)
    ++ (if tci % 4096 = 0 then [] else beBytes 2 0x8100 ++ beBytes 2 (tci % 4096 + tci / 2 ^ 13 % 8 * 2 ^ 13))

/-- A frame padded to 64 octets with its FCS. -/
def padFrame (b : List Byte) : List Byte := b ++ leBytes (60 - b.length) 0

/-- The container of an emission (R315). -/
def State.container (s : State) (d : Nat) (p : Payload) : List Byte :=
  let e := s.tab 12 d
  let x := s.pduSt d
  let flags := (if x.stamp.isSome then 1 else 0) + (if p.stale then 2 else 0) + (if p.invalid then 4 else 0)
    + (x.stamp.map (·.1)).getD 0 * 8
  beBytes 4 (pduId e) ++ beBytes 2 p.data.length ++ beBytes 1 flags ++ beBytes 1 x.seq ++ beBytes 8 ((x.stamp.map (·.2)).getD 0) ++ p.data

/-- The one's complement of the one's complement sum of the 16-bit words of a header. -/
def inetSum (b : List Byte) : Nat :=
  let t := ((List.range (b.length / 2)).map fun k => beAt b (2 * k) 2).foldl (· + ·) 0
  let f := t % 65536 + t / 65536
  0xFFFF - (f % 65536 + f / 65536)

/-- The IPv4 and UDP headers of R315 before `n` octets of payload. -/
def State.rigUdp (s : State) (e n : Nat) : List Byte :=
  let head := fun c => beBytes 2 0x4500 ++ beBytes 2 (28 + n) ++ beBytes 2 s.edge.ipId ++ beBytes 2 0x4000 ++ beBytes 2 0x4011
    ++ beBytes 2 c ++ beBytes 4 (s.get RIG_IP_ADDR) ++ beBytes 4 (ebits e 40 0 32)
  head (inetSum (head 0)) ++ beBytes 2 (s.get RIG_UDP_PORT) ++ beBytes 2 (ebits e 44 0 16) ++ beBytes 2 (8 + n) ++ beBytes 2 0

/-- An Ethernet destination is handed to port 66 (R315). -/
def State.emitEth (s : State) (d : Nat) (p : Payload) : State :=
  let e := s.tab 12 d
  let c := s.container d p
  let h := s.rigHeader (ebits e 32 0 48) (ebits e 38 0 16)
  if ebit e 8 5 then
    (s.eset fun g => { g with ipId := (g.ipId + 1) % 65536 }).internalIn 66
      (padFrame (h ++ beBytes 2 0x0800 ++ s.rigUdp e c.length ++ c)) none none
  else s.internalIn 66 (padFrame (h ++ beBytes 2 (s.get RIG_CFG_ETYPE) ++ c)) none none

/-- The state of CAN channel `c` beyond its registers. -/
def State.canSt (s : State) (c : Nat) : CanSt := SMap.get s.edge.can {} c

/-- Changes CAN channel `c`. -/
def State.canPut (s : State) (c : Nat) (f : CanSt → CanSt) : State := s.eset fun e => { e with can := SMap.upd e.can {} c f }

/-- EDG_CAN_STATUS.STATE (R294). -/
def State.canState (s : State) (c : Nat) : Nat := s.get (EDG_CAN_STATUS_STATE c)

/-- A CAN destination goes into its mailbox (R297, R314); a channel in BUS_OFF or recovering takes none (R295). -/
def State.emitCan (s : State) (d : Nat) (data : List Byte) : State :=
  let e := s.tab 12 d
  let c := pduChan e
  if s.canState c = 4 || (s.canSt c).recovering then s.inc (EDG_CAN_BUSOFF_DROP_COUNT c)
  else
    let x : CanTx := { pdu := some d, fmt := pduFmt e, ext := ebit e 8 2, brs := ebit e 8 3, id := pduId e, sdt := ebits e 24 0 8,
                       vcid := ebits e 25 0 8, sec := ebit e 26 0, af := ebits e 28 0 32, data := data,
                       deadline := s.refTicks + ebits e 16 0 32 * 500 }
    let s1 := if (SMap.find (s.canSt c).boxes (pduBox e)).isSome then s.inc RIG_OVERWRITE_COUNT else s
    s1.canPut c fun y => { y with boxes := SMap.insert y.boxes (pduBox e) x }

/-- A payload leaves for its destination, and is remembered (R313–R315). -/
def State.sendPayload (s : State) (d : Nat) (p : Payload) : State :=
  let s1 := if pduBus (s.tab 12 d) = 2 then s.emitEth d p else s.emitCan d p.data
  s1.pduSet d fun x => { x with last := some p.data, seq := (x.seq + 1) % 256 }

/-- PDU `d` is a valid destination that can be read (R303, R328). -/
def State.destLive (s : State) (d : Nat) : Bool := pduValid (s.tab 12 d) && pduDir (s.tab 12 d) == 1 && !s.rigBroken 1 d

/-- Destination `d` is emitted, where it is one; `onChange` sends it only when its payload differs from the last one (R313). -/
def State.emitPdu (s : State) (d : Nat) (onChange : Bool) : State :=
  let s0 := s.rigTouch 1 d
  if !s0.destLive d then s0
  else match s0.assemble d with
    | (s1, none) => s1
    | (s1, some p) => if onChange && (s1.pduSt d).last == some p.data then s1 else s1.sendPayload d p

/-- A source frame arrives less than MIN_GAP after the last processed one (R322). -/
def State.tooSoon (s : State) (p : Nat) : Bool :=
  match (s.pduSt p).proc with
  | some t => (s.refTicks - t) * 2 < ebits (s.tab 12 p) 12 0 32 * 1000
  | none => false

/-- A source frame of PDU `p` is processed (R309, R313, R322): its routes in ascending order, then what they trigger. -/
def State.processSrc (s : State) (p : Nat) (data : List Byte) (stamp : Option (Nat × Nat)) : State :=
  if s.tooSoon p then s.inc RIG_GAP_SKIP_COUNT
  else
    let l := (routesOf s.fab.active).filter fun r => rtSrc r.2 == p
    let s1 := (s.pduSet p fun x => { x with proc := some s.refTicks }).each l fun t r => t.runRoute data stamp r.1 r.2
    let ds := (List.range 4096).filter fun d =>
      (l.any fun r => rtDst r.2 == d && !s1.rigBroken 0 r.1) && pduBus (s1.tab 12 d) != 1 && pduTrig (s1.tab 12 d) != 2
    s1.each ds fun t d => t.emitPdu d (pduTrig (t.tab 12 d) != 0)

/-! ### Tunnels from bus to Ethernet (R318) -/

/-- STREAM_ID of a tunnel, in wire order. -/
def tunStream (e : Nat) : List Byte := leBytes 8 (ebits e 0 0 64)

/-- An identifier word satisfies a tunnel's match (R318). -/
def tunMatches (e v : Nat) : Bool := (v &&& ebits e 28 0 32) == (ebits e 24 0 32 &&& ebits e 28 0 32)

/-- Channel `c` is in CHANNELS. -/
def tunChannel (e c : Nat) : Bool := bit (ebits e 20 0 32) c

/-- An ACF message (IEEE 1722-2016; PRESUMED layout): TYPE, octets after the two of the header, padded to quadlets. -/
def acfMessage (typ : Nat) (flags : Nat) (rest data : List Byte) : List Byte :=
  let pad := (4 - data.length % 4) % 4
  let quads := (4 + rest.length + data.length + pad) / 4
  beBytes 2 (typ * 2 ^ 9 + quads % 2 ^ 9) ++ beBytes 2 (pad * 2 ^ 14 + flags) ++ rest ++ data ++ leBytes pad 0

/-- The message_timestamp of a message (R318). -/
def acfTime (e : Nat) (stamp : Option (Nat × Nat)) : Nat := if ebit e 16 3 then (stamp.map (·.2)).getD 0 else 0

/-- The ACF message of a CAN frame in tunnel `e` (R318). -/
def acfCan (e c : Nat) (f : CanFrame) (stamp : Option (Nat × Nat)) : List Byte :=
  let fl := (if ebit e 16 3 then 2 ^ 13 else 0) + (if f.rtr then 2 ^ 12 else 0) + (if f.ext then 2 ^ 11 else 0)
    + (if f.brs then 2 ^ 10 else 0) + (if f.fmt = 1 then 2 ^ 9 else 0) + (if f.esi then 2 ^ 8 else 0) + c % 32
  let id := beBytes 4 f.id.toNat
  if ebit e 16 4 then acfMessage 2 fl id f.data else acfMessage 1 fl (beBytes 8 (acfTime e stamp) ++ id) f.data

/-- The ACF message of a LIN frame (R318). -/
def acfLin (e l id : Nat) (data : List Byte) (stamp : Option (Nat × Nat)) : List Byte :=
  acfMessage 3 ((if ebit e 16 3 then 2 ^ 13 else 0) + l % 32 * 2 ^ 8 + id % 256) (beBytes 8 (acfTime e stamp)) data

/-- The state of tunnel `t` beyond its entry. -/
def State.tunSt (s : State) (t : Nat) : TunSt := SMap.get s.edge.tuns {} t

/-- Changes tunnel `t`. -/
def State.tunPut (s : State) (t : Nat) (f : TunSt → TunSt) : State := s.eset fun e => { e with tuns := SMap.upd e.tuns {} t f }

/-- Octets of ACF messages. -/
def msgBytes (l : List (List Byte)) : Nat := l.foldl (fun n m => n + m.length) 0

/-- The AVTPDU of tunnel `t` leaves with what it has gathered (R318). -/
def State.sendTunnel (s : State) (t : Nat) : State :=
  let x := s.tunSt t
  if x.msgs.isEmpty then s
  else
    let e := s.tab 13 t
    let n := msgBytes x.msgs
    let avtp := beBytes 1 0x82 ++ beBytes 2 (0x8000 + n % 2048) ++ beBytes 1 x.seq ++ tunStream e ++ x.msgs.flatMap id
    let s1 := s.tunPut t fun y => { y with msgs := [], seq := (y.seq + 1) % 256 }
    s1.internalIn 66 (padFrame (s1.rigHeader (ebits e 8 0 48) (ebits e 14 0 16) ++ beBytes 2 0x22F0 ++ avtp)) none none

/-- Tunnel `t` takes a message (R318): it sends at once with BATCH_US = 0, at MAX_MSGS, and first when the message would
not fit. -/
def State.gather (s : State) (t : Nat) (m : List Byte) : State :=
  let s1 := if msgBytes (s.tunSt t).msgs + m.length > 2047 then s.sendTunnel t else s
  let s2 := s1.tunPut t fun y => { y with msgs := y.msgs ++ [m] }
  let e := s2.tab 13 t
  if ebits e 18 0 16 = 0 || (s2.tunSt t).msgs.length ≥ ebits e 17 0 8 then s2.sendTunnel t else s2

/-! ### Frames from CAN and LIN (R296, R300) -/

/-- The word that a tunnel compares for a CAN frame. -/
def canIdWord (f : CanFrame) : Nat := f.id.toNat + (if f.fmt = 1 then 2 ^ 30 else 0) + (if f.ext then 2 ^ 31 else 0)

/-- A source PDU matches a CAN frame on channel `c` (R303). -/
def canMatches (e c : Nat) (f : CanFrame) : Bool :=
  pduDir e == 0 && pduBus e == 0 && pduChan e == c && pduId e == f.id.toNat && ebit e 8 2 == f.ext && pduFmt e == f.fmt.val
    && (f.fmt != 2 || ebits e 25 0 8 == f.vcid.toNat)

/-- A CAN frame that matches a source PDU or a tunnel, by its identifier, is accepted and goes to every one that it matches
(R296, R318). -/
def State.canAccept (s : State) (c : Nat) (f : CanFrame) : State :=
  let stamp := s.canStamp f.age
  let s0 := (s.each (pdusOf s.fab.active) fun t p => if canMatches p.2 c f then t.rigTouch 1 p.1 else t).each (tunsOf s.fab.active)
    fun t u => if !ebit u.2 16 1 && !ebit u.2 16 2 && tunChannel u.2 c then t.rigTouch 2 u.1 else t
  let ps := s0.livePdus.filter fun p => canMatches p.2 c f
  let hit := s0.liveTuns.filter fun u => !ebit u.2 16 1 && !ebit u.2 16 2 && tunChannel u.2 c && tunMatches u.2 (canIdWord f)
  if ps.isEmpty && hit.isEmpty then s0.inc (EDG_CAN_RX_UNMATCHED_COUNT c)
  else
    let s1 := s0.inc (EDG_CAN_RX_FRAMES_COUNT c)
    if !s1.rigRuns then s1
    else
      let s2 := s1.each hit fun t u => if f.fmt = 2 then t.inc RIG_ACF_XL_SKIP_COUNT else t.gather u.1 (acfCan u.2 c f stamp)
      s2.each ps fun t p => t.processSrc p.1 f.data stamp

/-- A valid PDU of LIN channel `l` has this direction and identifier. -/
def linMatches (l dir id : Nat) (p : Nat × Nat) : Bool :=
  pduBus p.2 == 1 && pduDir p.2 == dir && pduChan p.2 == l && pduId p.2 == id

/-- The source PDU that a LIN response belongs to in the active banks: that of its header, or, where a swap has changed it, another
one of its identifier (R303, R324). -/
def State.linSource (s : State) (l p id : Nat) : Option Nat :=
  let l := s.livePdus.filter (linMatches l 0 id)
  (l.find? fun e => e.1 == p).or l.head? |>.map (·.1)

/-- A LIN response that a channel has received goes to its PDU and its tunnels (R296, R318). -/
def State.linAccept (s : State) (l p id : Nat) (data : List Byte) (age : Nat) : State :=
  let stamp := s.linStamp age
  let s1 := s.inc (EDG_LIN_RX_COUNT l)
  if !s1.rigRuns then s1
  else
    let s2 := s1.each (tunsOf s1.fab.active) fun t u =>
      if !ebit u.2 16 1 && ebit u.2 16 2 && tunChannel u.2 l then t.rigTouch 2 u.1 else t
    let ts := s2.liveTuns.filter fun u => !ebit u.2 16 1 && ebit u.2 16 2 && tunChannel u.2 l && tunMatches u.2 id
    let s3 := s2.each ts fun t u => t.gather u.1 (acfLin u.2 l id data stamp)
    s3.processSrc p data stamp

/-! ### Frames from port 66 (R316, R319) -/

/-- A container at offset `o`: PDU_ID, LEN. -/
def contAt (b : List Byte) (o : Nat) : Nat × Nat := (beAt b o 4, beAt b (o + 4) 2)

/-- The containers of a source frame, read with fuel (R316): a container that runs past the frame, in its header or its data,
ends the read. The second result counts the skipped ones. -/
def containers (b : List Byte) : Nat → Nat → List (Nat × List Byte) × Nat
  | 0, _ => ([], 0)
  | k + 1, o =>
    if o + 16 > b.length then ([], if o + 4 ≤ b.length && beAt b o 4 ≠ 0 then 1 else 0)
    else
      let c := contAt b o
      if c.1 = 0 then ([], 0)
      else if o + 16 + c.2 > b.length then ([], 1)
      else
        let r := containers b k (o + 16 + c.2)
        ((c.1, sliceBytes b (o + 16) c.2) :: r.1, r.2)

/-- One container goes to the PDU that it matches (R316). -/
def State.takeContainer (s : State) (id : Nat) (data : List Byte) (arrival : Nat) : State :=
  let isIt := fun (p : Nat × Nat) => pduDir p.2 == 0 && pduBus p.2 == 2 && pduId p.2 == id
  let s0 := s.each ((pdusOf s.fab.active).filter isIt) fun t p => t.rigTouch 1 p.1
  match s0.livePdus.find? isIt with
  | some p => s0.processSrc p.1 data (s0.ethStamp arrival)
  | none => s0.inc RIG_CONT_UNMATCHED_COUNT

/-- The payload of a source frame (R316). -/
def State.takeContainers (s : State) (b : List Byte) (arrival : Nat) : State :=
  let r := containers b (b.length / 16 + 1) 0
  let skip := (r.1.length - 4) + r.2
  (s.each (r.1.take 4) fun t c => t.takeContainer c.1 c.2 arrival).add RIG_CONT_SKIP_COUNT skip

/-- The queued frame of an ACF CAN message (R319). -/
def acfTx (s : State) (e : Nat) (m : List Byte) : CanTx :=
  let typ := beAt m 0 2 / 2 ^ 9
  let o := if typ = 1 then 12 else 4
  let fl := beAt m 2 2
  let pad := fl / 2 ^ 14
  { pdu := none, fmt := if bit fl 9 then 1 else 0, ext := bit fl 11, brs := bit fl 10, esi := bit fl 8, id := beAt m o 4 % 2 ^ 29,
    data := sliceBytes m (o + 4) (m.length - o - 4 - pad), deadline := s.refTicks + ebits e 32 0 32 * 500 }

/-- A message of a DIR-1 tunnel is queued, or rejected (R319). -/
def State.takeAcf (s : State) (e : Nat) (m : List Byte) : State :=
  let typ := beAt m 0 2 / 2 ^ 9
  let fl := beAt m 2 2
  let c := fl % 32
  let x := acfTx s e m
  let v := x.id + (if bit fl 9 then 2 ^ 30 else 0) + (if bit fl 11 then 2 ^ 31 else 0)
  let ok := (typ == 1 || typ == 2) && (if typ = 1 then 16 else 8) ≤ m.length && tunChannel e c && tunMatches e v && !bit fl 12
    && s.canState c != 0 && s.get (EDG_CAN_CTRL_MODE c) == 0 && (!bit fl 9 || s.on (EDG_CAN_CTRL_FD_EN c))
    && (s.canSt c).fifo.length < 16
  if !ok then s.inc RIG_ACF_REJECT_COUNT
  else if s.canState c = 4 || (s.canSt c).recovering then s.inc (EDG_CAN_BUSOFF_DROP_COUNT c)
  else s.canPut c fun y => { y with fifo := y.fifo ++ [x] }

/-- The ACF messages of an NTSCF payload, read with fuel. -/
def acfList (b : List Byte) : Nat → Nat → List (List Byte)
  | 0, _ => []
  | k + 1, o =>
    let n := beAt b o 2 % 2 ^ 9 * 4
    if o + 4 > b.length ∨ n = 0 ∨ o + n > b.length then [] else sliceBytes b o n :: acfList b k (o + n)

/-- Where the EtherType after the tags stands in a frame. -/
def etypeAt (b : List Byte) : Nat :=
  if isTpid (beAt b 12 2) then (if isTpid (beAt b 16 2) then 20 else 16) else 12

/-- Where the containers of a source frame begin, when a frame is one (R316). -/
def State.sourceAt (s : State) (b : List Byte) : Option Nat :=
  let o := etypeAt b
  let et := beAt b o 2
  if et = s.get RIG_CFG_ETYPE then some (o + 2)
  else
    let h := o + 2
    let hl := 4 * (beAt b h 1 % 16)
    if et = 0x0800 && beAt b h 1 / 16 == 4 && beAt b (h + 6) 2 % 2 ^ 14 == 0 && beAt b (h + 9) 1 == 17
        && beAt b (h + 16) 4 == s.get RIG_IP_ADDR && beAt b (h + hl + 2) 2 == s.get RIG_UDP_PORT then some (h + hl + 8)
    else none

/-- The DIR-1 tunnel of an NTSCF frame (R316). -/
def State.tunnelOf (s : State) (b : List Byte) : Option (Nat × Nat) :=
  let o := etypeAt b + 2
  if beAt b (etypeAt b) 2 = 0x22F0 && beAt b o 1 == 0x82 then
    s.liveTuns.find? fun u => ebit u.2 16 1 && tunStream u.2 == sliceBytes b (o + 4) 8
  else none

/-- The Rigger takes a frame delivered from port 66 (R316). -/
def State.rigTake (s : State) (b : List Byte) (arrival : Nat) : State :=
  match s.sourceAt b with
  | some o => s.takeContainers (b.drop o) arrival
  | none =>
    let s0 := s.each ((tunsOf s.fab.active).filter fun u => ebit u.2 16 1) fun t u => t.rigTouch 2 u.1
    match s0.tunnelOf b with
    | some u =>
      let o := etypeAt b + 2
      let n := beAt b (o + 1) 2 % 2048
      s0.each (acfList (sliceBytes b (o + 12) (min n (b.length - o - 12))) 512 0) fun t m => t.takeAcf u.2 m
    | none => s0.inc RIG_ETH_UNMATCHED_COUNT

/-! ### Channels (R294) -/

/-- A channel that is enabled leaves OFF once the tables stand (R294, R326). -/
def State.canGo (s : State) (c : Nat) : State :=
  if s.rigReady && s.on (EDG_CAN_CTRL_ENABLE c) && s.canState c == 0 then s.set (EDG_CAN_STATUS_STATE c) 1 else s

/-- The state of LIN channel `l` beyond its registers. -/
def State.linSt (s : State) (l : Nat) : LinSt := SMap.get s.edge.lin {} l

/-- Changes LIN channel `l`. -/
def State.linSet (s : State) (l : Nat) (f : LinSt → LinSt) : State := s.eset fun e => { e with lin := SMap.upd e.lin {} l f }

/-- EDG_LIN_STATUS.STATE follows ENABLE, ROLE and the running schedule. -/
def State.linShow (s : State) (l : Nat) : State :=
  let st := if !s.rigReady || !s.on (EDG_LIN_CTRL_ENABLE l) then 0
    else if s.on (EDG_LIN_CTRL_ROLE l) || (s.linSt l).running then 2 else 1
  s.set (EDG_LIN_STATUS_STATE l) st

/-- The tables of the Rigger have been loaded: the enabled channels go (R326). -/
def State.channelsGo (s : State) : State :=
  (s.each (List.range 32) fun t c => t.canGo c).each (List.range 16) fun t l => t.linShow l

end Sys2Proof.Machine
end

