-- ==== Sys2Proof/Machine/FrameOps.lean ====
section
/-! DEFINITION. A frame on its way in (R105–R116, R166, R194–R198), the end of a bad one (R110, R120, R146), and where
its copies go (R117, R152). -/
namespace Sys2Proof.Machine

/-- The frame of port `n` with number `fid`. -/
def State.rxAt (s : State) (n fid : Nat) : Option RxFrame := SMap.find s.fab.rx (rxKey n fid)

/-- Keeps a frame on its way in. -/
def State.rxKeep (s : State) (n fid : Nat) (x : RxFrame) : State := s.fset fun f => { f with rx := SMap.insert f.rx (rxKey n fid) x }

/-- Forgets a frame on its way in. -/
def State.rxDrop (s : State) (n fid : Nat) : State := s.fset fun f => { f with rx := SMap.erase f.rx (rxKey n fid) }

/-- An external port receives: UP, with its island running (R74). -/
def State.portTakes (s : State) (n : Nat) : Bool := n < 64 && s.up .port n && s.link n == 4

/-- An external port takes frames for the Fabric island, which runs (R31, R74). -/
def State.takesFrames (s : State) (n : Nat) : Bool := s.up .fabric && s.portTakes n

/-- A frame that begins only now finds the device accepting frames no more (R470 step 3). -/
def State.frameStops (s : State) (n fid : Nat) : Bool := s.framesStopped && (s.rxAt n fid).isNone

/-- The ingress stamp record of a frame whose stamp point lies `age` quarter ns back, less RX_DELAY (R91, R92, R274). -/
def State.ingressStamp (s : State) (n age : Nat) : List Byte :=
  s.stampRecord (-(age : Int) - sext 12 (s.get (PRT_TS_DELAY_RX_DELAY n))) false n 0

/-- The epoch of a frame whose first byte came `age` quarter ns ago: while the old banks drain, that of before the swap for a frame that
began before it (R52). -/
def State.epochAt (s : State) (age : Nat) : Nat :=
  let e := s.get GLB_CFG_STATE_EPOCH
  if s.commitState = 3 && decide ((s.refTicks - s.fab.swapTick) * 8 < age) then 1 - e else e

/-- The frame that an event on a port speaks of: known already, and grown by what has arrived since, or new (R52). -/
def State.rxOf (s : State) (f : FrameIn) : RxFrame :=
  match s.rxAt f.port.val f.fid with
  | some x => if x.ended || f.bytes.length < x.bytes.length then x else { x with bytes := f.bytes }
  | none =>
    let st := s.ingressStamp f.port.val f.age
    { port := f.port.val, bytes := f.bytes, epoch := s.epochAt f.age, stamp := st, arrival := leAt st 0 4 }

/-- A MAC control frame (R63). -/
def macControl (b : List Byte) : Bool := beAt b 12 2 == 0x8808

/-! ### Charging and enqueue (R111–R117) -/

/-- FST_QPEAK keeps the largest use of a quota. -/
def State.notePeak (s : State) (q p : Nat) : State :=
  s.fset fun f => { f with quotaPeak := SMap.upd f.quotaPeak 0 (4 * q + p) fun v => max v (s.quotaUse q p) }

/-- A reserved frame is refused (R112): FST_QUOTA_DROP and QUOTA_OVERRUN. -/
def State.quotaDrop (s : State) (q p : Nat) : State := (s.inc FST_QUOTA_DROP_COUNT).emit 0x0300 q (args p)

/-- A frame is released (R115): a frame without a chunk is forgotten, one that has ended gives its chunk back, and one
that is still written does so at the end of its write. -/
def State.releaseRx (s : State) (n fid : Nat) (x : RxFrame) : State :=
  match x.handle with
  | none => s.rxDrop n fid
  | some h =>
    if x.ended then (s.readHandle h fun _ => s.freeFrame h).rxDrop n fid
    else (s.rxKeep n fid { x with settled := true }).hset h fun y => { y with released := true }

/-- The words of a cut-through frame that have arrived since its handle was last written are in its chunk (R109, R126), `last` when
its FCS has come too. Octets beyond the chunk are not written (R110), nor are those that
arrive after a release (R115). -/
def State.growHandle (s : State) (h : Nat) (b : List Byte) (last : Bool) : State :=
  match s.handle h with
  | none => s
  | some y =>
    if y.released then s else
    let room := chunkBytes y.pool
    let len := min room (b.length + if last then 4 else 0)
    (s.writeWords y.pool y.chunk (y.bytes.length / 64) (storeLines len)).hset h fun z => { z with bytes := b.take room }

/-- What the descriptor and the route settle of a handle (R102). -/
def Handle.settle (y : Handle) (x : RxFrame) (r : Route) (trapped : Bool) : Handle :=
  { y with refcnt := r.copies.length, rcopies := (r.copies.filter fun c => c.2.rsv).length, epoch := x.epoch,
           stream := x.stream, reserved := x.reserved, arrival := x.arrival, stamp := x.stamp, vid := r.vid,
           untagged := r.untagged, prio := r.prio, rtag := r.rtag, pop := r.pop, trapped := trapped, tag := x.tag,
           learn := r.learn, desc := x.desc.getD {} }

/-- The copies of a frame are enqueued (R117), and a reserved frame without a reserved copy moves (R121). Where a copy was discarded at
enqueue, or the charge is to move, the handle is read for it (R124). -/
def State.enqueueAll (s : State) (h : Nat) (x : RxFrame) (r : Route) (trapped : Bool) : State :=
  let s1 := s.hset h fun y => y.settle x r trapped
  let s2 := s1.each r.copies fun t c => t.enqueue c.1 { c.2 with handle := h }
  match s2.handle h with
  | none => s2
  | some y =>
    if y.refcnt = r.copies.length && (y.quotaOf.isNone || y.rcopies ≠ 0) then s2
    else s2.readHandle h fun _ => (s2.freeIfDone h).moveCharge h

/-- The FID of a VID in the bank of an epoch (R132). -/
def State.fidOf (s : State) (epoch vid : Nat) : Nat := ebits (vlanOf (s.bankOf epoch) vid) 48 0 12

/-- The frame is drop-eligible (R114): an ordinary frame with every copy in a lane below DP_LANE. -/
def State.dropEligible (s : State) (x : RxFrame) (r : Route) : Bool :=
  !x.reserved && r.copies.all fun c => c.2.lane < s.get FST_DP_CFG_DP_LANE

/-- The charge of a provisionally allocated frame is settled (R115), and its copies are enqueued; one that is complete learns now
(R139). -/
def State.settleCharge (s : State) (n fid h p : Nat) (x : RxFrame) (r : Route) (trapped : Bool) : State :=
  if ((s.handle h).map (·.parBad)).getD 0 ≠ 0 then
    (if x.ended then (s.readHandle h fun _ => s).rxDrop n fid else (s.rxKeep n fid x).readHandle h fun _ => s)
  else if x.reserved && s.quotaUse n p ≥ s.quota n p then (s.quotaDrop n p).releaseRx n fid x
  else if s.dropEligible x r && s.freeShared p ≤ s.headroom p then (s.inc (FST_DP_DROP_COUNT p)).releaseRx n fid x
  else
    let s1 := if x.reserved then ((s.hset h fun y => { y with quotaOf := some n }).notePeak n p).showStore else s
    let s2 := if x.ended then s1.rxDrop n fid else s1.rxKeep n fid { x with settled := true }
    let s3 := if x.ended && r.learn then s2.learn n (s.fidOf x.epoch r.vid) (beAt x.bytes 6 6) else s2
    s3.enqueueAll h x r trapped

/-- A store-and-forward frame is refused before arbitration, with its count (R100, R112–R114). DESIGN CHOICE (log 77): an ordinary frame
that lacks both a shared chunk and a shared handle counts in FST_SHARED_DROP. -/
def State.refuseStore (s : State) (n p : Nat) (x : RxFrame) (r : Route) : Option State :=
  if x.reserved then
    (if s.quotaUse n p ≥ s.quota n p || (s.freeChunk p).isNone || s.freeHandle.isNone then some (s.quotaDrop n p) else none)
  else if s.dropEligible x r && s.freeShared p ≤ s.headroom p then some (s.inc (FST_DP_DROP_COUNT p))
  else if s.freeShared p = 0 then some (s.inc (FST_SHARED_DROP_COUNT p))
  else if s.freeSharedHandles = 0 || s.freeHandle.isNone then some (s.inc FST_HANDLE_DROP_COUNT)
  else none

/-- A store-and-forward frame takes its chunk and handle and is enqueued (R101, R103, R106, R117), or is dropped. -/
def State.storeFrame (s : State) (n fid : Nat) (rivals : List Nat) (x : RxFrame) (r : Route) (trapped : Bool) : State :=
  let len := x.bytes.length + 4
  let s0 := s.rxDrop n fid
  match (if s.on FST_STATUS_READY then s.fit len else none) with
  | none => s0.inc FST_OFF_DROP_COUNT
  | some p =>
    match s0.refuseStore n p x r with
    | some t => t
    | none =>
      if s0.served (n :: rivals) ≠ some n then s0.inc FST_ALLOC_DROP_COUNT
      else match s0.freeChunk p, s0.freeHandle with
        | some c, some h =>
          let y : Handle := { pool := p, chunk := c, bytes := x.bytes, state := 1, port := n, frame := fid,
                              quotaOf := if x.reserved then some n else none }
          let s1 := (s0.takeHandle n p c h y).writeWords p c 0 (storeLines len)
          let s2 := if x.reserved then s1.notePeak n p else s1
          let s3 := if r.learn then s2.learn n (s.fidOf x.epoch r.vid) (beAt x.bytes 6 6) else s2
          s3.enqueueAll h x r trapped
        | _, _ => s0

/-! ### Identification, checks and the forwarding decision (R115, R194–R198, R128, R152) -/

/-- Stream identification (R194, R195). -/
def State.identify (s : State) (x : RxFrame) (d : UDesc) : State × RxFrame :=
  if d.trap.isSome then (s, x)
  else
    let r := s.streamOf x d.hint
    match r.2 with
    | none => (r.1, x)
    | some k => (r.1.inc (LNE_STR_FRAMES_COUNT k), { x with stream := some k, reserved := (declOf (s.bankOf x.epoch) k).isSome })

/-- The estimate of R198 for a frame that is still arriving, and the stored length of one that has ended. -/
def State.judgedLen (s : State) (x : RxFrame) (k : Nat) : Nat :=
  let m := maxLen (s.tabAt x.epoch 6 k) x.port
  if x.ended then x.bytes.length + 4 else min (x.size.getD m) m

/-- The checks of R197 with the charge that R198 adjusts later; a frame dropped by a DROP rule passes neither (R194). -/
def State.checkRx (s : State) (x : RxFrame) (d : UDesc) : State × RxFrame × Bool :=
  match x.stream with
  | none => (s, x, true)
  | some k =>
    if d.outcome = 1 then (s, x, true)
    else
      let len := s.judgedLen x k
      let r := s.streamChecks x k len
      let e := s.tabAt x.epoch 6 k
      (r.1, if r.2 && ebit e 9 3 && !x.ended then { x with charged := some (ebits e 10 0 11, len) } else x, r.2)

/-- Steps 1–7 of R128 and what follows: a held frame waits (R152), a frame without copies is released. -/
def State.forwardRx (s : State) (n fid : Nat) (rivals : List Nat) (x : RxFrame) (d : UDesc) : State :=
  let r := s.route x d (rxKey n fid) (!x.ended)
  match r.2.hold with
  | some i => r.1.rxKeep n fid { x with heldBy := some i, settled := true }
  | none =>
    let y := { x with heldBy := none }
    if r.2.copies.isEmpty then r.1.releaseRx n fid y
    else match x.handle with
      | some h => r.1.settleCharge n fid h (((s.handle h).map (·.pool)).getD 0) y r.2 d.trap.isSome
      | none => r.1.storeFrame n fid rivals y r.2 d.trap.isSome

/-- A frame meets its descriptor (R115, R194): when both are there that its kind needs. -/
def State.settle (s : State) (n fid : Nat) (rivals : List Nat) (x : RxFrame) : State :=
  match x.desc with
  | none => s.rxKeep n fid x
  | some d =>
    if !x.descHere || x.settled || (!x.ended && x.handle.isNone) then s.rxKeep n fid x
    else if x.bad then s.rxDrop n fid
    else if d.outcome = 3 then s.releaseRx n fid x
    else
      let i := s.identify x d
      let c := i.1.checkRx i.2 d
      let s1 := if c.2.1.reserved then c.1.stopIdle else c.1
      if c.2.2 then s1.forwardRx n fid rivals c.2.1 d else s1.releaseRx n fid c.2.1

/-- The frames that a final mark held are discarded (R152). -/
def State.discardHeld (s : State) (marks : List (Nat × Nat)) : State :=
  s.each (s.fab.rx.filter fun e => e.2.heldBy.any fun i =>
      marks.contains (i, (parseL2 e.2.bytes (s.get HFP_ETYPE_ETYPE) e.2.secured).seq)) fun t e =>
    (t.inc (FRER_CNT_COUNT (e.2.heldBy.getD 0) 1)).releaseRx (e.1 / 2 ^ 32) (e.1 % 2 ^ 32) { e.2 with heldBy := none }

/-- A held frame's mark is pending no longer. -/
def State.holdOver (s : State) (x : RxFrame) : Bool :=
  let q := (parseL2 x.bytes (s.get HFP_ETYPE_ETYPE) x.secured).seq
  x.heldBy.any fun i => !((s.frerSt i).pending.any fun p => p.seq == q)

/-- The frames whose hold has ended are decided again, each as if it had just arrived (R152): one of them may pass and hold the next
again. -/
def State.redecide (s : State) (fns : List Nat) : State :=
  s.each (s.fab.rx.filter fun e => (e.2.heldBy.any fun i => fns.contains i) && s.holdOver e.2) fun t e =>
    match e.2.desc with
    | some d => t.forwardRx (e.1 / 2 ^ 32) (e.1 % 2 ^ 32) [] e.2 d
    | none => t

/-- The marks of a frame settle (R152): the frames that they held are discarded after a good frame, and decided again after a bad one. -/
def State.settleMarks (s : State) (key : Nat) (good : Bool) : State :=
  let marks := s.fab.frer.flatMap fun e => (e.2.pending.filter fun p => p.frame == key).map fun p => (e.1, p.seq)
  let s1 := s.frerSettle key good
  if good then s1.discardHeld marks else s1.redecide (marks.map (·.1))

/-- The frames held by a mark that is pending no longer, since a reset took its frame (R105, R152), are decided again. -/
def State.holdsOver (s : State) : State := s.redecide (s.fab.rx.filterMap fun e => e.2.heldBy)

/-- A frame's handle becomes bad while the frame was being written (R110, R198): begun copies end, marks clear, and
a handle without copies is freed. DESIGN CHOICE (log 111): the end of the writing of a frame that goes bad before its last byte is the
end that R119 waits for, so that its chunk can be freed while octets of it still arrive and are discarded. -/
def State.frameGoesBad (s : State) (n fid h : Nat) : State :=
  s.readHandle h fun _ => ((((s.markBad h).abortCopies h).settleMarks (rxKey n fid) false).freeIfDone h)

/-- A cut-through frame ends early (R110, R198): it stops being written, and what still arrives is discarded. Its meter is adjusted when
its last byte has come. -/
def State.endEarly (s : State) (n fid : Nat) (x : RxFrame) : State :=
  match x.handle with
  | none => s
  | some h =>
    ((s.rxKeep n fid { x with handle := none, bad := true, settled := true, heldBy := none }).growHandle h x.bytes false).frameGoesBad n fid h

/-! ### Classification (R166, R190) -/

/-- The Umpire's part: the frame takes its descriptor. An Umpire that is off drops every frame (R190). -/
def State.umpireTakes (s : State) (x : RxFrame) (whole : Bool) : State × RxFrame :=
  if !s.up .umpire then (s.inc UMP_OFF_DROP_COUNT, { x with desc := some { outcome := 3 } })
  else
    let r := s.classify x.bytes x.port x.epoch x.secured whole
    (r.1, { x with desc := some r.2 })

/-! ### The end of a frame (R61, R94, R106, R431) -/

/-- What the MAC merge sublayer saw (R230). -/
def State.mmCounted (s : State) (n : Nat) (v : RxVerdict) : State :=
  if n < 32 && s.up .fabric then
    ((s.add (LNE_MM_FRAG_RX_COUNT n) v.frags).add (LNE_MM_ASSY_ERR_COUNT n) (if v.assyErr then 1 else 0)).add (LNE_MM_SMD_ERR_COUNT n) v.smdErrs
  else s

/-- The MAC's counters of a frame and its verdict (R61, R94): the PHY's errors are those inside the frame and those seen
since the frame before; on an S-port the sender is heard (R95). CT_ABORT makes a cut-through frame bad at its last byte
(R147). -/
def State.macVerdict (s : State) (n : Nat) (b : List Byte) (cut : Bool) (v : RxVerdict) : State × Bool :=
  let len := b.length + 4
  let s0 := if isS n && s.get (PRT_MODE_LOOPBACK n) ≠ 1 then s.noteNode n v.node else s
  let s1 := ((s0.add (PRT_RX_PHY_ERR_COUNT n) (v.phyErrs + v.idleErrs)).add (PRT_FEC_CORR_COUNT n) v.fecCorr).mmCounted n v
  let inj := cut && s.injArmedFor 11 n
  let s2 := if inj then s1.injSpend 11 else s1
  if v.assyErr then (s2, false)
  else if len < 64 ∨ len > classMax n then (s2.inc (PRT_RX_LEN_ERR_COUNT n), false)
  else if !v.fcsOk || v.phyErrs > 0 || inj then (s2.inc (PRT_RX_FCS_ERR_COUNT n), false)
  else ((s2.inc (PRT_RX_FRAMES_COUNT n)).add (PRT_RX_OCTETS_COUNT n) len, true)

/-- The octets of a frame whose counter waited for its length (UMP_CNT_OCT). -/
def State.lateOctets (s : State) (x : RxFrame) : State :=
  match x.desc.bind (·.octets) with
  | some k => if s.up .umpire then s.add (UMP_CNT_OCT_COUNT k) (x.bytes.length + 4) else s
  | none => s

/-- A bad frame ends: a handle becomes bad, and the frame stays only until it has been classified (R106). -/
def State.badEnd (s : State) (n fid : Nat) (x : RxFrame) : State :=
  let gone := x.desc.isSome || s.rxSecure x.epoch n
  let s0 := s.adjustCharge x
  let s1 := match x.handle with
    | some h => (s0.growHandle h x.bytes true).frameGoesBad n fid h
    | none => s0
  if gone then s1.rxDrop n fid else s1.rxKeep n fid { x with handle := none, ended := true, bad := true }

/-- The length of a frame shows at its last byte, since R108 had not computed it: a copy that has not begun and would be too long for its
port is not made after all (R138, log 112), and copies under way have what is left of their true length. -/
def State.lengthKnown (s : State) (h : Nat) : State :=
  match s.handle h with
  | none => s
  | some y =>
    let fix := fun (n : Nat) (o : Option Sending) => o.map fun z =>
      if z.copy.handle = h then { z with left := z.left - (classMax n - s.egressLen n z.copy y) } else z
    let s1 := s.fset fun f => { f with service := f.service.map fun e =>
      (e.1, { e.2 with sending := fix e.1 e.2.sending, rest := fix e.1 e.2.rest }) }
    s1.each (s1.fab.lanes.map (·.1)) fun t k =>
      let q := t.lane (k / 8) (k % 8)
      match q.find? fun c => c.handle == h && c.kind == 0 && decide (s.egressLen (k / 8) c y > classMax (k / 8)) with
      | none => t
      | some c => ((t.setLane (k / 8) (k % 8) (q.filter (· != c))).inc FWD_OVERSIZE_COUNT).copyLeaves c

/-- A good cut-through frame ends: it is complete, its marks are final, it is learned (R139), and its meter is
adjusted (R198). -/
def State.goodEnd (s : State) (n fid h : Nat) (x : RxFrame) : State :=
  let s0 := ((s.growHandle h x.bytes true).hset h fun y => { y with state := 1 }).settleMarks (rxKey n fid) true
  let s1 := if x.size.isNone then s0.lengthKnown h else s0
  let s2 := s1.adjustCharge x
  match s2.handle h with
  | none => s2.rxDrop n fid
  | some y =>
    if y.parBad ≠ 0 then (s2.handleParity h y).rxDrop n fid else
    let s3 := if y.learn then s2.learn n (s2.fidOf x.epoch y.vid) (beAt x.bytes 6 6) else s2
    if x.heldBy.isSome then s3
    else if !x.settled then s3.rxKeep n fid { x with ended := true }
    else if y.released then (s3.freeFrame h).rxDrop n fid
    else ((s3.rxDrop n fid).freeIfDone h).moveCharge h

/-- The key slot of an SA is read (R439). -/
def State.saKeyRead (s : State) (sa : Option Nat) : State :=
  match sa with
  | some a => s.slotRead (ebits (s.saEntry a) 4 0 8)
  | none => s

/-- The key slot that a protected frame needs is read (R431, R439). -/
def State.rxKeyRead (s : State) (n : Nat) (b : List Byte) : State :=
  if beAt b 12 2 ≠ 0x88E5 then s
  else match s.rxSc n b with
    | some c => s.saKeyRead (s.saOf 0 c (beAt b 14 1 % 4))
    | none => s

/-- Class 15 as before the swap, with the packet numbers of the SAs that the swap changed: the view that judges a frame whose SecTAG was
read before it (R430). -/
def State.oldSas (s : State) : State :=
  (s.fset fun f => { f with active := s.fab.old }).each s.key.oldPn fun t e => t.set (KEY_SA_PN_PN e.1) e.2

/-- Back from `oldSas`: the active bank and its packet numbers again, those of before the swap kept apart. -/
def State.newSas (t s : State) : State :=
  let t1 := t.kset fun k => { k with oldPn := k.oldPn.map fun e => (e.1, t.saPn e.1) }
  (t1.fset fun f => { f with active := s.fab.active }).each s.key.oldPn fun u e => u.set (KEY_SA_PN_PN e.1) (s.saPn e.1)

/-- MACsec judges a frame that has ended (R431, R437): `none` when it is dropped. The entries are those of the time at which its SecTAG
was read (R430), which the epoch of its first byte says; a frame that passes enters the Umpire now, and has its epoch from here (R52). -/
def State.macJudge (s : State) (n : Nat) (x : RxFrame) : State × Option RxFrame :=
  if !s.rxSecure x.epoch n then (s, some x)
  else if s.keyDown then (s.inc KEY_OFF_DROP_COUNT, none)
  else
    let now := s.get GLB_CFG_STATE_EPOCH
    let t := if x.epoch = now then s else s.oldSas
    let r := (t.rxKeyRead n x.bytes).macReceive n x.bytes
    (if x.epoch = now then r.1 else r.1.newSas s, r.2.map fun y => { x with bytes := y.1, secured := y.2, epoch := now })

/-- The last byte of a frame from an external port (R106). -/
def State.endFrame (s : State) (n fid : Nat) (rivals : List Nat) (x : RxFrame) (v : RxVerdict) : State :=
  let m := s.macVerdict n x.bytes x.handle.isSome v
  let s1 := m.1.lateOctets x
  if !m.2 then s1.badEnd n fid x
  else if macControl x.bytes then (s1.inc (PRT_RX_PAUSE_COUNT n)).rxDrop n fid
  else
    let j := s1.macJudge n x
    match j.2 with
    | none => j.1.rxDrop n fid
    | some y =>
      if y.bad then
        (if y.desc.isSome then (j.1.adjustCharge y).rxDrop n fid else (j.1.adjustCharge y).rxKeep n fid { y with ended := true })
      else match y.handle with
        | some h => (j.1.rxKeep n fid { y with ended := y.heldBy.isSome }).goodEnd n fid h { y with ended := y.heldBy.isSome }
        | none => j.1.settle n fid rivals { y with ended := true }

/-! ### Boathouse (R465) -/

/-- A frame leaves by the management port of Boathouse, when it is UP. -/
def State.mgmtOut (s : State) (b : List Byte) : State :=
  let n := s.get OPT_BOOT_MGMT_PORT
  if !s.takesFrames n then s
  else ((s.fset fun f => { f with lineOut := f.lineOut ++ [(n, b ++ fcsOf b)] }).inc (PRT_TX_FRAMES_COUNT n)).add (PRT_TX_OCTETS_COUNT n)
    (b.length + 4)

/-- A good frame from the management port: HFP goes to the bridge, which takes it as a message of its own row; the rest
goes to Cox. -/
def State.mgmtIn (s : State) (x : RxFrame) : State :=
  if x.port ≠ s.get OPT_BOOT_MGMT_PORT || (parseL2 x.bytes (s.get HFP_ETYPE_ETYPE) false).etype == s.get HFP_ETYPE_ETYPE then s
  else if s.cox.coresHeld then s.inc COX_RX_DROP_COUNT
  else { s with cox := { s.cox with rxFrames := s.cox.rxFrames ++ [⟨x.bytes, x.port, x.stamp, false⟩] } }

end Sys2Proof.Machine
end

