-- ==== Sys2Proof/Machine/EgressOps.lean ====
section
/-! DEFINITION. Dequeue, start and end of a copy on a port, and its delivery (R118, R123, R124, R145–R148, R155,
R207–R209, R275, R375, R401, R432). -/
namespace Sys2Proof.Machine

/-! ### Errors found at dequeue (R122–R124) -/

/-- An uncorrectable word of a stored frame (R123): STATE bad, every begun copy ended. -/
def State.frameUncorr (s : State) (h : Nat) (x : Handle) : State :=
  let s1 := ((s.inc FST_ECC_UNCORR_COUNT).fstErrLoc 0 x.pool x.chunk).hset h fun y => { y with uncorr := true }
  let s2 := s1.eccUncorr 0 (s1.rd FST_ERR_LOC).toNat
  match (if x.state = 0 then s2.rxAt x.port x.frame else none) with
  | some y => s2.endEarly x.port x.frame y
  | none => (s2.markBad h).abortCopies h

/-! ### Dequeue -/

/-- The copy at the head of a lane is taken from it. -/
def State.popLane (s : State) (n l : Nat) : State := s.setLane n l (s.lane n l).tail

/-- A copy on port 67 that the recorder discards at dequeue (R157). -/
def State.recDiscards (s : State) (n : Nat) : Bool := n == 67 && (!s.up .dram || s.recState == 0 || s.recState == 3)

/-- The residence limit of a lane in ns; `none` where the check is off (R148). -/
def State.resLimit (s : State) (n l : Nat) : Option Nat :=
  let v := s.get (FWD_RES_LIMIT_LIMIT n l)
  if v ≠ 0 then some (v * 1000) else if n = 67 then some (2000000 * 1000) else none

/-- The copy has been resident too long (R148); with PD2 off every copy passes (R463). -/
def State.aged (s : State) (n l arrival : Nat) : Bool :=
  s.pdOn 2 && (s.resLimit n l).any fun lim => shortDiff (s.short 0) arrival > lim

/-- What dequeue makes of a copy: it is gone, or it starts with the octets it leaves with (sealed, when MACsec protects
it). -/
inductive Fate where
  | gone (s : State)
  | start (s : State) (out : Option (List Byte))

/-- A copy that port 67 discards without a record counts in DROPPED of the page (R160). -/
def State.dropped67 (s : State) (n : Nat) : State :=
  if n = 67 then { s with dram := { s.dram with dropped := s.dram.dropped + 1 } } else s

/-- A copy that dequeue discards without sending (R118, R160). -/
def State.discardAt (s : State) (n : Nat) (c : Copy) : State := (s.dropped67 n).copyLeaves c

/-- The RX ring that takes a copy of port 64, when it cannot: its copies are discarded at dequeue and count in its NOBUF (R368). -/
def State.ringDown (s : State) (n : Nat) (c : Copy) : Option Nat :=
  if n ≠ 64 then none
  else
    let r := bits (s.get HIF_RX_MAP_RING) (4 * c.lane) 4
    if s.ringRuns (.rx (Fin.ofNat 16 r)) then none else some r

/-- The checks of a copy that selection took from lane `l` of port `n` (R120, R122–R124, R148, R157, R325, R368, R401, R432). DESIGN CHOICE
(log 73): ageing is checked before STATE, so that a bad frame's copy that is too old counts in FWD_AGE_DROP. -/
def State.dequeue (s : State) (n l : Nat) (c : Copy) : Fate :=
  match s.handle c.handle with
  | none => .gone (s.dropped67 n)
  | some h =>
    if h.parBad ≠ 0 then .gone ((s.dropped67 n).handleParity c.handle h).sayParity
    else if s.recDiscards n then .gone (s.recDrop.copyLeaves c)
    else if s.aged n l h.arrival then .gone ((s.inc (FWD_AGE_DROP_COUNT n)).discardAt n c)
    else if h.state = 2 then .gone (s.discardAt n c)
    else if n = 66 && !s.up .edge then .gone (s.copyLeaves c)
    else if n = 65 && s.cox.coresHeld then .gone ((s.inc COX_RX_DROP_COUNT).copyLeaves c)
    else match s.ringDown n c with
    | some r => .gone ((s.inc (HIF_RX_NOBUF_COUNT r)).copyLeaves c)
    | none =>
      let errs := s.frameErrs h 0
      let s1 := s.add FST_ECC_CORR_COUNT (errs.takeWhile (· = 1)).length
      if errs.any (· ≥ 2) then .gone ((s1.frameUncorr c.handle h).discardAt n c)
      else
        let b := s1.copyBytes n c h
        let s2 := if s1.txSecure n && !s1.keyDown then s1.saKeyRead (s1.saOf 1 n (ebits (s1.macPort n) 1 0 2)) else s1
        let m := s2.macSend n h.port (beAt b (etypeAt b) 2) (s2.egressLen n c h) (classMax n)
        match m.2 with
        | .plain => .start m.1 none
        | .under a => .start m.1 (some (s2.macSeal n a (s2.saPn a) b))
        | .drop => .gone (m.1.copyLeaves c)

/-- The egress record of a copy that asks for one (R275): at the stamp point `delay` quarter ns from now, TX_DELAY added. -/
def State.egressStamp (s : State) (n delay : Nat) (c : Copy) : State :=
  match s.handle c.handle with
  | none => s
  | some h =>
    match h.tag with
    | some t =>
      if !t.req || n ≥ 64 then s
      else if (SMap.get s.tim.stampsWait [] n).length ≥ 16 then (if s.up .time then s.inc (TIM_TS_LOST_COUNT n) else s)
      else
        let o := s.stampRecord ((delay : Int) + sext 12 (s.get (PRT_TS_DELAY_TX_DELAY n))) true n t.tag
        s.timeSeen.tset fun u => { u with stampsWait := SMap.upd u.stampsWait [] n fun q => q ++ [⟨c.handle, o, h.port, t.ring, false⟩] }
    | none => s

/-- What the recorder writes of a copy with the octets `b` (R161); a forwarded copy has its egress edits (R131). DESIGN CHOICE (log
118): a forwarded copy, which has no session, is recorded with SESSION 0. -/
def recOf67 (c : Copy) (h : Handle) (b : List Byte) : RecCopy :=
  { bytes := b ++ fcsOf b, stored := h.bytes.length + 4, port := h.port, session := c.session, stream := h.stream, reserved := h.reserved,
    arrival := h.arrival, cap := c.cap, trigger := c.trigger }

/-- A copy starts on port `n` (R207, R211, R225, R275). -/
def State.startCopy (s : State) (n l delay : Nat) (c : Copy) (out : Option (List Byte)) : State :=
  let s1 := s.shaperCharge n l (s.charged n c)
  let len := ((s.handle c.handle).map (s.spanOf n c)).getD 0 + (if s.txSecure n then 32 else 0)
  let read := ((s.handle c.handle).map Handle.words).getD 0
  let s2 := s1.svcSet n fun v => { v with sending := some ⟨c, bit (s.preemptMask n) l, out, 0, len, s.refTicks, read⟩ }
  let s3 := s2.egressStamp n delay c
  match n == 67, s3.handle c.handle with
  | true, some h => s3.recWrite (recOf67 c h (s3.copyBytes n c h))
  | _, _ => s3

/-- A selection, made again while dequeue discards what it takes (R208, R209): a discarded copy is not charged. -/
def State.selectRun (s : State) (n delay : Nat) : Nat → State
  | 0 => s
  | k + 1 =>
    match s.selectLane n with
    | none => s
    | some (l, v, drr) =>
      match s.lane n l with
      | [] => s
      | c :: _ =>
        let s1 := s.svcSet n fun w => { w with ptr := v.ptr, deficit := v.deficit, visited := v.visited }
        match s1.dequeue n l c with
        | .start t out => (t.popLane n l).startCopy n l delay c out
        | .gone t =>
          let t1 := if (t.lane n l).head? == some c then t.popLane n l else t
          let t2 := if drr && !(t1.lane n l).isEmpty then t1.svcSet n fun w =>
              { w with deficit := SMap.put w.deficit 0 l (SMap.get w.deficit 0 l + s.charged n c) } else t1
          t2.selectRun n delay k

/-- Copies that wait on a port. -/
def State.waiting (s : State) (n : Nat) : Nat := natSum ((List.range 8).map fun l => (s.lane n l).length)

/-- A selection instant of port `n` (R207–R209, R225); `ecc` is an error that has struck the frame of the first copy it takes. -/
def State.selectNext (s : State) (n ecc delay : Nat) : State :=
  let s1 := (s.frameBoundary n).countDefer n
  if s1.restMayResume n then
    s1.svcSet n fun v => { v with sending := v.rest.map fun x => { x with late := 0, since := s.refTicks }, rest := none }
  else
    let first := (s1.selectLane n).bind fun r => (s1.lane n r.1).head?
    ((first.elim s1 fun c => s1.strike c.handle ecc).selectRun n delay (s1.waiting n)).sayParity

/-! ### Delivery -/

/-- Delivery on port 64: the RX ring of the lane, or the sampler's ring (R375). -/
def State.toHost (s : State) (r maxLen : Nat) (c : Copy) (h : Handle) (b : List Byte) : State :=
  s.rxDeliver (Fin.ofNat 16 r) { bytes := b, maxLen := maxLen, port := h.port, sampled := c.kind == 2, mirror := c.kind == 1,
                                 reserved := h.reserved, stream := h.stream, stamp := h.stamp }

/-- Delivery to Cox (R274, R401). -/
def State.toCox (s : State) (h : Handle) (b : List Byte) (sampled : Bool) : State :=
  if s.cox.coresHeld then s.inc COX_RX_DROP_COUNT
  else { s with cox := { s.cox with rxFrames := s.cox.rxFrames ++ [⟨b, h.port, h.stamp, sampled⟩] } }

/-- Delivery on port 68 to each enabled consumer (R155). -/
def State.toSampler (s : State) (c : Copy) (h : Handle) (b : List Byte) : State :=
  let k := s.get FWD_SMP_CFG_TRUNC * 64
  let s1 := if s.on FWD_SMP_CFG_COX_EN then s.toCox h (b.take k) true else s
  if s1.on FWD_SMP_CFG_HOST_EN then s1.toHost (s1.get FWD_SMP_CFG_RING) k c h b else s1

/-- Delivery to the Rigger, which reads it with its own row (R316). DEDUCED: without the Edge island, or before its tables
are loaded, nothing takes the frame. -/
def State.toRigger (s : State) (h : Handle) (b : List Byte) : State :=
  if !s.rigReady then s
  else if !s.on RIG_CFG_ENABLE then s.inc RIG_ETH_UNMATCHED_COUNT
  else s.eset fun e => { e with rigIn := e.rigIn ++ [(b, h.arrival)] }

/-- A frame sent on a line: counters, the line, and with MAC loopback the same frame as ingress (R94, R60). -/
def State.toLine (s : State) (n : Nat) (b : List Byte) : State :=
  let len := b.length + 4
  let s1 := ((s.inc (PRT_TX_FRAMES_COUNT n)).add (PRT_TX_OCTETS_COUNT n) len).noteOwn n
  if s.get (PRT_MODE_LOOPBACK n) = 1 then
    let st := s1.ingressStamp n 0
    let x : RxFrame := { port := n, bytes := b, epoch := s1.get GLB_CFG_STATE_EPOCH, stamp := st, arrival := leAt st 0 4 }
    let fid := 2 ^ 31 + s1.fab.nextFrame
    (s1.timeSeen.fset fun f => { f with nextFrame := f.nextFrame + 1 }).endFrame n fid [] x ⟨true, 0, 0, 0, false, 0, 0, 0⟩
  else s1.fset fun f => { f with lineOut := f.lineOut ++ [(n, b ++ fcsOf b)] }

/-- The last byte of a copy goes to its port's consumer. Port 69's messages come to the bridge as rows of their own. -/
def State.deliverCopy (s : State) (n : Nat) (c : Copy) (h : Handle) (out : Option (List Byte)) : State :=
  let b := out.getD (s.copyBytes n c h)
  if n < 64 then s.toLine n b
  else if n = 64 then s.toHost (bits (s.get HIF_RX_MAP_RING) (4 * c.lane) 4) b.length c h b
  else if n = 65 then s.toCox h b false
  else if n = 66 then s.toRigger h b
  else if n = 68 then s.toSampler c h b
  else s

/-- The egress record of a copy whose last bit has left awaits its return (R275). -/
def State.stampReady (s : State) (n h : Nat) : State :=
  s.tset fun t => { t with stampsWait := SMap.upd t.stampsWait [] n fun q => q.map fun r => if r.handle = h then { r with ready := true } else r }

/-- The words of a frame that were written after its copy on port `n` had started are read before the copy ends (R122, R123). -/
def State.readRest (s : State) (n : Nat) (x : Sending) (h : Handle) : State :=
  let errs := s.frameErrs h x.words
  let s1 := s.svcSet n fun v => { v with sending := some { x with words := max x.words h.words } }
  let s2 := s1.add FST_ECC_CORR_COUNT (errs.takeWhile (· = 1)).length
  if errs.any (· ≥ 2) then s2.frameUncorr x.copy.handle h else s2

/-- The end of the copy in transmission (R118); one that an uncorrectable word has ended is aborted instead (R123, R146). A copy whose
frame is still being written does not end. DESIGN CHOICE (log 74): a copy
whose handle has been quarantined under it (R124) ends without being sent or counted. -/
def State.endCopy (s : State) (n : Nat) : State :=
  match (s.svc n).sending with
  | none => s
  | some x =>
    match s.handle x.copy.handle with
    | none => s.svcSet n fun v => { v with sending := none }
    | some h =>
      if h.state = 0 then s
      else
        let s0 := s.readRest n x h
        if (s0.svc n).sending.isNone then (s0.frameBoundary n).sayParity
        else
          let s1 := (s0.svcSet n fun v => { v with sending := none }).deliverCopy n x.copy h x.out
          ((s1.stampReady n x.copy.handle).copyLeaves x.copy).frameBoundary n |>.sayParity

/-- The oldest egress record of a port that is ready returns to its source (R275, R372). -/
def State.returnStamp (s : State) (n : Nat) : State :=
  let q := SMap.get s.tim.stampsWait [] n
  match q.find? (·.ready) with
  | none => s
  | some r =>
    let s1 := s.tset fun t => { t with stampsWait := SMap.put t.stampsWait [] n (q.erase r) }
    if r.source = 64 then s1.emit 0x0D00 r.ring (leNat r.octets)
    else if s1.cox.coresHeld then s1
    else { s1 with cox := { s1.cox with stamps := s1.cox.stamps ++ [r.octets] } }

/-- Copies in transmission follow their gates on every port (R225, R226). -/
def State.cutAll (s : State) : State := s.each (s.fab.service.map (·.1)) fun t n => t.cutSending n

end Sys2Proof.Machine
end

