-- ==== Sys2Proof/Machine/Keys.lean ====
section
/-! DEFINITION. The rows of the key unit (R421–R427, R434–R436). A key command does its work when it is accepted and
runs until COMMAND_DONE (DESIGN CHOICE: the spec gives its longest time only). -/
namespace Sys2Proof.Machine

/-- The refusals that every key command shares (R422): PD6, READY. In Boathouse PD6 is powered for the command. -/
def State.keyReady (s : State) : Option (Nat × Nat) :=
  if s.power = 2 then none
  else if !s.pdOn 6 then some (3, 6)
  else if !(s.up .key && s.on KEY_STATUS_READY) then some (5, 1)
  else none

/-- The refusals of a command that writes a slot, or draws random data (R421, R422). -/
def State.keyRefused (s : State) (slot : Option Nat) (fresh random : Bool) : Option (Nat × Nat) :=
  match s.keyReady with
  | some r => some r
  | none =>
    match slot with
    | some i =>
      if i ≥ 8 && s.commitState != 0 then some (2, 0)
      else if fresh && slotValid (s.slotTarget i) then some (5, 2)
      else if random && s.on KEY_STATUS_TRNG_FAIL then some (6, 8) else none
    | none => if random && s.on KEY_STATUS_TRNG_FAIL then some (6, 8) else none

/-- A finished key command: its status and RESULT await COMMAND_DONE. -/
def keyDone (s : State) (status result : Nat) : CmdOut := .long s (.plain status result)

/-- KEY_GENERATE (R415–R417, R423). -/
def execKeyGenerate (src : CmdSrc) (d : Desc) (s : State) : Host.Outcome State Fault Refusal :=
  let slot := descBits d 16 8
  let ty := descBits d 17 8
  let usage := descBits d 18 8
  let ok := slot ≠ 0 && ty ≤ 2 && pairOk ty usage && descBits d 19 8 ≤ 1 && descZero d 24 64
  .next <| s.runCmd src d ok [0, 1] false fun t =>
    match t.keyRefused (some slot) true true with
    | some r => .refuse r.1 r.2
    | none =>
      if t.slotWorn slot then keyDone t 8 0
      else
        let r := t.freeBytes (if ty = 2 then 74 else keyLen ty)
        let key := if ty = 2 then scalarOf r.1 else r.1
        keyDone (r.2.slotWrite slot (slotMake 1 ty usage (descBits d 19 1) (descBits d 20 32) key)) 0 0

/-- KEY_WRAP (R417, R418, R424). DESIGN CHOICE (log 82): `upsets` are the errors that have come over the slot memory since the last
command that reads slots; a read finds them (R439). -/
def execKeyWrap (src : CmdSrc) (d : Desc) (s : State) (upsets : List SlotUpset := []) :
    Host.Outcome State Fault Refusal :=
  let slot := descBits d 16 8
  let mode := descBits d 17 8
  let a := descBits d 24 64
  let ok := mode ≤ 1 && descZero d 19 24 && descZero d 32 64 && a % 8 == 0 && !src.remote
  .next <| (s.each upsets fun t u => t.slotUpset u).runCmd src d ok [0, 1] false fun t0 =>
    match t0.keyRefused none false true with
    | some r => .refuse r.1 r.2
    | none =>
      let t1 := t0.slotRead slot
      let t := if mode = 1 then t1.slotRead (descBits d 18 8) else t1
      let e := t.slot slot
      let w := t.slot (descBits d 18 8)
      if slot = 0 || !slotValid e || !slotExport e then keyDone t 9 0
      else if mode = 0 then
        let r := t.freeBytes 12
        keyDone (r.2.hostPut a (r.2.makeBlob e r.1)) 0 144
      else if !slotValid w || slotUsage w ≠ 2 then keyDone t 9 0
      else
        let n := if slotType e = 0 then 40 else if slotType e = 1 then 72 else 80
        keyDone (t.hostPut a (sliceBytes (Config.kwpWrap (slotKey w) (slotKey e)) 0 n)) 0 n

/-- KEY_UNWRAP (R419, R423, R424), with the errors of the slot memory as for KEY_WRAP. DEDUCED: a device blob is 144 octets long, so LEN is 144 with MODE 0. -/
def execKeyUnwrap (src : CmdSrc) (d : Desc) (s : State) (upsets : List SlotUpset := []) :
    Host.Outcome State Fault Refusal :=
  let slot := descBits d 16 8
  let mode := descBits d 17 8
  let ty := descBits d 19 8
  let usage := descBits d 20 8
  let ex := descBits d 21 8
  let len := descBits d 22 16
  let a := descBits d 24 64
  let ok := slot ≠ 0 && descZero d 36 64 && a % 8 == 0 && !src.remote && ex ≤ 1
    && (if mode = 0 then ty == 0 && usage == 0 && ex == 0 && descBits d 32 32 == 0 && len == 144
        else mode == 1 && ty ≤ 2 && pairOk ty usage)
  .next <| (s.each upsets fun t u => t.slotUpset u).runCmd src d ok [0, 1] false fun t0 =>
    match t0.keyRefused (some slot) true false with
    | some r => .refuse r.1 r.2
    | none =>
      let t := if mode = 1 then t0.slotRead (descBits d 18 8) else t0
      let data := t.hostBytes a len
      let w := t.slot (descBits d 18 8)
      if mode = 0 then
        match t.openBlob data with
        | none => keyDone t 7 0
        | some e => if t.slotWorn slot then keyDone t 8 0 else keyDone (t.slotWrite slot e) 0 0
      else if !slotValid w || slotUsage w ≠ 2 then keyDone t 9 0
      else match Config.kwpUnwrap (slotKey w) data with
        | none => keyDone t 7 0
        | some k =>
          if k.length ≠ keyLen ty then keyDone t 7 0
          else if t.slotWorn slot then keyDone t 8 0
          else keyDone (t.slotWrite slot (slotMake 2 ty usage ex (descBits d 32 32) k)) 0 0

/-- The output of KEY_DERIVE from its input key (R425). -/
def deriveKey (ikm salt info : List Byte) (ty : Nat) : List Byte :=
  if ty = 2 then scalarOf (Config.hkdf ikm salt info 74) else Config.hkdf ikm salt info (keyLen ty)

/-- KEY_DERIVE (R417, R425), with the errors of the slot memory as for KEY_WRAP. -/
def execKeyDerive (src : CmdSrc) (d : Desc) (s : State) (upsets : List SlotUpset := []) :
    Host.Outcome State Fault Refusal :=
  let slot := descBits d 16 8
  let method := descBits d 18 8
  let ty := descBits d 19 8
  let usage := descBits d 20 8
  let ex := descBits d 21 8
  let len := descBits d 22 16
  let a := descBits d 24 64
  let blk := s.hostBytes a len
  let sl := beAt blk 0 2
  let il := beAt blk 2 2
  let ok := slot ≠ 0 && method ≤ 1 && ty ≤ 2 && pairOk ty usage && ex ≤ 1 && descZero d 36 64 && a % 8 == 0 && !src.remote
    && (if method = 1 then len == 133 else 4 ≤ len && sl ≤ 64 && il ≤ 128 && len == 4 + sl + il)
  .next <| (s.each upsets fun t u => t.slotUpset u).runCmd src d ok [0, 1] false fun t0 =>
    match t0.keyRefused (some slot) true (method == 1) with
    | some r => .refuse r.1 r.2
    | none =>
      let t := t0.slotRead (descBits d 17 8)
      let e := t.slot (descBits d 17 8)
      if !slotValid e || slotUsage e ≠ 3 || (slotType e == 2) != (method == 1) || (ex == 1 && !slotExport e) then keyDone t 9 0
      else
        let ikm := if method = 0 then some (slotKey e) else Config.ecdh (slotKey e) blk
        match ikm with
        | none => keyDone t 3 0
        | some k =>
          let out := if method = 0 then deriveKey k (sliceBytes blk 4 sl) (sliceBytes blk (4 + sl) il) ty
            else deriveKey k [] (ascii "VF6425 ECDH") ty
          if t.slotWorn slot then keyDone t 8 0
          else keyDone (t.slotWrite slot (slotMake 3 ty usage ex (descBits d 32 32) out)) 0 0

/-- KEY_DESTROY: the slot is zeroised in both banks, or in RRAM by a persistent write (R415, R426). DEDUCED: the image of the key unit, which
matches the active bank (R438), is written anew. -/
def execKeyDestroy (src : CmdSrc) (d : Desc) (s : State) : Host.Outcome State Fault Refusal :=
  let slot := descBits d 16 8
  .next <| s.runCmd src d (descZero d 17 64) [0, 1] false fun t =>
    match t.keyRefused (some slot) false false with
    | some r => .refuse r.1 r.2
    | none =>
      if slot = 0 then keyDone t 9 0
      else if slot ≥ 8 then keyDone ((t.slotGone slot).startImage .key) 0 0
      else if t.slotWorn slot && t.slotTarget slot ≠ 0 then keyDone t 8 0
      else keyDone (t.slotWrite slot 0) 0 0

/-- FLAGS of a statement (R436). -/
def State.attestFlags (s : State) : Nat :=
  let b := fun (f : Fld) (i : Nat) => if s.on f then 2 ^ i else 0
  b COX_LIFECYCLE_OWNER_LOCK 0 + b COX_STATUS_LS_BROKEN 1 + b COX_STATUS_DEBUG 2 + (if s.power = 2 then 8 else 0)
    + b COX_LIFECYCLE_KEY_SET 4 + b COX_STATUS_FROZEN 5 + (if s.get COX_STATUS_MODE = 1 then 64 else 0) + b KEY_STATUS_TRNG_FAIL 7

/-- Octets 0–711 of a statement (R436). -/
def State.statement (s : State) (nonce : List Byte) : List Byte :=
  let m := fun k =>
    let v := SMap.get s.key.meas (0, leBytes 64 0) k
    beBytes 1 k ++ [0, 0, 0] ++ beBytes 4 v.1 ++ sliceBytes v.2 0 64
  beBytes 4 0x46415454 ++ [1] ++ beBytes 1 (s.get COX_LIFECYCLE_STATE) ++ beBytes 2 s.attestFlags ++ uidBytes
    ++ beBytes 4 (s.rd GLB_ID).toNat ++ beBytes 4 (s.rd GLB_REV).toNat ++ sliceBytes nonce 0 32
    ++ beBytes 6 (s.domNs 0 / 10 ^ 9) ++ [0, 0] ++ beBytes 4 (s.domNs 0 % 10 ^ 9) ++ beBytes 4 s.key.statements
    ++ beBytes 4 (s.get HFP_FCG_GEN) ++ beBytes 2 (s.get GLB_CFG_STATE_COMMIT_ID) ++ beBytes 1 (s.get COX_STATUS_CORE_RESETS)
    ++ beBytes 1 (s.get LOG_FAIL_START_FAILS)
    ++ (if s.on COX_LIFECYCLE_KEY_SET then sliceBytes s.cox.keyHash 0 64 else leBytes 64 0)
    ++ (List.range 6).flatMap m ++ sliceBytes (Config.ecPublic identityKey) 0 133 ++ [0, 0, 0]

/-- In Boathouse PD6 is powered for the duration of ATTEST or RANDOM, without the MACsec engines (R422). DEDUCED: no key image is loaded then,
and the slots are those of RRAM. -/
def State.keyOnDemand (s : State) : State :=
  if s.power = 2 && !s.pdOn 6 then
    (((s.set PWR_STATUS_ON (setBits (s.get PWR_STATUS_ON) 5 1 1)).slotsLoad.firstSeed).loadBanks [15] resetBank).set KEY_STATUS_READY 1
  else s

/-- ATTEST (R435, R436). DEDUCED: STMT_SEQ counts the statement itself; with slot 0 lost to an error it is LOCKED (R416, R439). -/
def execAttest (src : CmdSrc) (d : Desc) (s : State) : Host.Outcome State Fault Refusal :=
  let a := descBits d 16 64
  let ok := a % 8 == 0 && descZero d 56 64 && !src.remote
  .next <| s.runCmd src d ok [0, 1, 2] false fun t =>
    match t.keyRefused none false true with
    | some r => .refuse r.1 r.2
    | none =>
      let t0 := t.keyOnDemand.slotRead 0
      if !slotValid (t0.slot 0) then keyDone t0 9 0
      else
      let t1 := t0.kset fun k => { k with statements := k.statements + 1 }
      let st := t1.statement (leBytes 32 (descBits d 24 256))
      let r := t1.freeBytes 66
      keyDone (r.2.hostPut a (st ++ sliceBytes (Config.ecdsaSign identityKey r.1 st) 0 132 ++ [0, 0, 0, 0])) 0 848

/-- RANDOM (R427). -/
def execRandom (src : CmdSrc) (d : Desc) (s : State) : Host.Outcome State Fault Refusal :=
  let a := descBits d 16 64
  let len := descBits d 24 32
  let ok := a % 8 == 0 && 1 ≤ len && len ≤ 4096 && descZero d 28 64 && !src.remote
  .next <| s.runCmd src d ok [0, 1, 2] false fun t =>
    match t.keyRefused none false true with
    | some r => .refuse r.1 r.2
    | none =>
      let r := t.keyOnDemand.freeBytes len
      keyDone (r.2.hostPut a r.1) 0 len

/-- A key that IEEE 802.1X derives from a CAK of 256 bits by AES-256-CMAC. PRESUMED (log 131): its KDF in counter mode, with the first 16
octets of the CKN as context. -/
def mkaKey (cak ckn : List Byte) (label : String) : List Byte :=
  ([1, 2].flatMap fun i => Config.cmac cak ([BitVec.ofNat 8 i] ++ ascii label ++ [0] ++ sliceBytes ckn 0 16 ++ beBytes 2 256)).take 32

/-- The key unit's part in an MKPDU (R434): ICK and KEK come from the CAK, a TYPE 0, USAGE 3 slot, and are never readable; the key server
draws the SAK from the TRNG into a banked slot and appends it wrapped in KW mode under the KEK, a member takes it out into one; the ICV ends
the frame. None where the CAK or the target slot does not serve, under the rules of R415, R421 and R422. -/
def State.mkaFrame (s : State) (u : MkaUse) (b : List Byte) : Option (State × List Byte) :=
  let cak := s.slot u.cak.toNat
  let ick := mkaKey (slotKey cak) u.ckn "IEEE8021 ICK"
  let kek := mkaKey (slotKey cak) u.ckn "IEEE8021 KEK"
  let done := fun (t : State) (l : List Byte) => some (t, l ++ Config.cmac ick l)
  if !s.up .key || !slotValid cak || slotType cak ≠ 0 || slotUsage cak ≠ 3 then none
  else match u.step with
    | .icv => done s b
    | .draw slot usage label =>
      if slot.toNat < 8 || (s.keyRefused (some slot.toNat) true true).isSome then none
      else
        let r := s.freeBytes 32
        done (r.2.slotWrite slot.toNat (slotMake 1 0 usage.val 0 label.toNat r.1)) (b ++ Config.kwWrap kek r.1)
    | .take slot usage label wrapped =>
      if slot.toNat < 8 || (s.keyRefused (some slot.toNat) true false).isSome then none
      else match Config.kwUnwrap kek wrapped with
        | none => none
        | some k => if k.length = 32 then done (s.slotWrite slot.toNat (slotMake 2 0 usage.val 0 label.toNat k)) b else none

/-- TRNG_HEALTH_FAIL: the repetition count (`apt` false) or adaptive proportion test fails (R421). -/
def execTrngHealthFail (apt : Bool) (s : State) : Host.Outcome State Fault Refusal :=
  if s.up .key then .next (((s.inc (if apt then KEY_TRNG_APT_FAIL else KEY_TRNG_RCT_FAIL)).set KEY_STATUS_TRNG_FAIL 1).keyFault 0 2)
  else .next s

/-- A write of KEY_TRNG.RETEST = 1; 1,024 samples pass both tests or do not (R421). -/
def State.trngRetest (s : State) (who : Initiator) (pass : Bool) : State :=
  let ok := s.access who true KEY_TRNG
  if ok.2 && pass then ok.1.set KEY_STATUS_TRNG_FAIL 0 else ok.1

/-- TRNG_RETEST: it waits while the set-up bus is held (R350, R421). -/
def execTrngRetest (who : Initiator) (pass : Bool) (s : State) : Host.Outcome State Fault Refusal :=
  .next (if s.hostTurned who then s.unsupported false else if s.busHeld then s.busWaits (.retest who pass) else s.trngRetest who pass)

end Sys2Proof.Machine
end

