-- ==== Sys2Proof/Machine/Reset.lean ====
section
/-! DEFINITION. The rows of resets, start confirmation, options, the logbook and persistent words (R484–R505). -/
namespace Sys2Proof.Machine

/-- A bank that POWER_ON found between 1.8 V and 3.3 V stays in the hold, and SUPPLY fires with its rail (R507). -/
def State.bankFound (s : State) (rail : Nat) (v : BankVolt) : State :=
  if v = .between then s.monitorFinding (0x30 + rail) GLB_FAULT_SUPPLY 0x0104 true else s

/-- POWER_ON: VDD_AON rises through its threshold (R484, R485, R488); `edge` and `time` say what VDDIO_EDGE and VDDIO_TIME are found to
be (R507). -/
def execPowerOn (s : State) (edge : BankVolt := .v18) (time : BankVolt := .v18) : Host.Outcome State Fault Refusal :=
  let s1 := s.clearDevice 1
  let s2 := { s1 with rst := { s1.rst with off := false, hold := [] }, pins := { edgeBank := edge, timeBank := time } }
  .next (((s2.startSequence none).bankFound 11 edge).bankFound 12 time)

/-- BROWNOUT: a rail below its threshold for 1 µs (R484); the outputs of the banks of `rails` are off until the reset is released
(R487). -/
def execBrownout (s : State) (rails : List (Fin 16) := []) : Host.Outcome State Fault Refusal :=
  if s.rst.off then .next s
  else
    let t := s.deviceReset 2
    .next { t with pins := { t.pins with railsOut := t.pins.railsOut ++ rails.map (·.val) } }

/-- RESET_PIN: RESET_N low for 1 µs (R484). -/
def execResetPin (s : State) : Host.Outcome State Fault Refusal :=
  if s.rst.off then .next s else .next (s.deviceReset 3)

/-- THERMAL: the junction above 145 °C for 100 µs (R484). -/
def execThermal (s : State) : Host.Outcome State Fault Refusal :=
  if s.rst.off then .next s else .next (s.deviceReset 6)

/-- JTAG_RESET: the debug port's system reset, where R407 grants Cox debug (R484). -/
def execJtagReset (s : State) : Host.Outcome State Fault Refusal :=
  if s.alive && s.debugAllowed && s.up .debug then .next (s.deviceReset 7) else .next s

/-- RESET_RELEASE: a held device reset ends and the start sequence runs; the first one follows the power-on reset that
State.reset leaves (R488). -/
def execResetRelease (s : State) : Host.Outcome State Fault Refusal :=
  if s.rst.off || (s.rst.hold.isEmpty && s.on OPT_STATUS_VALID) then .next s
  else
    .next ({ s with rst := { s.rst with hold := [], optInj := none }, pins := { s.pins with railsOut := [] } }.startSequence s.rst.optInj)

/-- POWER_LOSS: VDD_AON leaves its valid range; every output is high-impedance and nothing runs (R460, R487). -/
def execPowerLoss (s : State) : Host.Outcome State Fault Refusal :=
  let s1 := s.clearDevice 1
  .next { s1 with rst := { s1.rst with off := true, hold := [] } }

/-- The island that DEVICE_RESET names (R491), and its port. -/
def resetIsland (d : Desc) : Island × Nat :=
  match descBits d 17 8 with
  | 0 => (.fabric, 0)
  | 1 => (.umpire, 0)
  | 2 => (.time, 0)
  | 3 => (.edge, 0)
  | 4 => (.key, 0)
  | 5 => (.dram, 0)
  | _ => (.port, descBits d 18 8)

/-- The arguments of DEVICE_RESET (R491). -/
def deviceResetArgs (d : Desc) : Bool :=
  descBits d 16 8 ≤ 1 && descBits d 20 32 == 0x52535421 && descBits d 19 8 ≤ 1 && descZero d 24 64
  && (if descBits d 16 8 = 1 then descBits d 17 8 ≤ 6 && descBits d 19 8 == 0 && (descBits d 17 8 ≠ 6 || descBits d 18 8 < 64)
      else true)

/-- The wrapper of an island closes and its state is lost (R489, R490). -/
def State.closeIsland (s : State) (i : Island) (n : Nat) : State :=
  let s1 := if i = .port then (s.portToOff n).set (PRT_MODE_ENABLE n) 0 else s
  let s2 := s1.clearIsland i n
  { s2 with rst := { s2.rst with islands := s2.rst.islands.filter (· ≠ islandKey i n) ++ [islandKey i n] } }

/-- DEVICE_RESET (R491): of the device after its completion, or of one island. -/
def execDeviceReset (src : CmdSrc) (d : Desc) (s : State) : Host.Outcome State Fault Refusal :=
  let scope := descBits d 16 8
  let r := resetIsland d
  let t := s.runCmd src d (deviceResetArgs d) [0, 1, 2] false fun t =>
    if scope = 1 && t.power = 2 then .refuse 1 0
    else if scope = 1 && r.1 = .fabric && t.commitState ≠ 0 then .refuse 2 0
    else if scope = 1 && !t.pdOn (domainOf r.1 r.2) then .refuse 3 (domainOf r.1 r.2)
    else if src.remote && !t.peerHasAuthority src.peerByte then .refuse 4 0
    else if scope = 1 then .long (t.closeIsland r.1 r.2) .islandReset
    else if descBits d 19 1 = 1 then
      (if t.get LOG_FAIL_START_FAILS = 0 then .done { t with rst := { t.rst with asked := true } } 0 0
       else if t.worn .failStart then .done t 8 0
       else .done { (t.countWear .failStart).set LOG_FAIL_START_FAILS 0 with rst := { t.rst with asked := true } } 0 0)
    else .done { t with rst := { t.rst with asked := true } } 0 0
  if t.rst.asked then .next ({ t with rst := { t.rst with asked := false } }.deviceReset 4) else .next t

/-- The reset island opens (R489 step 4) and takes up its state again (R490). -/
def State.openIsland (s : State) (i : Island) (n : Nat) : State :=
  { s with rst := { s.rst with islands := s.rst.islands.filter (· ≠ islandKey i n) } }.islandUp i n

/-- ISLAND_READY: the island reports ready, its wrapper opens and the command completes (R489). -/
def execIslandReady (s : State) : Host.Outcome State Fault Refusal :=
  match s.hif.running with
  | some r =>
    if r.kind = .islandReset then
      let i := resetIsland r.desc
      .next ((s.openIsland i.1 i.2).finishRunning 0 0)
    else .next s
  | none => .next s

/-- Cox confirms the start (R497); nothing to confirm while the cores are held. In Boathouse no window runs and the count stays
(R498). -/
def State.startOk (s : State) : State :=
  if s.cox.coresHeld then s
  else
    let s1 := s.set GLB_FAULT_START_PENDING 0
    if s1.on RST_START_START_OPEN && s1.power ≠ 2 then
      let s2 := s1.set RST_START_START_OPEN 0
      if s2.failsNow = 0 then s2 else s2.pwRequest [⟨.failStart, 0⟩]
    else s1

/-- START_TIMEOUT: the 2 s window expires (R497). -/
def execStartTimeout (s : State) : Host.Outcome State Fault Refusal :=
  if s.alive && s.on RST_START_START_OPEN && s.power ≠ 2 then .next (s.deviceReset 8) else .next s

/-- The 17 persistent writes of an option program (R496). -/
def State.optProgramWrites (s : State) : List PWrite :=
  let use := s.get OPT_STATUS_COPY
  let c := if use = 1 then 0 else 1
  let seq := if use = 2 then 1 else (s.get OPT_SEQ_SEQ + 1) % 2 ^ 32
  let w := fun k => if k = 0 then 0x4F505431 else if k = 1 then seq else if k = 2 then (s.rd OPT_NEW_BOOT).toNat
    else if k = 3 then (s.rd OPT_NEW_FLASH).toNat else 0
  let crc := crc32c ((List.range 15).flatMap fun k => leBytes 4 (w k))
  [⟨.optWord c 0, 0⟩] ++ ((List.range 15).map fun k => ⟨.optWord c (k + 1), if k = 14 then crc else w (k + 1)⟩)
    ++ [⟨.optWord c 0, 0x4F505431⟩]

/-- A LOG_WRITE whose word has been written completes with the wear count (R504). -/
def State.finishLogWrite (s : State) : State :=
  match s.runningKind with
  | some (.logWrite i) =>
    if s.rst.pw.any (fun w => w.tgt == .logWord i) then s else s.finishRunning 0 (s.get (LOG_WEAR_COUNT i))
  | _ => s

/-- PERSISTENT_WRITE_DONE: the write in progress is in RRAM (R501); SAs follow a slot (R426). -/
def execPersistentWriteDone (s : State) : Host.Outcome State Fault Refusal :=
  let t := s.pwDone.finishLogWrite
  if !s.alive then .next s
  else match s.rst.pw with
    | ⟨.keySlot _, _⟩ :: _ => .next t.sasFollow
    | _ => .next t

/-- An accepted register write to a logbook word (R501–R503). -/
def State.logWordWrite (s : State) (i value : Nat) : State :=
  if s.get (LOG_WORD_VALUE i) = value then s
  else if s.worn (.logWord i) then s.wornHit i
  else s.pwRequest [⟨.logWord i, value⟩]

/-- The value a logbook word will hold once the writes asked for are done. -/
def State.logValue (s : State) (i : Nat) : Nat :=
  s.pwLast (.logWord i)

/-- LOG_WRITE (R504). -/
def execLogWrite (src : CmdSrc) (d : Desc) (s : State) : Host.Outcome State Fault Refusal :=
  let i := descBits d 16 16
  let ok := i < 1024 && descZero d 18 20 && descZero d 28 64
  .next <| (s.runCmd src d ok [0, 1, 2] false fun t =>
    let mask := descBits d 24 32
    let new := (t.logValue i &&& (2 ^ 32 - 1 - mask)) ||| (descBits d 20 32 &&& mask)
    if t.logValue i = new then .long t (.logWrite i)
    else if t.worn (.logWord i) then .done (t.set LOG_STATUS_LAST_WORN i) 8 0
    else .long (t.pwRequest [⟨.logWord i, new⟩]) (.logWrite i)).finishLogWrite

/-- PERST_N_DEASSERT: the Host island leaves reset; `link` is the link that trains, as lanes and speed code (R486,
HIF_STATUS). -/
def execPerstNDeassert (link : Option (Fin 3 × Fin 4)) (s : State) : Host.Outcome State Fault Refusal :=
  if !s.alive then .next s
  else
    let s1 := { s with hif := { s.hif with perstLow := false }, pins := { s.pins with pcieTxOn := s.pdOn 7 },
                       rst := { s.rst with islands := s.rst.islands.filter (· ≠ islandKey .host 0) } }
    .next (if s1.up .host then s1.pcieLink link else s1)

/-- XTAL32_FAIL: the crystal fails and the RC replaces it for AON timing (R514). -/
def execXtal32Fail (s : State) : Host.Outcome State Fault Refusal := .next { s with pwr := { s.pwr with xtalFailed := true } }

end Sys2Proof.Machine
end

