-- ==== Sys2Proof/Machine/AccessOps.lean ====
section
/-! DEFINITION. What a register write finds before it acts: the faults of its fields, general (R10, R11, R21, R529) and of
single registers, and the value that the register takes. -/
namespace Sys2Proof.Machine

/-! ### Fields of one word (R9, R10) -/

/-- The part of a field that lies in word `w` of its register: lowest bit there and width. -/
def fieldIn (w : Nat) (f : FieldDef) : Option (Nat × Nat) :=
  if f.lo < 32 * w + 32 && 32 * w ≤ f.hi then
    let lo := max f.lo (32 * w)
    let hi := min f.hi (32 * w + 31)
    some (lo - 32 * w, hi + 1 - lo)
  else none

/-- The mask of bits `lo` up, `n` of them. -/
def maskAt (lo n : Nat) : Nat := (2 ^ n - 1) * 2 ^ lo

/-- The bits of word `w` that belong to a field of one of the accesses of a list. -/
def accMask (d : RegDef) (w : Nat) (l : List Acc) : Nat :=
  d.fields.foldl (fun m f => match fieldIn w f with
    | some p => if l.contains f.acc then m ||| maskAt p.1 p.2 else m
    | none => m) 0

/-- A value is one of those that a field may take. -/
def inRanges (l : List (Nat × Nat)) (x : Nat) : Bool := l.isEmpty || l.any fun r => r.1 ≤ x && x ≤ r.2

/-- The fault of one field: a locked field (3: every write of its register meets it, R10), a value out of its range (2, R21). -/
def fieldFault (locked : Bool) (w v : Nat) (f : FieldDef) : Option (Nat × Nat) :=
  match fieldIn w f with
  | none => none
  | some (lo, n) =>
    let x := bits v lo n
    if f.acc = .rwl && locked then some (maskAt lo n, 3)
    else if (f.acc = .rw || f.acc = .rwl || f.acc = .wo) && !inRanges f.ok x then some (maskAt lo n, 2)
    else none

/-- The register has a field that a write may act on (R529). -/
def writable (d : RegDef) : Bool := d.fields.any fun f => f.acc != .ro && f.acc != .rc

/-- The general faults of a write of `v`: masks of the bits that keep their value, with causes. -/
def generalFaults (d : RegDef) (locked : Bool) (w v : Nat) : List (Nat × Nat) :=
  let all := accMask d w [.rw, .ro, .rc, .w1c, .wo, .pw, .rwl]
  d.fields.filterMap (fieldFault locked w v)
    ++ (if writable d then [] else [(0, 1)])
    ++ (if v &&& (2 ^ 32 - 1 - all) = 0 then [] else [(0, 0)])

/-- The bits that faults keep. -/
def faultMask (l : List (Nat × Nat)) : Nat := l.foldl (fun m e => m ||| e.1) 0

/-- A register applies to the class of port `n` (R95, PRT locators): PLCA to S-ports, MDIO to B-ports, the resume record to
T1 B-ports and G-ports. -/
def State.applies (s : State) (r : Reg) (n : Nat) : Bool :=
  match r with
  | .PRT_PLCA_CFG => isS n
  | .PRT_PLCA_STATUS => isS n
  | .PRT_MDIO_CMD => n < 8
  | .PRT_MDIO_STATUS => n < 8
  | .PRT_RESUME_INFO => s.isT1 n
  | _ => true

/-! ### Faults of single registers -/

/-- The masks of a list whose bits would change. -/
def changed (old v : Nat) (masks : List Nat) : List Nat := masks.filter fun m => (old ^^^ v) &&& m != 0

/-- A fault with a cause for each mask. -/
def faultsOf (cause : Nat) (masks : List Nat) : List (Nat × Nat) := masks.map fun m => (m, cause)

/-- A fault when a condition holds. -/
def faultIf (b : Bool) (mask cause : Nat) : List (Nat × Nat) := if b then [(mask, cause)] else []

/-- Every bit of a word. -/
def whole : Nat := 2 ^ 32 - 1

/-- Port `n` is on the path of a declaration of the active bank (R60). -/
def State.portDeclared (s : State) (n : Nat) : Bool :=
  (declsOf s.fab.active).any fun d => d.inPort == n || d.egress.contains n

/-- PRT_MODE (R59, R60): five fields change only with ENABLE = 0 and no declared path, and only to a legal mode;
the reserved codes of ROLE and MEDIA make an illegal combination like any other (R59). -/
def State.modeFaults (s : State) (n old v : Nat) : List (Nat × Nat) :=
  let five := [0xC, 0xF0, 0x300, 0x400, 0x800]
  if (changed old v five).isEmpty then []
  else if bit old 0 || s.portDeclared n then faultsOf 2 (changed old v five)
  else faultIf (!modeLegal n (bits v 2 2) (bits v 4 4) (bits v 8 2) (bits v 10 1) (bits v 11 1)) 0xFFC 2

/-- The initiator owns domain `d` (R260). -/
def State.owns (s : State) (who : Initiator) (d : Nat) : Bool :=
  who.code == (if s.on (TIM_DOM_CFG_OWNER d) then 0 else 1)

/-- The servo owns the time of domain `d` (R262, R263). -/
def State.inHw (s : State) (d : Nat) : Bool := s.domState d == 3 || s.domState d == 4

/-- Registers of the Time island (R257–R269, R279). -/
def State.timeFaults (s : State) (who : Initiator) (r : Reg) (d w old v : Nat) : List (Nat × Nat) :=
  let mine := s.owns who d
  let busy := s.on (TIM_CATCH_CFG_ARM d)
  match r with
  | .TIM_DOM_CFG => faultIf (d == 0 && !bit v 0) 1 2
  | .TIM_INCR =>
    if !mine || s.inHw d then [(whole, 3)] else faultIf (v < 0x1FFBE76D || v > 0x20041893) whole 2
  | .TIM_SLEW =>
    if !mine || s.inHw d then [(whole, 3)] else faultIf ((sext 32 v).natAbs > 1000000) whole 2
  | .TIM_STEP =>
    if !mine || (w == 1 && s.inHw d) then [(whole, 3)]
    else faultIf (w == 1 && (s.domTime d : Int) + sext 64 (v * 2 ^ 32 + (s.rd (TIM_STEP d)).toNat) * 2 ^ 28 < 0) whole 2
  | .TIM_SET_NS =>
    if !bit v 31 then [] else if !mine then [(2 ^ 31, 3)] else faultIf (s.domState d ≥ 2) (2 ^ 31) 2
  | .TIM_SERVO_CTRL =>
    if !mine then [(3, 3)]
    else faultIf (bit v 0 && s.domState d != 2) 1 2
      ++ faultIf (bit v 1 && !(s.inHw d || (bit v 0 && s.domState d == 2))) 2 2
  | .TIM_CATCH_CFG => if bit old 1 then faultsOf 2 (changed old v [0xC, 0x10]) else []
  | .TIM_CATCH_START_SEC => faultIf busy whole 2
  | .TIM_CATCH_START_NS => faultIf busy whole 2
  | .TIM_CATCH_PERIOD => faultIf busy whole 2
  | .TIM_CATCH_WIDTH => faultIf busy whole 2
  | _ => []

/-- Registers of the Edge island (R293, EDG_LIN_CTRL). -/
def State.edgeFaults (s : State) (r : Reg) (c old v : Nat) : List (Nat × Nat) :=
  let on := s.on (EDG_CAN_CTRL_ENABLE c)
  match r with
  | .EDG_CAN_CTRL =>
    (if bit old 0 then faultsOf 2 (changed old v [6, 0x40, 0x80, 0x100]) else [])
      ++ faultIf (bit v 9 && !(if bit old 0 then bit old 8 else bit v 8)) 0x200 2
  | .EDG_CAN_NBT => if on then faultsOf 2 (changed old v [0x7F000000, 0xFE0000, 0x1FF00, 0x3F]) else []
  | .EDG_CAN_DBT => if on then faultsOf 2 (changed old v [0x1F000000, 0x1F0000, 0x3F00, 0x3F]) else []
  | .EDG_CAN_XL => if on then faultsOf 2 (changed old v [0x3F000000, 0x3F0000, 0x3F00, 0x80, 0x7F]) else []
  | .EDG_LIN_CTRL => if bit old 0 then faultsOf 2 (changed old v [0x7FFF0000, 2]) else []
  | _ => []

/-- Registers of the host interface (R370). -/
def State.hostFaults (s : State) (r : Reg) (k old v : Nat) : List (Nat × Nat) :=
  let size := if bit old 0 then faultsOf 2 (changed old v [0x1F0]) else []
  match r with
  | .HIF_DB_BASE => faultIf (s.on HIF_CTRL_ENABLE) whole 2
  | .HIF_ST_BASE => faultIf (s.on HIF_CTRL_ENABLE) whole 2
  | .HIF_CMD_BASE => faultIf (s.on HIF_CMD_CFG_EN) whole 2
  | .HIF_EVT_BASE => faultIf (s.on HIF_EVT_CFG_EN) whole 2
  | .HIF_TX_BASE => faultIf (s.on (HIF_TX_CFG_EN k)) whole 2
  | .HIF_RX_BASE => faultIf (s.on (HIF_RX_CFG_EN k)) whole 2
  | .HIF_CMD_CFG => size
  | .HIF_EVT_CFG => size
  | .HIF_TX_CFG => size
  | .HIF_RX_CFG => size
  | _ => []

/-- INJ_ARM (R410, R411): arming with EN = 0 refuses the whole write; TARGET, SUB and BITS take only what the point
accepts. -/
def State.injFaults (s : State) (p v : Nat) : List (Nat × Nat) :=
  if bit v 31 && !s.on INJ_CTRL_EN then [(whole, 3)]
  else
    let a := injAccepts p (bits v 0 16) (bits v 26 2) (bits v 28 2)
    faultIf (!a.1) 0xFFFF 2 ++ faultIf (!a.2.1) 0xC000000 2 ++ faultIf (!a.2.2) 0x30000000 2

/-- Option programming is refused: in FIELD with the owner lock set (3), which comes first (R530), or busy or out of range (2) (R496). -/
def State.optRefused (s : State) : Option Nat :=
  if s.get COX_LIFECYCLE_STATE = 2 && s.on COX_LIFECYCLE_OWNER_LOCK then some 3
  else if s.on OPT_STATUS_PROG_BUSY || !optValuesOk (s.rd OPT_NEW_BOOT).toNat (s.rd OPT_NEW_FLASH).toNat then some 2 else none

/-- A request by PWR_CTRL.REQ is one that POWER_STATE would refuse (R464). -/
def State.reqRefused (s : State) (req : Nat) : Bool :=
  req != 0 && ((s.power != 0 && s.power != 1 && s.power != 3) || (s.powerRefused (req - 1)).isSome)

/-- The domains of PWR_ACTIVE or PWR_FEATHER whose bit a write may not clear (R462). -/
def State.heldDomains (s : State) (must : List Nat) (old v : Nat) : List (Nat × Nat) :=
  ((List.range 15).filter fun pd => pd != 0 && !must.contains pd && bit old pd && !bit v pd && s.lostDeclared (2 ^ pd)).map
    fun pd => (2 ^ pd, 2)

/-- The domains that must be on in Active, and in Feather (PWR_ACTIVE, PWR_FEATHER). -/
def activeMust : List Nat := [1, 2, 3, 4, 7]
/-- The domains that must be on in Feather. -/
def featherMust : List Nat := [1, 3, 4]

/-- Registers of AON and Cox. -/
def State.safetyFaults (s : State) (who : Initiator) (r : Reg) (i old v : Nat) : List (Nat × Nat) :=
  match r with
  | .GLB_LOCK => faultIf (bit old 0 && !bit v 0) 1 3
  | .COX_CTRL => faultIf (bit v 0 && !s.mayUnfreeze) 1 2
  | .COX_WDOG_CFG => faultIf (bits v 0 8 ≥ bits v 16 10) (0xFF ||| 0x3FF0000) 2
  | .INJ_CTRL => faultIf (bit v 0 && !bit old 0 && !s.injAllowed) 1 3
  | .INJ_ARM => s.injFaults i v
  | .UPD_FLASH => faultIf (s.updLive != 0) whole 2
  | .UPD_STAGE => faultIf (s.updLive != 0) whole 2
  | .UPD_HEALTH => if who ≠ .cox then [(whole, 3)] else faultIf (v != 0x4845414C || s.updLive != 6) whole 2
  | .PWR_CTRL => faultIf (s.reqRefused (bits v 0 3)) 7 2
  | .PWR_ACTIVE => s.heldDomains activeMust old v
  | .PWR_FEATHER => if s.power = 1 then s.heldDomains featherMust old v else []
  | .RST_START => faultIf (bit v 0 && who != .cox) 1 3
  | .OPT_PROG => if bit v 0 then (match s.optRefused with | some c => [(1, c)] | none => []) else []
  | .LOG_WORD => faultIf (s.on LOG_STATUS_BUSY) whole 2
  | _ => []

/-- Registers of the fabric, the ports, the recorder and the units with images. -/
def State.fabricFaults (s : State) (r : Reg) (n old v : Nat) : List (Nat × Nat) :=
  let base := if bit old 31 then faultsOf 2 (changed old v [0x1FFF]) else []
  match r with
  | .PRT_MODE => s.modeFaults n old v
  | .PRT_MDIO_CMD => faultIf (bit v 31 && (s.on (PRT_MDIO_STATUS_BUSY n) || s.get (PRT_MODE_MEDIA n) == 0)) (2 ^ 31) 2
  | .FST_CTRL => faultIf (bit old 0 && !bit v 0) 1 2
  | .FST_CARVE => faultIf (s.on FST_CTRL_RUN) whole 2
  | .FWD_PORT_CFG => faultIf (n ≥ 32 && bit v 13) 0x2000 0
  | .FWD_SMP_SRC => faultIf (n == 2 && v ≥ 64) 0xFFFFFFC0 0
  | .REC_BASE => faultIf (s.recState != 0) whole 2
  | .REC_PAGES => faultIf (s.recState != 0) whole 2
  | .UMP_IMG => base
  | .RIG_IMG => base
  | .KEY_IMG => base
  | .HFP_CFG => if bit old 5 then faultsOf 2 (changed old v [0x1F, 0x1F00, 0x1F0000]) else []
  | .HFP_ETYPE => if s.on HFP_CFG_EN then faultsOf 2 (changed old v [0xFFFF]) else []
  | _ => []

/-- The fields that a declaration of the active bank holds (R233): of its IN_PORT, of its egress ports, and of its lane on
each of them. `j` is the second index of the register. -/
def State.heldFaults (s : State) (r : Reg) (n j old v : Nat) : List (Nat × Nat) :=
  let ds := declsOf s.fab.active
  let of := fun (b : Bool) l => if b then faultsOf 2 (changed old v l) else []
  match r with
  | .FWD_PORT_CFG => of (ds.any fun d => d.inPort == n) [0x2000]
  | .FST_CT_POOL => of (ds.any fun d => d.inPort == n) [3]
  | .LNE_MM_CFG => of (ds.any fun d => d.egress.contains n) [1, 2, 0x30]
  | .FWD_RES_LIMIT => of (ds.any fun d => d.egress.contains n && d.lane == j) [0x1FFFFF]
  | .PRT_PLCA_CFG => of (ds.any fun d => d.egress.contains n) [0x1F0, 0xFF0000, 0xF000000]
  | _ => []

/-- The faults of single registers; `v` is the written word with the bits that general faults keep. -/
def State.regFaults (s : State) (who : Initiator) (r : Reg) (i j w old v : Nat) : List (Nat × Nat) :=
  s.timeFaults who r i w old v ++ s.edgeFaults r i old v ++ s.hostFaults r i old v ++ s.safetyFaults who r i old v
    ++ s.fabricFaults r i old v ++ s.heldFaults r i j old v

/-! ### The outcome of a write -/

/-- The causes in the order of R530. -/
def causeOrder : List Nat := [6, 4, 5, 7, 3, 2, 1, 0]

/-- The cause that an access with these faults is recorded with. -/
def worstCause (l : List (Nat × Nat)) : Option Nat := causeOrder.find? fun c => l.any fun e => e.2 == c

/-- What a register takes: the value stored, the written bits that act, and every fault. -/
structure Taken where
  stored : Nat
  act : Nat
  faults : List (Nat × Nat)
  deriving DecidableEq, Repr

/-- A write of `v` to word `w` of a register that holds `old` (R10, R11, R21, R529, R530). -/
def State.takeWrite (s : State) (who : Initiator) (d : RegDef) (i j w old v : Nat) : Taken :=
  let g := generalFaults d (s.on GLB_LOCK_SETUP_LOCK) w v
  let m1 := faultMask g
  let keepW := fun m => (v &&& (whole - m)) ||| (old &&& m &&& (whole - accMask d w [.wo, .w1c, .pw]))
  let l := g ++ s.regFaults who d.reg i j w old (keepW m1)
  let m := faultMask l
  let act := v &&& (whole - m)
  let set := accMask d w [.rw, .rwl]
  let one := accMask d w [.w1c]
  { stored := (keepW m &&& set) ||| (old &&& (whole - set) &&& (whole - (act &&& one))), act := act, faults := l }

end Sys2Proof.Machine
end

