-- ==== Sys2Proof/Machine/Hooks.lean ====
section
/-! DEFINITION. What a register write brings about beside the bits it stores, register by register. In each operation `s`
is the state with the new value stored, `old` the word before, `act` the written bits that act, `bad` the bits that a fault
kept. -/
namespace Sys2Proof.Machine

/-! ### Counter clears (R94, R126, R165, R193, R230) -/

/-- A word at `a` is a counter of a block (the counter tables of the chapters). -/
def isCounter (blk : CntBlock) (a : Nat) : Bool :=
  let r := fun lo hi : Nat => lo ≤ a && a < hi
  let o := fun k : Nat => a % k
  match blk with
  | .prt n => r (PRT_RX_FRAMES n.val) (PRT_RX_FRAMES n.val + 0x60)
  | .fst => r 0x500200 0x500248
  | .fwd => r 0x602000 0x602424 || r 0x700000 0x708000
  | .recorder => r 0x1500080 0x1500090
  | .ump => r 0x800200 0x800250 || r 0x800400 0x801800 || r 0x880000 0x888000 || r 0x8A0000 0x8A2000
  | .lne => r 0xA00800 0xA00918 || r 0xA00C00 0xA00E04 || r 0xA40000 0xA50000
  | .gte => r 0xB00400 0xB00718
  | .heat => a == 0xC00100
  | .tim => r 0xD00900 0xD00A20 || (r 0xD01000 0xD01400 && (o 0x40 == 0x20 || o 0x40 == 0x24)) || (r 0xD02000 0xD02400 && o 0x40 == 0x1C)
  | .edg => (r 0xE00000 0xE02000 && 0x40 ≤ o 0x100 && o 0x100 < 0x60) || (r 0xE04000 0xE05000 && 0x40 ≤ o 0x100 && o 0x100 < 0x54)
  | .rig => r 0xF00100 0xF00134
  | .hfp => r 0x1000500 0x1000534
  | .hif => a == 0x3000A0 || (r 0x301000 0x301400 && (o 0x40 == 0x10 || o 0x40 == 0x14))
      || (r 0x302000 0x302400 && 0x10 ≤ o 0x40 && o 0x40 < 0x1C)
  | .key => r 0x1202000 0x1205000 || r 0x1200304 0x120030C

/-- Every counter of a block returns to 0 in one cycle. -/
def State.clearCounters (s : State) (blk : CntBlock) : State := { s with regs := SMap.keep s.regs fun a => !isCounter blk a }

/-- Every observation word and histogram bin returns to its reset value (R228, R230). -/
def State.clearObs (s : State) : State :=
  { s with regs := SMap.keep s.regs fun a => !(0xA80000 ≤ a && a < 0xA80000 + 70 * 0x400) }

/-- The block that a counter-clear register clears. -/
def cntBlockOf (r : Reg) (n : Nat) : Option CntBlock :=
  match r with
  | .PRT_CNT_CLEAR => some (.prt (Fin.ofNat 64 n))
  | .FST_CNT_CLEAR => some .fst
  | .FWD_CNT_CLEAR => some .fwd
  | .REC_CNT_CLEAR => some .recorder
  | .UMP_CNT_CLEAR => some .ump
  | .LNE_CNT_CLEAR => some .lne
  | .GTE_CNT_CLEAR => some .gte
  | .HEAT_CNT_CLEAR => some .heat
  | .TIM_CNT_CLEAR => some .tim
  | .EDG_CNT_CLEAR => some .edg
  | .RIG_CNT_CLEAR => some .rig
  | .HFP_CNT_CLEAR => some .hfp
  | .HIF_CNT_CLEAR => some .hif
  | .KEY_CNT_CLEAR => some .key
  | _ => none

/-! ### Ports (R64, R72, R74, R90) -/

/-- A port is enabled: it leaves OFF when its line domain is on (R64, R74). -/
def State.portEnabled (s : State) (n : Nat) : State := if s.up .port n && s.link n == 0 then s.portLeaveOff n else s

/-- PRT_MODE: a write of ENABLE = 0 takes the port to OFF from any state, ENABLE 0 → 1 out of OFF (R74); DEDUCED: a changed
loopback of a running port takes it through OFF. -/
def State.portHook (s : State) (n old : Nat) : State :=
  let new := (s.rd (PRT_MODE n)).toNat
  if !bit new 0 then s.portToOff n
  else if !bit old 0 then s.portEnabled n
  else if bit new 0 && bits old 16 2 != bits new 16 2 then (s.portToOff n).portEnabled n
  else s

/-- A cable diagnostic starts in OFF or LISTEN, where the resume record goes (R79) and with it a resume that waits for its analog
start; elsewhere it is refused (R90). -/
def State.startDiag (s : State) (n : Nat) : State :=
  if s.link n = 0 ∨ s.link n = 1 then
    ((((s.dropRecord n).set (PRT_DIAG_STATUS n) 1).setLink n 7).putMdi n true).prtSet n fun p =>
      { p with diagFrom := s.link n, analog := false }
  else s.set (PRT_DIAG_STATUS n) 3

/-- An MDIO frame of port `n` waits for its bus, or takes it (R72). -/
def State.startMdio (s : State) (n : Nat) : State :=
  let f : MdioFrame := { port := n, op := s.get (PRT_MDIO_CMD_OP n), prtad := s.get (PRT_MDIO_CMD_PRTAD n),
                         devad := s.get (PRT_MDIO_CMD_DEVAD n), data := s.get (PRT_MDIO_CMD_DATA n) }
  let s1 := s.set (PRT_MDIO_STATUS_BUSY n) 1
  match SMap.find s.mdioBus (n / 4) with
  | none => s1.mdioTake f
  | some _ => { s1 with mdioQueue := s1.mdioQueue ++ [f] }

/-! ### Frame store, recorder, DRAM (R99, R100, R157, R164) -/

/-- FST_CTRL.RUN 0 → 1: an illegal carve is refused (R99, R100). -/
def State.fstHook (s : State) (old : Nat) : State :=
  if bit old 0 || !s.on FST_CTRL_RUN then s
  else if s.get FST_CARVE_P0_GRAN + s.get FST_CARVE_P1_GRAN + s.get FST_CARVE_P2_GRAN > 511 then
    (s.set FST_CTRL_RUN 0).set FST_STATUS_CARVE_ERR 1
  else s.fstStart

/-- The recorder enters RECORDING at page 0 (R157). DESIGN CHOICE (log 117): TRIG_SRC clears here; the spec does not say when. -/
def State.recStart (s : State) : State :=
  let s1 := ((s.set REC_HEAD_PAGE 0).set REC_OLDEST_PAGE 0).set REC_STATUS_WRAPPED 0
  let s2 := (s1.set REC_STATUS_TRIG_SRC 0).set REC_STATUS_STATE 1
  { s2 with dram := { s2.dram with open_ := false, records := 0, used := 64, dropped := 0, seq := 0, post := 0, sessions := [] } }

/-- The recorder goes to OFF: the open page closes as the last (R157, R160). -/
def State.recStop (s : State) : State := (if s.dram.open_ then s.writePage false true else s).set REC_STATUS_STATE 0

/-- REC_CTRL.ENABLE; a region that does not fit in what DRAM has in service refuses it (R156, REC_STATUS.CFG_ERR). -/
def State.recHook (s : State) (old : Nat) : State :=
  let en := s.on REC_CTRL_ENABLE
  if bit old 0 && !en then s.recStop
  else if !bit old 0 && en then
    (if s.dramReady && s.regionFits then s.recStart else (s.set REC_CTRL_ENABLE 0).set REC_STATUS_CFG_ERR 1)
  else s

/-- REC_DRAM_CFG.ENABLE 0 → 1 begins the training, in which DRAM loses what it held; DEDUCED: ENABLE = 0 ends its service
(R164). -/
def State.dramHook (s : State) (old : Nat) : State :=
  let en := s.on REC_DRAM_CFG_ENABLE
  if bit old 0 == en then s
  else (if en then s.dramForgets else s).clearWord REC_DRAM_STATUS

/-! ### Time (R257–R282) -/

/-- What follows a change of a domain's time or state. -/
def State.timeSettled (s : State) : State := s.cutAll.showFabric

/-- A set of a domain's time, in the tick after the write (R261); DEDUCED: gates and Catch outputs follow it as they follow a step. -/
def State.setTime (s : State) (d : Nat) : State :=
  let t := (s.get (TIM_SET_SEC_SEC d) * 10 ^ 9 + s.get (TIM_SET_NS_NS d)) * 2 ^ 28
  let s1 := (s.tick.inPlace d 3).tset fun u => { u with now := SMap.put u.now 0 d t, carry := SMap.put u.carry 0 d 0 }
  ((((s1.gatesFollow d).each ((List.range 16).filter fun c => s1.on (TIM_CATCH_CFG_ARM c) && s1.get (TIM_CATCH_CFG_DOMAIN c) == d)
    fun u c => u.catchFollow c).enterSw d).timeSettled).swapDue

/-- An accepted TIM_INCR write: in SW the average follows (R266). -/
def State.incrHook (s : State) (d : Nat) : State :=
  if s.domState d = 2 then
    let avg : Int := (s.rd (TIM_INCR_AVG d)).toNat
    let diff : Int := ((s.rd (TIM_INCR d)).toNat : Int) - avg
    (s.inPlace d 6).wr (TIM_INCR_AVG d)
      (BitVec.ofNat 32 (avg + diff.tdiv (2 ^ s.get (TIM_SERVO_CFG_AVG_LOG d))).toNat)
  else s

/-- An accepted TIM_SLEW write (R262, R264). -/
def State.slewHook (s : State) (d act : Nat) : State :=
  let v := sext 32 act
  if !s.domEn d then s
  else if s.domState d = 2 then
    let r := s.jumpJudge d v
    (if r.2 then r.1.setSlew d (v * slewUnit) else r.1).timeSettled
  else s.setSlew d (v * slewUnit)

/-- An accepted write of TIM_STEP: the lower word is kept, the upper word applies the step in the next tick (R263, R264). -/
def State.stepHook (s : State) (d w act : Nat) : State :=
  if w = 0 then s.wr (TIM_STEP d) (BitVec.ofNat 32 act)
  else
    let v := sext 64 (act * 2 ^ 32 + (s.rd (TIM_STEP d)).toNat)
    if !s.domEn d then s
    else if s.domState d = 2 then
      let r := s.jumpJudge d v
      ((if r.2 then (r.1.tick.inPlace d 3).stepBy d v else r.1).timeSettled).swapDue
    else (((s.tick.inPlace d 3).stepBy d v).timeSettled).swapDue

/-- Takeback (R269). -/
def State.takeBack (s : State) (d : Nat) : State :=
  ((((s.inPlace d 5).dropSlew d).noPulses d).emit 0x0602 d 0).enterSw d

/-- TIM_SERVO_CTRL: takeover, then takeback, in a tick that follows what the queue held before (R267, R269, R270). -/
def State.servoHook (s : State) (d act : Nat) : State :=
  let s0 := if act % 4 = 0 then s else s.tick
  let s1 := if bit act 0 then s0.takeover d 3 else s0
  (if bit act 1 then s1.takeBack d else s1).timeSettled

/-- TIM_DOM_CFG.EN (R257). -/
def State.domHook (s : State) (d old : Nat) : State :=
  let en := s.domEn d
  if !bit old 0 && en then (s.domainStarts d).timeSettled
  else if bit old 0 && !en then (s.domainStops d).timeSettled
  else s

/-- TIM_SNAP_CTRL.CAPTURE: every enabled domain in one tick (R291). -/
def State.snapshot (s : State) : State :=
  (s.each ((List.range 4).filter s.domEn) fun t d =>
    (t.set (TIM_SNAP_SEC_SEC d) (t.domNs d / 10 ^ 9)).set (TIM_SNAP_NS_NS d) (t.domNs d % 10 ^ 9)).set TIM_SNAP_CTRL_DONE 1

/-- The limits of a Catch (R278). -/
def State.catchLimits (s : State) (c : Nat) : Bool :=
  let p := s.get (TIM_CATCH_PERIOD_PERIOD c)
  p == 0 || s.get (TIM_CATCH_WIDTH_WIDTH c) + 8 ≤ p

/-- TIM_CATCH_CFG: arming and disarming, and the pin (R279, R280). -/
def State.catchHook (s : State) (c old : Nat) : State :=
  let arm := s.on (TIM_CATCH_CFG_ARM c)
  let s1 := if s.on (TIM_CATCH_CFG_EN c) then s
    else (s.set (TIM_CATCH_STATUS_ACTIVE c) 0).tset fun t => { t with catchPulse := SMap.put t.catchPulse false c false }
  let s2 := if !bit old 1 && arm then
      (if s1.catchLimits c then s1.catchSeek c (s1.domNs (s1.get (TIM_CATCH_CFG_DOMAIN c)) + 1000)
       else (s1.set (TIM_CATCH_STATUS_CFG_ERR c) 1).set (TIM_CATCH_CFG_ARM c) 0)
    else if bit old 1 && !arm then s1.tset fun t => { t with catchNext := SMap.erase t.catchNext c }
    else s1
  s2.catchPin c

/-- TIM_BUOY_POP: the head leaves (R282). -/
def State.buoyPop (s : State) (b : Nat) : State :=
  (s.tset fun t => { t with buoyFifo := SMap.put t.buoyFifo [] b ((SMap.get t.buoyFifo [] b).drop 1) }).showBuoy b

/-- Registers of the Time island. -/
def State.timeHook (s : State) (r : Reg) (d w old act : Nat) : State :=
  match r with
  | .TIM_DOM_CFG => s.domHook d old
  | .TIM_INCR => s.incrHook d
  | .TIM_SLEW => s.slewHook d act
  | .TIM_STEP => s.stepHook d w act
  | .TIM_SET_NS => if bit act 31 && s.domEn d then s.setTime d else s
  | .TIM_SERVO_CTRL => s.servoHook d act
  | .TIM_SNAP_CTRL => if bit act 0 then s.snapshot else s
  | .TIM_CATCH_CFG => s.catchHook d old
  | .TIM_BUOY_POP => if bit act 0 then s.buoyPop d else s
  | _ => s

/-! ### Edge (R294, R295, R298, R299, R313) -/

/-- Bus-off recovery starts (R294, R295). -/
def State.canRecover (s : State) (c : Nat) : State :=
  if s.canState c = 4 then (s.set (EDG_CAN_STATUS_STATE c) 1).canPut c fun x => { x with recovering := true } else s

/-- EDG_CAN_CTRL: ENABLE and RECOVER. -/
def State.canHook (s : State) (c old act : Nat) : State :=
  let en := s.on (EDG_CAN_CTRL_ENABLE c)
  let s1 := if !bit old 0 && en then s.canGo c
    else if bit old 0 && !en then
      (((s.set (EDG_CAN_STATUS_STATE c) 0).set (EDG_CAN_STATUS_TEC c) 0).set (EDG_CAN_STATUS_REC c) 0).canPut c fun x =>
        { x with txErr := 0, rxErr := 0, sending := none, recovering := false }
    else s
  if bit act 4 then s1.canRecover c else s1

/-- A LIN channel that runs a schedule: enabled commander with RUN = 1. -/
def linRuns (v : Nat) : Bool := bit v 0 && !bit v 1 && bit v 2

/-- A LIN channel drives its bus, where its bank drives (R507). -/
def State.linDrive (s : State) (x : LinOut) : State :=
  if s.bankDrives 11 then s.eset fun e => { e with linOut := e.linOut ++ [x] } else s

/-- EDG_LIN_CTRL: RUN 0 → 1 starts at slot 0 of TABLE, WAKE sends the wake-up signal (R298, R299). -/
def State.linHook (s : State) (l old act : Nat) : State :=
  let new := (s.rd (EDG_LIN_CTRL l)).toNat
  let s1 := if !linRuns old && linRuns new then
      ((s.set (EDG_LIN_SCHED_SLOT l) 0).set (EDG_LIN_SCHED_ACTIVE l) (s.get (EDG_LIN_SCHED_TABLE l))).linSet l fun x =>
        { x with next := 0, running := true, wait := none }
    else if bit new 0 then s else s.linSet l fun _ => {}
  let s2 := s1.linShow l
  if bit act 3 && s2.rigReady && bit new 0 && !bit new 1 then s2.linDrive { channel := l, pid := none, header := false, resp := [] } else s2

/-- Registers of the Edge island. -/
def State.edgeHook (s : State) (r : Reg) (c old act : Nat) : State :=
  match r with
  | .EDG_CAN_CTRL => s.canHook c old act
  | .EDG_LIN_CTRL => s.linHook c old act
  | .RIG_CFG => if !bit old 0 && s.on RIG_CFG_ENABLE then s.eset fun e => { e with tick := 0 } else s
  | .RIG_ERR_LOC => if bit act 31 then s.clearWord RIG_ERR_LOC else s
  | .RIG_IMG => if !bit old 31 && s.on RIG_IMG_EN then s.startImage .rig else s
  | _ => s

/-! ### HFP (R335, R338–R340) -/

/-- HFP_CFG.EN. -/
def State.hfpHook (s : State) (old : Nat) : State :=
  if bit old 5 && !s.on HFP_CFG_EN then s.hfpStop else s.showFabric

/-- Ports that leave HFP_PORTS lose their adjacency. -/
def State.hfpPortsHook (s : State) (w old : Nat) : State :=
  s.each ((List.range 32).filter fun b => bit old b && !bit (s.get (HFP_PORTS_PORTS w)) b) fun t b => t.adjPortDown (32 * w + b)

/-- A cost that changes on a FULL adjacency changes the own LSA and the routes (R339, R340). -/
def State.adjHook (s : State) (n old : Nat) : State :=
  if bits old 16 16 ≠ s.get (HFP_ADJ_COST n) ∧ s.adjState n = 3 then s.floodOwn.computeRoutes else s

/-! ### Host interface (R367, R370, R371, R382) -/

/-- The ring of a CFG register. -/
def ringOf (r : Reg) (k : Nat) : Option Ring :=
  match r with
  | .HIF_CMD_CFG => some .cmd
  | .HIF_EVT_CFG => some .evt
  | .HIF_TX_CFG => some (.tx (Fin.ofNat 16 k))
  | .HIF_RX_CFG => some (.rx (Fin.ofNat 16 k))
  | _ => none

/-- Registers of the host interface. -/
def State.hostHook (s : State) (r : Reg) (k old act : Nat) : State :=
  match ringOf r k with
  | some g => (if !bit old 0 && s.on (ringEn g) then s.ringZero g else s).flushHeld
  | none =>
    match r with
    | .HIF_CTRL => (if !bit old 0 && s.on HIF_CTRL_ENABLE then s.statusZero else s).flushHeld
    | .HIF_KICK => if bit act 0 then s.kick else s
    | .HIF_RWIN => if bit act 24 then s.set HIF_RWIN_LAST_STATUS 0 else s
    | _ => s

/-! ### Cox, AON, the logbook (R398, R400, R410, R457, R462, R464, R496, R497, R501) -/

/-- The GLB_FAULT bit of a monitor's code. -/
def causeBit (code : Nat) : Nat := if code < 0x30 then 4 else if code < 0x50 then 5 else 6

/-- GLB_FAULT: bits 0 and 1 keep while the reaction runs. A bit whose cause is still present sets again in the cycle after the
write cleared it, which is one more change from 0 to 1 (GLB_FAULT, R159). -/
def State.faultHook (s : State) (old : Nat) : State :=
  let lock := if s.cox.faultLocked then 3 else 0
  let again := old &&& maskOf (s.cox.present.map causeBit) &&& ((s.rd GLB_FAULT).toNat ^^^ 0xFFFFFFFF)
  let s1 := s.wr GLB_FAULT (s.rd GLB_FAULT ||| BitVec.ofNat 32 ((old &&& lock) ||| again))
  if again = 0 then s1 else s1.recFaultTrigger.faultInEntry

/-- Bits of PWR_ACTIVE or PWR_FEATHER that must be on read 1; the present state's domains follow (R462). -/
def State.domainsHook (s : State) (a : Nat) (must : List Nat) (st : Nat) : State :=
  let s1 := s.wr a (s.rd a ||| BitVec.ofNat 32 (maskOf must))
  if (if s1.power = 3 then s1.pwr.entryFrom else s1.power) = st then s1.domainsFollow else s1

/-- PWR_CTRL: STAY stops the false-wake timer, REQ asks for a power state; a value that is none would be BAD_ARG as a
TARGET (R464, R481). -/
def State.pwrHook (s : State) (v act bad : Nat) : State :=
  let s1 := if bit act 8 then s.stopIdle else s
  let req := bits v 0 3
  if req = 0 then s1
  else if req ≠ 1 ∧ req ≠ 2 ∧ req ≠ 5 then s1.set PWR_REQ_STATUS_STATUS 3
  else if bit bad 0 then s1.set PWR_REQ_STATUS_STATUS 4
  else ((s1.set PWR_REQ_STATUS_STATUS 0).powerRequest (req - 1)).settleSwitch

/-- Registers of AON and Cox. -/
def State.safetyHook (s : State) (r : Reg) (i old v act bad : Nat) : State :=
  match r with
  | .GLB_ACCESS_ERR => if bit act 0 then (s.clearWord GLB_ACCESS_ERR).clearWord GLB_ACCESS_ADDR else s
  | .GLB_FAULT => s.faultHook old
  | .COX_FAULT_INFO => if bit act 31 then (s.clearWord COX_FAULT_INFO).clearWord (COX_FAULT_INFO + 4) else s
  | .COX_CTRL => if bit act 0 then s.set COX_STATUS_FROZEN 0 else s
  | .INJ_CTRL => if s.on INJ_CTRL_EN then s else s.disarmAll
  | .INJ_ARM => if bit act 31 then s.injActNow i else s
  | .UPD_HEALTH => if bad = 0 then s.healthConfirm.updDramOff else s
  | .PWR_CTRL => s.pwrHook v act bad
  | .PWR_CFG => s.domainsFollow
  | .PWR_ACTIVE => s.domainsHook PWR_ACTIVE activeMust 0
  | .PWR_FEATHER => s.domainsHook PWR_FEATHER featherMust 1
  | .RST_START => if bit act 0 then s.startOk else s
  | .OPT_PROG => if bit act 0 then s.pwRequest s.optProgramWrites else if bit bad 0 then s.set OPT_STATUS_PROG_ERR 1 else s
  | .LOG_WORD => if bad = 0 then s.logWordWrite i v else s.set LOG_STATUS_DROPPED 1
  | _ => s

/-! ### Everything else -/

/-- FWD_AGE: a changed AGE_TIME, or AGE_EN 0 → 1, restarts the ageing period (R141). -/
def State.ageHook (s : State) (old : Nat) : State :=
  if bits old 0 16 ≠ s.get FWD_AGE_AGE_TIME ∨ (!bit old 31 && s.on FWD_AGE_AGE_EN) then s.fset fun f => { f with ageTick := s.refTicks } else s

/-- Registers of ports, Fabric, Umpire, recorder and Key. -/
def State.fabricHook (s : State) (r : Reg) (n old act : Nat) : State :=
  match r with
  | .PRT_MODE => s.portHook n old
  | .PRT_DIAG => if bit act 0 then s.startDiag n else s
  | .PRT_MDIO_CMD => if bit act 31 then s.startMdio n else s
  | .FWD_AGE => s.ageHook old
  | .FST_CTRL => s.fstHook old
  | .FST_ERR_LOC => if bit act 31 then s.clearWord FST_ERR_LOC else s
  | .REC_ERR_LOC => if bit act 31 then s.clearWord REC_ERR_LOC else s
  | .REC_CTRL => s.recHook old
  | .REC_DRAM_CFG => s.dramHook old
  | .UMP_IMG => if !bit old 31 && s.on UMP_IMG_EN then s.startImage .ump else s
  | .KEY_IMG => if !bit old 31 && s.on KEY_IMG_EN then s.startImage .key else s
  | .LNE_CNT_CLEAR => if bit act 1 then s.clearObs else s
  | .GTE_HOLD => s.cutSending n
  | .HFP_CFG => s.hfpHook old
  | .HFP_PORTS => s.hfpPortsHook n old
  | .HFP_ADJ => s.adjHook n old
  | _ => s

/-- What a write of register `r`, index `i`, word `w` brings about. -/
def State.regHook (s : State) (r : Reg) (i w old v : Nat) (t : Taken) : State :=
  let s1 := match cntBlockOf r i with
    | some b => if bit t.act 0 then s.clearCounters b else s
    | none => s
  let st := if faultMask t.faults = whole then s1 else s1.timeHook r i w old t.act
  let s2 := (st.edgeHook r i old t.act).hostHook r i old t.act
  (s2.safetyHook r i old v t.act (faultMask t.faults)).fabricHook r i old t.act

end Sys2Proof.Machine
end

