-- ==== Sys2Proof/Machine/SetupBus.lean ====
section
/-! DEFINITION. The set-up bus (R10–R14, R31, R36–R38, R94, R95, R365, R529, R530): the one write and the one read of a local
address that every access goes through. -/
namespace Sys2Proof.Machine

/-! ### Writes -/

/-- The MSI-X table and the PBA (R365): word `k` of an area of the Host island. -/
def msixAt (a : Nat) : Option (Bool × Nat) :=
  if 0x3F0000 ≤ a && a < 0x3F0200 then some (true, (a - 0x3F0000) / 4)
  else if 0x3F8000 ≤ a && a < 0x3F8008 then some (false, (a - 0x3F8000) / 4)
  else none

/-- The pending vectors that nothing masks any more are sent, in rising order (R385). -/
def State.msixRelease (s : State) : State :=
  if !s.hif.pci.msixOn then s
  else s.each ((List.range 32).filter fun v => bit s.hif.msixPba v && !s.msixMasked v) fun t v =>
    { t with hif := { t.hif with msixPba := setBits t.hif.msixPba v 1 0 } }.sendVector v

/-- A write to the MSI-X area in the standard PCIe layout: unmasking a pending vector sends it; the PBA ignores writes. -/
def State.msixWrite (s : State) (table : Bool) (k : Nat) (v : Word) : State :=
  if !table then s
  else
    let x := if k % 4 = 3 then v &&& 1 else v
    { s with hif := { s.hif with msixTab := SMap.put s.hif.msixTab (if k % 4 = 3 then 1 else 0) k x } }.msixRelease

/-- Words 0x80–0x90 of the PCI Express capability: FLR and a max payload of 512 octets, 16 GT/s ×4 with ASPM L1, and the link that
HIF_STATUS shows (R364). -/
def State.cfgExpress (s : State) (o : Nat) : Word :=
  let p := s.hif.pci
  match o with
  | 0x80 => 0x00020010
  | 0x84 => 0x10008002
  | 0x88 => BitVec.ofNat 32 (p.maxPayload * 2 ^ 5 + p.maxRead * 2 ^ 12)
  | 0x8C => 0x844
  | _ => BitVec.ofNat 32 ((if p.aspmL1 then 2 else 0) + s.get HIF_STATUS_SPEED * 2 ^ 16 + s.get HIF_STATUS_WIDTH * 2 ^ 20)

/-- A read of the configuration space (R364, R365). PRESUMED (log 132): the offsets and layouts, as of a PCIe function with power
management at 0x40, MSI-X at 0x70, PCI Express at 0x80 and AER at 0x100, and a revision of 0; the other words read 0. A BAR is 64-bit and
not prefetchable, and its size of 64 MiB leaves bits 25:4 at 0. -/
def State.cfgRead (s : State) (o : Nat) : Word :=
  let p := s.hif.pci
  let b := fun (x : Bool) (k : Nat) => if x then 2 ^ k else 0
  match o / 4 * 4 with
  | 0x00 => BitVec.ofNat 32 (s.get GLB_ID_VENDOR + s.get GLB_ID_DEVICE * 2 ^ 16)
  | 0x04 => BitVec.ofNat 32 (b p.memOn 1 + b p.busMaster 2 + 2 ^ 20)
  | 0x08 => 0x02800000
  | 0x10 => BitVec.ofNat 32 (p.bar0 + 4)
  | 0x14 => BitVec.ofNat 32 (p.bar0 / 2 ^ 32)
  | 0x18 => BitVec.ofNat 32 (p.bar2 + 4)
  | 0x1C => BitVec.ofNat 32 (p.bar2 / 2 ^ 32)
  | 0x34 => 0x40
  | 0x40 => 0x7001
  | 0x44 => BitVec.ofNat 32 (b p.d3hot 0 + b p.d3hot 1 + 2 ^ 3)
  | 0x70 => BitVec.ofNat 32 (0x8011 + 31 * 2 ^ 16 + b p.msixMask 30 + b p.msixOn 31)
  | 0x74 => 0x3F0000
  | 0x78 => 0x3F8000
  | 0x100 => 0x00020001
  | 0x104 => p.aerUncorr
  | 0x110 => p.aerCorr
  | k => if 0x80 ≤ k ∧ k ≤ 0x90 then s.cfgExpress k else 0

/-- A Function Level Reset (R364, R368). DEDUCED: HIF_STATUS shows the link, which an FLR leaves as it is. -/
def State.flr (s : State) : State := (s.clearIsland .host 0).pcieLink s.linkNow

/-- A write of Device Control: max payload and max read request where they are supported, and Initiate FLR. -/
def State.cfgDevControl (s : State) (x : Nat) : State :=
  let s1 := s.pciSet fun p => { p with maxPayload := if bits x 5 3 ≤ 2 then bits x 5 3 else p.maxPayload,
                                       maxRead := if bits x 12 3 ≤ 5 then bits x 12 3 else p.maxRead }
  if bit x 15 then s1.flr else s1

/-- The half of a BAR that a write leaves: bits 63:26 of the base. -/
def barWrite (old : Nat) (high : Bool) (x : Nat) : Nat :=
  if high then old % 2 ^ 32 + x * 2 ^ 32 else old / 2 ^ 32 * 2 ^ 32 + x / 2 ^ 26 * 2 ^ 26

/-- A write of the configuration space: Memory Space and Bus Master Enable, the BARs, D0 or D3hot, MSI-X Enable and Function Mask,
Device Control, ASPM L1, and 1s that clear AER bits; what falls due unmasked is sent (R364, R365, R385). -/
def State.cfgWrite (s : State) (o : Nat) (v : Word) : State :=
  let x := v.toNat
  match o / 4 * 4 with
  | 0x04 => (s.pciSet fun p => { p with memOn := bit x 1, busMaster := bit x 2 }).msixRelease
  | 0x10 => s.pciSet fun p => { p with bar0 := barWrite p.bar0 false x }
  | 0x14 => s.pciSet fun p => { p with bar0 := barWrite p.bar0 true x }
  | 0x18 => s.pciSet fun p => { p with bar2 := barWrite p.bar2 false x }
  | 0x1C => s.pciSet fun p => { p with bar2 := barWrite p.bar2 true x }
  | 0x44 => (s.pciSet fun p => { p with d3hot := if bits x 0 2 = 3 then true else if bits x 0 2 = 0 then false else p.d3hot }).msixRelease
  | 0x70 => (s.pciSet fun p => { p with msixOn := bit x 31, msixMask := bit x 30 }).msixRelease
  | 0x88 => s.cfgDevControl x
  | 0x90 => s.pciSet fun p => { p with aspmL1 := bit x 1 }
  | 0x104 => s.pciSet fun p => { p with aerUncorr := p.aerUncorr &&& ~~~v }
  | 0x110 => s.pciSet fun p => { p with aerCorr := p.aerCorr &&& ~~~v }
  | _ => s

/-- A faulty access of an island that does not answer: the cause of R31. -/
def State.wrapperCause (s : State) (i : Island) (n : Nat) : Nat := if s.pdOn (domainOf i n) then 7 else 5

/-- A write of a word that a register holds: stored, acted on, recorded once (R10, R11, R530). -/
def State.regPut (s : State) (who : Initiator) (a : Nat) (d : RegDef) (i j w : Nat) (v : Word) : State :=
  let old := (s.rd a).toNat
  let t := s.takeWrite who d i j w old v.toNat
  let s1 := (s.wr a (BitVec.ofNat 32 t.stored)).regHook d.reg i w old v.toNat t
  let s2 := match worstCause t.faults with
    | some c => s1.accessErr who true a c
    | none => s1
  s.holdFaultN s2

/-- A write to local address `a` (R31, R36, R38, R95). DESIGN CHOICE (log 84): an address inside a listed range at which no register
lies has cause 4, like one outside every range, of which alone R36 speaks; so has a read of it. -/
def State.localWrite (s : State) (who : Initiator) (a : Nat) (v : Word) : State :=
  match msixAt a with
  | some m => if s.up .host then s.msixWrite m.1 m.2 v else s.accessErr who true a (s.wrapperCause .host 0)
  | none =>
    match regAt a with
    | none => s.accessErr who true a 4
    | some (d, is, w) =>
      let n := is.headD 0
      if !s.up d.island n then s.accessErr who true a (s.wrapperCause d.island n)
      else if !s.applies d.reg n then s.accessErr who true a 0
      else s.regPut who (a / 4 * 4) d n (is.getD 1 0) w v

/-! ### Reads -/

/-- Milliseconds since a tick of the reference. -/
def State.msSince (s : State) (t : Nat) : Nat := (s.refTicks - t) / 500000

/-- The bound that HEAT_BSEL selects: BOUND or BOUND_CHG, with VALID (R252). -/
def State.heatBound (s : State) (chg : Bool) : Nat :=
  match s.fab.heat.bounds.find? fun b => b.decl == s.get HEAT_BSEL_DECL && b.port == s.get HEAT_BSEL_PORT with
  | some b => (if chg then b.chg else b.bound) % 2 ^ 31 + 2 ^ 31
  | none => 0

/-- The slot that KEY_SLOT_SEL selects. -/
def State.shownSlot (s : State) : Nat :=
  let i := s.get KEY_SLOT_SEL_SLOT
  if i ≥ 8 && s.on KEY_SLOT_SEL_STAGED then s.slotTarget i else s.slot i

/-- KEY_SLOT_INFO of a slot. -/
def slotInfo (e : Nat) : Nat :=
  if slotValid e then
    slotType e % 4 + slotUsage e % 8 * 4 + 2 ^ 8 + (if slotExport e then 2 ^ 9 else 0) + ebits e 1 0 8 % 4 * 2 ^ 10
  else 0

/-- UPD_COND. -/
def State.updCond (s : State) : Nat :=
  let b := fun (c : Bool) (k : Nat) => if c then 2 ^ k else 0
  b (s.on WAK_STATUS_STILL) 0 + b s.vbatOk 1 + b (s.on COX_LIFECYCLE_OWNER_LOCK) 2 + b s.updClear 3

/-- What a read of word `w` of register `r`, index `i`, finds there: the word held, or what the register is computed from.
DEDUCED: the lowest FREE since the last read is at most the present FREE. -/
def State.regValue (s : State) (r : Reg) (a i w : Nat) : Nat :=
  let held := (s.rd a).toNat
  let pair := 4 * s.get FST_QSEL_REQ + s.get FST_QSEL_POOL
  match r with
  | .GLB_UID => Config.uid.toNat / 2 ^ (32 * w) % 2 ^ 32
  | .TIM_NOW_NS => s.domNs i % 10 ^ 9
  | .TIM_SHORT => s.short i
  | .FST_QQUOTA => s.quota (pair / 4) (pair % 4)
  | .FST_QUSED => s.quotaUse (pair / 4) (pair % 4)
  | .FST_QPEAK => SMap.get s.fab.quotaPeak 0 pair
  | .FST_POOL_LOW => if s.on FST_STATUS_READY then min held (s.freeCount i) else held
  | .FST_HANDLE_LOW => if s.on FST_STATUS_READY then min held (s.get FST_HANDLE_FREE_FREE) else held
  | .HEAT_BOUND => s.heatBound false
  | .HEAT_BOUND_CHG => s.heatBound true
  | .KEY_SLOT_INFO => slotInfo s.shownSlot
  | .KEY_SLOT_LABEL => if slotValid s.shownSlot then ebits s.shownSlot 8 0 32 else 0
  | .PRT_LINK_STATUS => if s.link i = 5 then setBits held 16 7 (((s.prtOf i).holdEnd - s.refTicks) / 500000) else held
  | .PRT_SQI => if s.isT1 i then held else 0
  | .PRT_PLCA_STATUS => setBits held 8 5 (s.nodesSeen i)
  | .RST_START => if s.on RST_START_START_OPEN then setBits held 16 16 (min (s.msSince s.rst.startTick) 65535) else held
  | .UPD_COND => s.updCond
  | _ => held

/-- Registers whose lower word, when read, latches the upper one (R94, R193). -/
def latches (r : Reg) : Bool :=
  [Reg.PRT_RX_FRAMES, .PRT_RX_OCTETS, .PRT_TX_FRAMES, .PRT_TX_OCTETS, .UMP_CNT_OCT, .UMP_CNT_FRM].contains r

/-- What a read changes: RC fields return to their reset value (R10), latches (R94, TIM_NOW_NS), the peak of FST_QPEAK starts
at the present use. -/
def State.readEffect (s : State) (d : RegDef) (a i w : Nat) : State :=
  let rc := BitVec.ofNat 32 (accMask d w [.rc])
  let s1 := if rc = 0 then s else s.wr a ((s.rd a &&& ~~~rc) ||| (resetWord a &&& rc))
  if d.reg = .TIM_NOW_NS then
    (s1.set (TIM_NOW_FRAC_FRAC i) (s.domTime i / 2 ^ 12 % 65536)).set (TIM_NOW_SEC_SEC i) (s.domNs i / 10 ^ 9)
  else if d.reg = .FST_QPEAK then
    let pair := 4 * s.get FST_QSEL_REQ + s.get FST_QSEL_POOL
    s1.fset fun f => { f with quotaPeak := SMap.put f.quotaPeak 0 pair (s.quotaUse (pair / 4) (pair % 4)) }
  else if latches d.reg then
    { s1 with latch := if w = 0 then SMap.insert s1.latch (a + 4) (s1.rd (a + 4)) else SMap.erase s1.latch a }
  else s1

/-- A read of a word that a register holds: the value and the state it leaves. -/
def State.regGet (s : State) (a : Nat) (d : RegDef) (i w : Nat) : Word × State :=
  let v := match SMap.find s.latch a with
    | some x => if latches d.reg && w = 1 then x.toNat else s.regValue d.reg a i w
    | none => s.regValue d.reg a i w
  (BitVec.ofNat 32 (v &&& (whole - accMask d w [.wo])), s.readEffect d a i w)

/-- A read of local address `a`: its value, 0 where the access is faulty (R31, R36, R95). -/
def State.localRead (s : State) (who : Initiator) (a : Nat) : Word × State :=
  match msixAt a with
  | some (t, k) =>
    if !s.up .host then (0, s.accessErr who false a (s.wrapperCause .host 0))
    else (if t then s.msixWord (k / 4) (k % 4) else BitVec.ofNat 32 (s.hif.msixPba / 2 ^ (32 * k)), s)
  | none =>
    match regAt a with
    | none => (0, s.accessErr who false a 4)
    | some (d, is, w) =>
      let n := is.headD 0
      if !s.up d.island n then (0, s.accessErr who false a (s.wrapperCause d.island n))
      else if !s.applies d.reg n then (0, s)
      else s.regGet (a / 4 * 4) d n w

end Sys2Proof.Machine
end

