-- ==== Sys2Proof/Machine/BusOps.lean ====
section
/-! DEFINITION. The set-up bus under the bridge (R344, R347, R349–R352): requests of peers, the holding of the bus for a
locked sequence, and what waits meanwhile. -/
namespace Sys2Proof.Machine

/-! ### Causes (R347) -/

/-- The GLB_ACCESS_ERR cause that a write of local address `a` meets, if any: what `localWrite` records. -/
def State.writeCause (s : State) (who : Initiator) (a : Nat) (v : Word) : Option Nat :=
  match msixAt a with
  | some _ => if s.up .host then none else some (s.wrapperCause .host 0)
  | none =>
    match regAt a with
    | none => some 4
    | some (d, is, w) =>
      let n := is.headD 0
      if !s.up d.island n then some (s.wrapperCause d.island n)
      else if !s.applies d.reg n then some 0
      else worstCause (s.takeWrite who d n (is.getD 1 0) w (s.rd (a / 4 * 4)).toNat v.toNat).faults

/-- The cause that a read of local address `a` meets, but for those of R31, whose data a peer gets (R343, R347). -/
def readCause (a : Nat) : Option Nat :=
  match msixAt a with
  | some _ => none
  | none => match regAt a with
    | none => some 4
    | some _ => none

/-- Words written in address order, with the first cause met. -/
def State.busWrite (s : State) (who : Initiator) (a : Nat) : List Word → State × Option Nat
  | [] => (s, none)
  | v :: l =>
    let c := s.writeCause who a v
    let r := (s.localWrite who a v).busWrite who (a + 4) l
    (r.1, c.or r.2)

/-- `n` words read in address order, with the first cause met. -/
def State.busRead (s : State) (who : Initiator) (a : Nat) : Nat → State × List Word × Option Nat
  | 0 => (s, [], none)
  | n + 1 =>
    let x := s.localRead who a
    let r := x.2.busRead who (a + 4) n
    (r.1, x.1 :: r.2.1, (readCause a).or r.2.2)

/-- Words in the order of HFP data: most significant octet first (R333). -/
def wordBytes (l : List Word) : List Byte := l.flatMap fun w => beBytes 4 w.toNat

/-! ### Requests of a peer (R344, R347, R352) -/

/-- A LATE_ERR of the target for one posted write (R352). -/
def State.sendLate (s : State) (m : HfpMsg) (cause : Nat) : State :=
  s.sendHfp (s.hfpMsg 9 m.src.val m.cls.val 0 m.tag.toNat
    (beBytes 1 cause ++ [0, 0, 0] ++ m.body.take 4 ++ beBytes 4 m.seq.toNat ++ beBytes 4 m.seq.toNat))

/-- A peer may write and send commands (HFP_ACL, R347); in Boathouse none may write (R336). -/
def State.peerMay (s : State) (f : Nat) : Bool := bit (s.get HFP_ACL_PEERS) f

/-- A write of a peer: its words, or its refusal; a posted one tells a cause by LATE_ERR, a non-posted one by its CPL. -/
def State.peerWrite (s : State) (m : HfpMsg) (a n : Nat) : State :=
  let np := m.typ == 4
  let far := fun (t : State) c => if np then t.sendCpl m.src m.cls m.tag (if c = 10 then 9 else 3) [] else t.sendLate m c
  if s.power = 2 || !s.peerMay m.src.val then far s 10
  else if a ≥ 2 ^ 26 then far (s.accessErr (.hfp m.src) true (a % 2 ^ 26) 6) 6
  else
    let r := s.busWrite (.hfp m.src) a (wordsOf (m.body.drop 8) n)
    match r.2 with
    | some c => far r.1 c
    | none => if np then r.1.sendCpl m.src m.cls m.tag 0 [] else r.1

/-- A read of a peer: OK with its data, or BAD_ARG. -/
def State.peerRead (s : State) (m : HfpMsg) (a n : Nat) : State :=
  if a ≥ 2 ^ 26 then (s.accessErr (.hfp m.src) false (a % 2 ^ 26) 6).sendCpl m.src m.cls m.tag 3 []
  else
    let r := s.busRead (.hfp m.src) a n
    match r.2.2 with
    | some _ => r.1.sendCpl m.src m.cls m.tag 3 []
    | none => r.1.sendCpl m.src m.cls m.tag 0 (wordBytes r.2.1)

/-- A request of a peer is carried out on the set-up bus (R347). -/
def State.peerRequest (s : State) (m : HfpMsg) : State :=
  let a := beAt m.body 0 4
  let n := beAt m.body 4 2 / 4
  if m.typ = 5 then s.peerRead m a n else s.peerWrite m a n

/-! ### Holding the bus (R349–R351) -/

/-- Where a locked sequence stands: the words read so far, whether a compare has failed, the places skipped and failed, and
the first cause that an access met. -/
structure LockRun where
  words : List Nat := []
  stop : Bool := false
  skipped : List Bool := []
  failed : List Bool := []
  cause : Option Nat := none
  deriving DecidableEq, Repr

/-- The word of an operation is known: a compare that finds another word than DATA stops what follows (R349). -/
def LockRun.note (r : LockRun) (o : LockOp) (w : Nat) : LockRun :=
  let bad := o.kind == 2 && w != o.data
  { r with words := r.words ++ [if o.kind = 1 then 0 else w], stop := r.stop || bad, skipped := r.skipped ++ [false], failed := r.failed ++ [bad] }

/-- An operation is skipped. -/
def LockRun.skip (r : LockRun) : LockRun :=
  { r with words := r.words ++ [0], skipped := r.skipped ++ [true], failed := r.failed ++ [false] }

/-- One operation on this device's bus. -/
def State.lockOp (s : State) (who : Initiator) (r : LockRun) (o : LockOp) : State × LockRun :=
  if r.stop || r.cause.isSome then (s, r.skip)
  else if o.kind = 1 then
    let v := BitVec.ofNat 32 o.data
    let c := s.writeCause who o.addr v
    (s.localWrite who o.addr v, { r.note o 0 with cause := c })
  else
    let x := s.localRead who o.addr
    (x.2, { r.note o x.1.toNat with cause := readCause o.addr })

/-- Operations on this device's bus, in order. -/
def State.lockOps (s : State) (who : Initiator) (l : List LockOp) : State × LockRun :=
  l.foldl (fun x o => x.1.lockOp who x.2 o) (s, {})

/-- An operation word of a LOCK_REQ (R349). -/
def lockOpOf (w data : Nat) : LockOp := { addr := w % 2 ^ 26, far := bit w 26, kind := bits w 28 2, data := data }

/-- The operations of a LOCK_REQ body. -/
def lockBody (b : List Byte) : List LockOp :=
  (List.range (min 4 (beAt b 0 1))).map fun k => lockOpOf (beAt b (8 + 8 * k) 4) (beAt b (12 + 8 * k) 4)

/-- LOCK_NAK with a reason (R333, R351). -/
def State.sendNak (s : State) (m : HfpMsg) (reason : Nat) : State :=
  s.sendHfp (s.hfpMsg 0x0B m.src.val m.cls.val 0 m.tag.toNat (beBytes 1 reason))

/-- The bus is held for a peer, its operations run, and their words go back (R350 step 2); a peer that may not write gets
LOCKED. When LOCK_MAX passes after `cut` operations, the bus is released, those operations stand and the others are skipped, and
the sequence completes with REMOTE_FAIL (R350). -/
def State.lockServe (s : State) (m : HfpMsg) (cut : Option Nat := none) : State :=
  if !s.peerMay m.src.val then s.sendCpl m.src m.cls m.tag 9 []
  else
    let s1 := (s.set HFP_LOCK_STATUS_FAR_HELD 1).set HFP_LOCK_STATUS_HOLDER m.src.val
    let ops := lockBody m.body
    let reached := cut.getD ops.length
    let r := s1.lockOps (.hfp m.src) (ops.take reached)
    if reached < ops.length then
      ((r.1.set HFP_LOCK_STATUS_FAR_HELD 0).set HFP_LOCK_STATUS_HOLDER 0).sendCpl m.src m.cls m.tag 12 []
    else if r.2.cause.isSome then r.1.sendCpl m.src m.cls m.tag 3 []
    else r.1.sendCpl m.src m.cls m.tag 0 (r.2.words.flatMap (beBytes 4))

/-- Word `k` of a TLP is one whose byte enables are not all set: the first or the last of a write (R366). -/
def beCut (req : RemReq) (k : Nat) : Bool :=
  req.write && ((k == 0 && !req.firstBe) || (k != 0 && k + 1 == req.words.length && !req.lastBe))

/-- The words of a TLP at local address `a`, one at a time in address order (R366): one past the end of the space is unmapped (R36), one
with cut byte enables is ignored and recorded. A read of several words keeps them all. -/
def State.spanRun (s : State) (who : Initiator) (a : Nat) (req : RemReq) : State :=
  let n := req.words.length
  let r := (List.range n).foldl (fun (x : State × List Word) k =>
    if beCut req k && a + 4 * k < 2 ^ 26 then (x.1.accessErr who true (a + 4 * k) 2, x.2)
    else if req.write then (x.1.localWrite who (a + 4 * k) (req.words.getD k 0), x.2)
    else
      let y := x.1.localRead who (a + 4 * k)
      (y.2, x.2 ++ [y.1])) (s, [])
  if req.write then r.1
  else
    let t := { r.1 with readData := r.2.headD 0 }
    if n = 1 then t else t.bset fun b => { b with results := b.results ++ [⟨who.code, a, 0, r.2⟩] }

/-- An access that waited for the bus is carried out. -/
def State.runWaiting (s : State) (w : BusWait) : State :=
  match w with
  | .peer _ m => s.peerRequest m
  | .lock w => s.lockServe w.msg w.cut
  | .cmd _ _ => s
  | .write who a v => s.localWrite who a v
  | .read who a => let r := s.localRead who a; { r.2 with readData := r.1 }
  | .span who a req => s.spanRun who a req
  | .kick who k v ms => s.wdogKick who k v ms
  | .retest who pass => s.trngRetest who pass

/-- A waiting message of a class, posted or not: WR_P alone is posted (R333). -/
def BusWait.inQueue (cls : Nat) (posted : Bool) (w : BusWait) : Bool := w.msg.any fun m => m.cls.val == cls && (m.typ == 3) == posted

/-- A waiting message of the stream of a message (R344). -/
def BusWait.sameStream (m : HfpMsg) (w : BusWait) : Bool := w.msg.any fun x => x.src == m.src && x.cls == m.cls

/-- A message waits in the queue of its class for the bus or for earlier ones; one that finds the queue full, or an earlier one of its
stream before it there, waits for an entry (R345, R346). An access of this device waits as it comes. -/
def State.waits (s : State) (w : BusWait) : State :=
  match w.msg with
  | none => s.busWaits w
  | some m =>
    if !(s.hfp.rxStall.any (BusWait.sameStream m))
        && (s.hfp.busWait.filter (BusWait.inQueue m.cls.val (m.typ == 3))).length < queueDepth m.cls.val (m.typ == 3) then s.busWaits w
    else s.bset fun b => { b with rxStall := b.rxStall ++ [w] }

/-- What waits, in order: each stream's messages as they came (R345). -/
def State.busQueue (s : State) : List BusWait := s.hfp.busWait ++ s.hfp.rxStall

/-- A non-posted message that is behind another one of its stream (R345); posted writes may pass. -/
def BusWait.follows (w : BusWait) (l : List BusWait) : Bool := w.msg.any fun m => m.typ != 3 && l.any (BusWait.sameStream m)

/-- A LOCK_REQ that still waits when another one takes the bus. -/
def BusWait.older : BusWait → BusWait
  | .lock w => .lock { w with old := true }
  | w => w

/-- A local descriptor is pending. -/
def State.cmdPending (s : State) : Bool := s.cmdRuns && s.hif.cmdProd != s.hif.cmdCons

/-- Where a CMD came from, with the entries that follow its descriptor (R348). -/
def cmdSrcOf (m : HfpMsg) : CmdSrc := .hfp m.src m.tag m.cls (((m.body.drop 8).take (beAt m.body 4 2)).drop 64)

/-- The descriptor of a CMD. -/
def cmdDescOf (m : HfpMsg) : Desc := BitVec.ofNat 512 (leAt (m.body.drop 8) 0 64)

/-- The status of a CMD that does not run: LOCKED outside HFP_ACL (R347), BUSY while a command runs, or while a local descriptor is
pending, which the processor takes first (R348, R377). -/
def State.cmdTurned (s : State) (m : HfpMsg) : Option Nat :=
  if !s.peerMay m.src.val then some 9 else if s.hif.running.isSome || s.cmdPending then some 1 else none

/-- A CMD that does not run completes, with the record that every command by HFP gets (R384); it stops the false-wake timer (R481). -/
def State.cmdRefuse (s : State) (m : HfpMsg) (status : Nat) : State := s.stopIdle.complete (cmdSrcOf m) (cmdDescOf m) false status 0

/-- What waited is carried out in order while the bus is free; non-posted messages stay behind a CMD of their stream, which waits for the
processor (R345, R350). -/
def State.drainFrom (s : State) (kept : List BusWait) : List BusWait → State
  | [] => s.each kept fun t w => t.waits w
  | w :: l =>
    if s.busHeld then s.each (kept ++ w :: l) fun t x => t.waits x.older
    else if w.follows kept then s.drainFrom (kept ++ [w]) l
    else match w with
      | .cmd _ m =>
        match s.cmdTurned m with
        | some c => (s.cmdRefuse m c).drainFrom kept l
        | none => s.drainFrom (kept ++ [w]) l
      | _ => (s.runWaiting w).drainFrom kept l

/-- What waited for the bus goes on once it is free (R350). -/
def State.busDrain (s : State) : State :=
  if s.busHeld || s.busQueue.isEmpty then s
  else (s.bset fun b => { b with busWait := [], rxStall := [] }).drainFrom [] s.busQueue

/-- An earlier message of the stream of a message still waits (R345). -/
def State.streamWaits (s : State) (m : HfpMsg) : Bool := s.busQueue.any (BusWait.sameStream m)

/-- The words of the far operations as LOCK_REQ carries them. -/
def lockReqBody (l : List LockOp) : List Byte :=
  let far := l.filter (·.far)
  beBytes 1 far.length ++ leBytes 7 0
    ++ far.flatMap fun o => beBytes 4 (o.addr + 2 ^ 26 + o.kind * 2 ^ 28) ++ beBytes 4 o.data

/-- The outgoing sequence of an initiator takes the bus and sends LOCK_REQ, of class 0 for the host and 1 for Cox (R346), unless it
ends at once (R350 step 1, R342, R354). -/
def State.lockGo (s : State) (i : Nat) : State :=
  match s.lockOf i with
  | none => s
  | some l =>
    let s1 := s.ask { peer := l.peer, cls := i, init := i, typ := 0x0A, posted := false, addr := 0, len := 0,
                      data := lockReqBody l.ops, kind := .lock }
    if (s1.lockOf i).isNone then s1
    else (s1.lockPut i (some { l with holds := true })).set HFP_LOCK_STATUS_OUT_ACTIVE 1

/-- The outgoing sequence of an initiator goes once the bus is free and no back-off of it runs (R351). -/
def State.lockTryOf (s : State) (i : Nat) : State :=
  match s.lockOf i with
  | some l => if !l.holds && !s.busHeld && s.get (backoffFld i) = 0 then s.lockGo i else s
  | none => s

/-- A free bus goes to the host's sequence, then to that of Cox. -/
def State.lockTry (s : State) : State := (s.lockTryOf 0).lockTryOf 1

/-- A free bus is given on: to what waits, in order, then to the own sequences. DESIGN CHOICE of the order. -/
def State.busSettle (s : State) : State := s.busDrain.lockTry

/-- A write of an initiator of this device to a local address, once the bus is free (R350). -/
def State.busPut (s : State) (who : Initiator) (a : Nat) (v : Word) : State :=
  let s1 := s.busDrain
  if s1.busHeld then s1.busWaits (.write who a v) else s1.localWrite who a v

/-- A read of an initiator of this device, once the bus is free: its result goes to `readData`. -/
def State.busGet (s : State) (who : Initiator) (a : Nat) : State :=
  let s1 := s.busDrain
  if s1.busHeld then s1.busWaits (.read who a) else let r := s1.localRead who a; { r.2 with readData := r.1 }

/-- A TLP of several words, once the bus is free (R350, R366). -/
def State.busSpan (s : State) (who : Initiator) (a : Nat) (req : RemReq) : State :=
  let s1 := s.busDrain
  if s1.busHeld then s1.busWaits (.span who a req) else s1.spanRun who a req

/-- A LOCK_REQ that has waited for LOCK_MAX (R351). -/
def State.lockLate (s : State) : BusWait → Bool
  | .lock w => decide (s.get HFP_LOCK_CFG_LOCK_MAX * 500 ≤ s.refTicks - w.since)
  | _ => false

/-- The waiting LOCK_REQs that satisfy `p` leave with LOCK_NAK, reason 2 (R351). -/
def State.lockDrop (s : State) (p : BusWait → Bool) : State :=
  (s.bset fun b => { b with busWait := b.busWait.filter fun w => !p w, rxStall := b.rxStall.filter fun w => !p w }).each
    (s.busQueue.filter p) fun t w => (w.msg.map fun m => t.sendNak m 2).getD t

/-- What the bridge does as time passes: back-offs count down and end, a LOCK_REQ that has waited for LOCK_MAX gets LOCK_NAK
with reason 2, and what waits goes on where it can (R345, R351). -/
def State.lockTick (s : State) : State :=
  let now := 2 * s.refTicks
  if !s.up .fabric || (s.hfp.backEnd.isEmpty && s.busQueue.isEmpty) then s
  else
    let s1 := s.each s.hfp.backEnd fun t e => t.set (backoffFld e.1) ((e.2 - now + 124) / 125)
    let s2 := s1.bset fun b => { b with backEnd := b.backEnd.filter fun e => decide (now < e.2) }
    (s2.lockDrop s2.lockLate).busSettle

end Sys2Proof.Machine
end

