-- ==== Sys2Proof/Machine/Access.lean ====
section
/-! DEFINITION. Register accesses by fabric address (R7, R8, R342, R350, R366), and the rows of the access codes. -/
namespace Sys2Proof.Machine

/-- A request of an initiator to a peer (R342, R346): class 0 for the host, 3 for the time domains, 1 for the other accesses
of Cox. -/
def remClass (who : Initiator) (addr : Nat) : Nat :=
  if who = .cox then (if addr / 0x100000 % 64 = 13 then 3 else 1) else 0

/-- What an address means to the device (R7, R8): malformed, local, or that of a peer. -/
inductive AddrKind where
  | malformed | here | peer (id : Nat)
  deriving DecidableEq, Repr

/-- The kind of a fabric address (R8). -/
def State.addrKind (s : State) (addr : Nat) : AddrKind :=
  let id := bits addr 26 5
  if bit addr 31 then (if id = s.ownId then .here else .peer id) else if id = 0 then .here else .malformed

/-- A malformed access (R8): recorded, without effect, and completed with BAD_ARG. -/
def State.malformed (s : State) (who : Initiator) (w : Bool) (addr : Nat) : State :=
  (s.accessErr who w (addr % 2 ^ 26) 6).bset fun b => { b with results := b.results ++ [⟨who.code, addr, 3, []⟩] }

/-- A register write by an initiator to a fabric address, or of the host to the configuration space. -/
def State.regWrite (s : State) (who : Initiator) (addr v : Word) : State :=
  let a := addr.toNat % 2 ^ 26
  if who = .cfg then (if s.up .host then s.cfgWrite addr.toNat v else s)
  else if s.hostTurned who then s.unsupported false
  else match s.addrKind addr.toNat with
  | .malformed => s.malformed who true addr.toNat
  | .here => s.busPut who a v
  | .peer p =>
    (s.ask { peer := p, cls := remClass who a, init := who.code, typ := 3, posted := true, addr := addr.toNat, len := 4,
             data := beBytes 4 v.toNat, kind := .access }).busSettle

/-- A read of a fabric address: the result goes to `readData`, at once for a local one (R8, R342). DESIGN CHOICE: a malformed
read, and one of the configuration space while the Host island is down, returns 0. -/
def State.regRead (s : State) (who : Initiator) (addr : Word) : State :=
  let a := addr.toNat % 2 ^ 26
  if who = .cfg then { s with readData := if s.up .host then s.cfgRead addr.toNat else 0 }
  else if s.hostTurned who then s.unsupported true
  else match s.addrKind addr.toNat with
  | .malformed => { s.malformed who false addr.toNat with readData := 0 }
  | .here => s.busGet who a
  | .peer p =>
    s.ask { peer := p, cls := remClass who a, init := who.code, typ := 5, posted := false, addr := addr.toNat, len := 4,
            data := [], kind := .access }

/-- A local address as a fabric address. -/
def here (a : Nat) : Word := BitVec.ofNat 32 a

/-- A write of a register of this device by its local address. -/
def State.write (s : State) (who : Initiator) (a : Nat) (v : Word) : State := s.regWrite who (here a) v

/-! ### The rows of the access codes -/

/-- REGISTER_WRITE (R38): a write of any register. -/
def execRegisterWrite (who : Initiator) (addr data : Word) (s : State) : Host.Outcome State Fault Refusal :=
  .next (s.regWrite who addr data)

/-- RC_READ (R10): a read, which clears RC fields. -/
def execRcRead (who : Initiator) (addr : Word) (s : State) : Host.Outcome State Fault Refusal := .next (s.regRead who addr)

/-- COUNTER_LOW_READ (R94): a read, which latches the upper word of a 64-bit counter read at its lower word. -/
def execCounterLowRead (who : Initiator) (addr : Word) (s : State) : Host.Outcome State Fault Refusal := .next (s.regRead who addr)

/-- The counter-clear register of a block. -/
def clearReg : CntBlock → Nat
  | .prt n => PRT_CNT_CLEAR n.val
  | .fst => FST_CNT_CLEAR
  | .fwd => FWD_CNT_CLEAR
  | .recorder => REC_CNT_CLEAR
  | .ump => UMP_CNT_CLEAR
  | .lne => LNE_CNT_CLEAR
  | .gte => GTE_CNT_CLEAR
  | .heat => HEAT_CNT_CLEAR
  | .tim => TIM_CNT_CLEAR
  | .edg => EDG_CNT_CLEAR
  | .rig => RIG_CNT_CLEAR
  | .hfp => HFP_CNT_CLEAR
  | .hif => HIF_CNT_CLEAR
  | .key => KEY_CNT_CLEAR

/-- CNT_CLEAR: a write of CLEAR = 1 to a block's counter-clear register (R94, R165, R193, R230). -/
def execCntClear (who : Initiator) (blk : CntBlock) (s : State) : Host.Outcome State Fault Refusal :=
  .next (s.write who (clearReg blk) 1)

/-- SETUP_LOCK: a write of GLB_LOCK.SETUP_LOCK = 1 (R10). -/
def execSetupLock (who : Initiator) (s : State) : Host.Outcome State Fault Refusal := .next (s.write who GLB_LOCK 1)

/-- FAULT_N_HOLD_END: the 10 µs of an assertion are over; the pin follows its causes (R56). -/
def execFaultNHoldEnd (s : State) : Host.Outcome State Fault Refusal :=
  .next { s with pins := { s.pins with faultHold := false } }

end Sys2Proof.Machine
end

