-- ==== Sys2Proof/Machine/Can.lean ====
section
/-! DEFINITION. The CAN channels on their buses: bus integration, reception, errors, bus-off recovery and transmission
(R292–R297, R329). -/
namespace Sys2Proof.Machine

/-! ### Error confinement (R294; ISO 11898-1) -/

/-- The registers show the error counters of channel `c`. -/
def State.canShowErr (s : State) (c : Nat) : State :=
  (s.set (EDG_CAN_STATUS_TEC c) (min 255 (s.canSt c).txErr)).set (EDG_CAN_STATUS_REC c) (min 127 (s.canSt c).rxErr)

/-- Channel `c` takes part in the bus traffic: ERROR_ACTIVE or ERROR_PASSIVE. -/
def State.canOn (s : State) (c : Nat) : Bool := s.up .edge && (s.canState c == 2 || s.canState c == 3)

/-- Entry into BUS_OFF: everything pending is discarded and counted, and recovery starts by itself with AUTO_RECOVER
(R294, R295). -/
def State.canBusOff (s : State) (c : Nat) : State :=
  let n := (s.canSt c).boxes.length + (s.canSt c).fifo.length
  let s1 := (s.set (EDG_CAN_STATUS_STATE c) 4).set (EDG_CAN_EVENT_BUS_OFF c) 1
  let s2 := (s1.canPut c fun x => { x with boxes := [], fifo := [], sending := none }).add (EDG_CAN_BUSOFF_DROP_COUNT c) n
  let s3 := s2.emit 0x0701 c (args (s2.rd (EDG_CAN_STATUS c)).toNat)
  if s3.on (EDG_CAN_CTRL_AUTO_RECOVER c) then s3.canRecover c else s3

/-- The state that the error counters of channel `c` give (R294). -/
def State.canJudge (s : State) (c : Nat) : State :=
  let x := s.canSt c
  if x.txErr > 255 then s.canBusOff c
  else if x.txErr > 127 || x.rxErr > 127 then
    if s.canState c = 3 then s
    else
      let s1 := (s.set (EDG_CAN_STATUS_STATE c) 3).set (EDG_CAN_EVENT_ERR_PASSIVE c) 1
      s1.emit 0x0700 c (args (s1.rd (EDG_CAN_STATUS c)).toNat)
  else s.set (EDG_CAN_STATUS_STATE c) 2

/-- Channel `c` puts a mark on its bus, where its bank drives (R507). -/
def State.canMark (s : State) (c : Nat) (m : CanMark) : State :=
  if s.bankDrives 11 then s.eset fun e => { e with canMarks := e.canMarks ++ [(c, m)] } else s

/-- Channel `c` acknowledges a frame: in normal and restricted operation, never in listen-only mode (R294). -/
def State.canAck (s : State) (c : Nat) : State := if s.get (EDG_CAN_CTRL_MODE c) = 1 then s else s.canMark c .ack

/-- Error signalling is off in the XL data phase: TMS_EN and XL_ERRSIG_OFF (R292). -/
def State.xlQuiet (s : State) (c : Nat) : Bool := s.on (EDG_CAN_CTRL_TMS_EN c) && s.on (EDG_CAN_CTRL_XL_ERRSIG_OFF c)

/-- The error flag of channel `c`: in normal operation only, active in ERROR_ACTIVE and passive in ERROR_PASSIVE; none in an XL
data phase without error signalling (R292, R294). -/
def State.canFlag (s : State) (c : Nat) (xlData : Bool) : State :=
  if s.get (EDG_CAN_CTRL_MODE c) ≠ 0 || (xlData && s.xlQuiet c) then s
  else s.canMark c (if s.canState c = 3 then .passiveFlag else .activeFlag)

/-- The channel has detected an error: its flag, LAST_ERR and ERR_CNT, the counter of its side (PRESUMED from ISO 11898-1: 8 for a
transmitter, but for a missing acknowledgement in ERROR_PASSIVE; 1 for a receiver), and the state. DESIGN CHOICE (log 80): an
error of an XL data phase without error signalling counts as any other, and only its flag is missing. -/
def State.canFail (s0 : State) (c code : Nat) (tx xlData : Bool) : State :=
  let s := s0.canFlag c xlData
  let s1 := (s.set (EDG_CAN_STATUS_LAST_ERR c) code).inc (EDG_CAN_ERR_CNT_COUNT c)
  let passive := s.canState c == 3
  let s2 := s1.canPut c fun x =>
    if tx then { x with txErr := if code = 3 && passive then x.txErr else x.txErr + 8, sending := none }
    else { x with rxErr := x.rxErr + 1, sending := none }
  (s2.canShowErr c).canJudge c

/-- A protocol exception: no error flag, back to bus integration, counted in ERR_CNT (R292, R294). -/
def State.canException (s : State) (c : Nat) : State :=
  let s1 := (s.set (EDG_CAN_STATUS_LAST_ERR c) 7).inc (EDG_CAN_ERR_CNT_COUNT c)
  let s2 := (s1.set (EDG_CAN_EVENT_PROTOCOL_EXC c) 1).set (EDG_CAN_STATUS_STATE c) 1
  s2.canPut c fun x => { x with sending := none }

/-- A frame has been received without error: REC falls by 1, and from above 127 to a value from 119 to 127 that ISO 11898-1
leaves open. -/
def State.canRxGood (s : State) (c : Nat) : State :=
  let r := (s.canSt c).rxErr
  let v := s.free 32
  let s1 := if r > 127 then v.2.canPut c fun x => { x with rxErr := 119 + v.1.toNat % 9 }
    else s.canPut c fun x => { x with rxErr := r - 1 }
  (s1.canShowErr c).canJudge c

/-- CAN_BUS_IDLE: 11 recessive bits end bus integration; the error counters give the state (R294). -/
def execCanBusIdle (c : Fin 32) (s : State) : Host.Outcome State Fault Refusal :=
  .next (if s.up .edge && s.canState c.val == 1 && !(s.canSt c.val).recovering then
    (s.set (EDG_CAN_STATUS_STATE c.val) 2).canJudge c.val else s)

/-- A frame that completes on the bus: a format that is not enabled, a remote frame, or a data frame (R292, R296), which the
channel acknowledges under its mode (R294). A frame of the channel's own that was on the bus has lost arbitration. -/
def State.canTake (s : State) (c : Nat) (f : CanFrame) : State :=
  if (f.fmt == 1 && !s.on (EDG_CAN_CTRL_FD_EN c)) || (f.fmt == 2 && !s.on (EDG_CAN_CTRL_XL_EN c)) then s.canException c
  else
    let s1 := ((s.canPut c fun x => { x with sending := none }).canAck c).canRxGood c
    if f.rtr then s1.inc (EDG_CAN_RX_RTR_COUNT c) else s1.canAccept c f

/-- CAN_FRAME_RX (R292, R296, R303). -/
def execCanFrameRx (c : Fin 32) (f : CanFrame) (s : State) : Host.Outcome State Fault Refusal :=
  .next (if s.canOn c.val then s.canTake c.val f else s)

/-- CAN_ERROR: an error that the channel detects, as the transmitter of a frame or as a receiver (R294, R301). -/
def execCanError (c : Fin 32) (e : CanErr) (s : State) : Host.Outcome State Fault Refusal :=
  .next (if !s.canOn c.val || e.code == 0 || (e.tx && (s.canSt c.val).sending.isNone) then s
    else if e.code == 7 then s.canException c.val
    else s.canFail c.val e.code.val e.tx e.xlData)

/-- CAN_RECOVERY_DONE: 128 occurrences of 11 recessive bits complete the recovery (R295). -/
def execCanRecoveryDone (c : Fin 32) (s : State) : Host.Outcome State Fault Refusal :=
  let n := c.val
  .next (if s.up .edge && (s.canSt n).recovering then
      let s1 := s.canPut n fun x => { x with txErr := 0, rxErr := 0, recovering := false }
      let s2 := (s1.canShowErr n).set (EDG_CAN_STATUS_STATE n) 2
      (s2.set (EDG_CAN_EVENT_RECOVERED n) 1).inc (EDG_CAN_BUSOFF_CNT_COUNT n)
    else s)

/-! ### Transmission (R297) -/

/-- The arbitration value of a queued frame: a lower one wins on the bus. With equal base identifiers the base frame wins
over the extended one. -/
def arbValue (x : CanTx) : Nat :=
  if x.ext && x.fmt != 2 then x.id / 2 ^ 18 * 2 ^ 20 + 3 * 2 ^ 18 + x.id % 2 ^ 18 else x.id * 2 ^ 20

/-- A queued frame is past its deadline. -/
def State.canLate (s : State) (x : CanTx) : Bool := decide (s.refTicks > x.deadline)

/-- The queued frames of channel `c` that are past their deadline are discarded. -/
def State.canPrune (s : State) (c : Nat) : State :=
  let x := s.canSt c
  let late := (x.boxes.filter fun b => s.canLate b.2).length + (x.fifo.filter s.canLate).length
  (s.canPut c fun y => { y with boxes := y.boxes.filter fun b => !s.canLate b.2, fifo := y.fifo.filter fun b => !s.canLate b }).add
    (EDG_CAN_TX_LATE_DROP_COUNT c) late

/-- What channel `c` could send now: mailboxes by index, then the FIFO head as 32. -/
def State.canQueue (s : State) (c : Nat) : List (Nat × CanTx) :=
  (s.canSt c).boxes ++ ((s.canSt c).fifo.take 1).map fun x => (32, x)

/-- The entry of a queue that wins: the lowest arbitration value, the earlier one between equals. -/
def canBest : List (Nat × CanTx) → Option (Nat × CanTx)
  | [] => none
  | x :: l => match canBest l with
    | none => some x
    | some y => if arbValue y.2 < arbValue x.2 then some y else some x

/-- The short time of a start of frame at TXD, in the CAN stamp domain; 0 while that domain does not count (R284, R297). -/
def State.canSof (s : State) : Nat := (s.stampIn (s.get TIM_EDGE_CFG_CAN_DOM) 0).elim 0 fun p => p.2 % 2 ^ 32

/-- The chosen frame starts; CAN_ERR makes it meet a bit error (R329): which of the two bit errors is a free value. -/
def State.canStart (s : State) (c : Nat) (x : Nat × CanTx) : State :=
  let s1 := s.canPut c fun y => { y with sending := some x, sof := s.canSof }
  if s1.injArmedFor 21 c then
    let v := s1.free 1
    (v.2.injSpend 21).canFail c (4 + v.1.toNat) true false
  else s1

/-- CAN_TX_START: the bus allows a new frame (R294, R297). -/
def execCanTxStart (c : Fin 32) (s : State) : Host.Outcome State Fault Refusal :=
  let n := c.val
  if !s.canOn n || s.get (EDG_CAN_CTRL_MODE n) ≠ 0 || (s.canSt n).sending.isSome then .next s
  else
    let s1 := s.canPrune n
    match canBest (s1.canQueue n) with
    | none => .next s1
    | some x => .next (s1.canStart n x)

/-- The frame that was sent leaves its mailbox, unless a newer one has taken its place (R314), or the FIFO. -/
def canSent (y : CanSt) (x : Nat × CanTx) : CanSt :=
  let z : CanSt := { y with sending := none, txErr := y.txErr - 1 }
  if x.1 = 32 then { z with fifo := if z.fifo.head? = some x.2 then z.fifo.tail else z.fifo }
  else if SMap.find z.boxes x.1 = some x.2 then { z with boxes := SMap.erase z.boxes x.1 } else z

/-- The frame as the bus saw it: an FD frame carries ESI when it was tunnelled with it, or when the channel is ERROR_PASSIVE
(R292; PRESUMED from ISO 11898-1). -/
def State.canOnBus (s : State) (c : Nat) (x : CanTx) : CanTx := { x with esi := x.fmt == 1 && (x.esi || s.canState c == 3) }

/-- CAN_TX_DONE: the frame in transmission has been sent (R297). -/
def execCanTxDone (c : Fin 32) (s : State) : Host.Outcome State Fault Refusal :=
  let n := c.val
  match (s.canSt n).sending with
  | none => .next s
  | some x =>
    if !s.canOn n then .next s
    else
      let s1 := ((s.canPut n fun y => canSent y x).canShowErr n).canJudge n
      let s2 := (s1.inc (EDG_CAN_TX_FRAMES_COUNT n)).set (EDG_CAN_LAST_TX_SHORT n) (s1.canSt n).sof
      .next (if s.bankDrives 11 then s2.eset fun e => { e with canOut := e.canOut ++ [(n, s.canOnBus n x.2)] } else s2)

/-- The queued frame of channel `c` with the earliest deadline, but for the one in transmission: (mailbox or 32, place in the
FIFO, frame). -/
def State.canEarliest (s : State) (c : Nat) : Option (Nat × Nat × CanTx) :=
  let x := s.canSt c
  let l := x.boxes.map (fun b => (b.1, 0, b.2)) ++ (List.range x.fifo.length).filterMap fun k => (x.fifo[k]?).map fun f => (32, k, f)
  (l.filter fun e => x.sending != some (e.1, e.2.2)).foldl (fun best e => match best with
    | none => some e
    | some b => if e.2.2.deadline < b.2.2.deadline then some e else some b) none

/-- CAN_TX_DEADLINE: the queued frame whose deadline comes first has passed it (R297). -/
def execCanTxDeadline (c : Fin 32) (s : State) : Host.Outcome State Fault Refusal :=
  let n := c.val
  if !s.up .edge then .next s
  else match s.canEarliest n with
    | none => .next s
    | some (box, k, _) =>
      let s1 := s.canPut n fun y =>
        if box = 32 then { y with fifo := y.fifo.eraseIdx k } else { y with boxes := SMap.erase y.boxes box }
      .next (s1.inc (EDG_CAN_TX_LATE_DROP_COUNT n))

end Sys2Proof.Machine
end

