-- ==== Sys2Proof/Machine/HfpRx.lean ====
section
/-! DEFINITION. HFP messages that arrive, discovery and routing (R332–R341, R361), and remote transactions with their
acknowledgements and losses (R342–R348, R352–R355, R367). -/
namespace Sys2Proof.Machine

/-! ### Intake (R332–R336) -/

/-- LENGTH is at least 16 and within the octets received, and VERSION is 1 (R332). -/
def msgOk (m : HfpMsg) : Bool := m.ver == 1 && 16 ≤ m.len.toNat && m.len.toNat ≤ 16 + m.body.length

/-- The octets of the body that LENGTH covers. -/
def msgData (m : HfpMsg) : List Byte := m.body.take (m.len.toNat - 16)

/-- A frame for another device goes on with one hop less (R334). -/
def State.hfpForward (s : State) (m : HfpMsg) : State :=
  if m.hops = 0 then s.inc HFP_HOP_DROP_COUNT else s.sendHfp { m with hops := m.hops - 1 }

/-- What becomes of a frame that the bridge does not keep: discarded and counted, or relayed; none for one that it keeps
(R332–R336). A sleep entry that has its acknowledgements accepts none (R470). -/
def State.hfpTurned (s : State) (port : Fin 64) (m : HfpMsg) : Option State :=
  let mine := m.dst == 0xFF || m.dst.toNat == s.ownId
  if !s.up .fabric || s.framesStopped then some s
  else if !msgOk m || !(1 ≤ m.typ.toNat && m.typ.toNat ≤ 13) then some (s.inc HFP_RX_BAD_COUNT)
  else if s.power = 2 && s.on HFP_CFG_EN && !(mine && port.val == s.get OPT_BOOT_MGMT_PORT) then some (s.inc HFP_NO_ROUTE_COUNT)
  else if !mine then some (s.hfpForward m)
  else if !s.on HFP_CFG_EN then some (s.inc HFP_RX_BAD_COUNT)
  else none

/-- A frame that the bridge keeps is counted and taken by `f` (R363). -/
def State.hfpKeep (s : State) (port : Fin 64) (m : HfpMsg) (f : State → State) : State :=
  match s.hfpTurned port m with
  | some t => t
  | none => f (s.inc HFP_RX_MSG_COUNT)

/-- HFP_RELAY: a frame that the bridge relays or discards (R332–R334, R336). A kept one is the business of its type's row. -/
def execHfpRelay (port : Fin 64) (m : HfpMsg) (s : State) : Host.Outcome State Fault Refusal :=
  .next ((s.hfpTurned port m).getD s)

/-! ### Discovery (R337–R341, R361) -/

/-- The port carries HFP. -/
def State.hfpPort (s : State) (n : Nat) : Bool := bit (s.get (HFP_PORTS_PORTS (n / 32))) (n % 32)

/-- A HELLO's claim: another anchor or deputy, or the own ID under another UID (R338). -/
def State.helloClash (s : State) (m : HfpMsg) : Bool :=
  beAt m.body 8 1 % 32 != s.get HFP_CFG_ANCHOR_ID || beAt m.body 9 1 % 32 != s.get HFP_CFG_DEPUTY_ID
    || (m.src.val == s.ownId && beAt m.body 0 8 != Config.uid.toNat)

/-- The FCG of the device with authority differs from the own one: DIVERGED (R361). -/
def State.fcgCheck (s : State) (src fcg : Nat) : State :=
  if s.authority = some src && src != s.ownId && fcg != s.get HFP_FCG_GEN && !s.on HFP_FAB_STATUS_DIVERGED then
    (s.set HFP_FAB_STATUS_DIVERGED 1).emit 0x0806 0 (args (s.get HFP_FCG_GEN) fcg)
  else s

/-- The own LSA and the rest of the database leave on one port. -/
def State.sendDatabase (s : State) (n : Nat) : State :=
  let own := (SMap.find s.hfp.lsdb s.ownId).getD { seq := s.hfp.ownSeq, entries := [] }
  (s.sendLsa n s.ownId own).each (s.hfp.lsdb.filter fun e => e.1 != s.ownId) fun t e => t.sendLsa n e.1 e.2

/-- The step of an adjacency on a HELLO (R338); DEDUCED: in TWO_WAY the databases have been exchanged once the neighbour's
LSA is there. -/
def State.adjStep (s : State) (n src seen : Nat) : State :=
  match s.adjState n with
  | 0 => s.setAdj n 1
  | 1 => if seen = s.ownId then (((s.setAdj n 2).set (HFP_ADJ_NEIGHBOR n) src).sendDatabase n) else s
  | 2 => if (SMap.find s.hfp.lsdb (s.get (HFP_ADJ_NEIGHBOR n))).isSome then s.setAdj n 3 else s
  | _ => s

/-- A HELLO on an HFP port (R337, R338). -/
def State.takeHello (s : State) (n mac : Nat) (m : HfpMsg) : State :=
  let uid := beAt m.body 0 8
  let fcg := beAt m.body 12 4
  let s1 := s.bset fun b => { b with adj := SMap.insert b.adj n ⟨mac, uid, m.src.val, beAt m.body 10 1, fcg⟩ }
  let s2 := if (List.range 32).all fun f => s.conflicted f == s1.conflicted f then s1 else s1.computeRoutes
  if s.helloClash m then
    (s2.setAdj n 4).emit 0x0802 n (args m.src.val (uid % 2 ^ 32) (uid / 2 ^ 32))
  else (s2.adjStep n m.src.val (beAt m.body 17 1)).fcgCheck m.src.val fcg

/-- HELLO (R336–R338, R361): Cox firmware takes it. -/
def execHello (port : Fin 64) (mac : BitVec 48) (m : HfpMsg) (s : State) : Host.Outcome State Fault Refusal :=
  let x := { m with typ := 1 }
  .next (s.hfpKeep port x fun t =>
    if t.firmware && t.hfpPort port.val then t.takeHello port.val mac.toNat { x with body := (msgData x) } else t)

/-- The body of a HELLO on port `n` (R337). -/
def State.helloBody (s : State) (n : Nat) : List Byte :=
  let seen := if s.adjState n = 0 then 0xFF else ((SMap.find s.hfp.adj n).map (·.id)).getD 0xFF
  beBytes 8 Config.uid.toNat ++ beBytes 1 (s.get HFP_CFG_ANCHOR_ID) ++ beBytes 1 (s.get HFP_CFG_DEPUTY_ID)
    ++ beBytes 1 (s.authority.getD 0xFF) ++ beBytes 1 (if s.adrift then 1 else 0) ++ beBytes 4 (s.get HFP_FCG_GEN)
    ++ beBytes 1 n ++ beBytes 1 seen ++ beBytes 2 (s.linkCost n) ++ leBytes 4 0

/-- HELLO_TIMER: a HELLO leaves on every HFP port that is UP (R337). -/
def execHelloTimer (s : State) : Host.Outcome State Fault Refusal :=
  .next (if s.hfpRuns && s.firmware then
    s.each ((List.range 64).filter fun n => s.hfpPort n && s.link n == 4) fun t n => t.sendHfpOn n (t.hfpMsg 1 0xFF 0 0 0 (t.helloBody n))
  else s)

/-- ADJ_DEAD: the dead interval of a port has passed (R338). -/
def execAdjDead (port : Fin 64) (s : State) : Host.Outcome State Fault Refusal :=
  .next (if s.hfpRuns && s.firmware && s.adjState port.val != 0 then s.setAdj port.val 0 else s)

/-- The entries of an LSA body (R339). -/
def lsaOf (b : List Byte) : Lsa :=
  { seq := beAt b 0 4,
    entries := (List.range (min (beAt b 4 1) ((b.length - 8) / 4))).map fun k =>
      ⟨beAt b (8 + 4 * k) 1, beAt b (9 + 4 * k) 1, beAt b (10 + 4 * k) 2⟩ }

/-- An LSA is kept when it is the newest of its origin, floods on, and the routes follow (R339, R340). DEDUCED: the own LSA
that comes back is not kept. -/
def State.takeLsa (s : State) (n origin : Nat) (l : Lsa) : State :=
  let newer := origin != s.ownId && match SMap.find s.hfp.lsdb origin with
    | some o => decide (o.seq < l.seq)
    | none => true
  let s1 := if newer then
      ((s.bset fun b => { b with lsdb := SMap.insert b.lsdb origin l }).each (s.fullPorts.filter (· ≠ n)) fun t p =>
        t.sendLsa p origin l).computeRoutes
    else s
  if s1.adjState n = 2 && s1.get (HFP_ADJ_NEIGHBOR n) = origin then s1.setAdj n 3 else s1

/-- LSA (R338–R340). -/
def execLsa (port : Fin 64) (m : HfpMsg) (s : State) : Host.Outcome State Fault Refusal :=
  let x := { m with typ := 2 }
  .next (s.hfpKeep port x fun t => if t.firmware then t.takeLsa port.val x.src.val (lsaOf (msgData x)) else t)

/-- LSA_TIMER: the own LSA once per second (R339). -/
def execLsaTimer (s : State) : Host.Outcome State Fault Refusal := .next s.floodOwn

/-- LSA_EXPIRE: the LSA of an origin has not been refreshed for 4 s (R339). -/
def execLsaExpire (origin : Fin 32) (s : State) : Host.Outcome State Fault Refusal :=
  .next (if s.hfpRuns && s.firmware && origin.val != s.ownId then
    (s.bset fun b => { b with lsdb := SMap.erase b.lsdb origin.val }).computeRoutes else s)

/-! ### Requests of this device (R342, R366, R367) -/

/-- A request of `n` words from an initiator to a peer. -/
def remAsk (who : Initiator) (p addr : Nat) (req : RemReq) (kind : ReqKind) : HfpAsk :=
  { peer := p, cls := remClass who (addr % 2 ^ 26), init := who.code, typ := if !req.write then 5 else if req.nonPosted then 4 else 3,
    posted := req.write && !req.nonPosted, addr := addr, len := 4 * req.words.length,
    data := if req.write then wordBytes req.words else [], kind := kind }

/-- REMOTE_REQUEST: an access of words at a fabric address (R7, R8, R333, R342): up to 64 to a peer; a local one is also how a
TLP of several words to BAR0 arrives, whose words are carried out one at a time (R366). -/
def execRemoteRequest (who : Initiator) (addr : Word) (req : RemReq) (s : State) : Host.Outcome State Fault Refusal :=
  let n := req.words.length
  if n = 0 ∨ n > 1024 ∨ who = .cfg then .next s
  else if s.hostTurned who then .next (s.unsupported !req.write)
  else match s.addrKind addr.toNat with
    | .malformed => .next (s.malformed who req.write addr.toNat)
    | .here => .next (s.busSpan who (addr.toNat % 2 ^ 26) req)
    | .peer p => .next (if n > 64 then s else (s.ask (remAsk who p addr.toNat req .access)).busSettle)

/-- The 256-octet spans of a BAR2 access: offset and words (R367). -/
def bar2Spans (o n : Nat) : List (Nat × Nat) :=
  ((List.range (n + 1)).filterMap fun k =>
    let lo := max o ((o / 256 + k) * 256)
    let hi := min (o + 4 * n) ((o / 256 + k + 1) * 256)
    if lo < hi then some (lo, (hi - lo) / 4) else none)

/-- The words of a TLP at offset `o` that go to the peer: those inside the BAR with all byte enables, as first place and count
(R366). -/
def bar2Run (o : Nat) (req : RemReq) : Nat × Nat :=
  let l := (List.range req.words.length).filter fun k => !beCut req k && o + 4 * k < 2 ^ 26
  (l.headD 0, l.length)

/-- The words of a TLP that do not: cut ones are recorded with cause 2, those past the end of the BAR with cause 4 (R36, R366). -/
def State.bar2Faults (s : State) (o : Nat) (req : RemReq) : State :=
  s.each ((List.range req.words.length).filter fun k => beCut req k || o + 4 * k ≥ 2 ^ 26) fun t k =>
    t.accessErr .host req.write ((o + 4 * k) % 2 ^ 26) (if o + 4 * k ≥ 2 ^ 26 then 4 else 2)

/-- One request for each span, in address order; a read waits as a whole for its completions (R367). -/
def State.bar2Ask (s : State) (o : Nat) (req : RemReq) : State :=
  let p := s.get HIF_RWIN_PEER
  let r := bar2Run o req
  let spans := bar2Spans (o + 4 * r.1) r.2
  let id := s.hfp.nextTlp
  let s1 := s.bar2Faults o req
  let base := 2 ^ 31 + p * 2 ^ 26
  let tlp : Tlp := { addr := base + o, words := List.replicate req.words.length 0, left := spans.length }
  let s2 := if req.write then s1
    else s1.bset fun b => { b with nextTlp := id + 1, tlps := SMap.insert b.tlps id tlp }
  ((s2.each spans fun t x =>
    let part : RemReq := { write := req.write, nonPosted := !req.write, words := (req.words.drop ((x.1 - o) / 4)).take x.2 }
    t.ask (remAsk .host p (base + x.1) part (.bar2 id))).tlpEnd id).busSettle

/-- BAR2_ACCESS (R366, R367): a TLP of words at an offset of the remote window; one aimed at the own ID is local (R8). -/
def execBar2Access (offset : BitVec 26) (req : RemReq) (s : State) : Host.Outcome State Fault Refusal :=
  let o := offset.toNat / 4 * 4
  if req.words.isEmpty then .next s
  else if s.hostTurned .host then .next (s.unsupported !req.write)
  else if !s.on HIF_RWIN_EN then
    let t := s.each (List.range req.words.length) fun t k => t.accessErr .host req.write ((o + 4 * k) % 2 ^ 26) 4
    .next (if req.write then t else { t with readData := 0 })
  else if s.get HIF_RWIN_PEER = s.ownId then .next (s.busSpan .host o req)
  else .next (s.bar2Ask o req)

/-! ### Streams at the target (R344) -/

/-- An ACK of a stream: the last SEQ taken (R333, R344). -/
def State.sendAck (s : State) (peer cls : Nat) : State :=
  let k := 4 * peer + cls
  let last := (SMap.get s.hfp.rxSeq 0 k + 2 ^ 32 - 1) % 2 ^ 32
  (s.bset fun b => { b with rxUnacked := SMap.put b.rxUnacked 0 k 0 }).sendHfp (s.hfpMsg 8 peer cls 0 0 (beBytes 4 last))

/-- The target sees SEQ of a request: a gap is reported and counted, the 16th request acknowledged (R344). DEDUCED: a SEQ
behind the expected one, as after a reset of the sender, is taken as the new start. -/
def State.seqTake (s : State) (m : HfpMsg) : State :=
  let k := 4 * m.src.val + m.cls.val
  let want := SMap.get s.hfp.rxSeq 0 k
  let seq := m.seq.toNat
  let ahead := (seq + 2 ^ 32 - want) % 2 ^ 32
  let s1 := if 0 < ahead ∧ ahead < 2 ^ 31 then
      (s.sendHfp (s.hfpMsg 9 m.src.val m.cls.val 0 0
        ([8, 0, 0, 0] ++ leBytes 4 0 ++ beBytes 4 want ++ beBytes 4 ((seq + 2 ^ 32 - 1) % 2 ^ 32)))).inc HFP_SEQ_GAP_COUNT
    else s
  let s2 := s1.bset fun b => { b with rxSeq := SMap.put b.rxSeq 0 k ((seq + 1) % 2 ^ 32),
                                      rxUnacked := SMap.put b.rxUnacked 0 k (SMap.get b.rxUnacked 0 k + 1) }
  if SMap.get s2.hfp.rxUnacked 0 k ≥ 16 then s2.sendAck m.src.val m.cls.val else s2

/-- LEN of a request body is in range and its octets are there (R333). -/
def requestOk (m : HfpMsg) : Bool :=
  let n := beAt (msgData m) 4 2
  let need := if m.typ = 5 then 8 else 8 + n
  8 ≤ (msgData m).length && n % 4 == 0 && 4 ≤ n && n ≤ 256 && need ≤ (msgData m).length

/-- REQUEST_RX: WR_P, WR_NP or RD from a peer; it waits while the bus is held, a non-posted one also for earlier ones of its stream
(R333, R344, R345, R347, R350). A body that is malformed is discarded (DEDUCED: as R332 discards a frame). -/
def execRequestRx (port : Fin 64) (m : HfpMsg) (s : State) : Host.Outcome State Fault Refusal :=
  if m.typ ≠ 3 ∧ m.typ ≠ 4 ∧ m.typ ≠ 5 then .next s
  else .next (s.hfpKeep port m fun t =>
    if !requestOk m then t.inc HFP_RX_BAD_COUNT
    else
      let t1 := (t.seqTake m).busDrain
      let x := { m with body := (msgData m) }
      if t1.busHeld || (m.typ ≠ 3 && t1.streamWaits x) then t1.waits (.peer port.val x) else t1.peerRequest x)

/-- ACK_TIMER: 10 µs after an unacknowledged request (R344). -/
def execAckTimer (peer : Fin 32) (cls : Fin 4) (s : State) : Host.Outcome State Fault Refusal :=
  .next (if s.hfpRuns && SMap.get s.hfp.rxUnacked 0 (4 * peer.val + cls.val) != 0 then s.sendAck peer.val cls.val else s)

/-! ### Completions, acknowledgements and losses (R343–R345, R350–R354) -/

/-- A request leaves the bridge's books. -/
def State.dropReq (s : State) (tag : Nat) : State := s.bset fun b => { b with reqs := b.reqs.filter fun q => q.tag != tag }

/-- The outgoing sequence of an initiator goes on with the words of its far operations: one operation in list order (R349, R350
step 3). -/
def State.lockStep (who : Initiator) (s : State) (x : LockRun × List Nat × Bool) (o : LockOp) : State × LockRun × List Nat × Bool :=
  if o.far then
    match x.2.1 with
    | [] => (s, x.1.skip, [], x.2.2)
    | w :: ws => if x.2.2 then (s, x.1.skip, ws, true) else (s, x.1.note o w, ws, o.kind == 2 && w != o.data)
  else
    let r := s.lockOp who x.1 o
    (r.1, r.2, x.2.1, x.2.2)

/-- Bit `k` of a number is element `k` of a list. -/
def boolsNat (l : List Bool) : Nat := maskOf ((List.range l.length).filter fun k => l.getD k false)

/-- The result block (R349). -/
def lockBlock (r : LockRun) : List Byte :=
  (List.range 4).flatMap (fun k => leBytes 4 (r.words.getD k 0)) ++ leBytes 1 (boolsNat r.skipped + boolsNat r.failed * 16) ++ leBytes 15 0

/-- The result block of a finished sequence as words, as Cox gets it. -/
def blockWords (r : LockRun) : List Word := (List.range 5).map fun k => BitVec.ofNat 32 (leAt (lockBlock r) (4 * k) 4)

/-- The CPL of LOCK_REQ is in: the local operations, the result block, the end of the command (R350 step 3). DEDUCED: a
local operation that is faulty ends it with BAD_ARG. -/
def State.lockFinish (s : State) (i : Nat) (data : List Byte) : State :=
  match s.lockOf i with
  | none => s
  | some l =>
    let who : Initiator := if i = 0 then .host else .cox
    let far := (wordsOf data (l.ops.filter (·.far)).length).map (·.toNat)
    let r := l.ops.foldl (fun x o => State.lockStep who x.1 x.2 o) (s, ({} : LockRun), far, false)
    if r.2.1.cause.isSome then r.1.lockEnd i 3
    else if i = 1 then r.1.lockEnd i 0 (blockWords r.2.1)
    else
      let t := if r.1.hif.running.all (·.cut) then r.1 else r.1.hostPut l.result (lockBlock r.2.1)
      t.lockEnd i 0

/-- A request completes with what its CPL says (R343). -/
def State.takeCpl (s : State) (a : HfpAsk) (status : Nat) (data : List Byte) : State :=
  if a.kind = .lock && status = 0 then s.lockFinish a.init data else s.completeAsk a status data

/-- The outstanding non-posted request of a peer under a tag. -/
def State.openReq (s : State) (peer tag : Nat) : Option HfpReq :=
  s.hfp.reqs.find? fun r => !r.ask.posted && r.ask.peer == peer && r.tag == tag

/-- CPL (R343, R350); one that comes too late is discarded and counted. -/
def execCpl (port : Fin 64) (m : HfpMsg) (s : State) : Host.Outcome State Fault Refusal :=
  let x := { m with typ := 7 }
  .next (s.hfpKeep port x fun t =>
    match t.openReq x.src.val x.tag.toNat with
    | none => t.inc HFP_CPL_LATE_COUNT
    | some r => ((t.dropReq r.tag).takeCpl r.ask (beAt (msgData x) 0 1) ((msgData x).drop 8)).retryAsks.busSettle)

/-- CPL_TIMEOUT (R343). -/
def execCplTimeout (peer : Fin 32) (tag : BitVec 16) (s : State) : Host.Outcome State Fault Refusal :=
  match s.openReq peer.val tag.toNat with
  | none => .next s
  | some r => .next (((s.dropReq r.tag).completeAsk r.ask 11 []).retryAsks.busSettle)

/-- A SEQ lies at or before another one, modulo 2^32. -/
def seqLe (a b : Nat) : Bool := (b % 2 ^ 32 + 2 ^ 32 - a % 2 ^ 32) % 2 ^ 32 < 2 ^ 31

/-- A request belongs to a stream. -/
def HfpReq.inStream (r : HfpReq) (peer cls : Nat) : Bool := r.ask.peer == peer && r.ask.cls == cls

/-- ACK: the posted writes that it covers have arrived (R344). -/
def execAck (port : Fin 64) (m : HfpMsg) (s : State) : Host.Outcome State Fault Refusal :=
  let x := { m with typ := 8 }
  .next (s.hfpKeep port x fun t =>
    (t.bset fun b => { b with reqs := b.reqs.filter fun r =>
      !(r.ask.posted && r.inStream x.src.val x.cls.val && seqLe r.seq (beAt (msgData x) 0 4)) }).retryAsks.busSettle)

/-- ACK_TIMEOUT: the oldest posted write of a stream is lost with cause 9 (R344). -/
def execAckTimeout (peer : Fin 32) (cls : Fin 4) (s : State) : Host.Outcome State Fault Refusal :=
  match s.hfp.reqs.find? fun r => r.ask.posted && r.inStream peer.val cls.val with
  | none => .next s
  | some r => .next ((s.loseReq r 9).retryAsks.busSettle)

/-- The requests of a missing range: posted ones are lost with cause 8, the others complete with REMOTE_FAIL (R344, R353). -/
def State.loseRange (s : State) (peer cls first last : Nat) : State :=
  s.each (s.hfp.reqs.filter fun r => r.inStream peer cls && seqLe first r.seq && seqLe r.seq last) fun t r =>
    if !(t.hfp.reqs.any fun q => q.tag == r.tag) then t
    else if r.ask.posted then t.loseReq r 8 else (t.dropReq r.tag).completeAsk r.ask 12 []

/-- A write that the target refused or that was faulty there: its record (R347, R352, R353). DEDUCED: when its tag is no
longer held, the class tells the initiator. -/
def State.lateNamed (s : State) (m : HfpMsg) (b : List Byte) (cause : Nat) : State :=
  match s.hfp.reqs.find? fun r => r.ask.posted && r.inStream m.src.val m.cls.val && r.tag == m.tag.toNat with
  | some r => s.loseReq r cause
  | none => s.lateRecord (if m.cls = 0 then 0 else 1) m.src.val m.cls.val m.tag.toNat
      (2 ^ 31 + m.src.val * 2 ^ 26 + beAt b 4 4 % 2 ^ 26) (beAt b 8 4) cause

/-- LATE_ERR (R344, R352, R353). -/
def execLateErr (port : Fin 64) (m : HfpMsg) (s : State) : Host.Outcome State Fault Refusal :=
  let x := { m with typ := 9 }
  let b := (msgData x)
  .next (s.hfpKeep port x fun t =>
    (if beAt b 0 1 = 8 then t.loseRange x.src.val x.cls.val (beAt b 8 4) (beAt b 12 4)
     else t.lateNamed x b (beAt b 0 1)).retryAsks.busSettle)

end Sys2Proof.Machine
end

