-- ==== Sys2Proof/Machine/Commit.lean ====
section
/-! DEFINITION. The rows of the configuration model: STAGE, COMMIT, the end of a heat, COMMIT_ABORT, the swap, the end of
the drain, and HEAT_REPORT (R43–R53, R255, R341, R357, R463). -/
namespace Sys2Proof.Machine

/-- STAGE (R43–R45). -/
def execStage (src : CmdSrc) (d : Desc) (s : State) : Host.Outcome State Fault Refusal :=
  .next <| s.runCmd src d (s.stageOk src d) [0, 1] true fun t => t.stageBody src (stageArgs d)

/-- A commit of these classes would run a gate list or declarations, which need PD2 (R463). -/
def State.needsTime (s : State) (mask : Nat) : Bool :=
  let b := s.candidate mask
  (declsOf b).length != 0 && bit mask 14
    || bit mask 9 && (List.range 70).any fun n => ebit (SMap.get b 0 (entryKey 9 (40960 + n))) 6 0

/-- The states that refuse a COMMIT (R47, R190, R325, R341, R437, R463): REASON and DETAIL. -/
def State.commitRefused (s : State) (src : CmdSrc) (a : CommitArgs) : Option (Nat × Nat) :=
  let mask := s.commitSet a.mask
  if s.commitState ≠ 0 then some (2, 0)
  else if s.adrift && !a.emergency then some (4, 0)
  else if !s.remoteMay src then some (4, 0)
  else if a.fabric && s.authority != some s.ownId then some (4, 0)
  else match s.classOff mask with
    | some pd => some (3, pd)
    | none => if !s.pdOn 2 && (a.timed || s.needsTime mask) then some (3, 2) else none

/-- The job that a COMMIT begins. -/
def State.commitJob (s : State) (a : CommitArgs) : CommitJob :=
  { mask := s.commitSet a.mask, timed := a.timed, fabric := a.fabric, dryRun := a.dryRun, id := a.id, at_ := a.at_ }

/-- T is too near for the fabric-wide sequence (R358). -/
def State.fabTooLate (s : State) (at_ : Nat) : Bool := at_ < s.domNs 0 + s.prepareNs + s.marginNs + 10 ^ 6

/-- COMMIT (R46–R49, R357). -/
def execCommit (src : CmdSrc) (d : Desc) (s : State) : Host.Outcome State Fault Refusal :=
  let a := commitArgs d
  .next <| s.runCmd src d (s.commitOk d) [0, 1] true fun t =>
    match t.commitRefused src a with
    | some r => .refuse r.1 r.2
    | none =>
      if a.fabric then
        (if t.fabTooLate a.at_ then .done t 11 0
         else .long ((t.startHeat (t.commitJob a)).fabStart a.at_ a.id a.mask a.dryRun false) .fabricCommit)
      else .long (t.startHeat (t.commitJob a)) .commit

/-- The swap time of a job whose heat has just passed: T, or for an untimed activation 1 ms from now (R49, R455). -/
def State.swapTime (s : State) (j : CommitJob) : Nat := if j.soon then s.domNs 0 + 10 ^ 6 else j.at_

/-- The swap time is too near the end of the heat: 100 µs, for an activation 1 ms (R49, R455). -/
def State.swapTooLate (s : State) (j : CommitJob) : Bool := s.swapTime j < s.domNs 0 + (if j.upd then 10 ^ 6 else 10 ^ 5)

/-- What the end of a local heat leads to (R48, R49, R455). A commit of firmware's own has no command to complete (R445). -/
def State.localHeated (s : State) (j : CommitJob) : State :=
  if !heatPassed j.heat then (if j.own then s.commitIdle else s.commitIdle.finishRunning 5 0)
  else if j.dryRun then s.commitIdle.finishRunning 0 0
  else if !j.timed && !j.upd then s.swapNow j
  else if s.swapTooLate j then s.commitIdle.finishRunning 11 0
  else
    let s1 := s.commitPends { j with at_ := s.swapTime j }
    (if j.upd then s1.updTo 5 else s1).finishRunning 0 0

/-- HEAT_DONE: the heat in progress ends after `us` µs (R48, R49, R252, R256, R357). -/
def execHeatDone (us : Word) (s : State) : Host.Outcome State Fault Refusal :=
  match s.fab.job with
  | none => .next s
  | some j =>
    if s.commitState ≠ 1 ∨ j.heated then .next s
    else
      let r := s.heatEnds j us.toNat
      let ok := heatPassed r.2.heat
      .next <| match r.1.hfp.fabMember, r.1.hfp.fabInit with
        | some m, _ => if j.fabric then r.1.memberVotes m ok else r.1.localHeated r.2
        | none, some f =>
          if j.fabric then (r.1.bset fun b => { b with fabInit := some { f with own := some (if ok then 0 else 5) } }).fabAdvance
          else r.1.localHeated r.2
        | none, none => r.1.localHeated r.2

/-- A pending commit is cancelled on this device (R51); DEDUCED: a fabric-wide one reads RESULT = aborted, and no other device
is told. -/
def State.cancelPending (s : State) (j : CommitJob) : State :=
  if j.fabric then ((s.bset fun b => { b with fabInit := none, fabMember := none }).showCmit j.id 0 3 0).commitIdle
  else s.commitIdle

/-- COMMIT_ABORT (R51, R455). -/
def execCommitAbort (src : CmdSrc) (d : Desc) (s : State) : Host.Outcome State Fault Refusal :=
  .next <| s.runCmd src d (descZero d 16 64) [0, 1] false fun t =>
    match t.fab.job with
    | none => .refuse 2 0
    | some j =>
      if t.commitState ≠ 2 then .refuse 2 0
      else if j.upd then .refuse 6 9
      else if t.domNs 0 ≥ j.at_ then .refuse 2 0
      else .done (t.cancelPending j) 0 0

/-- SWAP: the swap time of a pending commit has come (R50, R52, R357). An update activation has its own row. -/
def execSwap (s : State) : Host.Outcome State Fault Refusal := .next s.swapDue

/-- DRAIN_END: the last frame of the old epoch has left (R42, R53). -/
def execDrainEnd (s : State) : Host.Outcome State Fault Refusal := .next s.drainCheck

/-- A reason record (R254). -/
def HeatRec.image (r : HeatRec) : List Byte :=
  leBytes 1 r.code ++ leBytes 1 r.lane ++ leBytes 2 r.decl ++ leBytes 2 r.stream ++ leBytes 1 r.port ++ leBytes 1 r.pool
    ++ leBytes 4 r.value ++ leBytes 4 r.limit ++ leBytes 16 0

/-- A bounds entry of HEAT_REPORT (R255). -/
def PairBound.image (b : PairBound) : List Byte :=
  leBytes 2 b.decl ++ leBytes 1 b.port ++ leBytes 1 b.lane ++ leBytes 4 b.bound ++ leBytes 4 b.chg ++ leBytes 4 b.deadline

/-- What HEAT_REPORT writes at HOST_ADDR (R255). -/
def State.heatReport (s : State) (bounds : Bool) (limit : Nat) : List Byte :=
  let all := if bounds then s.fab.lastHeat.bounds.map PairBound.image else s.fab.lastHeat.records.map HeatRec.image
  let l := all.take limit
  leBytes 4 l.length ++ leBytes 1 (s.get HEAT_STATUS_RESULT) ++ leBytes 1 (s.get HEAT_STATUS_TRUNC)
    ++ leBytes 2 (s.get HEAT_RUN_ID_COMMIT_ID) ++ leBytes 4 all.length ++ leBytes 4 0 ++ l.flatten

/-- HEAT_REPORT (R255). -/
def execHeatReport (src : CmdSrc) (d : Desc) (s : State) : Host.Outcome State Fault Refusal :=
  let addr := descBits d 16 64
  let kind := descBits d 24 8
  let limit := descBits d 28 32
  let ok := !src.remote && addr % 64 == 0 && kind ≤ 1 && descZero d 25 28 && 1 ≤ limit && limit ≤ 67584 && descZero d 32 64
  .next <| s.runCmd src d ok [0, 1] false fun t =>
    if t.get HEAT_STATUS_RESULT = 0 then .refuse 6 0
    else .done (t.hostPut addr (t.heatReport (kind == 1) limit)) 0 0

end Sys2Proof.Machine
end

