-- ==== Sys2Proof/Machine/Power.lean ====
section
/-! DEFINITION. The rows of power states, domains, sleep and wake (R460–R483). -/
namespace Sys2Proof.Machine

/-- POWER_STATE (R464). -/
def execPowerState (src : CmdSrc) (d : Desc) (s : State) : Host.Outcome State Fault Refusal :=
  let target := descBits d 16 8
  .next <| (s.runCmd src d ((target == 0 || target == 1 || target == 4) && descZero d 17 64) [0, 1, 3] false fun t =>
    match t.powerRefused target with
    | some r => .refuse r.1 r.2
    | none =>
      if target = 4 ∨ t.power = 3 then .done (t.powerRequest target) 0 0
      else .long (t.powerRequest target) (.power target)).settleSwitch

/-- The sleep image is read back from DRAM and returns to the Fabric island (R467). DESIGN CHOICE (log 123): one with an uncorrectable word,
or that a later write of DRAM has overlapped, is not restored, and IMG_VALID is 0. -/
def State.readSleepImage (s : State) : State :=
  match s.dram.sleepImg with
  | none => s.set PWR_STATUS_IMG_VALID 0
  | some (base, i) =>
    let t := s.dramFetch (base * 2 ^ 21) (2 ^ 22)
    if (s.dramBad (base * 2 ^ 21) (2 ^ 22)).any fun e => e.2 != 1 then t.set PWR_STATUS_IMG_VALID 0 else t.restoreImage i

/-- The sleep image returns once, when the Fabric island and DRAM are up in a wake (R467). -/
def State.restoreIfReady (s : State) : State :=
  if s.power = 5 && s.pdOn 3 && s.pdOn 8 && s.on PWR_STATUS_IMG_VALID && s.pwr.imgWritten then
    { s with pwr := { s.pwr with imgWritten := false } }.readSleepImage
  else s

/-- A domain reaches power-good: its islands start (R461, R465, R477, R479); with PERST_N high, the PCIe link trains as `link` says. -/
def State.domainGood (s : State) (pd : Nat) (link : Option (Fin 3 × Fin 4)) : State :=
  let s1 := s.set PWR_STATUS_ON (setBits (s.get PWR_STATUS_ON) (pd - 1) 1 1)
  let s2 := match pd with
    | 2 => s1.timePowerUp
    | 3 => s1.islandStarts .fabric 0
    | 4 => s1.islandUp .umpire 0
    | 5 => s1.islandStarts .edge 0
    | 6 => s1.islandUp .key 0
    | 7 => if s1.hif.perstLow then s1 else { s1 with pins := { s1.pins with pcieTxOn := true } }.pcieLink link
    | 8 => s1.dramPowerUp
    | _ => (s1.each (portsOf (2 ^ pd)) fun t n => t.portPowerGood n).forwardPorts
  s2.restoreIfReady

/-- DOMAIN_POWER_GOOD (R461). -/
def execDomainPowerGood (pd : Fin 15) (s : State) (link : Option (Fin 3 × Fin 4) := none) : Host.Outcome State Fault Refusal :=
  if s.alive && pd.val ≠ 0 && bit s.pwr.want pd.val && !s.pdOn pd.val then
    .next ((s.domainGood pd.val link).settleSwitch.finishWake)
  else .next s

/-- The write of the sleep image into 4 MiB of DRAM at BASE (R467). -/
def State.writeSleepImage (s : State) : State :=
  if s.on PWR_IMG_EN && s.dramReady then
    let s1 := s.dramTaken (s.get PWR_IMG_BASE * 2 ^ 21) (2 ^ 22)
    { s1 with dram := { s1.dram with sleepImg := some (s.get PWR_IMG_BASE, s.sleepImage) }, pwr := { s1.pwr with imgWritten := true } }
  else { s with pwr := { s.pwr with imgWritten := false } }

/-- The image that cannot be written, since DRAM is not in service: 0 the sleep image, 1 Umpire, 2 Rigger, 3 key (R472 cause 5). -/
def State.imageMissing (s : State) : Option Nat :=
  if s.dramReady then none
  else if s.on PWR_IMG_EN then some 0
  else ([ImgUnit.ump, .rig, .key].find? fun u => s.up (unitIsland u) && s.on (unitEn u)).map fun u => unitIdx u + 1

/-- SLEEP_COMMIT: the work of step 3 ends; an image that is not written aborts with cause 5 (0 sleep, 1 Umpire, 2 Rigger, 3 key), whether
its write has failed or DRAM is not in service; else the latch sets (R470–R472). -/
def execSleepCommit (failed : Option (Fin 4)) (s : State) : Host.Outcome State Fault Refusal :=
  if s.power ≠ 3 || s.pwr.latched || !s.pwr.waitAck.isEmpty then .next s
  else match (failed.map (·.val)).or s.imageMissing with
    | some k => .next (s.abortEntry 5 k)
    | none =>
      if s.unmaskedFaults ≠ 0 then .next (s.abortEntry 6 (s.rd GLB_FAULT).toNat)
      else
        let s1 := ((s.writeSleepImage.refreshImages).saveTime).savePns
        .next { s1 with pwr := { s1.pwr with latched := true } }

/-- The switched domains in the order in which sleep takes them off (R470 step 5). -/
def sleepOrder : List Nat := [7, 6, 5, 4, 3, 9, 10, 11, 12, 13, 14, 8, 2, 1]

/-- The device sleeps: STATE = 4, INH_OUT follows INH_SLEEP, the cores are held (R470 step 5); IMG_VALID says that the sleep image was written
and DRAM is in self-refresh (R467). -/
def State.asleep (s : State) : State :=
  let low := s.on PWR_CFG_INH_SLEEP
  let s1 := (s.set PWR_STATUS_STATE 4).put PWR_STATUS_IMG_VALID (s.pwr.imgWritten && s.pwr.selfRefresh.isSome)
  { s1 with pwr := { s1.pwr with inhHigh := !low, inhStayed := !low, want := 0 }, cox := { s1.cox with coresHeld := true } }

/-- SLEEP_POWER_DOWN: the switched domains go off in order; a wake or fault latched since the commit point then wakes the
device in the same tick (R470 step 5, R473, R480). A domain whose image is being written holds it up (R191, R326, R438). -/
def execSleepPowerDown (s : State) : Host.Outcome State Fault Refusal :=
  if !s.pastCommit || s.imgHolds 4 || s.imgHolds 5 || s.imgHolds 6 then .next s
  else
    let s1 := (s.each sleepOrder fun t pd => t.domainOff pd).asleep
    .next (if s1.pwr.lateSource = 0 then s1 else s1.beginWake 6 0xFF s1.pwr.lateSource s1.pwr.latePort s1.pwr.lateFault)

/-- SLEEP_TIMEOUT: acknowledgements are missing after SLEEP_TIMEOUT: the entry aborts with cause 2 (R470), and in a
switch to Feather the port is taken to OFF without a record (R465). -/
def execSleepTimeout (s : State) : Host.Outcome State Fault Refusal :=
  if s.pwr.waitAck.isEmpty then .next s
  else if s.power = 3 then .next (s.abortEntry 2 (s.pwr.waitAck.foldl min 63))
  else if s.pwr.goal = some 1 then
    let s1 := s.each s.pwr.waitAck fun t n => t.portToOff n
    .next ({ s1 with pwr := { s1.pwr with waitAck := [] } }.settleSwitch)
  else .next s

/-- WAKE_IN: the pin has held its active level for the filter time (R476). Before the commit point of a sleep entry it aborts the entry,
enabled as a source or not. -/
def execWakeIn (s : State) : Host.Outcome State Fault Refusal :=
  if !s.alive then .next s
  else
    let s1 := s.set WAK_STATUS_WAKE_IN 1
    .next (if s1.sourceOn 1 0xFF || s1.power == 3 && !s1.pastCommit then (s1.wakeEvent 1 0xFF).settleSwitch else s1)

/-- WAKE_TIMER: the AON wake timer expires (R475). -/
def execWakeTimer (s : State) : Host.Outcome State Fault Refusal :=
  if s.alive && s.get WAK_TIMER_SECONDS ≠ 0 && s.sourceOn 4 0xFF then .next ((s.wakeEvent 4 0xFF).settleSwitch) else .next s

/-- VEHICLE_STILL_FALL (R475). -/
def execVehicleStillFall (s : State) : Host.Outcome State Fault Refusal :=
  if !s.alive then .next s
  else
    let s1 := s.set WAK_STATUS_STILL 0
    .next (if s1.sourceOn 5 0xFF then (s1.wakeEvent 5 0xFF).settleSwitch else s1)

/-- WAKE_OUT_END: the pulse ends after WIDTH_MS (R479). -/
def execWakeOutEnd (s : State) : Host.Outcome State Fault Refusal := .next { s with pwr := { s.pwr with wakeOut := false } }

/-- The false-wake return (R481), where a request for Sleep would be taken (R464, R490). -/
def State.falseReturn (s : State) : State :=
  let s1 := s.stopIdle
  if (s1.power = 0 ∨ s1.power = 1) ∧ (s1.powerRefused 4).isNone then
    ((s1.set WAK_SOURCE_FALSE 1).inc WAK_COUNT_FALSE_WAKES).enterSleepEntry
  else s1

/-- FALSE_WAKE: the timer expires; while WAKE_IN is active the return waits (R476, R481). -/
def execFalseWake (s : State) : Host.Outcome State Fault Refusal :=
  if !s.pwr.idleTimer then .next s
  else if s.on WAK_STATUS_WAKE_IN then .next { s with pwr := { s.pwr with falsePending := true } }
  else .next s.falseReturn

/-- WAKE_IN_RELEASE: the pin leaves its active level (R476). -/
def execWakeInRelease (s : State) : Host.Outcome State Fault Refusal :=
  if !s.alive then .next s
  else
    let s1 := s.set WAK_STATUS_WAKE_IN 0
    .next (if s1.pwr.falsePending && s1.pwr.idleTimer then s1.falseReturn else s1)

/-- VBAT_SAMPLE: VBAT_SENSE in mV, times RATIO, in 10 mV steps (R482); `still` is the level of VEHICLE_STILL, whose
rise has no row of its own. -/
def execVbatSample (mv : BitVec 16) (still : Bool) (s : State) : Host.Outcome State Fault Refusal :=
  if !s.alive then .next s
  else
    let s1 := s.set PWR_VBAT_MV (min (mv.toNat * s.get PWR_VBAT_CFG_RATIO / 10) 65535)
    .next (if still then s1.set WAK_STATUS_STILL 1 else s1)

end Sys2Proof.Machine
end

