-- ==== Sys2Proof/Machine/Update.lean ====
section
/-! DEFINITION. The rows of firmware update (R445–R459): loading, checking, writing flash, activation, the health window,
the abort and the replay. -/
namespace Sys2Proof.Machine

/-! ### DRAM in Boathouse (R452) -/

/-- In Boathouse the first UPD_LOAD powers PD8 and sets ENABLE, which trains DRAM (R164, R452). -/
def State.updDramOn (s : State) : State :=
  let s1 := { s with pwr := { s.pwr with want := s.pwr.want ||| 2 ^ 8 } }.domainGood 8 none
  (s1.set REC_DRAM_CFG_ENABLE 1).dramHook (s1.rd REC_DRAM_CFG).toNat

/-! ### Loading and checking (R453, R454) -/

/-- UPD_LOAD (R452, R453, R502). In Boathouse the first one lasts until the training that it starts has ended. -/
def execUpdLoad (src : CmdSrc) (d : Desc) (s : State) : Host.Outcome State Fault Refusal :=
  let addr := descBits d 16 64
  let off := descBits d 24 32
  let len := descBits d 28 32
  let first := descBits d 32 1 == 1
  let ok := !src.remote && addr % 64 == 0 && off % 64 == 0 && 64 ≤ len && len ≤ 1048576 && descBits d 32 8 / 2 == 0 && descZero d 33 64
  .next <| s.runCmd src d ok [0, 1, 2] false fun t =>
    if t.updLive > 2 then .refuse 5 t.updLive
    else if t.updLive ≠ 1 && t.worn .updState then .done t 8 0
    else if t.power = 2 && !t.pdOn 8 then .long t.updDramOn (.updLoad addr off len first)
    else if !t.pdOn 8 then .refuse 3 8
    else if !t.dramReady then .refuse 6 0
    else
      let r := t.updLoaded addr off len first
      .done r.1 r.2 0

/-- UPD_VERIFY (R452, R454): a long operation that COMMAND_DONE ends. -/
def execUpdVerify (src : CmdSrc) (d : Desc) (s : State) : Host.Outcome State Fault Refusal :=
  .next <| s.runCmd src d (descBits d 20 32 / 2 == 0 && descZero d 24 64) [0, 1, 2] false fun t =>
    if t.updLive ≠ 1 then .refuse 5 t.updLive else .long t .updVerify

/-- The blocks that a checked package writes are set out (R447, R454). -/
def State.updTakes (s : State) (write : Bool) : State :=
  let m := s.staged 0 (manLen (s.staged 0 6))
  let l := s.installed m
  let todo := if write then writeList l else []
  let s1 := s.pset fun u => { u with manifest := m, seq := manSeq m, floor := manFloor m, entries := l.map (·.2), todo := todo, tries := 0, slots := 0 }
  if write then (s1.progress todo.length 0).updTo 3 else s1.updTo 2

/-- The staged manifest is read (R164, R454). -/
def State.fetchManifest (s : State) : State :=
  let t := s.dramFetch (s.stageAddr 0) 64
  t.dramFetch (t.stageAddr 64) (manLen (t.staged 0 6) - 64)

/-- The block records of the staged parts are read (R164, R454 check 6). -/
def State.fetchParts (s : State) : State :=
  s.each (s.installed (s.staged 0 (manLen (s.staged 0 6)))) fun t e => t.dramFetch (t.stageAddr e.2.offset) (65540 * partBlocks e.2)

/-- A verification ends (R454): the failing check, or the state 2 or 3, unless the state's word is worn (R502). The parts are read from check 6 on. -/
def State.updVerified (s0 : State) (pkg : Nat) (write : Bool) : State :=
  let m := s0.fetchManifest
  let s := match m.updChecks pkg write with
    | some (check, _, _) => if check ≤ 5 then m else m.fetchParts
    | none => m.fetchParts
  match s.updChecks pkg write with
  | some (check, entry, status) => s.finishRunning status (check * 256 + entry)
  | none =>
    if s.worn .updState then s.finishRunning 8 0
    else (s.updTakes write).finishRunning 0 (s.installed (s.staged 0 (manLen (s.staged 0 6)))).length

/-- The block record in work is read from staging (R164). -/
def State.fetchBlock (s : State) : State :=
  match s.upd.todo with
  | (_, some o) :: _ => s.dramFetch (s.stageAddr o) 65536
  | _ => s

/-- FLASH_BLOCK_DONE: the block in work has been journaled, written and read back, or an attempt has failed; the third
failure reverts with cause 2 (R447, R454). -/
def execFlashBlockDone (ok : Bool) (s : State) : Host.Outcome State Fault Refusal :=
  if !s.up .cox ∨ s.updLive ≠ 3 ∨ s.upd.todo.isEmpty then .next s
  else
    let t := s.fetchBlock.journalFirst
    if ok then .next t.flashWritten
    else if s.upd.tries + 1 < 3 then .next t.blockSpoiled
    else .next (t.blockSpoiled.beginRevert 2)

/-! ### Activation (R445, R455, R456) -/

/-- Cox firmware stages the new parts 3 and 4 of units that are powered (R455). -/
def State.stageParts (s : State) : State :=
  s.stageTables (s.upd.entries.filter fun p => (p.part == 3 && s.pdOn 5) || (p.part == 4 && s.pdOn 4))

/-- The job of an activation: a timed commit, whose T without TIMED is 1 ms after its heat (R455). -/
def State.updJob (s : State) (timed fabric : Bool) (id at_ : Nat) : CommitJob :=
  { mask := s.partMask, timed := true, fabric := fabric, dryRun := false, id := id, at_ := at_, upd := true, soon := !timed }

/-- The arguments of UPD_ACTIVATE are in range (R455, R47). -/
def State.activateOk (s : State) (d : Desc) : Bool :=
  let a := commitArgs d
  descZero d 16 20 && descBits d 20 32 / 4 == 0 && descZero d 30 32 && descZero d 38 64 && decide (a.ns ≤ 999999999)
    && (!a.fabric || a.timed) && (!a.timed || decide (a.at_ ≤ s.domNs 0 + 86400 * 10 ^ 9)) && !(s.power == 2 && (a.timed || a.fabric))

/-- The states that refuse UPD_ACTIVATE (R341, R452, R463). -/
def State.activateRefused (s : State) (a : CommitArgs) : Option (Nat × Nat) :=
  if s.updLive ≠ 4 then some (5, s.updLive)
  else if s.commitState ≠ 0 then some (2, 0)
  else if s.adrift then some (4, 0)
  else if a.timed && !s.pdOn 2 then some (3, 2)
  else none

/-- UPD_ACTIVATE (R452, R455, R459). -/
def execUpdActivate (src : CmdSrc) (d : Desc) (s : State) : Host.Outcome State Fault Refusal :=
  let a := commitArgs d
  .next <| s.runCmd src d (s.activateOk d) [0, 1, 2] true fun t =>
    match t.activateRefused a with
    | some r => .refuse r.1 r.2
    | none =>
      if !t.updClear then .done t 13 0
      else if a.fabric && t.fabTooLate a.at_ then .done t 11 0
      else if t.worn .updState then .done t 8 0
      else
        let t1 := t.stageParts
        let t2 := t1.startHeat (t1.updJob a.timed a.fabric a.id a.at_)
        .long (if a.fabric then t2.fabStart a.at_ a.id 0 false true else t2) .updActivate

/-- The version of the PHY microcode that a manifest installs. -/
def State.microcode (s : State) (m : List Byte) : Option Nat :=
  ((s.installed m).find? fun e => e.2.part == 2).map (·.2.version)

/-- The PHY microcode changes: the manifest that block 0 held before the update names another version. -/
def State.microcodeChanges (s : State) : Bool :=
  match (s.upd.entries.find? fun p => p.part == 2), (s.validSlots.find? fun e => e.1 == 0) with
  | some p, some e => s.microcode e.2 != some p.version
  | some _, none => true
  | none, _ => false

/-- A port whose microcode changes goes through OFF (R456 step 2). -/
def State.portReload (s : State) (n : Nat) : State :=
  if s.up .port n && s.on (PRT_MODE_ENABLE n) then (s.portToOff n).portEnabled n else s

/-- What happens at T (R456). -/
def State.updActivates (s : State) (j : CommitJob) : State :=
  let s1 := if j.mask = 0 then s.commitIdle else s.swapNow j
  let s2 := if s1.microcodeChanges then s1.each extPorts fun t n => t.portReload n else s1
  let s3 := { s2 with cox := { s2.cox with startCode := 11 } }.coreReset
  s3.updTo 6

/-- UPD_ACTIVATION: T of a pending activation has come (R456); with PD2 off no time counts (R463), and the row itself says so. -/
def execUpdActivation (s : State) : Host.Outcome State Fault Refusal :=
  match s.fab.job with
  | some j =>
    if s.commitState = 2 ∧ j.upd ∧ (s.pdOn 2 → s.domNs 0 ≥ j.at_) then .next (s.updActivates j) else .next s
  | none => .next s

/-- HEALTH_EXPIRY: the health window ends without a commit: cause 1 or 4 is stored and the device resets with
UPDATE_REVERT; an initiator that has committed stops repeating CONFIRM (R457, R459). -/
def execHealthExpiry (s : State) : Host.Outcome State Fault Refusal :=
  if !s.up .cox then .next s
  else if s.updLive = 6 then .next ((s.storeCause 1).deviceReset 5)
  else if s.updLive = 7 then .next ((s.storeCause 4).deviceReset 5)
  else match s.hfp.fabInit with
    | some f => .next (if f.update && s.updLive = 0 then s.bset fun b => { b with fabInit := none } else s)
    | none => .next s

/-! ### Abort and replay (R448, R458) -/

/-- The initiator of a fabric-wide activation in state 5 sends ABORT, and repeats it (R358, R458). -/
def State.abortFabric (s : State) : State :=
  match s.hfp.fabInit with
  | some f =>
    if f.update && s.updLive = 5 then
      let g := { f with aborting := true, waiting := f.members, done := true }
      (((s.bset fun b => { b with fabInit := some g }).showCmit f.id 0 3 0).cmitAll g g.members 5).commitIdle
    else s
  | none => s

/-- The abort in states 1–5: writing stops; with a valid slot the journal is replayed. A worn state word refuses it (R502). -/
def State.updAbandon (s : State) : CmdOut :=
  let s1 := s.abortFabric
  if s.worn .updState then .done s 8 0
  else if s1.validSlots.isEmpty then
    .done (((s1.dropActivation.pset fun u => { u with todo := [], tries := 0, entries := [], slots := 0 }).updTo 0).updDramOff) 0 0
  else .long (s1.beginRevert 5) .updAbort

/-- UPD_ABORT (R452, R458): in states 6 and 7 the device resets after the completion. -/
def execUpdAbort (src : CmdSrc) (d : Desc) (s : State) : Host.Outcome State Fault Refusal :=
  let t := s.runCmd src d (descZero d 16 64) [0, 1, 2] false fun t =>
    let st := t.updLive
    if st = 0 ∨ st = 8 then .refuse 5 st
    else if st ≥ 5 && t.hfp.fabMember.any (·.update) then .refuse 6 10
    else if (st = 6 ∨ st = 7) && t.worn .updState then .done t 8 0
    else if st = 6 ∨ st = 7 then .done { t with rst := { t.rst with asked := true } } 0 0
    else t.updAbandon
  if t.rst.asked then .next (({ t with rst := { t.rst with asked := false } }.storeCause 5).deviceReset 5) else .next t

/-- JOURNAL_REPLAY_DONE: the replay ends in IDLE (R448, R450); DEDUCED: where the cores run on, the restored image is the one
that runs, and UPD_REVERTED follows at once. -/
def execJournalReplayDone (s : State) : Host.Outcome State Fault Refusal :=
  if !s.up .cox ∨ s.updLive ≠ 8 then .next s
  else
    let s1 := s.replayed.updDramOff
    let s2 := if s1.cox.coresHeld then s1 else s1.sayReverted
    .next (if s2.runningKind = some .updAbort then s2.finishRunning 0 0 else s2)

end Sys2Proof.Machine
end

