-- ==== Sys2Proof/Machine/Cmit.lean ====
section
/-! DEFINITION. The fabric-wide commit and update activation by message and timer (R357–R359, R459). -/
namespace Sys2Proof.Machine

/-- What a CMIT message says, as a member holds it (R359). -/
def cmitOf (m : HfpMsg) : FabMember :=
  let b := msgData m
  { from_ := m.src.val, t := beAt b 8 6 * 10 ^ 9 + beAt b 16 4, fcg := beAt b 20 4, id := beAt b 2 2, mask := beAt b 4 4,
    dryRun := beAt b 25 1 % 2 == 1, update := beAt b 14 2 % 2 == 1, phase := 1 }

/-- What a member votes before its heat: 0 none of these, 1 BUSY, 4 STATE (R47, R336, R341, R357, R399, R459). -/
def State.memberRefuses (s : State) (m : FabMember) : Nat :=
  let bad := (s.power != 0 && s.power != 1) || s.commitState != 0 || s.hfp.fabMember.isSome || s.hfp.fabInit.isSome
    || !s.peerHasAuthority m.from_ || s.adrift || !s.pdOn 2 || decide (m.mask ≥ 2 ^ 17) || (s.classOff (s.commitSet m.mask)).isSome
    || (m.update && (s.updLive != 4 || m.mask != 0))
  if s.power = 2 || s.frozen then 4 else if s.hif.running.isSome then 1 else if bad then 4 else 0

/-- A member takes part: its heat begins (R357 step 2, R455). -/
def State.memberStarts (s : State) (m : FabMember) : State :=
  let s1 := (s.bset fun b => { b with fabMember := some m }).showCmit m.id 1 0 0
  if m.update then
    let s2 := s1.stageParts
    s2.startHeat (s2.updJob true true m.id m.t)
  else s1.startHeat { mask := s1.commitSet m.mask, timed := true, fabric := true, dryRun := m.dryRun, id := m.id, at_ := m.t }

/-- CMIT_PREPARE (R357 step 2). -/
def execCmitPrepare (port : Fin 64) (m : HfpMsg) (s : State) : Host.Outcome State Fault Refusal :=
  let x := { m with typ := 0x0D }
  .next (s.hfpKeep port x fun t =>
    let c := cmitOf x
    match t.memberRefuses c with
    | 0 => t.memberStarts c
    | v => t.sendVote c v)

/-- The sequence that this device leads, when a message belongs to it. -/
def State.ledBy (s : State) (m : HfpMsg) : Option FabInit :=
  s.hfp.fabInit.bind fun f => if f.id = beAt (msgData m) 2 2 then some f else none

/-- CMIT_VOTE (R357 step 3, R358). -/
def execCmitVote (port : Fin 64) (m : HfpMsg) (s : State) : Host.Outcome State Fault Refusal :=
  let x := { m with typ := 0x0D }
  .next (s.hfpKeep port x fun t =>
    match t.ledBy x with
    | some f =>
      let r := beAt (msgData x) 1 1
      let g := { f with waiting := f.waiting.filter (· ≠ x.src.val), failed := if r = 0 then f.failed else f.failed ++ [(x.src.val, r)] }
      if f.armed || f.aborting || !f.waiting.contains x.src.val then t
      else (t.bset fun b => { b with fabInit := some g }).fabAdvance
    | none => t)

/-- The commit that this device holds as a member, when a message of its initiator belongs to it. -/
def State.heldFrom (s : State) (m : HfpMsg) : Option FabMember :=
  s.hfp.fabMember.bind fun c => if c.from_ = m.src.val ∧ c.id = beAt (msgData m) 2 2 then some c else none

/-- A member takes ARM (R357, R399, R459): pending, and ACK. A frozen one, one that has passed T, and for an update one that
fails check 11 do not answer. -/
def State.memberArms (s : State) (c : FabMember) : State :=
  match s.fab.job with
  | none => s
  | some j =>
    if c.phase = 3 then s.sendCmitAck c
    else if c.phase ≠ 2 ∨ s.frozen ∨ s.domNs 0 ≥ c.t ∨ (c.update ∧ !s.updClear) then s
    else
      let s1 := (((s.bset fun b => { b with fabMember := some { c with phase := 3 } }).commitPends { j with at_ := c.t }).showCmit c.id 3 0 0)
      (if c.update then s1.updTo 5 else s1).sendCmitAck c

/-- CMIT_ARM. -/
def execCmitArm (port : Fin 64) (m : HfpMsg) (s : State) : Host.Outcome State Fault Refusal :=
  let x := { m with typ := 0x0D }
  .next (s.hfpKeep port x fun t =>
    match t.heldFrom x with
    | some c => t.memberArms c
    | none => t)

/-- A member has answered: nothing waits for it any longer; once no answer is missing the sequence goes on or is over. -/
def State.answered (s : State) (f : FabInit) (peer : Nat) : State :=
  let g := { f with waiting := f.waiting.filter (· ≠ peer) }
  let finished := g.waiting.isEmpty && (g.aborting || (g.update && g.done && s.updLive == 0))
  (s.bset fun b => { b with fabInit := if finished then none else some g }).fabArmed

/-- CMIT_ACK: the answer to ARM, ABORT or CONFIRM (R357 step 4, R358, R459). -/
def execCmitAck (port : Fin 64) (m : HfpMsg) (s : State) : Host.Outcome State Fault Refusal :=
  let x := { m with typ := 0x0D }
  .next (s.hfpKeep port x fun t =>
    match t.ledBy x with
    | some f => if f.armed || f.aborting then t.answered f x.src.val else t
    | none => t)

/-- CMIT_ABORT: a member that has not swapped drops the commit, and answers (R358). -/
def execCmitAbort (port : Fin 64) (m : HfpMsg) (s : State) : Host.Outcome State Fault Refusal :=
  let x := { m with typ := 0x0D }
  .next (s.hfpKeep port x fun t =>
    match t.heldFrom x with
    | some c => if t.commitState = 1 ∨ t.commitState = 2 then (t.memberDrops c 3).sendCmitAck c else t.sendCmitAck c
    | none => t.sendCmitAck (cmitOf x))

/-- A member's CONFIRM at the initiator (R459 steps 1 and 2). -/
def State.takeConfirm (s : State) (f : FabInit) (peer : Nat) : State :=
  if f.confirmed.contains peer then s
  else (s.bset fun b => { b with fabInit := some { f with confirmed := f.confirmed ++ [peer] } }).fabConfirmed

/-- The initiator's CONFIRM at a member in state 7: it commits, sets HFP_FCG and answers (R459 step 3). -/
def State.memberConfirms (s : State) (c : FabMember) : State :=
  if s.updLive = 7 then ((s.updCommitted.fcgSet c.fcg).bset fun b => { b with fabMember := none }).sendCmitAck c else s

/-- CMIT_CONFIRM. A member that has committed already answers again. -/
def execCmitConfirm (port : Fin 64) (m : HfpMsg) (s : State) : Host.Outcome State Fault Refusal :=
  let x := { m with typ := 0x0D }
  .next (s.hfpKeep port x fun t =>
    match t.ledBy x, t.heldFrom x with
    | some f, _ => if f.update then t.takeConfirm f x.src.val else t
    | none, some c => if c.update then t.memberConfirms c else t
    | none, none => if t.updLive = 0 then t.sendCmitAck (cmitOf x) else t)

/-- PREPARE_TIMEOUT: the votes, or the own heat, that are missing fail the sequence (R357, R358). -/
def execPrepareTimeout (s : State) : Host.Outcome State Fault Refusal :=
  match s.hfp.fabInit with
  | some f =>
    if f.armed || f.aborting then .next s
    else
      let g := { f with failed := f.failed ++ f.waiting.map (·, 12), waiting := [], own := some (f.own.getD 12) }
      .next ((s.bset fun b => { b with fabInit := some g }).fabDecide g)
  | none => .next s

/-- ARM_MARGIN_DEADLINE: an ACK is missing at T − ARM_MARGIN (R358). -/
def execArmMarginDeadline (s : State) : Host.Outcome State Fault Refusal :=
  match s.hfp.fabInit with
  | some f => .next (if f.armed && !f.done && !f.aborting then s.fabFail f 12 3 (lowest f.waiting) else s)
  | none => .next s

/-- ABORT_REPEAT: 100 µs after an ABORT, while an answer is missing and T has not passed (R358). -/
def execAbortRepeat (s : State) : Host.Outcome State Fault Refusal :=
  match s.hfp.fabInit with
  | some f =>
    if !f.aborting then .next s
    else if f.waiting.isEmpty || decide (s.domNs 0 ≥ f.t) then .next (s.bset fun b => { b with fabInit := none })
    else .next (s.cmitAll f f.waiting 5)
  | none => .next s

/-- PHASE2_DROP: a member without ARM at T − ARM_MARGIN / 2 drops the commit: RESULT = lost (R358). -/
def execPhase2Drop (s : State) : Host.Outcome State Fault Refusal :=
  match s.hfp.fabMember with
  | some c => .next (if c.phase = 2 then s.memberDrops c 4 else s)
  | none => .next s

/-- CONFIRM_REPEAT: 100 ms after a CONFIRM, to the members that have not answered (R459). -/
def execConfirmRepeat (s : State) : Host.Outcome State Fault Refusal :=
  match s.hfp.fabInit with
  | some f => .next (if f.update && f.done && !f.aborting && s.updLive == 0 then s.cmitAll f f.waiting 6 else s)
  | none => .next s

end Sys2Proof.Machine
end

