-- ==== Sys2Proof/Machine/Fdb.lean ====
section
/-! DEFINITION. The rows of the forwarding database: ageing, FDB_FLUSH and FDB_DUMP (R141–R144). -/
namespace Sys2Proof.Machine

/-- AGE_SWEEP: once AGE_TIME has passed on the reference clock since the period began, the sweep runs and the next period begins
(R141). -/
def execAgeSweep (s : State) : Host.Outcome State Fault Refusal :=
  let next := s.fab.ageTick + s.get FWD_AGE_AGE_TIME * 500000000
  .next (if s.up .fabric && s.on FWD_AGE_AGE_EN && decide (next ≤ s.refTicks) then s.ageSweep.fset fun f => { f with ageTick := next } else s)

/-- FDB_FLUSH (R143). -/
def execFdbFlush (src : CmdSrc) (d : Desc) (s : State) : Host.Outcome State Fault Refusal :=
  let port := descBits d 16 8
  let byFid := descBits d 17 1 == 1
  let fid := descBits d 18 12
  let ok := (port < 70 || port == 0xFF) && descBits d 17 8 < 2 && descBits d 18 16 < 4096 && descZero d 20 64
    && (!byFid || (1 ≤ fid && fid ≤ 4094))
  .next <| s.runCmd src d ok [0, 1] false fun t =>
    .done (t.flushLearned (if port = 0xFF then none else some port) (if byFid then some fid else none)) 0 0

/-- An entry of the database as FDB_DUMP writes it (R144): MAC, FID, port and flags. -/
def fdbEntry (mac fid port flags : Nat) : List Byte :=
  beBytes 6 mac ++ leBytes 2 fid ++ leBytes 1 port ++ leBytes 1 flags ++ leBytes 6 0

/-- Every entry of the database by its place: static ones and learned ones. -/
def State.fdbWalk (s : State) : SMap (List Byte) :=
  let l := s.fab.learned.map fun e => (e.1, fdbEntry e.2.mac e.2.fid e.2.port (if e.2.hit then 2 else 0))
  (placeStatics (statics s.fab.active)).foldl (fun m e => SMap.insert m e.1 (fdbEntry e.2.mac e.2.fid 0xFF 1)) l

/-- A dump of walked entries: those from CURSOR on, at most MAX, after a summary with COUNT and NEXT (R144, R187). DESIGN
CHOICE: a cursor is the place of the next entry. -/
def dumpImage (walk : SMap (List Byte)) (cursor limit : Nat) : List Byte :=
  let rest := walk.filter fun e => cursor ≤ e.1
  let now := rest.take limit
  let next := match rest.drop limit with
    | [] => 0xFFFFFFFF
    | e :: _ => e.1
  leBytes 4 now.length ++ leBytes 4 next ++ leBytes 8 0 ++ now.flatMap (·.2)

/-- The arguments of a dump: host address, cursor, and a MAX up to `top`. -/
def dumpOk (src : CmdSrc) (d : Desc) (top : Nat) : Bool :=
  !src.remote && descBits d 16 64 % 64 == 0 && 1 ≤ descBits d 28 32 && descBits d 28 32 ≤ top && descZero d 32 64

/-- FDB_DUMP (R144). -/
def execFdbDump (src : CmdSrc) (d : Desc) (s : State) : Host.Outcome State Fault Refusal :=
  .next <| s.runCmd src d (dumpOk src d 65536) [0, 1] false fun t =>
    .done (t.hostPut (descBits d 16 64) (dumpImage t.fdbWalk (descBits d 24 32) (descBits d 28 32))) 0 0

end Sys2Proof.Machine
end

