-- ==== Sys2Proof/Machine/Hostif.lean ====
section
/-! DEFINITION. The rows of the host interface: resets of the Host island, doorbells, TX rings, ring set-up, holdoff,
NOP and the end of long commands (R364–R387). -/
namespace Sys2Proof.Machine

/-- HOST_RESET (R368). DEDUCED: HIF_STATUS shows the link, which an FLR leaves as it is and a hot reset trains anew. -/
def execHostReset (kind : HostResetKind) (s : State) : Host.Outcome State Fault Refusal :=
  if !s.alive then .next s
  else match kind with
    | .perst =>
      let s1 := s.clearIsland .host 0
      .next { s1 with hif := { s1.hif with perstLow := true }, pins := { s1.pins with pcieTxOn := false },
                      rst := { s1.rst with islands := s1.rst.islands.filter (· ≠ islandKey .host 0) ++ [islandKey .host 0] } }
    | .hotReset link => .next (if s.up .host then (s.clearIsland .host 0).pcieLink link else s)
    | .flr => .next (if s.up .host then s.flr else s)
    | .pd7 => .next (s.domainOff 7)

/-- DOORBELL_READ: the adaptive poll timer expires (R371). -/
def execDoorbellRead (s : State) : Host.Outcome State Fault Refusal :=
  if s.up .host && s.dmaOn && s.on HIF_CTRL_ENABLE then .next s.readDoorbell else .next s

/-- The next TX ring to serve (R373): highest PRIO with pending descriptors, round robin among equals from the one of that
PRIO served last. -/
def State.nextTxRing (s : State) : Option (Fin 16) :=
  let ready := (List.finRange 16).filter fun t => s.ringRuns (.tx t) && SMap.get s.hif.txProd 0 t.val != SMap.get s.hif.txCons 0 t.val
  let best := ready.foldl (fun m t => max m (s.get (HIF_TX_CFG_PRIO t.val))) 0
  let order := (List.range 16).map fun k => (Fin.ofNat 16 (SMap.get s.hif.txLast 15 best + 1 + k))
  order.find? fun t => ready.contains t && s.get (HIF_TX_CFG_PRIO t.val) == best

/-- The writeback of a TX descriptor, TX_CONS and the ring's vector (R373, R385, R386). -/
def State.txWriteback (s : State) (t : Fin 16) (a status : Nat) : State :=
  let cons := SMap.get s.hif.txCons 0 t.val + 1
  let s1 := s.hostWr (a + 24) 8 (status + 256)
  let last := SMap.put s1.hif.txLast 15 (s.get (HIF_TX_CFG_PRIO t.val)) t.val
  let s2 := { s1 with hif := { s1.hif with txCons := SMap.put s1.hif.txCons 0 t.val cons, txLast := last } }
  let s3 := s2.hostWr (s2.get HIF_ST_BASE_ADDR * 4096 + 0x40 + 4 * t.val) 4 cons.toNat
  s3.raiseSource t.val (s3.on (HIF_TX_CFG_VEC_EN t.val)) (s3.get (HIF_TX_CFG_VEC t.val)) (s3.get (HIF_TX_CFG_HOLDOFF t.val))

/-- TX_DESC_FETCH: one TX descriptor and its frame (R372, R373); the rings wait while no frame is accepted (R470). -/
def execTxDescFetch (s : State) : Host.Outcome State Fault Refusal :=
  match if s.framesStopped then none else s.nextTxRing with
  | none => .next s
  | some t =>
    let slot := (SMap.get s.hif.txCons 0 t.val).toNat % ringSize (s.get (HIF_TX_CFG_LOG2_SIZE t.val))
    let a := s.get (HIF_TX_BASE_ADDR t.val) * 64 + 32 * slot
    let d := s.hostRd a 32
    let len := bits d 64 16
    let port := bits d 112 8
    let good := 60 ≤ len && len ≤ 9212 && port < 64 && bits d 82 14 == 0 && bits d 120 72 == 0 && bits d 201 7 == 0
      && bits d 208 48 == 0
    if good then
      let bytes := s.hostBytes (bits d 0 64) len
      let s1 := (s.inc (HIF_TX_FRAMES_COUNT t.val)).txWriteback t a 0
      let tag : TxTag := { ring := t.val, tag := bits d 96 16, req := bit d 80 }
      .next (s1.internalIn 64 bytes (some tag) (if bit d 81 then some port else none))
    else .next ((s.inc (HIF_TX_DESC_ERR_COUNT t.val)).txWriteback t a 3)

/-- NOP (R380). -/
def execNop (src : CmdSrc) (d : Desc) (s : State) : Host.Outcome State Fault Refusal :=
  .next <| s.runCmd src d (descZero d 16 64) [0, 1, 2] false fun t => .done t 0 0

/-- The vector of a source (R385). -/
def State.sourceVector (s : State) (k : Nat) : Bool × Nat × Nat :=
  if k < 16 then (s.on (HIF_TX_CFG_VEC_EN k), s.get (HIF_TX_CFG_VEC k), s.get (HIF_TX_CFG_HOLDOFF k))
  else if k < 32 then (s.on (HIF_RX_CFG_VEC_EN (k - 16)), s.get (HIF_RX_CFG_VEC (k - 16)), s.get (HIF_RX_CFG_HOLDOFF (k - 16)))
  else (s.on (HIF_EVT_VEC_EN (k - 32)), s.get (HIF_EVT_VEC_VEC (k - 32)), s.get (HIF_EVT_VEC_HOLDOFF (k - 32)))

/-- MSIX_HOLDOFF_END: a deferred raise is sent, and its own holdoff begins (R385). -/
def execMsixHoldoffEnd (source : Fin 48) (s : State) : Host.Outcome State Fault Refusal :=
  let st := SMap.get s.hif.holdoff 0 source.val
  let s1 := { s with hif := { s.hif with holdoff := SMap.put s.hif.holdoff 0 source.val 0 } }
  let v := s1.sourceVector source.val
  .next (if st = 2 then s1.raiseSource source.val v.1 v.2.1 v.2.2 else s1)

/-- A persistent slot is still being written: the command that writes it runs on (R415). -/
def State.slotsBusy (s : State) : Bool :=
  s.rst.pw.any fun w => match w.tgt with
    | .keySlot _ => true
    | _ => false

/-- COMMAND_DONE: a running long operation ends (R377, R384, R405, R408), with the power that it had on demand (R422, R460); `missA`, `missB` are the self-test of a
change to paired mode. -/
def execCommandDone (missA missB : Bool) (s : State) : Host.Outcome State Fault Refusal :=
  match s.runningKind with
  | some (.plain status result) => if s.slotsBusy then .next s else .next (s.finishRunning status result).keyOff
  | some (.coxMode target) => .next (s.coxModeDone target missA missB)
  | some (.lifecycle target h) => .next (s.lifecycleDone target h)
  | some .updVerify =>
    let d := s.hif.running.elim 0 (·.desc)
    .next (s.updVerified (descBits d 16 32) (bit (descBits d 20 32) 0))
  | some (.ownerLock b) => .next ((s.put COX_LIFECYCLE_OWNER_LOCK b).domainsFollow.finishRunning 0 0)
  | _ => .next s

end Sys2Proof.Machine
end

