-- ==== Sys2Proof/Machine/Locks.lean ====
section
/-! DEFINITION. Locked sequences and the commands of the bridge (R348–R351, R355). -/
namespace Sys2Proof.Machine

/-- The command arrives by HFP where only the local ring may give it: BAD_OPCODE (R348, R378). -/
def State.badOpcode (s : State) (src : CmdSrc) (d : Desc) : State :=
  let s0 := s.stopIdle
  if s.hif.running.isSome then (if src.remote then s0.complete src d false 1 0 else s) else s0.complete src d false 2 0

/-- How a request of the host to a peer ends before it is sent: POISONED or REMOTE_FAIL (R342, R354). -/
def State.notSent (s : State) (peer : Nat) : Option CmdOut :=
  if s.poisoned 0 peer then some (.done (s.inc HFP_POISONED_COUNT) 10 0)
  else if !bit (s.get HFP_REACH_PEERS) peer then some (.done s 12 0) else none

/-- REMOTE_CMD (R348). DEDUCED: LEN is a multiple of 4, as R333 asks of a request, and PEER is not the own ID. -/
def execRemoteCmd (src : CmdSrc) (d : Desc) (s : State) : Host.Outcome State Fault Refusal :=
  let peer := descBits d 16 8
  let cls := descBits d 17 8
  let addr := descBits d 24 64
  let len := descBits d 32 16
  let ok := peer < 32 && cls < 2 && descZero d 18 24 && addr % 64 == 0 && 64 ≤ len && len ≤ 256 && len % 4 == 0 && descZero d 34 64
    && !(peer == s.ownId && s.on HFP_CFG_EN)
  if src.remote then .next (s.badOpcode src d)
  else .next <| s.runCmd src d ok [0, 1] false fun t =>
    match t.notSent peer with
    | some o => o
    | none =>
      .long (t.ask { peer := peer, cls := cls, init := 0, typ := 6, posted := false, addr := 0, len := len,
                     data := t.hostBytes addr len, kind := .cmd }) .remoteCmd

/-- The operations of a LOCKED_SEQ (R349). -/
def lockArgs (d : Desc) : List LockOp :=
  (List.range (min 4 (descBits d 17 8))).map fun k => lockOpOf (descBits d (32 + 8 * k) 32) (descBits d (36 + 8 * k) 32)

/-- The arguments of a LOCKED_SEQ are in range (R349). -/
def lockArgsOk (d : Desc) : Bool :=
  let n := descBits d 17 8
  descBits d 16 8 < 32 && 1 ≤ n && n ≤ 4 && descZero d 18 24 && descBits d 24 64 % 32 == 0
    && (List.range 4).all fun k =>
      let w := descBits d (32 + 8 * k) 32
      (bits w 28 2 ≤ 2 || n ≤ k) && bits w 30 2 == 0 && !bit w 27

/-- Cox firmware starts a locked sequence of its own, with the operations of a descriptor (R351): it ends at once toward a peer that
cannot be asked, and waits in the bridge as one of the host does. DEDUCED: it starts none while one of it runs. -/
def State.coxSeq (s : State) (d : Desc) : State :=
  let peer := descBits d 16 8
  let l : LockSeq := { peer := peer, ops := lockArgs d, result := descBits d 24 64, holds := false }
  if !s.up .cox || s.cox.coresHeld || !s.hfpRuns || s.power = 2 || s.hfp.lockCox.isSome || !lockArgsOk d || peer == s.ownId then s
  else if s.poisoned 1 peer then (s.inc HFP_POISONED_COUNT).lockTell 1 l 10 []
  else if !bit (s.get HFP_REACH_PEERS) peer then s.lockTell 1 l 12 []
  else (s.lockPut 1 (some l)).lockTry

/-- LOCKED_SEQ (R349–R351): it waits in the bridge while a back-off runs or the bus is held for a peer. With `cox` it is a sequence
that Cox firmware starts. -/
def execLockedSeq (src : CmdSrc) (d : Desc) (s : State) (cox : Bool := false) : Host.Outcome State Fault Refusal :=
  let peer := descBits d 16 8
  if cox then .next (s.coxSeq d)
  else if src.remote then .next (s.badOpcode src d)
  else
    let t := s.runCmd src d (lockArgsOk d && !(peer == s.ownId && s.on HFP_CFG_EN)) [0, 1] false fun t =>
      match t.notSent peer with
      | some o => o
      | none =>
        .long (t.bset fun b => { b with lockOut := some { peer := peer, ops := lockArgs d, result := descBits d 24 64, holds := false } })
          .lockedSeq
    .next t.lockTry

/-- The own sequence that holds the bus yields to a device with a lower ID (R351). -/
def State.lockYield (s : State) : State :=
  let i := if s.hfp.lockOut.any (·.holds) then 0 else 1
  let own := fun a : HfpAsk => a.kind == .lock && a.init == i
  let s1 := s.bset fun b => { b with reqs := b.reqs.filter fun r => !own r.ask, waitReq := b.waitReq.filter fun a => !own a,
                                     stalled := b.stalled.filter fun a => !own a }
  (s1.lockEnd i 14).inc HFP_LOCK_COLLIDE_COUNT

/-- A LOCK_REQ on arrival: it waits for a bus that is held for a peer, and for earlier requests of its stream (R336, R345, R351). -/
def State.takeLock (s : State) (port : Nat) (m : HfpMsg) (cut : Option Nat) : State :=
  let wait := fun (t : State) => t.waits (.lock { port := port, msg := m, old := false, since := s.refTicks, cut := cut })
  let serve := fun (t : State) => if t.busHeld || t.streamWaits m then wait t else (t.lockServe m cut).busSettle
  if s.power = 2 then s.sendNak m 2
  else if s.on HFP_LOCK_STATUS_FAR_HELD then wait s
  else if s.on HFP_LOCK_STATUS_OUT_ACTIVE then (if m.src.val > s.ownId then s.sendNak m 1 else serve s.lockYield.busDrain)
  else serve s.busDrain

/-- LOCK_REQ (R344, R350, R351); `cut` says after how many operations LOCK_MAX passes while they run, if it does. -/
def execLockReq (port : Fin 64) (m : HfpMsg) (s : State) (cut : Option (Fin 4) := none) :
    Host.Outcome State Fault Refusal :=
  let x := { m with typ := 0x0A }
  .next (s.hfpKeep port x fun t => (t.seqTake x).takeLock port.val { x with body := msgData x } (cut.map (·.val)))

/-- LOCK_NAK: the sequence completes with RETRY and a back-off begins; after its end it is discarded (R351). -/
def execLockNak (port : Fin 64) (m : HfpMsg) (s : State) : Host.Outcome State Fault Refusal :=
  let x := { m with typ := 0x0B }
  .next (s.hfpKeep port x fun t =>
    match t.openReq x.src.val x.tag.toNat with
    | some r => if r.ask.kind = .lock then ((t.dropReq r.tag).lockEnd r.ask.init 14).retryAsks.busSettle else t
    | none => t)

/-- The bus is no longer held for a peer. -/
def State.lockFree (s : State) : State := ((s.set HFP_LOCK_STATUS_FAR_HELD 0).set HFP_LOCK_STATUS_HOLDER 0).busSettle

/-- LOCK_REL: the peer releases the bus (R350 step 4); DEDUCED: a request of that peer that still waits is dropped. -/
def execLockRel (port : Fin 64) (m : HfpMsg) (s : State) : Host.Outcome State Fault Refusal :=
  let x := { m with typ := 0x0C }
  .next (s.hfpKeep port x fun t =>
    let gone := fun (w : BusWait) => match w with
      | .lock r => r.msg.src == x.src
      | _ => false
    let t1 := t.bset fun b => { b with busWait := b.busWait.filter fun w => !gone w, rxStall := b.rxStall.filter fun w => !gone w }
    if t1.on HFP_LOCK_STATUS_FAR_HELD && t1.get HFP_LOCK_STATUS_HOLDER == x.src.val then t1.lockFree else t1)

/-- LOCK_MAX_EXPIRY: the bus has been held for a peer for LOCK_MAX. The requests that waited all that time get LOCK_NAK with
reason 2 (R350, R351). -/
def execLockMaxExpiry (s : State) : Host.Outcome State Fault Refusal :=
  if !s.up .fabric ∨ !s.on HFP_LOCK_STATUS_FAR_HELD then .next s
  else
    .next (s.lockDrop fun w => match w with
      | .lock r => r.old
      | _ => false).lockFree

/-- LOCK_BACKOFF_END: the back-off of the host or of Cox ends, and a sequence that waited goes (R351). -/
def execLockBackoffEnd (s : State) (cox : Bool := false) : Host.Outcome State Fault Refusal :=
  let i := if cox then 1 else 0
  .next (if s.up .fabric then
    ((s.bset fun b => { b with backEnd := SMap.erase b.backEnd i }).set (backoffFld i) 0).busSettle else s)

/-- CLEAR_POISON (R355). -/
def execClearPoison (src : CmdSrc) (d : Desc) (s : State) : Host.Outcome State Fault Refusal :=
  let i := descBits d 16 8
  let p := descBits d 17 8
  let ok := (i ≤ 1 || i == 0xFF) && (p ≤ 31 || p == 0xFF) && descZero d 18 64
  .next <| s.runCmd src d ok [0, 1] false fun t =>
    .done (t.each ([0, 1].filter fun k => i == k || i == 0xFF) fun u k =>
      u.set (HFP_POISON_PEERS k) (if p = 0xFF then 0 else setBits (u.get (HFP_POISON_PEERS k)) p 1 0)) 0 0

end Sys2Proof.Machine
end

