-- ==== Sys2Proof/Machine/Recorder.lean ====
section
/-! DEFINITION. The rows of the recorder, DRAM and the frame store's start and scrubber (R100, R122–R125, R157, R158, R163,
R164). -/
namespace Sys2Proof.Machine

/-! ### Recorder (R157, R158, R163) -/

/-- REC_PAGE_TIMEOUT: 1 s after a page opened it closes (R158). -/
def execRecPageTimeout (s : State) : Host.Outcome State Fault Refusal :=
  .next (if s.up .dram && s.dram.open_ then s.closePage else s)

/-- REC_FREEZE with MODE 1: FROZEN at once, the open page closing as the last (R157). -/
def State.freezeRecorder (s : State) : State := (if s.dram.open_ then s.writePage false true else s).recFreeze

/-- REC_FREEZE (R157, R163). -/
def execRecFreeze (src : CmdSrc) (d : Desc) (s : State) : Host.Outcome State Fault Refusal :=
  let mode := descBits d 16 8
  .next <| s.runCmd src d (mode < 2 && descZero d 17 64) [0, 1] false fun t =>
    if !t.pdOn 8 then .refuse 3 8
    else if t.recState ≠ 1 ∧ t.recState ≠ 2 then .refuse 5 t.recState
    else .done (if mode = 0 then t.recTrigger 1 else t.freezeRecorder) 0 0

/-- REC_REARM: recording continues at REC_HEAD (R157, R163). -/
def execRecRearm (src : CmdSrc) (d : Desc) (s : State) : Host.Outcome State Fault Refusal :=
  .next <| s.runCmd src d (descZero d 16 64) [0, 1] false fun t =>
    if !t.pdOn 8 then .refuse 3 8
    else if t.recState ≠ 3 then .refuse 5 t.recState
    else .done { t.set REC_STATUS_STATE 1 with dram := { t.dram with open_ := false, records := 0, used := 64, post := 0, sessions := [] } } 0 0

/-- One page of a REC_READ: its octets, ERR set in the header when a word of it was uncorrectable (R160, R163). -/
def State.copyPage (s : State) (page dest : Nat) : State :=
  let a := s.pageAddr page
  let dead := (s.dramBad a 65536).any fun e => e.2 != 1
  let t := s.dramFetch a 65536
  let b := t.dramBytes a 65536
  t.hostPut dest (if dead then putBytes b 12 (beBytes 2 (beAt b 12 2 ||| 4)) else b)

/-- REC_READ (R163). -/
def execRecRead (src : CmdSrc) (d : Desc) (s : State) : Host.Outcome State Fault Refusal :=
  let addr := descBits d 16 64
  let first := descBits d 24 32
  let count := descBits d 28 32
  let pages := s.get REC_PAGES_PAGES
  let ok := !src.remote && addr % 64 == 0 && decide (first < pages) && 1 ≤ count && count ≤ 4096 && decide (count ≤ pages) && descZero d 32 64
  .next <| s.runCmd src d (!s.pdOn 8 && !src.remote && addr % 64 == 0 && 1 ≤ count && count ≤ 4096 && descZero d 32 64 || ok) [0, 1] false fun t =>
    if !t.pdOn 8 then .refuse 3 8
    else if t.recState ≠ 0 ∧ t.recState ≠ 3 then .refuse 5 t.recState
    else .done (t.each (List.range count) fun u k => u.copyPage ((first + k) % pages) (addr + 65536 * k)) 0 0

/-! ### DRAM and the frame store (R100, R164) -/

/-- Usable MiB of an installed density (REC_DRAM_STATUS). -/
def usableMib (density : Nat) : Nat := 1984 * 2 ^ density

/-- DRAM_TRAIN_DONE: READY or TRAIN_ERR (R164); an UPD_LOAD of Boathouse that waits for it goes on (R452). -/
def execDramTrainDone (ok : Bool) (s : State) : Host.Outcome State Fault Refusal :=
  if !s.up .dram || !s.on REC_DRAM_CFG_ENABLE || s.on REC_DRAM_STATUS_READY || s.on REC_DRAM_STATUS_TRAIN_ERR then .next s
  else if ok then
    .next (((s.set REC_DRAM_STATUS_READY 1).set REC_DRAM_STATUS_USABLE_MIB (usableMib (s.get REC_DRAM_CFG_DENSITY))).updLoadGoes)
  else .next (s.set REC_DRAM_STATUS_TRAIN_ERR 1).updLoadGoes

/-- FST_READY: the store is initialised and allocation begins (R100, R101). -/
def execFstReady (s : State) : Host.Outcome State Fault Refusal :=
  .next (if s.up .fabric && s.on FST_CTRL_RUN && !s.on FST_STATUS_READY then s.fstReady else s)

/-! ### Scrubber (R122–R125) -/

/-- Words of the store: 512 granules of 1,024 (R97). -/
def storeWords : Nat := 524288

/-- An uncorrectable word that the scrubber reads in chunk `c`: counted, located and reported (R123, R125). -/
def State.scrubUncorr (s : State) (p c : Nat) : State :=
  let s1 := (s.inc FST_ECC_UNCORR_COUNT).fstErrLoc 0 p c
  s1.eccUncorr 0 (s1.rd FST_ERR_LOC).toNat

/-- The scrubber writes a word that it could read back (R122, R125). -/
def State.scrubBack (s : State) (bank word e : Nat) : State :=
  (if e = 1 then s.inc FST_ECC_CORR_COUNT else s).writeWord bank word

/-- The next word of a chunk that waits for the scrubber is rewritten and re-read (R123): one that fails again keeps the chunk
quarantined, and after the last clean one it is returned. -/
def State.scrubRewrite (s : State) (p c w bank word e : Nat) : State :=
  let key := chunkKey p c
  let s1 := if e = 3 then s else s.writeWord bank word
  let again := if e = 3 then 3 else SMap.get s1.fab.badWords 0 word
  if again ≥ 2 then
    ((s1.scrubUncorr p c).fset fun f => { f with suspect := SMap.insert f.suspect key true, rewritten := SMap.put f.rewritten 0 key 0 }).showStore
  else
    let s2 := if again = 1 then s1.inc FST_ECC_CORR_COUNT else s1
    if w + 1 < chunkBytes p / 64 then s2.fset fun f => { f with rewritten := SMap.put f.rewritten 0 key (w + 1) }
    else (s2.fset fun f => { f with suspect := SMap.erase f.suspect key, rewritten := SMap.put f.rewritten 0 key 0 }).showStore

/-- The scrubber reads word `w` of a chunk, which shows `e`, and writes it back (R122–R125). DESIGN CHOICE (log 115): an uncorrectable
word of an allocated chunk beyond the octets of its frame makes the frame bad, as one of its octets does. -/
def State.scrubWord (s : State) (p c w word e : Nat) : State :=
  let bank := (c + w) % 16
  match s.fab.handles.find? fun x => x.2.pool == p && x.2.chunk == c with
  | some x =>
    if e < 2 then s.scrubBack bank word e
    else if x.2.uncorr then s.scrubUncorr p c
    else s.frameUncorr x.1 x.2
  | none =>
    if SMap.find s.fab.suspect (chunkKey p c) = some false && SMap.get s.fab.rewritten 0 (chunkKey p c) == w then
      s.scrubRewrite p c w bank word e
    else if e < 2 then s.scrubBack bank word e
    else if (SMap.find s.fab.suspect (chunkKey p c)).isSome then s.scrubUncorr p c
    else ((s.scrubUncorr p c).fset fun f => { f with suspect := SMap.insert f.suspect (chunkKey p c) false }).showStore

/-- A word of the unused part of a P3 granule (R97). DESIGN CHOICE (log 72): it lies in no chunk, so that an uncorrectable one counts
and is reported, but captures no location; its bank is its word number mod 16. -/
def State.scrubUnused (s : State) (word e : Nat) : State :=
  if e ≥ 2 then (s.inc FST_ECC_UNCORR_COUNT).eccUncorr 0 (s.rd FST_ERR_LOC).toNat
  else s.scrubBack (word % 16) word e

/-- SCRUB_STEP: the scrubber reads the next word of the store and writes it back (R122–R125). `ecc` is an error that has struck the
word: 0 none, 1 correctable, 2 uncorrectable, 3 one that a rewrite does not clear. -/
def execScrubStep (ecc : Fin 4) (s : State) : Host.Outcome State Fault Refusal :=
  if !s.up .fabric || !s.on FST_CTRL_SCRUB_EN || !s.on FST_STATUS_READY then .next s
  else
    let w := s.fab.scrub
    let e := max (SMap.get s.fab.badWords 0 w) ecc.val
    let s0 := s.fset fun f => { f with badWords := SMap.put f.badWords 0 w e, scrub := (w + 1) % storeWords }
    let s1 := match s0.wordAt w with
      | some r => s0.scrubWord r.1 r.2.1 r.2.2 w e
      | none => s0.scrubUnused w e
    .next (if w + 1 = storeWords then s1.incWrap FST_SCRUB_PASS_COUNT else s1)

end Sys2Proof.Machine
end

