-- ==== Sys2Proof/Machine/TimeRows.lean ====
section
/-! DEFINITION. The rows of the Time island that are no register access: the servo, slews, Catch, Buoy and REANCHOR (R262,
R267, R268, R278–R288). -/
namespace Sys2Proof.Machine

/-- SERVO_WATCHDOG: no TIM_INCR write from the owner for TIMEOUT (R267). -/
def execServoWatchdog (d : Fin 4) (s : State) : Host.Outcome State Fault Refusal :=
  .next (if s.up .time && s.domEn d.val && s.domState d.val == 2 then (s.takeover d.val 1).timeSettled else s)

/-- LOCK_LOSS: no good pulse for 3 s (R268). -/
def execLockLoss (d : Fin 4) (s : State) : Host.Outcome State Fault Refusal :=
  .next (if s.up .time && s.domEn d.val && s.domState d.val == 4 then (s.set (TIM_DOM_STATUS_STATE d.val) 3).noPulses d.val else s)

/-- SLEW_DONE: the last tick adds what remains of a slew (R262). -/
def execSlewDone (d : Fin 4) (s : State) : Host.Outcome State Fault Refusal :=
  let left := SMap.get s.tim.slew 0 d.val
  if !s.up .time || !s.domEn d.val || left == 0 then .next s
  else
    let acc := SMap.get s.tim.carry 0 d.val + left
    let add := acc / 10 ^ 6
    let now := ((s.domTime d.val : Int) + add).toNat
    .next ((s.tset fun t => { t with now := SMap.put t.now 0 d.val now, carry := SMap.put t.carry 0 d.val (acc - add * 10 ^ 6) }).dropSlew d.val)

/-! ### Catch (R278–R280) -/

/-- The output of Catch `c` goes to its active level, or back. -/
def State.catchDrive (s : State) (c : Nat) (active : Bool) : State :=
  ((s.put (TIM_CATCH_STATUS_ACTIVE c) (active && s.on (TIM_CATCH_CFG_EN c))).tset fun t =>
    { t with catchPulse := SMap.put t.catchPulse false c active }).catchPin c

/-- CATCH_EDGE: the next edge of an armed Catch is due; a pulse starts, and counts (R278, R280, R290). DEDUCED: with EN = 0 it
starts too, and only the pin stays low. -/
def execCatchEdge (c : Fin 16) (s : State) : Host.Outcome State Fault Refusal :=
  let i := c.val
  match SMap.find s.tim.catchNext i with
  | none => .next s
  | some k =>
    if !s.up .time || !s.domEn (s.get (TIM_CATCH_CFG_DOMAIN i)) || !s.on (TIM_CATCH_CFG_ARM i) || !s.catchDue i k then .next s
    else
      let once := s.get (TIM_CATCH_PERIOD_PERIOD i) == 0
      let s1 := s.tset fun t => { t with catchNext := if once then SMap.erase t.catchNext i else SMap.insert t.catchNext i (k + 1) }
      .next ((s1.catchDrive i true).incWrap (TIM_CATCH_PULSES_COUNT i)).timeSeen

/-- CATCH_PULSE_END: WIDTH has elapsed (R278). -/
def execCatchPulseEnd (c : Fin 16) (s : State) : Host.Outcome State Fault Refusal :=
  .next (if s.up .time && SMap.get s.tim.catchPulse false c.val then s.catchDrive c.val false else s)

/-! ### Buoy (R268, R282, R283) -/

/-- Buoy `b` captures an edge of this direction now: enabled, its domain counting, 20 ns or more after the last capture. -/
def State.buoyTakes (s : State) (b : Nat) (rising : Bool) : Bool :=
  let e := s.get (TIM_BUOY_CFG_EDGE b)
  s.on (TIM_BUOY_CFG_EN b) && s.domEn (s.get (TIM_BUOY_CFG_DOMAIN b)) && (if rising then e % 2 == 1 else e / 2 == 1)
    && (SMap.find s.tim.buoyLast b).all fun t => decide ((s.refTicks - t) * 2 ≥ 20)

/-- BUOY_CAPTURE: an edge whose level has held for the filter time; the row stands at the instant of the edge (R282). The FIFO,
the recorder's trigger and the servos each take it. -/
def execBuoyCapture (b : Fin 16) (rising : Bool) (s : State) : Host.Outcome State Fault Refusal :=
  let i := b.val
  if !s.up .time then .next s
  else
    let s1 := s.put (TIM_BUOY_STATUS_PIN i) rising
    if !s1.buoyTakes i rising then .next s1
    else
      let c : Capture := { quarters := s1.quarters (s1.get (TIM_BUOY_CFG_DOMAIN i)), rising := rising }
      let s2 := s1.tset fun t => { t with buoyLast := SMap.insert t.buoyLast i s1.refTicks }
      let s3 := (s2.buoyPush i c).recBuoyTrigger i
      .next (if rising then s3.each (s3.lockers i) fun t d => t.servoJudge d c else s3).timeSeen

/-! ### REANCHOR (R286–R288) -/

/-- The offset of a REANCHOR in ns: its own, or the refused one. -/
def State.reanchorBy (s : State) (d : Desc) : Int :=
  let n := descBits d 16 2
  if descBits d 17 1 = 1 then
    sext 64 ((s.rd (TIM_REFUSED_OFFSET n)).toNat + 2 ^ 32 * (s.rd (TIM_REFUSED_OFFSET n + 4)).toNat)
  else sext 64 (descBits d 24 64)

/-- The arguments of REANCHOR (R286, R287). -/
def State.reanchorOk (s : State) (d : Desc) : Bool :=
  descBits d 16 8 < 4 && descBits d 17 8 < 2 && descZero d 18 24 && descZero d 32 64
    && (descBits d 17 1 == 1 || decide ((sext 64 (descBits d 24 64)).natAbs ≤ 86400000000000))
    && decide ((s.domTime (descBits d 16 2) : Int) + s.reanchorBy d * 2 ^ 28 ≥ 0)

/-- A reserved lane of a port whose gate list runs on domain `d` is not held (R287). -/
def State.laneNotHeld (s : State) (d : Nat) : Bool :=
  (List.range 70).any fun n => (s.gateList n).any (fun g => g.domain == d)
    && s.get (LNE_LANE_STATUS_RESERVED n) &&& (255 - s.get (GTE_HOLD_LANES n)) != 0

/-- The states that refuse a REANCHOR, in the order of R287. -/
def State.reanchorRefused (s : State) (src : CmdSrc) (d : Desc) : Option (Nat × Nat) :=
  let n := descBits d 16 2
  if !s.pdOn 2 then some (3, 2)
  else if !s.domEn n || s.domState n ≠ 2 then some (5, if s.domEn n then s.domState n else 0)
  else if s.laneNotHeld n then some (6, 11)
  else if descBits d 17 1 = 1 && !s.on (TIM_DOM_STATUS_JUMP_REFUSED n) then some (6, 12)
  else if !s.remoteMay src then some (4, 0)
  else none

/-- REANCHOR (R286–R288); a pending commit whose swap time it passes swaps (R50). -/
def execReanchor (src : CmdSrc) (d : Desc) (s : State) : Host.Outcome State Fault Refusal :=
  .next <| s.runCmd src d (s.reanchorOk d) [0, 1] true fun t =>
    match t.reanchorRefused src d with
    | some r => .refuse r.1 r.2
    | none =>
      let n := descBits d 16 2
      let by_ := t.reanchorBy d
      let w := wrapInt 64 by_
      let t1 := ((t.inPlace n 2).stepBy n by_).set (TIM_DOM_STATUS_JUMP_REFUSED n) 0
      .done (((t1.emit 0x0603 n (args w (w / 2 ^ 32))).timeSettled).swapDue) 0 0

end Sys2Proof.Machine
end

