-- ==== Sys2Proof/Machine/Umpire.lean ====
section
/-! DEFINITION. The rows of the Umpire that no frame brings: pinholes, the parity scanner, and the table images of all units
(R185, R187, R191, R192, R326, R438). -/
namespace Sys2Proof.Machine

/-- The timeout of a pinhole (R185). -/
def State.phTimeout (s : State) (p : Pinhole) : Nat :=
  if p.closing then s.get (UMP_PH_PROFILE_CLOSE p.profile) else s.get (UMP_PH_PROFILE_IDLE p.profile)

/-- PINHOLE_EXPIRY: the 1 s tick removes every pinhole past its timeout (R185). -/
def execPinholeExpiry (s : State) : Host.Outcome State Fault Refusal :=
  if !s.up .umpire then .next s
  else
    let s1 := s.uset fun u => { u with second := u.second + 1 }
    let gone := s1.ump.pinholes.filter fun e => s1.ump.second - e.2.last > s1.phTimeout e.2
    .next ((s1.phStore (s1.ump.pinholes.filter fun e => !(s1.ump.second - e.2.last > s1.phTimeout e.2))).add UMP_PH_EXPIRE_COUNT gone.length)

/-- TCAM_SCAN: the scanner has passed over every entry: failing ones are rewritten (R192). -/
def execTcamScan (s : State) : Host.Outcome State Fault Refusal :=
  .next (if !s.up .umpire then s
    else (s.each s.ump.tcamBad fun t i => t.tcamRewrite i).each s.ump.patBad fun t i => t.patRewrite i)

/-- PINHOLE_FLUSH (R187). -/
def execPinholeFlush (src : CmdSrc) (d : Desc) (s : State) : Host.Outcome State Fault Refusal :=
  let mode := descBits d 16 8
  let zone := descBits d 17 4
  .next <| s.runCmd src d (mode < 2 && descBits d 17 8 < 16 && descZero d 18 64) [0, 1] false fun t =>
    if !t.pdOn 4 then .refuse 3 4
    else .done (t.phStore (if mode = 0 then [] else t.ump.pinholes.filter fun e => !(e.2.retZone == zone || bit e.2.from_ zone))) 0 0

/-- A pinhole as PINHOLE_DUMP writes it (R187). -/
def Pinhole.image (p : Pinhole) (now : Nat) : List Byte :=
  beBytes 16 p.sip ++ beBytes 16 p.dip ++ beBytes 2 p.sport ++ beBytes 2 p.dport ++ leBytes 1 p.proto ++ leBytes 1 p.v
    ++ leBytes 1 p.retZone ++ leBytes 1 ((if p.closing then 1 else 0) + 2 * p.profile) ++ leBytes 2 p.from_
    ++ leBytes 2 (now - p.last) ++ leBytes 4 0

/-- PINHOLE_DUMP (R187). -/
def execPinholeDump (src : CmdSrc) (d : Desc) (s : State) : Host.Outcome State Fault Refusal :=
  .next <| s.runCmd src d (dumpOk src d 16384) [0, 1] false fun t =>
    if !t.pdOn 4 then .refuse 3 4
    else
      let walk := t.ump.pinholes.map fun e => (e.1, e.2.image t.ump.second)
      .done (t.hostPut (descBits d 16 64) (dumpImage walk (descBits d 24 32) (descBits d 28 32))) 0 0

/-- The load of an image ends (R191, R326, R438): a failed one, an uncorrectable word of DRAM among its causes (R164), leaves the reset content, CLOSED and an event, and firmware takes the tables from flash (R445). A key
island that was reset keeps its port entries then (R490). -/
def State.loadEnds (s0 : State) (u : ImgUnit) (ok : Bool) : State :=
  let dead := (s0.dramBad (s0.imgKey u / 4 * 2 ^ 21) (2 ^ 21)).any fun e => e.2 != 1
  let good := ok && s0.imageThere u && !dead
  let s := if s0.imageThere u then s0.dramFetch (s0.imgKey u / 4 * 2 ^ 21) (2 ^ 21) else s0
  let empty := if u = .key && s.key.closed then s.fab.active.filter fun e => e.1 / 2 ^ 20 == 15 && 512 ≤ e.1 % 2 ^ 20 && e.1 % 2 ^ 20 < 544
    else if u = .ump then bankOnly [3, 4, 5] resetBank else []
  let b := if good then SMap.get s.dram.images [] (s.imgKey u) else empty
  let s1 := ({ s with pwr := { s.pwr with loading := s.pwr.loading.filter (· ≠ unitIdx u) } }.loadBanks (unitClasses u) b).set (unitReady u) 1
  let s2 := if good then s1.set (unitImgValid u) 1 else s1.set (unitClosed u) 1
  let s3 := if u = .key && good then s2.kset fun k => { k with closed := false } else s2
  let s4 := s3.unitTaken u
  if good then s4
  else ((match u with
    | .ump => s4.emit 0x0400 0 0
    | .rig => s4.emit 0x0703 0 0
    | .key => s4.keyFault 0 3).tablesLack u).tablesCommit

/-- IMAGE_WRITE_DONE: a table image stands in DRAM, or its write has failed (R191, R326, R438); a power-down
that has waited for it follows. -/
def execImageWriteDone (unit : ImgUnit) (ok : Bool) (s : State) : Host.Outcome State Fault Refusal :=
  if !s.up (unitIsland unit) || !s.on (unitImgBusy unit) then .next s
  else
    let s1 := s.set (unitImgBusy unit) 0
    let s2 := if ok && s.dramReady then (s1.writeImage unit).set (unitImgValid unit) 1 else s1
    .next (s2.imgReleases (domainOf (unitIsland unit) 0))

/-- IMAGE_LOAD_DONE: the load at power-up ends; the channels of a loaded Edge start, and a wake may be over (R191, R326,
R438, R477). -/
def execImageLoadDone (unit : ImgUnit) (ok : Bool) (s : State) : Host.Outcome State Fault Refusal :=
  if !s.up (unitIsland unit) || !s.pwr.loading.contains (unitIdx unit) then .next s
  else
    let s1 := s.loadEnds unit ok
    .next (if unit = .rig then s1.channelsGo else s1).finishWake

end Sys2Proof.Machine
end

