-- ==== Sys2Proof/Machine/Commands.lean ====
section
/-! DEFINITION. The command processor's intake (R348, R376–R380): descriptors from the local ring and from HFP; and frames of
Cox firmware (R401). -/
namespace Sys2Proof.Machine

/-- The commands of the configuration, of forwarding, the recorder and the Umpire (R380), or none. -/
def State.runTables (s : State) (src : CmdSrc) (d : Desc) : Option (Host.Outcome State Fault Refusal) :=
  match descOp d with
  | 0x01 => some (execStage src d s)
  | 0x02 => some (execCommit src d s)
  | 0x03 => some (execCommitAbort src d s)
  | 0x04 => some (execHeatReport src d s)
  | 0x10 => some (execFdbFlush src d s)
  | 0x11 => some (execFdbDump src d s)
  | 0x12 => some (execRecFreeze src d s)
  | 0x13 => some (execRecRearm src d s)
  | 0x14 => some (execRecRead src d s)
  | 0x18 => some (execPinholeFlush src d s)
  | 0x19 => some (execPinholeDump src d s)
  | _ => none

/-- The commands of time, the bridge and the keys (R380), or none. -/
def State.runUnits (s : State) (src : CmdSrc) (d : Desc) : Option (Host.Outcome State Fault Refusal) :=
  match descOp d with
  | 0x20 => some (execReanchor src d s)
  | 0x28 => some (execRemoteCmd src d s)
  | 0x29 => some (execLockedSeq src d s)
  | 0x2A => some (execClearPoison src d s)
  | 0x30 => some (execKeyGenerate src d s)
  | 0x31 => some (execKeyWrap src d s)
  | 0x32 => some (execKeyUnwrap src d s)
  | 0x33 => some (execKeyDerive src d s)
  | 0x34 => some (execKeyDestroy src d s)
  | 0x35 => some (execAttest src d s)
  | 0x36 => some (execRandom src d s)
  | _ => none

/-- The commands of updates, power, resets and Cox (R380), or none. -/
def State.runSystem (s : State) (src : CmdSrc) (d : Desc) : Option (Host.Outcome State Fault Refusal) :=
  match descOp d with
  | 0x00 => some (execNop src d s)
  | 0x40 => some (execUpdLoad src d s)
  | 0x41 => some (execUpdVerify src d s)
  | 0x42 => some (execUpdActivate src d s)
  | 0x43 => some (execUpdAbort src d s)
  | 0x48 => some (execPowerState src d s)
  | 0x50 => some (execLogWrite src d s)
  | 0x51 => some (execDeviceReset src d s)
  | 0x58 => some (execCoxMode src d s)
  | 0x59 => some (execLifecycle src d s)
  | 0x5A => some (execOwnerLock src d s)
  | _ => none

/-- A descriptor runs by its opcode; one that R380 does not list gives BAD_OPCODE (R378, R380). -/
def State.runDescriptor (s : State) (src : CmdSrc) (d : Desc) : Host.Outcome State Fault Refusal :=
  (((s.runTables src d).or (s.runUnits src d)).or (s.runSystem src d)).getD (.next (s.badOpcode src d))

/-- A CMD message runs its descriptor, or completes with the reason why it does not (R347, R348, R377). -/
def State.cmdRun (s : State) (m : HfpMsg) : Host.Outcome State Fault Refusal :=
  match s.cmdTurned m with
  | some c => .next (s.cmdRefuse m c)
  | none => s.runDescriptor (cmdSrcOf m) (cmdDescOf m)

/-- The first CMD that waits for the processor alone: nothing of its stream is before it (R345). -/
def readyCmd (before : List BusWait) : List BusWait → Option HfpMsg
  | [] => none
  | w :: l => match w with
    | .cmd _ m => if before.any (BusWait.sameStream m) then readyCmd (before ++ [w]) l else some m
    | _ => readyCmd (before ++ [w]) l

/-- A CMD leaves the queue it waits in. -/
def State.cmdTaken (s : State) (m : HfpMsg) : State :=
  let mine := fun (w : BusWait) => match w with
    | .cmd _ x => x == m
    | _ => false
  s.bset fun b => { b with busWait := b.busWait.eraseP mine, rxStall := if b.busWait.any mine then b.rxStall else b.rxStall.eraseP mine }

/-- CMD_FETCH: the idle processor takes the next local descriptor, or else a CMD that waited for earlier requests (R345, R370,
R377). While it runs a command, those that waited get BUSY. -/
def execCmdFetch (s : State) : Host.Outcome State Fault Refusal :=
  if s.hif.running.isSome then .next s.busDrain
  else if s.cmdPending then s.runDescriptor .localRing (BitVec.ofNat 512 (s.hostRd s.cmdSlot 64))
  else match readyCmd [] s.busQueue with
    | some m => (s.cmdTaken m).cmdRun m
    | none => .next s

/-- CMD_RX: the descriptor of a CMD message (R333, R336, R347, R348). DEDUCED: a body whose LEN is malformed or below 64 is
discarded as R332 discards a frame. -/
def execCmdRx (port : Fin 64) (m : HfpMsg) (s : State) : Host.Outcome State Fault Refusal :=
  let x := { m with typ := 6 }
  match s.hfpTurned port x with
  | some t => .next t
  | none =>
    let t := s.inc HFP_RX_MSG_COUNT
    let n := beAt (msgData x) 4 2
    if !requestOk x ∨ n < 64 then .next (t.inc HFP_RX_BAD_COUNT)
    else
      let t1 := (t.seqTake x).busDrain
      let y := { x with body := msgData x }
      if t1.streamWaits y then .next (t1.waits (.cmd port.val y)) else t1.cmdRun y

/-- A tick of the reference passes (R27), with what lock requests wait for, handle errors that are to be reported (R124), and holds that a
reset has ended (R105, R152). -/
def State.clock (s : State) : State := s.tick.lockTick.sayParity.holdsOver

/-- COX_FRAME_TX: firmware sends a frame into the switch at port 65 while the cores run (R107, R275, R401), an MKPDU with the key unit's
part in it (R434). -/
def execCoxFrameTx (bytes : List Byte) (ts : Option (BitVec 16)) (s : State) (mka : Option MkaUse := none) :
    Host.Outcome State Fault Refusal :=
  let send := fun (t : State) (b : List Byte) =>
    t.internalIn 65 b (some { ring := 0, tag := (ts.map (·.toNat)).getD 0, req := ts.isSome }) none
  if !s.up .cox ∨ s.cox.coresHeld then .next s
  else match mka with
    | none => .next (send s bytes)
    | some u =>
      let t := if s.up .key then s.slotRead u.cak.toNat else s
      .next (match t.mkaFrame u bytes with
        | some r => send r.1 r.2
        | none => t)

end Sys2Proof.Machine
end

