-- ==== Sys2Proof/Machine/Frames.lean ====
section
/-! DEFINITION. The rows of a frame's way through the device: from its 64th byte to the return of its egress record. -/
namespace Sys2Proof.Machine

/-! ### Arrival -/

/-- Cut-through enabled on a port without MACsec on ingress (R108). -/
def State.mayCut (s : State) (n epoch : Nat) : Bool := n < 32 && s.on (FWD_PORT_CFG_CT_EN n) && !s.rxSecure epoch n

/-- An AVTP subtype whose common stream header carries stream_data_length. PRESUMED: IEEE 1722-2016's stream subtypes. -/
def hasSdl (subtype : Nat) : Bool := [0x00, 0x02, 0x03, 0x04, 0x05, 0x07, 0x6E].contains subtype

/-- The size that the first length field gives (R108). -/
def sizeOf64 (b : List Byte) (hfp classMax : Nat) : Option Nat :=
  let tags := if isTpid (beAt b 12 2) then (if isTpid (beAt b 16 2) then 2 else 1) else 0
  let h := 14 + 4 * tags
  let et := beAt b (h - 2) 2
  let size := if et = 0x0800 ∧ beAt b (h + 2) 2 ≥ 20 then some (h + beAt b (h + 2) 2 + 4)
    else if et = 0x86DD then some (h + 40 + beAt b (h + 4) 2 + 4)
    else if et = hfp then some (h + beAt b (h + 2) 2 + 4)
    else if et = 0x22F0 ∧ hasSdl (beAt b h 1) then some (h + 24 + beAt b (h + 20) 2 + 4)
    else none
  size.bind fun z => if z < 64 ∨ z > classMax then none else some z

/-- The pool of a candidate (R108): the smallest that holds its size, without one the pool that FST_CT_POOL names or the next larger
carved one. -/
def State.cutPool (s : State) (n : Nat) (size : Option Nat) : Nat :=
  let named := s.get (FST_CT_POOL_POOL n)
  (size.bind s.fit).getD (((List.range 4).find? fun p => p ≥ named && s.granules p ≠ 0).getD named)

/-- The provisional allocation of a candidate (R108, R109): a chunk of the pool, or a fall back to store-and-forward. -/
def State.tryCut (s : State) (n fid : Nat) (rivals : List Nat) (x : RxFrame) : State :=
  let size := sizeOf64 x.bytes (s.get HFP_ETYPE_ETYPE) (classMax n)
  let p := s.cutPool n size
  let y := { x with ctTried := true, size := size }
  let back := (s.rxKeep n fid y).inc FST_CT_FALLBACK_COUNT
  if !s.on FST_STATUS_READY || s.freeShared p ≤ s.headroom p || s.freeSharedHandles = 0 || s.served (n :: rivals) ≠ some n then back
  else match s.freeChunk p, s.freeHandle with
    | some c, some h =>
      let s1 := (s.takeHandle n p c h { pool := p, chunk := c, bytes := y.bytes, port := n, frame := fid, epoch := y.epoch,
                                        arrival := y.arrival, stamp := y.stamp }).writeWords p c 0 (y.bytes.length / 64)
      s1.settle n fid rivals { y with handle := some h }
    | _, _ => back

/-- CT_64TH_BYTE (R108, R109): a candidate's 64th byte. -/
def execCt64thByte (f : FrameIn) (rivals : List (Fin 70)) (s : State) : Host.Outcome State Fault Refusal :=
  let n := f.port.val
  let x := s.rxOf f
  .next (if s.frameStops n f.fid || !s.takesFrames n || s.power == 2 || !s.mayCut n x.epoch || macControl x.bytes || x.ctTried || x.ended || x.bad then s
    else s.tryCut n f.fid (rivals.map (·.val)) x)

/-- CHUNK_OUTGROWN (R110): the frame's bytes exceed its chunk. -/
def execChunkOutgrown (port : Fin 70) (fid : Nat) (s : State) (bytes : List Byte := []) (age : Nat := 0) :
    Host.Outcome State Fault Refusal :=
  let f : FrameIn := ⟨port, fid, bytes, age⟩
  let n := f.port.val
  let x := s.rxOf f
  .next (if (s.rxAt n f.fid).isNone || x.ended || x.handle.isNone then s
    else ((s.endEarly n f.fid x).inc (FWD_CT_OUTGREW_COUNT n)).sayParity)

/-- STREAM_MAX_LEN_EXCEEDED (R198): a cut-through frame that was identified and checked reaches byte MAX_LEN + 1; a frame dropped by a
DROP rule is not measured (R194). -/
def execStreamMaxLenExceeded (port : Fin 70) (fid : Nat) (s : State) (bytes : List Byte := []) (age : Nat := 0) :
    Host.Outcome State Fault Refusal :=
  let f : FrameIn := ⟨port, fid, bytes, age⟩
  let n := f.port.val
  let x := s.rxOf f
  .next (match x.stream with
    | some k =>
      if (s.rxAt n f.fid).isNone || x.ended || x.handle.isNone || x.desc.any (·.outcome == 1) then s
      else ((s.endEarly n f.fid x).inc (LNE_STR_OVERSIZE_COUNT k)).sayParity
    | none => s)

/-- CLASSIFY (R166): the Umpire makes the frame's descriptor, once. MAC control frames have none (R63), but for one that ended bad, which
no count of PRT_RX_PAUSE takes (R106); nor have frames of a MACsec port that are not yet verified (R431). -/
def execClassify (f : FrameIn) (whole : Bool) (s : State) : Host.Outcome State Fault Refusal :=
  let n := f.port.val
  let x := s.rxOf f
  let known := (s.rxAt n f.fid).isSome
  .next (if s.frameStops n f.fid || !s.up .fabric || s.power == 2 || !(known || s.takesFrames n) || x.desc.isSome
      || (macControl x.bytes && !(x.ended && x.bad)) || (s.rxSecure x.epoch n && !x.ended) then s
    else
      let r := s.umpireTakes x (x.ended || whole)
      if x.bad && x.ended then r.1.rxDrop n f.fid else r.1.rxKeep n f.fid r.2)

/-- FRAME_END (R61, R94, R106, R110, R431): the last byte of a frame from an external port. In Boathouse only the
management port's frames go on (R465); while the Fabric island is off or in reset nothing takes the frame, and only its port counts it
(R94). A sleep entry that has its acknowledgements takes no new frame (R470). -/
def execFrameEnd (f : FrameIn) (v : RxVerdict) (rivals : List (Fin 70)) (s : State) : Host.Outcome State Fault Refusal :=
  let n := f.port.val
  let x := s.rxOf f
  .next (if s.frameStops n f.fid || !s.portTakes n || x.ended then s
    else if !s.up .fabric then
      let m := s.macVerdict n x.bytes false v
      (if m.2 && macControl x.bytes then m.1.inc (PRT_RX_PAUSE_COUNT n) else m.1).rxDrop n f.fid
    else if s.power == 2 then
      let m := s.macVerdict n x.bytes false v
      if !m.2 then m.1
      else if macControl x.bytes then m.1.inc (PRT_RX_PAUSE_COUNT n)
      else m.1.mgmtIn x
    else (s.endFrame n f.fid (rivals.map (·.val)) x v).sayParity)

/-- DESCRIPTOR_ARRIVAL (R115): the descriptor reaches the Fabric island. In Boathouse the frames of ports 65 and 69 go to
the management port without one (R465). -/
def execDescriptorArrival (port : Fin 70) (fid : Nat) (rivals : List (Fin 70)) (s : State) : Host.Outcome State Fault Refusal :=
  let n := port.val
  .next (match s.rxAt n fid with
    | none => s
    | some x =>
      if s.power == 2 then (if n = 65 ∨ n = 69 then (s.rxDrop n fid).mgmtOut x.bytes else s)
      else if x.desc.isNone || x.descHere then s
      else (s.settle n fid (rivals.map (·.val)) { x with descHere := true }).sayParity)

/-! ### Departure -/

/-- LANE_SELECT (R207–R209): the port's line is free, or an express copy preempts (R225), and lane service takes the next
copy. `ecc` is what the words of the copy show, `delay` the ns from now to its stamp point. -/
def execLaneSelect (n : Fin 70) (ecc : Fin 3) (delay : Nat) (s : State) : Host.Outcome State Fault Refusal :=
  let go := fun t : State => t.selectNext n.val ecc.val delay
  .next (if !s.up .fabric || s.power == 2 || !s.portServes n.val then s
    else match (s.svc n.val).sending with
      | none => go s
      | some x =>
        if x.preempt && (s.selectIn n.val (s.expressMask n.val)).isSome && (s.cutPoint n.val x).isSome then go (s.preemptNow n.val) else s)

/-- TX_END (R118): the last byte of the copy in transmission. -/
def execTxEnd (n : Fin 70) (s : State) : Host.Outcome State Fault Refusal :=
  .next (if s.up .fabric then s.endCopy n.val else s)

/-- TS_RECORD_RETURN (R275). -/
def execTsRecordReturn (n : Fin 64) (s : State) : Host.Outcome State Fault Refusal :=
  .next (if s.up .time then s.returnStamp n.val else s)

end Sys2Proof.Machine
end

