-- ==== Sys2Proof/Machine/Lanes.lean ====
section
/-! DEFINITION. The rows of lanes and gates that no frame brings: gate boundaries, MAC merge verification, observation and
shapers (R211, R215, R216, R222, R227, R228). -/
namespace Sys2Proof.Machine

/-- The boundary that is due on port `n` applies: the next operation's gates and hold state, and the next boundary (R216). -/
def State.gateStep (s : State) (n : Nat) (g : GateList) (st : Gate) : State :=
  let sp := gateSpans g.cycle g.ops 0
  let k := if st.index + 1 < sp.length then st.index + 1 else 0
  let span := (sp[k]?).elim g.cycle (·.2)
  let s1 := s.fset fun f => { f with gates := SMap.insert f.gates n ⟨k, (st.next + span) % 2 ^ 32⟩ }
  (s1.showGate n k ((sp[k]?).elim 0xFF fun o => o.1.gates) (gateHold (sp.map (·.1)) k) true).cutSending n

/-- GATE_BOUNDARY: a boundary whose time has come in the list's domain (R216, R225, R226). -/
def execGateBoundary (n : Fin 70) (s : State) : Host.Outcome State Fault Refusal :=
  match s.gateList n.val, SMap.find s.fab.gates n.val with
  | some g, some st =>
    if s.up .fabric && decide (shortDiff (s.short g.domain) st.next ≥ 0) then .next (s.gateStep n.val g st).timeSeen else .next s
  | _, _ => .next s

/-- MM_VERIFY_TIMER: VERIFY_TIME has passed without a respond: another verify mPacket, and after the third MM_VERIFY_FAIL
(R222, R229). -/
def execMmVerifyTimer (n : Fin 32) (s : State) : Host.Outcome State Fault Refusal :=
  let p := n.val
  if !s.up .fabric || s.get (LNE_MM_STATUS_VERIFY p) ≠ 2 then .next s
  else
    let k := SMap.get s.fab.verify 0 p
    if k < 3 then .next (s.fset fun f => { f with verify := SMap.put f.verify 0 p (k + 1) })
    else
      let s1 := s.setMm p false 4
      .next (s1.emit 0x0207 p (args (s1.rd (LNE_MM_STATUS p)).toNat))

/-- MM_RESPOND: a respond mPacket ends the verification (R222). -/
def execMmRespond (n : Fin 32) (s : State) : Host.Outcome State Fault Refusal :=
  .next (if s.up .fabric && s.get (LNE_MM_STATUS_VERIFY n.val) == 2 then s.setMm n.val true 3 else s)

/-- The delay of the head copy of a lane (R227); without domain time it is 0 (R463). -/
def State.headDelay (s : State) (n l : Nat) : Nat :=
  match (s.lane n l).head?.bind fun c => s.handle c.handle with
  | none => 0
  | some h => if s.pdOn 2 then (shortDiff (s.short 0) h.arrival).toNat else 0

/-- The sample of one lane (R227, R228). -/
def State.obsLane (s : State) (n l : Nat) : State :=
  let depth := (s.lane n l).length
  let delay := s.headDelay n l
  let s1 := (s.set (LNE_OBS_LAST_NS n l) delay).set (LNE_OBS_MIN_NS n l) (min delay (s.get (LNE_OBS_MIN_NS n l)))
  let s2 := (s1.set (LNE_OBS_MAX_NS n l) (max delay (s.get (LNE_OBS_MAX_NS n l)))).set (LNE_OBS_DEPTH_BYTES n l) depth
  let s3 := s2.set (LNE_OBS_MAX_DEPTH_BYTES n l) (max depth (s.get (LNE_OBS_MAX_DEPTH_BYTES n l)))
  s3.inc (LNE_OBS_BIN_COUNT n l (min 15 (delay / s.get (LNE_PORT_CFG_BIN_WIDTH n))))

/-- OBS_SAMPLE: every observed port samples all its lanes (R227, R228). -/
def execObsSample (s : State) : Host.Outcome State Fault Refusal :=
  if !s.up .fabric then .next s
  else .next (s.each ((List.range 70).filter fun n => s.on (LNE_PORT_CFG_OBS_EN n)) fun t n =>
    t.each (List.range 8) fun u l => u.obsLane n l)

/-- SHAPER_REFILL: the port's line is idle and a shaper now admits its lane's head copy: a selection (R207, R211). The time
from here to the stamp point of the copy is a free value. -/
def execShaperRefill (n : Fin 70) (s : State) : Host.Outcome State Fault Refusal :=
  if s.up .fabric && s.power != 2 && s.portServes n.val && (s.svc n.val).sending.isNone then
    let r := s.free 16
    .next (r.2.selectNext n.val 0 r.1.toNat)
  else .next s

end Sys2Proof.Machine
end

