-- ==== Sys2Proof/Machine/Lin.lean ====
section
/-! DEFINITION. The LIN channels on their buses: the commander's slots, the responder's headers, responses and their errors
(R298–R301, R305). -/
namespace Sys2Proof.Machine

/-- A protected identifier: bit 6 is the parity of ID bits 0, 1, 2, 4 and bit 7 the inverted parity of bits 1, 3, 4, 5
(PRESUMED from ISO 17987). -/
def linPid (id : Nat) : Nat :=
  let b := fun k => bits id k 1
  id % 64 + (b 0 + b 1 + b 2 + b 4) % 2 * 64 + (1 + b 1 + b 3 + b 4 + b 5) % 2 * 128

/-- The inverted sum with carry of octets: the checksum of a LIN response (PRESUMED from ISO 17987). -/
def linSum (l : List Nat) : Nat := 255 - l.foldl (fun a x => let t := a + x; if t > 255 then t - 255 else t) 0

/-- The checksum of a response under CHK of its PDU (R303): the enhanced one covers the protected identifier too. -/
def linCheck (e : Nat) (data : List Byte) : Nat :=
  linSum ((if ebit e 8 4 then [linPid (pduId e)] else []) ++ data.map (·.toNat))

/-- LAST_ERR of LIN channel `l`. -/
def State.linErr (s : State) (l code : Nat) : State := s.set (EDG_LIN_STATUS_LAST_ERR l) code

/-- LIN channel `l` is enabled in a role while the tables stand. -/
def State.linOn (s : State) (l : Nat) (responder : Bool) : Bool :=
  s.rigReady && s.on (EDG_LIN_CTRL_ENABLE l) && s.on (EDG_LIN_CTRL_ROLE l) == responder

/-- Channel `l` answers PID with the response of destination `p`, or stays silent (R299, R300, R312): with a header of its
own, or to the header of the commander. -/
def State.linAnswer (s : State) (l p : Nat) (header : Bool) : State :=
  match s.assemble p with
  | (s1, none) => s1
  | (s1, some d) =>
    let e := s1.tab 12 p
    (s1.inc (EDG_LIN_TX_COUNT l)).linDrive
      { channel := l, pid := some (linPid (pduId e)), header := header, resp := d.data ++ [BitVec.ofNat 8 (linCheck e d.data)] }

/-- Slot `k` of table `t` of channel `l` is in use (R305). -/
def State.linSlotOn (s : State) (l t k : Nat) : Bool :=
  let i := 4096 + 256 * l + 64 * t + k
  k < 64 && ebit (s.tab 12 i) 0 0 && !s.rigBroken 1 i

/-- The slot entry is read (R328, R329). -/
def State.linSlotTouch (s : State) (l t k : Nat) : State := s.rigTouch 1 (4096 + 256 * l + 64 * t + k)

/-- The slot that the commander of channel `l` runs next from position `k` of table `t`: one that is not valid, or past the
last, ends the table, and slot 0 follows (R299, R305). -/
def State.linSlotAt (s : State) (l t k : Nat) : Nat := if s.linSlotOn l t k then k else 0

/-- The PDU of a slot in use is sent or asked for (R299). DEDUCED: a slot whose PDU is no valid LIN PDU of the channel, as R305
has it, drives nothing. -/
def State.linRunSlot (s : State) (l i : Nat) : State :=
  let p := ebits (s.tab 12 i) 2 0 12
  let s1 := s.rigTouch 1 p
  let d := s1.tab 12 p
  if s1.rigBroken 1 p || !pduValid d || pduBus d ≠ 1 || pduChan d ≠ l then s1
  else if pduDir d = 1 then s1.linAnswer l p true
  else (s1.linDrive { channel := l, pid := some (linPid (pduId d)), header := true, resp := [] }).linSet l fun x =>
    { x with wait := some (pduId d, p) }

/-- LIN_SLOT_START: a slot begins at a commander; with RUN = 0 the schedule ends here, and a new TABLE begins at its slot 0; a
table whose slot 0 is not in use runs nothing and stays there (R299). -/
def execLinSlotStart (l : Fin 16) (s : State) : Host.Outcome State Fault Refusal :=
  let n := l.val
  if !s.linOn n false || !(s.linSt n).running then .next s
  else if !s.on (EDG_LIN_CTRL_RUN n) then .next ((s.linSet n fun x => { x with running := false, wait := none }).linShow n)
  else
    let t := s.get (EDG_LIN_SCHED_TABLE n)
    let k0 := if t = s.get (EDG_LIN_SCHED_ACTIVE n) then (s.linSt n).next else 0
    let s0 := s.linSlotTouch n t (if k0 < 64 then k0 else 0)
    let s1 := if s0.linSlotAt n t k0 = k0 then s0 else s0.linSlotTouch n t 0
    let k := s1.linSlotAt n t k0
    let s2 := (s1.set (EDG_LIN_SCHED_ACTIVE n) t).set (EDG_LIN_SCHED_SLOT n) k
    .next (if s2.linSlotOn n t k then
        (s2.linSet n fun x => { x with next := k + 1, wait := none }).linRunSlot n (4096 + 256 * n + 64 * t + k)
      else s2.linSet n fun x => { x with next := 0, wait := none })

/-- A responder acts on a header by its identifier (R300). -/
def State.linHeader (s : State) (l id : Nat) : State :=
  let s0 := s.linSet l fun x => { x with wait := none }
  let s1 := s0.each ((pdusOf s0.fab.active).filter fun p => linMatches l 1 id p || linMatches l 0 id p) fun t p => t.rigTouch 1 p.1
  match s1.livePdus.find? (linMatches l 1 id) with
  | some p => s1.linAnswer l p.1 false
  | none => match s1.livePdus.find? (linMatches l 0 id) with
    | some p => s1.linSet l fun x => { x with wait := some (id, p.1) }
    | none => s1

/-- LIN_HEADER_RX: a header reaches a responder; one whose parity is wrong is ignored (R300). -/
def execLinHeaderRx (l : Fin 16) (pid : Byte) (s : State) : Host.Outcome State Fault Refusal :=
  .next (if s.linOn l.val true && linPid (pid.toNat % 64) == pid.toNat then s.linHeader l.val (pid.toNat % 64) else s)

/-- A missing or incomplete response counts at a commander (R301). -/
def State.linMissing (s : State) (l : Nat) : State :=
  if s.on (EDG_LIN_CTRL_ROLE l) then s else (s.inc (EDG_LIN_NO_RESP_COUNT l)).linErr l 2

/-- The octets of a response that was expected: its LEN data octets and the checksum (R301). -/
def State.linJudge (s : State) (l id p : Nat) (b : List Byte) (age : Nat) : State :=
  let e := s.tab 12 p
  let n := pduLen e
  if b.length ≤ n then s.linMissing l
  else if beAt b n 1 ≠ linCheck e (b.take n) then (s.inc (EDG_LIN_CHK_ERR_COUNT l)).linErr l 1
  else s.linAccept l p id (b.take n) age

/-- LIN_RESPONSE_RX: a response ends (R300, R301, R284): ERR 0 none, 1 framing, 2 readback, 3 sync. DEDUCED: one that no source PDU of
the active banks takes any more (R324) changes nothing. -/
def execLinResponseRx (l : Fin 16) (data : List Byte) (checksum : Byte) (err : Fin 4) (age : Nat) (s : State) :
    Host.Outcome State Fault Refusal :=
  let n := l.val
  if !s.rigReady || !s.on (EDG_LIN_CTRL_ENABLE n) then .next s
  else
    let s1 := s.linSet n fun x => { x with wait := none }
    match (s.linSt n).wait, err.val with
    | none, 0 => .next s
    | some (id, p), 0 => .next (match s1.linSource n p id with
      | some q => s1.linJudge n id q (data ++ [checksum]) age
      | none => s1)
    | _, k => .next ((s1.inc (EDG_LIN_FRAME_ERR_COUNT n)).linErr n (2 + k))

/-- LIN_NO_RESPONSE: the response does not end within 1.4 nominal frame times (R301). -/
def execLinNoResponse (l : Fin 16) (s : State) : Host.Outcome State Fault Refusal :=
  let n := l.val
  .next (if s.rigReady && s.on (EDG_LIN_CTRL_ENABLE n) && (s.linSt n).wait.isSome then
    (s.linSet n fun x => { x with wait := none }).linMissing n else s)

end Sys2Proof.Machine
end

