-- ==== Sys2Proof/Machine/Ports.lean ====
section
/-! DEFINITION. The rows of external ports: link states, warm resume, TC10, signal quality, diagnostics, MDIO and PLCA
(R58–R90, R470–R479). -/
namespace Sys2Proof.Machine

/-! ### Link (R67, R73–R76, R80, R84–R86) -/

/-- A SerDes port that runs USXGMII. -/
def State.isUsx (s : State) (n : Nat) : Bool := s.isSerdes n && s.get (PRT_MODE_SPEED n) ≥ 2

/-- A port that learns from its partner which speed it offers: by Clause 98, or from the USXGMII word (R67). -/
def State.learnsSpeed (s : State) (n : Nat) : Bool := (s.isT1 n && s.on (PRT_MODE_AN_EN n)) || s.isUsx n

/-- The partner does not offer the configured speed; the event is raised when the bit sets (R67, DEDUCED). -/
def State.speedMismatch (s : State) (n : Nat) : State :=
  if s.on (PRT_LINK_STATUS_SPEED_MISMATCH n) then s
  else (s.set (PRT_LINK_STATUS_SPEED_MISMATCH n) 1).linkEvent n (PRT_LINK_EVENT_SPEED_MISMATCH n) 0x0206 0

/-- ANALOG_START_END: a port in OFF or SLEEP enters RESUME and its record is judged (R74, R80). -/
def execAnalogStartEnd (n : Fin 64) (crcOk partner : Bool) (s : State) : Host.Outcome State Fault Refusal :=
  .next (if s.up .port n.val && (s.prtOf n.val).analog && (s.link n.val == 0 || s.link n.val == 6) then
      s.resumeStart n.val crcOk partner else s)

/-- PARTNER_SIGNAL: a listening T1 port trains once the speed is agreed (R67, R74). A port can learn of another speed only
by Clause 98 or from the USXGMII word. -/
def execPartnerSignal (n : Fin 64) (agreed : Bool) (s : State) : Host.Outcome State Fault Refusal :=
  let p := n.val
  if !s.up .port p || s.link p ≠ 1 then .next s
  else if agreed then
    .next (if s.isT1 p then (s.setLink p 2).prtSet p fun x => { x with partner := true } else s.prtSet p fun x => { x with partner := true })
  else .next (if s.learnsSpeed p then s.speedMismatch p else s)

/-- The latest SQI of a T1 port (R89). -/
def State.noteSqi (s : State) (n sqi : Nat) : State :=
  if s.isT1 n then (s.set (PRT_SQI_SQI n) sqi).set (PRT_SQI_SQI_MIN n) (min sqi (s.get (PRT_SQI_SQI_MIN n))) else s

/-- What a link start found is noted: signal quality, round-trip delay, the role, and the nodes heard on an S-port. -/
def State.noteLink (s : State) (n : Nat) (r : LinkResult) : State :=
  let s1 := (s.noteSqi n r.sqi.val).prtSet n fun p => { p with rtd := r.rtd.toNat, slave := r.slave }
  if isS n then s1.each ((List.range 16).filter fun k => bit r.nodes.toNat k) fun t k => t.noteNode n k else s1

/-- Link status OK in the present state of a port (R74, R80, R85). A partner at another speed gives no link; a port that learns
of it shows the mismatch where it waits for its partner (R67). -/
def State.linkOk (s : State) (n : Nat) (r : LinkResult) : State :=
  let st := s.link n
  if !r.speedOk && !isS n then
    (if ((st == 1 && !s.isT1 n) || st == 5) && s.learnsSpeed n then s.speedMismatch n else s)
  else if st = 1 then
    (if s.isT1 n then s else (s.noteLink n r).enterUp n r.slave false)
  else if st = 2 ∨ st = 5 then (s.noteLink n r).enterUp n r.slave false
  else if st = 3 && (s.prtOf n).probed then
    let s1 := (s.noteLink n r).prtSet n fun p => { p with linkOk := true }
    if r.sqi.val ≥ s.get (PRT_LINK_CFG_SQI_RESUME_MIN n) then s1.resumeUp n else s1
  else s

/-- LINK_STATUS_OK (R74); a hold that ends in the present 1 µs tick expires first (R76), and LINK_FAULT keeps the link status
FAIL (R93). -/
def execLinkStatusOk (n : Fin 64) (res : LinkResult) (s : State) : Host.Outcome State Fault Refusal :=
  let p := n.val
  if !s.up .port p then .next s
  else if s.linkForced p then .next (s.injMark 12)
  else if s.link p = 5 && decide ((s.prtOf p).holdEnd < s.refTicks + 500) then .next ((s.holdExpire p true).linkOk p res)
  else .next (s.linkOk p res)

/-- LINK_STATUS_FAIL (R84). In MAC loopback no link status counts (R60). -/
def execLinkStatusFail (n : Fin 64) (partner : Bool) (s : State) : Host.Outcome State Fault Refusal :=
  let p := n.val
  if !s.up .port p then .next s
  else if s.link p = 4 && s.get (PRT_MODE_LOOPBACK p) ≠ 1 then .next (s.linkFail p partner)
  else if s.link p = 3 then .next (s.prtSet p fun x => { x with linkOk := false, partner := partner })
  else .next s

/-- HOLD_EXPIRY (R86). -/
def execHoldExpiry (n : Fin 64) (partner : Bool) (s : State) : Host.Outcome State Fault Refusal :=
  .next (if s.up .port n.val && s.link n.val == 5 then s.holdExpire n.val partner else s)

/-- HOLD_RETRAIN: the PHY restarts from default coefficients (R85). -/
def execHoldRetrain (n : Fin 64) (s : State) : Host.Outcome State Fault Refusal :=
  .next (if s.up .port n.val && s.link n.val == 5 then s.prtSet n.val fun p => { p with freshCoeffs := true } else s)

/-- RESUME_PROBE_DONE: round-trip delay, echo correlation in 1/256, and with AN_EN = 1 the partner's page (R80). -/
def execResumeProbeDone (n : Fin 64) (corr : Fin 257) (rtd : BitVec 16) (page partner : Bool) (s : State) :
    Host.Outcome State Fault Refusal :=
  let p := n.val
  if !s.up .port p || s.link p ≠ 3 || (s.prtOf p).probed then .next s
  else
    let s1 := s.prtSet p fun x => { x with probed := true, rtd := rtd.toNat, partner := partner }
    let stored := s.get (PRT_RESUME_INFO_RTD p)
    .next <| if rtd.toNat > stored + 5 ∨ stored > rtd.toNat + 5 ∨ corr.val < s.get (PRT_LINK_CFG_CORR_MIN p) then s1.resumeFallback p 5 partner
      else if s.on (PRT_MODE_AN_EN p) && !page then s1.resumeFallback p 6 partner
      else s1

/-- RESUME_LIMIT (R80). -/
def execResumeLimit (n : Fin 64) (partner : Bool) (s : State) : Host.Outcome State Fault Refusal :=
  let p := n.val
  .next <| if !s.up .port p || s.link p ≠ 3 then s
    else if !(s.prtOf p).linkOk then s.resumeFallback p 7 partner
    else if s.get (PRT_SQI_SQI p) < s.get (PRT_LINK_CFG_SQI_RESUME_MIN p) then s.resumeFallback p 8 partner
    else s.resumeUp p

/-! ### Signal quality (R89) -/

/-- The streaks of R89 after a sample: below SQI_LOW or not. -/
def PortSt.sqiNext (p : PortSt) (low : Bool) : PortSt :=
  if low then { p with lowRun := p.lowRun + 1, highRun := 0 }
  else { p with lowRun := 0, highRun := p.highRun + 1, sqiArmed := p.sqiArmed || p.highRun ≥ 2 }

/-- SQI_LOW: raised at the third low sample in a row, armed again by three good ones (R89). -/
def State.sqiJudge (s : State) (n sqi : Nat) : State :=
  let s1 := s.prtSet n fun p => p.sqiNext (sqi < s.get (PRT_LINK_CFG_SQI_LOW n))
  if (s1.prtOf n).lowRun ≥ 3 && (s1.prtOf n).sqiArmed then
    (s1.prtSet n fun p => { p with sqiArmed := false }).linkEvent n (PRT_LINK_EVENT_SQI_LOW n) 0x0204 (s1.rd (PRT_SQI n)).toNat
  else s1

/-- The uncorrectable and corrected codewords that the PHY has seen outside frames since its last sample (R94). -/
def State.phyCounted (s : State) (n errs corr : Nat) : State :=
  if s.up .port n then (s.add (PRT_RX_PHY_ERR_COUNT n) errs).add (PRT_FEC_CORR_COUNT n) corr else s

/-- SQI_SAMPLE (R80, R89), with what the PHY has seen since outside frames (R94): the table has no row of its own for an error code
outside a frame, so it comes with a sample, on any port. DESIGN CHOICE (log 122). -/
def execSqiSample (n : Fin 64) (sqi : Fin 8) (s0 : State) (phyErrs : Nat := 0) (fecCorr : Nat := 0) : Host.Outcome State Fault Refusal :=
  let p := n.val
  let s := s0.phyCounted p phyErrs fecCorr
  if !s.up .port p || !s.isT1 p || (s.link p ≠ 3 && s.link p ≠ 4) then .next s
  else
    let s1 := (s.noteSqi p sqi.val).sqiJudge p sqi.val
    .next (if s.link p = 3 && (s.prtOf p).linkOk && decide (sqi.val ≥ s.get (PRT_LINK_CFG_SQI_RESUME_MIN p)) then s1.resumeUp p else s1)

/-! ### TC10 and port sleep (R82, R83, R469–R475) -/

/-- The port takes part in TC10: a T1 port with TC10_EN = 1 (R82). -/
def State.tc10On (s : State) (n : Nat) : Bool := s.isT1 n && s.on (PRT_MODE_TC10_EN n)

/-- The port may sleep alone (R474). -/
def State.maySleepAlone (s : State) (n : Nat) : Bool :=
  bit (s.get (WAK_PSLEEP_PORTS (n / 32))) (n % 32) && !s.portDeclared n

/-- TC10_SLEEP_REQUEST: in sleep entry a coordinated port acknowledges; elsewhere the port sleeps alone or keeps UP (R470,
R474). -/
def execTc10SleepRequest (n : Fin 64) (s : State) : Host.Outcome State Fault Refusal :=
  let p := n.val
  .next <| if !s.up .port p || !s.tc10On p || s.link p ≠ 4 then s
    else if s.power = 3 then (if s.pwr.waitAck.contains p then s.sendTc10 p 1 else s)
    else if s.maySleepAlone p then (s.sendTc10 p 1).portSleep p
    else s.inc WAK_SLEEP_REQ_HELD_COUNT

/-- TC10_SLEEP_ACK: a coordinated port enters SLEEP (R465, R470 step 2). -/
def execTc10SleepAck (n : Fin 64) (s : State) : Host.Outcome State Fault Refusal :=
  let p := n.val
  if !s.pwr.waitAck.contains p then .next s
  else
    let s1 := if s.link p = 4 then s.portSleep p else s
    .next ({ s1 with pwr := { s1.pwr with waitAck := s1.pwr.waitAck.filter (· ≠ p) } }.settleSwitch)

/-- TC10_SLEEP_ABORT: a partner's abort before the commit point ends the entry with cause 3 (R470, R472). -/
def execTc10SleepAbort (n : Fin 64) (s : State) : Host.Outcome State Fault Refusal :=
  .next (if s.power == 3 && s.pwr.waitAck.contains n.val then s.abortEntry 3 n.val else s)

/-- A remote wake on a port with a source code: the port leaves SLEEP, and an enabled source wakes the device (R74, R475), which in sleep
entry wakes every port again or is latched (R472, R473). -/
def State.portWoken (s : State) (source n : Nat) : State :=
  let s1 := if s.power = 3 && s.sourceOn source n then s else s.portWake n
  if s1.alive && s1.sourceOn source n then (s1.wakeEvent source n).settleSwitch else s1

/-- TC10_WAKE (R82, R475). -/
def execTc10Wake (n : Fin 64) (s : State) : Host.Outcome State Fault Refusal :=
  .next (if s.tc10On n.val then s.portWoken 2 n.val else s)

/-- SEGMENT_ACTIVITY (R83, R475). -/
def execSegmentActivity (n : Fin 64) (s : State) : Host.Outcome State Fault Refusal :=
  .next (if isS n.val && s.on (PRT_MODE_TC10_EN n.val) then s.portWoken 3 n.val else s)

/-! ### Diagnostics, MDIO and PLCA (R70, R72, R90, R94) -/

/-- The state that a port returns to after a diagnostic (R90): the one it came from; DEDUCED: LISTEN where it has been enabled
meanwhile. -/
def State.diagBack (s : State) (n : Nat) : State :=
  if (s.prtOf n).diagFrom = 0 ∧ s.get (PRT_MODE_ENABLE n) = 0 then (s.setLink n 0).putMdi n false else s.portLeaveOff n

/-- DIAG_DONE (R79, R90). -/
def execDiagDone (n : Fin 64) (result : Fin 5) (distance : BitVec 16) (s : State) : Host.Outcome State Fault Refusal :=
  let p := n.val
  if !s.up .port p || s.link p ≠ 7 then .next s
  else
    let s1 := ((s.set (PRT_DIAG_STATUS p) 2).set (PRT_DIAG_RESULT p) result.val).set (PRT_DIAG_DISTANCE p) distance.toNat
    let s2 := (s1.dropRecord p).diagBack p
    .next (s2.linkEvent p (PRT_LINK_EVENT_DIAG_DONE p) 0x0205 (s2.rd (PRT_DIAG p)).toNat)

/-- MDIO_FRAME_DONE: the frame on a bus ends, a read returns its data, and the next frame of the bus starts (R72). -/
def execMdioFrameDone (bus : Fin 2) (rdata : BitVec 16) (s : State) : Host.Outcome State Fault Refusal :=
  match SMap.find s.mdioBus bus.val with
  | none => .next s
  | some f =>
    let s1 := (if f.op = 3 then s.set (PRT_MDIO_STATUS_RDATA f.port) rdata.toNat else s).set (PRT_MDIO_STATUS_BUSY f.port) 0
    .next (s1.mdioNext bus.val)

/-- An S-port that runs PLCA: enabled, out of SLEEP, on a powered line domain. -/
def State.plcaRuns (s : State) (n : Nat) : Bool :=
  s.up .port n && isS n && s.on (PRT_MODE_ENABLE n) && (s.link n == 1 || s.link n == 4 || s.link n == 5)

/-- PLCA_FOREIGN_BEACON: at a coordinator, ROLE 0 (R68, R70). -/
def execPlcaForeignBeacon (n : Fin 64) (s : State) : Host.Outcome State Fault Refusal :=
  .next (if s.plcaRuns n.val && s.get (PRT_MODE_ROLE n.val) == 0 then
      (s.inc (PRT_PLCA_CNT_BEACON_FAULT n.val)).set (PRT_PLCA_STATUS_CONFLICT n.val) 1 else s)

/-- COLLISION (R70). -/
def execCollision (n : Fin 64) (s : State) : Host.Outcome State Fault Refusal :=
  .next (if s.plcaRuns n.val then s.inc (PRT_PLCA_CNT_COLLISIONS n.val) else s)

/-- PLCA_BEACON_TIMEOUT: a follower misses its beacon (R94). -/
def execPlcaBeaconTimeout (n : Fin 64) (s : State) : Host.Outcome State Fault Refusal :=
  .next (if s.plcaRuns n.val && s.get (PRT_MODE_ROLE n.val) == 1 then s.inc (PRT_PLCA_CNT_BEACON_FAULT n.val) else s)

end Sys2Proof.Machine
end

