-- ==== Sys2Proof/Machine/RegRows.lean ====
section
/-! DEFINITION. The rows of the operation table that are a write or a read of one register: each is that access, by the
initiator that makes it, and does what the register's hook says (R38). A row that names a bit's value (ENABLE = 1 …) forces
that bit of the written word. -/
namespace Sys2Proof.Machine

/-- A word with bit `k` set. -/
def withBit (v : Word) (k : Nat) : Word := v ||| BitVec.ofNat 32 (2 ^ k)

/-- A word with bit `k` clear. -/
def noBit (v : Word) (k : Nat) : Word := v &&& ~~~(BitVec.ofNat 32 (2 ^ k))

/-! ### Ports -/

/-- PORT_ENABLE: a write of PRT_MODE with ENABLE = 1 (R74). -/
def execPortEnable (who : Initiator) (n : Fin 64) (value : Word) (s : State) : Host.Outcome State Fault Refusal :=
  .next (s.write who (PRT_MODE n.val) (withBit value 0))

/-- PORT_DISABLE: a write of PRT_MODE with ENABLE = 0 (R74, R87). -/
def execPortDisable (who : Initiator) (n : Fin 64) (value : Word) (s : State) : Host.Outcome State Fault Refusal :=
  .next (s.write who (PRT_MODE n.val) (noBit value 0))

/-- LOOPBACK_CHANGE: a write of PRT_MODE.LOOPBACK (R60). -/
def execLoopbackChange (who : Initiator) (n : Fin 64) (value : Word) (s : State) : Host.Outcome State Fault Refusal :=
  .next (s.write who (PRT_MODE n.val) value)

/-- DIAG_START: PRT_DIAG.START = 1 (R90). -/
def execDiagStart (who : Initiator) (n : Fin 64) (s : State) : Host.Outcome State Fault Refusal :=
  .next (s.write who (PRT_DIAG n.val) 1)

/-- MDIO_START: a write of PRT_MDIO_CMD with START = 1 (R72). -/
def execMdioStart (who : Initiator) (n : Fin 64) (value : Word) (s : State) : Host.Outcome State Fault Refusal :=
  .next (s.write who (PRT_MDIO_CMD n.val) (withBit value 31))

/-! ### Fabric -/

/-- GTE_HOLD_WRITE: a write of GTE_HOLD (R217). -/
def execGteHoldWrite (who : Initiator) (n : Fin 70) (value : Word) (s : State) : Host.Outcome State Fault Refusal :=
  .next (s.write who (GTE_HOLD n.val) value)

/-- OBS_CLEAR: LNE_CNT_CLEAR.OBS_CLEAR = 1 (R228). -/
def execObsClear (who : Initiator) (s : State) : Host.Outcome State Fault Refusal := .next (s.write who LNE_CNT_CLEAR 2)

/-- FWD_AGE_WRITE: a write of FWD_AGE (R142). -/
def execFwdAgeWrite (who : Initiator) (value : Word) (s : State) : Host.Outcome State Fault Refusal :=
  .next (s.write who FWD_AGE value)

/-- REC_ENABLE: REC_CTRL.ENABLE = 1 (R157). -/
def execRecEnable (who : Initiator) (value : Word) (s : State) : Host.Outcome State Fault Refusal :=
  .next (s.write who REC_CTRL (withBit value 0))

/-- REC_DISABLE: REC_CTRL.ENABLE = 0 (R157). -/
def execRecDisable (who : Initiator) (value : Word) (s : State) : Host.Outcome State Fault Refusal :=
  .next (s.write who REC_CTRL (noBit value 0))

/-- DRAM_ENABLE: REC_DRAM_CFG.ENABLE = 1 begins the training (R164). -/
def execDramEnable (who : Initiator) (value : Word) (s : State) : Host.Outcome State Fault Refusal :=
  .next (s.write who REC_DRAM_CFG (withBit value 0))

/-- FST_RUN: FST_CTRL.RUN = 1 (R99, R100). -/
def execFstRun (who : Initiator) (value : Word) (s : State) : Host.Outcome State Fault Refusal :=
  .next (s.write who FST_CTRL (withBit value 0))

/-- The image register of a unit. -/
def imgReg : ImgUnit → Nat
  | .ump => UMP_IMG
  | .rig => RIG_IMG
  | .key => KEY_IMG

/-- IMG_ENABLE: EN = 1 of a unit's table image (R191, R326, R438). -/
def execImgEnable (who : Initiator) (unit : ImgUnit) (value : Word) (s : State) : Host.Outcome State Fault Refusal :=
  .next (s.write who (imgReg unit) (withBit value 31))

/-! ### Time -/

/-- DOMAIN_ENABLE: TIM_DOM_CFG.EN = 1 (R257). -/
def execDomainEnable (who : Initiator) (d : Fin 4) (value : Word) (s : State) : Host.Outcome State Fault Refusal :=
  .next (s.write who (TIM_DOM_CFG d.val) (withBit value 0))

/-- DOMAIN_DISABLE: TIM_DOM_CFG.EN = 0 (R257). -/
def execDomainDisable (who : Initiator) (d : Fin 4) (value : Word) (s : State) : Host.Outcome State Fault Refusal :=
  .next (s.write who (TIM_DOM_CFG d.val) (noBit value 0))

/-- INCR_WRITE: a write of TIM_INCR (R260, R266). -/
def execIncrWrite (who : Initiator) (d : Fin 4) (value : Word) (s : State) : Host.Outcome State Fault Refusal :=
  .next (s.write who (TIM_INCR d.val) value)

/-- SLEW_WRITE: a write of TIM_SLEW (R262). -/
def execSlewWrite (who : Initiator) (d : Fin 4) (value : Word) (s : State) : Host.Outcome State Fault Refusal :=
  .next (s.write who (TIM_SLEW d.val) value)

/-- TIME_STEP: a write of the upper word of TIM_STEP, which applies the step (R263). -/
def execTimeStep (who : Initiator) (d : Fin 4) (upper : Word) (s : State) : Host.Outcome State Fault Refusal :=
  .next (s.write who (TIM_STEP d.val + 4) upper)

/-- TIME_SET: a write of TIM_SET_NS with SET = 1 (R261). -/
def execTimeSet (who : Initiator) (d : Fin 4) (value : Word) (s : State) : Host.Outcome State Fault Refusal :=
  .next (s.write who (TIM_SET_NS d.val) (withBit value 31))

/-- HANDOVER: TIM_SERVO_CTRL.HANDOVER = 1 (R267). -/
def execHandover (who : Initiator) (d : Fin 4) (s : State) : Host.Outcome State Fault Refusal :=
  .next (s.write who (TIM_SERVO_CTRL d.val) 1)

/-- TAKEBACK: TIM_SERVO_CTRL.TAKEBACK = 1 (R269). -/
def execTakeback (who : Initiator) (d : Fin 4) (s : State) : Host.Outcome State Fault Refusal :=
  .next (s.write who (TIM_SERVO_CTRL d.val) 2)

/-- BUOY_POP: TIM_BUOY_POP.POP = 1 (R282). -/
def execBuoyPop (who : Initiator) (b : Fin 16) (s : State) : Host.Outcome State Fault Refusal :=
  .next (s.write who (TIM_BUOY_POP b.val) 1)

/-- CATCH_ARM: TIM_CATCH_CFG.ARM = 1 (R278, R279). -/
def execCatchArm (who : Initiator) (c : Fin 16) (value : Word) (s : State) : Host.Outcome State Fault Refusal :=
  .next (s.write who (TIM_CATCH_CFG c.val) (withBit value 1))

/-- CATCH_DISARM: TIM_CATCH_CFG.ARM = 0 (R279). -/
def execCatchDisarm (who : Initiator) (c : Fin 16) (value : Word) (s : State) : Host.Outcome State Fault Refusal :=
  .next (s.write who (TIM_CATCH_CFG c.val) (noBit value 1))

/-- SNAPSHOT_CAPTURE: TIM_SNAP_CTRL.CAPTURE = 1 (R291). -/
def execSnapshotCapture (who : Initiator) (s : State) : Host.Outcome State Fault Refusal := .next (s.write who TIM_SNAP_CTRL 1)

/-- TIME_NOW_READ: a read of TIM_NOW_NS, which latches fraction and seconds (R258). -/
def execTimeNowRead (who : Initiator) (d : Fin 4) (s : State) : Host.Outcome State Fault Refusal :=
  .next (s.regRead who (here (TIM_NOW_NS d.val)))

/-! ### Edge -/

/-- CAN_ENABLE: EDG_CAN_CTRL.ENABLE = 1 (R293, R294). -/
def execCanEnable (who : Initiator) (c : Fin 32) (value : Word) (s : State) : Host.Outcome State Fault Refusal :=
  .next (s.write who (EDG_CAN_CTRL c.val) (withBit value 0))

/-- CAN_DISABLE: EDG_CAN_CTRL.ENABLE = 0 (R294). -/
def execCanDisable (who : Initiator) (c : Fin 32) (value : Word) (s : State) : Host.Outcome State Fault Refusal :=
  .next (s.write who (EDG_CAN_CTRL c.val) (noBit value 0))

/-- CAN_RECOVER: EDG_CAN_CTRL.RECOVER = 1, the other bits as they stand (R295). -/
def execCanRecover (who : Initiator) (c : Fin 32) (s : State) : Host.Outcome State Fault Refusal :=
  .next (s.write who (EDG_CAN_CTRL c.val) (withBit (s.rd (EDG_CAN_CTRL c.val)) 4))

/-- LIN_RUN: EDG_LIN_CTRL.RUN = 1 (R299). -/
def execLinRun (who : Initiator) (l : Fin 16) (value : Word) (s : State) : Host.Outcome State Fault Refusal :=
  .next (s.write who (EDG_LIN_CTRL l.val) (withBit value 2))

/-- LIN_STOP: EDG_LIN_CTRL.RUN = 0 (R299). -/
def execLinStop (who : Initiator) (l : Fin 16) (value : Word) (s : State) : Host.Outcome State Fault Refusal :=
  .next (s.write who (EDG_LIN_CTRL l.val) (noBit value 2))

/-- LIN_TABLE_SELECT: a write of EDG_LIN_SCHED.TABLE (R299). -/
def execLinTableSelect (who : Initiator) (l : Fin 16) (value : Word) (s : State) : Host.Outcome State Fault Refusal :=
  .next (s.write who (EDG_LIN_SCHED l.val) value)

/-- LIN_WAKE: EDG_LIN_CTRL.WAKE = 1, the other bits as they stand (R298). -/
def execLinWake (who : Initiator) (l : Fin 16) (s : State) : Host.Outcome State Fault Refusal :=
  .next (s.write who (EDG_LIN_CTRL l.val) (withBit (s.rd (EDG_LIN_CTRL l.val)) 3))

/-! ### Host interface -/

/-- KICK: HIF_KICK.KICK = 1: the doorbells are read (R371). -/
def execKick (who : Initiator) (s : State) : Host.Outcome State Fault Refusal := .next (s.write who HIF_KICK 1)

/-- RING_ENABLE: EN = 1 of a ring's CFG register (R370). -/
def execRingEnable (who : Initiator) (ring : Ring) (value : Word) (s : State) : Host.Outcome State Fault Refusal :=
  .next (s.write who (ringCfg ring) (withBit value 0))

/-- RING_DISABLE: EN = 0 of a ring's CFG register (R370). -/
def execRingDisable (who : Initiator) (ring : Ring) (value : Word) (s : State) : Host.Outcome State Fault Refusal :=
  .next (s.write who (ringCfg ring) (noBit value 0))

/-! ### Cox and safety -/

/-- UNFREEZE: COX_CTRL.UNFREEZE = 1 (R400). -/
def execUnfreeze (who : Initiator) (s : State) : Host.Outcome State Fault Refusal := .next (s.write who COX_CTRL 1)

/-- INJ_ENABLE: INJ_CTRL.EN = 1 (R410). -/
def execInjEnable (who : Initiator) (s : State) : Host.Outcome State Fault Refusal := .next (s.write who INJ_CTRL 1)

/-- INJ_DISABLE: INJ_CTRL.EN = 0 disarms every point (R410). -/
def execInjDisable (who : Initiator) (s : State) : Host.Outcome State Fault Refusal := .next (s.write who INJ_CTRL 0)

/-- INJ_ARM: a write of an injection point's register (R410, R411). -/
def execInjArm (who : Initiator) (p : Fin 25) (value : Word) (s : State) : Host.Outcome State Fault Refusal :=
  .next (s.write who (INJ_ARM p.val) value)

/-! ### Update, power, reset and the logbook -/

/-- HEALTH_CONFIRM: a write of UPD_HEALTH (R457). -/
def execHealthConfirm (who : Initiator) (value : Word) (s : State) : Host.Outcome State Fault Refusal :=
  .next (s.write who UPD_HEALTH value)

/-- PWR_REQ: a write of PWR_CTRL with REQ (R464). -/
def execPwrReq (who : Initiator) (value : Word) (s : State) : Host.Outcome State Fault Refusal :=
  .next (s.write who PWR_CTRL value)

/-- STAY: PWR_CTRL.STAY = 1 (R481). -/
def execStay (who : Initiator) (s : State) : Host.Outcome State Fault Refusal := .next (s.write who PWR_CTRL 0x100)

/-- PWR_DOMAINS_WRITE: a write of PWR_ACTIVE or PWR_FEATHER (R462). -/
def execPwrDomainsWrite (who : Initiator) (feather : Bool) (value : Word) (s : State) : Host.Outcome State Fault Refusal :=
  .next (s.write who (if feather then PWR_FEATHER else PWR_ACTIVE) value)

/-- START_OK: RST_START.START_OK = 1 (R499). -/
def execStartOk (who : Initiator) (s : State) : Host.Outcome State Fault Refusal := .next (s.write who RST_START 1)

/-- OPT_PROGRAM: OPT_PROG.START = 1 (R496). -/
def execOptProgram (who : Initiator) (s : State) : Host.Outcome State Fault Refusal := .next (s.write who OPT_PROG 1)

/-- LOG_WORD_WRITE: a write of a logbook word (R503). -/
def execLogWordWrite (who : Initiator) (i : Fin 1024) (value : Word) (s : State) : Host.Outcome State Fault Refusal :=
  .next (s.write who (LOG_WORD i.val) value)

end Sys2Proof.Machine
end

