-- ==== Sys2Proof/Machine/Rigger.lean ====
section
/-! DEFINITION. What moves the Rigger but for frames on its buses: frames from port 66, its 1 ms ticks, and the batches of its
tunnels (R311, R313, R316–R319, R329). -/
namespace Sys2Proof.Machine

/-- RIG_ETH_RX: the oldest frame that left port 66 reaches the Rigger, which reads it while it runs; with ENABLE = 0 it takes none
(R316). -/
def execRigEthRx (s : State) : Host.Outcome State Fault Refusal :=
  match s.edge.rigIn with
  | [] => .next s
  | (b, arrival) :: rest =>
    let s1 := s.eset fun e => { e with rigIn := rest }
    .next (if !s1.rigReady then s1
      else if !s1.on RIG_CFG_ENABLE then s1.inc RIG_ETH_UNMATCHED_COUNT
      else s1.rigTake b arrival)

/-- The cyclic destinations that are due at tick `t`, in index order (R313). -/
def State.cyclicDue (s : State) (t : Nat) : List Nat :=
  (s.livePdus.filter fun p =>
    let per := ebits p.2 20 0 16
    pduDir p.2 == 1 && pduBus p.2 != 1 && pduCyclic p.2 && per != 0 && (t + per - ebits p.2 22 0 16 % per) % per == 0).map (·.1)

/-- RIG_CYCLIC_TICK: the 1 ms counter advances from ENABLE 0 → 1 on; the cyclic destinations that are due are emitted while
the tables stand (R313, R326). -/
def execRigCyclicTick (s : State) : Host.Outcome State Fault Refusal :=
  if !(s.up .edge && s.on RIG_CFG_ENABLE) then .next s
  else
    let t := s.edge.tick + 1
    let s1 := s.eset fun e => { e with tick := t }
    .next (if s1.rigReady then s1.each (s1.cyclicDue t) fun u d => u.emitPdu d false else s1)

/-- RIG_FRESH makes its route stale at this tick (R329). -/
def State.freshForced (s : State) (r : Nat) : State :=
  if s.injArmedFor 19 r then (if (s.routeSt r).fresh then (s.injSpend 19).enterStale r else s.injSpend 19) else s

/-- RIG_FRESH_TICK: the errors that the memories have shown since the last tick, then the freshness of every valid route
(R311, R328, R329). -/
def execRigFreshTick (s : State) (upsets : List RigUpset := []) : Host.Outcome State Fault Refusal :=
  .next (if s.rigReady then
    (s.each upsets fun t u => t.rigUpset u).each (routesOf s.fab.active) fun t r =>
      if t.rigBroken 0 r.1 then t else (t.judgeFresh r.1 r.2).freshForced r.1
  else s)

/-- ACF_BATCH_TIMEOUT: BATCH_US has passed since the first message of a DIR-0 tunnel (R318). -/
def execAcfBatchTimeout (t : Fin 512) (s : State) : Host.Outcome State Fault Refusal :=
  if !s.rigRuns || (s.tunSt t.val).msgs.isEmpty then .next s
  else
    let s1 := s.rigTouch 2 t.val
    .next (if s1.liveTuns.any fun u => u.1 == t.val then s1.sendTunnel t.val else s1)

end Sys2Proof.Machine
end

