-- ==== Sys2Proof/Machine/Dispatch.lean ====
section
/-! DEFINITION. The dispatch of commands to their meanings, one arm per constructor of `Instr`. -/
namespace Sys2Proof.Machine

/-- The effect of a command on everything but the queue. -/
def exec (i : Instr) (s : State) : Host.Outcome State Fault Refusal :=
  match i with
  | .registerWrite who addr data => Sys2Proof.Machine.execRegisterWrite who addr data s
  | .rcRead who addr => Sys2Proof.Machine.execRcRead who addr s
  | .counterLowRead who addr => Sys2Proof.Machine.execCounterLowRead who addr s
  | .cntClear who blk => Sys2Proof.Machine.execCntClear who blk s
  | .setupLock who => Sys2Proof.Machine.execSetupLock who s
  | .faultNHoldEnd => Sys2Proof.Machine.execFaultNHoldEnd s
  | .stage src d => Sys2Proof.Machine.execStage src d s
  | .commit src d => Sys2Proof.Machine.execCommit src d s
  | .heatDone us => Sys2Proof.Machine.execHeatDone us s
  | .commitAbort src d => Sys2Proof.Machine.execCommitAbort src d s
  | .swap => Sys2Proof.Machine.execSwap s
  | .drainEnd => Sys2Proof.Machine.execDrainEnd s
  | .heatReport src d => Sys2Proof.Machine.execHeatReport src d s
  | .portEnable who n value => Sys2Proof.Machine.execPortEnable who n value s
  | .portDisable who n value => Sys2Proof.Machine.execPortDisable who n value s
  | .loopbackChange who n value => Sys2Proof.Machine.execLoopbackChange who n value s
  | .analogStartEnd n crcOk partner => Sys2Proof.Machine.execAnalogStartEnd n crcOk partner s
  | .partnerSignal n agreed => Sys2Proof.Machine.execPartnerSignal n agreed s
  | .linkStatusOk n res => Sys2Proof.Machine.execLinkStatusOk n res s
  | .linkStatusFail n partner => Sys2Proof.Machine.execLinkStatusFail n partner s
  | .holdExpiry n partner => Sys2Proof.Machine.execHoldExpiry n partner s
  | .holdRetrain n => Sys2Proof.Machine.execHoldRetrain n s
  | .resumeProbeDone n corr rtd page partner => Sys2Proof.Machine.execResumeProbeDone n corr rtd page partner s
  | .resumeLimit n partner => Sys2Proof.Machine.execResumeLimit n partner s
  | .sqiSample n sqi phyErrs fecCorr => Sys2Proof.Machine.execSqiSample n sqi s phyErrs fecCorr
  | .tc10SleepRequest n => Sys2Proof.Machine.execTc10SleepRequest n s
  | .tc10SleepAck n => Sys2Proof.Machine.execTc10SleepAck n s
  | .tc10SleepAbort n => Sys2Proof.Machine.execTc10SleepAbort n s
  | .tc10Wake n => Sys2Proof.Machine.execTc10Wake n s
  | .segmentActivity n => Sys2Proof.Machine.execSegmentActivity n s
  | .diagStart who n => Sys2Proof.Machine.execDiagStart who n s
  | .diagDone n result distance => Sys2Proof.Machine.execDiagDone n result distance s
  | .mdioStart who n value => Sys2Proof.Machine.execMdioStart who n value s
  | .mdioFrameDone bus rdata => Sys2Proof.Machine.execMdioFrameDone bus rdata s
  | .plcaForeignBeacon n => Sys2Proof.Machine.execPlcaForeignBeacon n s
  | .collision n => Sys2Proof.Machine.execCollision n s
  | .ct64thByte f rivals => Sys2Proof.Machine.execCt64thByte f rivals s
  | .chunkOutgrown port fid bytes age => Sys2Proof.Machine.execChunkOutgrown port fid s bytes age
  | .streamMaxLenExceeded port fid bytes age => Sys2Proof.Machine.execStreamMaxLenExceeded port fid s bytes age
  | .classify f whole => Sys2Proof.Machine.execClassify f whole s
  | .frameEnd f v rivals => Sys2Proof.Machine.execFrameEnd f v rivals s
  | .descriptorArrival port fid rivals => Sys2Proof.Machine.execDescriptorArrival port fid rivals s
  | .laneSelect n ecc delay => Sys2Proof.Machine.execLaneSelect n ecc delay s
  | .txEnd n => Sys2Proof.Machine.execTxEnd n s
  | .tsRecordReturn n => Sys2Proof.Machine.execTsRecordReturn n s
  | .gateBoundary n => Sys2Proof.Machine.execGateBoundary n s
  | .gteHoldWrite who n value => Sys2Proof.Machine.execGteHoldWrite who n value s
  | .mmVerifyTimer n => Sys2Proof.Machine.execMmVerifyTimer n s
  | .mmRespond n => Sys2Proof.Machine.execMmRespond n s
  | .obsSample => Sys2Proof.Machine.execObsSample s
  | .obsClear who => Sys2Proof.Machine.execObsClear who s
  | .ageSweep => Sys2Proof.Machine.execAgeSweep s
  | .fwdAgeWrite who value => Sys2Proof.Machine.execFwdAgeWrite who value s
  | .fdbFlush src d => Sys2Proof.Machine.execFdbFlush src d s
  | .fdbDump src d => Sys2Proof.Machine.execFdbDump src d s
  | .recEnable who value => Sys2Proof.Machine.execRecEnable who value s
  | .recDisable who value => Sys2Proof.Machine.execRecDisable who value s
  | .recPageTimeout => Sys2Proof.Machine.execRecPageTimeout s
  | .recFreeze src d => Sys2Proof.Machine.execRecFreeze src d s
  | .recRearm src d => Sys2Proof.Machine.execRecRearm src d s
  | .recRead src d => Sys2Proof.Machine.execRecRead src d s
  | .dramEnable who value => Sys2Proof.Machine.execDramEnable who value s
  | .dramTrainDone ok => Sys2Proof.Machine.execDramTrainDone ok s
  | .fstRun who value => Sys2Proof.Machine.execFstRun who value s
  | .fstReady => Sys2Proof.Machine.execFstReady s
  | .scrubStep ecc => Sys2Proof.Machine.execScrubStep ecc s
  | .pinholeExpiry => Sys2Proof.Machine.execPinholeExpiry s
  | .tcamScan => Sys2Proof.Machine.execTcamScan s
  | .pinholeFlush src d => Sys2Proof.Machine.execPinholeFlush src d s
  | .pinholeDump src d => Sys2Proof.Machine.execPinholeDump src d s
  | .imgEnable who unit value => Sys2Proof.Machine.execImgEnable who unit value s
  | .imageWriteDone unit ok => Sys2Proof.Machine.execImageWriteDone unit ok s
  | .imageLoadDone unit ok => Sys2Proof.Machine.execImageLoadDone unit ok s
  | .domainEnable who d value => Sys2Proof.Machine.execDomainEnable who d value s
  | .domainDisable who d value => Sys2Proof.Machine.execDomainDisable who d value s
  | .incrWrite who d value => Sys2Proof.Machine.execIncrWrite who d value s
  | .slewWrite who d value => Sys2Proof.Machine.execSlewWrite who d value s
  | .timeStep who d upper => Sys2Proof.Machine.execTimeStep who d upper s
  | .timeSet who d value => Sys2Proof.Machine.execTimeSet who d value s
  | .handover who d => Sys2Proof.Machine.execHandover who d s
  | .takeback who d => Sys2Proof.Machine.execTakeback who d s
  | .servoWatchdog d => Sys2Proof.Machine.execServoWatchdog d s
  | .buoyCapture b rising => Sys2Proof.Machine.execBuoyCapture b rising s
  | .buoyPop who b => Sys2Proof.Machine.execBuoyPop who b s
  | .lockLoss d => Sys2Proof.Machine.execLockLoss d s
  | .catchArm who c value => Sys2Proof.Machine.execCatchArm who c value s
  | .catchDisarm who c value => Sys2Proof.Machine.execCatchDisarm who c value s
  | .catchEdge c => Sys2Proof.Machine.execCatchEdge c s
  | .catchPulseEnd c => Sys2Proof.Machine.execCatchPulseEnd c s
  | .snapshotCapture who => Sys2Proof.Machine.execSnapshotCapture who s
  | .timeNowRead who d => Sys2Proof.Machine.execTimeNowRead who d s
  | .reanchor src d => Sys2Proof.Machine.execReanchor src d s
  | .canEnable who c value => Sys2Proof.Machine.execCanEnable who c value s
  | .canDisable who c value => Sys2Proof.Machine.execCanDisable who c value s
  | .canRecover who c => Sys2Proof.Machine.execCanRecover who c s
  | .canBusIdle c => Sys2Proof.Machine.execCanBusIdle c s
  | .canFrameRx c f => Sys2Proof.Machine.execCanFrameRx c f s
  | .canError c e => Sys2Proof.Machine.execCanError c e s
  | .canRecoveryDone c => Sys2Proof.Machine.execCanRecoveryDone c s
  | .canTxStart c => Sys2Proof.Machine.execCanTxStart c s
  | .canTxDone c => Sys2Proof.Machine.execCanTxDone c s
  | .canTxDeadline c => Sys2Proof.Machine.execCanTxDeadline c s
  | .linRun who l value => Sys2Proof.Machine.execLinRun who l value s
  | .linStop who l value => Sys2Proof.Machine.execLinStop who l value s
  | .linTableSelect who l value => Sys2Proof.Machine.execLinTableSelect who l value s
  | .linSlotStart l => Sys2Proof.Machine.execLinSlotStart l s
  | .linHeaderRx l pid => Sys2Proof.Machine.execLinHeaderRx l pid s
  | .linResponseRx l data checksum err age => Sys2Proof.Machine.execLinResponseRx l data checksum err age s
  | .linNoResponse l => Sys2Proof.Machine.execLinNoResponse l s
  | .linWake who l => Sys2Proof.Machine.execLinWake who l s
  | .rigEthRx => Sys2Proof.Machine.execRigEthRx s
  | .rigCyclicTick => Sys2Proof.Machine.execRigCyclicTick s
  | .rigFreshTick upsets => Sys2Proof.Machine.execRigFreshTick s upsets
  | .acfBatchTimeout t => Sys2Proof.Machine.execAcfBatchTimeout t s
  | .hfpRelay port m => Sys2Proof.Machine.execHfpRelay port m s
  | .hello port mac m => Sys2Proof.Machine.execHello port mac m s
  | .helloTimer => Sys2Proof.Machine.execHelloTimer s
  | .adjDead port => Sys2Proof.Machine.execAdjDead port s
  | .lsa port m => Sys2Proof.Machine.execLsa port m s
  | .lsaTimer => Sys2Proof.Machine.execLsaTimer s
  | .lsaExpire origin => Sys2Proof.Machine.execLsaExpire origin s
  | .remoteRequest who addr req => Sys2Proof.Machine.execRemoteRequest who addr req s
  | .bar2Access offset req => Sys2Proof.Machine.execBar2Access offset req s
  | .requestRx port m => Sys2Proof.Machine.execRequestRx port m s
  | .cmdRx port m => Sys2Proof.Machine.execCmdRx port m s
  | .cpl port m => Sys2Proof.Machine.execCpl port m s
  | .cplTimeout peer tag => Sys2Proof.Machine.execCplTimeout peer tag s
  | .ack port m => Sys2Proof.Machine.execAck port m s
  | .ackTimer peer cls => Sys2Proof.Machine.execAckTimer peer cls s
  | .ackTimeout peer cls => Sys2Proof.Machine.execAckTimeout peer cls s
  | .lateErr port m => Sys2Proof.Machine.execLateErr port m s
  | .remoteCmd src d => Sys2Proof.Machine.execRemoteCmd src d s
  | .lockedSeq src d cox => Sys2Proof.Machine.execLockedSeq src d s cox
  | .lockReq port m cut => Sys2Proof.Machine.execLockReq port m s cut
  | .lockNak port m => Sys2Proof.Machine.execLockNak port m s
  | .lockRel port m => Sys2Proof.Machine.execLockRel port m s
  | .lockMaxExpiry => Sys2Proof.Machine.execLockMaxExpiry s
  | .lockBackoffEnd cox => Sys2Proof.Machine.execLockBackoffEnd s cox
  | .clearPoison src d => Sys2Proof.Machine.execClearPoison src d s
  | .cmitPrepare port m => Sys2Proof.Machine.execCmitPrepare port m s
  | .cmitVote port m => Sys2Proof.Machine.execCmitVote port m s
  | .cmitArm port m => Sys2Proof.Machine.execCmitArm port m s
  | .cmitAck port m => Sys2Proof.Machine.execCmitAck port m s
  | .cmitAbort port m => Sys2Proof.Machine.execCmitAbort port m s
  | .cmitConfirm port m => Sys2Proof.Machine.execCmitConfirm port m s
  | .prepareTimeout => Sys2Proof.Machine.execPrepareTimeout s
  | .armMarginDeadline => Sys2Proof.Machine.execArmMarginDeadline s
  | .abortRepeat => Sys2Proof.Machine.execAbortRepeat s
  | .phase2Drop => Sys2Proof.Machine.execPhase2Drop s
  | .confirmRepeat => Sys2Proof.Machine.execConfirmRepeat s
  | .hostReset kind => Sys2Proof.Machine.execHostReset kind s
  | .doorbellRead => Sys2Proof.Machine.execDoorbellRead s
  | .kick who => Sys2Proof.Machine.execKick who s
  | .txDescFetch => Sys2Proof.Machine.execTxDescFetch s
  | .ringEnable who ring value => Sys2Proof.Machine.execRingEnable who ring value s
  | .ringDisable who ring value => Sys2Proof.Machine.execRingDisable who ring value s
  | .cmdFetch => Sys2Proof.Machine.execCmdFetch s
  | .nop src d => Sys2Proof.Machine.execNop src d s
  | .msixHoldoffEnd source => Sys2Proof.Machine.execMsixHoldoffEnd source s
  | .lockstepMismatch outPar inPar => Sys2Proof.Machine.execLockstepMismatch outPar inPar s
  | .checkerFault alone outPar inPar => Sys2Proof.Machine.execCheckerFault alone outPar inPar s
  | .selftest missA missB otherA otherB outPar inPar => Sys2Proof.Machine.execSelftest missA missB otherA otherB s outPar inPar
  | .coreRelease r => Sys2Proof.Machine.execCoreRelease r s
  | .wdogKick who w value ms => Sys2Proof.Machine.execWdogKick who w value ms s
  | .wdogExpiry w => Sys2Proof.Machine.execWdogExpiry w s
  | .clockMon m persists => Sys2Proof.Machine.execClockMon m persists s
  | .supplyMon rail persists => Sys2Proof.Machine.execSupplyMon rail persists s
  | .tempMon sensorFail tj persists beyond => Sys2Proof.Machine.execTempMon sensorFail tj persists s beyond
  | .unfreeze who => Sys2Proof.Machine.execUnfreeze who s
  | .coxMode src d => Sys2Proof.Machine.execCoxMode src d s
  | .debugAttach scans attach => Sys2Proof.Machine.execDebugAttach s scans attach
  | .lifecycle src d => Sys2Proof.Machine.execLifecycle src d s
  | .ownerLock src d => Sys2Proof.Machine.execOwnerLock src d s
  | .injEnable who => Sys2Proof.Machine.execInjEnable who s
  | .injDisable who => Sys2Proof.Machine.execInjDisable who s
  | .injArm who p value => Sys2Proof.Machine.execInjArm who p value s
  | .keyGenerate src d => Sys2Proof.Machine.execKeyGenerate src d s
  | .keyWrap src d upsets => Sys2Proof.Machine.execKeyWrap src d s upsets
  | .keyUnwrap src d upsets => Sys2Proof.Machine.execKeyUnwrap src d s upsets
  | .keyDerive src d upsets => Sys2Proof.Machine.execKeyDerive src d s upsets
  | .keyDestroy src d => Sys2Proof.Machine.execKeyDestroy src d s
  | .attest src d => Sys2Proof.Machine.execAttest src d s
  | .random src d => Sys2Proof.Machine.execRandom src d s
  | .trngHealthFail apt => Sys2Proof.Machine.execTrngHealthFail apt s
  | .trngRetest who pass => Sys2Proof.Machine.execTrngRetest who pass s
  | .updLoad src d => Sys2Proof.Machine.execUpdLoad src d s
  | .updVerify src d => Sys2Proof.Machine.execUpdVerify src d s
  | .flashBlockDone ok => Sys2Proof.Machine.execFlashBlockDone ok s
  | .updActivate src d => Sys2Proof.Machine.execUpdActivate src d s
  | .updActivation => Sys2Proof.Machine.execUpdActivation s
  | .healthConfirm who value => Sys2Proof.Machine.execHealthConfirm who value s
  | .healthExpiry => Sys2Proof.Machine.execHealthExpiry s
  | .updAbort src d => Sys2Proof.Machine.execUpdAbort src d s
  | .journalReplayDone => Sys2Proof.Machine.execJournalReplayDone s
  | .powerState src d => Sys2Proof.Machine.execPowerState src d s
  | .pwrReq who value => Sys2Proof.Machine.execPwrReq who value s
  | .stay who => Sys2Proof.Machine.execStay who s
  | .pwrDomainsWrite who feather value => Sys2Proof.Machine.execPwrDomainsWrite who feather value s
  | .domainPowerGood pd link => Sys2Proof.Machine.execDomainPowerGood pd s link
  | .sleepCommit failed => Sys2Proof.Machine.execSleepCommit failed s
  | .sleepPowerDown => Sys2Proof.Machine.execSleepPowerDown s
  | .sleepTimeout => Sys2Proof.Machine.execSleepTimeout s
  | .wakeIn => Sys2Proof.Machine.execWakeIn s
  | .wakeTimer => Sys2Proof.Machine.execWakeTimer s
  | .vehicleStillFall => Sys2Proof.Machine.execVehicleStillFall s
  | .wakeOutEnd => Sys2Proof.Machine.execWakeOutEnd s
  | .falseWake => Sys2Proof.Machine.execFalseWake s
  | .vbatSample mv still => Sys2Proof.Machine.execVbatSample mv still s
  | .powerOn edge time => Sys2Proof.Machine.execPowerOn s edge time
  | .brownout rails => Sys2Proof.Machine.execBrownout s rails
  | .resetPin => Sys2Proof.Machine.execResetPin s
  | .thermal => Sys2Proof.Machine.execThermal s
  | .jtagReset => Sys2Proof.Machine.execJtagReset s
  | .deviceReset src d => Sys2Proof.Machine.execDeviceReset src d s
  | .islandReady => Sys2Proof.Machine.execIslandReady s
  | .startOk who => Sys2Proof.Machine.execStartOk who s
  | .startTimeout => Sys2Proof.Machine.execStartTimeout s
  | .optProgram who => Sys2Proof.Machine.execOptProgram who s
  | .persistentWriteDone => Sys2Proof.Machine.execPersistentWriteDone s
  | .logWordWrite who k value => Sys2Proof.Machine.execLogWordWrite who k value s
  | .logWrite src d => Sys2Proof.Machine.execLogWrite src d s
  | .resetRelease => Sys2Proof.Machine.execResetRelease s
  | .powerLoss => Sys2Proof.Machine.execPowerLoss s
  | .perstNDeassert link => Sys2Proof.Machine.execPerstNDeassert link s
  | .commandDone missA missB => Sys2Proof.Machine.execCommandDone missA missB s
  | .slewDone d => Sys2Proof.Machine.execSlewDone d s
  | .plcaBeaconTimeout n => Sys2Proof.Machine.execPlcaBeaconTimeout n s
  | .shaperRefill n => Sys2Proof.Machine.execShaperRefill n s
  | .debugDetach => Sys2Proof.Machine.execDebugDetach s
  | .wakeInRelease => Sys2Proof.Machine.execWakeInRelease s
  | .xtal32Fail => Sys2Proof.Machine.execXtal32Fail s
  | .coxFrameTx bytes ts mka => Sys2Proof.Machine.execCoxFrameTx bytes ts s mka

end Sys2Proof.Machine
end

