-- ==== Sys2Proof/Machine/PinOut.lean ====
section
/-! DEFINITION. What each output of the device shows, as far as no unit keeps its level: the holds of R486, the banks of R487 and R507, and
the boundary scan of R517. -/
namespace Sys2Proof.Machine

/-- The outputs of R486. -/
inductive Pin where
  | canTxd (c : Fin 32)
  | linTx (l : Fin 16)
  | xmode (k : Fin 8)
  | mdi (n : Fin 64)
  | serdesTx (n : Fin 8)
  | mdc (b : Fin 2)
  | mdio (b : Fin 2)
  | catch_ (c : Fin 16)
  | wakeOut | inhOut | faultN | pcieTx | xspiCsN | xspiClk | xspiDq | dram | tdo
  deriving DecidableEq, Repr

/-- What an output shows: its stage is off (high-impedance, a driver that is off), a level, silence or electrical idle, what its unit
sends, or what a boundary cell says (R517; the spec gives no order of the cells). -/
inductive PinOut where
  | off | low | high | idle | unit | cell
  deriving DecidableEq, Repr

/-- The rail that feeds the bank of an output (R507). -/
def pinRail : Pin → Nat
  | .canTxd _ => 11
  | .linTx _ => 11
  | .xmode _ => 11
  | .mdi n => if n.val < 8 then 3 else if n.val < 32 then 4 else 6
  | .serdesTx _ => 7
  | .mdc _ => 10
  | .mdio _ => 10
  | .catch_ _ => 12
  | .wakeOut => 13
  | .inhOut => 13
  | .faultN => 13
  | .pcieTx => 7
  | .xspiCsN => 10
  | .xspiClk => 10
  | .xspiDq => 10
  | .dram => 8
  | .tdo => 10

/-- An output that a boundary cell drives under EXTEST: the digital ones (PRESUMED from IEEE 1149.1). -/
def pinDigital : Pin → Bool
  | .mdi _ => false
  | .serdesTx _ => false
  | .pcieTx => false
  | .tdo => false
  | _ => true

/-- A level as an output shows it. -/
def PinOut.ofLevel (b : Bool) : PinOut := if b then .high else .low

/-- What the hold of R486 gives an output. -/
def pinHeld : Pin → PinOut
  | .canTxd _ => .high
  | .linTx _ => .high
  | .mdi _ => .idle
  | .serdesTx _ => .idle
  | .mdio _ => .off
  | .inhOut => .high
  | .pcieTx => .idle
  | .xspiCsN => .high
  | .tdo => .off
  | _ => .low

/-- What an output shows whose bank is in its valid range: the hold of R486, or what follows its release. -/
def State.pinRuns (s : State) (p : Pin) : PinOut :=
  let free := fun (b : Bool) (o : PinOut) => if b then o else pinHeld p
  match p with
  | .canTxd c => free (s.rigReady && s.on (EDG_CAN_CTRL_ENABLE c.val) && s.canState c.val != 0) .unit
  | .linTx l => free (s.up .edge && s.on (EDG_LIN_CTRL_ENABLE l.val)) .unit
  | .xmode k => free (s.up .edge) (.ofLevel (bit (s.get EDG_XMODE_LEVEL) k.val))
  | .mdi n => free (SMap.get s.pins.mdiReleased false n.val && !s.isSerdes n.val) .unit
  | .serdesTx n => free (SMap.get s.pins.mdiReleased false n.val && s.isSerdes n.val) .unit
  | .mdc b => free (bit s.pins.mdcOn b.val) .unit
  | .mdio b => free (bit s.pins.mdcOn b.val) .unit
  | .catch_ c => .ofLevel (bit s.pins.catchHigh c.val)
  | .wakeOut => .ofLevel (s.pwr.wakeOut != s.on WAK_OUT_POL)
  | .inhOut => .ofLevel s.pwr.inhHigh
  | .faultN => .ofLevel (!s.faultNLow)
  | .pcieTx => free s.pins.pcieTxOn .unit
  | .xspiCsN => free (s.on OPT_STATUS_VALID) .unit
  | .xspiClk => free (s.on OPT_STATUS_VALID) .unit
  | .xspiDq => free (s.on OPT_STATUS_VALID) .unit
  | .dram => free (s.up .dram && s.on REC_DRAM_CFG_ENABLE) .unit
  | .tdo => pinHeld p

/-- What an output shows: nothing while its bank is out of its valid range (R487), its hold while its bank is kept in it (R507), its
cell under EXTEST (R517). -/
def State.pinOut (s : State) (p : Pin) : PinOut :=
  if s.bankOff (pinRail p) then .off
  else if s.bankHeld (pinRail p) then pinHeld p
  else if s.jtag.ir = .extest && pinDigital p then .cell
  else s.pinRuns p

end Sys2Proof.Machine
end

