-- ==== Sys2Proof/Safety.lean ====
section
/-! DEFINITION. The terms that statements about the block use: what a register access meets, what an event may touch, and
the invariant of every step. -/
namespace Sys2Proof.Machine

/-- The octet of host memory at an address. -/
def State.hostByte (s : State) (a : Nat) : Byte := SMap.get s.hostMem 0 a

/-- The command completes with a next state of which `P` holds. -/
def Runs (i : Instr) (s : State) (P : State → Prop) : Prop := ∃ t, exec i s = .next t ∧ P t

/-! ### What an event record touches (R55, R356, R368, R382, R385) -/

/-- The registers that an event record may change: HIF_EVT_LOST, and the remote event queue with its head and its count of
lost records (R356, R368, R382). -/
def eventReg (a : Nat) : Bool :=
  a == HIF_EVT_LOST || a == HFP_REVQ_HEAD || a == HFP_REVQ_LOST || (0x1001000 ≤ a && a < 0x1003000)

/-- Address `a` is one of the `n` octets from `base`, modulo the 64-bit address space. -/
def within (base n a : Nat) : Bool := (List.range n).any fun i => (base + i) % 2 ^ 64 == a

/-- The host memory that the next `n` event records may write: their slots of the event ring, the producer word, and the
message address of the vector of each event group. -/
def State.eventArea (s : State) (n a : Nat) : Bool :=
  ((List.range n).any fun k =>
      within (s.get HIF_EVT_BASE_ADDR * 64 + 32 * ((s.hif.evtProd + BitVec.ofNat 32 k).toNat % ringSize (s.get HIF_EVT_CFG_LOG2_SIZE))) 32 a)
    || within (s.get HIF_ST_BASE_ADDR * 4096 + 4) 4 a
    || (List.range 16).any fun g =>
        let v := s.get (HIF_EVT_VEC_VEC g)
        within ((s.msixWord v 0).toNat + 2 ^ 32 * (s.msixWord v 1).toNat) 4 a

/-- `t` with all that event records change put back as it is in `s`: registers, host memory, the producer of the event ring
with its lost flag, pending vectors and holdoffs, and Cox's queue of records. -/
def State.lessEvents (t s : State) : State :=
  { t with regs := s.regs, hostMem := s.hostMem,
           hif := { t.hif with evtProd := s.hif.evtProd, evtLost := s.hif.evtLost, msixPba := s.hif.msixPba, holdoff := s.hif.holdoff },
           cox := { t.cox with events := s.cox.events } }

/-- A record with this code, source and ARG octets is among those that Cox's queue has received since `s`, and none of the
earlier ones is gone (R55). -/
def Emits (code source body : Nat) (s t : State) : Prop :=
  s.cox.events <+: t.cox.events ∧ ⟨code, source, s.short 0, body⟩ ∈ t.cox.events.drop s.cox.events.length

/-! ### Frames -/

/-- Every register word but those of a list keeps its value. -/
def RegsBut (l : List Nat) (s t : State) : Prop := ∀ a, a ∉ l → t.rd a = s.rd a

/-- Every register word but those of a list, and those that event records change, keeps its value. -/
def RegsButE (l : List Nat) (s t : State) : Prop := ∀ a, a ∉ l → eventReg a = false → t.rd a = s.rd a

/-- Every register word outside the address ranges of a list (from the first address, up to the second), and those that event
records change, keeps its value. -/
def RegsOutE (l : List (Nat × Nat)) (s t : State) : Prop :=
  ∀ a, (l.any fun r => r.1 ≤ a && a < r.2) = false → eventReg a = false → t.rd a = s.rd a

/-- The register set of port `n` (R37). -/
def portRegs (n : Nat) : Nat × Nat := (0x400000 + 0x4000 * n, 0x400000 + 0x4000 * (n + 1))

/-- The register block that starts at megabyte `b` of the set-up space. -/
def block (b : Nat) : Nat × Nat := (0x100000 * b, 0x100000 * (b + 1))

/-- Every word that `p` selects returns to its reset value, and every other word keeps its value. -/
def RegsCleared (p : Nat → Bool) (s t : State) : Prop := ∀ a, t.rd a = if p a then resetWord a else s.rd a

/-- The same of every word but those of a list. -/
def RegsClearedBut (l : List Nat) (p : Nat → Bool) (s t : State) : Prop :=
  ∀ a, l.contains a = false → t.rd a = if p a then resetWord a else s.rd a

/-- Every octet of host memory keeps its value. -/
def HostKept (s t : State) : Prop := ∀ a, t.hostByte a = s.hostByte a

/-- Every octet of host memory outside what `n` event records write keeps its value. -/
def HostKeptE (n : Nat) (s t : State) : Prop := ∀ a, s.eventArea n a = false → t.hostByte a = s.hostByte a

/-- Every lane of port `n` is empty. -/
def State.lanesEmpty (s : State) (n : Nat) : Bool := (List.range 8).all fun l => (s.lane n l).isEmpty

/-- The words that show the frame store's chunks and handles. -/
def storeRegs : List Nat :=
  [FST_HANDLE_FREE, FST_HANDLE_LOW, FST_QUARANTINE]
    ++ (List.range 4).flatMap fun p => [FST_POOL_INFO p, FST_POOL_FREE p, FST_POOL_LOW p, FST_SHARED p, FST_SHARED_USED p]

/-- The pool, chunk and handle that a cut-through candidate with these first octets takes on port `n`, where its pool has
more than its headroom free (R103, R108, R109, R114). -/
def State.cutPlace (s : State) (b : List Byte) (n : Nat) : Option (Nat × Nat × Nat) :=
  let p := ((sizeOf64 b (s.get HFP_ETYPE_ETYPE) (classMax n)).bind s.fit).getD (s.get (FST_CT_POOL_POOL n))
  if s.freeShared p ≤ s.headroom p then none
  else match s.freeChunk p, s.freeHandle with
    | some c, some h => some (p, c, h)
    | _, _ => none

/-- The words that an access error changes (R530). -/
def errorRegs : List Nat := [GLB_ACCESS_ERR, GLB_ACCESS_ADDR]

/-! ### Commands (R376–R386) -/

/-- No command runs, the header's reserved fields are 0, and the power state and FROZEN accept a command of the opcode table
(R377, R379, R380, R399). -/
abbrev State.takesCommand (s : State) (d : Desc) (st : List Nat) (frz : Bool) : Prop :=
  s.hif.running = none ∧ descHeaderOk d = true ∧ st.contains s.power = true ∧ (frz && s.frozen) = false

/-- The host memory that the end of a command and `n` event records may write: the writeback octets of the descriptor at
CMD_CONS, the consumer word, and the areas of the records (R376, R386). -/
def State.replyArea (s : State) (n a : Nat) : Bool :=
  s.eventArea n a || within (s.cmdSlot + 8) 8 a || within (s.get HIF_ST_BASE_ADDR * 4096) 4 a

/-- Every octet of host memory outside `n` octets from `base` and outside what the end of a command and two records write
keeps its value. -/
def HostKeptR (base n : Nat) (s t : State) : Prop :=
  ∀ a, within base n a = false → s.replyArea 2 a = false → t.hostByte a = s.hostByte a

/-- A command has written `l` to host memory at `base`, where the device may write it (R364) and the end of the command and its records
write elsewhere. -/
def Wrote (base : Nat) (l : List Byte) (s t : State) : Prop :=
  s.dmaOn = true → ((List.range l.length).all fun i => !s.replyArea 2 ((base + i) % 2 ^ 64)) = true → t.hostBytes base l.length = l

/-- The registers that the end of a command may change beside those of its record: the counters of the completion message
(R334, R343). -/
def replyRegs : List Nat := [HFP_TX_MSG, HFP_NO_ROUTE]

/-- `t` with all that the end of a command changes put back as it is in `s`: what records change, CMD_CONS, the completion
message with its frame, and the false-wake timer that every command stops (R481). -/
def State.lessReply (t s : State) : State :=
  let u := t.lessEvents s
  { u with hif := { u.hif with cmdCons := s.hif.cmdCons },
           pwr := { u.pwr with idleTimer := s.pwr.idleTimer, falsePending := s.pwr.falsePending },
           hfp := { u.hfp with out := s.hfp.out }, fab := { u.fab with rx := s.fab.rx, nextFrame := s.fab.nextFrame } }

/-- The command has completed with a status and RESULT: CMD_CONS has advanced over a local one, and the CMD_DONE record has
been raised when EVT = 1 or the command came by HFP (R376, R384, R386). -/
def Completes (src : CmdSrc) (d : Desc) (status result : Nat) (s t : State) : Prop :=
  (src = .localRing → s.cmdRuns = true → t.hif.cmdCons = s.hif.cmdCons + 1) ∧
    (src.remote = true ∨ descBits d 1 1 = 1 → Emits 0x0001 0 (cmdDoneBody src d status result) s t)

/-- The command runs on: it is the running one, HIF_STATUS shows it, and nothing is written back yet (R377). -/
def RunsOn (src : CmdSrc) (d : Desc) (kind : LongKind) (s t : State) : Prop :=
  t.hif.running = some ⟨src, d, kind, false⟩ ∧ t.on HIF_STATUS_CMD_RUNNING = true ∧ t.get HIF_STATUS_CMD_OPCODE = descOp d ∧
    t.hif.cmdCons = s.hif.cmdCons

/-! ### Messages of the bridge (R331–R334) -/

/-- `t` with what the messages that it sends change put back as it is in `s`: registers (their counters among them), the list
of messages, and the frames that carry them into the switch. -/
def State.lessSends (t s : State) : State :=
  { t with regs := s.regs, hfp := { t.hfp with out := s.hfp.out }, fab := { t.fab with rx := s.fab.rx, nextFrame := s.fab.nextFrame } }

/-- Exactly these messages have been sent since `s`: type, destination, tag and body of each, in order. -/
def Sends (l : List (Nat × Nat × Nat × List Byte)) (s t : State) : Prop :=
  s.hfp.out <+: t.hfp.out ∧
    (t.hfp.out.drop s.hfp.out.length).map (fun e => (e.2.typ.toNat, e.2.dst.toNat, e.2.tag.toNat, e.2.body)) = l

/-- The peer that a fabric address names (R8). -/
def State.peerOf (s : State) (addr : Nat) : Option Nat :=
  match s.addrKind addr with
  | .peer p => some p
  | _ => none

/-- The set-up bus is free: no locked sequence holds it and no access waits for it (R346, R350). -/
abbrev State.busFree (s : State) : Prop := s.busHeld = false ∧ s.hfp.busWait = [] ∧ s.hfp.rxStall = []

/-- Nothing waits in the bridge: the bus is free, no access, lock request, request or command waits, no own sequence runs. -/
abbrev State.quietBridge (s : State) : Prop :=
  s.busFree ∧ s.hfp.lockOut = none ∧ s.hfp.lockCox = none ∧ s.hfp.waitReq = [] ∧ s.hfp.stalled = []

/-- The bridge keeps this message, which came in on a port (R332–R336). -/
abbrev State.keepsMsg (s : State) (port : Fin 64) (m : HfpMsg) : Prop := (s.hfpTurned port m).isNone = true

/-- The bridge sends a request: it is the newest outstanding one, with the next SEQ of its stream (R343, R344). -/
def Asked (a : HfpAsk) (s t : State) : Prop :=
  (t.hfp.reqs.map (·.ask)) = s.hfp.reqs.map (·.ask) ++ [a] ∧
    SMap.get t.hfp.txSeq 0 (4 * a.peer + a.cls) = (SMap.get s.hfp.txSeq 0 (4 * a.peer + a.cls) + 1) % 2 ^ 32

/-- A request to a peer goes out at once: the peer is reachable, the pair is not poisoned, nothing is ahead of it (R342–R345,
R354), and no injection point takes it. -/
abbrev State.maySend (s : State) (a : HfpAsk) : Prop :=
  bit (s.get HFP_REACH_PEERS) a.peer = true ∧ s.poisoned a.init a.peer = false ∧ s.mustWait a = false ∧
    s.injArmedFor 22 a.peer = false ∧ (s.routePort a.peer).isSome = true ∧ a.peer < 32

/-! ### Rings (R369–R373, R385) -/

/-- The device's and the host's index of a ring as last read: producer and consumer. -/
def Hif.indices (h : Hif) : Ring → Word × Word
  | .cmd => (h.cmdProd, h.cmdCons)
  | .evt => (h.evtProd, h.evtCons)
  | .tx q => (SMap.get h.txProd 0 q.val, SMap.get h.txCons 0 q.val)
  | .rx q => (SMap.get h.rxProd 0 q.val, SMap.get h.rxCons 0 q.val)

/-- The host's word of a ring in the doorbell page. -/
def State.bellOf (s : State) (r : Ring) : Word := s.bell (ringStatusOff r)

/-- How far the host's word of a ring stands from the device's index, modulo 2^32: what R370 compares with the ring's size. -/
def State.ringLead (s : State) (r : Ring) : Nat :=
  match r with
  | .evt => (s.hif.evtProd - s.bellOf r).toNat
  | _ => (s.bellOf r - (s.hif.indices r).2).toNat

/-- No running ring other than those of a list has an inconsistent index (R370). -/
def State.ringsAgree (s : State) (l : List Ring) : Bool :=
  allRings.all fun r => l.contains r || !s.ringRuns r || s.ringLead r ≤ ringSize (s.get (ringLog r))

/-- The host address of the TX descriptor at TX_CONS of a ring (R370, R372). -/
def State.txSlot (s : State) (q : Fin 16) : Nat :=
  s.get (HIF_TX_BASE_ADDR q.val) * 64 + 32 * ((SMap.get s.hif.txCons 0 q.val).toNat % ringSize (s.get (HIF_TX_CFG_LOG2_SIZE q.val)))

/-- The message address of an MSI-X vector (R385). -/
def State.vectorAddr (s : State) (v : Nat) : Nat := (s.msixWord v 0).toNat + 2 ^ 32 * (s.msixWord v 1).toNat

/-- The host memory beside its descriptor that the completion of a TX descriptor may write: TX_CONS in the status page and
the message of the ring's vector. -/
def State.txArea (s : State) (q : Fin 16) (a : Nat) : Bool :=
  within (s.get HIF_ST_BASE_ADDR * 4096 + 0x40 + 4 * q.val) 4 a || within (s.vectorAddr (s.get (HIF_TX_CFG_VEC q.val))) 4 a

/-- The writeback of octets 24–31 of a TX descriptor, TX_CONS, and nothing else of host memory (R373, R386). -/
def TxWritten (q : Fin 16) (status : Nat) (s t : State) : Prop :=
  SMap.get t.hif.txCons 0 q.val = SMap.get s.hif.txCons 0 q.val + 1 ∧
    (((List.range 8).all fun i => !s.txArea q ((s.txSlot q + 24 + i) % 2 ^ 64)) = true →
      t.hostBytes (s.txSlot q + 24) 8 = leBytes 8 (status + 256)) ∧
    ∀ a, within (s.txSlot q + 24) 8 a = false → s.txArea q a = false → t.hostByte a = s.hostByte a

/-- Every octet of host memory outside `n` octets from `base` keeps its value. -/
def HostBut (base n : Nat) (s t : State) : Prop := ∀ a, within base n a = false → t.hostByte a = s.hostByte a

/-- Host memory holds `l` at `base` where the device may write it (R364), and nothing else of it has changed. -/
def HostWrote (base : Nat) (l : List Byte) (s t : State) : Prop :=
  (s.dmaOn = true → t.hostBytes base l.length = l) ∧ HostBut base l.length s t

/-! ### Findings of the Cox pair (R397–R403) -/

/-- What COX_FAULT_INFO shows after a finding with this code (R397). -/
def Captured (code : Nat) (s t : State) : Prop :=
  if s.on COX_FAULT_INFO_VALID then t.on COX_FAULT_INFO_OVERFLOW = true ∧ t.get COX_FAULT_INFO_CODE = s.get COX_FAULT_INFO_CODE
  else t.on COX_FAULT_INFO_VALID = true ∧ t.get COX_FAULT_INFO_CODE = code ∧ t.get COX_FAULT_INFO_SHORT0 = s.short 0

/-- A finding has started the safe reaction (R397–R402): its bit and its code are shown, the device is frozen, the cores and
their watchdogs are held in reset with the copies queued for them lost, the next start has code 10, and both banks stay. -/
def Reacts (code : Nat) (f : Fld) (s t : State) : Prop :=
  t.on f = true ∧ Captured code s t ∧ t.frozen = true ∧ t.cox.coresHeld = true ∧ t.cox.wdog = [] ∧
    t.cox.rxFrames = [] ∧ t.cox.seqRunning = true ∧ t.cox.startCode = 10 ∧ t.fab.active = s.fab.active ∧ t.fab.staged = s.fab.staged

/-! ### Key slots (R415) -/

/-- What slot `i`, of RRAM or of the staged bank, holds once the persistent writes asked for are done (R415, R501). -/
def State.slotSoon (s : State) (i : Nat) : Nat := if i < 8 then s.pwLast (.keySlot i) else s.slotTarget i

/-- No slot but slot `i` changes, now or by a write asked for (R415). -/
def SlotsBut (i : Nat) (s t : State) : Prop :=
  ((List.range 256).all fun k => k == i || (t.slotSoon k == s.slotSoon k && t.slotTarget k == s.slotTarget k)) = true ∧ t.fab.active = s.fab.active

/-- The key command writes slot `i` with `e`, a slot of RRAM by a persistent write, and no other slot, no register but those of the
command and the busy flags, and no host memory (R415, R422, R423, R501); its completion follows. -/
def SlotWritten (src : CmdSrc) (d : Desc) (i e : Nat) (s t : State) : Prop :=
  t.slotSoon i = e ∧ (8 ≤ i → t.slotTarget i = e) ∧ SlotsBut i s t ∧ RunsOn src d (.plain 0 0) s t ∧
    RegsBut [GLB_STAGED, HIF_STATUS, LOG_STATUS, OPT_STATUS] s t ∧ HostKept s t

/-- The key command ends with a status and RESULT 0 at its completion, and changes no slot (R422–R425). -/
def SlotsKept (src : CmdSrc) (d : Desc) (status : Nat) (s t : State) : Prop :=
  SlotsBut 256 s t ∧ RunsOn src d (.plain status 0) s t ∧ RegsBut [HIF_STATUS] s t ∧ HostKept s t

/-! ### Firmware update and resets (R449, R484) -/

/-- No flash block but those of a list changes (R447). -/
def FlashBut (l : List Nat) (s t : State) : Prop := ∀ b, b ∉ l → SMap.find t.upd.flash b = SMap.find s.upd.flash b

/-- The update state becomes `st`: where it changes, its persistent write is under way (R449, R501). -/
def UpdEnters (st : Nat) (s t : State) : Prop :=
  t.updLive = st ∧ (s.updLive ≠ st → (t.rst.pw.any fun w => w.tgt == .updState && w.val % 16 == st) = true)

/-- The registers that a change of the update state may touch beside those of its record: the update block, the logbook block
with its wear counters, and OPT_STATUS. -/
def updateRegs : List (Nat × Nat) := [block 0x13, block 2, (OPT_STATUS, OPT_STATUS + 4)]

/-- The device has been reset with a cause (R484, R485): what no reset keeps has its reset value, the cause is recorded, the
rings, the bridge and the fabric are empty and the cores are held for a start with that code; flash with its journal, the slots of
RRAM and the lifecycle stay. -/
def WasReset (cause : Nat) (s t : State) : Prop :=
  t.get RST_CAUSE_CAUSE = cause ∧ t.cox.coresHeld = true ∧ t.cox.startCode = cause ∧ t.frozen = false ∧ t.commitState = 0 ∧
    t.hif.cmdProd = 0 ∧ t.hif.cmdCons = 0 ∧ t.hif.running = none ∧ t.fab.active = resetBank ∧ t.fab.staged = resetBank ∧ t.fab.rx = [] ∧
    t.fab.handles = [] ∧ t.hfp.adj = [] ∧ t.hfp.reqs = [] ∧ (t.rd HIF_CTRL) = resetWord HIF_CTRL ∧ t.key.slots = s.key.slots ∧
    t.upd.flash = s.upd.flash ∧ t.get COX_LIFECYCLE_STATE = s.get COX_LIFECYCLE_STATE

/-! ### Sleep and wake (R470–R480) -/

/-- A wake from Sleep has begun (R475, R477, R478): STATE 5, the source recorded, the wake counted, INH_OUT high, the cores held
for a start with code 9, GLB_FAULT at its reset value. -/
def Wakes (source : Nat) (s t : State) : Prop :=
  t.power = 5 ∧ t.get WAK_SOURCE_SOURCE = source ∧ t.get WAK_SOURCE_FALSE = 0 ∧
    t.get WAK_COUNT_WAKES = (s.get WAK_COUNT_WAKES + 1) % 2 ^ WAK_COUNT_WAKES.w ∧ t.pwr.inhHigh = true ∧ t.cox.coresHeld = true ∧
    t.cox.startCode = 9 ∧ t.rd GLB_FAULT = resetWord GLB_FAULT ∧ HostKept s t

/-- Sleep entry is aborted with a cause (R472): the state that it came from is back, nothing is awaited or latched, and
POWER_STATE and SLEEP_ABORTED are raised. -/
def Aborts (cause detail : Nat) (s t : State) : Prop :=
  t.power = s.pwr.entryFrom ∧ t.pwr.waitAck = [] ∧ t.pwr.latched = false ∧ Emits 0x0B00 0 (args s.pwr.entryFrom 3) s t ∧
    Emits 0x0B02 0 (args cause detail) s t

/-- Sleep entry has begun (R470): STATE 3, the state that it came from kept, the acknowledgements of the coordinated ports
awaited, and POWER_STATE raised. -/
def EntersSleep (s t : State) : Prop :=
  t.power = 3 ∧ t.pwr.entryFrom = s.power ∧ t.pwr.waitAck = (s.coordinated (2 ^ 15 - 1)).filter (· < 32) ∧ t.pwr.latched = false ∧
    t.pwr.idleTimer = false ∧ Emits 0x0B00 0 (args 3 s.power) s t

/-! ### Access errors (R530) -/

/-- GLB_ACCESS_ERR has recorded one access (R530): COUNT rises by 1 and stays at its maximum; the first one captured shows its
cause, its initiator, its address and its direction; a later one sets OVERFLOW and leaves them. -/
def Recorded (who : Initiator) (isWrite : Bool) (a cause : Nat) (s t : State) : Prop :=
  t.get GLB_ACCESS_ERR_COUNT = min (s.get GLB_ACCESS_ERR_COUNT + 1) (2 ^ GLB_ACCESS_ERR_COUNT.w - 1) ∧ t.on GLB_ACCESS_ERR_VALID = true ∧
    if s.on GLB_ACCESS_ERR_VALID then
      t.on GLB_ACCESS_ERR_OVERFLOW = true ∧ t.get GLB_ACCESS_ERR_CAUSE = s.get GLB_ACCESS_ERR_CAUSE ∧ t.rd GLB_ACCESS_ADDR = s.rd GLB_ACCESS_ADDR
    else
      t.get GLB_ACCESS_ERR_CAUSE = cause ∧ t.get GLB_ACCESS_ERR_INITIATOR = who.code % 8 ∧ t.get GLB_ACCESS_ADDR_ADDR = a % 2 ^ 26 ∧
        t.on GLB_ACCESS_ADDR_WRITE = isWrite

/-! ### Reserved fields of descriptors (R12, R376) -/

/-- Octets `[a, b)` of a descriptor as a range of bits: the first bit and their number. -/
def octets (a b : Nat) : Nat × Nat := (8 * a, 8 * (b - a))

/-- The reserved fields of the common header (R376). -/
def headerReserved : List (Nat × Nat) := [(9, 7), octets 4 8, (73, 7), octets 10 12]

/-- The descriptor of a command of the configuration, of forwarding, the recorder or the Umpire, with the reserved fields of
its arguments (R43, R46, R143, R144, R163, R187, R255). -/
def tableReserved : Instr → Option (CmdSrc × Desc × List (Nat × Nat))
  | .stage src d => some (src, d, [octets 18 20, octets 28 32, octets 44 64])
  | .commit src d => some (src, d, [(164, 28), octets 30 32, octets 38 64])
  | .commitAbort src d => some (src, d, [octets 16 64])
  | .heatReport src d => some (src, d, [octets 25 28, octets 32 64])
  | .fdbFlush src d => some (src, d, [(137, 7), (156, 4), octets 20 64])
  | .fdbDump src d => some (src, d, [octets 32 64])
  | .recFreeze src d => some (src, d, [octets 17 64])
  | .recRearm src d => some (src, d, [octets 16 64])
  | .recRead src d => some (src, d, [octets 32 64])
  | .pinholeFlush src d => some (src, d, [(140, 4), octets 18 64])
  | .pinholeDump src d => some (src, d, [octets 32 64])
  | _ => none

/-- The reserved bits of the operations of a LOCKED_SEQ (R349). -/
def lockReserved (d : Desc) : List (Nat × Nat) :=
  (List.range 4).flatMap fun k => [(8 * (32 + 8 * k) + 27, 1), (8 * (32 + 8 * k) + 30, 2)]

/-- The same of the commands of time, the bridge and the keys (R286, R348, R349, R355, R423). -/
def unitReserved : Instr → Option (CmdSrc × Desc × List (Nat × Nat))
  | .reanchor src d => some (src, d, [(130, 6), (137, 7), octets 18 24, octets 32 64])
  | .remoteCmd src d => some (src, d, [(133, 3), (137, 7), octets 18 24, octets 34 64])
  | .lockedSeq src d false => some (src, d, [(133, 3), octets 18 24] ++ lockReserved d)
  | .clearPoison src d => some (src, d, [octets 18 64])
  | .keyGenerate src d => some (src, d, [octets 24 64])
  | .keyWrap src d _ => some (src, d, [octets 19 24, octets 32 64])
  | .keyUnwrap src d _ => some (src, d, [octets 36 64])
  | .keyDerive src d _ => some (src, d, [octets 36 64])
  | .keyDestroy src d => some (src, d, [octets 17 64])
  | .attest src d => some (src, d, [octets 56 64])
  | .random src d => some (src, d, [octets 28 64])
  | _ => none

/-- The same of the commands of updates, power, resets, the logbook and Cox (R404, R408, R453–R455, R458, R464, R491, R504). -/
def systemReserved : Instr → Option (CmdSrc × Desc × List (Nat × Nat))
  | .nop src d => some (src, d, [octets 16 64])
  | .updLoad src d => some (src, d, [(257, 7), octets 33 64])
  | .updVerify src d => some (src, d, [(161, 31), octets 24 64])
  | .updActivate src d => some (src, d, [octets 16 20, (162, 30), octets 30 32, octets 38 64])
  | .updAbort src d => some (src, d, [octets 16 64])
  | .powerState src d => some (src, d, [octets 17 64])
  | .deviceReset src d => some (src, d, [(153, 7), octets 24 64])
  | .logWrite src d => some (src, d, [octets 18 20, octets 28 64])
  | .coxMode src d => some (src, d, [(129, 7), octets 17 64])
  | .lifecycle src d => some (src, d, [octets 17 24, octets 32 64])
  | .ownerLock src d => some (src, d, [octets 17 24, octets 32 64])
  | _ => none

/-- The source, the descriptor and every reserved field of a command with a descriptor. -/
def commandRow (c : Instr) : Option (CmdSrc × Desc × List (Nat × Nat)) :=
  ((tableReserved c).or ((unitReserved c).or (systemReserved c))).map fun x => (x.1, x.2.1, headerReserved ++ x.2.2)

/-- A reserved field of a descriptor is not 0. -/
def reservedSet (d : Desc) (l : List (Nat × Nat)) : Bool := l.any fun f => bits d.toNat f.1 f.2 != 0

/-- A command that only the local ring may give (R348): by HFP it has no such opcode. -/
def localOnly : Instr → Bool
  | .remoteCmd _ _ => true
  | .lockedSeq _ _ false => true
  | _ => false

/-- The state with the errors of the slot memory that a key command carries as its operand (R439, log 82). -/
def State.struck (s : State) : Instr → State
  | .keyWrap _ _ u | .keyUnwrap _ _ u | .keyDerive _ _ u => s.each u fun t x => t.slotUpset x
  | _ => s

/-- Nothing else is under way that the end of a command row sets going: no running command, no own locked sequence, no switch of
the power state, no reset asked for. -/
abbrev State.calm (s : State) : Prop :=
  s.hif.running = none ∧ s.hfp.lockOut = none ∧ s.pwr.goal = none ∧ s.rst.asked = false

/-! ### When a register access is taken -/

/-- The map defines a register at local address `a` that applies to its port, its island answers, and no field refuses the
bits of `v` (R10, R11, R21, R31, R36, R38, R95, R529). -/
def State.writeMeets (s : State) (who : Initiator) (a : Nat) (v : Word) : Bool :=
  match regAt a with
  | none => false
  | some (d, is, w) =>
    s.up d.island (is.headD 0) && s.applies d.reg (is.headD 0) &&
      (s.takeWrite who d (is.headD 0) (is.getD 1 0) w (s.rd (a / 4 * 4)).toNat v.toNat).faults.isEmpty

/-- A write of `v` to local address `a` by `who`, no configuration TLP, meets no fault: the function takes requests of the host (R364), the
bus is free, the map defines a register there that applies to its port, its island answers, and no field refuses its bits (R10, R11, R21,
R31, R36, R38, R95, R529). -/
abbrev State.takesWrite (s : State) (who : Initiator) (a : Nat) (v : Word) : Prop :=
  who ≠ .cfg ∧ s.hostTurned who = false ∧ s.busFree ∧ msixAt a = none ∧ s.writeMeets who a v = true

/-- The value that an accepted write of `v` leaves in word `w` of a register that held `old`: RW and RWL bits take the
written ones, a 1 clears a W1C bit, every other bit keeps its value (R10). -/
def storedValue (d : RegDef) (w old v : Nat) : Nat :=
  (v &&& accMask d w [.rw, .rwl]) |||
    (old &&& (whole - accMask d w [.rw, .rwl]) &&& (whole - (v &&& accMask d w [.w1c])))

/-- A register whose write only stores its bits: no effect of its own follows (`State.regHook`). -/
def quietReg (r : Reg) : Bool :=
  !([Reg.GLB_ACCESS_ERR, .GLB_FAULT, .PRT_MODE, .PRT_DIAG, .PRT_MDIO_CMD, .PRT_CNT_CLEAR, .FST_CTRL, .FST_ERR_LOC, .FST_CNT_CLEAR,
     .FWD_AGE, .FWD_CNT_CLEAR, .REC_DRAM_CFG, .REC_ERR_LOC, .REC_CTRL, .REC_CNT_CLEAR, .UMP_IMG, .UMP_CNT_CLEAR, .LNE_CNT_CLEAR,
     .GTE_HOLD, .GTE_CNT_CLEAR, .HEAT_CNT_CLEAR, .TIM_DOM_CFG, .TIM_INCR, .TIM_SLEW, .TIM_STEP, .TIM_SET_NS, .TIM_SERVO_CTRL,
     .TIM_SNAP_CTRL, .TIM_CATCH_CFG, .TIM_BUOY_POP, .TIM_CNT_CLEAR].contains r
    || [Reg.EDG_CAN_CTRL, .EDG_LIN_CTRL, .EDG_CNT_CLEAR, .RIG_CFG, .RIG_ERR_LOC, .RIG_IMG, .RIG_CNT_CLEAR, .HFP_CFG, .HFP_PORTS,
        .HFP_ADJ, .HFP_CNT_CLEAR, .HIF_CTRL, .HIF_KICK, .HIF_CMD_CFG, .HIF_EVT_CFG, .HIF_TX_CFG, .HIF_RX_CFG, .HIF_RWIN,
        .HIF_CNT_CLEAR, .COX_CTRL, .COX_FAULT_INFO, .INJ_CTRL, .INJ_ARM, .KEY_IMG, .KEY_CNT_CLEAR, .UPD_HEALTH, .PWR_CTRL, .PWR_CFG,
        .PWR_ACTIVE, .PWR_FEATHER, .RST_START, .OPT_PROG, .LOG_WORD].contains r)

/-- A register that reads as it is held: nothing is computed or latched at the read. -/
def plainRead (r : Reg) : Bool :=
  !([Reg.GLB_UID, .TIM_NOW_NS, .TIM_SHORT, .FST_QQUOTA, .FST_QUSED, .FST_QPEAK, .FST_POOL_LOW, .FST_HANDLE_LOW, .HEAT_BOUND,
     .HEAT_BOUND_CHG, .KEY_SLOT_INFO, .KEY_SLOT_LABEL, .PRT_LINK_STATUS, .RST_START, .UPD_COND].contains r || latches r)

/-- The registers and the host memory are held in canonical form, each word that is listed differing from its reset value
and each octet from 0. -/
def State.canonical (s : State) : Prop := SMap.wf resetWord s.regs = true ∧ SMap.wf (fun _ => (0 : Byte)) s.hostMem = true

end Sys2Proof.Machine
end

