-- ==== Sys2Proof/Certificates/Slice0/Obligations.lean ====
section
/-! DEFINITION. The obligations of the model: the statements about the block that the provers prove. -/
open Sys2Proof Sys2Proof.Machine

/-- A step runs exactly the command at the front of the queue, on the state with the rest of the queue (the block's own form of a step; log 1). -/
def Obligations.StepRunsTheFrontCommand : Prop :=
  ∀ (s : State) (c : Instr) (q : List Instr), s.pending = c :: q → step s = exec c { s with pending := q }

/-- With an empty queue one 2 ns tick passes: the model's choice (log 1). The reference counts 1 and the phase of AON's own oscillator rises (R27, R514, log 62); where the bridge waits for no time, no handle error is to be reported and no frame is held, nothing else but the time domains changes. -/
def Obligations.StepTicksWhenIdle : Prop :=
  ∀ s : State, s.pending = [] →
    ∃ t, step s = .next t ∧ t.refTicks = s.refTicks + 1 ∧ t.pending = [] ∧
      t.pwr.aon = s.pwr.aon + aonPhase s.pwr.xtalFailed s.refTicks ∧
      (s.hfp.backEnd = [] → s.busQueue = [] → s.fab.parityDue = [] → (s.fab.rx.all fun e => e.2.heldBy.isNone) = true →
        HostKept s t ∧ RegsBut ((List.range 4).flatMap fun d => [TIM_SLEW_LEFT d, TIM_DOM_STATUS d]) s t ∧
        { t with regs := s.regs, refTicks := s.refTicks, tim := s.tim, pwr := { t.pwr with aon := s.pwr.aon } } = s)

/-- No command touches the queue of commands that wait outside the block. -/
def Obligations.ExecKeepsTheQueue : Prop :=
  ∀ (c : Instr) (s t : State), exec c s = .next t → t.pending = s.pending

/-- No command stops the block: faulty accesses are recorded and the block goes on (R11, R31, R36), and a fault stops no forwarding (R57). -/
def Obligations.ExecNeverStops : Prop :=
  ∀ (c : Instr) (s : State), ∃ t, exec c s = .next t

/-- State.reset meets the invariant of every step: registers and host memory in canonical form (log 14 for host memory), an empty queue. -/
def Obligations.ResetIsCanonical : Prop :=
  State.reset.canonical ∧ State.reset.pending = []

/-- The invariant of the model: with strictly rising addresses, and no word listed that holds its reset value and no octet that is 0, equal contents are equal data; every step keeps it, whatever the command. -/
def Obligations.StepKeepsCanonical : Prop :=
  ∀ s t : State, s.canonical → step s = .next t → t.canonical

/-- R10, R38, R56, R94: the six rows of the set-up space on an access that meets no fault. Every other register, and host memory, keeps its value. -/
def Obligations.SetupAccesses : Prop :=
  (∀ (s : State) (who : Initiator) (addr : Word) (data : Word),
      addr.toNat < 2 ^ 26 →
      (∀ x : RegDef × List Nat × Nat, regAt addr.toNat = some x →
      quietReg x.1.reg = true →
      s.takesWrite who addr.toNat data →
      ∃ t, exec (.registerWrite who addr data) s = .next t ∧
        ((t.rd (addr.toNat / 4 * 4)).toNat = storedValue x.1 x.2.2 (s.rd (addr.toNat / 4 * 4)).toNat data.toNat ∧
         RegsBut [addr.toNat / 4 * 4] s t ∧ { t with regs := s.regs, pins := { t.pins with faultHold := s.pins.faultHold } } = s))) ∧
  (∀ (s : State) (who : Initiator) (addr : Word),
      who ≠ .cfg →
      s.hostTurned who = false →
      addr.toNat < 2 ^ 26 →
      s.busFree →
      msixAt addr.toNat = none →
      (∀ x : RegDef × List Nat × Nat, regAt addr.toNat = some x →
      plainRead x.1.reg = true →
      s.up x.1.island (x.2.1.headD 0) = true →
      s.applies x.1.reg (x.2.1.headD 0) = true →
      ∃ t, exec (.rcRead who addr) s = .next t ∧
        (t.readData = s.rd (addr.toNat / 4 * 4) &&& ~~~(BitVec.ofNat 32 (accMask x.1 x.2.2 [.wo])) ∧
         t.rd (addr.toNat / 4 * 4) =
           (s.rd (addr.toNat / 4 * 4) &&& ~~~(BitVec.ofNat 32 (accMask x.1 x.2.2 [.rc]))) |||
             (resetWord (addr.toNat / 4 * 4) &&& BitVec.ofNat 32 (accMask x.1 x.2.2 [.rc])) ∧
         RegsBut [addr.toNat / 4 * 4] s t ∧ { t with regs := s.regs, readData := s.readData } = s))) ∧
  (∀ (s : State) (who : Initiator) (addr : Word),
      who ≠ .cfg →
      s.hostTurned who = false →
      addr.toNat < 2 ^ 26 →
      s.busFree →
      msixAt addr.toNat = none →
      (∀ x : RegDef × List Nat × Nat, regAt addr.toNat = some x →
      latches x.1.reg = true →
      x.2.2 = 0 →
      s.up x.1.island (x.2.1.headD 0) = true →
      s.applies x.1.reg (x.2.1.headD 0) = true →
      ∃ t, exec (.counterLowRead who addr) s = .next t ∧
        (t.readData = s.rd (addr.toNat / 4 * 4) ∧
         SMap.find t.latch (addr.toNat / 4 * 4 + 4) = some (s.rd (addr.toNat / 4 * 4 + 4)) ∧
         { t with latch := s.latch, readData := s.readData } = s))) ∧
  (∀ (s : State) (who : Initiator) (blk : CntBlock),
      s.takesWrite who (clearReg blk) 1 →
      ∃ t, exec (.cntClear who blk) s = .next t ∧
        (RegsCleared (isCounter blk) s t ∧ { t with regs := s.regs, pins := { t.pins with faultHold := s.pins.faultHold } } = s)) ∧
  (∀ (s : State) (who : Initiator),
      s.takesWrite who GLB_LOCK 1 →
      ∃ t, exec (.setupLock who) s = .next t ∧
        (t.on GLB_LOCK_SETUP_LOCK = true ∧ RegsBut [GLB_LOCK] s t ∧ { t with regs := s.regs, pins := { t.pins with faultHold := s.pins.faultHold } } = s)) ∧
  (∀ (s : State) (addr : Word) (data : Word),
      s.up .host = true →
      addr.toNat / 4 = 0x24 →
      ∃ t, exec (.registerWrite .cfg addr data) s = .next t ∧
        (t.hif.pci.aspmL1 = bit data.toNat 1 ∧ { t with hif := { t.hif with pci := { t.hif.pci with aspmL1 := s.hif.pci.aspmL1 } } } = s)) ∧
  (∀ (s : State) (addr : Word),
      s.up .host = true →
      addr.toNat / 4 = 0 →
      ∃ t, exec (.rcRead .cfg addr) s = .next t ∧
        (t.readData.toNat = s.get GLB_ID_VENDOR + s.get GLB_ID_DEVICE * 2 ^ 16 ∧ { t with readData := s.readData } = s)) ∧
  (∀ (s : State) (addr : Word) (data : Word),
      s.up .host = true →
      s.hif.pci.memOn = false ∨ s.hif.pci.d3hot = true →
      addr.toNat < 2 ^ 26 →
      ∃ t, exec (.registerWrite .host addr data) s = .next t ∧
        (bit t.hif.pci.aerUncorr.toNat 20 = true ∧ t.regs = s.regs ∧ { t with hif := { t.hif with pci := { t.hif.pci with aerUncorr := s.hif.pci.aerUncorr } } } = s)) ∧
  (∀ (s : State) (addr : Word),
      s.up .host = true →
      s.hif.pci.memOn = false ∨ s.hif.pci.d3hot = true →
      addr.toNat < 2 ^ 26 →
      ∃ t, exec (.rcRead .host addr) s = .next t ∧
        (t.readData = 0xFFFFFFFF ∧ bit t.hif.pci.aerUncorr.toNat 20 = true ∧ t.regs = s.regs ∧
         { t with readData := s.readData, hif := { t.hif with pci := { t.hif.pci with aerUncorr := s.hif.pci.aerUncorr } } } = s)) ∧
  (∀ (s : State),
      ∃ t, exec .faultNHoldEnd s = .next t ∧
        (t.faultNLow = s.faultCause ∧ { t with pins := { t.pins with faultHold := s.pins.faultHold } } = s))

/-- R42–R53, R255: what each row of the configuration model does when no rule refuses it, with what it leaves unchanged. -/
def Obligations.StagingAndCommits : Prop :=
  (∀ (s : State) (src : CmdSrc) (d : Desc),
      s.takesCommand d [0, 1] true →
      s.stageOk src d = true →
      s.commitState = 0 →
      s.remoteMay src = true →
      s.classOff (2 ^ (stageArgs d).cls) = none →
      ((stageArgs d).op ≤ 1 → (stageArgs d).index + (stageArgs d).count ≤ classSize (stageArgs d).cls) →
      ((List.range (s.stageEntries src (stageArgs d)).length).any (fun k => (s.storedEntry (stageArgs d).cls ((stageArgs d).index + k) ((s.stageEntries src (stageArgs d)).getD k 0)).isNone)) = false →
      stageTooMuch (s.stagedBank (stageArgs d).cls (stageArgs d).op (stageArgs d).index (s.stageEntries src (stageArgs d))) (stageArgs d).cls = false →
      ∃ t, exec (.stage src d) s = .next t ∧
        (t.fab.staged = s.stagedBank (stageArgs d).cls (stageArgs d).op (stageArgs d).index (s.stageEntries src (stageArgs d)) ∧
         t.fab.active = s.fab.active ∧ Completes src d 0 0 s t ∧
         RegsButE ([GLB_STAGED, RIG_LOAD, RIG_BURST] ++ replyRegs) s t ∧ HostKeptR 0 0 s t ∧
         { t.lessReply s with fab := { (t.lessReply s).fab with staged := s.fab.staged } } = s)) ∧
  (∀ (s : State) (src : CmdSrc) (d : Desc),
      s.takesCommand d [0, 1] true →
      s.commitOk d = true →
      s.commitRefused src (commitArgs d) = none →
      ((commitArgs d).fabric = true → s.fabTooLate (commitArgs d).at_ = false) →
      ∃ t, exec (.commit src d) s = .next t ∧
        (t.commitState = 1 ∧ t.get GLB_CFG_STATE_COMMIT_ID = (commitArgs d).id ∧
         t.fab.job = some (s.commitJob (commitArgs d)) ∧ t.fab.active = s.fab.active ∧ t.fab.staged = s.fab.staged ∧
         RunsOn src d (if (commitArgs d).fabric then .fabricCommit else .commit) s t ∧ HostKept s t ∧
         RegsBut ([GLB_CFG_STATE, HIF_STATUS, HFP_COMMIT_STATUS] ++ replyRegs) s t)) ∧
  (∀ (s : State) (us : Word),
      (∀ j : CommitJob, s.fab.job = some j →
      s.commitState = 1 →
      j.heated = false →
      s.hfp.fabMember = none →
      s.hfp.fabInit = none →
      heatPassed (s.runHeat (s.candidate j.mask)) = false →
      ∃ t, exec (.heatDone us) s = .next t ∧
        (t.commitState = 0 ∧ t.fab.job = none ∧ t.fab.lastHeat = s.runHeat (s.candidate j.mask) ∧
         t.get HEAT_STATUS_RESULT = (if j.dryRun then 4 else 2) ∧ t.get HEAT_RUN_TIME_TIME = us.toNat % 2 ^ HEAT_RUN_TIME_TIME.w ∧
         t.fab.active = s.fab.active ∧ t.fab.staged = s.fab.staged ∧ t.hif.running = (if j.own then s.hif.running else none) ∧
         RegsButE ([GLB_CFG_STATE, HEAT_STATUS, HEAT_RUN_ID, HEAT_RUN_TIME, HIF_STATUS] ++ replyRegs) s t ∧ HostKeptR 0 0 s t))) ∧
  (∀ (s : State) (us : Word),
      (∀ j : CommitJob, s.fab.job = some j →
      s.commitState = 1 →
      j.heated = false →
      j.dryRun = false →
      j.timed = true →
      j.upd = false →
      s.hfp.fabMember = none →
      s.hfp.fabInit = none →
      heatPassed (s.runHeat (s.candidate j.mask)) = true →
      s.domNs 0 + 10 ^ 5 ≤ j.at_ →
      ∃ t, exec (.heatDone us) s = .next t ∧
        (t.commitState = 2 ∧ t.get GLB_COMMIT_SEC_SEC = j.at_ / 10 ^ 9 % 2 ^ 48 ∧ t.get GLB_COMMIT_NS_NS = j.at_ % 10 ^ 9 ∧
         t.get HEAT_STATUS_RESULT = 1 ∧ t.fab.active = s.fab.active ∧ t.fab.staged = s.fab.staged ∧ t.hif.running = none ∧
         RegsButE ([GLB_CFG_STATE, GLB_COMMIT_SEC, GLB_COMMIT_SEC + 4, GLB_COMMIT_NS, HEAT_STATUS, HEAT_RUN_ID, HEAT_RUN_TIME, HIF_STATUS] ++ replyRegs) s t ∧
         HostKeptR 0 0 s t))) ∧
  (∀ (s : State) (us : Word),
      (∀ j : CommitJob, s.fab.job = some j →
      s.commitState = 1 →
      j.heated = false →
      j.dryRun = false →
      j.timed = false →
      j.upd = false →
      s.hfp.fabMember = none →
      s.hfp.fabInit = none →
      heatPassed (s.runHeat (s.candidate j.mask)) = true →
      ∃ t, exec (.heatDone us) s = .next t ∧
        (t.fab.active = s.candidate j.mask ∧ t.fab.heat = s.runHeat (s.candidate j.mask) ∧
         t.get GLB_CFG_STATE_EPOCH = 1 - s.get GLB_CFG_STATE_EPOCH ∧ (t.commitState = 3 ∨ t.commitState = 0)))) ∧
  (∀ (s : State) (src : CmdSrc) (d : Desc),
      s.takesCommand d [0, 1] false →
      descZero d 16 64 = true →
      (∀ j : CommitJob, s.fab.job = some j →
      s.commitState = 2 →
      j.upd = false →
      s.domNs 0 < j.at_ →
      ∃ t, exec (.commitAbort src d) s = .next t ∧
        (t.commitState = 0 ∧ t.fab.job = none ∧ t.fab.active = s.fab.active ∧ t.fab.staged = s.fab.staged ∧ t.fab.old = s.fab.old ∧
         Completes src d 0 0 s t ∧ RegsButE ([GLB_CFG_STATE, HFP_COMMIT_STATUS] ++ replyRegs) s t ∧ HostKeptR 0 0 s t))) ∧
  (∀ (s : State),
      (∀ j : CommitJob, s.fab.job = some j →
      s.commitState = 2 →
      j.upd = false →
      s.domNs 0 ≥ j.at_ →
      ∃ t, exec .swap s = .next t ∧
        (t.fab.active = s.candidate j.mask ∧ t.fab.heat = j.heat ∧
         t.get GLB_CFG_STATE_EPOCH = 1 - s.get GLB_CFG_STATE_EPOCH ∧ (t.commitState = 3 ∨ t.commitState = 0)))) ∧
  (∀ (s : State),
      (∀ j : CommitJob, s.fab.job = some j →
      s.commitState = 3 →
      s.drained = true →
      ∃ t, exec .drainEnd s = .next t ∧
        (t.commitState = 0 ∧ t.fab.job = none ∧ t.fab.old = [] ∧ t.fab.active = s.fab.active ∧
         t.fab.staged = ((List.range 17).filter fun c => bit j.mask c).foldl (fun b c => copyClass s.fab.active b c) s.fab.staged ∧
         Emits 0x0003 0 (args j.id (s.get GLB_CFG_STATE_EPOCH + (if j.fabric then 2 else 0)) (s.get HFP_FCG_GEN)) s t))) ∧
  (∀ (s : State) (src : CmdSrc) (d : Desc),
      s.takesCommand d [0, 1] false →
      src = .localRing →
      descBits d 16 64 % 64 = 0 →
      descBits d 24 8 ≤ 1 →
      descZero d 25 28 = true →
      1 ≤ descBits d 28 32 →
      descBits d 28 32 ≤ 67584 →
      descZero d 32 64 = true →
      s.get HEAT_STATUS_RESULT ≠ 0 →
      ∃ t, exec (.heatReport src d) s = .next t ∧
        (Wrote (descBits d 16 64) (s.heatReport (descBits d 24 8 == 1) (descBits d 28 32)) s t ∧ Completes src d 0 0 s t ∧
         RegsButE replyRegs s t ∧ HostKeptR (descBits d 16 64) (s.heatReport (descBits d 24 8 == 1) (descBits d 28 32)).length s t ∧
         t.lessReply s = s))

/-- R60, R72, R74, R87, R90: the register rows of an external port on an accepted write. -/
def Obligations.PortRegistersAct : Prop :=
  (∀ (s : State) (who : Initiator) (n : Fin 64) (value : Word),
      s.takesWrite who (PRT_MODE n.val) (withBit value 0) →
      ∃ t, exec (.portEnable who n value) s = .next t ∧
        (t.on (PRT_MODE_ENABLE n.val) = true ∧
         (s.on (PRT_MODE_ENABLE n.val) = false → s.link n.val = 0 → s.up .port n.val = true →
           t.link n.val = if bits value.toNat 16 2 = 1 then 4 else 1) ∧
         RegsOutE [portRegs n.val, block 10, block 5, block 6, block 16] s t ∧ HostKeptE 2 s t)) ∧
  (∀ (s : State) (who : Initiator) (n : Fin 64) (value : Word),
      s.takesWrite who (PRT_MODE n.val) (noBit value 0) →
      ∃ t, exec (.portDisable who n value) s = .next t ∧
        (t.on (PRT_MODE_ENABLE n.val) = false ∧
         (s.up .port n.val = true →
           t.link n.val = 0 ∧ t.on (PRT_RESUME_INFO_VALID n.val) = false ∧ t.lanesEmpty n.val = true ∧
           (t.fab.learned.all fun e => e.2.port != n.val) = true ∧ SMap.get t.pins.mdiReleased false n.val = false) ∧
         RegsOutE [portRegs n.val, block 5, block 6, block 10, block 16] s t ∧ HostKeptE 2 s t)) ∧
  (∀ (s : State) (who : Initiator) (n : Fin 64) (value : Word),
      s.takesWrite who (PRT_MODE n.val) value →
      s.on (PRT_MODE_ENABLE n.val) = true →
      bit value.toNat 0 = true →
      s.get (PRT_MODE_LOOPBACK n.val) ≠ bits value.toNat 16 2 →
      s.up .port n.val = true →
      ∃ t, exec (.loopbackChange who n value) s = .next t ∧
        (t.get (PRT_MODE_LOOPBACK n.val) = bits value.toNat 16 2 ∧ t.link n.val = (if bits value.toNat 16 2 = 1 then 4 else 1) ∧
         t.lanesEmpty n.val = true ∧ RegsOutE [portRegs n.val, block 5, block 6, block 10, block 16] s t ∧ HostKeptE 2 s t)) ∧
  (∀ (s : State) (who : Initiator) (n : Fin 64),
      s.takesWrite who (PRT_DIAG n.val) 1 →
      ∃ t, exec (.diagStart who n) s = .next t ∧
        ((if s.link n.val = 0 ∨ s.link n.val = 1 then t.link n.val = 7 ∧ t.get (PRT_DIAG_STATUS n.val) = 1
           else t.link n.val = s.link n.val ∧ t.get (PRT_DIAG_STATUS n.val) = 3) ∧
         RegsBut [PRT_DIAG n.val, PRT_LINK_STATUS n.val] s t ∧ HostKept s t)) ∧
  (∀ (s : State) (who : Initiator) (n : Fin 64) (value : Word),
      s.takesWrite who (PRT_MDIO_CMD n.val) (withBit value 31) →
      ∃ t, exec (.mdioStart who n value) s = .next t ∧
        (t.on (PRT_MDIO_STATUS_BUSY n.val) = true ∧
         (if (SMap.find s.mdioBus (n.val / 4)).isNone then
             SMap.find t.mdioBus (n.val / 4) = some ⟨n.val, t.get (PRT_MDIO_CMD_OP n.val), t.get (PRT_MDIO_CMD_PRTAD n.val), t.get (PRT_MDIO_CMD_DEVAD n.val), t.get (PRT_MDIO_CMD_DATA n.val)⟩ ∧ t.mdioOut = s.mdioOut ++ [⟨n.val, t.get (PRT_MDIO_CMD_OP n.val), t.get (PRT_MDIO_CMD_PRTAD n.val), t.get (PRT_MDIO_CMD_DEVAD n.val), t.get (PRT_MDIO_CMD_DATA n.val)⟩]
           else t.mdioQueue = s.mdioQueue ++ [⟨n.val, t.get (PRT_MDIO_CMD_OP n.val), t.get (PRT_MDIO_CMD_PRTAD n.val), t.get (PRT_MDIO_CMD_DEVAD n.val), t.get (PRT_MDIO_CMD_DATA n.val)⟩]) ∧
         RegsBut [PRT_MDIO_CMD n.val, PRT_MDIO_STATUS n.val] s t ∧ HostKept s t))

/-- R74, R80, R84–R86: the link rows of a port in the states in which their events occur. -/
def Obligations.LinkRows : Prop :=
  (∀ (s : State) (n : Fin 64) (crcOk : Bool) (partner : Bool),
      s.up .port n.val = true →
      (s.prtOf n.val).analog = true →
      s.link n.val = 0 ∨ s.link n.val = 6 →
      ∃ t, exec (.analogStartEnd n crcOk partner) s = .next t ∧
        ((t.link n.val = 3 ∨ t.link n.val = 2 ∨ t.link n.val = 1) ∧
         (s.on (PRT_RESUME_INFO_VALID n.val) = false → t.link n.val = 1 ∧ t.get (PRT_LINK_STATUS_FALLBACK n.val) = 1) ∧
         (t.link n.val = 3 → t.prtOf n.val = { s.prtOf n.val with analog := false, probed := false, linkOk := false, partner := partner } ∧ HostKept s t) ∧
         RegsOutE [portRegs n.val] s t ∧ HostKeptE 2 s t)) ∧
  (∀ (s : State) (n : Fin 64) (agreed : Bool),
      s.up .port n.val = true →
      s.link n.val = 1 →
      agreed = true →
      s.isT1 n.val = true →
      ∃ t, exec (.partnerSignal n agreed) s = .next t ∧
        (t.link n.val = 2 ∧ (t.prtOf n.val).partner = true ∧ RegsBut [PRT_LINK_STATUS n.val] s t ∧
         { t with regs := s.regs, prt := s.prt } = s)) ∧
  (∀ (s : State) (n : Fin 64) (res : LinkResult),
      s.up .port n.val = true →
      s.linkForced n.val = false →
      s.link n.val = 2 →
      (res.speedOk || isS n.val) = true →
      ∃ t, exec (.linkStatusOk n res) s = .next t ∧
        (t.link n.val = 4 ∧ t.get (PRT_LINK_STATUS_SPEED_ACTIVE n.val) = s.get (PRT_MODE_SPEED n.val) ∧
         t.get (PRT_LINK_STATUS_RESUMED n.val) = 0 ∧ t.on (PRT_LINK_EVENT_LINK_UP n.val) = true ∧ (t.prtOf n.val).rtd = res.rtd.toNat ∧
         Emits 0x0200 n.val (args (t.rd (PRT_LINK_STATUS n.val)).toNat) s t ∧ t.fab.learned = s.fab.learned ∧ t.fab.lanes = s.fab.lanes ∧
         RegsOutE [portRegs n.val, block 10] s t ∧ HostKeptE 2 s t)) ∧
  (∀ (s : State) (n : Fin 64) (partner : Bool),
      s.up .port n.val = true →
      s.link n.val = 4 →
      s.get (PRT_MODE_LOOPBACK n.val) ≠ 1 →
      s.get (PRT_LINK_CFG_LINK_HOLD n.val) ≠ 0 →
      ∃ t, exec (.linkStatusFail n partner) s = .next t ∧
        (t.link n.val = 5 ∧ t.get (PRT_LINK_STATUS_HOLD_LEFT n.val) = s.get (PRT_LINK_CFG_LINK_HOLD n.val) ∧
         t.get (PRT_LINK_DOWN_COUNT n.val) = min (s.get (PRT_LINK_DOWN_COUNT n.val) + 1) (2 ^ (PRT_LINK_DOWN_COUNT n.val).w - 1) ∧
         (t.prtOf n.val).holdEnd = s.refTicks + s.get (PRT_LINK_CFG_LINK_HOLD n.val) * 500000 ∧ t.fab.learned = s.fab.learned ∧
         Emits 0x0201 n.val (args (t.rd (PRT_LINK_STATUS n.val)).toNat) s t ∧
         RegsOutE [portRegs n.val, block 5, block 10, block 16] s t)) ∧
  (∀ (s : State) (n : Fin 64) (partner : Bool),
      s.up .port n.val = true →
      s.link n.val = 5 →
      ∃ t, exec (.holdExpiry n partner) s = .next t ∧
        (t.link n.val = (if s.isT1 n.val && partner then 2 else 1) ∧ t.lanesEmpty n.val = true ∧
         (t.fab.learned.all fun e => e.2.port != n.val) = true ∧ t.fab.active = s.fab.active ∧
         t.on (PRT_LINK_EVENT_HOLD_EXPIRED n.val) = true ∧ Emits 0x0202 n.val (args (t.rd (PRT_LINK_STATUS n.val)).toNat) s t ∧
         RegsOutE [portRegs n.val, block 5, block 6, block 10] s t ∧ HostKeptE 2 s t)) ∧
  (∀ (s : State) (n : Fin 64),
      s.up .port n.val = true →
      s.link n.val = 5 →
      ∃ t, exec (.holdRetrain n) s = .next t ∧
        (t.prtOf n.val = { s.prtOf n.val with freshCoeffs := true } ∧ { t with prt := s.prt } = s)) ∧
  (∀ (s : State) (n : Fin 64) (corr : Fin 257) (rtd : BitVec 16) (page : Bool) (partner : Bool),
      s.up .port n.val = true →
      s.link n.val = 3 →
      (s.prtOf n.val).probed = false →
      ∃ t, exec (.resumeProbeDone n corr rtd page partner) s = .next t ∧
        ((if rtd.toNat > s.get (PRT_RESUME_INFO_RTD n.val) + 5 ∨ s.get (PRT_RESUME_INFO_RTD n.val) > rtd.toNat + 5 ∨
               corr.val < s.get (PRT_LINK_CFG_CORR_MIN n.val) then
             t.get (PRT_LINK_STATUS_FALLBACK n.val) = 5 ∧ t.link n.val = (if partner then 2 else 1) ∧ t.on (PRT_RESUME_INFO_VALID n.val) = false
           else if s.on (PRT_MODE_AN_EN n.val) && !page then t.get (PRT_LINK_STATUS_FALLBACK n.val) = 6 ∧ t.link n.val = (if partner then 2 else 1)
           else t.link n.val = 3 ∧ (t.prtOf n.val).probed = true ∧ { t with prt := s.prt } = s) ∧
         RegsOutE [portRegs n.val] s t ∧ HostKeptE 2 s t)) ∧
  (∀ (s : State) (n : Fin 64) (partner : Bool),
      s.up .port n.val = true →
      s.link n.val = 3 →
      ∃ t, exec (.resumeLimit n partner) s = .next t ∧
        ((if (s.prtOf n.val).linkOk = true ∧ s.get (PRT_SQI_SQI n.val) ≥ s.get (PRT_LINK_CFG_SQI_RESUME_MIN n.val) then
             t.link n.val = 4 ∧ t.get (PRT_LINK_STATUS_RESUMED n.val) = 1 ∧ t.get (PRT_LINK_STATUS_FALLBACK n.val) = 0
           else t.link n.val = (if partner then 2 else 1) ∧ t.get (PRT_LINK_STATUS_FALLBACK n.val) = (if (s.prtOf n.val).linkOk then 8 else 7)) ∧
         t.on (PRT_RESUME_INFO_VALID n.val) = false ∧ RegsOutE [portRegs n.val, block 10] s t ∧ HostKeptE 2 s t))

/-- R70, R72, R74, R82, R89, R90, R94, R470–R474: the line rows of a port. -/
def Obligations.LineRows : Prop :=
  (∀ (s : State) (n : Fin 64) (sqi : Fin 8) (phyErrs : Nat) (fecCorr : Nat),
      s.up .port n.val = true →
      s.isT1 n.val = true →
      s.link n.val = 4 →
      ∃ t, exec (.sqiSample n sqi phyErrs fecCorr) s = .next t ∧
        (t.get (PRT_SQI_SQI n.val) = sqi.val ∧ t.get (PRT_SQI_SQI_MIN n.val) = min sqi.val (s.get (PRT_SQI_SQI_MIN n.val)) ∧ t.link n.val = 4 ∧
         ((s.prtOf n.val).sqiArmed = true → 2 ≤ (s.prtOf n.val).lowRun → sqi.val < s.get (PRT_LINK_CFG_SQI_LOW n.val) →
           t.on (PRT_LINK_EVENT_SQI_LOW n.val) = true ∧ (t.prtOf n.val).sqiArmed = false) ∧
         t.get (PRT_RX_PHY_ERR_COUNT n.val) = min (s.get (PRT_RX_PHY_ERR_COUNT n.val) + phyErrs) (2 ^ (PRT_RX_PHY_ERR_COUNT n.val).w - 1) ∧
         t.get (PRT_FEC_CORR_COUNT n.val) = min (s.get (PRT_FEC_CORR_COUNT n.val) + fecCorr) (2 ^ (PRT_FEC_CORR_COUNT n.val).w - 1) ∧
         RegsButE [PRT_SQI n.val, PRT_LINK_EVENT n.val, PRT_RX_PHY_ERR n.val, PRT_FEC_CORR n.val] s t ∧ HostKeptE 2 s t ∧ { t.lessEvents s with prt := s.prt } = s)) ∧
  (∀ (s : State) (n : Fin 64),
      s.up .port n.val = true →
      s.tc10On n.val = true →
      s.link n.val = 4 →
      s.power ≠ 3 →
      ∃ t, exec (.tc10SleepRequest n) s = .next t ∧
        ((if s.maySleepAlone n.val then t.link n.val = 6 ∧ t.lanesEmpty n.val = true ∧ t.pwr.tc10Out = s.pwr.tc10Out ++ [(n.val, 1)]
           else t.link n.val = 4 ∧ t.get WAK_SLEEP_REQ_HELD_COUNT = min (s.get WAK_SLEEP_REQ_HELD_COUNT + 1) (2 ^ WAK_SLEEP_REQ_HELD_COUNT.w - 1) ∧
             RegsBut [WAK_SLEEP_REQ_HELD] s t ∧ { t with regs := s.regs } = s))) ∧
  (∀ (s : State) (n : Fin 64),
      s.pwr.waitAck.contains n.val = true →
      s.pwr.goal = none →
      s.link n.val = 4 →
      ∃ t, exec (.tc10SleepAck n) s = .next t ∧
        (t.link n.val = 6 ∧ t.pwr.waitAck = s.pwr.waitAck.filter (· ≠ n.val) ∧ t.lanesEmpty n.val = true ∧
         RegsOutE [portRegs n.val, block 5, block 6, block 10, block 16] s t ∧ HostKeptE 2 s t)) ∧
  (∀ (s : State) (n : Fin 64),
      s.power = 3 →
      s.pwr.waitAck.contains n.val = true →
      ∃ t, exec (.tc10SleepAbort n) s = .next t ∧
        (t.power = s.pwr.entryFrom % 8 ∧ t.pwr.waitAck = [] ∧ t.pwr.latched = false ∧ Emits 0x0B02 0 (args 3 n.val) s t)) ∧
  (∀ (s : State) (n : Fin 64),
      s.up .port n.val = true →
      s.tc10On n.val = true →
      s.link n.val = 6 →
      s.power = 0 →
      s.on (PRT_MODE_ENABLE n.val) = true →
      s.on (PRT_RESUME_INFO_VALID n.val) = false →
      s.get (PRT_MODE_LOOPBACK n.val) ≠ 1 →
      ∃ t, exec (.tc10Wake n) s = .next t ∧
        (t.link n.val = 1 ∧ RegsBut [PRT_LINK_STATUS n.val] s t ∧ HostKept s t)) ∧
  (∀ (s : State) (n : Fin 64),
      s.up .port n.val = true →
      isS n.val = true →
      s.on (PRT_MODE_TC10_EN n.val) = true →
      s.link n.val = 6 →
      s.power = 0 →
      s.on (PRT_MODE_ENABLE n.val) = true →
      s.on (PRT_RESUME_INFO_VALID n.val) = false →
      s.get (PRT_MODE_LOOPBACK n.val) ≠ 1 →
      ∃ t, exec (.segmentActivity n) s = .next t ∧
        (t.link n.val = 1 ∧ RegsBut [PRT_LINK_STATUS n.val] s t ∧ HostKept s t)) ∧
  (∀ (s : State) (n : Fin 64) (result : Fin 5) (distance : BitVec 16),
      s.up .port n.val = true →
      s.link n.val = 7 →
      ∃ t, exec (.diagDone n result distance) s = .next t ∧
        (t.get (PRT_DIAG_STATUS n.val) = 2 ∧ t.get (PRT_DIAG_RESULT n.val) = result.val ∧ t.get (PRT_DIAG_DISTANCE n.val) = distance.toNat ∧
         t.on (PRT_RESUME_INFO_VALID n.val) = false ∧ t.on (PRT_LINK_EVENT_DIAG_DONE n.val) = true ∧
         (s.get (PRT_MODE_LOOPBACK n.val) ≠ 1 → t.link n.val = if (s.prtOf n.val).diagFrom = 0 ∧ s.get (PRT_MODE_ENABLE n.val) = 0 then 0 else 1) ∧
         RegsOutE [portRegs n.val, block 10] s t ∧ HostKeptE 4 s t)) ∧
  (∀ (s : State) (bus : Fin 2) (rdata : BitVec 16),
      (∀ f : MdioFrame, SMap.find s.mdioBus bus.val = some f →
      ∃ t, exec (.mdioFrameDone bus rdata) s = .next t ∧
        (t.on (PRT_MDIO_STATUS_BUSY f.port) = false ∧ (f.op = 3 → t.get (PRT_MDIO_STATUS_RDATA f.port) = rdata.toNat) ∧
         RegsBut [PRT_MDIO_STATUS f.port] s t ∧ { t with regs := s.regs, mdioBus := s.mdioBus, mdioQueue := s.mdioQueue, mdioOut := s.mdioOut, pins := s.pins } = s))) ∧
  (∀ (s : State) (n : Fin 64),
      s.plcaRuns n.val = true →
      s.get (PRT_MODE_ROLE n.val) = 0 →
      ∃ t, exec (.plcaForeignBeacon n) s = .next t ∧
        (t.get (PRT_PLCA_CNT_BEACON_FAULT n.val) = min (s.get (PRT_PLCA_CNT_BEACON_FAULT n.val) + 1) (2 ^ (PRT_PLCA_CNT_BEACON_FAULT n.val).w - 1) ∧
         t.get (PRT_PLCA_STATUS_CONFLICT n.val) = 1 ∧ RegsBut [PRT_PLCA_CNT n.val, PRT_PLCA_STATUS n.val] s t ∧ { t with regs := s.regs } = s)) ∧
  (∀ (s : State) (n : Fin 64),
      s.plcaRuns n.val = true →
      ∃ t, exec (.collision n) s = .next t ∧
        (t.get (PRT_PLCA_CNT_COLLISIONS n.val) = min (s.get (PRT_PLCA_CNT_COLLISIONS n.val) + 1) (2 ^ (PRT_PLCA_CNT_COLLISIONS n.val).w - 1) ∧
         RegsBut [PRT_PLCA_CNT n.val] s t ∧ { t with regs := s.regs } = s)) ∧
  (∀ (s : State) (n : Fin 64),
      s.plcaRuns n.val = true →
      s.get (PRT_MODE_ROLE n.val) = 1 →
      ∃ t, exec (.plcaBeaconTimeout n) s = .next t ∧
        (t.get (PRT_PLCA_CNT_BEACON_FAULT n.val) = min (s.get (PRT_PLCA_CNT_BEACON_FAULT n.val) + 1) (2 ^ (PRT_PLCA_CNT_BEACON_FAULT n.val).w - 1) ∧
         RegsBut [PRT_PLCA_CNT n.val] s t ∧ { t with regs := s.regs } = s))

/-- R94, R103–R110, R115, R166, R198: a frame on its way in, on a port that is UP. The hypotheses leave the drain of a commit out, whose end R53 states. -/
def Obligations.FramesComeIn : Prop :=
  (∀ (s : State) (f : FrameIn) (rivals : List (Fin 70)),
      s.takesFrames f.port.val = true →
      s.framesStopped = false →
      s.power ≠ 2 →
      s.rxAt f.port.val f.fid = none →
      macControl f.bytes = false →
      s.mayCut f.port.val (s.rxOf f).epoch = true →
      s.on FST_STATUS_READY = true →
      s.freeSharedHandles ≠ 0 →
      s.served (f.port.val :: rivals.map (·.val)) = some f.port.val →
      (∀ q : Nat × Nat × Nat, s.cutPlace f.bytes f.port.val = some q →
      ∃ t, exec (.ct64thByte f rivals) s = .next t ∧
        ((t.handle q.2.2).any (fun y => y.pool == q.1 && y.chunk == q.2.1 && y.state == 0 && y.port == f.port.val && y.bytes == f.bytes) = true ∧
         (t.rxAt f.port.val f.fid).bind (·.handle) = some q.2.2 ∧ t.fab.lanes = s.fab.lanes ∧
         RegsBut ([INJ_ARM 8, INJ_ARM 9] ++ storeRegs) s t ∧ HostKept s t))) ∧
  (∀ (s : State) (f : FrameIn) (whole : Bool),
      s.takesFrames f.port.val = true →
      s.framesStopped = false →
      s.power ≠ 2 →
      s.rxAt f.port.val f.fid = none →
      macControl f.bytes = false →
      s.up .fabric = true →
      s.rxSecure (s.rxOf f).epoch f.port.val = false →
      s.up .umpire = true →
      ∃ t, exec (.classify f whole) s = .next t ∧
        ((t.rxAt f.port.val f.fid).any (fun x => x.desc.isSome && x.bytes == f.bytes && !x.ended && x.handle.isNone) = true ∧
         t.fab.handles = s.fab.handles ∧ t.fab.lanes = s.fab.lanes ∧ t.fab.learned = s.fab.learned ∧
         (s.on UMP_STATUS_READY = false →
           t.get (UMP_DROP_COUNT 7) = min (s.get (UMP_DROP_COUNT 7) + 1) (2 ^ (UMP_DROP_COUNT 7).w - 1) ∧ RegsBut [UMP_DROP 7] s t ∧ HostKept s t) ∧
         RegsOutE [block 8] s t ∧ HostKeptE 1 s t)) ∧
  (∀ (s : State) (f : FrameIn) (v : RxVerdict) (rivals : List (Fin 70)),
      s.takesFrames f.port.val = true →
      s.framesStopped = false →
      s.power ≠ 2 →
      s.rxAt f.port.val f.fid = none →
      macControl f.bytes = false →
      s.commitState ≠ 3 →
      s.fab.parityDue = [] →
      v.assyErr = false →
      v.fcsOk = false →
      64 ≤ f.bytes.length + 4 →
      f.bytes.length + 4 ≤ classMax f.port.val →
      ∃ t, exec (.frameEnd f v rivals) s = .next t ∧
        (t.get (PRT_RX_FCS_ERR_COUNT f.port.val) = min (s.get (PRT_RX_FCS_ERR_COUNT f.port.val) + 1) (2 ^ (PRT_RX_FCS_ERR_COUNT f.port.val).w - 1) ∧
         t.get (PRT_RX_FRAMES_COUNT f.port.val) = s.get (PRT_RX_FRAMES_COUNT f.port.val) ∧
         t.get (PRT_RX_OCTETS_COUNT f.port.val) = s.get (PRT_RX_OCTETS_COUNT f.port.val) ∧ t.fab.handles = s.fab.handles ∧ t.fab.lanes = s.fab.lanes ∧
         RegsOutE [portRegs f.port.val, block 10] s t ∧ HostKept s t)) ∧
  (∀ (s : State) (f : FrameIn) (v : RxVerdict) (rivals : List (Fin 70)),
      s.takesFrames f.port.val = true →
      s.framesStopped = false →
      s.power ≠ 2 →
      s.rxAt f.port.val f.fid = none →
      macControl f.bytes = false →
      s.commitState ≠ 3 →
      s.fab.parityDue = [] →
      s.rxSecure (s.rxOf f).epoch f.port.val = false →
      v.assyErr = false →
      v.fcsOk = true →
      v.phyErrs = 0 →
      64 ≤ f.bytes.length + 4 →
      f.bytes.length + 4 ≤ classMax f.port.val →
      ∃ t, exec (.frameEnd f v rivals) s = .next t ∧
        (t.get (PRT_RX_FRAMES_COUNT f.port.val) = min (s.get (PRT_RX_FRAMES_COUNT f.port.val) + 1) (2 ^ (PRT_RX_FRAMES_COUNT f.port.val).w - 1) ∧
         t.get (PRT_RX_OCTETS_COUNT f.port.val) =
           min (s.get (PRT_RX_OCTETS_COUNT f.port.val) + (f.bytes.length + 4)) (2 ^ (PRT_RX_OCTETS_COUNT f.port.val).w - 1) ∧
         (t.rxAt f.port.val f.fid).any (fun x => x.ended && !x.bad && x.bytes == f.bytes && x.desc.isNone) = true ∧
         t.fab.handles = s.fab.handles ∧ t.fab.lanes = s.fab.lanes ∧ RegsOutE [portRegs f.port.val, block 10] s t ∧ HostKept s t)) ∧
  (∀ (s : State) (port : Fin 70) (fid : Nat) (rivals : List (Fin 70)),
      (∀ x : RxFrame, s.rxAt port.val fid = some x →
      s.power ≠ 2 →
      s.commitState ≠ 3 →
      s.fab.parityDue = [] →
      x.desc.isSome = true →
      x.descHere = false →
      x.settled = false →
      x.ended = false →
      x.handle = none →
      ∃ t, exec (.descriptorArrival port fid rivals) s = .next t ∧
        (t.rxAt port.val fid = some { x with descHere := true } ∧ { t with fab := { t.fab with rx := s.fab.rx } } = s))) ∧
  (∀ (s : State) (port : Fin 70) (fid : Nat) (rivals : List (Fin 70)),
      (∀ x : RxFrame, s.rxAt port.val fid = some x →
      (∀ d : UDesc, x.desc = some d →
      s.power ≠ 2 →
      s.commitState ≠ 3 →
      s.fab.parityDue = [] →
      d.outcome = 3 →
      x.descHere = false →
      x.settled = false →
      x.ended = true →
      x.handle = none →
      ∃ t, exec (.descriptorArrival port fid rivals) s = .next t ∧
        (t.rxAt port.val fid = none ∧ { t with fab := { t.fab with rx := s.fab.rx } } = s)))) ∧
  (∀ (s : State) (port : Fin 70) (fid : Nat) (bytes : List Byte) (age : Nat),
      (∀ x : RxFrame, s.rxAt port.val fid = some x →
      (∀ h : Nat, x.handle = some h →
      (∀ y : Handle, s.handle h = some y →
      x.ended = false →
      s.commitState ≠ 3 →
      s.entriesOf h = 0 →
      y.refcnt = 0 →
      y.parBad = 0 →
      s.fab.frer = [] →
      s.fab.parityDue = [] →
      ∃ t, exec (.chunkOutgrown port fid bytes age) s = .next t ∧
        (t.handle h = none ∧ (t.rxAt port.val fid).any (fun z => z.bad && z.handle.isNone) = true ∧
         t.get (FWD_CT_OUTGREW_COUNT port.val) = min (s.get (FWD_CT_OUTGREW_COUNT port.val) + 1) (2 ^ (FWD_CT_OUTGREW_COUNT port.val).w - 1) ∧
         t.fab.lanes = s.fab.lanes ∧ RegsBut ([FWD_CT_OUTGREW port.val, INJ_ARM 8] ++ storeRegs) s t ∧ HostKept s t))))) ∧
  (∀ (s : State) (port : Fin 70) (fid : Nat) (bytes : List Byte) (age : Nat),
      (∀ x : RxFrame, s.rxAt port.val fid = some x →
      (∀ h : Nat, x.handle = some h →
      (∀ y : Handle, s.handle h = some y →
      (∀ k : Nat, x.stream = some k →
      x.ended = false →
      x.desc.any (·.outcome == 1) = false →
      s.commitState ≠ 3 →
      s.entriesOf h = 0 →
      y.refcnt = 0 →
      y.parBad = 0 →
      s.fab.frer = [] →
      s.fab.parityDue = [] →
      ∃ t, exec (.streamMaxLenExceeded port fid bytes age) s = .next t ∧
        (t.handle h = none ∧ (t.rxAt port.val fid).any (fun z => z.bad && z.handle.isNone) = true ∧
         t.get (LNE_STR_OVERSIZE_COUNT k) = min (s.get (LNE_STR_OVERSIZE_COUNT k) + 1) (2 ^ (LNE_STR_OVERSIZE_COUNT k).w - 1) ∧
         t.fab.lanes = s.fab.lanes ∧ RegsBut ([LNE_STR_OVERSIZE k, INJ_ARM 8] ++ storeRegs) s t ∧ HostKept s t))))))

/-- R118, R119, R207–R209, R275: copies on their way out. The selection itself is State.selectLane (R208), the function that lane service uses. -/
def Obligations.CopiesGoOut : Prop :=
  (∀ (s : State) (n : Fin 70) (ecc : Fin 3) (delay : Nat),
      ecc = 0 →
      s.commitState ≠ 3 →
      s.up .fabric = true →
      s.power ≠ 2 →
      s.portServes n.val = true →
      (s.svc n.val).sending = none →
      (s.svc n.val).rest = none →
      (s.svc n.val).entry = none →
      (∀ r : Nat × PortLanes × Bool, s.selectLane n.val = some r →
      (∀ c : Copy, (s.lane n.val r.1).head? = some c →
      (∀ h : Handle, s.handle c.handle = some h →
      s.fab.parityDue = [] →
      h.parBad = 0 →
      s.frameErrs h 0 = [] →
      h.state = 1 →
      s.ringDown n.val c = none →
      s.aged n.val r.1 h.arrival = false →
      64 ≤ n.val →
      n.val ≠ 65 →
      n.val ≠ 67 →
      s.txSecure n.val = false →
      ∃ t, exec (.laneSelect n ecc delay) s = .next t ∧
        ((t.svc n.val).sending = some ⟨c, bit (s.preemptMask n.val) r.1, none, 0, s.spanOf n.val c h, s.refTicks, h.words⟩ ∧ t.lane n.val r.1 = (s.lane n.val r.1).tail ∧
         t.handle c.handle = some h ∧ RegsBut [GTE_GUARD_DEFER n.val] s t ∧ HostKept s t))))) ∧
  (∀ (s : State) (n : Fin 70),
      s.commitState ≠ 3 →
      s.up .fabric = true →
      s.power ≠ 2 →
      s.portServes n.val = true →
      (s.svc n.val).sending = none →
      (s.svc n.val).rest = none →
      (s.svc n.val).entry = none →
      (∀ r : Nat × PortLanes × Bool, s.selectLane n.val = some r →
      (∀ c : Copy, (s.lane n.val r.1).head? = some c →
      (∀ h : Handle, s.handle c.handle = some h →
      s.fab.parityDue = [] →
      h.parBad = 0 →
      s.frameErrs h 0 = [] →
      h.state = 1 →
      s.ringDown n.val c = none →
      s.aged n.val r.1 h.arrival = false →
      64 ≤ n.val →
      n.val ≠ 65 →
      n.val ≠ 67 →
      s.txSecure n.val = false →
      ∃ t, exec (.shaperRefill n) s = .next t ∧
        ((t.svc n.val).sending = some ⟨c, bit (s.preemptMask n.val) r.1, none, 0, s.spanOf n.val c h, s.refTicks, h.words⟩ ∧ t.lane n.val r.1 = (s.lane n.val r.1).tail ∧
         t.handle c.handle = some h ∧ RegsBut [GTE_GUARD_DEFER n.val] s t ∧ HostKept s t))))) ∧
  (∀ (s : State) (n : Fin 70),
      s.commitState ≠ 3 →
      s.up .fabric = true →
      n.val = 69 →
      (∀ x : Sending, (s.svc n.val).sending = some x →
      (∀ h : Handle, s.handle x.copy.handle = some h →
      h.state = 1 →
      h.refcnt = 1 →
      h.parBad = 0 →
      s.fab.parityDue = [] →
      x.copy.rsv = false →
      (s.svc n.val).entry = none →
      h.quotaOf = none →
      ∃ t, exec (.txEnd n) s = .next t ∧
        ((t.svc n.val).sending = none ∧ t.handle x.copy.handle = none ∧ t.fab.lanes = s.fab.lanes ∧ RegsBut storeRegs s t ∧ HostKept s t)))) ∧
  (∀ (s : State) (n : Fin 64),
      s.up .time = true →
      (∀ r : StampRec, (SMap.get s.tim.stampsWait [] n.val).find? (·.ready) = some r →
      r.source = 64 →
      ∃ t, exec (.tsRecordReturn n) s = .next t ∧
        (SMap.get t.tim.stampsWait [] n.val = (SMap.get s.tim.stampsWait [] n.val).erase r ∧
         Emits 0x0D00 r.ring (leNat r.octets) s t ∧ RegsButE [] s t ∧ HostKeptE 2 s t ∧ { t.lessEvents s with tim := s.tim } = s)))

/-- R216, R217, R222, R229: the rows of gates and of MAC merge. -/
def Obligations.GatesAndMerge : Prop :=
  (∀ (s : State) (n : Fin 70),
      (∀ g : GateList, s.gateList n.val = some g →
      (∀ st : Gate, SMap.find s.fab.gates n.val = some st →
      s.up .fabric = true →
      shortDiff (s.short g.domain) st.next ≥ 0 →
      (s.svc n.val).sending = none →
      st.index + 1 < (gateSpans g.cycle g.ops 0).length →
      ∃ t, exec (.gateBoundary n) s = .next t ∧
        (t.get (GTE_STATUS_INDEX n.val) = (st.index + 1) % 2 ^ (GTE_STATUS_INDEX n.val).w ∧
         t.get (GTE_STATUS_GATES n.val) = (((gateSpans g.cycle g.ops 0)[st.index + 1]?).elim 0xFF fun o => o.1.gates) % 256 ∧
         SMap.find t.fab.gates n.val = some ⟨st.index + 1, (st.next + (((gateSpans g.cycle g.ops 0)[st.index + 1]?).elim g.cycle (·.2))) % 2 ^ 32⟩ ∧
         RegsBut [GTE_STATUS n.val] s t ∧ { t with regs := s.regs, tim := { t.tim with place := s.tim.place }, fab := { t.fab with gates := s.fab.gates } } = s)))) ∧
  (∀ (s : State) (n : Fin 70),
      (∀ g : GateList, s.gateList n.val = some g →
      (∀ st : Gate, SMap.find s.fab.gates n.val = some st →
      shortDiff (s.short g.domain) st.next < 0 →
      ∃ t, exec (.gateBoundary n) s = .next t ∧
        (t = s)))) ∧
  (∀ (s : State) (who : Initiator) (n : Fin 70) (value : Word),
      s.takesWrite who (GTE_HOLD n.val) value →
      ∃ t, exec (.gteHoldWrite who n value) s = .next t ∧
        ((t.rd (GTE_HOLD n.val)).toNat % 256 = value.toNat % 256 ∧ RegsBut [GTE_HOLD n.val, GTE_LATE_END n.val, LNE_MM_FRAG_TX n.val] s t ∧
         t.fab.lanes = s.fab.lanes ∧ HostKept s t)) ∧
  (∀ (s : State) (n : Fin 32),
      s.up .fabric = true →
      s.get (LNE_MM_STATUS_VERIFY n.val) = 2 →
      ∃ t, exec (.mmVerifyTimer n) s = .next t ∧
        ((if SMap.get s.fab.verify 0 n.val < 3 then
             SMap.get t.fab.verify 0 n.val = SMap.get s.fab.verify 0 n.val + 1 ∧ { t with fab := { t.fab with verify := s.fab.verify } } = s
           else t.get (LNE_MM_STATUS_VERIFY n.val) = 4 ∧ t.on (LNE_MM_STATUS_ACTIVE n.val) = false ∧
             Emits 0x0207 n.val (args (t.rd (LNE_MM_STATUS n.val)).toNat) s t ∧ RegsButE [LNE_MM_STATUS n.val, LNE_LANE_STATUS n.val] s t ∧ HostKeptE 2 s t))) ∧
  (∀ (s : State) (n : Fin 32),
      s.up .fabric = true →
      s.get (LNE_MM_STATUS_VERIFY n.val) = 2 →
      ∃ t, exec (.mmRespond n) s = .next t ∧
        (t.on (LNE_MM_STATUS_ACTIVE n.val) = true ∧ t.get (LNE_MM_STATUS_VERIFY n.val) = 3 ∧ RegsBut [LNE_MM_STATUS n.val, LNE_LANE_STATUS n.val] s t ∧
         { t with regs := s.regs } = s))

/-- R141–R144, R227–R230: observation and the rows of the forwarding database. -/
def Obligations.ObservationAndDatabase : Prop :=
  (∀ (s : State),
      s.up .fabric = true →
      ∃ t, exec .obsSample s = .next t ∧
        (((List.range 70).all fun n => (List.range 8).all fun l => !s.on (LNE_PORT_CFG_OBS_EN n) ||
           (t.get (LNE_OBS_DEPTH_BYTES n l) == (s.lane n l).length % 2 ^ 32 && t.get (LNE_OBS_LAST_NS n l) == s.headDelay n l % 2 ^ 32)) = true ∧
         RegsOutE [(0xA80000, 0xA91800)] s t ∧ { t with regs := s.regs } = s)) ∧
  (∀ (s : State) (who : Initiator),
      s.takesWrite who LNE_CNT_CLEAR 2 →
      ∃ t, exec (.obsClear who) s = .next t ∧
        (RegsCleared (fun a => decide (0xA80000 ≤ a ∧ a < 0xA80000 + 70 * 0x400)) s t ∧ { t with regs := s.regs } = s)) ∧
  (∀ (s : State),
      s.up .fabric = true →
      s.on FWD_AGE_AGE_EN = true →
      s.fab.ageTick + s.get FWD_AGE_AGE_TIME * 500000000 ≤ s.refTicks →
      ∃ t, exec .ageSweep s = .next t ∧
        (t.fab.learned = (s.fab.learned.filter fun e => e.2.hit).map (fun e => (e.1, { e.2 with hit := false })) ∧
         t.get FWD_FDB_STATUS_LEARNED = t.fab.learned.length % 2 ^ FWD_FDB_STATUS_LEARNED.w ∧ t.fab.ageTick = s.fab.ageTick + s.get FWD_AGE_AGE_TIME * 500000000 ∧
         RegsBut (FWD_FDB_STATUS :: (List.range 70).map FWD_PORT_LEARNED) s t ∧
         { t with regs := s.regs, fab := { t.fab with learned := s.fab.learned, ageTick := s.fab.ageTick } } = s)) ∧
  (∀ (s : State),
      s.refTicks < s.fab.ageTick + s.get FWD_AGE_AGE_TIME * 500000000 →
      ∃ t, exec .ageSweep s = .next t ∧
        (t = s)) ∧
  (∀ (s : State) (who : Initiator) (value : Word),
      s.takesWrite who FWD_AGE value →
      ∃ t, exec (.fwdAgeWrite who value) s = .next t ∧
        (t.get FWD_AGE_AGE_TIME = bits value.toNat 0 16 ∧ t.on FWD_AGE_AGE_EN = bit value.toNat 31 ∧
         (if s.get FWD_AGE_AGE_TIME ≠ bits value.toNat 0 16 ∨ (s.on FWD_AGE_AGE_EN = false ∧ bit value.toNat 31 = true)
           then t.fab.ageTick = s.refTicks else t.fab.ageTick = s.fab.ageTick) ∧
         RegsBut [FWD_AGE] s t ∧ { t with regs := s.regs, fab := { t.fab with ageTick := s.fab.ageTick } } = s)) ∧
  (∀ (s : State) (src : CmdSrc) (d : Desc),
      s.takesCommand d [0, 1] false →
      descBits d 16 8 < 70 ∨ descBits d 16 8 = 0xFF →
      descBits d 17 8 < 2 →
      descBits d 18 16 < 4096 →
      descZero d 20 64 = true →
      descBits d 17 1 = 0 ∨ (1 ≤ descBits d 18 12 ∧ descBits d 18 12 ≤ 4094) →
      ∃ t, exec (.fdbFlush src d) s = .next t ∧
        (t.fab.learned = s.fab.learned.filter (fun e =>
           !((descBits d 16 8 == 0xFF || descBits d 16 8 == e.2.port) && (descBits d 17 1 == 0 || descBits d 18 12 == e.2.fid))) ∧
         Completes src d 0 0 s t ∧ RegsButE (FWD_FDB_STATUS :: (List.range 70).map FWD_PORT_LEARNED ++ replyRegs) s t ∧ HostKeptR 0 0 s t ∧
         t.fab.lanes = s.fab.lanes ∧ t.fab.active = s.fab.active)) ∧
  (∀ (s : State) (src : CmdSrc) (d : Desc),
      s.takesCommand d [0, 1] false →
      dumpOk src d 65536 = true →
      ∃ t, exec (.fdbDump src d) s = .next t ∧
        (Wrote (descBits d 16 64) (dumpImage s.fdbWalk (descBits d 24 32) (descBits d 28 32)) s t ∧ Completes src d 0 0 s t ∧
         RegsButE replyRegs s t ∧ HostKeptR (descBits d 16 64) (dumpImage s.fdbWalk (descBits d 24 32) (descBits d 28 32)).length s t ∧ t.lessReply s = s))

/-- R156–R163: the rows of the recorder. -/
def Obligations.RecorderActs : Prop :=
  (∀ (s : State) (who : Initiator) (value : Word),
      s.takesWrite who REC_CTRL (withBit value 0) →
      s.on REC_CTRL_ENABLE = false →
      ∃ t, exec (.recEnable who value) s = .next t ∧
        ((if s.dramReady && s.regionFits then t.recState = 1 ∧ t.on REC_CTRL_ENABLE = true ∧ t.get REC_HEAD_PAGE = 0 ∧ t.get REC_OLDEST_PAGE = 0 ∧ t.on REC_STATUS_WRAPPED = false ∧
             t.dram.open_ = false ∧ t.dram.seq = 0 ∧ t.dram.bytes = s.dram.bytes
           else t.on REC_CTRL_ENABLE = false ∧ t.on REC_STATUS_CFG_ERR = true ∧ t.recState = s.recState) ∧
         RegsBut [REC_CTRL, REC_HEAD, REC_OLDEST, REC_STATUS] s t ∧ { t with regs := s.regs, dram := s.dram } = s)) ∧
  (∀ (s : State) (who : Initiator) (value : Word),
      s.takesWrite who REC_CTRL (noBit value 0) →
      s.on REC_CTRL_ENABLE = true →
      ∃ t, exec (.recDisable who value) s = .next t ∧
        (t.on REC_CTRL_ENABLE = false ∧ t.recState = 0 ∧ t.dram.open_ = false ∧
         (s.dram.open_ = false → t.dram = s.dram ∧ RegsBut [REC_CTRL, REC_STATUS] s t) ∧
         RegsBut [REC_CTRL, REC_HEAD, REC_OLDEST, REC_STATUS, INJ_ARM 10] s t ∧ { t with regs := s.regs, dram := s.dram } = s)) ∧
  (∀ (s : State),
      s.up .dram = true →
      s.dram.open_ = true →
      s.recState = 1 →
      s.get REC_HEAD_PAGE + 1 < s.get REC_PAGES_PAGES →
      ∃ t, exec .recPageTimeout s = .next t ∧
        (t.recState = 1 ∧ t.dram.open_ = false ∧ t.dram.seq = s.dram.seq + 1 ∧ t.get REC_HEAD_PAGE = s.get REC_HEAD_PAGE + 1 ∧
         RegsBut [REC_HEAD, REC_OLDEST, REC_STATUS, INJ_ARM 10] s t ∧ { t with regs := s.regs, dram := s.dram } = s)) ∧
  (∀ (s : State) (src : CmdSrc) (d : Desc),
      s.takesCommand d [0, 1] false →
      descBits d 16 8 = 1 →
      descZero d 17 64 = true →
      s.pdOn 8 = true →
      s.recState = 1 ∨ s.recState = 2 →
      s.dram.open_ = false →
      ∃ t, exec (.recFreeze src d) s = .next t ∧
        (t.recState = 3 ∧ Emits 0x0301 0 (args (t.rd REC_STATUS).toNat (t.get REC_TRIG_PAGE_PAGE)) s t ∧ Completes src d 0 0 s t ∧
         RegsButE (REC_STATUS :: replyRegs) s t ∧ HostKeptR 0 0 s t ∧ { t.lessReply s with dram := s.dram } = s)) ∧
  (∀ (s : State) (src : CmdSrc) (d : Desc),
      s.takesCommand d [0, 1] false →
      descZero d 16 64 = true →
      s.pdOn 8 = true →
      s.recState = 3 →
      ∃ t, exec (.recRearm src d) s = .next t ∧
        (t.recState = 1 ∧ t.get REC_HEAD_PAGE = s.get REC_HEAD_PAGE ∧ t.dram.open_ = false ∧ t.dram.seq = s.dram.seq ∧ t.dram.bytes = s.dram.bytes ∧
         Completes src d 0 0 s t ∧ RegsButE (REC_STATUS :: replyRegs) s t ∧ HostKeptR 0 0 s t ∧ { t.lessReply s with dram := s.dram } = s)) ∧
  (∀ (s : State) (src : CmdSrc) (d : Desc),
      s.takesCommand d [0, 1] false →
      src = .localRing →
      descBits d 16 64 % 64 = 0 →
      descBits d 24 32 < s.get REC_PAGES_PAGES →
      descBits d 28 32 = 1 →
      descZero d 32 64 = true →
      s.pdOn 8 = true →
      s.recState = 0 ∨ s.recState = 3 →
      s.dram.badWords = [] →
      ∃ t, exec (.recRead src d) s = .next t ∧
        (Wrote (descBits d 16 64) (s.dramBytes (s.pageAddr (descBits d 24 32)) 65536) s t ∧ Completes src d 0 0 s t ∧
         RegsButE replyRegs s t ∧ HostKeptR (descBits d 16 64) 65536 s t ∧ t.dram = s.dram))

/-- R97–R100, R122–R125, R164: the rows of DRAM and of the frame store's start and scrubber. -/
def Obligations.StoreAndDram : Prop :=
  (∀ (s : State) (who : Initiator) (value : Word),
      s.takesWrite who REC_DRAM_CFG (withBit value 0) →
      s.on REC_DRAM_CFG_ENABLE = false →
      ∃ t, exec (.dramEnable who value) s = .next t ∧
        (t.on REC_DRAM_CFG_ENABLE = true ∧ t.rd REC_DRAM_STATUS = resetWord REC_DRAM_STATUS ∧ t.dram.bytes = [] ∧ t.dram.images = [] ∧
         t.dram.epoch = s.dram.epoch + 1 ∧ RegsBut [REC_DRAM_CFG, REC_DRAM_STATUS, UMP_STATUS, RIG_STATUS, KEY_STATUS] s t ∧ { t with regs := s.regs, dram := s.dram } = s)) ∧
  (∀ (s : State) (ok : Bool),
      s.up .dram = true →
      s.on REC_DRAM_CFG_ENABLE = true →
      s.on REC_DRAM_STATUS_READY = false →
      s.on REC_DRAM_STATUS_TRAIN_ERR = false →
      (match s.runningKind with | some (.updLoad _ _ _ _) => false | _ => true) = true →
      ∃ t, exec (.dramTrainDone ok) s = .next t ∧
        (t.on REC_DRAM_STATUS_READY = ok ∧ t.on REC_DRAM_STATUS_TRAIN_ERR = !ok ∧
         (ok = true → t.get REC_DRAM_STATUS_USABLE_MIB = usableMib (s.get REC_DRAM_CFG_DENSITY)) ∧
         RegsBut [REC_DRAM_STATUS] s t ∧ { t with regs := s.regs } = s)) ∧
  (∀ (s : State) (ok : Bool),
      s.up .dram = true →
      s.on REC_DRAM_CFG_ENABLE = true →
      s.on REC_DRAM_STATUS_READY = false →
      s.on REC_DRAM_STATUS_TRAIN_ERR = false →
      (∀ c : Running, s.hif.running = some c →
      c.cut = false →
      (∀ x : Nat × Nat, (match c.kind with | .updLoad _ off len _ => some (off, len) | _ => none) = some x →
      ∃ t, exec (.dramTrainDone ok) s = .next t ∧
        (t.hif.running = none ∧ (ok = false → Completes c.src c.desc 4 0 s t) ∧
         (ok = true → x.1 + x.2 ≤ s.get UPD_STAGE_SIZE * 2 ^ 21 → Completes c.src c.desc 0 0 s t))))) ∧
  (∀ (s : State) (who : Initiator) (value : Word),
      s.takesWrite who FST_CTRL (withBit value 0) →
      s.on FST_CTRL_RUN = false →
      ∃ t, exec (.fstRun who value) s = .next t ∧
        ((if s.get FST_CARVE_P0_GRAN + s.get FST_CARVE_P1_GRAN + s.get FST_CARVE_P2_GRAN > 511 then
             t.on FST_CTRL_RUN = false ∧ t.on FST_STATUS_CARVE_ERR = true ∧ t.fab = s.fab
           else t.on FST_CTRL_RUN = true ∧ t.fab.handles = [] ∧ t.fab.lanes = [] ∧ t.fab.suspect = [] ∧ t.fab.deadHandles = []) ∧
         RegsBut [FST_CTRL, FST_STATUS, INJ_ARM 8] s t ∧ HostKept s t)) ∧
  (∀ (s : State),
      s.up .fabric = true →
      s.on FST_CTRL_RUN = true →
      s.on FST_STATUS_READY = false →
      ∃ t, exec .fstReady s = .next t ∧
        (t.on FST_STATUS_READY = true ∧
         ((List.range 4).all fun p => t.get (FST_POOL_INFO_CHUNKS p) == s.granules p * perGranule p % 2 ^ (FST_POOL_INFO_CHUNKS p).w) = true ∧
         RegsBut (FST_STATUS :: storeRegs) s t ∧ { t with regs := s.regs } = s)) ∧
  (∀ (s : State) (ecc : Fin 4),
      s.up .fabric = true →
      s.on FST_CTRL_SCRUB_EN = true →
      s.on FST_STATUS_READY = true →
      s.commitState ≠ 3 →
      s.fab.handles = [] →
      s.fab.suspect = [] →
      ecc.val < 2 →
      SMap.get s.fab.badWords 0 s.fab.scrub = 0 →
      s.on (INJ_ARM_ARM 8) = false →
      ∃ t, exec (.scrubStep ecc) s = .next t ∧
        (t.fab.scrub = (s.fab.scrub + 1) % storeWords ∧
         t.get FST_ECC_CORR_COUNT = (if ecc.val = 1 then min (s.get (FST_ECC_CORR_COUNT) + 1) (2 ^ (FST_ECC_CORR_COUNT).w - 1) else s.get FST_ECC_CORR_COUNT) ∧
         t.get FST_SCRUB_PASS_COUNT = (if s.fab.scrub + 1 = storeWords then (s.get FST_SCRUB_PASS_COUNT + 1) % 2 ^ FST_SCRUB_PASS_COUNT.w else s.get FST_SCRUB_PASS_COUNT) ∧
         RegsBut [FST_ECC_CORR, FST_SCRUB_PASS] s t ∧ { t with regs := s.regs, fab := { t.fab with scrub := s.fab.scrub, badWords := s.fab.badWords } } = s)) ∧
  (∀ (s : State) (ecc : Fin 4),
      s.up .fabric = true →
      s.on FST_CTRL_SCRUB_EN = true →
      s.on FST_STATUS_READY = true →
      s.commitState ≠ 3 →
      s.fab.handles = [] →
      s.fab.suspect = [] →
      ecc.val = 2 →
      SMap.get s.fab.badWords 0 s.fab.scrub ≤ 2 →
      (∀ r : Nat × Nat × Nat, s.wordAt s.fab.scrub = some r →
      ∃ t, exec (.scrubStep ecc) s = .next t ∧
        (t.fab.scrub = (s.fab.scrub + 1) % storeWords ∧ t.fab.suspect = [(chunkKey r.1 r.2.1, false)] ∧
         t.get FST_ECC_UNCORR_COUNT = min (s.get (FST_ECC_UNCORR_COUNT) + 1) (2 ^ (FST_ECC_UNCORR_COUNT).w - 1) ∧ t.on GLB_FAULT_ECC_UNCORR = true ∧ t.on FST_ERR_LOC_VALID = true ∧
         (s.on FST_ERR_LOC_VALID = false → t.get FST_ERR_LOC_POOL = r.1 ∧ t.get FST_ERR_LOC_INDEX = r.2.1 % 2 ^ FST_ERR_LOC_INDEX.w) ∧
         Emits 0x0106 0 (args (t.rd FST_ERR_LOC).toNat) s t)))

/-- R185, R187, R191, R192, R326, R438: the rows of the Umpire and of the table images of all units. -/
def Obligations.PinholesAndImages : Prop :=
  (∀ (s : State),
      s.up .umpire = true →
      ∃ t, exec .pinholeExpiry s = .next t ∧
        (t.ump.second = s.ump.second + 1 ∧ t.ump.pinholes = s.ump.pinholes.filter (fun e => !(s.ump.second + 1 - e.2.last > s.phTimeout e.2)) ∧
         t.get UMP_PH_STATUS_USED = t.ump.pinholes.length % 2 ^ UMP_PH_STATUS_USED.w ∧
         t.get UMP_PH_EXPIRE_COUNT = min (s.get UMP_PH_EXPIRE_COUNT + (s.ump.pinholes.length - t.ump.pinholes.length)) (2 ^ UMP_PH_EXPIRE_COUNT.w - 1) ∧
         RegsBut [UMP_PH_STATUS, UMP_PH_EXPIRE] s t ∧ { t with regs := s.regs, ump := { t.ump with second := s.ump.second, pinholes := s.ump.pinholes } } = s)) ∧
  (∀ (s : State),
      s.up .umpire = true →
      (∀ i : Nat, s.ump.tcamBad.head? = some i →
      s.ump.tcamBad.Nodup →
      s.ump.patBad.Nodup →
      ∃ t, exec .tcamScan s = .next t ∧
        (t.ump.tcamBad = [] ∧ t.ump.patBad = [] ∧
         t.get UMP_TCAM_PAR_COUNT = min (s.get UMP_TCAM_PAR_COUNT + (s.ump.tcamBad.length + s.ump.patBad.length)) (2 ^ UMP_TCAM_PAR_COUNT.w - 1) ∧
         Emits 0x0401 0 (args 0 i) s t ∧ RegsButE [UMP_TCAM_PAR] s t ∧ t.ump.pinholes = s.ump.pinholes ∧ t.fab = s.fab))) ∧
  (∀ (s : State) (src : CmdSrc) (d : Desc),
      s.takesCommand d [0, 1] false →
      descBits d 16 8 < 2 →
      descBits d 17 8 < 16 →
      descZero d 18 64 = true →
      s.pdOn 4 = true →
      ∃ t, exec (.pinholeFlush src d) s = .next t ∧
        (t.ump.pinholes = (if descBits d 16 8 = 0 then [] else s.ump.pinholes.filter fun e => !(e.2.retZone == descBits d 17 4 || bit e.2.from_ (descBits d 17 4))) ∧
         t.get UMP_PH_STATUS_USED = t.ump.pinholes.length % 2 ^ UMP_PH_STATUS_USED.w ∧ Completes src d 0 0 s t ∧
         RegsButE (UMP_PH_STATUS :: replyRegs) s t ∧ HostKeptR 0 0 s t ∧ { t.lessReply s with ump := s.ump } = s)) ∧
  (∀ (s : State) (src : CmdSrc) (d : Desc),
      s.takesCommand d [0, 1] false →
      dumpOk src d 16384 = true →
      s.pdOn 4 = true →
      ∃ t, exec (.pinholeDump src d) s = .next t ∧
        (Wrote (descBits d 16 64) (dumpImage (s.ump.pinholes.map fun e => (e.1, e.2.image s.ump.second)) (descBits d 24 32) (descBits d 28 32)) s t ∧
         Completes src d 0 0 s t ∧ RegsButE replyRegs s t ∧ HostKeptR (descBits d 16 64) (16 + 48 * (descBits d 28 32)) s t ∧ t.lessReply s = s)) ∧
  (∀ (s : State) (who : Initiator) (unit : ImgUnit) (value : Word),
      s.takesWrite who (imgReg unit) (withBit value 31) →
      bit (s.rd (imgReg unit)).toNat 31 = false →
      ∃ t, exec (.imgEnable who unit value) s = .next t ∧
        (bit (t.rd (imgReg unit)).toNat 31 = true ∧ t.on (unitImgBusy unit) = true ∧ t.on (unitImgValid unit) = false ∧
         RegsBut [imgReg unit, (unitImgBusy unit).addr, (unitImgValid unit).addr] s t ∧ { t with regs := s.regs } = s)) ∧
  (∀ (s : State) (unit : ImgUnit) (ok : Bool),
      s.up (unitIsland unit) = true →
      s.on (unitImgBusy unit) = true →
      s.pwr.goal = none →
      s.pwr.want = 0 ∨ bit s.pwr.want (domainOf (unitIsland unit) 0) = true →
      ∃ t, exec (.imageWriteDone unit ok) s = .next t ∧
        (t.on (unitImgBusy unit) = false ∧
         (if ok = true ∧ s.dramReady = true then t.on (unitImgValid unit) = true ∧
             SMap.find t.dram.images (s.imgKey unit) = some (bankOnly (unitClasses unit) s.fab.active)
           else t.dram = s.dram ∧ t.get (unitImgValid unit) = s.get (unitImgValid unit)) ∧
         RegsBut [(unitImgBusy unit).addr, (unitImgValid unit).addr, INJ_ARM 10] s t ∧ { t with regs := s.regs, dram := s.dram } = s)) ∧
  (∀ (s : State) (unit : ImgUnit) (ok : Bool),
      s.up (unitIsland unit) = true →
      s.pwr.loading.contains (unitIdx unit) = true →
      s.power ≠ 5 →
      ok = false →
      unit = .ump →
      ∃ t, exec (.imageLoadDone unit ok) s = .next t ∧
        (t.on (unitReady unit) = true ∧ t.on (unitClosed unit) = true ∧ t.pwr.loading = s.pwr.loading.filter (· ≠ unitIdx unit) ∧
         Emits 0x0400 0 0 s t ∧ (s.dram.badWords = [] → HostKeptE 2 s t ∧ t.dram = s.dram ∧ (s.cox.coresHeld = true ∨ s.commitState ≠ 0 ∨ s.frozen = true ∨ s.power = 2 → RegsOutE [block 8, (GLB_STAGED, GLB_STAGED + 4)] s t)))) ∧
  (∀ (s : State) (unit : ImgUnit) (ok : Bool),
      s.up (unitIsland unit) = true →
      s.pwr.loading.contains (unitIdx unit) = true →
      s.power ≠ 5 →
      ok = true →
      s.imageThere unit = true →
      s.dram.badWords = [] →
      ∃ t, exec (.imageLoadDone unit ok) s = .next t ∧
        (t.on (unitReady unit) = true ∧ t.on (unitImgValid unit) = true ∧ t.pwr.loading = s.pwr.loading.filter (· ≠ unitIdx unit) ∧
         bankOnly (unitClasses unit) t.fab.active = bankOnly (unitClasses unit) (SMap.get s.dram.images [] (s.imgKey unit)) ∧ t.dram = s.dram ∧ HostKept s t))

/-- R257–R266: the register rows of a time domain on an accepted write, and the end of a slew. -/
def Obligations.DomainsAndTime : Prop :=
  (∀ (s : State) (who : Initiator) (d : Fin 4) (value : Word),
      s.takesWrite who (TIM_DOM_CFG d.val) (withBit value 0) →
      s.domEn d.val = false →
      ∃ t, exec (.domainEnable who d value) s = .next t ∧
        (t.domEn d.val = true ∧ t.domTime d.val = 0 ∧ t.domState d.val = 0 ∧ SMap.get t.tim.slew 0 d.val = 0 ∧ t.on (TIM_DOM_STATUS_JUMP_REFUSED d.val) = false ∧
         ((List.range 4).all fun k => k == d.val || t.domTime k == s.domTime k) = true ∧ RegsOutE [(0xD00000, 0xE00000), (0xA00000, 0xC00000), (0x1000000, 0x1100000)] s t ∧ HostKept s t)) ∧
  (∀ (s : State) (who : Initiator) (d : Fin 4) (value : Word),
      s.takesWrite who (TIM_DOM_CFG d.val) (noBit value 0) →
      s.domEn d.val = true →
      ∃ t, exec (.domainDisable who d value) s = .next t ∧
        (t.domEn d.val = false ∧ t.domTime d.val = 0 ∧ t.domState d.val = 0 ∧ SMap.get t.tim.slew 0 d.val = 0 ∧
         ((List.range 4).all fun k => k == d.val || t.domTime k == s.domTime k) = true ∧ RegsOutE [(0xD00000, 0xE00000), (0xA00000, 0xC00000), (0x1000000, 0x1100000)] s t ∧ HostKept s t)) ∧
  (∀ (s : State) (who : Initiator) (d : Fin 4) (value : Word),
      s.takesWrite who (TIM_INCR d.val) value →
      ∃ t, exec (.incrWrite who d value) s = .next t ∧
        (t.rd (TIM_INCR d.val) = value ∧ (s.domState d.val ≠ 2 → t.rd (TIM_INCR_AVG d.val) = s.rd (TIM_INCR_AVG d.val)) ∧
         (s.domState d.val = 2 → t.rd (TIM_INCR_AVG d.val) = BitVec.ofNat 32 (((s.rd (TIM_INCR_AVG d.val)).toNat : Int) +
           (((value.toNat : Int) - (s.rd (TIM_INCR_AVG d.val)).toNat).tdiv (2 ^ s.get (TIM_SERVO_CFG_AVG_LOG d.val)))).toNat) ∧
         (s.domState d.val ≠ 2 ∨ SMap.get s.tim.place 0 d.val ≤ 6 → t.domTime d.val = s.domTime d.val) ∧ RegsBut ([TIM_INCR d.val, TIM_INCR_AVG d.val] ++ ((List.range 4).flatMap fun k => [TIM_SLEW_LEFT k, TIM_DOM_STATUS k])) s t ∧
         { t with regs := s.regs, refTicks := s.refTicks, tim := s.tim, pwr := { t.pwr with aon := s.pwr.aon } } = s)) ∧
  (∀ (s : State) (who : Initiator) (d : Fin 4) (value : Word),
      s.takesWrite who (TIM_SLEW d.val) value →
      s.domEn d.val = true →
      s.domState d.val ≠ 2 ∨ (s.injArmedFor 18 d.val = false ∧ s.on (TIM_DOM_STATUS_JUMP_REFUSED d.val) = false ∧ (sext 32 value.toNat).natAbs ≤ s.get (TIM_JUMP_LIMIT_LIMIT d.val)) →
      ∃ t, exec (.slewWrite who d value) s = .next t ∧
        (SMap.get t.tim.slew 0 d.val = sext 32 value.toNat * slewUnit ∧ t.get (TIM_SLEW_LEFT_LEFT d.val) = value.toNat ∧
         t.on (TIM_DOM_STATUS_SLEW_BUSY d.val) = (value != 0) ∧ t.domTime d.val = s.domTime d.val ∧ RegsOutE [(0xD00000, 0xE00000), (0xA00000, 0xC00000), (0x1000000, 0x1100000)] s t ∧ HostKept s t)) ∧
  (∀ (s : State) (who : Initiator) (d : Fin 4) (value : Word),
      s.takesWrite who (TIM_SLEW d.val) value →
      s.domEn d.val = true →
      s.domState d.val = 2 →
      s.injArmedFor 18 d.val = false →
      s.on (TIM_DOM_STATUS_JUMP_REFUSED d.val) = true ∨ s.get (TIM_JUMP_LIMIT_LIMIT d.val) < (sext 32 value.toNat).natAbs →
      ∃ t, exec (.slewWrite who d value) s = .next t ∧
        (t.on (TIM_DOM_STATUS_JUMP_REFUSED d.val) = true ∧ t.get (TIM_REFUSED_OFFSET_OFFSET d.val) = wrapInt 64 (sext 32 value.toNat) ∧
         t.get (TIM_STEP_REFUSED_COUNT d.val) = min (s.get (TIM_STEP_REFUSED_COUNT d.val) + 1) (2 ^ (TIM_STEP_REFUSED_COUNT d.val).w - 1) ∧
         SMap.get t.tim.slew 0 d.val = SMap.get s.tim.slew 0 d.val ∧
         Emits 0x0600 d.val (args (wrapInt 64 (sext 32 value.toNat)) (wrapInt 64 (sext 32 value.toNat) / 2 ^ 32)) s t ∧
         RegsOutE [(0xD00000, 0xE00000), (0xA00000, 0xC00000), (0x1000000, 0x1100000)] s t ∧ HostKeptE 2 s t)) ∧
  (∀ (s : State) (who : Initiator) (d : Fin 4) (upper : Word),
      s.takesWrite who (TIM_STEP d.val + 4) upper →
      s.commitState ≠ 2 →
      s.domEn d.val = true →
      s.domState d.val ≠ 2 →
      ∃ t, exec (.timeStep who d upper) s = .next t ∧
        ((t.domTime d.val : Int) = (s.tick.domTime d.val : Int) + sext 64 (upper.toNat * 2 ^ 32 + (s.rd (TIM_STEP d.val)).toNat) * 2 ^ 28 ∧
         t.get (TIM_DOM_STATUS_STEP_SEQ d.val) = (s.get (TIM_DOM_STATUS_STEP_SEQ d.val) + 1) % 4 ∧
         ((List.range 4).all fun k => k == d.val || t.domTime k == s.tick.domTime k) = true ∧ RegsOutE [(0xD00000, 0xE00000), (0xA00000, 0xC00000), (0x1000000, 0x1100000)] s t)) ∧
  (∀ (s : State) (who : Initiator) (d : Fin 4) (upper : Word),
      s.takesWrite who (TIM_STEP d.val + 4) upper →
      s.commitState ≠ 2 →
      s.domEn d.val = true →
      s.domState d.val = 2 →
      s.injArmedFor 18 d.val = false →
      s.get (TIM_JUMP_LIMIT_LIMIT d.val) < (sext 64 (upper.toNat * 2 ^ 32 + (s.rd (TIM_STEP d.val)).toNat)).natAbs →
      ∃ t, exec (.timeStep who d upper) s = .next t ∧
        (t.domTime d.val = s.domTime d.val ∧ t.on (TIM_DOM_STATUS_JUMP_REFUSED d.val) = true ∧ t.get (TIM_STEP_REFUSED_COUNT d.val) = min (s.get (TIM_STEP_REFUSED_COUNT d.val) + 1) (2 ^ (TIM_STEP_REFUSED_COUNT d.val).w - 1) ∧
         t.get (TIM_DOM_STATUS_STEP_SEQ d.val) = s.get (TIM_DOM_STATUS_STEP_SEQ d.val) ∧ RegsOutE [(0xD00000, 0xE00000), (0xA00000, 0xC00000), (0x1000000, 0x1100000)] s t ∧ HostKeptE 2 s t)) ∧
  (∀ (s : State) (who : Initiator) (d : Fin 4) (value : Word),
      s.takesWrite who (TIM_SET_NS d.val) (withBit value 31) →
      s.commitState ≠ 2 →
      s.domEn d.val = true →
      s.injArmedFor 17 d.val = false →
      ∃ t, exec (.timeSet who d value) s = .next t ∧
        (t.domTime d.val = (s.get (TIM_SET_SEC_SEC d.val) * 10 ^ 9 + bits value.toNat 0 30) * 2 ^ 28 ∧ t.domState d.val = 2 ∧
         t.rd (TIM_INCR_AVG d.val) = s.rd (TIM_INCR d.val) ∧
         ((List.range 4).all fun k => k == d.val || t.domTime k == s.tick.domTime k) = true ∧ RegsOutE [(0xD00000, 0xE00000), (0xA00000, 0xC00000), (0x1000000, 0x1100000)] s t)) ∧
  (∀ (s : State) (d : Fin 4),
      s.up .time = true →
      s.domEn d.val = true →
      SMap.get s.tim.slew 0 d.val ≠ 0 →
      ∃ t, exec (.slewDone d) s = .next t ∧
        ((t.domTime d.val : Int) = max 0 ((s.domTime d.val : Int) + (SMap.get s.tim.carry 0 d.val + SMap.get s.tim.slew 0 d.val) / 10 ^ 6) ∧
         SMap.get t.tim.slew 0 d.val = 0 ∧ t.on (TIM_DOM_STATUS_SLEW_BUSY d.val) = false ∧ t.get (TIM_SLEW_LEFT_LEFT d.val) = 0 ∧
         RegsBut [TIM_SLEW_LEFT d.val, TIM_DOM_STATUS d.val] s t ∧ { t with regs := s.regs, tim := s.tim } = s))

/-- R266–R269, R286–R288: who steers a domain. -/
def Obligations.ServosAndReanchor : Prop :=
  (∀ (s : State) (who : Initiator) (d : Fin 4),
      s.takesWrite who (TIM_SERVO_CTRL d.val) 1 →
      ∃ t, exec (.handover who d) s = .next t ∧
        (t.domState d.val = 3 ∧ t.get (TIM_DOM_STATUS_TAKE_CAUSE d.val) = 3 ∧ t.rd (TIM_INCR d.val) = s.rd (TIM_INCR_AVG d.val) ∧ t.domTime d.val = s.tick.domTime d.val ∧
         SMap.get t.tim.slew 0 d.val = 0 ∧ Emits 0x0601 d.val (args 3) s.tick t ∧ RegsOutE [(0xD00000, 0xE00000), (0xA00000, 0xC00000), (0x1000000, 0x1100000)] s t ∧ HostKeptE 2 s t)) ∧
  (∀ (s : State) (who : Initiator) (d : Fin 4),
      s.takesWrite who (TIM_SERVO_CTRL d.val) 2 →
      s.injArmedFor 17 d.val = false →
      ∃ t, exec (.takeback who d) s = .next t ∧
        (t.domState d.val = 2 ∧ t.rd (TIM_INCR_AVG d.val) = s.rd (TIM_INCR d.val) ∧ t.rd (TIM_INCR d.val) = s.rd (TIM_INCR d.val) ∧ t.domTime d.val = s.tick.domTime d.val ∧
         Emits 0x0602 d.val 0 s.tick t ∧ RegsOutE [(0xD00000, 0xE00000), (0xA00000, 0xC00000), (0x1000000, 0x1100000)] s t ∧ HostKeptE 2 s t)) ∧
  (∀ (s : State) (d : Fin 4),
      s.up .time = true →
      s.domEn d.val = true →
      s.domState d.val = 2 →
      ∃ t, exec (.servoWatchdog d) s = .next t ∧
        (t.domState d.val = 3 ∧ t.get (TIM_DOM_STATUS_TAKE_CAUSE d.val) = 1 ∧ t.rd (TIM_INCR d.val) = s.rd (TIM_INCR_AVG d.val) ∧ t.domTime d.val = (s.inPlace d.val 4).domTime d.val ∧
         Emits 0x0601 d.val (args 1) (s.inPlace d.val 4) t ∧ RegsOutE [(0xD00000, 0xE00000), (0xA00000, 0xC00000), (0x1000000, 0x1100000)] s t ∧ HostKeptE 2 s t)) ∧
  (∀ (s : State) (d : Fin 4),
      s.up .time = true →
      s.domEn d.val = true →
      s.domState d.val = 4 →
      ∃ t, exec (.lockLoss d) s = .next t ∧
        (t.domState d.val = 3 ∧ SMap.get t.tim.good 0 d.val = 0 ∧ SMap.find t.tim.lastGood d.val = none ∧ t.rd (TIM_INCR d.val) = s.rd (TIM_INCR d.val) ∧
         RegsBut [TIM_DOM_STATUS d.val] s t ∧ { t with regs := s.regs, tim := { t.tim with good := s.tim.good, lastGood := s.tim.lastGood } } = s)) ∧
  (∀ (s : State) (src : CmdSrc) (d : Desc),
      s.takesCommand d [0, 1] true →
      s.reanchorOk d = true →
      s.commitState ≠ 2 →
      s.reanchorRefused src d = none →
      ∃ t, exec (.reanchor src d) s = .next t ∧
        ((t.domTime (descBits d 16 2) : Int) = ((s.inPlace (descBits d 16 2) 2).domTime (descBits d 16 2) : Int) + s.reanchorBy d * 2 ^ 28 ∧
         t.on (TIM_DOM_STATUS_JUMP_REFUSED (descBits d 16 2)) = false ∧ t.domState (descBits d 16 2) = 2 ∧
         t.get (TIM_DOM_STATUS_STEP_SEQ (descBits d 16 2)) = (s.get (TIM_DOM_STATUS_STEP_SEQ (descBits d 16 2)) + 1) % 4 ∧
         ⟨0x0603, descBits d 16 2, t.short 0, args (wrapInt 64 (s.reanchorBy d)) (wrapInt 64 (s.reanchorBy d) / 2 ^ 32)⟩ ∈ t.cox.events.drop s.cox.events.length)) ∧
  (∀ (s : State) (src : CmdSrc) (d : Desc),
      s.takesCommand d [0, 1] true →
      s.reanchorOk d = true →
      s.pdOn 2 = true →
      s.domEn (descBits d 16 2) = true →
      s.domState (descBits d 16 2) ≠ 2 →
      ∃ t, exec (.reanchor src d) s = .next t ∧
        (t.tim = s.tim ∧ Completes src d 4 0 s t ∧ RegsButE replyRegs s t ∧ HostKeptR 0 0 s t ∧ t.lessReply s = s))

/-- R258, R278–R282, R290, R291: Catch, Buoy, snapshot and time reads. -/
def Obligations.CatchBuoyAndReads : Prop :=
  (∀ (s : State) (who : Initiator) (c : Fin 16) (value : Word),
      s.takesWrite who (TIM_CATCH_CFG c.val) (withBit value 1) →
      s.on (TIM_CATCH_CFG_ARM c.val) = false →
      ∃ t, exec (.catchArm who c value) s = .next t ∧
        ((t.catchLimits c.val = false → t.on (TIM_CATCH_STATUS_CFG_ERR c.val) = true ∧ t.on (TIM_CATCH_CFG_ARM c.val) = false ∧ t.tim.catchNext = s.tim.catchNext) ∧
         (t.catchLimits c.val = true → s.domNs (t.get (TIM_CATCH_CFG_DOMAIN c.val)) + 1000 ≤ t.catchStart c.val →
           t.on (TIM_CATCH_CFG_ARM c.val) = true ∧ SMap.find t.tim.catchNext c.val = some 0) ∧
         (t.catchLimits c.val = true → t.catchStart c.val < s.domNs (t.get (TIM_CATCH_CFG_DOMAIN c.val)) + 1000 → t.get (TIM_CATCH_PERIOD_PERIOD c.val) = 0 →
           t.on (TIM_CATCH_CFG_ARM c.val) = false ∧ t.on (TIM_CATCH_STATUS_MISSED c.val) = true ∧ Emits 0x0604 c.val 0 s t) ∧
         RegsButE [TIM_CATCH_CFG c.val, TIM_CATCH_STATUS c.val] s t ∧ HostKeptE 2 s t)) ∧
  (∀ (s : State) (who : Initiator) (c : Fin 16) (value : Word),
      s.takesWrite who (TIM_CATCH_CFG c.val) (noBit value 1) →
      s.on (TIM_CATCH_CFG_ARM c.val) = true →
      ∃ t, exec (.catchDisarm who c value) s = .next t ∧
        (t.on (TIM_CATCH_CFG_ARM c.val) = false ∧ SMap.find t.tim.catchNext c.val = none ∧
         (t.on (TIM_CATCH_CFG_EN c.val) = true → SMap.get t.tim.catchPulse false c.val = SMap.get s.tim.catchPulse false c.val) ∧
         RegsBut [TIM_CATCH_CFG c.val, TIM_CATCH_STATUS c.val] s t ∧ HostKept s t)) ∧
  (∀ (s : State) (c : Fin 16),
      (∀ k : Nat, SMap.find s.tim.catchNext c.val = some k →
      s.up .time = true →
      s.domEn (s.get (TIM_CATCH_CFG_DOMAIN c.val)) = true →
      s.on (TIM_CATCH_CFG_ARM c.val) = true →
      s.catchDue c.val k = true →
      ∃ t, exec (.catchEdge c) s = .next t ∧
        (SMap.find t.tim.catchNext c.val = (if s.get (TIM_CATCH_PERIOD_PERIOD c.val) = 0 then none else some (k + 1)) ∧ SMap.get t.tim.catchPulse false c.val = true ∧
         t.on (TIM_CATCH_STATUS_ACTIVE c.val) = s.on (TIM_CATCH_CFG_EN c.val) ∧
         t.get (TIM_CATCH_PULSES_COUNT c.val) = (s.get (TIM_CATCH_PULSES_COUNT c.val) + 1) % 2 ^ 32 ∧
         bit t.pins.catchHigh c.val = (s.on (TIM_CATCH_CFG_EN c.val) && !s.on (TIM_CATCH_CFG_INVERT c.val)) ∧
         RegsBut [TIM_CATCH_STATUS c.val, TIM_CATCH_PULSES c.val] s t ∧ { t with regs := s.regs, tim := s.tim, pins := { t.pins with catchHigh := s.pins.catchHigh } } = s))) ∧
  (∀ (s : State) (c : Fin 16),
      s.up .time = true →
      SMap.get s.tim.catchPulse false c.val = true →
      ∃ t, exec (.catchPulseEnd c) s = .next t ∧
        (SMap.get t.tim.catchPulse false c.val = false ∧ t.on (TIM_CATCH_STATUS_ACTIVE c.val) = false ∧
         bit t.pins.catchHigh c.val = (s.on (TIM_CATCH_CFG_EN c.val) && s.on (TIM_CATCH_CFG_INVERT c.val)) ∧
         RegsBut [TIM_CATCH_STATUS c.val] s t ∧ { t with regs := s.regs, tim := s.tim, pins := { t.pins with catchHigh := s.pins.catchHigh } } = s)) ∧
  (∀ (s : State) (b : Fin 16) (rising : Bool),
      s.up .time = true →
      s.buoyTakes b.val rising = true →
      (SMap.get s.tim.buoyFifo [] b.val).length < 8 →
      (s.lockers b.val).isEmpty = true ∨ rising = false →
      ∃ t, exec (.buoyCapture b rising) s = .next t ∧
        (SMap.get t.tim.buoyFifo [] b.val = SMap.get s.tim.buoyFifo [] b.val ++ [⟨s.quarters (s.get (TIM_BUOY_CFG_DOMAIN b.val)), rising⟩] ∧
         t.on (TIM_BUOY_STATUS_PIN b.val) = rising ∧ t.get (TIM_BUOY_STATUS_LEVEL b.val) = (SMap.get s.tim.buoyFifo [] b.val).length + 1 ∧
         SMap.find t.tim.buoyLast b.val = some s.refTicks ∧ RegsOutE [(0xD02000, 0xD02400), block 0x15, (INJ_ARM 10, INJ_ARM 10 + 4)] s t ∧ HostKeptE 4 s t)) ∧
  (∀ (s : State) (who : Initiator) (b : Fin 16),
      s.takesWrite who (TIM_BUOY_POP b.val) 1 →
      ∃ t, exec (.buoyPop who b) s = .next t ∧
        (SMap.get t.tim.buoyFifo [] b.val = (SMap.get s.tim.buoyFifo [] b.val).drop 1 ∧
         t.get (TIM_BUOY_STATUS_LEVEL b.val) = ((SMap.get s.tim.buoyFifo [] b.val).drop 1).length % 2 ^ (TIM_BUOY_STATUS_LEVEL b.val).w ∧
         RegsBut [TIM_BUOY_STATUS b.val, TIM_BUOY_HEAD_NS b.val, TIM_BUOY_HEAD_FRAC b.val, TIM_BUOY_HEAD_SEC b.val, TIM_BUOY_HEAD_SEC b.val + 4] s t ∧
         { t with regs := s.regs, tim := { t.tim with buoyFifo := s.tim.buoyFifo } } = s)) ∧
  (∀ (s : State) (who : Initiator),
      s.takesWrite who TIM_SNAP_CTRL 1 →
      ∃ t, exec (.snapshotCapture who) s = .next t ∧
        (t.on TIM_SNAP_CTRL_DONE = true ∧ ((List.range 4).all fun d => !s.domEn d ||
           (t.get (TIM_SNAP_SEC_SEC d) == s.domNs d / 10 ^ 9 % 2 ^ (TIM_SNAP_SEC_SEC d).w && t.get (TIM_SNAP_NS_NS d) == s.domNs d % 10 ^ 9)) = true ∧
         RegsBut (TIM_SNAP_CTRL :: (List.range 4).flatMap fun d => [TIM_SNAP_SEC d, TIM_SNAP_SEC d + 4, TIM_SNAP_NS d]) s t ∧ { t with regs := s.regs } = s)) ∧
  (∀ (s : State) (who : Initiator) (d : Fin 4),
      who ≠ .cfg →
      s.hostTurned who = false →
      s.busFree →
      s.up .time = true →
      ∃ t, exec (.timeNowRead who d) s = .next t ∧
        (t.readData = BitVec.ofNat 32 (s.domNs d.val % 10 ^ 9) ∧ t.get (TIM_NOW_FRAC_FRAC d.val) = s.domTime d.val / 2 ^ 12 % 65536 ∧
         t.get (TIM_NOW_SEC_SEC d.val) = s.domNs d.val / 10 ^ 9 % 2 ^ (TIM_NOW_SEC_SEC d.val).w ∧ t.tim.now = s.tim.now ∧ RegsOutE [(0xD00000, 0xD00400)] s t ∧ HostKept s t ∧
         { t with regs := s.regs, readData := s.readData, latch := s.latch } = s))

/-- R292–R297, R301: the rows of a CAN channel. The steps of the error counters are ISO 11898-1's, as the log presumes. -/
def Obligations.CanChannels : Prop :=
  (∀ (s : State) (who : Initiator) (c : Fin 32) (value : Word),
      s.takesWrite who (EDG_CAN_CTRL c.val) (withBit value 0) →
      s.on (EDG_CAN_CTRL_ENABLE c.val) = false →
      s.canState c.val = 0 →
      bit value.toNat 4 = false →
      ∃ t, exec (.canEnable who c value) s = .next t ∧
        (t.on (EDG_CAN_CTRL_ENABLE c.val) = true ∧ t.canState c.val = (if s.on RIG_STATUS_READY then 1 else 0) ∧
         RegsBut [EDG_CAN_CTRL c.val, EDG_CAN_STATUS c.val] s t ∧ { t with regs := s.regs } = s)) ∧
  (∀ (s : State) (who : Initiator) (c : Fin 32) (value : Word),
      s.takesWrite who (EDG_CAN_CTRL c.val) (noBit value 0) →
      s.on (EDG_CAN_CTRL_ENABLE c.val) = true →
      bit value.toNat 4 = false →
      ∃ t, exec (.canDisable who c value) s = .next t ∧
        (t.canState c.val = 0 ∧ t.get (EDG_CAN_STATUS_TEC c.val) = 0 ∧ t.get (EDG_CAN_STATUS_REC c.val) = 0 ∧
         t.canSt c.val = { s.canSt c.val with txErr := 0, rxErr := 0, sending := none, recovering := false } ∧
         RegsBut [EDG_CAN_CTRL c.val, EDG_CAN_STATUS c.val] s t ∧ { t with regs := s.regs, edge := s.edge } = s)) ∧
  (∀ (s : State) (who : Initiator) (c : Fin 32),
      s.takesWrite who (EDG_CAN_CTRL c.val) (withBit (s.rd (EDG_CAN_CTRL c.val)) 4) →
      s.canState c.val = 4 →
      ∃ t, exec (.canRecover who c) s = .next t ∧
        (t.canState c.val = 1 ∧ (t.canSt c.val).recovering = true ∧ t.rd (EDG_CAN_CTRL c.val) = s.rd (EDG_CAN_CTRL c.val) ∧
         RegsBut [EDG_CAN_STATUS c.val] s t ∧ { t with regs := s.regs, edge := s.edge } = s)) ∧
  (∀ (s : State) (c : Fin 32),
      s.up .edge = true →
      s.canState c.val = 1 →
      (s.canSt c.val).recovering = false →
      (s.canSt c.val).txErr < 128 →
      (s.canSt c.val).rxErr < 128 →
      ∃ t, exec (.canBusIdle c) s = .next t ∧
        (t.canState c.val = 2 ∧ RegsBut [EDG_CAN_STATUS c.val] s t ∧ { t with regs := s.regs } = s)) ∧
  (∀ (s : State) (c : Fin 32) (f : CanFrame),
      s.canOn c.val = true →
      f.fmt = 0 →
      f.rtr = true →
      (s.canSt c.val).rxErr < 128 →
      (s.canSt c.val).txErr < 128 →
      ∃ t, exec (.canFrameRx c f) s = .next t ∧
        (t.get (EDG_CAN_RX_RTR_COUNT c.val) = min (s.get (EDG_CAN_RX_RTR_COUNT c.val) + 1) (2 ^ (EDG_CAN_RX_RTR_COUNT c.val).w - 1) ∧ (t.canSt c.val).rxErr = (s.canSt c.val).rxErr - 1 ∧ t.canState c.val = 2 ∧
         (t.canSt c.val).sending = none ∧ (t.canSt c.val).boxes = (s.canSt c.val).boxes ∧
         RegsBut [EDG_CAN_STATUS c.val, EDG_CAN_RX_RTR c.val] s t ∧ { t with regs := s.regs, edge := s.edge } = s)) ∧
  (∀ (s : State) (c : Fin 32) (f : CanFrame),
      s.canOn c.val = true →
      f.fmt = 0 →
      f.rtr = false →
      (s.canSt c.val).rxErr < 128 →
      (s.canSt c.val).txErr < 128 →
      s.on (INJ_ARM_ARM 20) = false →
      ((pdusOf s.fab.active).any fun p => canMatches p.2 c.val f) = false →
      (tunsOf s.fab.active).isEmpty = true →
      ∃ t, exec (.canFrameRx c f) s = .next t ∧
        (t.get (EDG_CAN_RX_UNMATCHED_COUNT c.val) = min (s.get (EDG_CAN_RX_UNMATCHED_COUNT c.val) + 1) (2 ^ (EDG_CAN_RX_UNMATCHED_COUNT c.val).w - 1) ∧ (t.canSt c.val).rxErr = (s.canSt c.val).rxErr - 1 ∧ t.canState c.val = 2 ∧
         t.edge.pdus = s.edge.pdus ∧ RegsBut [EDG_CAN_STATUS c.val, EDG_CAN_RX_UNMATCHED c.val] s t ∧ { t with regs := s.regs, edge := s.edge } = s)) ∧
  (∀ (s : State) (c : Fin 32) (e : CanErr),
      s.canOn c.val = true →
      e.tx = false →
      e.code ≠ 0 →
      e.code ≠ 7 →
      (s.canSt c.val).rxErr < 127 →
      (s.canSt c.val).txErr < 128 →
      ∃ t, exec (.canError c e) s = .next t ∧
        (t.get (EDG_CAN_STATUS_LAST_ERR c.val) = e.code.val ∧ t.get (EDG_CAN_ERR_CNT_COUNT c.val) = min (s.get (EDG_CAN_ERR_CNT_COUNT c.val) + 1) (2 ^ (EDG_CAN_ERR_CNT_COUNT c.val).w - 1) ∧
         (t.canSt c.val).rxErr = (s.canSt c.val).rxErr + 1 ∧ t.get (EDG_CAN_STATUS_REC c.val) = (s.canSt c.val).rxErr + 1 ∧ t.canState c.val = 2 ∧
         RegsBut [EDG_CAN_STATUS c.val, EDG_CAN_ERR_CNT c.val] s t ∧ { t with regs := s.regs, edge := s.edge } = s)) ∧
  (∀ (s : State) (c : Fin 32) (e : CanErr),
      s.canOn c.val = true →
      e.tx = false →
      e.code = 7 →
      ∃ t, exec (.canError c e) s = .next t ∧
        (t.canState c.val = 1 ∧ t.get (EDG_CAN_STATUS_LAST_ERR c.val) = 7 ∧ t.on (EDG_CAN_EVENT_PROTOCOL_EXC c.val) = true ∧
         t.get (EDG_CAN_ERR_CNT_COUNT c.val) = min (s.get (EDG_CAN_ERR_CNT_COUNT c.val) + 1) (2 ^ (EDG_CAN_ERR_CNT_COUNT c.val).w - 1) ∧ (t.canSt c.val).rxErr = (s.canSt c.val).rxErr ∧
         RegsBut [EDG_CAN_STATUS c.val, EDG_CAN_ERR_CNT c.val, EDG_CAN_EVENT c.val] s t ∧ { t with regs := s.regs, edge := s.edge } = s)) ∧
  (∀ (s : State) (c : Fin 32),
      s.up .edge = true →
      (s.canSt c.val).recovering = true →
      ∃ t, exec (.canRecoveryDone c) s = .next t ∧
        (t.canState c.val = 2 ∧ (t.canSt c.val).recovering = false ∧ t.get (EDG_CAN_STATUS_TEC c.val) = 0 ∧ t.get (EDG_CAN_STATUS_REC c.val) = 0 ∧
         t.on (EDG_CAN_EVENT_RECOVERED c.val) = true ∧ t.get (EDG_CAN_BUSOFF_CNT_COUNT c.val) = min (s.get (EDG_CAN_BUSOFF_CNT_COUNT c.val) + 1) (2 ^ (EDG_CAN_BUSOFF_CNT_COUNT c.val).w - 1) ∧
         RegsBut [EDG_CAN_STATUS c.val, EDG_CAN_EVENT c.val, EDG_CAN_BUSOFF_CNT c.val] s t ∧ { t with regs := s.regs, edge := s.edge } = s)) ∧
  (∀ (s : State) (c : Fin 32),
      s.canOn c.val = true →
      s.get (EDG_CAN_CTRL_MODE c.val) = 0 →
      (s.canSt c.val).sending = none →
      s.injArmedFor 21 c.val = false →
      (∀ x : Nat × CanTx, canBest ((s.canPrune c.val).canQueue c.val) = some x →
      ∃ t, exec (.canTxStart c) s = .next t ∧
        ((t.canSt c.val).sending = some x ∧ s.canLate x.2 = false ∧ (t.canSt c.val).fifo = (s.canSt c.val).fifo.filter (fun y => !s.canLate y) ∧
         t.edge.canOut = s.edge.canOut ∧ RegsBut [EDG_CAN_TX_LATE_DROP c.val] s t ∧ { t with regs := s.regs, edge := s.edge } = s))) ∧
  (∀ (s : State) (c : Fin 32),
      (∀ x : Nat × CanTx, (s.canSt c.val).sending = some x →
      s.bankDrives 11 = true →
      s.canOn c.val = true →
      (s.canSt c.val).txErr < 128 →
      (s.canSt c.val).rxErr < 128 →
      ∃ t, exec (.canTxDone c) s = .next t ∧
        (t.canSt c.val = canSent (s.canSt c.val) x ∧ t.edge.canOut = s.edge.canOut ++ [(c.val, s.canOnBus c.val x.2)] ∧ t.canState c.val = 2 ∧
         t.get (EDG_CAN_TX_FRAMES_COUNT c.val) = min (s.get (EDG_CAN_TX_FRAMES_COUNT c.val) + 1) (2 ^ (EDG_CAN_TX_FRAMES_COUNT c.val).w - 1) ∧ t.get (EDG_CAN_LAST_TX_SHORT c.val) = (s.canSt c.val).sof % 2 ^ 32 ∧
         RegsBut [EDG_CAN_STATUS c.val, EDG_CAN_TX_FRAMES c.val, EDG_CAN_LAST_TX c.val] s t ∧ { t with regs := s.regs, edge := s.edge } = s))) ∧
  (∀ (s : State) (c : Fin 32),
      s.up .edge = true →
      (∀ r : Nat × Nat × CanTx, s.canEarliest c.val = some r →
      ∃ t, exec (.canTxDeadline c) s = .next t ∧
        (t.canSt c.val = (if r.1 = 32 then { s.canSt c.val with fifo := (s.canSt c.val).fifo.eraseIdx r.2.1 } else { s.canSt c.val with boxes := SMap.erase (s.canSt c.val).boxes r.1 }) ∧
         t.get (EDG_CAN_TX_LATE_DROP_COUNT c.val) = min (s.get (EDG_CAN_TX_LATE_DROP_COUNT c.val) + 1) (2 ^ (EDG_CAN_TX_LATE_DROP_COUNT c.val).w - 1) ∧ RegsBut [EDG_CAN_TX_LATE_DROP c.val] s t ∧ { t with regs := s.regs, edge := s.edge } = s)))

/-- R298–R301, R305: the rows of a LIN channel. PID parity and checksum are ISO 17987's, as the log presumes. -/
def Obligations.LinChannels : Prop :=
  (∀ (s : State) (who : Initiator) (l : Fin 16) (value : Word),
      s.takesWrite who (EDG_LIN_CTRL l.val) (withBit value 2) →
      linRuns (s.rd (EDG_LIN_CTRL l.val)).toNat = false →
      bit value.toNat 0 = true →
      bit value.toNat 1 = false →
      bit value.toNat 3 = false →
      ∃ t, exec (.linRun who l value) s = .next t ∧
        (t.on (EDG_LIN_CTRL_RUN l.val) = true ∧ t.get (EDG_LIN_SCHED_SLOT l.val) = 0 ∧ t.get (EDG_LIN_SCHED_ACTIVE l.val) = s.get (EDG_LIN_SCHED_TABLE l.val) ∧
         t.linSt l.val = { s.linSt l.val with next := 0, running := true, wait := none } ∧ t.edge.linOut = s.edge.linOut ∧
         RegsBut [EDG_LIN_CTRL l.val, EDG_LIN_SCHED l.val, EDG_LIN_STATUS l.val] s t ∧ { t with regs := s.regs, edge := s.edge } = s)) ∧
  (∀ (s : State) (who : Initiator) (l : Fin 16) (value : Word),
      s.takesWrite who (EDG_LIN_CTRL l.val) (noBit value 2) →
      bit value.toNat 0 = true →
      bit value.toNat 3 = false →
      ∃ t, exec (.linStop who l value) s = .next t ∧
        (t.on (EDG_LIN_CTRL_RUN l.val) = false ∧ t.linSt l.val = s.linSt l.val ∧ RegsBut [EDG_LIN_CTRL l.val, EDG_LIN_STATUS l.val] s t ∧ { t with regs := s.regs } = s)) ∧
  (∀ (s : State) (who : Initiator) (l : Fin 16) (value : Word),
      s.takesWrite who (EDG_LIN_SCHED l.val) value →
      ∃ t, exec (.linTableSelect who l value) s = .next t ∧
        (t.get (EDG_LIN_SCHED_TABLE l.val) = bits value.toNat (EDG_LIN_SCHED_TABLE l.val).lo (EDG_LIN_SCHED_TABLE l.val).w ∧ t.get (EDG_LIN_SCHED_ACTIVE l.val) = s.get (EDG_LIN_SCHED_ACTIVE l.val) ∧
         t.get (EDG_LIN_SCHED_SLOT l.val) = s.get (EDG_LIN_SCHED_SLOT l.val) ∧ RegsBut [EDG_LIN_SCHED l.val] s t ∧ { t with regs := s.regs } = s)) ∧
  (∀ (s : State) (l : Fin 16),
      s.linOn l.val false = true →
      (s.linSt l.val).running = true →
      s.on (EDG_LIN_CTRL_RUN l.val) = false →
      ∃ t, exec (.linSlotStart l) s = .next t ∧
        ((t.linSt l.val).running = false ∧ (t.linSt l.val).wait = none ∧ t.edge.linOut = s.edge.linOut ∧ RegsBut [EDG_LIN_STATUS l.val] s t ∧ { t with regs := s.regs, edge := s.edge } = s)) ∧
  (∀ (s : State) (l : Fin 16),
      s.linOn l.val false = true →
      (s.linSt l.val).running = true →
      s.on (EDG_LIN_CTRL_RUN l.val) = true →
      s.on (INJ_ARM_ARM 20) = false →
      s.get (EDG_LIN_SCHED_TABLE l.val) = s.get (EDG_LIN_SCHED_ACTIVE l.val) →
      s.linSlotOn l.val (s.get (EDG_LIN_SCHED_TABLE l.val)) (s.linSt l.val).next = false →
      s.linSlotOn l.val (s.get (EDG_LIN_SCHED_TABLE l.val)) 0 = false →
      ∃ t, exec (.linSlotStart l) s = .next t ∧
        (t.get (EDG_LIN_SCHED_SLOT l.val) = 0 ∧ (t.linSt l.val).next = 0 ∧ (t.linSt l.val).wait = none ∧ t.edge.linOut = s.edge.linOut ∧
         RegsBut [EDG_LIN_SCHED l.val] s t ∧ { t with regs := s.regs, edge := s.edge } = s)) ∧
  (∀ (s : State) (l : Fin 16),
      s.linOn l.val false = true →
      (s.linSt l.val).running = true →
      s.on (EDG_LIN_CTRL_RUN l.val) = true →
      s.on (INJ_ARM_ARM 20) = false →
      (∀ k : Nat, some (s.linSlotAt l.val (s.get (EDG_LIN_SCHED_TABLE l.val)) (if s.get (EDG_LIN_SCHED_TABLE l.val) = s.get (EDG_LIN_SCHED_ACTIVE l.val) then (s.linSt l.val).next else 0)) = some k →
      s.linSlotOn l.val (s.get (EDG_LIN_SCHED_TABLE l.val)) k = true →
      (∀ p : Nat, some (ebits (s.tab 12 (4096 + 256 * l.val + 64 * s.get (EDG_LIN_SCHED_TABLE l.val) + k)) 2 0 12) = some p →
      s.rigBroken 1 p = false →
      pduValid (s.tab 12 p) = true →
      pduBus (s.tab 12 p) = 1 →
      pduChan (s.tab 12 p) = l.val →
      s.bankDrives 11 = true →
      pduDir (s.tab 12 p) = 0 →
      ∃ t, exec (.linSlotStart l) s = .next t ∧
        (t.get (EDG_LIN_SCHED_SLOT l.val) = k ∧ t.get (EDG_LIN_SCHED_ACTIVE l.val) = s.get (EDG_LIN_SCHED_TABLE l.val) ∧ (t.linSt l.val).next = k + 1 ∧
         (t.linSt l.val).wait = some (pduId (s.tab 12 p), p) ∧
         t.edge.linOut = s.edge.linOut ++ [{ channel := l.val, pid := some (linPid (pduId (s.tab 12 p))), header := true, resp := [] }] ∧
         RegsBut [EDG_LIN_SCHED l.val] s t ∧ { t with regs := s.regs, edge := s.edge } = s)))) ∧
  (∀ (s : State) (l : Fin 16),
      s.linOn l.val false = true →
      (s.linSt l.val).running = true →
      s.on (EDG_LIN_CTRL_RUN l.val) = true →
      s.on (INJ_ARM_ARM 20) = false →
      (∀ k : Nat, some (s.linSlotAt l.val (s.get (EDG_LIN_SCHED_TABLE l.val)) (if s.get (EDG_LIN_SCHED_TABLE l.val) = s.get (EDG_LIN_SCHED_ACTIVE l.val) then (s.linSt l.val).next else 0)) = some k →
      s.linSlotOn l.val (s.get (EDG_LIN_SCHED_TABLE l.val)) k = true →
      (∀ p : Nat, some (ebits (s.tab 12 (4096 + 256 * l.val + 64 * s.get (EDG_LIN_SCHED_TABLE l.val) + k)) 2 0 12) = some p →
      s.rigBroken 1 p = false →
      pduValid (s.tab 12 p) = true →
      pduBus (s.tab 12 p) = 1 →
      pduChan (s.tab 12 p) = l.val →
      s.bankDrives 11 = true →
      pduDir (s.tab 12 p) = 1 →
      s.routesTo p = [] →
      ∃ t, exec (.linSlotStart l) s = .next t ∧
        (t.get (EDG_LIN_SCHED_SLOT l.val) = k ∧ (t.linSt l.val).next = k + 1 ∧ (t.linSt l.val).wait = none ∧
         t.edge.linOut = s.edge.linOut ++ [{ channel := l.val, pid := some (linPid (pduId (s.tab 12 p))), header := true, resp := sliceBytes (s.pduSt p).buf 0 (pduLen (s.tab 12 p)) ++ [BitVec.ofNat 8 (linCheck (s.tab 12 p) (sliceBytes (s.pduSt p).buf 0 (pduLen (s.tab 12 p))))] }] ∧
         t.get (EDG_LIN_TX_COUNT l.val) = min (s.get (EDG_LIN_TX_COUNT l.val) + 1) (2 ^ (EDG_LIN_TX_COUNT l.val).w - 1) ∧ RegsBut [EDG_LIN_SCHED l.val, EDG_LIN_TX l.val] s t ∧ { t with regs := s.regs, edge := s.edge } = s)))) ∧
  (∀ (s : State) (l : Fin 16) (pid : Byte),
      s.linOn l.val true = true →
      linPid (pid.toNat % 64) = pid.toNat →
      s.on (INJ_ARM_ARM 20) = false →
      s.livePdus.find? (linMatches l.val 1 (pid.toNat % 64)) = none →
      (∀ p : Nat × Nat, s.livePdus.find? (linMatches l.val 0 (pid.toNat % 64)) = some p →
      ∃ t, exec (.linHeaderRx l pid) s = .next t ∧
        ((t.linSt l.val).wait = some (pid.toNat % 64, p.1) ∧ t.edge.linOut = s.edge.linOut ∧ { t with edge := { t.edge with lin := s.edge.lin } } = s))) ∧
  (∀ (s : State) (l : Fin 16) (pid : Byte),
      s.linOn l.val true = true →
      linPid (pid.toNat % 64) = pid.toNat →
      s.on (INJ_ARM_ARM 20) = false →
      s.livePdus.find? (linMatches l.val 1 (pid.toNat % 64)) = none →
      s.livePdus.find? (linMatches l.val 0 (pid.toNat % 64)) = none →
      ∃ t, exec (.linHeaderRx l pid) s = .next t ∧
        ((t.linSt l.val).wait = none ∧ t.edge.linOut = s.edge.linOut ∧ { t with edge := { t.edge with lin := s.edge.lin } } = s)) ∧
  (∀ (s : State) (l : Fin 16) (data : List Byte) (checksum : Byte) (err : Fin 4) (age : Nat),
      s.rigReady = true →
      s.on (EDG_LIN_CTRL_ENABLE l.val) = true →
      err.val ≠ 0 →
      ∃ t, exec (.linResponseRx l data checksum err age) s = .next t ∧
        (t.get (EDG_LIN_FRAME_ERR_COUNT l.val) = min (s.get (EDG_LIN_FRAME_ERR_COUNT l.val) + 1) (2 ^ (EDG_LIN_FRAME_ERR_COUNT l.val).w - 1) ∧ t.get (EDG_LIN_STATUS_LAST_ERR l.val) = 2 + err.val ∧ (t.linSt l.val).wait = none ∧
         RegsBut [EDG_LIN_FRAME_ERR l.val, EDG_LIN_STATUS l.val] s t ∧ { t with regs := s.regs, edge := { t.edge with lin := s.edge.lin } } = s)) ∧
  (∀ (s : State) (l : Fin 16) (data : List Byte) (checksum : Byte) (err : Fin 4) (age : Nat),
      s.rigReady = true →
      s.on (EDG_LIN_CTRL_ENABLE l.val) = true →
      err.val = 0 →
      (∀ w : Nat × Nat, (s.linSt l.val).wait = some w →
      (∀ p : Nat, s.linSource l.val w.2 w.1 = some p →
      pduLen (s.tab 12 p) = data.length →
      checksum.toNat ≠ linCheck (s.tab 12 p) data →
      ∃ t, exec (.linResponseRx l data checksum err age) s = .next t ∧
        (t.get (EDG_LIN_CHK_ERR_COUNT l.val) = min (s.get (EDG_LIN_CHK_ERR_COUNT l.val) + 1) (2 ^ (EDG_LIN_CHK_ERR_COUNT l.val).w - 1) ∧ t.get (EDG_LIN_STATUS_LAST_ERR l.val) = 1 ∧ (t.linSt l.val).wait = none ∧
         RegsBut [EDG_LIN_CHK_ERR l.val, EDG_LIN_STATUS l.val] s t ∧ { t with regs := s.regs, edge := { t.edge with lin := s.edge.lin } } = s)))) ∧
  (∀ (s : State) (l : Fin 16) (data : List Byte) (checksum : Byte) (err : Fin 4) (age : Nat),
      s.rigReady = true →
      s.on (EDG_LIN_CTRL_ENABLE l.val) = true →
      err.val = 0 →
      (∀ w : Nat × Nat, (s.linSt l.val).wait = some w →
      (∀ p : Nat, s.linSource l.val w.2 w.1 = some p →
      pduLen (s.tab 12 p) = data.length →
      checksum.toNat = linCheck (s.tab 12 p) data →
      ∃ t, exec (.linResponseRx l data checksum err age) s = .next t ∧
        (t.get (EDG_LIN_RX_COUNT l.val) = min (s.get (EDG_LIN_RX_COUNT l.val) + 1) (2 ^ (EDG_LIN_RX_COUNT l.val).w - 1) ∧ (t.linSt l.val).wait = none ∧
         t.get (EDG_LIN_CHK_ERR_COUNT l.val) = s.get (EDG_LIN_CHK_ERR_COUNT l.val) ∧ t.get (EDG_LIN_NO_RESP_COUNT l.val) = s.get (EDG_LIN_NO_RESP_COUNT l.val) ∧
         (s.rigRuns = false → RegsBut [EDG_LIN_RX l.val] s t ∧ { t with regs := s.regs, edge := { t.edge with lin := s.edge.lin } } = s))))) ∧
  (∀ (s : State) (l : Fin 16) (data : List Byte) (checksum : Byte) (err : Fin 4) (age : Nat),
      s.rigReady = true →
      s.on (EDG_LIN_CTRL_ENABLE l.val) = true →
      err.val = 0 →
      (∀ w : Nat × Nat, (s.linSt l.val).wait = some w →
      (∀ p : Nat, s.linSource l.val w.2 w.1 = some p →
      pduLen (s.tab 12 p) = data.length →
      checksum.toNat = linCheck (s.tab 12 p) data →
      s.rigRuns = true →
      s.on (INJ_ARM_ARM 20) = false →
      (tunsOf s.fab.active).isEmpty = true →
      (∀ r : Nat × Nat, (match (routesOf s.fab.active).filter (fun r => rtSrc r.2 == p) with | [r] => some r | _ => none) = some r →
      s.rigBroken 0 r.1 = false →
      pduBus (s.tab 12 (rtDst r.2)) = 1 →
      s.tooSoon p = false →
      ∃ t, exec (.linResponseRx l data checksum err age) s = .next t ∧
        (t.get (EDG_LIN_RX_COUNT l.val) = min (s.get (EDG_LIN_RX_COUNT l.val) + 1) (2 ^ (EDG_LIN_RX_COUNT l.val).w - 1) ∧ (t.linSt l.val).wait = none ∧
         (t.pduSt (rtDst r.2)).buf = ((s.bufWrite (rtDst r.2) (rtDstBits r.2) (routeOut r.2 data).1).pduSt (rtDst r.2)).buf ∧
         (t.routeSt r.1).fresh = true ∧ (t.pduSt p).proc = some s.refTicks))))) ∧
  (∀ (s : State) (l : Fin 16) (data : List Byte) (checksum : Byte) (err : Fin 4) (age : Nat),
      s.rigReady = true →
      s.on (EDG_LIN_CTRL_ENABLE l.val) = true →
      err.val = 0 →
      (∀ w : Nat × Nat, (s.linSt l.val).wait = some w →
      s.linSource l.val w.2 w.1 = none →
      ∃ t, exec (.linResponseRx l data checksum err age) s = .next t ∧
        ((t.linSt l.val).wait = none ∧ { t with edge := { t.edge with lin := s.edge.lin } } = s))) ∧
  (∀ (s : State) (l : Fin 16),
      s.rigReady = true →
      s.on (EDG_LIN_CTRL_ENABLE l.val) = true →
      (s.linSt l.val).wait.isSome = true →
      s.on (EDG_LIN_CTRL_ROLE l.val) = false →
      ∃ t, exec (.linNoResponse l) s = .next t ∧
        (t.get (EDG_LIN_NO_RESP_COUNT l.val) = min (s.get (EDG_LIN_NO_RESP_COUNT l.val) + 1) (2 ^ (EDG_LIN_NO_RESP_COUNT l.val).w - 1) ∧ t.get (EDG_LIN_STATUS_LAST_ERR l.val) = 2 ∧ (t.linSt l.val).wait = none ∧
         RegsBut [EDG_LIN_NO_RESP l.val, EDG_LIN_STATUS l.val] s t ∧ { t with regs := s.regs, edge := { t.edge with lin := s.edge.lin } } = s)) ∧
  (∀ (s : State) (who : Initiator) (l : Fin 16),
      s.takesWrite who (EDG_LIN_CTRL l.val) (withBit (s.rd (EDG_LIN_CTRL l.val)) 3) →
      s.on (EDG_LIN_CTRL_ENABLE l.val) = true →
      s.on (EDG_LIN_CTRL_ROLE l.val) = false →
      s.rigReady = true →
      s.bankDrives 11 = true →
      ∃ t, exec (.linWake who l) s = .next t ∧
        (t.edge.linOut = s.edge.linOut ++ [⟨l.val, none, false, []⟩] ∧ t.linSt l.val = s.linSt l.val ∧ t.rd (EDG_LIN_CTRL l.val) = s.rd (EDG_LIN_CTRL l.val) ∧
         RegsBut [EDG_LIN_STATUS l.val] s t ∧ { t with regs := s.regs, edge := s.edge } = s))

/-- R311, R313, R316, R318, R328: what moves the Rigger. -/
def Obligations.RiggerTicks : Prop :=
  (∀ (s : State),
      (∀ x : List Byte × Nat, s.edge.rigIn.head? = some x →
      s.rigRuns = true →
      s.sourceAt x.1 = none →
      ((tunsOf s.fab.active).any fun u => ebit u.2 16 1) = false →
      ∃ t, exec .rigEthRx s = .next t ∧
        (t.edge.rigIn = s.edge.rigIn.tail ∧ t.get RIG_ETH_UNMATCHED_COUNT = min (s.get (RIG_ETH_UNMATCHED_COUNT) + 1) (2 ^ (RIG_ETH_UNMATCHED_COUNT).w - 1) ∧ RegsBut [RIG_ETH_UNMATCHED] s t ∧ { t with regs := s.regs, edge := { t.edge with rigIn := s.edge.rigIn } } = s))) ∧
  (∀ (s : State),
      (∀ x : List Byte × Nat, s.edge.rigIn.head? = some x →
      s.rigRuns = true →
      s.on (INJ_ARM_ARM 20) = false →
      (∀ o : Nat, s.sourceAt x.1 = some o →
      (∀ c : Nat × List Byte, (match (containers (x.1.drop o) ((x.1.drop o).length / 16 + 1) 0) with | ([c], 0) => some c | _ => none) = some c →
      (∀ p : Nat × Nat, s.livePdus.find? (fun p => pduDir p.2 == 0 && pduBus p.2 == 2 && pduId p.2 == c.1) = some p →
      (∀ r : Nat × Nat, (match (routesOf s.fab.active).filter (fun r => rtSrc r.2 == p.1) with | [r] => some r | _ => none) = some r →
      s.rigBroken 0 r.1 = false →
      pduBus (s.tab 12 (rtDst r.2)) = 1 →
      s.tooSoon p.1 = false →
      ∃ t, exec .rigEthRx s = .next t ∧
        (t.edge.rigIn = s.edge.rigIn.tail ∧ (t.pduSt (rtDst r.2)).buf = ((s.bufWrite (rtDst r.2) (rtDstBits r.2) (routeOut r.2 c.2).1).pduSt (rtDst r.2)).buf ∧
         (t.routeSt r.1).fresh = true ∧ (t.pduSt p.1).proc = some s.refTicks ∧
         t.get RIG_ETH_UNMATCHED_COUNT = s.get RIG_ETH_UNMATCHED_COUNT ∧ t.get RIG_CONT_UNMATCHED_COUNT = s.get RIG_CONT_UNMATCHED_COUNT ∧ t.get RIG_CONT_SKIP_COUNT = s.get RIG_CONT_SKIP_COUNT))))))) ∧
  (∀ (s : State),
      (∀ x : List Byte × Nat, s.edge.rigIn.head? = some x →
      s.rigRuns = true →
      s.on (INJ_ARM_ARM 20) = false →
      (∀ o : Nat, s.sourceAt x.1 = some o →
      (∀ c : Nat × List Byte, (match (containers (x.1.drop o) ((x.1.drop o).length / 16 + 1) 0) with | ([c], 0) => some c | _ => none) = some c →
      s.livePdus.find? (fun p => pduDir p.2 == 0 && pduBus p.2 == 2 && pduId p.2 == c.1) = none →
      ∃ t, exec .rigEthRx s = .next t ∧
        (t.edge.rigIn = s.edge.rigIn.tail ∧ t.get RIG_CONT_UNMATCHED_COUNT = min (s.get (RIG_CONT_UNMATCHED_COUNT) + 1) (2 ^ (RIG_CONT_UNMATCHED_COUNT).w - 1) ∧ RegsBut [RIG_CONT_UNMATCHED] s t ∧
         { t with regs := s.regs, edge := { t.edge with rigIn := s.edge.rigIn } } = s))))) ∧
  (∀ (s : State),
      (∀ x : List Byte × Nat, s.edge.rigIn.head? = some x →
      s.rigReady = true →
      s.on RIG_CFG_ENABLE = false →
      ∃ t, exec .rigEthRx s = .next t ∧
        (t.edge.rigIn = s.edge.rigIn.tail ∧ t.get RIG_ETH_UNMATCHED_COUNT = min (s.get (RIG_ETH_UNMATCHED_COUNT) + 1) (2 ^ (RIG_ETH_UNMATCHED_COUNT).w - 1) ∧ RegsBut [RIG_ETH_UNMATCHED] s t ∧
         { t with regs := s.regs, edge := { t.edge with rigIn := s.edge.rigIn } } = s))) ∧
  (∀ (s : State),
      s.rigRuns = true →
      (s.cyclicDue (s.edge.tick + 1)).isEmpty = true →
      ∃ t, exec .rigCyclicTick s = .next t ∧
        (t.edge.tick = s.edge.tick + 1 ∧ { t with edge := { t.edge with tick := s.edge.tick } } = s)) ∧
  (∀ (s : State),
      s.rigReady = true →
      s.on (INJ_ARM_ARM 19) = false →
      ∃ t, exec (.rigFreshTick []) s = .next t ∧
        (((routesOf s.fab.active).all fun r => (t.routeSt r.1).fresh == ((s.routeSt r.1).fresh && (s.rigBroken 0 r.1 || !s.pastFresh r.1 r.2))) = true ∧
         t.edge.can = s.edge.can ∧ t.edge.lin = s.edge.lin ∧ t.edge.pdus = s.edge.pdus ∧ t.fab = s.fab ∧ RegsOutE [block 15] s t)) ∧
  (∀ (s : State) (upsets : List RigUpset),
      s.rigReady = true →
      (routesOf s.fab.active).isEmpty = true →
      (upsets.any (·.lost)) = false →
      ∃ t, exec (.rigFreshTick upsets) s = .next t ∧
        (t.get RIG_ECC_CORR_COUNT = min (s.get RIG_ECC_CORR_COUNT + upsets.length) (2 ^ RIG_ECC_CORR_COUNT.w - 1) ∧ RegsBut [RIG_ECC_CORR] s t ∧ { t with regs := s.regs } = s)) ∧
  (∀ (s : State) (t : Fin 512),
      s.rigRuns = true →
      s.on (INJ_ARM_ARM 20) = false →
      (s.tunSt t.val).msgs ≠ [] →
      (s.liveTuns.any fun u => u.1 == t.val) = true →
      s.up .fabric = true →
      s.framesStopped = false →
      ∃ w, exec (.acfBatchTimeout t) s = .next w ∧
        ((w.tunSt t.val).msgs = [] ∧ (w.tunSt t.val).seq = ((s.tunSt t.val).seq + 1) % 256 ∧ w.fab.nextFrame = s.fab.nextFrame + 1 ∧
         (w.rxAt 66 s.fab.nextFrame).any (fun x => x.ended && x.handle.isNone) = true ∧ w.regs = s.regs ∧ w.fab.handles = s.fab.handles ∧ HostKept s w))

/-- R334, R337–R340: discovery and routing. -/
def Obligations.HfpDiscovery : Prop :=
  (∀ (s : State) (port : Fin 64) (m : HfpMsg),
      s.up .fabric = true →
      msgOk m = true →
      1 ≤ m.typ.toNat ∧ m.typ.toNat ≤ 13 →
      s.power ≠ 2 →
      m.dst ≠ 0xFF ∧ m.dst.toNat ≠ s.ownId →
      m.hops ≠ 0 →
      (∀ n : Nat, s.routePort m.dst.toNat = some n →
      ∃ t, exec (.hfpRelay port m) s = .next t ∧
        (t.hfp.out = s.hfp.out ++ [(n, { m with hops := m.hops - 1 })] ∧ t.get HFP_TX_MSG_COUNT = min (s.get (HFP_TX_MSG_COUNT) + 1) (2 ^ (HFP_TX_MSG_COUNT).w - 1) ∧
         RegsBut [HFP_TX_MSG] s t ∧ t.lessSends s = s))) ∧
  (∀ (s : State) (port : Fin 64) (m : HfpMsg),
      s.up .fabric = true →
      msgOk m = true →
      1 ≤ m.typ.toNat ∧ m.typ.toNat ≤ 13 →
      s.power ≠ 2 →
      m.dst ≠ 0xFF ∧ m.dst.toNat ≠ s.ownId →
      m.hops = 0 →
      ∃ t, exec (.hfpRelay port m) s = .next t ∧
        (t.get HFP_HOP_DROP_COUNT = min (s.get (HFP_HOP_DROP_COUNT) + 1) (2 ^ (HFP_HOP_DROP_COUNT).w - 1) ∧ RegsBut [HFP_HOP_DROP] s t ∧ { t with regs := s.regs } = s)) ∧
  (∀ (s : State) (port : Fin 64) (mac : BitVec 48) (m : HfpMsg),
      s.keepsMsg port { m with typ := 1 } →
      s.firmware = true →
      s.hfpPort port.val = true →
      s.helloClash { m with typ := 1, body := msgData { m with typ := 1 } } = false →
      s.adjState port.val = 0 →
      s.authority ≠ some m.src.val →
      ∃ t, exec (.hello port mac m) s = .next t ∧
        (t.adjState port.val = 1 ∧ SMap.find t.hfp.adj port.val = some ⟨mac.toNat, beAt (msgData m) 0 8, m.src.val, beAt (msgData m) 10 1, beAt (msgData m) 12 4⟩ ∧
         t.get HFP_RX_MSG_COUNT = min (s.get (HFP_RX_MSG_COUNT) + 1) (2 ^ (HFP_RX_MSG_COUNT).w - 1) ∧ t.hfp.ownSeq = s.hfp.ownSeq + 1 ∧ RegsOutE [block 16] s t ∧ HostKeptE 6 s t)) ∧
  (∀ (s : State),
      s.hfpRuns = true →
      s.firmware = true →
      ∃ t, exec .helloTimer s = .next t ∧
        ((t.hfp.out.drop s.hfp.out.length).map (fun e => (e.1, e.2.typ.toNat, e.2.body)) =
           ((List.range 64).filter fun n => s.hfpPort n && s.link n == 4).map (fun n => (n, 1, s.helloBody n)) ∧
         s.hfp.out <+: t.hfp.out ∧ RegsBut [HFP_TX_MSG] s t ∧ t.lessSends s = s)) ∧
  (∀ (s : State) (port : Fin 64),
      s.hfpRuns = true →
      s.firmware = true →
      s.adjState port.val ≠ 0 →
      ∃ t, exec (.adjDead port) s = .next t ∧
        (t.adjState port.val = 0 ∧ t.get (HFP_ADJ_NEIGHBOR port.val) = 0 ∧ SMap.find t.hfp.adj port.val = none ∧
         t.hfp.ownSeq = s.hfp.ownSeq + 1 ∧
         (s.adjState port.val ≠ 3 → t.fab.lanes = s.fab.lanes ∧ t.hif.running = s.hif.running) ∧
         (s.adjState port.val = 3 → Emits 0x0801 port.val (args (s.get (HFP_ADJ_NEIGHBOR port.val))) s t) ∧ RegsOutE [block 16] s t)) ∧
  (∀ (s : State) (port : Fin 64) (m : HfpMsg),
      s.keepsMsg port { m with typ := 2 } →
      s.firmware = true →
      m.src.val ≠ s.ownId →
      (SMap.find s.hfp.lsdb m.src.val).all (fun o => decide (o.seq < beAt (msgData m) 0 4)) = true →
      ∃ t, exec (.lsa port m) s = .next t ∧
        (SMap.find t.hfp.lsdb m.src.val = some (lsaOf (msgData m)) ∧ t.get HFP_RX_MSG_COUNT = min (s.get (HFP_RX_MSG_COUNT) + 1) (2 ^ (HFP_RX_MSG_COUNT).w - 1) ∧ RegsOutE [block 16] s t ∧ HostKeptE 6 s t)) ∧
  (∀ (s : State),
      s.hfpRuns = true →
      s.firmware = true →
      ∃ t, exec .lsaTimer s = .next t ∧
        (t.hfp.ownSeq = s.hfp.ownSeq + 1 ∧
         SMap.find t.hfp.lsdb s.ownId = some ⟨s.hfp.ownSeq + 1, s.fullPorts.map fun n => ⟨s.get (HFP_ADJ_NEIGHBOR n), n, s.linkCost n⟩⟩ ∧
         (t.hfp.out.drop s.hfp.out.length).map (fun e => (e.1, e.2.typ.toNat)) = s.fullPorts.map (fun n => (n, 2)) ∧ RegsBut [HFP_TX_MSG] s t ∧ HostKept s t)) ∧
  (∀ (s : State) (origin : Fin 32),
      s.hfpRuns = true →
      s.firmware = true →
      origin.val ≠ s.ownId →
      ∃ t, exec (.lsaExpire origin) s = .next t ∧
        (SMap.find t.hfp.lsdb origin.val = none ∧ ((List.range 32).all fun k => k == origin.val || SMap.find t.hfp.lsdb k == SMap.find s.hfp.lsdb k) = true ∧
         t.hfp.out = s.hfp.out ∧ RegsOutE [block 16] s t ∧ HostKeptE 2 s t))

/-- R333, R342–R344, R352–R355, R367: the requests of the bridge. -/
def Obligations.HfpRequestsOut : Prop :=
  (∀ (s : State) (who : Initiator) (addr : Word) (req : RemReq),
      who ≠ .cfg →
      s.hostTurned who = false →
      1 ≤ req.words.length →
      req.words.length ≤ 64 →
      (∀ f : Nat, s.peerOf addr.toNat = some f →
      s.quietBridge →
      s.maySend (remAsk who f addr.toNat req .access) →
      ∃ t, exec (.remoteRequest who addr req) s = .next t ∧
        (Asked (remAsk who f addr.toNat req .access) s t ∧
         Sends [((remAsk who f addr.toNat req .access).typ, f, s.freeTag % 2 ^ 16, requestBody (remAsk who f addr.toNat req .access))] s t ∧
         RegsBut [HFP_TX_MSG] s t ∧ HostKept s t))) ∧
  (∀ (s : State) (offset : BitVec 26) (req : RemReq),
      s.up .host = true →
      req.words.length = 1 →
      (req.write && !req.firstBe) = false →
      s.on HIF_RWIN_EN = true →
      s.get HIF_RWIN_PEER ≠ s.ownId →
      s.quietBridge →
      s.maySend (remAsk .host (s.get HIF_RWIN_PEER) (2 ^ 31 + s.get HIF_RWIN_PEER * 2 ^ 26 + offset.toNat / 4 * 4) { req with nonPosted := !req.write } (.bar2 s.hfp.nextTlp)) →
      ∃ t, exec (.bar2Access offset req) s = .next t ∧
        (Asked (remAsk .host (s.get HIF_RWIN_PEER) (2 ^ 31 + s.get HIF_RWIN_PEER * 2 ^ 26 + offset.toNat / 4 * 4) { req with nonPosted := !req.write } (.bar2 s.hfp.nextTlp)) s t ∧
         RegsBut [HFP_TX_MSG] s t ∧ HostKept s t)) ∧
  (∀ (s : State) (port : Fin 64) (m : HfpMsg),
      s.keepsMsg port { m with typ := 7 } →
      (∀ r : HfpReq, s.openReq m.src.val m.tag.toNat = some r →
      r.ask.kind = .access →
      beAt (msgData m) 0 1 = 0 →
      r.ask.typ = 5 →
      s.quietBridge →
      ∃ t, exec (.cpl port m) s = .next t ∧
        (t.hfp.reqs = s.hfp.reqs.filter (fun q => q.tag != r.tag) ∧
         t.hfp.results = s.hfp.results ++ [⟨r.ask.init, r.ask.addr, 0, wordsOf ((msgData m).drop 8) (r.ask.len / 4)⟩] ∧
         t.get HFP_RX_MSG_COUNT = min (s.get (HFP_RX_MSG_COUNT) + 1) (2 ^ (HFP_RX_MSG_COUNT).w - 1) ∧ RegsBut [HFP_RX_MSG] s t ∧ HostKept s t))) ∧
  (∀ (s : State) (port : Fin 64) (m : HfpMsg),
      s.keepsMsg port { m with typ := 7 } →
      s.openReq m.src.val m.tag.toNat = none →
      ∃ t, exec (.cpl port m) s = .next t ∧
        (t.get HFP_CPL_LATE_COUNT = min (s.get (HFP_CPL_LATE_COUNT) + 1) (2 ^ (HFP_CPL_LATE_COUNT).w - 1) ∧ RegsBut [HFP_RX_MSG, HFP_CPL_LATE] s t ∧ { t with regs := s.regs } = s)) ∧
  (∀ (s : State) (peer : Fin 32) (tag : BitVec 16),
      (∀ r : HfpReq, s.openReq peer.val tag.toNat = some r →
      r.ask.kind = .access →
      s.quietBridge →
      ∃ t, exec (.cplTimeout peer tag) s = .next t ∧
        (t.hfp.reqs = s.hfp.reqs.filter (fun q => q.tag != r.tag) ∧ t.hfp.results = s.hfp.results ++ [⟨r.ask.init, r.ask.addr, 11, []⟩] ∧
         t.get HFP_CPL_TIMEOUT_COUNT = min (s.get (HFP_CPL_TIMEOUT_COUNT) + 1) (2 ^ (HFP_CPL_TIMEOUT_COUNT).w - 1) ∧ RegsBut [HFP_CPL_TIMEOUT] s t ∧ { t with regs := s.regs, hfp := { t.hfp with reqs := s.hfp.reqs, results := s.hfp.results } } = s))) ∧
  (∀ (s : State) (port : Fin 64) (m : HfpMsg),
      s.keepsMsg port { m with typ := 8 } →
      s.quietBridge →
      ∃ t, exec (.ack port m) s = .next t ∧
        (t.hfp.reqs = s.hfp.reqs.filter (fun r => !(r.ask.posted && r.inStream m.src.val m.cls.val && seqLe r.seq (beAt (msgData m) 0 4))) ∧
         RegsBut [HFP_RX_MSG] s t ∧ { t with regs := s.regs, hfp := { t.hfp with reqs := s.hfp.reqs } } = s)) ∧
  (∀ (s : State) (peer : Fin 32) (cls : Fin 4),
      (∀ r : HfpReq, s.hfp.reqs.find? (fun r => r.ask.posted && r.inStream peer.val cls.val) = some r →
      2 ≤ r.ask.init →
      s.quietBridge →
      ∃ t, exec (.ackTimeout peer cls) s = .next t ∧
        (t.hfp.reqs = s.hfp.reqs.filter (fun q => q.tag != r.tag) ∧ t.get HFP_LATE_RECORDS_COUNT = min (s.get (HFP_LATE_RECORDS_COUNT) + 1) (2 ^ (HFP_LATE_RECORDS_COUNT).w - 1) ∧
         Emits 0x0804 0 (r.tag % 2 ^ 16 + r.ask.peer % 256 * 2 ^ 16 + r.ask.init % 256 * 2 ^ 24 + r.ask.addr % 2 ^ 32 * 2 ^ 32 + 9 * 2 ^ 64 +
           r.ask.cls % 256 * 2 ^ 72 + r.seq % 2 ^ 32 * 2 ^ 96 + s.short 0 * 2 ^ 128) s t ∧ RegsButE [HFP_LATE_RECORDS] s t ∧ HostKeptE 2 s t))) ∧
  (∀ (s : State) (peer : Fin 32) (cls : Fin 4),
      (∀ r : HfpReq, s.hfp.reqs.find? (fun r => r.ask.posted && r.inStream peer.val cls.val) = some r →
      r.ask.init < 2 →
      r.ask.peer < 32 →
      s.quietBridge →
      ∃ t, exec (.ackTimeout peer cls) s = .next t ∧
        (t.hfp.reqs.any (fun q => q.tag == r.tag) = false ∧ bit (t.get (HFP_POISON_PEERS r.ask.init)) r.ask.peer = true ∧ RegsOutE [block 16, block 3] s t))) ∧
  (∀ (s : State) (port : Fin 64) (m : HfpMsg),
      s.keepsMsg port { m with typ := 9 } →
      beAt (msgData m) 0 1 ≠ 8 →
      (∀ r : HfpReq, s.hfp.reqs.find? (fun r => r.ask.posted && r.inStream m.src.val m.cls.val && r.tag == m.tag.toNat) = some r →
      2 ≤ r.ask.init →
      s.quietBridge →
      ∃ t, exec (.lateErr port m) s = .next t ∧
        (t.hfp.reqs = s.hfp.reqs.filter (fun q => q.tag != r.tag) ∧ t.get HFP_LATE_RECORDS_COUNT = min (s.get (HFP_LATE_RECORDS_COUNT) + 1) (2 ^ (HFP_LATE_RECORDS_COUNT).w - 1) ∧
         RegsButE [HFP_RX_MSG, HFP_LATE_RECORDS] s t ∧ HostKeptE 2 s t))) ∧
  (∀ (s : State) (src : CmdSrc) (d : Desc),
      s.takesCommand d [0, 1] false →
      descBits d 16 8 ≤ 1 ∨ descBits d 16 8 = 0xFF →
      descBits d 17 8 ≤ 31 ∨ descBits d 17 8 = 0xFF →
      descZero d 18 64 = true →
      ∃ t, exec (.clearPoison src d) s = .next t ∧
        (([0, 1].all fun k => t.get (HFP_POISON_PEERS k) == if descBits d 16 8 == k || descBits d 16 8 == 0xFF then
           (if descBits d 17 8 = 0xFF then 0 else setBits (s.get (HFP_POISON_PEERS k)) (descBits d 17 8) 1 0) else s.get (HFP_POISON_PEERS k)) = true ∧
         Completes src d 0 0 s t ∧ RegsButE ([HFP_POISON 0, HFP_POISON 1] ++ replyRegs) s t ∧ HostKeptR 0 0 s t ∧ t.lessReply s = s))

/-- R333, R343, R344, R347, R348: requests of a peer. -/
def Obligations.HfpRequestsIn : Prop :=
  (∀ (s : State) (port : Fin 64) (m : HfpMsg),
      m.typ = 5 →
      s.keepsMsg port m →
      requestOk m = true →
      beAt (msgData m) 4 2 = 4 →
      beAt (msgData m) 0 4 < 2 ^ 26 →
      readCause (beAt (msgData m) 0 4) = none →
      s.busHeld = false →
      s.hfp.busWait = [] →
      s.hfp.rxStall = [] →
      m.seq.toNat = SMap.get s.hfp.rxSeq 0 (4 * m.src.val + m.cls.val) →
      SMap.get s.hfp.rxUnacked 0 (4 * m.src.val + m.cls.val) < 15 →
      (s.routePort m.src.val).isSome = true →
      ((s.inc HFP_RX_MSG_COUNT).localRead (.hfp m.src) (beAt (msgData m) 0 4)).2 = s.inc HFP_RX_MSG_COUNT →
      ∃ t, exec (.requestRx port m) s = .next t ∧
        (Sends [(7, m.src.val, m.tag.toNat, [0, 0, 0, 0, 0, 4, 0, 0] ++ beBytes 4 ((s.inc HFP_RX_MSG_COUNT).localRead (.hfp m.src) (beAt (msgData m) 0 4)).1.toNat)] s t ∧
         SMap.get t.hfp.rxSeq 0 (4 * m.src.val + m.cls.val) = (m.seq.toNat + 1) % 2 ^ 32 ∧
         RegsBut [HFP_RX_MSG, HFP_TX_MSG] s t ∧ HostKept s t)) ∧
  (∀ (s : State) (port : Fin 64) (m : HfpMsg),
      m.typ = 4 →
      s.keepsMsg port m →
      requestOk m = true →
      s.busHeld = false →
      s.hfp.busWait = [] →
      s.hfp.rxStall = [] →
      s.power ≠ 2 →
      s.peerMay m.src.val = false →
      m.seq.toNat = SMap.get s.hfp.rxSeq 0 (4 * m.src.val + m.cls.val) →
      SMap.get s.hfp.rxUnacked 0 (4 * m.src.val + m.cls.val) < 15 →
      (s.routePort m.src.val).isSome = true →
      ∃ t, exec (.requestRx port m) s = .next t ∧
        (Sends [(7, m.src.val, m.tag.toNat, [9, 0, 0, 0, 0, 0, 0, 0])] s t ∧ SMap.get t.hfp.rxSeq 0 (4 * m.src.val + m.cls.val) = (m.seq.toNat + 1) % 2 ^ 32 ∧
         RegsBut [HFP_RX_MSG, HFP_TX_MSG] s t ∧ HostKept s t)) ∧
  (∀ (s : State) (port : Fin 64) (m : HfpMsg),
      s.keepsMsg port { m with typ := 6 } →
      s.busHeld = false →
      s.hfp.busWait = [] →
      s.hfp.rxStall = [] →
      requestOk { m with typ := 6 } = true →
      64 ≤ beAt (msgData m) 4 2 →
      s.peerMay m.src.val = false →
      m.seq.toNat = SMap.get s.hfp.rxSeq 0 (4 * m.src.val + m.cls.val) →
      SMap.get s.hfp.rxUnacked 0 (4 * m.src.val + m.cls.val) < 15 →
      (s.routePort m.src.val).isSome = true →
      ∃ t, exec (.cmdRx port m) s = .next t ∧
        (Sends [(7, m.src.val, m.tag.toNat, [9, 0, 0, 0, 0, 4, 0, 0, 0, 0, 0, 0])] s t ∧ t.hif.running = s.hif.running ∧
         Emits 0x0001 0 (cmdDoneBody (.hfp m.src m.tag m.cls []) (BitVec.ofNat 512 (leAt ((msgData m).drop 8) 0 64)) 9 0) s t ∧
         RegsButE [HFP_RX_MSG, HFP_TX_MSG] s t ∧ HostKeptE 2 s t)) ∧
  (∀ (s : State) (port : Fin 64) (m : HfpMsg),
      s.keepsMsg port { m with typ := 6 } →
      s.busHeld = false →
      s.hfp.busWait = [] →
      s.hfp.rxStall = [] →
      requestOk { m with typ := 6 } = true →
      64 ≤ beAt (msgData m) 4 2 →
      s.peerMay m.src.val = true →
      m.seq.toNat = SMap.get s.hfp.rxSeq 0 (4 * m.src.val + m.cls.val) →
      SMap.get s.hfp.rxUnacked 0 (4 * m.src.val + m.cls.val) < 15 →
      s.hif.running = none →
      s.cmdPending = false →
      leAt ((msgData m).drop 8) 0 64 = 0 →
      s.power = 0 ∨ s.power = 1 →
      ∃ t, exec (.cmdRx port m) s = .next t ∧
        (Emits 0x0001 0 (cmdDoneBody (.hfp m.src m.tag m.cls []) 0 0 0) s t ∧ t.hif.running = none ∧ RegsButE [HFP_RX_MSG, HFP_TX_MSG, HFP_NO_ROUTE] s t)) ∧
  (∀ (s : State) (peer : Fin 32) (cls : Fin 4),
      s.hfpRuns = true →
      SMap.get s.hfp.rxUnacked 0 (4 * peer.val + cls.val) ≠ 0 →
      (s.routePort peer.val).isSome = true →
      ∃ t, exec (.ackTimer peer cls) s = .next t ∧
        (Sends [(8, peer.val, 0, beBytes 4 ((SMap.get s.hfp.rxSeq 0 (4 * peer.val + cls.val) + 2 ^ 32 - 1) % 2 ^ 32))] s t ∧
         SMap.get t.hfp.rxUnacked 0 (4 * peer.val + cls.val) = 0 ∧ RegsBut [HFP_TX_MSG] s t ∧ HostKept s t))

/-- R342, R348–R351: REMOTE_CMD and the rows of locked sequences. The back-off is a free value in its range. -/
def Obligations.LockedSequences : Prop :=
  (∀ (s : State) (src : CmdSrc) (d : Desc),
      src = .localRing →
      s.takesCommand d [0, 1] false →
      descBits d 16 8 < 32 →
      descBits d 17 8 < 2 →
      descZero d 18 24 = true →
      descBits d 24 64 % 64 = 0 →
      64 ≤ descBits d 32 16 →
      descBits d 32 16 ≤ 256 →
      descBits d 32 16 % 4 = 0 →
      descZero d 34 64 = true →
      descBits d 16 8 ≠ s.ownId →
      s.hfp.waitReq = [] →
      s.maySend { peer := descBits d 16 8, cls := descBits d 17 8, init := 0, typ := 6, posted := false, addr := 0, len := descBits d 32 16, data := s.hostBytes (descBits d 24 64) (descBits d 32 16), kind := .cmd } →
      ∃ t, exec (.remoteCmd src d) s = .next t ∧
        (Asked { peer := descBits d 16 8, cls := descBits d 17 8, init := 0, typ := 6, posted := false, addr := 0, len := descBits d 32 16,
                 data := s.hostBytes (descBits d 24 64) (descBits d 32 16), kind := .cmd } s t ∧
         RunsOn src d .remoteCmd s t ∧ RegsBut [HFP_TX_MSG, HIF_STATUS] s t ∧ HostKept s t)) ∧
  (∀ (s : State) (src : CmdSrc) (d : Desc),
      src = .localRing →
      s.takesCommand d [0, 1] false →
      lockArgsOk d = true →
      descBits d 16 8 ≠ s.ownId →
      s.quietBridge →
      s.up .fabric = true →
      s.get HFP_LOCK_STATUS_BACKOFF_HOST = 0 →
      s.maySend { peer := descBits d 16 8, cls := 0, init := 0, typ := 0x0A, posted := false, addr := 0, len := 0, data := lockReqBody (lockArgs d), kind := .lock } →
      ∃ t, exec (.lockedSeq src d false) s = .next t ∧
        (t.hfp.lockOut = some ⟨descBits d 16 8, lockArgs d, descBits d 24 64, true⟩ ∧ t.on HFP_LOCK_STATUS_OUT_ACTIVE = true ∧ t.busHeld = true ∧
         Sends [(0x0A, descBits d 16 8, s.freeTag % 2 ^ 16, lockReqBody (lockArgs d))] s t ∧ RunsOn src d .lockedSeq s t ∧
         RegsBut [HFP_TX_MSG, HIF_STATUS, HFP_LOCK_STATUS] s t ∧ HostKept s t)) ∧
  (∀ (s : State) (src : CmdSrc) (d : Desc),
      s.up .cox = true →
      s.cox.coresHeld = false →
      s.hfpRuns = true →
      s.power ≠ 2 →
      lockArgsOk d = true →
      descBits d 16 8 ≠ s.ownId →
      s.quietBridge →
      s.get HFP_LOCK_STATUS_BACKOFF_COX = 0 →
      s.maySend { peer := descBits d 16 8, cls := 1, init := 1, typ := 0x0A, posted := false, addr := 0, len := 0, data := lockReqBody (lockArgs d), kind := .lock } →
      ∃ t, exec (.lockedSeq src d true) s = .next t ∧
        (t.hfp.lockCox = some ⟨descBits d 16 8, lockArgs d, descBits d 24 64, true⟩ ∧ t.on HFP_LOCK_STATUS_OUT_ACTIVE = true ∧ t.busHeld = true ∧
         Sends [(0x0A, descBits d 16 8, s.freeTag % 2 ^ 16, lockReqBody (lockArgs d))] s t ∧ t.hif = s.hif ∧
         RegsBut [HFP_TX_MSG, HFP_LOCK_STATUS] s t ∧ HostKept s t)) ∧
  (∀ (s : State) (port : Fin 64) (m : HfpMsg) (cut : Option (Fin 4)),
      s.keepsMsg port { m with typ := 10 } →
      s.quietBridge →
      s.power ≠ 2 →
      s.peerMay m.src.val = true →
      m.seq.toNat = SMap.get s.hfp.rxSeq 0 (4 * m.src.val + m.cls.val) →
      SMap.get s.hfp.rxUnacked 0 (4 * m.src.val + m.cls.val) < 15 →
      ((lockBody (msgData m)).all fun o => o.kind == 0) = true →
      (cut.all fun k => decide ((lockBody (msgData m)).length ≤ k.val)) = true →
      ∃ t, exec (.lockReq port m cut) s = .next t ∧
        (t.on HFP_LOCK_STATUS_FAR_HELD = true ∧ t.get HFP_LOCK_STATUS_HOLDER = m.src.val ∧ t.busHeld = true ∧
         SMap.get t.hfp.rxSeq 0 (4 * m.src.val + m.cls.val) = (m.seq.toNat + 1) % 2 ^ 32 ∧ HostKept s t)) ∧
  (∀ (s : State) (port : Fin 64) (m : HfpMsg) (cut : Option (Fin 4)),
      s.keepsMsg port { m with typ := 10 } →
      s.quietBridge →
      s.power ≠ 2 →
      s.peerMay m.src.val = true →
      m.seq.toNat = SMap.get s.hfp.rxSeq 0 (4 * m.src.val + m.cls.val) →
      SMap.get s.hfp.rxUnacked 0 (4 * m.src.val + m.cls.val) < 15 →
      ((lockBody (msgData m)).all fun o => o.kind == 0) = true →
      (cut.any fun k => decide (k.val < (lockBody (msgData m)).length)) = true →
      (s.routePort m.src.val).isSome = true →
      ∃ t, exec (.lockReq port m cut) s = .next t ∧
        (t.on HFP_LOCK_STATUS_FAR_HELD = false ∧ t.get HFP_LOCK_STATUS_HOLDER = 0 ∧ Sends [(7, m.src.val, m.tag.toNat, [12, 0, 0, 0, 0, 0, 0, 0])] s t ∧ HostKept s t)) ∧
  (∀ (s : State) (port : Fin 64) (m : HfpMsg),
      s.keepsMsg port { m with typ := 11 } →
      (∀ r : HfpReq, s.openReq m.src.val m.tag.toNat = some r →
      r.ask.kind = .lock →
      (∀ l : LockSeq, s.hfp.lockOut = some l →
      (∀ c : Running, s.hif.running = some c →
      c.cut = false →
      r.ask.init = 0 →
      l.holds = true →
      s.hfp.busWait = [] →
      s.hfp.rxStall = [] →
      s.hfp.waitReq = [] →
      s.hfp.stalled = [] →
      s.hfp.lockCox = none →
      ∃ t, exec (.lockNak port m) s = .next t ∧
        (t.hfp.lockOut = none ∧ t.on HFP_LOCK_STATUS_OUT_ACTIVE = false ∧ t.hif.running = none ∧ t.get HFP_LOCK_RETRY_COUNT = min (s.get (HFP_LOCK_RETRY_COUNT) + 1) (2 ^ (HFP_LOCK_RETRY_COUNT).w - 1) ∧
         16 ≤ t.get HFP_LOCK_STATUS_BACKOFF_HOST ∧ t.get HFP_LOCK_STATUS_BACKOFF_HOST ≤ 128 ∧ t.hfp.reqs = s.hfp.reqs.filter (fun q => q.tag != r.tag) ∧
         (c.src.remote = true ∨ descBits c.desc 1 1 = 1 → Emits 0x0001 0 (cmdDoneBody c.src c.desc 14 0) s t)))))) ∧
  (∀ (s : State) (port : Fin 64) (m : HfpMsg),
      s.keepsMsg port { m with typ := 12 } →
      s.on HFP_LOCK_STATUS_FAR_HELD = true →
      s.get HFP_LOCK_STATUS_HOLDER = m.src.val →
      s.hfp.busWait = [] →
      s.hfp.rxStall = [] →
      s.hfp.lockOut = none →
      s.hfp.lockCox = none →
      ∃ t, exec (.lockRel port m) s = .next t ∧
        (t.on HFP_LOCK_STATUS_FAR_HELD = false ∧ t.get HFP_LOCK_STATUS_HOLDER = 0 ∧ RegsBut [HFP_RX_MSG, HFP_LOCK_STATUS] s t ∧ { t with regs := s.regs } = s)) ∧
  (∀ (s : State),
      s.up .fabric = true →
      s.on HFP_LOCK_STATUS_FAR_HELD = true →
      s.hfp.busWait = [] →
      s.hfp.rxStall = [] →
      s.hfp.lockOut = none →
      s.hfp.lockCox = none →
      ∃ t, exec .lockMaxExpiry s = .next t ∧
        (t.on HFP_LOCK_STATUS_FAR_HELD = false ∧ t.get HFP_LOCK_STATUS_HOLDER = 0 ∧ RegsBut [HFP_LOCK_STATUS] s t ∧ { t with regs := s.regs } = s)) ∧
  (∀ (s : State) (cox : Bool),
      s.up .fabric = true →
      s.quietBridge →
      ∃ t, exec (.lockBackoffEnd cox) s = .next t ∧
        (t.get (backoffFld (if cox then 1 else 0)) = 0 ∧ SMap.find t.hfp.backEnd (if cox then 1 else 0) = none ∧ RegsBut [HFP_LOCK_STATUS] s t ∧
         { t with regs := s.regs, hfp := { t.hfp with backEnd := s.hfp.backEnd } } = s))

/-- R357–R359, R459: the member's side of a fabric-wide commit. -/
def Obligations.FabricCommitMembers : Prop :=
  (∀ (s : State) (port : Fin 64) (m : HfpMsg),
      s.keepsMsg port { m with typ := 13 } →
      s.memberRefuses (cmitOf { m with typ := 13 }) ≠ 0 →
      (s.routePort m.src.val).isSome = true →
      ∃ t, exec (.cmitPrepare port m) s = .next t ∧
        (Sends [(13, m.src.val, 0, cmitBody 2 (s.memberRefuses (cmitOf { m with typ := 13 })) (cmitOf m).id (cmitOf m).mask (cmitOf m).t (cmitOf m).fcg
             (if s.memberRefuses (cmitOf { m with typ := 13 }) = 5 then s.get HEAT_STATUS_FIRST_CODE else 0) (cmitOf m).update (cmitOf m).dryRun)] s t ∧
         RegsBut [HFP_RX_MSG, HFP_TX_MSG] s t ∧ t.lessSends s = s)) ∧
  (∀ (s : State) (port : Fin 64) (m : HfpMsg),
      s.keepsMsg port { m with typ := 13 } →
      s.memberRefuses (cmitOf { m with typ := 13 }) = 0 →
      (cmitOf m).update = false →
      ∃ t, exec (.cmitPrepare port m) s = .next t ∧
        (t.hfp.fabMember = some (cmitOf m) ∧ t.commitState = 1 ∧ t.get HFP_COMMIT_STATUS_PHASE = 1 ∧ t.get HFP_COMMIT_STATUS_COMMIT_ID = (cmitOf m).id % 2 ^ HFP_COMMIT_STATUS_COMMIT_ID.w ∧
         t.fab.active = s.fab.active ∧ t.fab.staged = s.fab.staged ∧ t.fab.job.any (fun j => j.at_ == (cmitOf m).t && j.fabric && j.timed && !j.heated) = true ∧
         RegsBut [HFP_RX_MSG, HFP_COMMIT_STATUS, GLB_CFG_STATE] s t ∧ HostKept s t)) ∧
  (∀ (s : State) (port : Fin 64) (m : HfpMsg),
      s.keepsMsg port { m with typ := 13 } →
      (∀ c : FabMember, s.heldFrom m = some c →
      c.phase = 2 →
      s.frozen = false →
      s.domNs 0 < c.t →
      c.update = false →
      (∀ j : CommitJob, s.fab.job = some j →
      j.upd = false →
      (s.routePort c.from_).isSome = true →
      c.from_ < 32 →
      ∃ t, exec (.cmitArm port m) s = .next t ∧
        (t.hfp.fabMember = some { c with phase := 3 } ∧ t.commitState = 2 ∧ t.fab.job = some { j with at_ := c.t } ∧ t.get HFP_COMMIT_STATUS_PHASE = 3 ∧
         t.get GLB_COMMIT_SEC_SEC = c.t / 10 ^ 9 % 2 ^ 48 ∧ t.get GLB_COMMIT_NS_NS = c.t % 10 ^ 9 ∧ t.fab.active = s.fab.active ∧
         Sends [(13, c.from_, 0, cmitBody 4 0 c.id c.mask c.t c.fcg 0 c.update c.dryRun)] s t ∧ RegsBut [HFP_RX_MSG, HFP_TX_MSG, HFP_COMMIT_STATUS, GLB_CFG_STATE, GLB_COMMIT_SEC, GLB_COMMIT_SEC + 4, GLB_COMMIT_NS] s t ∧ HostKept s t)))) ∧
  (∀ (s : State) (port : Fin 64) (m : HfpMsg),
      s.keepsMsg port { m with typ := 13 } →
      (∀ c : FabMember, s.heldFrom m = some c →
      s.commitState = 1 ∨ s.commitState = 2 →
      c.update = false →
      (s.routePort c.from_).isSome = true →
      c.from_ < 32 →
      ∃ t, exec (.cmitAbort port m) s = .next t ∧
        (t.hfp.fabMember = none ∧ t.commitState = 0 ∧ t.fab.job = none ∧ t.get HFP_COMMIT_STATUS_RESULT = 3 ∧ t.get HFP_COMMIT_STATUS_PHASE = 0 ∧
         t.fab.active = s.fab.active ∧ t.fab.staged = s.fab.staged ∧ t.fab.old = s.fab.old ∧ Sends [(13, c.from_, 0, cmitBody 4 0 c.id c.mask c.t c.fcg 0 c.update c.dryRun)] s t ∧
         RegsBut [HFP_RX_MSG, HFP_TX_MSG, HFP_COMMIT_STATUS, GLB_CFG_STATE] s t ∧ HostKept s t))) ∧
  (∀ (s : State),
      (∀ c : FabMember, s.hfp.fabMember = some c →
      c.phase = 2 →
      c.update = false →
      ∃ t, exec .phase2Drop s = .next t ∧
        (t.hfp.fabMember = none ∧ t.commitState = 0 ∧ t.fab.job = none ∧ t.get HFP_COMMIT_STATUS_RESULT = 4 ∧ t.fab.active = s.fab.active ∧ t.fab.staged = s.fab.staged ∧
         RegsBut [HFP_COMMIT_STATUS, GLB_CFG_STATE] s t ∧ HostKept s t))) ∧
  (∀ (s : State) (port : Fin 64) (m : HfpMsg),
      s.keepsMsg port { m with typ := 13 } →
      s.ledBy m = none →
      (∀ c : FabMember, s.heldFrom m = some c →
      c.update = true →
      s.updLive = 7 →
      s.rst.pw = [] →
      (s.routePort c.from_).isSome = true →
      c.from_ < 32 →
      ∃ t, exec (.cmitConfirm port m) s = .next t ∧
        (UpdEnters 0 s t ∧ t.get HFP_FCG_GEN = c.fcg % 2 ^ 32 ∧ t.get HFP_FAB_STATUS_DIVERGED = 0 ∧ t.hfp.fabMember = none ∧ t.fab.active = s.fab.active ∧ HostKeptE 2 s t)))

/-- R357–R359, R459: the initiator's side of a fabric-wide commit. -/
def Obligations.FabricCommitInitiator : Prop :=
  (∀ (s : State) (port : Fin 64) (m : HfpMsg),
      s.keepsMsg port { m with typ := 13 } →
      (∀ f : FabInit, s.ledBy m = some f →
      f.armed = false →
      f.aborting = false →
      f.waiting.contains m.src.val = true →
      (f.waiting.filter (· ≠ m.src.val)).isEmpty = false →
      ∃ t, exec (.cmitVote port m) s = .next t ∧
        (t.hfp.fabInit = some { f with waiting := f.waiting.filter (· ≠ m.src.val), failed := if beAt (msgData m) 1 1 = 0 then f.failed else f.failed ++ [(m.src.val, beAt (msgData m) 1 1)] } ∧
         RegsBut [HFP_RX_MSG] s t ∧ { t with regs := s.regs, hfp := { t.hfp with fabInit := s.hfp.fabInit } } = s))) ∧
  (∀ (s : State) (port : Fin 64) (m : HfpMsg),
      s.keepsMsg port { m with typ := 13 } →
      (∀ f : FabInit, s.ledBy m = some f →
      f.armed = true →
      f.aborting = false →
      f.update = false →
      (f.waiting.filter (· ≠ m.src.val)).isEmpty = false →
      ∃ t, exec (.cmitAck port m) s = .next t ∧
        (t.hfp.fabInit = some { f with waiting := f.waiting.filter (· ≠ m.src.val) } ∧ RegsBut [HFP_RX_MSG] s t ∧
         { t with regs := s.regs, hfp := { t.hfp with fabInit := s.hfp.fabInit } } = s))) ∧
  (∀ (s : State),
      (∀ f : FabInit, s.hfp.fabInit = some f →
      f.armed = false →
      f.aborting = false →
      f.update = false →
      f.waiting ≠ [] →
      (f.failed.all fun e => e.2 != 5) = true →
      f.own ≠ some 5 →
      ∃ t, exec .prepareTimeout s = .next t ∧
        (t.commitState = 0 ∧ t.fab.job = none ∧ t.get HFP_COMMIT_STATUS_RESULT = 3 ∧ t.get HFP_COMMIT_STATUS_PHASE = 0 ∧ t.fab.active = s.fab.active ∧ t.fab.staged = s.fab.staged ∧
         t.hfp.fabInit.any (fun g => g.aborting && g.waiting == f.members) = true ∧ t.hif.running = none))) ∧
  (∀ (s : State),
      (∀ f : FabInit, s.hfp.fabInit = some f →
      f.armed = true →
      f.aborting = false →
      f.done = false →
      f.update = false →
      ∃ t, exec .armMarginDeadline s = .next t ∧
        (t.commitState = 0 ∧ t.fab.job = none ∧ t.get HFP_COMMIT_STATUS_RESULT = 3 ∧ t.get HFP_COMMIT_STATUS_PEER = lowest f.waiting % 2 ^ HFP_COMMIT_STATUS_PEER.w ∧ t.fab.active = s.fab.active ∧
         t.fab.staged = s.fab.staged ∧ t.hfp.fabInit.any (fun g => g.aborting && g.waiting == f.members) = true ∧ t.hif.running = none))) ∧
  (∀ (s : State),
      (∀ f : FabInit, s.hfp.fabInit = some f →
      f.aborting = true →
      f.waiting ≠ [] →
      s.domNs 0 < f.t →
      (f.waiting.all fun p => decide (p < 32) && (s.routePort p).isSome) = true →
      ∃ t, exec .abortRepeat s = .next t ∧
        (Sends (f.waiting.map fun p => (13, p, 0, cmitBody 5 0 f.id f.mask f.t f.fcg 0 f.update f.dryRun)) s t ∧ RegsBut [HFP_TX_MSG] s t ∧ t.lessSends s = s))) ∧
  (∀ (s : State),
      (∀ f : FabInit, s.hfp.fabInit = some f →
      f.aborting = true →
      f.waiting = [] ∨ f.t ≤ s.domNs 0 →
      ∃ t, exec .abortRepeat s = .next t ∧
        (t.hfp.fabInit = none ∧ { t with hfp := { t.hfp with fabInit := s.hfp.fabInit } } = s))) ∧
  (∀ (s : State),
      (∀ f : FabInit, s.hfp.fabInit = some f →
      f.update = true →
      f.done = true →
      f.aborting = false →
      s.updLive = 0 →
      (f.waiting.all fun p => decide (p < 32) && (s.routePort p).isSome) = true →
      ∃ t, exec .confirmRepeat s = .next t ∧
        (Sends (f.waiting.map fun p => (13, p, 0, cmitBody 6 0 f.id f.mask f.t f.fcg 0 f.update f.dryRun)) s t ∧ RegsBut [HFP_TX_MSG] s t ∧ t.lessSends s = s)))

/-- R369–R373, R386: the rings of the host interface. -/
def Obligations.RingsAndDoorbells : Prop :=
  (∀ (s : State) (who : Initiator) (ring : Ring) (value : Word),
      s.takesWrite who (ringCfg ring) (withBit value 0) →
      s.on (ringEn ring) = false →
      s.hif.heldEvents = [] →
      ∃ t, exec (.ringEnable who ring value) s = .next t ∧
        (t.on (ringEn ring) = true ∧ t.hif.indices ring = (0, 0) ∧ t.hif.stopped = s.hif.stopped.filter (· ≠ ringKey ring) ∧
         HostWrote (s.get HIF_ST_BASE_ADDR * 4096 + ringStatusOff ring) (leBytes 4 0) s t ∧ RegsBut [ringCfg ring] s t)) ∧
  (∀ (s : State) (who : Initiator) (ring : Ring) (value : Word),
      s.takesWrite who (ringCfg ring) (noBit value 0) →
      s.hif.heldEvents = [] →
      ∃ t, exec (.ringDisable who ring value) s = .next t ∧
        (t.on (ringEn ring) = false ∧ t.hif = s.hif ∧ RegsBut [ringCfg ring] s t ∧ HostKept s t)) ∧
  (∀ (s : State),
      s.up .host = true →
      s.on HIF_CTRL_ENABLE = true →
      s.ringsAgree [] = true →
      ∃ t, exec .doorbellRead s = .next t ∧
        (t.hif.cmdProd = (if s.ringRuns .cmd then s.bellOf .cmd else s.hif.cmdProd) ∧ t.hif.evtCons = (if s.ringRuns .evt then s.bellOf .evt else s.hif.evtCons) ∧
         ((List.finRange 16).all fun q => (t.hif.indices (.tx q)).1 == (if s.ringRuns (.tx q) then s.bellOf (.tx q) else (s.hif.indices (.tx q)).1) &&
           (t.hif.indices (.rx q)).1 == (if s.ringRuns (.rx q) then s.bellOf (.rx q) else (s.hif.indices (.rx q)).1)) = true ∧
         (t.hif.pollNs = s.get HIF_POLL_MIN_NS ∨ t.hif.pollNs = min (2 * s.hif.pollNs) (s.get HIF_POLL_MAX_US * 1000)) ∧
         { t with hif := { t.hif with cmdProd := s.hif.cmdProd, evtCons := s.hif.evtCons, txProd := s.hif.txProd, rxProd := s.hif.rxProd, pollNs := s.hif.pollNs, bells := s.hif.bells } } = s)) ∧
  (∀ (s : State),
      s.up .host = true →
      s.on HIF_CTRL_ENABLE = true →
      s.ringRuns (.tx 5) = true →
      s.ringsAgree [.tx 5] = true →
      ringSize (s.get (ringLog (.tx 5))) < s.ringLead (.tx 5) →
      ∃ t, exec .doorbellRead s = .next t ∧
        (t.on (ringErr (.tx 5)) = true ∧ t.hif.stopped = s.hif.stopped ++ [5] ∧ (t.hif.indices (.tx 5)) = s.hif.indices (.tx 5) ∧
         Emits 0x0D01 5 (args (s.bellOf (.tx 5)).toNat) s t ∧ RegsButE [HIF_TX_CFG 5] s t ∧ HostKeptE 1 s t)) ∧
  (∀ (s : State) (who : Initiator),
      s.takesWrite who HIF_KICK 1 →
      s.on HIF_CTRL_ENABLE = true →
      s.ringsAgree [] = true →
      ∃ t, exec (.kick who) s = .next t ∧
        (Runs .doorbellRead s fun u => { t with pins := { t.pins with faultHold := s.pins.faultHold } } = { u with hif := { u.hif with pollNs := s.get HIF_POLL_MIN_NS } })) ∧
  (∀ (s : State),
      (∀ q : Fin 16, s.nextTxRing = some q →
      s.framesStopped = false →
      s.up .fabric = true →
      60 ≤ bits (s.hostRd (s.txSlot q) 32) 64 16 →
      bits (s.hostRd (s.txSlot q) 32) 64 16 ≤ 9212 →
      bits (s.hostRd (s.txSlot q) 32) 112 8 < 64 →
      bits (s.hostRd (s.txSlot q) 32) 82 14 = 0 →
      bits (s.hostRd (s.txSlot q) 32) 120 72 = 0 →
      bits (s.hostRd (s.txSlot q) 32) 201 7 = 0 →
      bits (s.hostRd (s.txSlot q) 32) 208 48 = 0 →
      ∃ t, exec .txDescFetch s = .next t ∧
        (TxWritten q 0 s t ∧ t.get (HIF_TX_FRAMES_COUNT q.val) = min (s.get (HIF_TX_FRAMES_COUNT q.val) + 1) (2 ^ (HIF_TX_FRAMES_COUNT q.val).w - 1) ∧
         (t.rxAt 64 s.fab.nextFrame).any (fun x => x.bytes == s.hostBytes (bits (s.hostRd (s.txSlot q) 32) 0 64) (bits (s.hostRd (s.txSlot q) 32) 64 16) && x.ended && x.port == 64 &&
           x.direct == if bit (s.hostRd (s.txSlot q) 32) 81 then some (bits (s.hostRd (s.txSlot q) 32) 112 8) else none) = true ∧ RegsBut [HIF_TX_FRAMES q.val] s t))) ∧
  (∀ (s : State),
      (∀ q : Fin 16, s.nextTxRing = some q →
      s.framesStopped = false →
      bits (s.hostRd (s.txSlot q) 32) 64 16 < 60 ∨ 9212 < bits (s.hostRd (s.txSlot q) 32) 64 16 ∨ 64 ≤ bits (s.hostRd (s.txSlot q) 32) 112 8 ∨ bits (s.hostRd (s.txSlot q) 32) 82 14 ≠ 0 ∨ bits (s.hostRd (s.txSlot q) 32) 120 72 ≠ 0 →
      ∃ t, exec .txDescFetch s = .next t ∧
        (TxWritten q 3 s t ∧ t.get (HIF_TX_DESC_ERR_COUNT q.val) = min (s.get (HIF_TX_DESC_ERR_COUNT q.val) + 1) (2 ^ (HIF_TX_DESC_ERR_COUNT q.val).w - 1) ∧ t.fab = s.fab ∧ RegsBut [HIF_TX_DESC_ERR q.val] s t)))

/-- R368, R376–R386: the command processor and the resets of the Host island. -/
def Obligations.HostInterfaceRows : Prop :=
  (∀ (s : State),
      s.alive = true →
      ∃ t, exec (.hostReset .perst) s = .next t ∧
        (t.hif = { running := s.hif.running.map (fun r => { r with cut := true }), perstLow := true, heldEvents := s.hif.heldEvents } ∧ RegsCleared (lostWord .host 0) s t ∧ t.up .host = false ∧ t.pins.pcieTxOn = false ∧ HostKept s t ∧
         { t with regs := s.regs, latch := s.latch, hif := s.hif, pins := s.pins, rst := s.rst } = s)) ∧
  (∀ (s : State),
      s.up .host = true →
      ∃ t, exec (.hostReset (.hotReset none)) s = .next t ∧
        (t.hif = { running := s.hif.running.map (fun r => { r with cut := true }), perstLow := s.hif.perstLow, heldEvents := s.hif.heldEvents } ∧ RegsCleared (lostWord .host 0) s t ∧ HostKept s t ∧ { t with regs := s.regs, latch := s.latch, hif := s.hif } = s)) ∧
  (∀ (s : State) (lk : Fin 3 × Fin 4),
      s.up .host = true →
      ∃ t, exec (.hostReset (.hotReset (some lk))) s = .next t ∧
        (t.hif = { running := s.hif.running.map (fun r => { r with cut := true }), perstLow := s.hif.perstLow, heldEvents := s.hif.heldEvents } ∧ RegsClearedBut [HIF_STATUS] (lostWord .host 0) s t ∧ t.on HIF_STATUS_LINK_UP = true ∧
         t.get HIF_STATUS_WIDTH = 2 ^ lk.1.val ∧ t.get HIF_STATUS_SPEED = lk.2.val + 1 ∧ HostKept s t ∧ { t with regs := s.regs, latch := s.latch, hif := s.hif } = s)) ∧
  (∀ (s : State),
      s.up .host = true →
      ∃ t, exec (.hostReset .flr) s = .next t ∧
        (t.hif = { running := s.hif.running.map (fun r => { r with cut := true }), perstLow := s.hif.perstLow, heldEvents := s.hif.heldEvents } ∧ RegsClearedBut [HIF_STATUS] (lostWord .host 0) s t ∧ t.on HIF_STATUS_LINK_UP = s.on HIF_STATUS_LINK_UP ∧ HostKept s t ∧ { t with regs := s.regs, latch := s.latch, hif := s.hif } = s)) ∧
  (∀ (s : State),
      s.up .host = true →
      ∃ t, exec (.hostReset .pd7) s = .next t ∧
        (t.hif = { running := s.hif.running.map (fun r => { r with cut := true }), perstLow := s.hif.perstLow, heldEvents := s.hif.heldEvents } ∧ t.pdOn 7 = false ∧ HostKept s t ∧ RegsOutE [block 3, (PWR_STATUS, PWR_STATUS + 4)] s t)) ∧
  (∀ (s : State) (source : Fin 48),
      SMap.get s.hif.holdoff 0 source.val ≠ 2 →
      ∃ t, exec (.msixHoldoffEnd source) s = .next t ∧
        (t.hif.holdoff = SMap.put s.hif.holdoff 0 source.val 0 ∧ { t with hif := { t.hif with holdoff := s.hif.holdoff } } = s)) ∧
  (∀ (s : State) (source : Fin 48),
      SMap.get s.hif.holdoff 0 source.val = 2 →
      (s.sourceVector source.val).1 = true →
      s.hif.pci.msixOn = true →
      s.msixMasked (s.sourceVector source.val).2.1 = false →
      ∃ t, exec (.msixHoldoffEnd source) s = .next t ∧
        (HostWrote (s.vectorAddr (s.sourceVector source.val).2.1) (leBytes 4 (s.msixWord (s.sourceVector source.val).2.1 2).toNat) s t ∧
         SMap.get t.hif.holdoff 0 source.val = (if (s.sourceVector source.val).2.2 = 0 then 0 else 1) ∧ t.regs = s.regs)) ∧
  (∀ (s : State) (source : Fin 48),
      SMap.get s.hif.holdoff 0 source.val = 2 →
      (s.sourceVector source.val).1 = true →
      s.hif.pci.msixOn = true →
      s.msixMasked (s.sourceVector source.val).2.1 = true →
      ∃ t, exec (.msixHoldoffEnd source) s = .next t ∧
        (t.hif.msixPba = s.hif.msixPba ||| 2 ^ (s.sourceVector source.val).2.1 ∧ t.regs = s.regs ∧ HostKept s t)) ∧
  (∀ (s : State) (src : CmdSrc) (d : Desc),
      s.takesCommand d [0, 1, 2] false →
      descZero d 16 64 = true →
      ∃ t, exec (.nop src d) s = .next t ∧
        (Completes src d 0 0 s t ∧ RegsButE replyRegs s t ∧ HostKeptR 0 0 s t ∧ t.lessReply s = s)) ∧
  (∀ (s : State),
      s.cmdRuns = true →
      s.hif.running = none →
      s.hif.cmdProd ≠ s.hif.cmdCons →
      descOp (BitVec.ofNat 512 (s.hostRd s.cmdSlot 64)) = 0 →
      ∃ t, exec .cmdFetch s = .next t ∧
        (exec (.nop .localRing (BitVec.ofNat 512 (s.hostRd s.cmdSlot 64))) s = .next t)) ∧
  (∀ (s : State),
      s.cmdRuns = true →
      s.hif.running = none →
      s.hif.cmdProd ≠ s.hif.cmdCons →
      descOp (BitVec.ofNat 512 (s.hostRd s.cmdSlot 64)) = 0xEE →
      s.power = 0 →
      ∃ t, exec .cmdFetch s = .next t ∧
        (Completes .localRing (BitVec.ofNat 512 (s.hostRd s.cmdSlot 64)) 2 0 s t ∧ RegsButE replyRegs s t ∧ HostKeptR 0 0 s t ∧ t.lessReply s = s)) ∧
  (∀ (s : State) (missA : Bool) (missB : Bool),
      (∀ c : Running, s.hif.running = some c →
      (∀ x : Nat × Nat, (match c.kind with | .plain a b => some (a, b) | _ => none) = some x →
      c.cut = false →
      ∃ t, exec (.commandDone missA missB) s = .next t ∧
        (Completes c.src c.desc x.1 x.2 s t ∧ t.hif.running = none ∧ t.on HIF_STATUS_CMD_RUNNING = false ∧ RegsButE (HIF_STATUS :: replyRegs) s t ∧ HostKeptR 0 0 s t))))

/-- R392–R403: the detectors of the Cox pair and the monitors, with the part of the block that a finding may change. -/
def Obligations.DetectorsAndMonitors : Prop :=
  (∀ (s : State),
      s.comparing = true →
      s.cox.seqRunning = false →
      s.power ≠ 3 →
      ∃ t, exec (.lockstepMismatch false false) s = .next t ∧
        (Reacts 1 GLB_FAULT_LOCKSTEP_MISMATCH s t ∧ RegsOutE [block 0, block 1, block 2, block 3, block 0xD, block 0x10, block 0x11, block 0x13, block 0x14, block 0x15] s t)) ∧
  (∀ (s : State) (inPar : Bool),
      s.comparing = true →
      s.cox.seqRunning = false →
      s.power ≠ 3 →
      ∃ t, exec (.lockstepMismatch true inPar) s = .next t ∧
        (Reacts 4 GLB_FAULT_CHECKER_FAULT s t ∧ t.on GLB_FAULT_LOCKSTEP_MISMATCH = true ∧ RegsOutE [block 0, block 1, block 2, block 3, block 0xD, block 0x10, block 0x11, block 0x13, block 0x14, block 0x15] s t)) ∧
  (∀ (s : State) (outPar : Bool) (inPar : Bool),
      s.comparing = false →
      ∃ t, exec (.lockstepMismatch outPar inPar) s = .next t ∧
        (t = s)) ∧
  (∀ (s : State) (alone : Option Bool) (outPar : Bool) (inPar : Bool),
      s.comparing = true →
      s.cox.seqRunning = false →
      s.power ≠ 3 →
      (∀ b : Bool, alone = some b →
      outPar = false →
      inPar = false →
      ∃ t, exec (.checkerFault alone outPar inPar) s = .next t ∧
        (Reacts (if b then 3 else 2) GLB_FAULT_CHECKER_FAULT s t ∧ RegsOutE [block 0, block 1, block 2, block 3, block 0xD, block 0x10, block 0x11, block 0x13, block 0x14, block 0x15] s t))) ∧
  (∀ (s : State) (alone : Option Bool) (outPar : Bool) (inPar : Bool),
      s.comparing = true →
      s.cox.seqRunning = false →
      s.power ≠ 3 →
      alone = none →
      outPar = true ∨ inPar = true →
      ∃ t, exec (.checkerFault alone outPar inPar) s = .next t ∧
        (Reacts (if outPar then 4 else 5) GLB_FAULT_CHECKER_FAULT s t ∧ RegsOutE [block 0, block 1, block 2, block 3, block 0xD, block 0x10, block 0x11, block 0x13, block 0x14, block 0x15] s t)) ∧
  (∀ (s : State) (alone : Option Bool) (outPar : Bool) (inPar : Bool),
      s.comparing = false →
      outPar = false →
      inPar = false →
      ∃ t, exec (.checkerFault alone outPar inPar) s = .next t ∧
        (t = s)) ∧
  (∀ (s : State),
      s.comparing = true →
      s.cox.coresHeld = false →
      s.on (INJ_ARM_ARM 3) = false →
      ∃ t, exec (.selftest false false false false false false) s = .next t ∧
        (t.get COX_SELFTEST_BIT = s.cox.nextBit % 2 ^ COX_SELFTEST_BIT.w ∧ t.get COX_SELFTEST_PASSES = (s.get COX_SELFTEST_PASSES + 1) % 2 ^ COX_SELFTEST_PASSES.w ∧
         t.cox.nextBit = (s.cox.nextBit + 1) % 640 ∧ RegsBut [COX_SELFTEST] s t ∧ { t with regs := s.regs, cox := { t.cox with nextBit := s.cox.nextBit } } = s)) ∧
  (∀ (s : State) (missA : Bool) (missB : Bool) (otherA : Bool) (otherB : Bool),
      s.comparing = true →
      s.cox.seqRunning = false →
      s.power ≠ 3 →
      s.cox.coresHeld = false →
      s.on (INJ_ARM_ARM 3) = false →
      missA = true ∨ missB = true →
      otherA = otherB →
      ∃ t, exec (.selftest missA missB otherA otherB false false) s = .next t ∧
        (Reacts (if missA && missB then 8 else if missA then 6 else 7) GLB_FAULT_CHECKER_FAULT s t ∧ RegsOutE [block 0, block 1, block 2, block 3, block 0xD, block 0x10, block 0x11, block 0x13, block 0x14, block 0x15] s t)) ∧
  (∀ (s : State) (missA : Bool) (missB : Bool) (otherA : Bool) (otherB : Bool) (outPar : Bool) (inPar : Bool),
      s.comparing = true →
      s.cox.seqRunning = false →
      s.power ≠ 3 →
      s.cox.coresHeld = false →
      s.on (INJ_ARM_ARM 3) = false →
      missA = true ∨ missB = true →
      otherA = otherB →
      outPar = true ∨ inPar = true →
      ∃ t, exec (.selftest missA missB otherA otherB outPar inPar) s = .next t ∧
        (Reacts (if outPar then 4 else 5) GLB_FAULT_CHECKER_FAULT s t ∧ RegsOutE [block 0, block 1, block 2, block 3, block 0xD, block 0x10, block 0x11, block 0x13, block 0x14, block 0x15] s t)) ∧
  (∀ (s : State) (alone : Option Bool) (outPar : Bool) (inPar : Bool),
      s.comparing = false →
      s.cox.coresHeld = false →
      s.on COX_STATUS_LS_BROKEN = true →
      s.get COX_STATUS_MODE = 0 →
      s.up .cox = true →
      s.cox.seqRunning = false →
      s.power ≠ 3 →
      outPar = true ∨ inPar = true →
      ∃ t, exec (.checkerFault alone outPar inPar) s = .next t ∧
        (Reacts (if outPar then 4 else 5) GLB_FAULT_CHECKER_FAULT s t ∧ RegsOutE [block 0, block 1, block 2, block 3, block 0xD, block 0x10, block 0x11, block 0x13, block 0x14, block 0x15] s t)) ∧
  (∀ (s : State) (who : Initiator) (w : Fin 2) (value : Word) (ms : Nat),
      s.takesWrite who (COX_WDOG_KICK w.val) value →
      SMap.get s.cox.wdog 0 w.val ≠ 0 →
      value.toNat = (if SMap.get s.cox.wdogSecond false w.val then 0xA5A5 else 0x5A5A) →
      SMap.get s.cox.wdog 0 w.val = 2 → s.get (COX_WDOG_CFG_MIN_MS w.val) ≤ ms →
      ∃ t, exec (.wdogKick who w value ms) s = .next t ∧
        (SMap.get t.cox.wdog 0 w.val = 2 ∧ SMap.get t.cox.wdogSecond false w.val = !SMap.get s.cox.wdogSecond false w.val ∧
         { t with cox := { t.cox with wdog := s.cox.wdog, wdogSecond := s.cox.wdogSecond } } = s)) ∧
  (∀ (s : State) (who : Initiator) (w : Fin 2) (value : Word) (ms : Nat),
      s.takesWrite who (COX_WDOG_KICK w.val) value →
      SMap.get s.cox.wdog 0 w.val ≠ 0 →
      value.toNat ≠ (if SMap.get s.cox.wdogSecond false w.val then 0xA5A5 else 0x5A5A) →
      s.cox.seqRunning = false →
      s.power ≠ 3 →
      ∃ t, exec (.wdogKick who w value ms) s = .next t ∧
        (Reacts (if w.val = 0 then 0x11 else 0x13) GLB_FAULT_WDOG s t ∧ RegsOutE [block 0, block 1, block 2, block 3, block 0xD, block 0x10, block 0x11, block 0x13, block 0x14, block 0x15] s t)) ∧
  (∀ (s : State) (w : Fin 2),
      SMap.get s.cox.wdog 0 w.val ≠ 0 →
      s.cox.seqRunning = false →
      s.power ≠ 3 →
      ∃ t, exec (.wdogExpiry w) s = .next t ∧
        (Reacts (if w.val = 0 then 0x10 else 0x12) GLB_FAULT_WDOG s t ∧ RegsOutE [block 0, block 1, block 2, block 3, block 0xD, block 0x10, block 0x11, block 0x13, block 0x14, block 0x15] s t)) ∧
  (∀ (s : State) (m : Fin 9) (persists : Bool),
      s.up .cox = true →
      s.power ≠ 3 →
      ∃ t, exec (.clockMon m persists) s = .next t ∧
        (t.on GLB_FAULT_CLOCK = true ∧ Captured (0x20 + m.val) s t ∧ Emits 0x0103 0 (args (0x20 + m.val)) s t ∧ t.cox.present.contains (0x20 + m.val) = persists ∧
         t.cox.coresHeld = s.cox.coresHeld ∧ t.frozen = s.frozen ∧ RegsOutE [block 0, block 0x11, block 0x15] s t)) ∧
  (∀ (s : State) (rail : Fin 16) (persists : Bool),
      s.up .cox = true →
      s.power ≠ 3 →
      ∃ t, exec (.supplyMon rail persists) s = .next t ∧
        (t.on GLB_FAULT_SUPPLY = true ∧ Captured (0x30 + rail.val) s t ∧ Emits 0x0104 0 (args (0x30 + rail.val)) s t ∧ t.cox.present.contains (0x30 + rail.val) = persists ∧
         t.cox.coresHeld = s.cox.coresHeld ∧ t.frozen = s.frozen ∧ RegsOutE [block 0, block 0x11, block 0x15] s t)) ∧
  (∀ (s : State) (sensorFail : Bool) (tj : Byte) (persists : Bool) (beyond : Nat),
      s.up .cox = true →
      s.power ≠ 3 →
      sensorFail = true →
      ∃ t, exec (.tempMon sensorFail tj persists beyond) s = .next t ∧
        (t.on GLB_FAULT_TEMP = true ∧ Captured (0x51) s t ∧ Emits 0x0105 0 (args (0x51)) s t ∧ t.cox.present.contains (0x51) = persists ∧
         t.cox.coresHeld = s.cox.coresHeld ∧ t.frozen = s.frozen ∧ RegsOutE [block 0, block 0x11, block 0x15] s t)) ∧
  (∀ (s : State) (sensorFail : Bool) (tj : Byte) (persists : Bool) (beyond : Nat),
      s.up .cox = true →
      s.power ≠ 3 →
      sensorFail = false →
      sext 8 tj.toNat + beyond > (s.get COX_MON_TEMP_LIMIT : Int) →
      ∃ t, exec (.tempMon sensorFail tj persists beyond) s = .next t ∧
        (t.on GLB_FAULT_TEMP = true ∧ Captured (0x50) s t ∧ Emits 0x0105 0 (args (0x50)) s t ∧ t.cox.present.contains (0x50) = persists ∧
         t.cox.coresHeld = s.cox.coresHeld ∧ t.frozen = s.frozen ∧ RegsOutE [block 0, block 0x11, block 0x15] s t ∧
         t.get COX_MON_TJ = wrapInt 8 (min (sext 8 tj.toNat + beyond) 127))) ∧
  (∀ (s : State) (sensorFail : Bool) (tj : Byte) (persists : Bool) (beyond : Nat),
      s.up .cox = true →
      sensorFail = false →
      ¬ sext 8 tj.toNat + beyond > (s.get COX_MON_TEMP_LIMIT : Int) →
      ∃ t, exec (.tempMon sensorFail tj persists beyond) s = .next t ∧
        (t.get COX_MON_TJ = wrapInt 8 (min (sext 8 tj.toNat + beyond) 127) ∧ RegsBut [COX_MON] s t ∧ { t with regs := s.regs, cox := { t.cox with present := s.cox.present } } = s))

/-- R394–R410: control of the Cox pair. -/
def Obligations.CoxControl : Prop :=
  (∀ (s : State) (r : ReleaseResult),
      s.up .cox = true →
      s.cox.coresHeld = true →
      s.on COX_STATUS_HALTED = false →
      s.on OPT_STATUS_VALID = true →
      s.updLive ≠ 8 →
      s.launchReverts s.cox.startCode r.digestOk = none →
      s.get COX_STATUS_MODE = 0 →
      s.on (INJ_ARM_ARM 3) = false →
      s.cox.startCode = 10 →
      s.get LOG_FAIL_START_FAILS + 1 < s.get OPT_BOOT_FAIL_LIMIT →
      s.rst.pw = [] →
      r.digestOk = true →
      r.missA = false →
      r.missB = false →
      (List.range 25).all (fun p => !s.on (INJ_ARM_ARM p)) = true →
      ∃ t, exec (.coreRelease r) s = .next t ∧
        (t.cox.coresHeld = false ∧ t.cox.seqRunning = false ∧ t.cox.wdog = [(0, 1)] ∧ t.get RST_CAUSE_START = 10 ∧ t.on GLB_FAULT_START_PENDING = true ∧
         t.on RST_START_START_OPEN = true ∧ t.get COX_SELFTEST_PASSES = (s.get COX_SELFTEST_PASSES + 1) % 2 ^ COX_SELFTEST_PASSES.w ∧
         t.get COX_STATUS_CORE_RESETS = min (s.get (COX_STATUS_CORE_RESETS) + 1) (2 ^ (COX_STATUS_CORE_RESETS).w - 1) ∧ t.fab.active = s.fab.active ∧ t.fab.staged = s.fab.staged)) ∧
  (∀ (s : State) (r : ReleaseResult),
      s.up .cox = true →
      s.cox.coresHeld = true →
      s.on COX_STATUS_HALTED = false →
      s.on OPT_STATUS_VALID = true →
      s.updLive ≠ 8 →
      s.launchReverts s.cox.startCode r.digestOk = none →
      s.get COX_STATUS_MODE = 0 →
      s.on (INJ_ARM_ARM 3) = false →
      s.cox.startCode = 10 →
      s.get LOG_FAIL_START_FAILS + 1 < s.get OPT_BOOT_FAIL_LIMIT →
      s.rst.pw = [] →
      r.digestOk = true →
      r.missA = true ∨ r.missB = true →
      ∃ t, exec (.coreRelease r) s = .next t ∧
        (t.cox.coresHeld = true ∧ t.on COX_STATUS_HALTED = true ∧ t.on GLB_FAULT_CHECKER_FAULT = true ∧ Captured (if r.missA && r.missB then 8 else if r.missA then 6 else 7) s t ∧
         t.get COX_STATUS_CORE_RESETS = s.get COX_STATUS_CORE_RESETS ∧ t.fab.active = s.fab.active)) ∧
  (∀ (s : State) (who : Initiator),
      s.takesWrite who COX_CTRL 1 →
      ∃ t, exec (.unfreeze who) s = .next t ∧
        ((s.mayUnfreeze = true → t.frozen = false) ∧ (s.mayUnfreeze = false → t.frozen = s.frozen) ∧ RegsBut [COX_STATUS] s t ∧ { t with regs := s.regs, pins := { t.pins with faultHold := s.pins.faultHold } } = s)) ∧
  (∀ (s : State) (src : CmdSrc) (d : Desc),
      s.takesCommand d [0, 1] true →
      descBits d 16 8 < 2 →
      descZero d 17 64 = true →
      descBits d 16 8 ≠ s.get COX_STATUS_MODE →
      s.get COX_STATUS_MODE ≠ 2 →
      s.on COX_STATUS_DEBUG = false →
      ∃ t, exec (.coxMode src d) s = .next t ∧
        (t.get COX_STATUS_MODE = 2 ∧ RunsOn src d (.coxMode (descBits d 16 8)) s t ∧ RegsBut [COX_STATUS, HIF_STATUS] s t ∧ HostKept s t)) ∧
  (∀ (s : State) (missA : Bool) (missB : Bool),
      (∀ c : Running, s.hif.running = some c →
      c.kind = .coxMode 1 →
      c.cut = false →
      ∃ t, exec (.commandDone missA missB) s = .next t ∧
        (t.get COX_STATUS_MODE = 1 ∧ SMap.get t.cox.wdog 0 1 = 1 ∧ Completes c.src c.desc 0 0 s t ∧ t.hif.running = none))) ∧
  (∀ (s : State) (missA : Bool) (missB : Bool),
      (∀ c : Running, s.hif.running = some c →
      c.kind = .coxMode 0 →
      c.cut = false →
      missA = false →
      missB = false →
      s.on (INJ_ARM_ARM 3) = false →
      ∃ t, exec (.commandDone missA missB) s = .next t ∧
        (t.get COX_STATUS_MODE = 0 ∧ SMap.get t.cox.wdog 0 1 = 0 ∧ Completes c.src c.desc 0 0 s t ∧ t.hif.running = none))) ∧
  (∀ (s : State) (scans : List JtagScan) (attach : Bool),
      attach = true →
      s.debugAllowed = true →
      s.up .debug = true →
      s.up .cox = true →
      ∃ t, exec (.debugAttach scans attach) s = .next t ∧
        (t.on COX_STATUS_DEBUG = true ∧ (s.get COX_STATUS_MODE = 0 → t.on COX_STATUS_LS_BROKEN = true) ∧ RegsBut [COX_STATUS] s t ∧ { t with regs := s.regs, jtag := s.jtag, freeCtr := s.freeCtr } = s)) ∧
  (∀ (s : State) (scans : List JtagScan) (attach : Bool),
      s.get COX_LIFECYCLE_STATE = 2 →
      ∃ t, exec (.debugAttach scans attach) s = .next t ∧
        ({ t with jtag := s.jtag } = s)) ∧
  (∀ (s : State) (tdi : List Bool) (attach : Bool),
      s.up .debug = true →
      tdi.length = 32 →
      ∃ t, exec (.debugAttach ([⟨.idcode, tdi⟩]) attach) s = .next t ∧
        (t.jtag.ir = .idcode ∧ t.jtag.tdo = s.jtag.tdo ++ (List.range 32).map (fun k => bit jtagIdcode.toNat k) ∧ t.jtag.cells = s.jtag.cells)) ∧
  (∀ (s : State),
      ∃ t, exec .debugDetach s = .next t ∧
        (t.on COX_STATUS_DEBUG = false ∧ RegsBut [COX_STATUS] s t ∧ { t with regs := s.regs } = s)) ∧
  (∀ (s : State) (src : CmdSrc) (d : Desc),
      s.takesCommand d [0, 1, 2] true →
      descZero d 17 24 = true →
      descZero d 32 64 = true →
      descBits d 24 64 % 8 = 0 →
      src = .localRing →
      descBits d 16 8 = 2 →
      descBits d 24 64 = 0 →
      s.get COX_LIFECYCLE_STATE = 1 →
      ∃ t, exec (.lifecycle src d) s = .next t ∧
        (RunsOn src d (.lifecycle 2 []) s t ∧ RegsBut [HIF_STATUS] s t ∧ HostKept s t)) ∧
  (∀ (s : State) (src : CmdSrc) (d : Desc),
      s.takesCommand d [0, 1, 2] true →
      descZero d 17 24 = true →
      descZero d 32 64 = true →
      descBits d 24 64 % 8 = 0 →
      src = .localRing →
      1 ≤ descBits d 16 8 →
      descBits d 16 8 ≤ 3 →
      descBits d 16 8 ≠ 2 ∨ descBits d 24 64 = 0 →
      lifecycleNext (s.get COX_LIFECYCLE_STATE) (descBits d 16 8) = false →
      ∃ t, exec (.lifecycle src d) s = .next t ∧
        (Completes src d 4 0 s t ∧ t.lessReply s = s ∧ RegsButE replyRegs s t ∧ HostKeptR 0 0 s t)) ∧
  (∀ (s : State) (missA : Bool) (missB : Bool),
      (∀ c : Running, s.hif.running = some c →
      c.kind = .lifecycle 2 [] →
      c.cut = false →
      ∃ t, exec (.commandDone missA missB) s = .next t ∧
        (t.get COX_LIFECYCLE_STATE = 2 ∧ Completes c.src c.desc 0 0 s t ∧ t.hif.running = none ∧
         (t.get PWR_STATUS_ON = s.get PWR_STATUS_ON → RegsButE ([COX_LIFECYCLE, HIF_STATUS] ++ replyRegs) s t)))) ∧
  (∀ (s : State) (src : CmdSrc) (d : Desc),
      s.takesCommand d [0, 1, 2] true →
      descZero d 17 24 = true →
      descZero d 32 64 = true →
      descBits d 24 64 % 8 = 0 →
      src = .localRing →
      descBits d 16 8 = 0 →
      descBits d 24 64 = 0 →
      s.get COX_LIFECYCLE_STATE ≠ 0 →
      s.on COX_LIFECYCLE_OWNER_LOCK = false →
      s.worn .ownerLock = false →
      ∃ t, exec (.ownerLock src d) s = .next t ∧
        (RunsOn src d (.ownerLock true) s t ∧ HostKept s t ∧ t.on COX_LIFECYCLE_OWNER_LOCK = false)) ∧
  (∀ (s : State) (missA : Bool) (missB : Bool),
      (∀ c : Running, s.hif.running = some c →
      c.kind = .ownerLock true →
      c.cut = false →
      ∃ t, exec (.commandDone missA missB) s = .next t ∧
        (t.on COX_LIFECYCLE_OWNER_LOCK = true ∧ Completes c.src c.desc 0 0 s t ∧ t.hif.running = none ∧
         (t.get PWR_STATUS_ON = s.get PWR_STATUS_ON → RegsButE ([COX_LIFECYCLE, HIF_STATUS] ++ replyRegs) s t)))) ∧
  (∀ (s : State) (who : Initiator),
      s.takesWrite who INJ_CTRL 1 →
      ∃ t, exec (.injEnable who) s = .next t ∧
        (t.on INJ_CTRL_EN = true ∧ RegsBut [INJ_CTRL] s t ∧ { t with regs := s.regs, pins := { t.pins with faultHold := s.pins.faultHold } } = s)) ∧
  (∀ (s : State) (who : Initiator),
      s.takesWrite who INJ_CTRL 0 →
      ∃ t, exec (.injDisable who) s = .next t ∧
        (t.on INJ_CTRL_EN = false ∧ ((List.range 25).all fun p => !t.on (INJ_ARM_ARM p)) = true ∧ RegsBut (INJ_CTRL :: (List.range 25).map INJ_ARM) s t ∧ HostKept s t)) ∧
  (∀ (s : State) (who : Initiator) (p : Fin 25) (value : Word),
      s.takesWrite who (INJ_ARM p.val) value →
      [3, 8, 9, 10, 11, 16, 18, 19, 20, 21, 22, 23, 24].contains p.val = true →
      bit value.toNat 31 = true →
      ∃ t, exec (.injArm who p value) s = .next t ∧
        (t.on (INJ_ARM_ARM p.val) = true ∧ t.get (INJ_ARM_TARGET p.val) = bits value.toNat (INJ_ARM_TARGET p.val).lo (INJ_ARM_TARGET p.val).w ∧ RegsBut [INJ_ARM p.val] s t ∧ { t with regs := s.regs, pins := { t.pins with faultHold := s.pins.faultHold } } = s))

/-- R415–R426: what each command does to the slots. Drawn keys and IVs are free values; the ciphers are functions that the model leaves open. -/
def Obligations.KeySlots : Prop :=
  (∀ (s : State) (src : CmdSrc) (d : Desc),
      s.takesCommand d [0, 1] false →
      descBits d 16 8 ≠ 0 →
      descBits d 17 8 ≤ 2 →
      pairOk (descBits d 17 8) (descBits d 18 8) = true →
      descBits d 19 8 ≤ 1 →
      descZero d 24 64 = true →
      s.keyRefused (some (descBits d 16 8)) true true = none →
      s.slotWorn (descBits d 16 8) = false →
      ∃ t, exec (.keyGenerate src d) s = .next t ∧
        (SlotWritten src d (descBits d 16 8) (t.slotSoon (descBits d 16 8)) s t ∧ slotValid (t.slotSoon (descBits d 16 8)) = true ∧
         slotType (t.slotSoon (descBits d 16 8)) = descBits d 17 8 ∧ slotUsage (t.slotSoon (descBits d 16 8)) = descBits d 18 8 ∧
         slotExport (t.slotSoon (descBits d 16 8)) = (descBits d 19 8 == 1) ∧ ebits (t.slotSoon (descBits d 16 8)) 8 0 32 = descBits d 20 32)) ∧
  (∀ (s : State) (src : CmdSrc) (d : Desc),
      s.takesCommand d [0, 1] false →
      descBits d 16 8 ≠ 0 →
      descBits d 17 8 ≤ 2 →
      pairOk (descBits d 17 8) (descBits d 18 8) = true →
      descBits d 19 8 ≤ 1 →
      descZero d 24 64 = true →
      (s.keyRefused (some (descBits d 16 8)) true true).isSome = true →
      ∃ t, exec (.keyGenerate src d) s = .next t ∧
        (Completes src d 4 0 s t ∧ t.lessReply s = s ∧ RegsButE replyRegs s t ∧ HostKeptR 0 0 s t)) ∧
  (∀ (s : State) (src : CmdSrc) (d : Desc),
      s.takesCommand d [0, 1] false →
      SMap.get s.key.slotErr 0 (descBits d 16 8) = 0 →
      descBits d 17 8 = 0 →
      descZero d 19 24 = true →
      descZero d 32 64 = true →
      descBits d 24 64 % 8 = 0 →
      src = .localRing →
      s.keyRefused none false true = none →
      descBits d 16 8 ≠ 0 →
      slotValid (s.slot (descBits d 16 8)) = true →
      slotExport (s.slot (descBits d 16 8)) = true →
      ∃ t, exec (.keyWrap src d []) s = .next t ∧
        (HostWrote (descBits d 24 64) (s.makeBlob (s.slot (descBits d 16 8)) (sliceBytes (t.hostBytes (descBits d 24 64) 144) 24 12)) s t ∧
         RunsOn src d (.plain 0 144) s t ∧ RegsBut [HIF_STATUS] s t ∧ SlotsBut 256 s t)) ∧
  (∀ (s : State) (src : CmdSrc) (d : Desc),
      s.takesCommand d [0, 1] false →
      SMap.get s.key.slotErr 0 (descBits d 16 8) = 0 →
      SMap.get s.key.slotErr 0 (descBits d 18 8) = 0 →
      descBits d 17 8 = 1 →
      descZero d 19 24 = true →
      descZero d 32 64 = true →
      descBits d 24 64 % 8 = 0 →
      src = .localRing →
      s.keyRefused none false true = none →
      descBits d 16 8 ≠ 0 →
      slotValid (s.slot (descBits d 16 8)) = true →
      slotExport (s.slot (descBits d 16 8)) = true →
      slotType (s.slot (descBits d 16 8)) = 0 →
      slotValid (s.slot (descBits d 18 8)) = true →
      slotUsage (s.slot (descBits d 18 8)) = 2 →
      ∃ t, exec (.keyWrap src d []) s = .next t ∧
        (HostWrote (descBits d 24 64) (sliceBytes (Config.kwpWrap (slotKey (s.slot (descBits d 18 8))) (slotKey (s.slot (descBits d 16 8)))) 0 40) s t ∧
         RunsOn src d (.plain 0 40) s t ∧ RegsBut [HIF_STATUS] s t ∧ SlotsBut 256 s t)) ∧
  (∀ (s : State) (src : CmdSrc) (d : Desc),
      s.takesCommand d [0, 1] false →
      SMap.get s.key.slotErr 0 (descBits d 16 8) = 0 →
      SMap.get s.key.slotErr 0 (descBits d 18 8) = 0 →
      descBits d 17 8 ≤ 1 →
      descZero d 19 24 = true →
      descZero d 32 64 = true →
      descBits d 24 64 % 8 = 0 →
      src = .localRing →
      s.keyRefused none false true = none →
      descBits d 16 8 = 0 ∨ slotValid (s.slot (descBits d 16 8)) = false ∨ slotExport (s.slot (descBits d 16 8)) = false →
      ∃ t, exec (.keyWrap src d []) s = .next t ∧
        (SlotsKept src d 9 s t)) ∧
  (∀ (s : State) (src : CmdSrc) (d : Desc),
      s.takesCommand d [0, 1] false →
      descBits d 16 8 ≠ 0 →
      descBits d 17 8 = 0 →
      descBits d 19 8 = 0 →
      descBits d 20 8 = 0 →
      descBits d 21 8 = 0 →
      descBits d 32 32 = 0 →
      descBits d 22 16 = 144 →
      descZero d 36 64 = true →
      descBits d 24 64 % 8 = 0 →
      src = .localRing →
      s.keyRefused (some (descBits d 16 8)) true false = none →
      s.slotWorn (descBits d 16 8) = false →
      ∃ t, exec (.keyUnwrap src d []) s = .next t ∧
        ((∀ e, s.openBlob (s.hostBytes (descBits d 24 64) 144) = some e → SlotWritten src d (descBits d 16 8) e s t) ∧
         (s.openBlob (s.hostBytes (descBits d 24 64) 144) = none → SlotsKept src d 7 s t))) ∧
  (∀ (s : State) (src : CmdSrc) (d : Desc),
      s.takesCommand d [0, 1] false →
      SMap.get s.key.slotErr 0 (descBits d 18 8) = 0 →
      descBits d 16 8 ≠ 0 →
      descBits d 17 8 = 1 →
      descBits d 19 8 = 0 →
      descBits d 20 8 = 3 →
      descBits d 21 8 ≤ 1 →
      descZero d 36 64 = true →
      descBits d 24 64 % 8 = 0 →
      src = .localRing →
      s.keyRefused (some (descBits d 16 8)) true false = none →
      s.slotWorn (descBits d 16 8) = false →
      slotValid (s.slot (descBits d 18 8)) = true →
      slotUsage (s.slot (descBits d 18 8)) = 2 →
      ∃ t, exec (.keyUnwrap src d []) s = .next t ∧
        ((∀ k, (Config.kwpUnwrap (slotKey (s.slot (descBits d 18 8))) (s.hostBytes (descBits d 24 64) (descBits d 22 16))).filter (fun k => k.length == 32) = some k →
           SlotWritten src d (descBits d 16 8) (slotMake 2 0 3 (descBits d 21 8) (descBits d 32 32) k) s t) ∧
         ((Config.kwpUnwrap (slotKey (s.slot (descBits d 18 8))) (s.hostBytes (descBits d 24 64) (descBits d 22 16))).filter (fun k => k.length == 32) = none → SlotsKept src d 7 s t))) ∧
  (∀ (s : State) (src : CmdSrc) (d : Desc),
      s.takesCommand d [0, 1] false →
      SMap.get s.key.slotErr 0 (descBits d 17 8) = 0 →
      descBits d 16 8 ≠ 0 →
      descBits d 18 8 = 0 →
      descBits d 19 8 = 0 →
      descBits d 20 8 = 1 →
      descBits d 21 8 ≤ 1 →
      descZero d 36 64 = true →
      descBits d 24 64 % 8 = 0 →
      src = .localRing →
      descBits d 22 16 = 4 →
      beAt (s.hostBytes (descBits d 24 64) 4) 0 4 = 0 →
      s.keyRefused (some (descBits d 16 8)) true false = none →
      s.slotWorn (descBits d 16 8) = false →
      slotValid (s.slot (descBits d 17 8)) = true →
      slotUsage (s.slot (descBits d 17 8)) = 3 →
      slotType (s.slot (descBits d 17 8)) ≠ 2 →
      descBits d 21 8 = 1 → slotExport (s.slot (descBits d 17 8)) = true →
      ∃ t, exec (.keyDerive src d []) s = .next t ∧
        (SlotWritten src d (descBits d 16 8) (slotMake 3 0 1 (descBits d 21 8) (descBits d 32 32) (Config.hkdf (slotKey (s.slot (descBits d 17 8))) [] [] 32)) s t)) ∧
  (∀ (s : State) (src : CmdSrc) (d : Desc),
      s.takesCommand d [0, 1] false →
      SMap.get s.key.slotErr 0 (descBits d 17 8) = 0 →
      descBits d 16 8 ≠ 0 →
      descBits d 18 8 = 0 →
      descBits d 19 8 = 0 →
      descBits d 20 8 = 1 →
      descBits d 21 8 ≤ 1 →
      descZero d 36 64 = true →
      descBits d 24 64 % 8 = 0 →
      src = .localRing →
      descBits d 22 16 = 4 →
      beAt (s.hostBytes (descBits d 24 64) 4) 0 4 = 0 →
      s.keyRefused (some (descBits d 16 8)) true false = none →
      slotValid (s.slot (descBits d 17 8)) = false ∨ slotUsage (s.slot (descBits d 17 8)) ≠ 3 →
      ∃ t, exec (.keyDerive src d []) s = .next t ∧
        (SlotsKept src d 9 s t)) ∧
  (∀ (s : State) (src : CmdSrc) (d : Desc),
      s.takesCommand d [0, 1] false →
      descBits d 24 64 % 8 = 0 →
      descBits d 17 8 = 0 →
      descZero d 19 24 = true →
      descZero d 32 64 = true →
      src = .localRing →
      s.keyRefused none false true = none →
      descBits d 16 8 ≠ 0 →
      SMap.get s.key.slotErr 0 (descBits d 16 8) = 2 →
      ∃ t, exec (.keyWrap src d []) s = .next t ∧
        (t.slot (descBits d 16 8) = 0 ∧ t.get KEY_ECC_UNCORR_COUNT = min (s.get (KEY_ECC_UNCORR_COUNT) + 1) (2 ^ (KEY_ECC_UNCORR_COUNT).w - 1) ∧ t.on GLB_FAULT_ECC_UNCORR = true ∧
         Emits 0x0902 0 (args (descBits d 16 8) 1) s t ∧ RunsOn src d (.plain 9 0) s t)) ∧
  (∀ (s : State) (src : CmdSrc) (d : Desc),
      s.takesCommand d [0, 1] false →
      descBits d 24 64 % 8 = 0 →
      descBits d 17 8 = 0 →
      descZero d 19 24 = true →
      descZero d 32 64 = true →
      src = .localRing →
      s.keyRefused none false true = none →
      descBits d 16 8 ≠ 0 →
      SMap.get s.key.slotErr 0 (descBits d 16 8) = 1 →
      ∃ t, exec (.keyWrap src d []) s = .next t ∧
        (t.get KEY_ECC_CORR_COUNT = min (s.get (KEY_ECC_CORR_COUNT) + 1) (2 ^ (KEY_ECC_CORR_COUNT).w - 1) ∧ t.slot (descBits d 16 8) = s.slot (descBits d 16 8) ∧ SMap.get t.key.slotErr 0 (descBits d 16 8) = 0)) ∧
  (∀ (s : State) (src : CmdSrc) (d : Desc) (upsets : List SlotUpset),
      ∃ t, exec (.keyWrap src d upsets) s = .next t ∧
        (exec (.keyWrap src d []) (s.each upsets fun u x => u.slotUpset x) = .next t)) ∧
  (∀ (s : State) (src : CmdSrc) (d : Desc) (upsets : List SlotUpset),
      ∃ t, exec (.keyUnwrap src d upsets) s = .next t ∧
        (exec (.keyUnwrap src d []) (s.each upsets fun u x => u.slotUpset x) = .next t)) ∧
  (∀ (s : State) (src : CmdSrc) (d : Desc) (upsets : List SlotUpset),
      ∃ t, exec (.keyDerive src d upsets) s = .next t ∧
        (exec (.keyDerive src d []) (s.each upsets fun u x => u.slotUpset x) = .next t)) ∧
  (∀ (s : State) (src : CmdSrc) (d : Desc),
      s.takesCommand d [0, 1] false →
      descZero d 17 64 = true →
      s.keyRefused (some (descBits d 16 8)) false false = none →
      descBits d 16 8 ≠ 0 →
      s.slotWorn (descBits d 16 8) = false →
      ∃ t, exec (.keyDestroy src d) s = .next t ∧
        (t.slotSoon (descBits d 16 8) = 0 ∧ (8 ≤ descBits d 16 8 → t.slotTarget (descBits d 16 8) = 0 ∧ t.slot (descBits d 16 8) = 0) ∧
         ((List.range 256).all fun k => k == descBits d 16 8 || (t.slotSoon k == s.slotSoon k && t.slotTarget k == s.slotTarget k)) = true ∧
         RunsOn src d (.plain 0 0) s t ∧ HostKept s t)) ∧
  (∀ (s : State) (src : CmdSrc) (d : Desc),
      s.takesCommand d [0, 1] false →
      descZero d 17 64 = true →
      s.keyRefused (some (descBits d 16 8)) false false = none →
      descBits d 16 8 = 0 →
      ∃ t, exec (.keyDestroy src d) s = .next t ∧
        (SlotsKept src d 9 s t))

/-- R421, R427, R435, R436. Random octets and signatures are free values. -/
def Obligations.AttestationAndRandom : Prop :=
  (∀ (s : State) (src : CmdSrc) (d : Desc),
      s.takesCommand d [0, 1, 2] false →
      SMap.get s.key.slotErr 0 0 = 0 →
      s.key.idLost = false →
      descBits d 16 64 % 8 = 0 →
      descZero d 56 64 = true →
      src = .localRing →
      s.keyRefused none false true = none →
      ∃ t, exec (.attest src d) s = .next t ∧
        ((s.dmaOn = true → t.hostBytes (descBits d 16 64) 712 = (s.kset fun k => { k with statements := k.statements + 1 }).statement (leBytes 32 (descBits d 24 256))) ∧
         t.key.statements = s.key.statements + 1 ∧ HostBut (descBits d 16 64) 848 s t ∧ RunsOn src d (.plain 0 848) s t ∧
         RegsBut [HIF_STATUS] s t ∧ SlotsBut 256 s t)) ∧
  (∀ (s : State) (src : CmdSrc) (d : Desc),
      s.takesCommand d [0, 1, 2] false →
      descBits d 16 64 % 8 = 0 →
      1 ≤ descBits d 24 32 →
      descBits d 24 32 ≤ 4096 →
      descZero d 28 64 = true →
      src = .localRing →
      s.keyRefused none false true = none →
      ∃ t, exec (.random src d) s = .next t ∧
        (HostBut (descBits d 16 64) (descBits d 24 32) s t ∧ RunsOn src d (.plain 0 (descBits d 24 32)) s t ∧
         RegsBut [HIF_STATUS] s t ∧ SlotsBut 256 s t ∧ { t with regs := s.regs, hostMem := s.hostMem, hif := s.hif, pwr := s.pwr, freeCtr := s.freeCtr } = s)) ∧
  (∀ (s : State) (apt : Bool),
      s.up .key = true →
      ∃ t, exec (.trngHealthFail apt) s = .next t ∧
        (t.on KEY_STATUS_TRNG_FAIL = true ∧ t.get (if apt then KEY_TRNG_APT_FAIL else KEY_TRNG_RCT_FAIL) =
           min (s.get (if apt then KEY_TRNG_APT_FAIL else KEY_TRNG_RCT_FAIL) + 1) (2 ^ (if apt then KEY_TRNG_APT_FAIL else KEY_TRNG_RCT_FAIL).w - 1) ∧
         Emits 0x0902 0 (args 0 2) s t ∧ RegsButE [KEY_STATUS, KEY_TRNG] s t ∧ HostKeptE 2 s t ∧ t.lessEvents s = s)) ∧
  (∀ (s : State) (who : Initiator) (pass : Bool),
      s.hostTurned who = false →
      s.busFree →
      s.up .key = true →
      ∃ t, exec (.trngRetest who pass) s = .next t ∧
        (t.on KEY_STATUS_TRNG_FAIL = (if pass then false else s.on KEY_STATUS_TRNG_FAIL) ∧ RegsBut [KEY_STATUS] s t ∧ { t with regs := s.regs } = s))

/-- R444–R454: the update engine up to WRITTEN, and its way back. -/
def Obligations.UpdateWriting : Prop :=
  (∀ (s : State) (src : CmdSrc) (d : Desc),
      s.takesCommand d [0, 1] false →
      src = .localRing →
      descBits d 16 64 % 64 = 0 →
      descBits d 24 32 % 64 = 0 →
      64 ≤ descBits d 28 32 →
      descBits d 28 32 ≤ 1048576 →
      descBits d 32 8 < 2 →
      descZero d 33 64 = true →
      s.pdOn 8 = true →
      s.dramReady = true →
      s.updLive ≤ 2 →
      descBits d 24 32 + descBits d 28 32 ≤ s.get UPD_STAGE_SIZE * 2 ^ 21 →
      ∃ t, exec (.updLoad src d) s = .next t ∧
        (t.dramBytes (s.stageAddr (descBits d 24 32)) (descBits d 28 32) = s.hostBytes (descBits d 16 64) (descBits d 28 32) ∧ UpdEnters 1 s t ∧
         Completes src d 0 0 s t ∧ HostKeptR 0 0 s t)) ∧
  (∀ (s : State) (src : CmdSrc) (d : Desc),
      s.takesCommand d [0, 1] false →
      src = .localRing →
      descBits d 16 64 % 64 = 0 →
      descBits d 24 32 % 64 = 0 →
      64 ≤ descBits d 28 32 →
      descBits d 28 32 ≤ 1048576 →
      descBits d 32 8 < 2 →
      descZero d 33 64 = true →
      s.pdOn 8 = true →
      s.dramReady = true →
      s.updLive ≤ 2 →
      s.get UPD_STAGE_SIZE * 2 ^ 21 < descBits d 24 32 + descBits d 28 32 →
      ∃ t, exec (.updLoad src d) s = .next t ∧
        (Completes src d 6 0 s t ∧ t.lessReply s = s ∧ RegsButE replyRegs s t ∧ HostKeptR 0 0 s t)) ∧
  (∀ (s : State) (src : CmdSrc) (d : Desc),
      s.takesCommand d [0, 1, 2] false →
      descBits d 20 32 < 2 →
      descZero d 24 64 = true →
      s.updLive = 1 →
      ∃ t, exec (.updVerify src d) s = .next t ∧
        (RunsOn src d .updVerify s t ∧ RegsBut [HIF_STATUS] s t ∧ HostKept s t ∧ t.upd = s.upd)) ∧
  (∀ (s : State) (src : CmdSrc) (d : Desc),
      s.takesCommand d [0, 1, 2] false →
      descBits d 20 32 < 2 →
      descZero d 24 64 = true →
      s.updLive ≠ 1 →
      ∃ t, exec (.updVerify src d) s = .next t ∧
        (Completes src d 4 0 s t ∧ t.lessReply s = s ∧ RegsButE replyRegs s t ∧ HostKeptR 0 0 s t)) ∧
  (∀ (s : State) (missA : Bool) (missB : Bool),
      (∀ c : Running, s.hif.running = some c →
      c.kind = .updVerify →
      c.cut = false →
      s.dram.badWords = [] →
      (∀ x : Nat × Nat × Nat, s.updChecks (descBits c.desc 16 32) (bit (descBits c.desc 20 32) 0) = some x →
      ∃ t, exec (.commandDone missA missB) s = .next t ∧
        (Completes c.src c.desc x.2.2 (x.1 * 256 + x.2.1) s t ∧ t.hif.running = none ∧ t.upd = s.upd ∧ t.updLive = s.updLive ∧ RegsButE (HIF_STATUS :: replyRegs) s t)))) ∧
  (∀ (s : State),
      s.up .cox = true →
      s.updLive = 3 →
      (∀ e : Nat × Option Nat, s.upd.todo.head? = some e →
      s.dram.badWords = [] →
      ∃ t, exec (.flashBlockDone true) s = .next t ∧
        (t.upd.todo = s.upd.todo.tail ∧ t.upd.tries = 0 ∧ t.flashAt e.1 = s.newBlock e.2 ∧ FlashBut [e.1, s.slotBlock s.upd.slots, s.slotBlock s.upd.slots + 1] s t ∧
         (s.upd.tries = 0 → e.1 ≠ s.slotBlock s.upd.slots → t.upd.slots = s.upd.slots + 1 ∧
           t.flashAt (s.slotBlock s.upd.slots) = (slotHeader s.upd.seq s.upd.slots (e.1 * 65536) (crc32c (s.flashAt e.1)) ++ s.flashAt e.1).take 65536) ∧
         t.get UPD_PROGRESS_DONE = (s.get UPD_PROGRESS_DONE + 1) % 2 ^ UPD_PROGRESS_DONE.w ∧ UpdEnters (if s.upd.todo.length = 1 then 4 else 3) s t ∧ RegsOutE (updateRegs ++ [(HFP_TX_MSG, HFP_TX_MSG + 4), (HFP_NO_ROUTE, HFP_NO_ROUTE + 4)]) s t))) ∧
  (∀ (s : State),
      s.up .cox = true →
      s.updLive = 3 →
      (∀ e : Nat × Option Nat, s.upd.todo.head? = some e →
      s.upd.tries < 2 →
      s.dram.badWords = [] →
      ∃ t, exec (.flashBlockDone false) s = .next t ∧
        (t.upd.tries = s.upd.tries + 1 ∧ t.upd.todo = s.upd.todo ∧ FlashBut [e.1, s.slotBlock s.upd.slots, s.slotBlock s.upd.slots + 1] s t ∧ t.regs = s.regs ∧
         { t with upd := s.upd, dram := s.dram, freeCtr := s.freeCtr } = s))) ∧
  (∀ (s : State),
      s.up .cox = true →
      s.updLive = 3 →
      (∀ e : Nat × Option Nat, s.upd.todo.head? = some e →
      s.upd.tries = 2 →
      s.commitState = 0 →
      s.dram.badWords = [] →
      ∃ t, exec (.flashBlockDone false) s = .next t ∧
        (UpdEnters 8 s t ∧ t.updCause = 2 ∧ t.upd.todo = [] ∧ FlashBut [e.1] s t ∧ RegsOutE (updateRegs ++ [(HFP_TX_MSG, HFP_TX_MSG + 4), (HFP_NO_ROUTE, HFP_NO_ROUTE + 4)]) s t))) ∧
  (∀ (s : State),
      s.up .cox = true →
      s.updLive = 8 →
      s.cox.coresHeld = true →
      s.hif.running = none →
      ∃ t, exec .journalReplayDone s = .next t ∧
        (UpdEnters 0 s t ∧ t.upd.slots = 0 ∧ t.upd.revertedDue = true ∧ FlashBut (s.slotBlock 0 :: (s.slotBlock 0 + 1) :: s.validSlots.map (·.1)) s t ∧
         ((s.validSlots.map (·.1)).Nodup → (s.validSlots.all fun e => e.1 == s.slotBlock 0 || e.1 == s.slotBlock 0 + 1 || t.flashAt e.1 == e.2) = true)))

/-- R449, R455–R458: the update engine from WRITTEN on. -/
def Obligations.UpdateActivation : Prop :=
  (∀ (s : State) (src : CmdSrc) (d : Desc),
      s.takesCommand d [0, 1] true →
      s.activateOk d = true →
      s.activateRefused (commitArgs d) = none →
      s.updClear = true →
      (commitArgs d).fabric = false →
      s.upd.entries = [] →
      ∃ t, exec (.updActivate src d) s = .next t ∧
        (t.commitState = 1 ∧ RunsOn src d .updActivate s t ∧ t.fab.job.any (fun j => j.upd && !j.heated && !j.fabric && j.id == (commitArgs d).id) = true ∧
         t.updLive = 4 ∧ t.fab.active = s.fab.active ∧ t.fab.staged = s.fab.staged ∧ HostKept s t)) ∧
  (∀ (s : State) (src : CmdSrc) (d : Desc),
      s.takesCommand d [0, 1] true →
      s.activateOk d = true →
      s.updLive ≠ 4 →
      ∃ t, exec (.updActivate src d) s = .next t ∧
        (Completes src d 4 0 s t ∧ t.lessReply s = s ∧ RegsButE replyRegs s t ∧ HostKeptR 0 0 s t)) ∧
  (∀ (s : State),
      (∀ j : CommitJob, s.fab.job = some j →
      s.commitState = 2 →
      j.upd = true →
      j.mask = 0 →
      j.timed = false ∨ s.domNs 0 ≥ j.at_ →
      s.upd.entries = [] →
      s.power ≠ 3 →
      s.cox.seqRunning = false →
      ∃ t, exec .updActivation s = .next t ∧
        (t.updLive = 6 ∧ t.commitState = 0 ∧ t.cox.coresHeld = true ∧ t.cox.startCode = 11 ∧ t.cox.wdog = [] ∧ t.fab.active = s.fab.active ∧ t.fab.staged = s.fab.staged))) ∧
  (∀ (s : State) (who : Initiator) (value : Word),
      s.takesWrite who UPD_HEALTH value →
      s.updLive = 6 →
      s.hfp.fabMember = none →
      s.hfp.fabInit = none →
      s.power ≠ 2 →
      ∃ t, exec (.healthConfirm who value) s = .next t ∧
        (UpdEnters 0 s t ∧ t.upd.slots = 0 ∧ t.upd.entries = [] ∧ FlashBut [s.slotBlock 0, s.slotBlock 0 + 1] s t ∧ RegsOutE updateRegs s t)) ∧
  (∀ (s : State),
      s.up .cox = true →
      s.updLive = 6 →
      ∃ t, exec .healthExpiry s = .next t ∧
        (WasReset 5 s t ∧ t.get UPD_STATUS_REVERT_CAUSE = 1 ∧ t.updLive = 6 ∧ HostKept s t)) ∧
  (∀ (s : State) (src : CmdSrc) (d : Desc),
      s.takesCommand d [0, 1] false →
      descZero d 16 64 = true →
      1 ≤ s.updLive →
      s.updLive ≤ 4 →
      s.validSlots = [] →
      s.commitState = 0 →
      s.hfp.fabMember = none →
      s.hfp.fabInit = none →
      s.rst.asked = false →
      ∃ t, exec (.updAbort src d) s = .next t ∧
        (UpdEnters 0 s t ∧ Completes src d 0 0 s t ∧ t.upd.todo = [] ∧ t.upd.flash = s.upd.flash ∧ HostKeptR 0 0 s t ∧ RegsOutE (updateRegs ++ [(HFP_TX_MSG, HFP_TX_MSG + 4), (HFP_NO_ROUTE, HFP_NO_ROUTE + 4)]) s t)) ∧
  (∀ (s : State) (src : CmdSrc) (d : Desc),
      s.takesCommand d [0, 1] false →
      descZero d 16 64 = true →
      s.updLive = 0 →
      s.rst.asked = false →
      ∃ t, exec (.updAbort src d) s = .next t ∧
        (Completes src d 4 0 s t ∧ t.lessReply s = s ∧ RegsButE replyRegs s t ∧ HostKeptR 0 0 s t)) ∧
  (∀ (s : State) (src : CmdSrc) (d : Desc),
      s.takesCommand d [0, 1] false →
      descZero d 16 64 = true →
      s.updLive = 6 →
      s.hfp.fabMember = none →
      s.hfp.fabInit = none →
      s.rst.asked = false →
      ∃ t, exec (.updAbort src d) s = .next t ∧
        (WasReset 5 s t ∧ t.get UPD_STATUS_REVERT_CAUSE = 5 ∧ t.updLive = 6 ∧ HostKeptR 0 0 s t))

/-- R460–R465, R470, R481: requests for power states. -/
def Obligations.PowerRequests : Prop :=
  (∀ (s : State) (src : CmdSrc) (d : Desc),
      s.takesCommand d [0, 1] false →
      descBits d 16 8 = 4 →
      descZero d 17 64 = true →
      s.powerRefused 4 = none →
      s.pwr.goal = none →
      ∃ t, exec (.powerState src d) s = .next t ∧
        (EntersSleep s t ∧ Completes src d 0 0 s t)) ∧
  (∀ (s : State) (src : CmdSrc) (d : Desc),
      s.takesCommand d [0, 1] false →
      descBits d 16 8 ≤ 1 →
      descZero d 17 64 = true →
      s.powerRefused (descBits d 16 8) = none →
      s.pwr.goal = none →
      bit (s.wantedDomains (descBits d 16 8)) 7 = true ∨ src.remote = true ∧ s.pdOn 7 = false →
      ∃ t, exec (.powerState src d) s = .next t ∧
        ((t.pwr.goal = some (descBits d 16 8) ∧ t.power = s.power ∧ t.hif.running = some ⟨src, d, .power (descBits d 16 8), false⟩) ∨
         (t.pwr.goal = none ∧ t.power = descBits d 16 8 ∧ t.hif.running = none ∧
           (s.pdOn 2 = false ∨ bit (s.wantedDomains (descBits d 16 8)) 2 = true → Completes src d 0 0 s t)))) ∧
  (∀ (s : State) (src : CmdSrc) (d : Desc),
      s.takesCommand d [0, 1] false →
      descBits d 16 8 = 0 ∨ descBits d 16 8 = 1 ∨ descBits d 16 8 = 4 →
      descZero d 17 64 = true →
      (s.powerRefused (descBits d 16 8)).isSome = true →
      s.pwr.goal = none →
      ∃ t, exec (.powerState src d) s = .next t ∧
        (Completes src d 4 0 s t ∧ t.lessReply s = s ∧ RegsButE replyRegs s t ∧ HostKeptR 0 0 s t)) ∧
  (∀ (s : State) (who : Initiator) (value : Word),
      s.takesWrite who PWR_CTRL value →
      bits value.toNat 0 3 = 5 →
      bit value.toNat 8 = false →
      s.power = 0 ∨ s.power = 1 →
      s.powerRefused 4 = none →
      s.pwr.goal = none →
      ∃ t, exec (.pwrReq who value) s = .next t ∧
        (EntersSleep s t ∧ t.get PWR_REQ_STATUS_STATUS = 0)) ∧
  (∀ (s : State) (who : Initiator) (value : Word),
      s.busFree →
      s.hostTurned who = false →
      s.up .aon = true →
      [3, 4, 6, 7].contains value.toNat = true →
      who = .cox ∨ who = .host →
      ∃ t, exec (.pwrReq who value) s = .next t ∧
        (t.get PWR_REQ_STATUS_STATUS = 3 ∧ t.power = s.power ∧ RegsBut (PWR_REQ_STATUS :: errorRegs) s t)) ∧
  (∀ (s : State) (who : Initiator),
      s.takesWrite who PWR_CTRL 0x100 →
      ∃ t, exec (.stay who) s = .next t ∧
        (t.pwr.idleTimer = false ∧ t.pwr.falsePending = false ∧ { t with pwr := { t.pwr with idleTimer := s.pwr.idleTimer, falsePending := s.pwr.falsePending }, pins := { t.pins with faultHold := s.pins.faultHold } } = s)) ∧
  (∀ (s : State) (who : Initiator) (value : Word),
      s.takesWrite who PWR_ACTIVE value →
      s.power ≠ 0 →
      ∃ t, exec (.pwrDomainsWrite who false value) s = .next t ∧
        (t.rd PWR_ACTIVE = value ||| BitVec.ofNat 32 (maskOf activeMust) ∧ RegsBut [PWR_ACTIVE] s t ∧ { t with regs := s.regs, pins := { t.pins with faultHold := s.pins.faultHold } } = s)) ∧
  (∀ (s : State) (who : Initiator) (value : Word),
      s.takesWrite who PWR_FEATHER value →
      s.power ≠ 1 →
      ∃ t, exec (.pwrDomainsWrite who true value) s = .next t ∧
        (t.rd PWR_FEATHER = value ||| BitVec.ofNat 32 (maskOf featherMust) ∧ RegsBut [PWR_FEATHER] s t ∧ { t with regs := s.regs, pins := { t.pins with faultHold := s.pins.faultHold } } = s)) ∧
  (∀ (s : State) (pd : Fin 15) (link : Option (Fin 3 × Fin 4)),
      s.alive = true →
      pd.val ≠ 0 →
      bit s.pwr.want pd.val = true →
      s.pdOn pd.val = false →
      s.pwr.goal = none →
      s.power ≠ 5 →
      ∃ t, exec (.domainPowerGood pd link) s = .next t ∧
        (t.pdOn pd.val = true ∧ ((List.range 15).all fun k => k == pd.val || t.pdOn k == s.pdOn k) = true ∧ t.power = s.power ∧ HostKeptE 2 s t)) ∧
  (∀ (s : State) (pd : Fin 15) (link : Option (Fin 3 × Fin 4)),
      bit s.pwr.want pd.val = false ∨ s.pdOn pd.val = true →
      ∃ t, exec (.domainPowerGood pd link) s = .next t ∧
        (t = s))

/-- R467–R482, R514: sleep and wake. -/
def Obligations.SleepAndWake : Prop :=
  (∀ (s : State),
      s.power = 3 →
      s.pwr.latched = false →
      s.pwr.waitAck = [] →
      s.unmaskedFaults = 0 →
      s.imageMissing = none →
      ∃ t, exec (.sleepCommit none) s = .next t ∧
        (t.pwr.latched = true ∧ t.power = 3 ∧ t.pwr.imgWritten = s.on PWR_IMG_EN ∧ (s.on PWR_IMG_EN = true → t.dram.sleepImg = some (s.get PWR_IMG_BASE, s.sleepImage)) ∧ HostKept s t ∧ t.fab = s.fab)) ∧
  (∀ (s : State) (failed : Option (Fin 4)),
      s.power = 3 →
      s.pwr.latched = false →
      s.pwr.waitAck = [] →
      (∀ k : Fin 4, failed = some k →
      ∃ t, exec (.sleepCommit failed) s = .next t ∧
        (Aborts 5 k.val s t))) ∧
  (∀ (s : State),
      s.power = 3 →
      s.pwr.waitAck ≠ [] →
      ∃ t, exec .sleepTimeout s = .next t ∧
        (Aborts 2 (s.pwr.waitAck.foldl min 63) s t)) ∧
  (∀ (s : State),
      s.pastCommit = true →
      s.pwr.lateSource = 0 →
      ∃ t, exec .sleepPowerDown s = .next t ∧
        (t.power = 4 ∧ t.get PWR_STATUS_ON = 0 ∧ t.on PWR_STATUS_IMG_VALID = s.pwr.imgWritten ∧ t.cox.coresHeld = true ∧ t.pwr.want = 0 ∧ t.pwr.inhHigh = (!s.on PWR_CFG_INH_SLEEP) ∧ HostKept s t)) ∧
  (∀ (s : State),
      s.pastCommit = true →
      s.pwr.lateSource ≠ 0 →
      s.pwr.lateSource < 8 →
      ∃ t, exec .sleepPowerDown s = .next t ∧
        (Wakes 6 s t ∧ t.get WAK_SOURCE_LATE_SOURCE = s.pwr.lateSource)) ∧
  (∀ (s : State),
      s.alive = true →
      s.power = 4 →
      s.on WAK_SRC_EN_WAKE_IN = true →
      s.pwr.goal = none →
      ∃ t, exec .wakeIn s = .next t ∧
        (Wakes 1 s t ∧ t.on WAK_STATUS_WAKE_IN = true)) ∧
  (∀ (s : State),
      s.alive = true →
      s.on WAK_SRC_EN_WAKE_IN = false →
      ∃ t, exec .wakeIn s = .next t ∧
        (t.on WAK_STATUS_WAKE_IN = true ∧ RegsBut [WAK_STATUS] s t ∧ { t with regs := s.regs } = s)) ∧
  (∀ (s : State),
      s.alive = true →
      s.power = 4 →
      s.on WAK_SRC_EN_TIMER = true →
      s.get WAK_TIMER_SECONDS ≠ 0 →
      s.pwr.goal = none →
      ∃ t, exec .wakeTimer s = .next t ∧
        (Wakes 4 s t)) ∧
  (∀ (s : State),
      s.alive = true →
      s.power = 4 →
      s.on WAK_SRC_EN_STILL = true →
      s.pwr.goal = none →
      ∃ t, exec .vehicleStillFall s = .next t ∧
        (Wakes 5 s t ∧ t.on WAK_STATUS_STILL = false)) ∧
  (∀ (s : State),
      s.alive = true →
      s.on WAK_SRC_EN_STILL = false →
      ∃ t, exec .vehicleStillFall s = .next t ∧
        (t.on WAK_STATUS_STILL = false ∧ RegsBut [WAK_STATUS] s t ∧ { t with regs := s.regs } = s)) ∧
  (∀ (s : State),
      s.pwr.idleTimer = true →
      s.on WAK_STATUS_WAKE_IN = true →
      ∃ t, exec .falseWake s = .next t ∧
        (t.pwr.falsePending = true ∧ { t with pwr := { t.pwr with falsePending := s.pwr.falsePending } } = s)) ∧
  (∀ (s : State),
      s.pwr.idleTimer = true →
      s.on WAK_STATUS_WAKE_IN = false →
      s.power = 0 ∨ s.power = 1 →
      s.powerRefused 4 = none →
      ∃ t, exec .falseWake s = .next t ∧
        (EntersSleep s t ∧ t.on WAK_SOURCE_FALSE = true ∧ t.get WAK_COUNT_FALSE_WAKES = min (s.get (WAK_COUNT_FALSE_WAKES) + 1) (2 ^ (WAK_COUNT_FALSE_WAKES).w - 1))) ∧
  (∀ (s : State),
      s.alive = true →
      s.pwr.falsePending = false →
      ∃ t, exec .wakeInRelease s = .next t ∧
        (t.on WAK_STATUS_WAKE_IN = false ∧ RegsBut [WAK_STATUS] s t ∧ { t with regs := s.regs } = s)) ∧
  (∀ (s : State),
      s.alive = true →
      s.pwr.falsePending = true →
      s.pwr.idleTimer = true →
      s.power = 0 ∨ s.power = 1 →
      (s.set WAK_STATUS_WAKE_IN 0).powerRefused 4 = none →
      ∃ t, exec .wakeInRelease s = .next t ∧
        (EntersSleep s t ∧ t.on WAK_SOURCE_FALSE = true ∧ t.on WAK_STATUS_WAKE_IN = false)) ∧
  (∀ (s : State) (mv : BitVec 16) (still : Bool),
      s.alive = true →
      ∃ t, exec (.vbatSample mv still) s = .next t ∧
        (t.get PWR_VBAT_MV = min (mv.toNat * s.get PWR_VBAT_CFG_RATIO / 10) 65535 ∧ (still = true → t.on WAK_STATUS_STILL = true) ∧ (still = false → t.rd WAK_STATUS = s.rd WAK_STATUS) ∧
         RegsBut [PWR_VBAT, WAK_STATUS] s t ∧ { t with regs := s.regs } = s)) ∧
  (∀ (s : State),
      ∃ t, exec .wakeOutEnd s = .next t ∧
        (t.pwr.wakeOut = false ∧ { t with pwr := { t.pwr with wakeOut := s.pwr.wakeOut } } = s)) ∧
  (∀ (s : State),
      ∃ t, exec .xtal32Fail s = .next t ∧
        (t.pwr.xtalFailed = true ∧ { t with pwr := { t.pwr with xtalFailed := s.pwr.xtalFailed } } = s))

/-- R484–R491, R497: resets. What a reset clears and keeps is R485. -/
def Obligations.DeviceResets : Prop :=
  (∀ (s : State) (edge : BankVolt) (time : BankVolt),
      ∃ t, exec (.powerOn edge time) s = .next t ∧
        (WasReset 1 s t ∧ HostKept s t ∧ t.alive = true ∧ t.on OPT_STATUS_VALID = true)) ∧
  (∀ (s : State) (rails : List (Fin 16)),
      s.rst.off = false →
      ∃ t, exec (.brownout rails) s = .next t ∧
        (WasReset 2 s t ∧ HostKept s t ∧ t.alive = false)) ∧
  (∀ (s : State),
      s.rst.off = false →
      ∃ t, exec .resetPin s = .next t ∧
        (WasReset 3 s t ∧ HostKept s t ∧ t.alive = false ∧ ∀ p, t.pinOut p = if t.bankOff (pinRail p) then .off else pinHeld p)) ∧
  (∀ (s : State),
      s.rst.off = false →
      ∃ t, exec .thermal s = .next t ∧
        (WasReset 6 s t ∧ HostKept s t ∧ t.alive = false ∧ ∀ p, t.pinOut p = if t.bankOff (pinRail p) then .off else pinHeld p)) ∧
  (∀ (s : State),
      s.alive = true →
      s.debugAllowed = true →
      s.up .debug = true →
      ∃ t, exec .jtagReset s = .next t ∧
        (WasReset 7 s t ∧ HostKept s t ∧ t.alive = true)) ∧
  (∀ (s : State),
      s.get COX_LIFECYCLE_STATE = 2 →
      ∃ t, exec .jtagReset s = .next t ∧
        (t = s)) ∧
  (∀ (s : State),
      s.rst.off = false →
      s.rst.hold ≠ [] →
      ∃ t, exec .resetRelease s = .next t ∧
        (t.alive = true ∧ t.on OPT_STATUS_VALID = true ∧ HostKept s t ∧ t.fab = s.fab ∧ t.upd = s.upd ∧ t.key = s.key)) ∧
  (∀ (s : State),
      ∃ t, exec .powerLoss s = .next t ∧
        (WasReset 1 s t ∧ HostKept s t ∧ t.alive = false ∧ t.rst.off = true ∧ ∀ p, t.pinOut p = .off)) ∧
  (∀ (s : State),
      s.alive = true →
      s.on RST_START_START_OPEN = true →
      s.power ≠ 2 →
      ∃ t, exec .startTimeout s = .next t ∧
        (WasReset 8 s t ∧ HostKept s t)) ∧
  (∀ (s : State),
      s.on RST_START_START_OPEN = false ∨ s.power = 2 →
      ∃ t, exec .startTimeout s = .next t ∧
        (t = s)) ∧
  (∀ (s : State) (src : CmdSrc) (d : Desc),
      s.takesCommand d [0, 1, 2] false →
      deviceResetArgs d = true →
      descBits d 16 8 = 0 →
      descBits d 19 8 = 0 →
      src.remote = false ∨ s.peerHasAuthority src.peerByte = true →
      s.rst.asked = false →
      ∃ t, exec (.deviceReset src d) s = .next t ∧
        (WasReset 4 s t ∧ HostKeptR 0 0 s t)) ∧
  (∀ (s : State) (src : CmdSrc) (d : Desc),
      s.takesCommand d [0, 1, 2] false →
      deviceResetArgs d = true →
      descBits d 16 8 = 1 →
      s.power ≠ 2 →
      ((resetIsland d).1 = .fabric → s.commitState = 0) →
      s.pdOn (domainOf (resetIsland d).1 (resetIsland d).2) = true →
      src.remote = false ∨ s.peerHasAuthority src.peerByte = true →
      s.rst.asked = false →
      ∃ t, exec (.deviceReset src d) s = .next t ∧
        (RunsOn src d .islandReset s t ∧ t.up (resetIsland d).1 (resetIsland d).2 = false ∧ t.power = s.power)) ∧
  (∀ (s : State) (src : CmdSrc) (d : Desc),
      s.takesCommand d [0, 1, 2] false →
      deviceResetArgs d = true →
      descBits d 16 8 = 1 →
      s.power = 2 →
      s.rst.asked = false →
      ∃ t, exec (.deviceReset src d) s = .next t ∧
        (Completes src d 4 0 s t ∧ t.lessReply s = s ∧ RegsButE replyRegs s t ∧ HostKeptR 0 0 s t)) ∧
  (∀ (s : State),
      (∀ c : Running, s.hif.running = some c →
      c.kind = .islandReset →
      c.cut = false →
      s.alive = true →
      s.pdOn (domainOf (resetIsland c.desc).1 (resetIsland c.desc).2) = true →
      ∃ t, exec .islandReady s = .next t ∧
        (t.up (resetIsland c.desc).1 (resetIsland c.desc).2 = true ∧ Completes c.src c.desc 0 0 s t ∧ t.hif.running = none))) ∧
  (∀ (s : State) (link : Option (Fin 3 × Fin 4)),
      s.alive = true →
      (∀ x : Fin 3 × Fin 4, link = some x →
      s.pdOn 7 = true →
      ∃ t, exec (.perstNDeassert link) s = .next t ∧
        (t.hif.perstLow = false ∧ t.up .host = true ∧ t.on HIF_STATUS_LINK_UP = true ∧ t.get HIF_STATUS_WIDTH = 2 ^ x.1.val ∧ t.get HIF_STATUS_SPEED = x.2.val + 1 ∧ t.pins.pcieTxOn = true ∧
         RegsBut [HIF_STATUS] s t ∧ { t with regs := s.regs, hif := { t.hif with perstLow := s.hif.perstLow }, pins := s.pins, rst := s.rst } = s)))

/-- R492–R504: RRAM and what writes it. -/
def Obligations.PersistentWords : Prop :=
  (∀ (s : State) (who : Initiator),
      s.takesWrite who RST_START 1 →
      s.cox.coresHeld = false →
      s.on RST_START_START_OPEN = true →
      s.get LOG_FAIL_START_FAILS = 0 →
      ∃ t, exec (.startOk who) s = .next t ∧
        (t.on GLB_FAULT_START_PENDING = false ∧ t.on RST_START_START_OPEN = false ∧ RegsBut [GLB_FAULT, RST_START] s t ∧ { t with regs := s.regs, pins := { t.pins with faultHold := s.pins.faultHold } } = s)) ∧
  (∀ (s : State) (who : Initiator),
      s.takesWrite who RST_START 1 →
      s.cox.coresHeld = false →
      s.on RST_START_START_OPEN = true →
      s.get LOG_FAIL_START_FAILS ≠ 0 →
      s.rst.pw = [] →
      s.worn .failStart = false →
      ∃ t, exec (.startOk who) s = .next t ∧
        (t.on GLB_FAULT_START_PENDING = false ∧ t.on RST_START_START_OPEN = false ∧ t.rst.pw = [⟨.failStart, 0⟩] ∧ t.on LOG_STATUS_BUSY = true ∧ HostKept s t)) ∧
  (∀ (s : State) (who : Initiator),
      s.takesWrite who OPT_PROG 1 →
      s.rst.pw ≠ [] →
      ∃ t, exec (.optProgram who) s = .next t ∧
        (t.rst.pw = s.rst.pw ++ s.optProgramWrites ∧ t.on OPT_STATUS_PROG_BUSY = true ∧ RegsBut [OPT_STATUS, LOG_STATUS, OPT_PROG] s t ∧ HostKept s t)) ∧
  (∀ (s : State) (who : Initiator),
      s.takesWrite who OPT_PROG 1 →
      s.rst.pw = [] →
      (s.optProgramWrites.all fun w => !s.worn w.tgt) = true →
      ∃ t, exec (.optProgram who) s = .next t ∧
        (t.rst.pw = s.optProgramWrites.dropWhile (fun w => s.pwStored w.tgt == w.val) ∧ t.on OPT_STATUS_PROG_BUSY = true ∧ RegsBut [OPT_STATUS, LOG_STATUS, OPT_PROG] s t ∧ HostKept s t)) ∧
  (∀ (s : State) (who : Initiator) (i : Fin 1024) (value : Word),
      s.takesWrite who (LOG_WORD i.val) value →
      s.get (LOG_WORD_VALUE i.val) ≠ value.toNat →
      s.worn (.logWord i.val) = false →
      s.rst.pw = [] →
      ∃ t, exec (.logWordWrite who i value) s = .next t ∧
        (t.rst.pw = [⟨.logWord i.val, value.toNat⟩] ∧ t.on LOG_STATUS_BUSY = true ∧ t.rd (LOG_WORD i.val) = s.rd (LOG_WORD i.val) ∧ RegsBut [LOG_WORD i.val, LOG_WEAR i.val, LOG_STATUS, OPT_STATUS] s t ∧ HostKept s t)) ∧
  (∀ (s : State) (who : Initiator) (i : Fin 1024) (value : Word),
      s.takesWrite who (LOG_WORD i.val) value →
      s.get (LOG_WORD_VALUE i.val) = value.toNat →
      ∃ t, exec (.logWordWrite who i value) s = .next t ∧
        ({ t with pins := { t.pins with faultHold := s.pins.faultHold } } = s ∧ t.regs = s.regs)) ∧
  (∀ (s : State) (who : Initiator) (i : Fin 1024) (value : Word),
      s.takesWrite who (LOG_WORD i.val) value →
      s.get (LOG_WORD_VALUE i.val) ≠ value.toNat →
      s.worn (.logWord i.val) = true →
      ∃ t, exec (.logWordWrite who i value) s = .next t ∧
        (t.on LOG_STATUS_WORN_HIT = true ∧ t.get LOG_STATUS_LAST_WORN = i.val ∧ Emits 0x0C02 0 (args (LOG_WORD i.val)) s t ∧ t.rst.pw = s.rst.pw ∧ RegsButE [LOG_STATUS] s t ∧ HostKeptE 2 s t)) ∧
  (∀ (s : State) (src : CmdSrc) (d : Desc),
      s.takesCommand d [0, 1, 2] false →
      descBits d 16 16 < 1024 →
      descZero d 18 20 = true →
      descZero d 28 64 = true →
      s.logValue (descBits d 16 16) = ((s.logValue (descBits d 16 16) &&& (2 ^ 32 - 1 - descBits d 24 32)) ||| (descBits d 20 32 &&& descBits d 24 32)) →
      (s.rst.pw.any fun w => w.tgt == .logWord (descBits d 16 16)) = false →
      ∃ t, exec (.logWrite src d) s = .next t ∧
        (Completes src d 0 (s.get (LOG_WEAR_COUNT (descBits d 16 16))) s t ∧ t.hif.running = none ∧ t.rst = s.rst ∧ HostKeptR 0 0 s t)) ∧
  (∀ (s : State) (src : CmdSrc) (d : Desc),
      s.takesCommand d [0, 1, 2] false →
      descBits d 16 16 < 1024 →
      descZero d 18 20 = true →
      descZero d 28 64 = true →
      s.logValue (descBits d 16 16) ≠ ((s.logValue (descBits d 16 16) &&& (2 ^ 32 - 1 - descBits d 24 32)) ||| (descBits d 20 32 &&& descBits d 24 32)) →
      s.worn (.logWord (descBits d 16 16)) = false →
      s.rst.pw = [] →
      ∃ t, exec (.logWrite src d) s = .next t ∧
        (RunsOn src d (.logWrite (descBits d 16 16)) s t ∧ t.rst.pw = [⟨.logWord (descBits d 16 16), ((s.logValue (descBits d 16 16) &&& (2 ^ 32 - 1 - descBits d 24 32)) ||| (descBits d 20 32 &&& descBits d 24 32))⟩] ∧ t.on LOG_STATUS_BUSY = true ∧ HostKept s t)) ∧
  (∀ (s : State) (src : CmdSrc) (d : Desc),
      s.takesCommand d [0, 1, 2] false →
      descBits d 16 16 < 1024 →
      descZero d 18 20 = true →
      descZero d 28 64 = true →
      s.logValue (descBits d 16 16) ≠ ((s.logValue (descBits d 16 16) &&& (2 ^ 32 - 1 - descBits d 24 32)) ||| (descBits d 20 32 &&& descBits d 24 32)) →
      s.worn (.logWord (descBits d 16 16)) = true →
      ∃ t, exec (.logWrite src d) s = .next t ∧
        (Completes src d 8 0 s t ∧ t.get LOG_STATUS_LAST_WORN = descBits d 16 16 ∧ t.rst = s.rst ∧ RegsButE (LOG_STATUS :: replyRegs) s t)) ∧
  (∀ (s : State),
      s.alive = true →
      (∀ w : PWrite, s.rst.pw.head? = some w →
      s.rst.pw.length = 1 →
      s.hif.running = none →
      w.tgt = .logWord 7 ∨ w.tgt = .failStart →
      w.val < 16 →
      ∃ t, exec .persistentWriteDone s = .next t ∧
        (t.pwStored w.tgt = w.val ∧ t.rst.pw = [] ∧ t.on LOG_STATUS_BUSY = false ∧ RegsBut [LOG_WORD 7, LOG_FAIL_START, LOG_STATUS, OPT_STATUS] s t ∧ HostKept s t))) ∧
  (∀ (s : State),
      s.alive = true →
      (∀ w : PWrite, s.rst.pw.head? = some w →
      s.rst.pw.length = 1 →
      w.tgt = .updState →
      w.val < 2 ^ 32 →
      ∃ t, exec .persistentWriteDone s = .next t ∧
        (t.rd UPD_STATUS = BitVec.ofNat 32 w.val ∧ (w.val % 16 ≠ s.get UPD_STATUS_STATE → Emits 0x0A00 0 (args (w.val % 16) (s.get UPD_STATUS_STATE)) s t) ∧ t.rst.pw = []))) ∧
  (∀ (s : State),
      s.alive = true →
      (∀ w : PWrite, s.rst.pw.head? = some w →
      s.rst.pw.length = 1 →
      (∀ k : Nat, (match w.tgt with | .keySlot i => some i | _ => none) = some k →
      ∃ t, exec .persistentWriteDone s = .next t ∧
        (SMap.get t.key.slots 0 k = w.val ∧ t.key.badSeals.contains k = false ∧ SMap.find t.key.seals k = some s.sealKey ∧ t.rst.pw = [])))) ∧
  (∀ (s : State),
      s.alive = true →
      (∀ w : PWrite, s.rst.pw.head? = some w →
      s.rst.pw.length = 1 →
      w.tgt = .logWord 7 →
      (∀ c : Running, s.hif.running = some c →
      c.kind = .logWrite 7 →
      c.cut = false →
      ∃ t, exec .persistentWriteDone s = .next t ∧
        (t.get (LOG_WORD_VALUE 7) = w.val % 2 ^ 32 ∧ t.hif.running = none ∧ Completes c.src c.desc 0 (s.get (LOG_WEAR_COUNT 7)) s t))))

/-- R107, R401: COX_FRAME_TX. -/
def Obligations.CoxFrames : Prop :=
  (∀ (s : State) (bytes : List Byte) (ts : Option (BitVec 16)) (mka : Option MkaUse),
      s.up .cox = true →
      s.cox.coresHeld = false →
      s.up .fabric = true →
      s.framesStopped = false →
      mka = none →
      ∃ t, exec (.coxFrameTx bytes ts mka) s = .next t ∧
        ((t.rxAt 65 s.fab.nextFrame).any (fun x => x.bytes == bytes && x.port == 65 && x.ended) = true ∧ t.regs = s.regs ∧ { t with fab := { t.fab with rx := s.fab.rx, nextFrame := s.fab.nextFrame } } = s)) ∧
  (∀ (s : State) (bytes : List Byte) (ts : Option (BitVec 16)) (mka : Option MkaUse),
      s.up .cox = true →
      s.cox.coresHeld = false →
      s.up .fabric = true →
      s.framesStopped = false →
      s.up .key = true →
      (∀ u : MkaUse, mka = some u →
      u.step = .icv →
      s.injArmedFor 10 6 = false →
      SMap.get s.key.slotErr 0 u.cak.toNat = 0 →
      slotValid (s.slot u.cak.toNat) = true →
      slotType (s.slot u.cak.toNat) = 0 →
      slotUsage (s.slot u.cak.toNat) = 3 →
      ∃ t, exec (.coxFrameTx bytes ts mka) s = .next t ∧
        ((t.rxAt 65 s.fab.nextFrame).any (fun x => x.bytes == bytes ++ Config.cmac (mkaKey (slotKey (s.slot u.cak.toNat)) u.ckn "IEEE8021 ICK") bytes && x.port == 65 && x.ended) = true ∧ t.regs = s.regs ∧ t.key = s.key))) ∧
  (∀ (s : State) (bytes : List Byte) (ts : Option (BitVec 16)) (mka : Option MkaUse),
      s.cox.coresHeld = true →
      ∃ t, exec (.coxFrameTx bytes ts mka) s = .next t ∧
        (t = s))

/-- R12 over every command of the opcode table of R380, with the reserved fields that each layout lists. -/
def Obligations.ReservedFieldsAreRefused : Prop :=
  ∀ (c : Instr) (s : State) (src : CmdSrc) (d : Desc) (l : List (Nat × Nat)),
    commandRow c = some (src, d, l) → reservedSet d l = true → (src.remote = true → localOnly c = false) → s.calm →
      ∃ t, exec c s = .next t ∧ Completes src d 3 0 s t ∧ t.lessReply s = s.struck c ∧ RegsButE replyRegs s t ∧ HostKeptR 0 0 s t

/-- R400, on a free bus with the Cox island up; and the resets of rows 1–3 of R485. -/
def Obligations.UnfreezeFollowsItsConditions : Prop :=
  (∀ (s : State) (who : Initiator),
      who ≠ .cfg →
      s.hostTurned who = false →
      s.busFree →
      s.up .cox = true →
      s.on GLB_FAULT_START_PENDING = false →
      (s.rd GLB_FAULT).toNat % 4 = 0 →
      s.on COX_STATUS_HALTED = false →
      ∃ t, exec (.unfreeze who) s = .next t ∧
        (t.frozen = false ∧ RegsBut [COX_STATUS] s t)) ∧
  (∀ (s : State) (who : Initiator),
      who ≠ .cfg →
      s.hostTurned who = false →
      s.busFree →
      s.up .cox = true →
      s.on GLB_FAULT_START_PENDING = true ∨ (s.rd GLB_FAULT).toNat % 4 ≠ 0 ∨ s.on COX_STATUS_HALTED = true →
      ∃ t, exec (.unfreeze who) s = .next t ∧
        (t.frozen = s.frozen ∧ Recorded who true COX_CTRL 2 s t ∧ RegsBut errorRegs s t)) ∧
  (∀ (s : State) (edge : BankVolt) (time : BankVolt),
      ∃ t, exec (.powerOn edge time) s = .next t ∧
        (t.frozen = false)) ∧
  (∀ (s : State) (rails : List (Fin 16)),
      s.rst.off = false →
      ∃ t, exec (.brownout rails) s = .next t ∧
        (t.frozen = false)) ∧
  (∀ (s : State),
      s.rst.off = false →
      ∃ t, exec .resetPin s = .next t ∧
        (t.frozen = false)) ∧
  (∀ (s : State),
      s.rst.off = false →
      ∃ t, exec .thermal s = .next t ∧
        (t.frozen = false)) ∧
  (∀ (s : State),
      s.alive = true →
      s.debugAllowed = true →
      s.up .debug = true →
      ∃ t, exec .jtagReset s = .next t ∧
        (t.frozen = false)) ∧
  (∀ (s : State),
      s.alive = true →
      s.on RST_START_START_OPEN = true →
      s.power ≠ 2 →
      ∃ t, exec .startTimeout s = .next t ∧
        (t.frozen = false)) ∧
  (∀ (s : State) (src : CmdSrc) (d : Desc),
      s.takesCommand d [0, 1, 2] false →
      deviceResetArgs d = true →
      descBits d 16 8 = 0 →
      descBits d 19 8 = 0 →
      src.remote = false ∨ s.peerHasAuthority src.peerByte = true →
      s.rst.asked = false →
      ∃ t, exec (.deviceReset src d) s = .next t ∧
        (t.frozen = false)) ∧
  (∀ (s : State),
      ∃ t, exec .powerLoss s = .next t ∧
        (t.frozen = false))

/-- R36: the ranges of the map are 0x000_0000–0x15F_FFFF without a gap. On a free bus. -/
def Obligations.UnmappedAccesses : Prop :=
  (∀ (s : State) (who : Initiator) (addr : Word) (data : Word),
      who ≠ .cfg →
      s.hostTurned who = false →
      s.busFree →
      0x1600000 ≤ addr.toNat →
      addr.toNat < 2 ^ 26 →
      ∃ t, exec (.registerWrite who addr data) s = .next t ∧
        (Recorded who true addr.toNat 4 s t ∧ RegsBut errorRegs s t ∧ { t with regs := s.regs } = s)) ∧
  (∀ (s : State) (who : Initiator) (addr : Word),
      who ≠ .cfg →
      s.hostTurned who = false →
      s.busFree →
      0x1600000 ≤ addr.toNat →
      addr.toNat < 2 ^ 26 →
      ∃ t, exec (.rcRead who addr) s = .next t ∧
        (t.readData = 0 ∧ Recorded who false addr.toNat 4 s t ∧ RegsBut errorRegs s t ∧ { t with regs := s.regs, readData := s.readData } = s))

/-- R260, on a free bus with the Time island up. The rows of the owner are those of DomainsAndTime. -/
def Obligations.OnlyTheOwnerSteers : Prop :=
  (∀ (s : State) (who : Initiator) (d : Fin 4) (value : Word),
      s.hostTurned who = false →
      s.busFree →
      s.up .time = true →
      (if s.get (TIM_DOM_CFG_OWNER d.val) = 0 then who ≠ .cox else who ≠ .host) ∧ who ≠ .cfg →
      ∃ t, exec (.incrWrite who d value) s = .next t ∧
        (t.tim = s.tim ∧ Recorded who true (TIM_INCR d.val) 3 s t ∧ RegsBut errorRegs s t)) ∧
  (∀ (s : State) (who : Initiator) (d : Fin 4) (value : Word),
      s.hostTurned who = false →
      s.busFree →
      s.up .time = true →
      (if s.get (TIM_DOM_CFG_OWNER d.val) = 0 then who ≠ .cox else who ≠ .host) ∧ who ≠ .cfg →
      ∃ t, exec (.slewWrite who d value) s = .next t ∧
        (t.tim = s.tim ∧ Recorded who true (TIM_SLEW d.val) 3 s t ∧ RegsBut errorRegs s t)) ∧
  (∀ (s : State) (who : Initiator) (d : Fin 4) (upper : Word),
      s.hostTurned who = false →
      s.busFree →
      s.up .time = true →
      (if s.get (TIM_DOM_CFG_OWNER d.val) = 0 then who ≠ .cox else who ≠ .host) ∧ who ≠ .cfg →
      ∃ t, exec (.timeStep who d upper) s = .next t ∧
        (t.tim = s.tim ∧ t.on GLB_ACCESS_ERR_VALID = true ∧ (s.on GLB_ACCESS_ERR_VALID = false → t.get GLB_ACCESS_ERR_CAUSE = 3) ∧ RegsBut errorRegs s t)) ∧
  (∀ (s : State) (who : Initiator) (d : Fin 4) (value : Word),
      s.hostTurned who = false →
      s.busFree →
      s.up .time = true →
      (if s.get (TIM_DOM_CFG_OWNER d.val) = 0 then who ≠ .cox else who ≠ .host) ∧ who ≠ .cfg →
      ∃ t, exec (.timeSet who d value) s = .next t ∧
        (t.tim = s.tim ∧ t.on GLB_ACCESS_ERR_VALID = true ∧ (s.on GLB_ACCESS_ERR_VALID = false → t.get GLB_ACCESS_ERR_CAUSE = 3))) ∧
  (∀ (s : State) (who : Initiator) (d : Fin 4),
      s.hostTurned who = false →
      s.busFree →
      s.up .time = true →
      (if s.get (TIM_DOM_CFG_OWNER d.val) = 0 then who ≠ .cox else who ≠ .host) ∧ who ≠ .cfg →
      ∃ t, exec (.handover who d) s = .next t ∧
        (t.tim = s.tim ∧ Recorded who true (TIM_SERVO_CTRL d.val) 3 s t ∧ RegsBut errorRegs s t)) ∧
  (∀ (s : State) (who : Initiator) (d : Fin 4),
      s.hostTurned who = false →
      s.busFree →
      s.up .time = true →
      (if s.get (TIM_DOM_CFG_OWNER d.val) = 0 then who ≠ .cox else who ≠ .host) ∧ who ≠ .cfg →
      ∃ t, exec (.takeback who d) s = .next t ∧
        (t.tim = s.tim ∧ Recorded who true (TIM_SERVO_CTRL d.val) 3 s t ∧ RegsBut errorRegs s t)) ∧
  (∀ (s : State) (src : CmdSrc) (d : Desc),
      s.takesCommand d [0, 1] true →
      s.reanchorOk d = true →
      s.reanchorRefused src d = none →
      ∃ t, exec (.reanchor src d) s = .next t ∧
        ((t.domTime (descBits d 16 2) : Int) = ((s.inPlace (descBits d 16 2) 2).domTime (descBits d 16 2) : Int) + s.reanchorBy d * 2 ^ 28))

/-- R379, R384, R399: a command that R399 refuses while the device is frozen. -/
def Obligations.FrozenRefusals : Prop :=
  (∀ (s : State) (src : CmdSrc) (d : Desc),
      s.hif.running = none →
      descHeaderOk d = true →
      [0, 1].contains s.power = true →
      s.frozen = true →
      s.stageOk src d = true →
      ∃ t, exec (.stage src d) s = .next t ∧
        (Emits 0x0002 0 (descOp d + 6 * 2 ^ 8 + descBits d 2 16 * 2 ^ 16 +
           (s.power % 4 + s.commitState * 2 ^ 4 + s.get HFP_FAB_STATUS_ADRIFT * 2 ^ 8) * 2 ^ 32 + 1 * 2 ^ 64 + src.peerByte * 2 ^ 96) s t ∧
         Completes src d 4 0 s t ∧ t.lessReply s = s ∧ RegsButE replyRegs s t ∧ HostKeptR 0 0 s t)) ∧
  (∀ (s : State) (src : CmdSrc) (d : Desc),
      s.hif.running = none →
      descHeaderOk d = true →
      [0, 1].contains s.power = true →
      s.frozen = true →
      s.commitOk d = true →
      ∃ t, exec (.commit src d) s = .next t ∧
        (Emits 0x0002 0 (descOp d + 6 * 2 ^ 8 + descBits d 2 16 * 2 ^ 16 +
           (s.power % 4 + s.commitState * 2 ^ 4 + s.get HFP_FAB_STATUS_ADRIFT * 2 ^ 8) * 2 ^ 32 + 1 * 2 ^ 64 + src.peerByte * 2 ^ 96) s t ∧
         Completes src d 4 0 s t ∧ t.lessReply s = s ∧ RegsButE replyRegs s t ∧ HostKeptR 0 0 s t)) ∧
  (∀ (s : State) (src : CmdSrc) (d : Desc),
      s.hif.running = none →
      descHeaderOk d = true →
      [0, 1].contains s.power = true →
      s.frozen = true →
      s.reanchorOk d = true →
      ∃ t, exec (.reanchor src d) s = .next t ∧
        (Emits 0x0002 0 (descOp d + 6 * 2 ^ 8 + descBits d 2 16 * 2 ^ 16 +
           (s.power % 4 + s.commitState * 2 ^ 4 + s.get HFP_FAB_STATUS_ADRIFT * 2 ^ 8) * 2 ^ 32 + 1 * 2 ^ 64 + src.peerByte * 2 ^ 96) s t ∧
         Completes src d 4 0 s t ∧ t.lessReply s = s ∧ RegsButE replyRegs s t ∧ HostKeptR 0 0 s t)) ∧
  (∀ (s : State) (src : CmdSrc) (d : Desc),
      s.hif.running = none →
      descHeaderOk d = true →
      [0, 1].contains s.power = true →
      s.frozen = true →
      s.activateOk d = true →
      ∃ t, exec (.updActivate src d) s = .next t ∧
        (Emits 0x0002 0 (descOp d + 6 * 2 ^ 8 + descBits d 2 16 * 2 ^ 16 +
           (s.power % 4 + s.commitState * 2 ^ 4 + s.get HFP_FAB_STATUS_ADRIFT * 2 ^ 8) * 2 ^ 32 + 1 * 2 ^ 64 + src.peerByte * 2 ^ 96) s t ∧
         Completes src d 4 0 s t ∧ t.lessReply s = s ∧ RegsButE replyRegs s t ∧ HostKeptR 0 0 s t)) ∧
  (∀ (s : State) (src : CmdSrc) (d : Desc),
      s.hif.running = none →
      descHeaderOk d = true →
      [0, 1].contains s.power = true →
      s.frozen = true →
      descBits d 16 8 < 2 →
      descZero d 17 64 = true →
      ∃ t, exec (.coxMode src d) s = .next t ∧
        (Emits 0x0002 0 (descOp d + 6 * 2 ^ 8 + descBits d 2 16 * 2 ^ 16 +
           (s.power % 4 + s.commitState * 2 ^ 4 + s.get HFP_FAB_STATUS_ADRIFT * 2 ^ 8) * 2 ^ 32 + 1 * 2 ^ 64 + src.peerByte * 2 ^ 96) s t ∧
         Completes src d 4 0 s t ∧ t.lessReply s = s ∧ RegsButE replyRegs s t ∧ HostKeptR 0 0 s t)) ∧
  (∀ (s : State) (src : CmdSrc) (d : Desc),
      s.hif.running = none →
      descHeaderOk d = true →
      [0, 1].contains s.power = true →
      s.frozen = true →
      src = .localRing →
      descBits d 16 8 = 2 →
      descZero d 17 64 = true →
      ∃ t, exec (.lifecycle src d) s = .next t ∧
        (Emits 0x0002 0 (descOp d + 6 * 2 ^ 8 + descBits d 2 16 * 2 ^ 16 +
           (s.power % 4 + s.commitState * 2 ^ 4 + s.get HFP_FAB_STATUS_ADRIFT * 2 ^ 8) * 2 ^ 32 + 1 * 2 ^ 64 + src.peerByte * 2 ^ 96) s t ∧
         Completes src d 4 0 s t ∧ t.lessReply s = s ∧ RegsButE replyRegs s t ∧ HostKeptR 0 0 s t)) ∧
  (∀ (s : State) (src : CmdSrc) (d : Desc),
      s.hif.running = none →
      descHeaderOk d = true →
      [0, 1].contains s.power = true →
      s.frozen = true →
      src = .localRing →
      descBits d 16 8 = 0 →
      descZero d 17 64 = true →
      ∃ t, exec (.ownerLock src d) s = .next t ∧
        (Emits 0x0002 0 (descOp d + 6 * 2 ^ 8 + descBits d 2 16 * 2 ^ 16 +
           (s.power % 4 + s.commitState * 2 ^ 4 + s.get HFP_FAB_STATUS_ADRIFT * 2 ^ 8) * 2 ^ 32 + 1 * 2 ^ 64 + src.peerByte * 2 ^ 96) s t ∧
         Completes src d 4 0 s t ∧ t.lessReply s = s ∧ RegsButE replyRegs s t ∧ HostKeptR 0 0 s t))

/-- R55, R356, R382, R385: what one event touches, in its own terms. -/
def Obligations.EventRecords : Prop :=
  (∀ (s : State) (code source body : Nat),
      Emits code source body s (s.emit code source body) ∧ (s.emit code source body).lessEvents s = s ∧ RegsButE [] s (s.emit code source body) ∧
        HostKeptE 2 s (s.emit code source body)) ∧
  (∀ (s : State) (e : EventRec), s.evtRuns = true → s.evtFull = false →
      (((List.range 32).all fun i => !within (s.get HIF_ST_BASE_ADDR * 4096 + 4) 4 ((s.get HIF_EVT_BASE_ADDR * 64
          + 32 * (s.hif.evtProd.toNat % ringSize (s.get HIF_EVT_CFG_LOG2_SIZE)) + i) % 2 ^ 64)) = true) →
      s.on (HIF_EVT_VEC_EN (e.code / 256 % 16)) = false →
      (s.toRing e).hif.evtProd = s.hif.evtProd + 1 ∧ (s.toRing e).regs = s.regs ∧
        (s.toRing e).hostBytes (s.get HIF_EVT_BASE_ADDR * 64 + 32 * (s.hif.evtProd.toNat % ringSize (s.get HIF_EVT_CFG_LOG2_SIZE))) 32
          = leBytes 32 (s.recordImage e)) ∧
  (∀ (s : State) (e : EventRec), s.evtRuns = false ∨ s.evtFull = true →
      (s.toRing e).hostMem = s.hostMem ∧ (s.toRing e).hif.evtProd = s.hif.evtProd ∧ (s.toRing e).hif.evtLost = true ∧
        (s.toRing e).get HIF_EVT_LOST_COUNT = min (s.get HIF_EVT_LOST_COUNT + 1) (2 ^ HIF_EVT_LOST_COUNT.w - 1))

/-- R376, R386 on NOP: where the two areas do not overlap. -/
def Obligations.CompletionsReachTheHost : Prop :=
  (∀ (s : State) (src : CmdSrc) (d : Desc),
      src = .localRing →
      s.takesCommand d [0, 1, 2] false →
      descZero d 16 64 = true →
      descBits d 1 1 = 0 →
      s.cmdRuns = true →
      ((List.range 8).all fun i => !within (s.get HIF_ST_BASE_ADDR * 4096) 4 ((s.cmdSlot + 8 + i) % 2 ^ 64)) = true →
      ∃ t, exec (.nop src d) s = .next t ∧
        (t.hostBytes (s.cmdSlot + 8) 8 = leBytes 8 256 ∧ t.hostBytes (s.get HIF_ST_BASE_ADDR * 4096) 4 = leBytes 4 (s.hif.cmdCons + 1).toNat ∧
         t.hif.cmdCons = s.hif.cmdCons + 1 ∧ RegsBut [] s t ∧ ((List.range 65536).all fun a => within (s.cmdSlot + 8) 8 a || within (s.get HIF_ST_BASE_ADDR * 4096) 4 a || t.hostByte a == s.hostByte a) = true))

/-- R10, R11, R38, R529, R530: the frame of every write, faulty ones among them. -/
def Obligations.RegistersWithoutAnEffectOfTheirOwn : Prop :=
  (∀ (s : State) (who : Initiator) (addr : Word) (data : Word),
      addr.toNat < 2 ^ 26 →
      s.hostTurned who = false →
      s.busFree →
      (∀ x : RegDef × List Nat × Nat, regAt addr.toNat = some x →
      quietReg x.1.reg = true →
      msixAt addr.toNat = none →
      ∃ t, exec (.registerWrite who addr data) s = .next t ∧
        (RegsBut (addr.toNat / 4 * 4 :: errorRegs) s t ∧ { t with regs := s.regs, pins := { t.pins with faultHold := s.pins.faultHold } } = s)))

/-- R259, R262. That a step on an empty queue is a tick is the model's choice (log 1). Times are in units of 2^-28 ns, slews in 10^-6 of these. -/
def Obligations.TicksAdvanceTheDomains : Prop :=
  ∀ (s : State) (d : Nat), d < 4 → s.pending = [] → s.up .time = true →
    s.hfp.backEnd = [] → s.busQueue = [] → s.fab.parityDue = [] → (s.fab.rx.all fun e => e.2.heldBy.isNone) = true →
    ∃ t, step s = .next t ∧
      (s.domEn d = false → t.domTime d = s.domTime d) ∧
      (s.domEn d = true → SMap.get s.tim.slew 0 d = 0 → SMap.get s.tim.carry 0 d = 0 →
        t.domTime d = s.domTime d + (s.rd (TIM_INCR d)).toNat ∧ SMap.get t.tim.slew 0 d = 0 ∧ SMap.get t.tim.carry 0 d = 0) ∧
      (s.domEn d = true → 0 < SMap.get s.tim.slew 0 d → 0 ≤ SMap.get s.tim.carry 0 d →
        ((t.domTime d : Int) - s.domTime d - (s.rd (TIM_INCR d)).toNat) * 10 ^ 6 + SMap.get t.tim.carry 0 d - SMap.get s.tim.carry 0 d
            = min (SMap.get s.tim.slew 0 d) (2 * s.get (TIM_DOM_CFG_SLEW_PPM d) * 2 ^ 28) ∧
          SMap.get t.tim.slew 0 d = SMap.get s.tim.slew 0 d - min (SMap.get s.tim.slew 0 d) (2 * s.get (TIM_DOM_CFG_SLEW_PPM d) * 2 ^ 28)) ∧
      (s.domEn d = true → SMap.get s.tim.slew 0 d < 0 → 0 ≤ SMap.get s.tim.carry 0 d → (2 * s.get (TIM_DOM_CFG_SLEW_PPM d) * 2 ^ 28 : Int) ≤ s.domTime d * 10 ^ 6 →
        ((t.domTime d : Int) - s.domTime d - (s.rd (TIM_INCR d)).toNat) * 10 ^ 6 + SMap.get t.tim.carry 0 d - SMap.get s.tim.carry 0 d
            = max (SMap.get s.tim.slew 0 d) (-(2 * s.get (TIM_DOM_CFG_SLEW_PPM d) * 2 ^ 28)) ∧
          SMap.get t.tim.slew 0 d = SMap.get s.tim.slew 0 d - max (SMap.get s.tim.slew 0 d) (-(2 * s.get (TIM_DOM_CFG_SLEW_PPM d) * 2 ^ 28)))

/-- When each of the set-up, staging and port rows completes: under conditions on the state and the operands alone, exec answers a next state with the effect of the row. -/
def Obligations.SetupAndPortRowsComplete : Prop :=
  (∀ (s : State) (who : Initiator) (addr : Word) (data : Word),
      addr.toNat < 2 ^ 26 →
      (∀ x : RegDef × List Nat × Nat, regAt addr.toNat = some x →
      quietReg x.1.reg = true →
      s.takesWrite who addr.toNat data →
      ∃ t, exec (.registerWrite who addr data) s = .next t ∧
        ((t.rd (addr.toNat / 4 * 4)).toNat = storedValue x.1 x.2.2 (s.rd (addr.toNat / 4 * 4)).toNat data.toNat))) ∧
  (∀ (s : State) (who : Initiator) (addr : Word),
      who ≠ .cfg →
      s.hostTurned who = false →
      addr.toNat < 2 ^ 26 →
      s.busFree →
      msixAt addr.toNat = none →
      (∀ x : RegDef × List Nat × Nat, regAt addr.toNat = some x →
      plainRead x.1.reg = true →
      s.up x.1.island (x.2.1.headD 0) = true →
      s.applies x.1.reg (x.2.1.headD 0) = true →
      ∃ t, exec (.rcRead who addr) s = .next t ∧
        (t.readData = s.rd (addr.toNat / 4 * 4) &&& ~~~(BitVec.ofNat 32 (accMask x.1 x.2.2 [.wo]))))) ∧
  (∀ (s : State) (who : Initiator) (addr : Word),
      who ≠ .cfg →
      s.hostTurned who = false →
      addr.toNat < 2 ^ 26 →
      s.busFree →
      msixAt addr.toNat = none →
      (∀ x : RegDef × List Nat × Nat, regAt addr.toNat = some x →
      latches x.1.reg = true →
      x.2.2 = 0 →
      s.up x.1.island (x.2.1.headD 0) = true →
      s.applies x.1.reg (x.2.1.headD 0) = true →
      ∃ t, exec (.counterLowRead who addr) s = .next t ∧
        (t.readData = s.rd (addr.toNat / 4 * 4)))) ∧
  (∀ (s : State) (who : Initiator) (blk : CntBlock),
      s.takesWrite who (clearReg blk) 1 →
      ∃ t, exec (.cntClear who blk) s = .next t ∧
        (RegsCleared (isCounter blk) s t)) ∧
  (∀ (s : State) (who : Initiator),
      s.takesWrite who GLB_LOCK 1 →
      ∃ t, exec (.setupLock who) s = .next t ∧
        (t.on GLB_LOCK_SETUP_LOCK = true)) ∧
  (∀ (s : State),
      ∃ t, exec .faultNHoldEnd s = .next t ∧
        (t.faultNLow = s.faultCause)) ∧
  (∀ (s : State) (src : CmdSrc) (d : Desc),
      s.takesCommand d [0, 1] true →
      s.stageOk src d = true →
      s.commitState = 0 →
      s.remoteMay src = true →
      s.classOff (2 ^ (stageArgs d).cls) = none →
      ((stageArgs d).op ≤ 1 → (stageArgs d).index + (stageArgs d).count ≤ classSize (stageArgs d).cls) →
      ((List.range (s.stageEntries src (stageArgs d)).length).any (fun k => (s.storedEntry (stageArgs d).cls ((stageArgs d).index + k) ((s.stageEntries src (stageArgs d)).getD k 0)).isNone)) = false →
      stageTooMuch (s.stagedBank (stageArgs d).cls (stageArgs d).op (stageArgs d).index (s.stageEntries src (stageArgs d))) (stageArgs d).cls = false →
      ∃ t, exec (.stage src d) s = .next t ∧
        (t.fab.staged = s.stagedBank (stageArgs d).cls (stageArgs d).op (stageArgs d).index (s.stageEntries src (stageArgs d)))) ∧
  (∀ (s : State) (src : CmdSrc) (d : Desc),
      s.takesCommand d [0, 1] true →
      s.commitOk d = true →
      s.commitRefused src (commitArgs d) = none →
      ((commitArgs d).fabric = true → s.fabTooLate (commitArgs d).at_ = false) →
      ∃ t, exec (.commit src d) s = .next t ∧
        (t.commitState = 1)) ∧
  (∀ (s : State) (us : Word),
      (∀ j : CommitJob, s.fab.job = some j →
      s.commitState = 1 →
      j.heated = false →
      s.hfp.fabMember = none →
      s.hfp.fabInit = none →
      heatPassed (s.runHeat (s.candidate j.mask)) = false →
      ∃ t, exec (.heatDone us) s = .next t ∧
        (t.commitState = 0))) ∧
  (∀ (s : State) (src : CmdSrc) (d : Desc),
      s.takesCommand d [0, 1] false →
      descZero d 16 64 = true →
      (∀ j : CommitJob, s.fab.job = some j →
      s.commitState = 2 →
      j.upd = false →
      s.domNs 0 < j.at_ →
      ∃ t, exec (.commitAbort src d) s = .next t ∧
        (t.commitState = 0))) ∧
  (∀ (s : State),
      (∀ j : CommitJob, s.fab.job = some j →
      s.commitState = 2 →
      j.upd = false →
      s.domNs 0 ≥ j.at_ →
      ∃ t, exec .swap s = .next t ∧
        (t.fab.active = s.candidate j.mask))) ∧
  (∀ (s : State),
      (∀ j : CommitJob, s.fab.job = some j →
      s.commitState = 3 →
      s.drained = true →
      ∃ t, exec .drainEnd s = .next t ∧
        (t.commitState = 0))) ∧
  (∀ (s : State) (src : CmdSrc) (d : Desc),
      s.takesCommand d [0, 1] false →
      src = .localRing →
      descBits d 16 64 % 64 = 0 →
      descBits d 24 8 ≤ 1 →
      descZero d 25 28 = true →
      1 ≤ descBits d 28 32 →
      descBits d 28 32 ≤ 67584 →
      descZero d 32 64 = true →
      s.get HEAT_STATUS_RESULT ≠ 0 →
      ∃ t, exec (.heatReport src d) s = .next t ∧
        (Wrote (descBits d 16 64) (s.heatReport (descBits d 24 8 == 1) (descBits d 28 32)) s t)) ∧
  (∀ (s : State) (who : Initiator) (n : Fin 64) (value : Word),
      s.takesWrite who (PRT_MODE n.val) (withBit value 0) →
      ∃ t, exec (.portEnable who n value) s = .next t ∧
        (t.on (PRT_MODE_ENABLE n.val) = true)) ∧
  (∀ (s : State) (who : Initiator) (n : Fin 64) (value : Word),
      s.takesWrite who (PRT_MODE n.val) (noBit value 0) →
      ∃ t, exec (.portDisable who n value) s = .next t ∧
        (t.on (PRT_MODE_ENABLE n.val) = false)) ∧
  (∀ (s : State) (who : Initiator) (n : Fin 64) (value : Word),
      s.takesWrite who (PRT_MODE n.val) value →
      s.on (PRT_MODE_ENABLE n.val) = true →
      bit value.toNat 0 = true →
      s.get (PRT_MODE_LOOPBACK n.val) ≠ bits value.toNat 16 2 →
      s.up .port n.val = true →
      ∃ t, exec (.loopbackChange who n value) s = .next t ∧
        (t.get (PRT_MODE_LOOPBACK n.val) = bits value.toNat 16 2)) ∧
  (∀ (s : State) (who : Initiator) (n : Fin 64),
      s.takesWrite who (PRT_DIAG n.val) 1 →
      ∃ t, exec (.diagStart who n) s = .next t ∧
        ((if s.link n.val = 0 ∨ s.link n.val = 1 then t.link n.val = 7 ∧ t.get (PRT_DIAG_STATUS n.val) = 1 else t.link n.val = s.link n.val ∧ t.get (PRT_DIAG_STATUS n.val) = 3))) ∧
  (∀ (s : State) (who : Initiator) (n : Fin 64) (value : Word),
      s.takesWrite who (PRT_MDIO_CMD n.val) (withBit value 31) →
      ∃ t, exec (.mdioStart who n value) s = .next t ∧
        (t.on (PRT_MDIO_STATUS_BUSY n.val) = true)) ∧
  (∀ (s : State) (n : Fin 64) (crcOk : Bool) (partner : Bool),
      s.up .port n.val = true →
      (s.prtOf n.val).analog = true →
      s.link n.val = 0 ∨ s.link n.val = 6 →
      ∃ t, exec (.analogStartEnd n crcOk partner) s = .next t ∧
        ((t.link n.val = 3 ∨ t.link n.val = 2 ∨ t.link n.val = 1))) ∧
  (∀ (s : State) (n : Fin 64) (agreed : Bool),
      s.up .port n.val = true →
      s.link n.val = 1 →
      agreed = true →
      s.isT1 n.val = true →
      ∃ t, exec (.partnerSignal n agreed) s = .next t ∧
        (t.link n.val = 2)) ∧
  (∀ (s : State) (n : Fin 64) (res : LinkResult),
      s.up .port n.val = true →
      s.linkForced n.val = false →
      s.link n.val = 2 →
      (res.speedOk || isS n.val) = true →
      ∃ t, exec (.linkStatusOk n res) s = .next t ∧
        (t.link n.val = 4)) ∧
  (∀ (s : State) (n : Fin 64) (partner : Bool),
      s.up .port n.val = true →
      s.link n.val = 4 →
      s.get (PRT_MODE_LOOPBACK n.val) ≠ 1 →
      s.get (PRT_LINK_CFG_LINK_HOLD n.val) ≠ 0 →
      ∃ t, exec (.linkStatusFail n partner) s = .next t ∧
        (t.link n.val = 5)) ∧
  (∀ (s : State) (n : Fin 64) (partner : Bool),
      s.up .port n.val = true →
      s.link n.val = 5 →
      ∃ t, exec (.holdExpiry n partner) s = .next t ∧
        (t.link n.val = (if s.isT1 n.val && partner then 2 else 1))) ∧
  (∀ (s : State) (n : Fin 64),
      s.up .port n.val = true →
      s.link n.val = 5 →
      ∃ t, exec (.holdRetrain n) s = .next t ∧
        (t.prtOf n.val = { s.prtOf n.val with freshCoeffs := true })) ∧
  (∀ (s : State) (n : Fin 64) (corr : Fin 257) (rtd : BitVec 16) (page : Bool) (partner : Bool),
      s.up .port n.val = true →
      s.link n.val = 3 →
      (s.prtOf n.val).probed = false →
      ∃ t, exec (.resumeProbeDone n corr rtd page partner) s = .next t ∧
        ((if rtd.toNat > s.get (PRT_RESUME_INFO_RTD n.val) + 5 ∨ s.get (PRT_RESUME_INFO_RTD n.val) > rtd.toNat + 5 ∨ corr.val < s.get (PRT_LINK_CFG_CORR_MIN n.val) then t.get (PRT_LINK_STATUS_FALLBACK n.val) = 5 ∧ t.link n.val = (if partner then 2 else 1) ∧ t.on (PRT_RESUME_INFO_VALID n.val) = false else if s.on (PRT_MODE_AN_EN n.val) && !page then t.get (PRT_LINK_STATUS_FALLBACK n.val) = 6 ∧ t.link n.val = (if partner then 2 else 1) else t.link n.val = 3 ∧ (t.prtOf n.val).probed = true ∧ { t with prt := s.prt } = s))) ∧
  (∀ (s : State) (n : Fin 64) (partner : Bool),
      s.up .port n.val = true →
      s.link n.val = 3 →
      ∃ t, exec (.resumeLimit n partner) s = .next t ∧
        ((if (s.prtOf n.val).linkOk = true ∧ s.get (PRT_SQI_SQI n.val) ≥ s.get (PRT_LINK_CFG_SQI_RESUME_MIN n.val) then t.link n.val = 4 ∧ t.get (PRT_LINK_STATUS_RESUMED n.val) = 1 ∧ t.get (PRT_LINK_STATUS_FALLBACK n.val) = 0 else t.link n.val = (if partner then 2 else 1) ∧ t.get (PRT_LINK_STATUS_FALLBACK n.val) = (if (s.prtOf n.val).linkOk then 8 else 7)))) ∧
  (∀ (s : State) (n : Fin 64) (sqi : Fin 8) (phyErrs : Nat) (fecCorr : Nat),
      s.up .port n.val = true →
      s.isT1 n.val = true →
      s.link n.val = 4 →
      ∃ t, exec (.sqiSample n sqi phyErrs fecCorr) s = .next t ∧
        (t.get (PRT_SQI_SQI n.val) = sqi.val)) ∧
  (∀ (s : State) (n : Fin 64),
      s.up .port n.val = true →
      s.tc10On n.val = true →
      s.link n.val = 4 →
      s.power ≠ 3 →
      ∃ t, exec (.tc10SleepRequest n) s = .next t ∧
        ((if s.maySleepAlone n.val then t.link n.val = 6 ∧ t.lanesEmpty n.val = true ∧ t.pwr.tc10Out = s.pwr.tc10Out ++ [(n.val, 1)] else t.link n.val = 4 ∧ t.get WAK_SLEEP_REQ_HELD_COUNT = min (s.get WAK_SLEEP_REQ_HELD_COUNT + 1) (2 ^ WAK_SLEEP_REQ_HELD_COUNT.w - 1) ∧ RegsBut [WAK_SLEEP_REQ_HELD] s t ∧ { t with regs := s.regs } = s))) ∧
  (∀ (s : State) (n : Fin 64),
      s.pwr.waitAck.contains n.val = true →
      s.pwr.goal = none →
      s.link n.val = 4 →
      ∃ t, exec (.tc10SleepAck n) s = .next t ∧
        (t.link n.val = 6)) ∧
  (∀ (s : State) (n : Fin 64),
      s.power = 3 →
      s.pwr.waitAck.contains n.val = true →
      ∃ t, exec (.tc10SleepAbort n) s = .next t ∧
        (t.power = s.pwr.entryFrom % 8)) ∧
  (∀ (s : State) (n : Fin 64),
      s.up .port n.val = true →
      s.tc10On n.val = true →
      s.link n.val = 6 →
      s.power = 0 →
      s.on (PRT_MODE_ENABLE n.val) = true →
      s.on (PRT_RESUME_INFO_VALID n.val) = false →
      s.get (PRT_MODE_LOOPBACK n.val) ≠ 1 →
      ∃ t, exec (.tc10Wake n) s = .next t ∧
        (t.link n.val = 1)) ∧
  (∀ (s : State) (n : Fin 64),
      s.up .port n.val = true →
      isS n.val = true →
      s.on (PRT_MODE_TC10_EN n.val) = true →
      s.link n.val = 6 →
      s.power = 0 →
      s.on (PRT_MODE_ENABLE n.val) = true →
      s.on (PRT_RESUME_INFO_VALID n.val) = false →
      s.get (PRT_MODE_LOOPBACK n.val) ≠ 1 →
      ∃ t, exec (.segmentActivity n) s = .next t ∧
        (t.link n.val = 1)) ∧
  (∀ (s : State) (n : Fin 64) (result : Fin 5) (distance : BitVec 16),
      s.up .port n.val = true →
      s.link n.val = 7 →
      ∃ t, exec (.diagDone n result distance) s = .next t ∧
        (t.get (PRT_DIAG_STATUS n.val) = 2)) ∧
  (∀ (s : State) (bus : Fin 2) (rdata : BitVec 16),
      (∀ f : MdioFrame, SMap.find s.mdioBus bus.val = some f →
      ∃ t, exec (.mdioFrameDone bus rdata) s = .next t ∧
        (t.on (PRT_MDIO_STATUS_BUSY f.port) = false))) ∧
  (∀ (s : State) (n : Fin 64),
      s.plcaRuns n.val = true →
      s.get (PRT_MODE_ROLE n.val) = 0 →
      ∃ t, exec (.plcaForeignBeacon n) s = .next t ∧
        (t.get (PRT_PLCA_CNT_BEACON_FAULT n.val) = min (s.get (PRT_PLCA_CNT_BEACON_FAULT n.val) + 1) (2 ^ (PRT_PLCA_CNT_BEACON_FAULT n.val).w - 1))) ∧
  (∀ (s : State) (n : Fin 64),
      s.plcaRuns n.val = true →
      ∃ t, exec (.collision n) s = .next t ∧
        (t.get (PRT_PLCA_CNT_COLLISIONS n.val) = min (s.get (PRT_PLCA_CNT_COLLISIONS n.val) + 1) (2 ^ (PRT_PLCA_CNT_COLLISIONS n.val).w - 1))) ∧
  (∀ (s : State) (n : Fin 64),
      s.plcaRuns n.val = true →
      s.get (PRT_MODE_ROLE n.val) = 1 →
      ∃ t, exec (.plcaBeaconTimeout n) s = .next t ∧
        (t.get (PRT_PLCA_CNT_BEACON_FAULT n.val) = min (s.get (PRT_PLCA_CNT_BEACON_FAULT n.val) + 1) (2 ^ (PRT_PLCA_CNT_BEACON_FAULT n.val).w - 1)))

/-- When each of the frame, lane, gate, recorder, store and image rows completes: under conditions on the state and the operands alone, exec answers a next state with the effect of the row. -/
def Obligations.FrameAndStoreRowsComplete : Prop :=
  (∀ (s : State) (f : FrameIn) (rivals : List (Fin 70)),
      s.takesFrames f.port.val = true →
      s.framesStopped = false →
      s.power ≠ 2 →
      s.rxAt f.port.val f.fid = none →
      macControl f.bytes = false →
      s.mayCut f.port.val (s.rxOf f).epoch = true →
      s.on FST_STATUS_READY = true →
      s.freeSharedHandles ≠ 0 →
      s.served (f.port.val :: rivals.map (·.val)) = some f.port.val →
      (∀ q : Nat × Nat × Nat, s.cutPlace f.bytes f.port.val = some q →
      ∃ t, exec (.ct64thByte f rivals) s = .next t ∧
        ((t.handle q.2.2).any (fun y => y.pool == q.1 && y.chunk == q.2.1 && y.state == 0 && y.port == f.port.val && y.bytes == f.bytes) = true))) ∧
  (∀ (s : State) (f : FrameIn) (whole : Bool),
      s.takesFrames f.port.val = true →
      s.framesStopped = false →
      s.power ≠ 2 →
      s.rxAt f.port.val f.fid = none →
      macControl f.bytes = false →
      s.up .fabric = true →
      s.rxSecure (s.rxOf f).epoch f.port.val = false →
      s.up .umpire = true →
      ∃ t, exec (.classify f whole) s = .next t ∧
        ((t.rxAt f.port.val f.fid).any (fun x => x.desc.isSome && x.bytes == f.bytes && !x.ended && x.handle.isNone) = true)) ∧
  (∀ (s : State) (f : FrameIn) (v : RxVerdict) (rivals : List (Fin 70)),
      s.takesFrames f.port.val = true →
      s.framesStopped = false →
      s.power ≠ 2 →
      s.rxAt f.port.val f.fid = none →
      macControl f.bytes = false →
      s.commitState ≠ 3 →
      s.fab.parityDue = [] →
      s.rxSecure (s.rxOf f).epoch f.port.val = false →
      v.assyErr = false →
      v.fcsOk = true →
      v.phyErrs = 0 →
      64 ≤ f.bytes.length + 4 →
      f.bytes.length + 4 ≤ classMax f.port.val →
      ∃ t, exec (.frameEnd f v rivals) s = .next t ∧
        (t.get (PRT_RX_FRAMES_COUNT f.port.val) = min (s.get (PRT_RX_FRAMES_COUNT f.port.val) + 1) (2 ^ (PRT_RX_FRAMES_COUNT f.port.val).w - 1))) ∧
  (∀ (s : State) (port : Fin 70) (fid : Nat) (rivals : List (Fin 70)),
      (∀ x : RxFrame, s.rxAt port.val fid = some x →
      s.power ≠ 2 →
      s.commitState ≠ 3 →
      s.fab.parityDue = [] →
      x.desc.isSome = true →
      x.descHere = false →
      x.settled = false →
      x.ended = false →
      x.handle = none →
      ∃ t, exec (.descriptorArrival port fid rivals) s = .next t ∧
        (t.rxAt port.val fid = some { x with descHere := true }))) ∧
  (∀ (s : State) (port : Fin 70) (fid : Nat) (bytes : List Byte) (age : Nat),
      (∀ x : RxFrame, s.rxAt port.val fid = some x →
      (∀ h : Nat, x.handle = some h →
      (∀ y : Handle, s.handle h = some y →
      x.ended = false →
      s.commitState ≠ 3 →
      s.entriesOf h = 0 →
      y.refcnt = 0 →
      y.parBad = 0 →
      s.fab.frer = [] →
      s.fab.parityDue = [] →
      ∃ t, exec (.chunkOutgrown port fid bytes age) s = .next t ∧
        (t.handle h = none))))) ∧
  (∀ (s : State) (port : Fin 70) (fid : Nat) (bytes : List Byte) (age : Nat),
      (∀ x : RxFrame, s.rxAt port.val fid = some x →
      (∀ h : Nat, x.handle = some h →
      (∀ y : Handle, s.handle h = some y →
      (∀ k : Nat, x.stream = some k →
      x.ended = false →
      x.desc.any (·.outcome == 1) = false →
      s.commitState ≠ 3 →
      s.entriesOf h = 0 →
      y.refcnt = 0 →
      y.parBad = 0 →
      s.fab.frer = [] →
      s.fab.parityDue = [] →
      ∃ t, exec (.streamMaxLenExceeded port fid bytes age) s = .next t ∧
        (t.handle h = none)))))) ∧
  (∀ (s : State) (n : Fin 70) (ecc : Fin 3) (delay : Nat),
      ecc = 0 →
      s.commitState ≠ 3 →
      s.up .fabric = true →
      s.power ≠ 2 →
      s.portServes n.val = true →
      (s.svc n.val).sending = none →
      (s.svc n.val).rest = none →
      (s.svc n.val).entry = none →
      (∀ r : Nat × PortLanes × Bool, s.selectLane n.val = some r →
      (∀ c : Copy, (s.lane n.val r.1).head? = some c →
      (∀ h : Handle, s.handle c.handle = some h →
      s.fab.parityDue = [] →
      h.parBad = 0 →
      s.frameErrs h 0 = [] →
      h.state = 1 →
      s.ringDown n.val c = none →
      s.aged n.val r.1 h.arrival = false →
      64 ≤ n.val →
      n.val ≠ 65 →
      n.val ≠ 67 →
      s.txSecure n.val = false →
      ∃ t, exec (.laneSelect n ecc delay) s = .next t ∧
        ((t.svc n.val).sending = some ⟨c, bit (s.preemptMask n.val) r.1, none, 0, s.spanOf n.val c h, s.refTicks, h.words⟩))))) ∧
  (∀ (s : State) (n : Fin 70),
      s.commitState ≠ 3 →
      s.up .fabric = true →
      s.power ≠ 2 →
      s.portServes n.val = true →
      (s.svc n.val).sending = none →
      (s.svc n.val).rest = none →
      (s.svc n.val).entry = none →
      (∀ r : Nat × PortLanes × Bool, s.selectLane n.val = some r →
      (∀ c : Copy, (s.lane n.val r.1).head? = some c →
      (∀ h : Handle, s.handle c.handle = some h →
      s.fab.parityDue = [] →
      h.parBad = 0 →
      s.frameErrs h 0 = [] →
      h.state = 1 →
      s.ringDown n.val c = none →
      s.aged n.val r.1 h.arrival = false →
      64 ≤ n.val →
      n.val ≠ 65 →
      n.val ≠ 67 →
      s.txSecure n.val = false →
      ∃ t, exec (.shaperRefill n) s = .next t ∧
        ((t.svc n.val).sending = some ⟨c, bit (s.preemptMask n.val) r.1, none, 0, s.spanOf n.val c h, s.refTicks, h.words⟩))))) ∧
  (∀ (s : State) (n : Fin 70),
      s.commitState ≠ 3 →
      s.up .fabric = true →
      n.val = 69 →
      (∀ x : Sending, (s.svc n.val).sending = some x →
      (∀ h : Handle, s.handle x.copy.handle = some h →
      h.state = 1 →
      h.refcnt = 1 →
      h.parBad = 0 →
      s.fab.parityDue = [] →
      x.copy.rsv = false →
      (s.svc n.val).entry = none →
      h.quotaOf = none →
      ∃ t, exec (.txEnd n) s = .next t ∧
        ((t.svc n.val).sending = none)))) ∧
  (∀ (s : State) (n : Fin 64),
      s.up .time = true →
      (∀ r : StampRec, (SMap.get s.tim.stampsWait [] n.val).find? (·.ready) = some r →
      r.source = 64 →
      ∃ t, exec (.tsRecordReturn n) s = .next t ∧
        (SMap.get t.tim.stampsWait [] n.val = (SMap.get s.tim.stampsWait [] n.val).erase r))) ∧
  (∀ (s : State) (n : Fin 70),
      (∀ g : GateList, s.gateList n.val = some g →
      (∀ st : Gate, SMap.find s.fab.gates n.val = some st →
      s.up .fabric = true →
      shortDiff (s.short g.domain) st.next ≥ 0 →
      (s.svc n.val).sending = none →
      st.index + 1 < (gateSpans g.cycle g.ops 0).length →
      ∃ t, exec (.gateBoundary n) s = .next t ∧
        (t.get (GTE_STATUS_INDEX n.val) = (st.index + 1) % 2 ^ (GTE_STATUS_INDEX n.val).w)))) ∧
  (∀ (s : State) (who : Initiator) (n : Fin 70) (value : Word),
      s.takesWrite who (GTE_HOLD n.val) value →
      ∃ t, exec (.gteHoldWrite who n value) s = .next t ∧
        ((t.rd (GTE_HOLD n.val)).toNat % 256 = value.toNat % 256)) ∧
  (∀ (s : State) (n : Fin 32),
      s.up .fabric = true →
      s.get (LNE_MM_STATUS_VERIFY n.val) = 2 →
      ∃ t, exec (.mmVerifyTimer n) s = .next t ∧
        ((if SMap.get s.fab.verify 0 n.val < 3 then SMap.get t.fab.verify 0 n.val = SMap.get s.fab.verify 0 n.val + 1 ∧ { t with fab := { t.fab with verify := s.fab.verify } } = s else t.get (LNE_MM_STATUS_VERIFY n.val) = 4 ∧ t.on (LNE_MM_STATUS_ACTIVE n.val) = false ∧ Emits 0x0207 n.val (args (t.rd (LNE_MM_STATUS n.val)).toNat) s t ∧ RegsButE [LNE_MM_STATUS n.val, LNE_LANE_STATUS n.val] s t ∧ HostKeptE 2 s t))) ∧
  (∀ (s : State) (n : Fin 32),
      s.up .fabric = true →
      s.get (LNE_MM_STATUS_VERIFY n.val) = 2 →
      ∃ t, exec (.mmRespond n) s = .next t ∧
        (t.on (LNE_MM_STATUS_ACTIVE n.val) = true)) ∧
  (∀ (s : State),
      s.up .fabric = true →
      ∃ t, exec .obsSample s = .next t ∧
        (((List.range 70).all fun n => (List.range 8).all fun l => !s.on (LNE_PORT_CFG_OBS_EN n) || (t.get (LNE_OBS_DEPTH_BYTES n l) == (s.lane n l).length % 2 ^ 32 && t.get (LNE_OBS_LAST_NS n l) == s.headDelay n l % 2 ^ 32)) = true)) ∧
  (∀ (s : State) (who : Initiator),
      s.takesWrite who LNE_CNT_CLEAR 2 →
      ∃ t, exec (.obsClear who) s = .next t ∧
        (RegsCleared (fun a => decide (0xA80000 ≤ a ∧ a < 0xA80000 + 70 * 0x400)) s t)) ∧
  (∀ (s : State),
      s.up .fabric = true →
      s.on FWD_AGE_AGE_EN = true →
      s.fab.ageTick + s.get FWD_AGE_AGE_TIME * 500000000 ≤ s.refTicks →
      ∃ t, exec .ageSweep s = .next t ∧
        (t.fab.learned = (s.fab.learned.filter fun e => e.2.hit).map (fun e => (e.1, { e.2 with hit := false })))) ∧
  (∀ (s : State) (who : Initiator) (value : Word),
      s.takesWrite who FWD_AGE value →
      ∃ t, exec (.fwdAgeWrite who value) s = .next t ∧
        (t.get FWD_AGE_AGE_TIME = bits value.toNat 0 16)) ∧
  (∀ (s : State) (src : CmdSrc) (d : Desc),
      s.takesCommand d [0, 1] false →
      descBits d 16 8 < 70 ∨ descBits d 16 8 = 0xFF →
      descBits d 17 8 < 2 →
      descBits d 18 16 < 4096 →
      descZero d 20 64 = true →
      descBits d 17 1 = 0 ∨ (1 ≤ descBits d 18 12 ∧ descBits d 18 12 ≤ 4094) →
      ∃ t, exec (.fdbFlush src d) s = .next t ∧
        (t.fab.learned = s.fab.learned.filter (fun e => !((descBits d 16 8 == 0xFF || descBits d 16 8 == e.2.port) && (descBits d 17 1 == 0 || descBits d 18 12 == e.2.fid))))) ∧
  (∀ (s : State) (src : CmdSrc) (d : Desc),
      s.takesCommand d [0, 1] false →
      dumpOk src d 65536 = true →
      ∃ t, exec (.fdbDump src d) s = .next t ∧
        (Wrote (descBits d 16 64) (dumpImage s.fdbWalk (descBits d 24 32) (descBits d 28 32)) s t)) ∧
  (∀ (s : State) (who : Initiator) (value : Word),
      s.takesWrite who REC_CTRL (withBit value 0) →
      s.on REC_CTRL_ENABLE = false →
      ∃ t, exec (.recEnable who value) s = .next t ∧
        ((if s.dramReady && s.regionFits then t.recState = 1 ∧ t.on REC_CTRL_ENABLE = true ∧ t.get REC_HEAD_PAGE = 0 ∧ t.get REC_OLDEST_PAGE = 0 ∧ t.on REC_STATUS_WRAPPED = false ∧ t.dram.open_ = false ∧ t.dram.seq = 0 ∧ t.dram.bytes = s.dram.bytes else t.on REC_CTRL_ENABLE = false ∧ t.on REC_STATUS_CFG_ERR = true ∧ t.recState = s.recState))) ∧
  (∀ (s : State) (who : Initiator) (value : Word),
      s.takesWrite who REC_CTRL (noBit value 0) →
      s.on REC_CTRL_ENABLE = true →
      ∃ t, exec (.recDisable who value) s = .next t ∧
        (t.on REC_CTRL_ENABLE = false)) ∧
  (∀ (s : State),
      s.up .dram = true →
      s.dram.open_ = true →
      s.recState = 1 →
      s.get REC_HEAD_PAGE + 1 < s.get REC_PAGES_PAGES →
      ∃ t, exec .recPageTimeout s = .next t ∧
        (t.recState = 1)) ∧
  (∀ (s : State) (src : CmdSrc) (d : Desc),
      s.takesCommand d [0, 1] false →
      descBits d 16 8 = 1 →
      descZero d 17 64 = true →
      s.pdOn 8 = true →
      s.recState = 1 ∨ s.recState = 2 →
      s.dram.open_ = false →
      ∃ t, exec (.recFreeze src d) s = .next t ∧
        (t.recState = 3)) ∧
  (∀ (s : State) (src : CmdSrc) (d : Desc),
      s.takesCommand d [0, 1] false →
      descZero d 16 64 = true →
      s.pdOn 8 = true →
      s.recState = 3 →
      ∃ t, exec (.recRearm src d) s = .next t ∧
        (t.recState = 1)) ∧
  (∀ (s : State) (src : CmdSrc) (d : Desc),
      s.takesCommand d [0, 1] false →
      src = .localRing →
      descBits d 16 64 % 64 = 0 →
      descBits d 24 32 < s.get REC_PAGES_PAGES →
      descBits d 28 32 = 1 →
      descZero d 32 64 = true →
      s.pdOn 8 = true →
      s.recState = 0 ∨ s.recState = 3 →
      s.dram.badWords = [] →
      ∃ t, exec (.recRead src d) s = .next t ∧
        (Wrote (descBits d 16 64) (s.dramBytes (s.pageAddr (descBits d 24 32)) 65536) s t)) ∧
  (∀ (s : State) (who : Initiator) (value : Word),
      s.takesWrite who REC_DRAM_CFG (withBit value 0) →
      s.on REC_DRAM_CFG_ENABLE = false →
      ∃ t, exec (.dramEnable who value) s = .next t ∧
        (t.on REC_DRAM_CFG_ENABLE = true)) ∧
  (∀ (s : State) (ok : Bool),
      s.up .dram = true →
      s.on REC_DRAM_CFG_ENABLE = true →
      s.on REC_DRAM_STATUS_READY = false →
      s.on REC_DRAM_STATUS_TRAIN_ERR = false →
      (match s.runningKind with | some (.updLoad _ _ _ _) => false | _ => true) = true →
      ∃ t, exec (.dramTrainDone ok) s = .next t ∧
        (t.on REC_DRAM_STATUS_READY = ok)) ∧
  (∀ (s : State) (who : Initiator) (value : Word),
      s.takesWrite who FST_CTRL (withBit value 0) →
      s.on FST_CTRL_RUN = false →
      ∃ t, exec (.fstRun who value) s = .next t ∧
        ((if s.get FST_CARVE_P0_GRAN + s.get FST_CARVE_P1_GRAN + s.get FST_CARVE_P2_GRAN > 511 then t.on FST_CTRL_RUN = false ∧ t.on FST_STATUS_CARVE_ERR = true ∧ t.fab = s.fab else t.on FST_CTRL_RUN = true ∧ t.fab.handles = [] ∧ t.fab.lanes = [] ∧ t.fab.suspect = [] ∧ t.fab.deadHandles = []))) ∧
  (∀ (s : State),
      s.up .fabric = true →
      s.on FST_CTRL_RUN = true →
      s.on FST_STATUS_READY = false →
      ∃ t, exec .fstReady s = .next t ∧
        (t.on FST_STATUS_READY = true)) ∧
  (∀ (s : State) (ecc : Fin 4),
      s.up .fabric = true →
      s.on FST_CTRL_SCRUB_EN = true →
      s.on FST_STATUS_READY = true →
      s.commitState ≠ 3 →
      s.fab.handles = [] →
      s.fab.suspect = [] →
      ecc.val < 2 →
      SMap.get s.fab.badWords 0 s.fab.scrub = 0 →
      s.on (INJ_ARM_ARM 8) = false →
      ∃ t, exec (.scrubStep ecc) s = .next t ∧
        (t.fab.scrub = (s.fab.scrub + 1) % storeWords)) ∧
  (∀ (s : State),
      s.up .umpire = true →
      ∃ t, exec .pinholeExpiry s = .next t ∧
        (t.ump.second = s.ump.second + 1)) ∧
  (∀ (s : State),
      s.up .umpire = true →
      (∀ i : Nat, s.ump.tcamBad.head? = some i →
      s.ump.tcamBad.Nodup →
      s.ump.patBad.Nodup →
      ∃ t, exec .tcamScan s = .next t ∧
        (t.ump.tcamBad = []))) ∧
  (∀ (s : State) (src : CmdSrc) (d : Desc),
      s.takesCommand d [0, 1] false →
      descBits d 16 8 < 2 →
      descBits d 17 8 < 16 →
      descZero d 18 64 = true →
      s.pdOn 4 = true →
      ∃ t, exec (.pinholeFlush src d) s = .next t ∧
        (t.ump.pinholes = (if descBits d 16 8 = 0 then [] else s.ump.pinholes.filter fun e => !(e.2.retZone == descBits d 17 4 || bit e.2.from_ (descBits d 17 4))))) ∧
  (∀ (s : State) (src : CmdSrc) (d : Desc),
      s.takesCommand d [0, 1] false →
      dumpOk src d 16384 = true →
      s.pdOn 4 = true →
      ∃ t, exec (.pinholeDump src d) s = .next t ∧
        (Wrote (descBits d 16 64) (dumpImage (s.ump.pinholes.map fun e => (e.1, e.2.image s.ump.second)) (descBits d 24 32) (descBits d 28 32)) s t)) ∧
  (∀ (s : State) (who : Initiator) (unit : ImgUnit) (value : Word),
      s.takesWrite who (imgReg unit) (withBit value 31) →
      bit (s.rd (imgReg unit)).toNat 31 = false →
      ∃ t, exec (.imgEnable who unit value) s = .next t ∧
        (bit (t.rd (imgReg unit)).toNat 31 = true)) ∧
  (∀ (s : State) (unit : ImgUnit) (ok : Bool),
      s.up (unitIsland unit) = true →
      s.on (unitImgBusy unit) = true →
      s.pwr.goal = none →
      s.pwr.want = 0 ∨ bit s.pwr.want (domainOf (unitIsland unit) 0) = true →
      ∃ t, exec (.imageWriteDone unit ok) s = .next t ∧
        (t.on (unitImgBusy unit) = false)) ∧
  (∀ (s : State) (unit : ImgUnit) (ok : Bool),
      s.up (unitIsland unit) = true →
      s.pwr.loading.contains (unitIdx unit) = true →
      s.power ≠ 5 →
      ok = false →
      unit = .ump →
      ∃ t, exec (.imageLoadDone unit ok) s = .next t ∧
        (t.on (unitReady unit) = true))

/-- When each of the time, servo, Catch and Buoy rows completes: under conditions on the state and the operands alone, exec answers a next state with the effect of the row. -/
def Obligations.TimeRowsComplete : Prop :=
  (∀ (s : State) (who : Initiator) (d : Fin 4) (value : Word),
      s.takesWrite who (TIM_DOM_CFG d.val) (withBit value 0) →
      s.domEn d.val = false →
      ∃ t, exec (.domainEnable who d value) s = .next t ∧
        (t.domEn d.val = true)) ∧
  (∀ (s : State) (who : Initiator) (d : Fin 4) (value : Word),
      s.takesWrite who (TIM_DOM_CFG d.val) (noBit value 0) →
      s.domEn d.val = true →
      ∃ t, exec (.domainDisable who d value) s = .next t ∧
        (t.domEn d.val = false)) ∧
  (∀ (s : State) (who : Initiator) (d : Fin 4) (value : Word),
      s.takesWrite who (TIM_INCR d.val) value →
      ∃ t, exec (.incrWrite who d value) s = .next t ∧
        (t.rd (TIM_INCR d.val) = value)) ∧
  (∀ (s : State) (who : Initiator) (d : Fin 4) (value : Word),
      s.takesWrite who (TIM_SLEW d.val) value →
      s.domEn d.val = true →
      s.domState d.val ≠ 2 ∨ (s.injArmedFor 18 d.val = false ∧ s.on (TIM_DOM_STATUS_JUMP_REFUSED d.val) = false ∧ (sext 32 value.toNat).natAbs ≤ s.get (TIM_JUMP_LIMIT_LIMIT d.val)) →
      ∃ t, exec (.slewWrite who d value) s = .next t ∧
        (SMap.get t.tim.slew 0 d.val = sext 32 value.toNat * slewUnit)) ∧
  (∀ (s : State) (who : Initiator) (d : Fin 4) (upper : Word),
      s.takesWrite who (TIM_STEP d.val + 4) upper →
      s.commitState ≠ 2 →
      s.domEn d.val = true →
      s.domState d.val ≠ 2 →
      ∃ t, exec (.timeStep who d upper) s = .next t ∧
        ((t.domTime d.val : Int) = (s.tick.domTime d.val : Int) + sext 64 (upper.toNat * 2 ^ 32 + (s.rd (TIM_STEP d.val)).toNat) * 2 ^ 28)) ∧
  (∀ (s : State) (who : Initiator) (d : Fin 4) (value : Word),
      s.takesWrite who (TIM_SET_NS d.val) (withBit value 31) →
      s.commitState ≠ 2 →
      s.domEn d.val = true →
      s.injArmedFor 17 d.val = false →
      ∃ t, exec (.timeSet who d value) s = .next t ∧
        (t.domTime d.val = (s.get (TIM_SET_SEC_SEC d.val) * 10 ^ 9 + bits value.toNat 0 30) * 2 ^ 28)) ∧
  (∀ (s : State) (d : Fin 4),
      s.up .time = true →
      s.domEn d.val = true →
      SMap.get s.tim.slew 0 d.val ≠ 0 →
      ∃ t, exec (.slewDone d) s = .next t ∧
        ((t.domTime d.val : Int) = max 0 ((s.domTime d.val : Int) + (SMap.get s.tim.carry 0 d.val + SMap.get s.tim.slew 0 d.val) / 10 ^ 6))) ∧
  (∀ (s : State) (who : Initiator) (d : Fin 4),
      s.takesWrite who (TIM_SERVO_CTRL d.val) 1 →
      ∃ t, exec (.handover who d) s = .next t ∧
        (t.domState d.val = 3)) ∧
  (∀ (s : State) (who : Initiator) (d : Fin 4),
      s.takesWrite who (TIM_SERVO_CTRL d.val) 2 →
      s.injArmedFor 17 d.val = false →
      ∃ t, exec (.takeback who d) s = .next t ∧
        (t.domState d.val = 2)) ∧
  (∀ (s : State) (d : Fin 4),
      s.up .time = true →
      s.domEn d.val = true →
      s.domState d.val = 2 →
      ∃ t, exec (.servoWatchdog d) s = .next t ∧
        (t.domState d.val = 3)) ∧
  (∀ (s : State) (d : Fin 4),
      s.up .time = true →
      s.domEn d.val = true →
      s.domState d.val = 4 →
      ∃ t, exec (.lockLoss d) s = .next t ∧
        (t.domState d.val = 3)) ∧
  (∀ (s : State) (src : CmdSrc) (d : Desc),
      s.takesCommand d [0, 1] true →
      s.reanchorOk d = true →
      s.commitState ≠ 2 →
      s.reanchorRefused src d = none →
      ∃ t, exec (.reanchor src d) s = .next t ∧
        ((t.domTime (descBits d 16 2) : Int) = ((s.inPlace (descBits d 16 2) 2).domTime (descBits d 16 2) : Int) + s.reanchorBy d * 2 ^ 28)) ∧
  (∀ (s : State) (who : Initiator) (c : Fin 16) (value : Word),
      s.takesWrite who (TIM_CATCH_CFG c.val) (withBit value 1) →
      s.on (TIM_CATCH_CFG_ARM c.val) = false →
      ∃ t, exec (.catchArm who c value) s = .next t ∧
        ((t.catchLimits c.val = false → t.on (TIM_CATCH_STATUS_CFG_ERR c.val) = true ∧ t.on (TIM_CATCH_CFG_ARM c.val) = false ∧ t.tim.catchNext = s.tim.catchNext))) ∧
  (∀ (s : State) (who : Initiator) (c : Fin 16) (value : Word),
      s.takesWrite who (TIM_CATCH_CFG c.val) (noBit value 1) →
      s.on (TIM_CATCH_CFG_ARM c.val) = true →
      ∃ t, exec (.catchDisarm who c value) s = .next t ∧
        (t.on (TIM_CATCH_CFG_ARM c.val) = false)) ∧
  (∀ (s : State) (c : Fin 16),
      (∀ k : Nat, SMap.find s.tim.catchNext c.val = some k →
      s.up .time = true →
      s.domEn (s.get (TIM_CATCH_CFG_DOMAIN c.val)) = true →
      s.on (TIM_CATCH_CFG_ARM c.val) = true →
      s.catchDue c.val k = true →
      ∃ t, exec (.catchEdge c) s = .next t ∧
        (SMap.find t.tim.catchNext c.val = (if s.get (TIM_CATCH_PERIOD_PERIOD c.val) = 0 then none else some (k + 1))))) ∧
  (∀ (s : State) (c : Fin 16),
      s.up .time = true →
      SMap.get s.tim.catchPulse false c.val = true →
      ∃ t, exec (.catchPulseEnd c) s = .next t ∧
        (SMap.get t.tim.catchPulse false c.val = false)) ∧
  (∀ (s : State) (b : Fin 16) (rising : Bool),
      s.up .time = true →
      s.buoyTakes b.val rising = true →
      (SMap.get s.tim.buoyFifo [] b.val).length < 8 →
      (s.lockers b.val).isEmpty = true ∨ rising = false →
      ∃ t, exec (.buoyCapture b rising) s = .next t ∧
        (SMap.get t.tim.buoyFifo [] b.val = SMap.get s.tim.buoyFifo [] b.val ++ [⟨s.quarters (s.get (TIM_BUOY_CFG_DOMAIN b.val)), rising⟩])) ∧
  (∀ (s : State) (who : Initiator) (b : Fin 16),
      s.takesWrite who (TIM_BUOY_POP b.val) 1 →
      ∃ t, exec (.buoyPop who b) s = .next t ∧
        (SMap.get t.tim.buoyFifo [] b.val = (SMap.get s.tim.buoyFifo [] b.val).drop 1)) ∧
  (∀ (s : State) (who : Initiator),
      s.takesWrite who TIM_SNAP_CTRL 1 →
      ∃ t, exec (.snapshotCapture who) s = .next t ∧
        (t.on TIM_SNAP_CTRL_DONE = true)) ∧
  (∀ (s : State) (who : Initiator) (d : Fin 4),
      who ≠ .cfg →
      s.hostTurned who = false →
      s.busFree →
      s.up .time = true →
      ∃ t, exec (.timeNowRead who d) s = .next t ∧
        (t.readData = BitVec.ofNat 32 (s.domNs d.val % 10 ^ 9)))

/-- When each of the CAN, LIN and Rigger rows completes: under conditions on the state and the operands alone, exec answers a next state with the effect of the row. -/
def Obligations.EdgeRowsComplete : Prop :=
  (∀ (s : State) (who : Initiator) (c : Fin 32) (value : Word),
      s.takesWrite who (EDG_CAN_CTRL c.val) (withBit value 0) →
      s.on (EDG_CAN_CTRL_ENABLE c.val) = false →
      s.canState c.val = 0 →
      bit value.toNat 4 = false →
      ∃ t, exec (.canEnable who c value) s = .next t ∧
        (t.on (EDG_CAN_CTRL_ENABLE c.val) = true)) ∧
  (∀ (s : State) (who : Initiator) (c : Fin 32) (value : Word),
      s.takesWrite who (EDG_CAN_CTRL c.val) (noBit value 0) →
      s.on (EDG_CAN_CTRL_ENABLE c.val) = true →
      bit value.toNat 4 = false →
      ∃ t, exec (.canDisable who c value) s = .next t ∧
        (t.canState c.val = 0)) ∧
  (∀ (s : State) (who : Initiator) (c : Fin 32),
      s.takesWrite who (EDG_CAN_CTRL c.val) (withBit (s.rd (EDG_CAN_CTRL c.val)) 4) →
      s.canState c.val = 4 →
      ∃ t, exec (.canRecover who c) s = .next t ∧
        (t.canState c.val = 1)) ∧
  (∀ (s : State) (c : Fin 32),
      s.up .edge = true →
      s.canState c.val = 1 →
      (s.canSt c.val).recovering = false →
      (s.canSt c.val).txErr < 128 →
      (s.canSt c.val).rxErr < 128 →
      ∃ t, exec (.canBusIdle c) s = .next t ∧
        (t.canState c.val = 2)) ∧
  (∀ (s : State) (c : Fin 32) (f : CanFrame),
      s.canOn c.val = true →
      f.fmt = 0 →
      f.rtr = false →
      (s.canSt c.val).rxErr < 128 →
      (s.canSt c.val).txErr < 128 →
      s.on (INJ_ARM_ARM 20) = false →
      ((pdusOf s.fab.active).any fun p => canMatches p.2 c.val f) = false →
      (tunsOf s.fab.active).isEmpty = true →
      ∃ t, exec (.canFrameRx c f) s = .next t ∧
        (t.get (EDG_CAN_RX_UNMATCHED_COUNT c.val) = min (s.get (EDG_CAN_RX_UNMATCHED_COUNT c.val) + 1) (2 ^ (EDG_CAN_RX_UNMATCHED_COUNT c.val).w - 1))) ∧
  (∀ (s : State) (c : Fin 32) (e : CanErr),
      s.canOn c.val = true →
      e.tx = false →
      e.code ≠ 0 →
      e.code ≠ 7 →
      (s.canSt c.val).rxErr < 127 →
      (s.canSt c.val).txErr < 128 →
      ∃ t, exec (.canError c e) s = .next t ∧
        (t.get (EDG_CAN_STATUS_LAST_ERR c.val) = e.code.val)) ∧
  (∀ (s : State) (c : Fin 32),
      s.up .edge = true →
      (s.canSt c.val).recovering = true →
      ∃ t, exec (.canRecoveryDone c) s = .next t ∧
        (t.canState c.val = 2)) ∧
  (∀ (s : State) (c : Fin 32),
      s.canOn c.val = true →
      s.get (EDG_CAN_CTRL_MODE c.val) = 0 →
      (s.canSt c.val).sending = none →
      s.injArmedFor 21 c.val = false →
      (∀ x : Nat × CanTx, canBest ((s.canPrune c.val).canQueue c.val) = some x →
      ∃ t, exec (.canTxStart c) s = .next t ∧
        ((t.canSt c.val).sending = some x))) ∧
  (∀ (s : State) (c : Fin 32),
      (∀ x : Nat × CanTx, (s.canSt c.val).sending = some x →
      s.bankDrives 11 = true →
      s.canOn c.val = true →
      (s.canSt c.val).txErr < 128 →
      (s.canSt c.val).rxErr < 128 →
      ∃ t, exec (.canTxDone c) s = .next t ∧
        (t.canSt c.val = canSent (s.canSt c.val) x))) ∧
  (∀ (s : State) (c : Fin 32),
      s.up .edge = true →
      (∀ r : Nat × Nat × CanTx, s.canEarliest c.val = some r →
      ∃ t, exec (.canTxDeadline c) s = .next t ∧
        (t.canSt c.val = (if r.1 = 32 then { s.canSt c.val with fifo := (s.canSt c.val).fifo.eraseIdx r.2.1 } else { s.canSt c.val with boxes := SMap.erase (s.canSt c.val).boxes r.1 })))) ∧
  (∀ (s : State) (who : Initiator) (l : Fin 16) (value : Word),
      s.takesWrite who (EDG_LIN_CTRL l.val) (withBit value 2) →
      linRuns (s.rd (EDG_LIN_CTRL l.val)).toNat = false →
      bit value.toNat 0 = true →
      bit value.toNat 1 = false →
      bit value.toNat 3 = false →
      ∃ t, exec (.linRun who l value) s = .next t ∧
        (t.on (EDG_LIN_CTRL_RUN l.val) = true)) ∧
  (∀ (s : State) (who : Initiator) (l : Fin 16) (value : Word),
      s.takesWrite who (EDG_LIN_CTRL l.val) (noBit value 2) →
      bit value.toNat 0 = true →
      bit value.toNat 3 = false →
      ∃ t, exec (.linStop who l value) s = .next t ∧
        (t.on (EDG_LIN_CTRL_RUN l.val) = false)) ∧
  (∀ (s : State) (who : Initiator) (l : Fin 16) (value : Word),
      s.takesWrite who (EDG_LIN_SCHED l.val) value →
      ∃ t, exec (.linTableSelect who l value) s = .next t ∧
        (t.get (EDG_LIN_SCHED_TABLE l.val) = bits value.toNat (EDG_LIN_SCHED_TABLE l.val).lo (EDG_LIN_SCHED_TABLE l.val).w)) ∧
  (∀ (s : State) (l : Fin 16),
      s.linOn l.val false = true →
      (s.linSt l.val).running = true →
      s.on (EDG_LIN_CTRL_RUN l.val) = true →
      s.on (INJ_ARM_ARM 20) = false →
      (∀ k : Nat, some (s.linSlotAt l.val (s.get (EDG_LIN_SCHED_TABLE l.val)) (if s.get (EDG_LIN_SCHED_TABLE l.val) = s.get (EDG_LIN_SCHED_ACTIVE l.val) then (s.linSt l.val).next else 0)) = some k →
      s.linSlotOn l.val (s.get (EDG_LIN_SCHED_TABLE l.val)) k = true →
      (∀ p : Nat, some (ebits (s.tab 12 (4096 + 256 * l.val + 64 * s.get (EDG_LIN_SCHED_TABLE l.val) + k)) 2 0 12) = some p →
      s.rigBroken 1 p = false →
      pduValid (s.tab 12 p) = true →
      pduBus (s.tab 12 p) = 1 →
      pduChan (s.tab 12 p) = l.val →
      s.bankDrives 11 = true →
      pduDir (s.tab 12 p) = 0 →
      ∃ t, exec (.linSlotStart l) s = .next t ∧
        (t.get (EDG_LIN_SCHED_SLOT l.val) = k)))) ∧
  (∀ (s : State) (l : Fin 16) (pid : Byte),
      s.linOn l.val true = true →
      linPid (pid.toNat % 64) = pid.toNat →
      s.on (INJ_ARM_ARM 20) = false →
      s.livePdus.find? (linMatches l.val 1 (pid.toNat % 64)) = none →
      (∀ p : Nat × Nat, s.livePdus.find? (linMatches l.val 0 (pid.toNat % 64)) = some p →
      ∃ t, exec (.linHeaderRx l pid) s = .next t ∧
        ((t.linSt l.val).wait = some (pid.toNat % 64, p.1)))) ∧
  (∀ (s : State) (l : Fin 16) (data : List Byte) (checksum : Byte) (err : Fin 4) (age : Nat),
      s.rigReady = true →
      s.on (EDG_LIN_CTRL_ENABLE l.val) = true →
      err.val = 0 →
      (∀ w : Nat × Nat, (s.linSt l.val).wait = some w →
      (∀ p : Nat, s.linSource l.val w.2 w.1 = some p →
      pduLen (s.tab 12 p) = data.length →
      checksum.toNat = linCheck (s.tab 12 p) data →
      s.rigRuns = true →
      s.on (INJ_ARM_ARM 20) = false →
      (tunsOf s.fab.active).isEmpty = true →
      (∀ r : Nat × Nat, (match (routesOf s.fab.active).filter (fun r => rtSrc r.2 == p) with | [r] => some r | _ => none) = some r →
      s.rigBroken 0 r.1 = false →
      pduBus (s.tab 12 (rtDst r.2)) = 1 →
      s.tooSoon p = false →
      ∃ t, exec (.linResponseRx l data checksum err age) s = .next t ∧
        (t.get (EDG_LIN_RX_COUNT l.val) = min (s.get (EDG_LIN_RX_COUNT l.val) + 1) (2 ^ (EDG_LIN_RX_COUNT l.val).w - 1)))))) ∧
  (∀ (s : State) (l : Fin 16),
      s.rigReady = true →
      s.on (EDG_LIN_CTRL_ENABLE l.val) = true →
      (s.linSt l.val).wait.isSome = true →
      s.on (EDG_LIN_CTRL_ROLE l.val) = false →
      ∃ t, exec (.linNoResponse l) s = .next t ∧
        (t.get (EDG_LIN_NO_RESP_COUNT l.val) = min (s.get (EDG_LIN_NO_RESP_COUNT l.val) + 1) (2 ^ (EDG_LIN_NO_RESP_COUNT l.val).w - 1))) ∧
  (∀ (s : State) (who : Initiator) (l : Fin 16),
      s.takesWrite who (EDG_LIN_CTRL l.val) (withBit (s.rd (EDG_LIN_CTRL l.val)) 3) →
      s.on (EDG_LIN_CTRL_ENABLE l.val) = true →
      s.on (EDG_LIN_CTRL_ROLE l.val) = false →
      s.rigReady = true →
      s.bankDrives 11 = true →
      ∃ t, exec (.linWake who l) s = .next t ∧
        (t.edge.linOut = s.edge.linOut ++ [⟨l.val, none, false, []⟩])) ∧
  (∀ (s : State),
      (∀ x : List Byte × Nat, s.edge.rigIn.head? = some x →
      s.rigRuns = true →
      s.sourceAt x.1 = none →
      ((tunsOf s.fab.active).any fun u => ebit u.2 16 1) = false →
      ∃ t, exec .rigEthRx s = .next t ∧
        (t.edge.rigIn = s.edge.rigIn.tail))) ∧
  (∀ (s : State),
      s.rigRuns = true →
      (s.cyclicDue (s.edge.tick + 1)).isEmpty = true →
      ∃ t, exec .rigCyclicTick s = .next t ∧
        (t.edge.tick = s.edge.tick + 1)) ∧
  (∀ (s : State),
      s.rigReady = true →
      s.on (INJ_ARM_ARM 19) = false →
      ∃ t, exec (.rigFreshTick []) s = .next t ∧
        (((routesOf s.fab.active).all fun r => (t.routeSt r.1).fresh == ((s.routeSt r.1).fresh && (s.rigBroken 0 r.1 || !s.pastFresh r.1 r.2))) = true)) ∧
  (∀ (s : State) (t : Fin 512),
      s.rigRuns = true →
      s.on (INJ_ARM_ARM 20) = false →
      (s.tunSt t.val).msgs ≠ [] →
      (s.liveTuns.any fun u => u.1 == t.val) = true →
      s.up .fabric = true →
      s.framesStopped = false →
      ∃ w, exec (.acfBatchTimeout t) s = .next w ∧
        ((w.tunSt t.val).msgs = []))

/-- When each of the bridge rows and rows of fabric-wide commits completes: under conditions on the state and the operands alone, exec answers a next state with the effect of the row. -/
def Obligations.BridgeRowsComplete : Prop :=
  (∀ (s : State) (port : Fin 64) (m : HfpMsg),
      s.up .fabric = true →
      msgOk m = true →
      1 ≤ m.typ.toNat ∧ m.typ.toNat ≤ 13 →
      s.power ≠ 2 →
      m.dst ≠ 0xFF ∧ m.dst.toNat ≠ s.ownId →
      m.hops ≠ 0 →
      (∀ n : Nat, s.routePort m.dst.toNat = some n →
      ∃ t, exec (.hfpRelay port m) s = .next t ∧
        (t.hfp.out = s.hfp.out ++ [(n, { m with hops := m.hops - 1 })]))) ∧
  (∀ (s : State) (port : Fin 64) (mac : BitVec 48) (m : HfpMsg),
      s.keepsMsg port { m with typ := 1 } →
      s.firmware = true →
      s.hfpPort port.val = true →
      s.helloClash { m with typ := 1, body := msgData { m with typ := 1 } } = false →
      s.adjState port.val = 0 →
      s.authority ≠ some m.src.val →
      ∃ t, exec (.hello port mac m) s = .next t ∧
        (t.adjState port.val = 1)) ∧
  (∀ (s : State),
      s.hfpRuns = true →
      s.firmware = true →
      ∃ t, exec .helloTimer s = .next t ∧
        ((t.hfp.out.drop s.hfp.out.length).map (fun e => (e.1, e.2.typ.toNat, e.2.body)) = ((List.range 64).filter fun n => s.hfpPort n && s.link n == 4).map (fun n => (n, 1, s.helloBody n)))) ∧
  (∀ (s : State) (port : Fin 64),
      s.hfpRuns = true →
      s.firmware = true →
      s.adjState port.val ≠ 0 →
      ∃ t, exec (.adjDead port) s = .next t ∧
        (t.adjState port.val = 0)) ∧
  (∀ (s : State) (port : Fin 64) (m : HfpMsg),
      s.keepsMsg port { m with typ := 2 } →
      s.firmware = true →
      m.src.val ≠ s.ownId →
      (SMap.find s.hfp.lsdb m.src.val).all (fun o => decide (o.seq < beAt (msgData m) 0 4)) = true →
      ∃ t, exec (.lsa port m) s = .next t ∧
        (SMap.find t.hfp.lsdb m.src.val = some (lsaOf (msgData m)))) ∧
  (∀ (s : State),
      s.hfpRuns = true →
      s.firmware = true →
      ∃ t, exec .lsaTimer s = .next t ∧
        (t.hfp.ownSeq = s.hfp.ownSeq + 1)) ∧
  (∀ (s : State) (origin : Fin 32),
      s.hfpRuns = true →
      s.firmware = true →
      origin.val ≠ s.ownId →
      ∃ t, exec (.lsaExpire origin) s = .next t ∧
        (SMap.find t.hfp.lsdb origin.val = none)) ∧
  (∀ (s : State) (who : Initiator) (addr : Word) (req : RemReq),
      who ≠ .cfg →
      s.hostTurned who = false →
      1 ≤ req.words.length →
      req.words.length ≤ 64 →
      (∀ f : Nat, s.peerOf addr.toNat = some f →
      s.quietBridge →
      s.maySend (remAsk who f addr.toNat req .access) →
      ∃ t, exec (.remoteRequest who addr req) s = .next t ∧
        (Asked (remAsk who f addr.toNat req .access) s t))) ∧
  (∀ (s : State) (offset : BitVec 26) (req : RemReq),
      s.up .host = true →
      req.words.length = 1 →
      (req.write && !req.firstBe) = false →
      s.on HIF_RWIN_EN = true →
      s.get HIF_RWIN_PEER ≠ s.ownId →
      s.quietBridge →
      s.maySend (remAsk .host (s.get HIF_RWIN_PEER) (2 ^ 31 + s.get HIF_RWIN_PEER * 2 ^ 26 + offset.toNat / 4 * 4) { req with nonPosted := !req.write } (.bar2 s.hfp.nextTlp)) →
      ∃ t, exec (.bar2Access offset req) s = .next t ∧
        (Asked (remAsk .host (s.get HIF_RWIN_PEER) (2 ^ 31 + s.get HIF_RWIN_PEER * 2 ^ 26 + offset.toNat / 4 * 4) { req with nonPosted := !req.write } (.bar2 s.hfp.nextTlp)) s t)) ∧
  (∀ (s : State) (port : Fin 64) (m : HfpMsg),
      s.keepsMsg port { m with typ := 7 } →
      (∀ r : HfpReq, s.openReq m.src.val m.tag.toNat = some r →
      r.ask.kind = .access →
      beAt (msgData m) 0 1 = 0 →
      r.ask.typ = 5 →
      s.quietBridge →
      ∃ t, exec (.cpl port m) s = .next t ∧
        (t.hfp.reqs = s.hfp.reqs.filter (fun q => q.tag != r.tag)))) ∧
  (∀ (s : State) (peer : Fin 32) (tag : BitVec 16),
      (∀ r : HfpReq, s.openReq peer.val tag.toNat = some r →
      r.ask.kind = .access →
      s.quietBridge →
      ∃ t, exec (.cplTimeout peer tag) s = .next t ∧
        (t.hfp.reqs = s.hfp.reqs.filter (fun q => q.tag != r.tag)))) ∧
  (∀ (s : State) (port : Fin 64) (m : HfpMsg),
      s.keepsMsg port { m with typ := 8 } →
      s.quietBridge →
      ∃ t, exec (.ack port m) s = .next t ∧
        (t.hfp.reqs = s.hfp.reqs.filter (fun r => !(r.ask.posted && r.inStream m.src.val m.cls.val && seqLe r.seq (beAt (msgData m) 0 4))))) ∧
  (∀ (s : State) (peer : Fin 32) (cls : Fin 4),
      (∀ r : HfpReq, s.hfp.reqs.find? (fun r => r.ask.posted && r.inStream peer.val cls.val) = some r →
      2 ≤ r.ask.init →
      s.quietBridge →
      ∃ t, exec (.ackTimeout peer cls) s = .next t ∧
        (t.hfp.reqs = s.hfp.reqs.filter (fun q => q.tag != r.tag)))) ∧
  (∀ (s : State) (port : Fin 64) (m : HfpMsg),
      s.keepsMsg port { m with typ := 9 } →
      beAt (msgData m) 0 1 ≠ 8 →
      (∀ r : HfpReq, s.hfp.reqs.find? (fun r => r.ask.posted && r.inStream m.src.val m.cls.val && r.tag == m.tag.toNat) = some r →
      2 ≤ r.ask.init →
      s.quietBridge →
      ∃ t, exec (.lateErr port m) s = .next t ∧
        (t.hfp.reqs = s.hfp.reqs.filter (fun q => q.tag != r.tag)))) ∧
  (∀ (s : State) (src : CmdSrc) (d : Desc),
      s.takesCommand d [0, 1] false →
      descBits d 16 8 ≤ 1 ∨ descBits d 16 8 = 0xFF →
      descBits d 17 8 ≤ 31 ∨ descBits d 17 8 = 0xFF →
      descZero d 18 64 = true →
      ∃ t, exec (.clearPoison src d) s = .next t ∧
        (([0, 1].all fun k => t.get (HFP_POISON_PEERS k) == if descBits d 16 8 == k || descBits d 16 8 == 0xFF then (if descBits d 17 8 = 0xFF then 0 else setBits (s.get (HFP_POISON_PEERS k)) (descBits d 17 8) 1 0) else s.get (HFP_POISON_PEERS k)) = true)) ∧
  (∀ (s : State) (port : Fin 64) (m : HfpMsg),
      m.typ = 5 →
      s.keepsMsg port m →
      requestOk m = true →
      beAt (msgData m) 4 2 = 4 →
      beAt (msgData m) 0 4 < 2 ^ 26 →
      readCause (beAt (msgData m) 0 4) = none →
      s.busHeld = false →
      s.hfp.busWait = [] →
      s.hfp.rxStall = [] →
      m.seq.toNat = SMap.get s.hfp.rxSeq 0 (4 * m.src.val + m.cls.val) →
      SMap.get s.hfp.rxUnacked 0 (4 * m.src.val + m.cls.val) < 15 →
      (s.routePort m.src.val).isSome = true →
      ((s.inc HFP_RX_MSG_COUNT).localRead (.hfp m.src) (beAt (msgData m) 0 4)).2 = s.inc HFP_RX_MSG_COUNT →
      ∃ t, exec (.requestRx port m) s = .next t ∧
        (Sends [(7, m.src.val, m.tag.toNat, [0, 0, 0, 0, 0, 4, 0, 0] ++ beBytes 4 ((s.inc HFP_RX_MSG_COUNT).localRead (.hfp m.src) (beAt (msgData m) 0 4)).1.toNat)] s t)) ∧
  (∀ (s : State) (port : Fin 64) (m : HfpMsg),
      s.keepsMsg port { m with typ := 6 } →
      s.busHeld = false →
      s.hfp.busWait = [] →
      s.hfp.rxStall = [] →
      requestOk { m with typ := 6 } = true →
      64 ≤ beAt (msgData m) 4 2 →
      s.peerMay m.src.val = true →
      m.seq.toNat = SMap.get s.hfp.rxSeq 0 (4 * m.src.val + m.cls.val) →
      SMap.get s.hfp.rxUnacked 0 (4 * m.src.val + m.cls.val) < 15 →
      s.hif.running = none →
      s.cmdPending = false →
      leAt ((msgData m).drop 8) 0 64 = 0 →
      s.power = 0 ∨ s.power = 1 →
      ∃ t, exec (.cmdRx port m) s = .next t ∧
        (Emits 0x0001 0 (cmdDoneBody (.hfp m.src m.tag m.cls []) 0 0 0) s t)) ∧
  (∀ (s : State) (peer : Fin 32) (cls : Fin 4),
      s.hfpRuns = true →
      SMap.get s.hfp.rxUnacked 0 (4 * peer.val + cls.val) ≠ 0 →
      (s.routePort peer.val).isSome = true →
      ∃ t, exec (.ackTimer peer cls) s = .next t ∧
        (Sends [(8, peer.val, 0, beBytes 4 ((SMap.get s.hfp.rxSeq 0 (4 * peer.val + cls.val) + 2 ^ 32 - 1) % 2 ^ 32))] s t)) ∧
  (∀ (s : State) (src : CmdSrc) (d : Desc),
      src = .localRing →
      s.takesCommand d [0, 1] false →
      descBits d 16 8 < 32 →
      descBits d 17 8 < 2 →
      descZero d 18 24 = true →
      descBits d 24 64 % 64 = 0 →
      64 ≤ descBits d 32 16 →
      descBits d 32 16 ≤ 256 →
      descBits d 32 16 % 4 = 0 →
      descZero d 34 64 = true →
      descBits d 16 8 ≠ s.ownId →
      s.hfp.waitReq = [] →
      s.maySend { peer := descBits d 16 8, cls := descBits d 17 8, init := 0, typ := 6, posted := false, addr := 0, len := descBits d 32 16, data := s.hostBytes (descBits d 24 64) (descBits d 32 16), kind := .cmd } →
      ∃ t, exec (.remoteCmd src d) s = .next t ∧
        (Asked { peer := descBits d 16 8, cls := descBits d 17 8, init := 0, typ := 6, posted := false, addr := 0, len := descBits d 32 16, data := s.hostBytes (descBits d 24 64) (descBits d 32 16), kind := .cmd } s t)) ∧
  (∀ (s : State) (src : CmdSrc) (d : Desc),
      src = .localRing →
      s.takesCommand d [0, 1] false →
      lockArgsOk d = true →
      descBits d 16 8 ≠ s.ownId →
      s.quietBridge →
      s.up .fabric = true →
      s.get HFP_LOCK_STATUS_BACKOFF_HOST = 0 →
      s.maySend { peer := descBits d 16 8, cls := 0, init := 0, typ := 0x0A, posted := false, addr := 0, len := 0, data := lockReqBody (lockArgs d), kind := .lock } →
      ∃ t, exec (.lockedSeq src d false) s = .next t ∧
        (t.hfp.lockOut = some ⟨descBits d 16 8, lockArgs d, descBits d 24 64, true⟩)) ∧
  (∀ (s : State) (port : Fin 64) (m : HfpMsg) (cut : Option (Fin 4)),
      s.keepsMsg port { m with typ := 10 } →
      s.quietBridge →
      s.power ≠ 2 →
      s.peerMay m.src.val = true →
      m.seq.toNat = SMap.get s.hfp.rxSeq 0 (4 * m.src.val + m.cls.val) →
      SMap.get s.hfp.rxUnacked 0 (4 * m.src.val + m.cls.val) < 15 →
      ((lockBody (msgData m)).all fun o => o.kind == 0) = true →
      (cut.all fun k => decide ((lockBody (msgData m)).length ≤ k.val)) = true →
      ∃ t, exec (.lockReq port m cut) s = .next t ∧
        (t.on HFP_LOCK_STATUS_FAR_HELD = true)) ∧
  (∀ (s : State) (port : Fin 64) (m : HfpMsg),
      s.keepsMsg port { m with typ := 11 } →
      (∀ r : HfpReq, s.openReq m.src.val m.tag.toNat = some r →
      r.ask.kind = .lock →
      (∀ l : LockSeq, s.hfp.lockOut = some l →
      (∀ c : Running, s.hif.running = some c →
      c.cut = false →
      r.ask.init = 0 →
      l.holds = true →
      s.hfp.busWait = [] →
      s.hfp.rxStall = [] →
      s.hfp.waitReq = [] →
      s.hfp.stalled = [] →
      s.hfp.lockCox = none →
      ∃ t, exec (.lockNak port m) s = .next t ∧
        (t.hfp.lockOut = none))))) ∧
  (∀ (s : State) (port : Fin 64) (m : HfpMsg),
      s.keepsMsg port { m with typ := 12 } →
      s.on HFP_LOCK_STATUS_FAR_HELD = true →
      s.get HFP_LOCK_STATUS_HOLDER = m.src.val →
      s.hfp.busWait = [] →
      s.hfp.rxStall = [] →
      s.hfp.lockOut = none →
      s.hfp.lockCox = none →
      ∃ t, exec (.lockRel port m) s = .next t ∧
        (t.on HFP_LOCK_STATUS_FAR_HELD = false)) ∧
  (∀ (s : State),
      s.up .fabric = true →
      s.on HFP_LOCK_STATUS_FAR_HELD = true →
      s.hfp.busWait = [] →
      s.hfp.rxStall = [] →
      s.hfp.lockOut = none →
      s.hfp.lockCox = none →
      ∃ t, exec .lockMaxExpiry s = .next t ∧
        (t.on HFP_LOCK_STATUS_FAR_HELD = false)) ∧
  (∀ (s : State) (cox : Bool),
      s.up .fabric = true →
      s.quietBridge →
      ∃ t, exec (.lockBackoffEnd cox) s = .next t ∧
        (t.get (backoffFld (if cox then 1 else 0)) = 0)) ∧
  (∀ (s : State) (port : Fin 64) (m : HfpMsg),
      s.keepsMsg port { m with typ := 13 } →
      s.memberRefuses (cmitOf { m with typ := 13 }) ≠ 0 →
      (s.routePort m.src.val).isSome = true →
      ∃ t, exec (.cmitPrepare port m) s = .next t ∧
        (Sends [(13, m.src.val, 0, cmitBody 2 (s.memberRefuses (cmitOf { m with typ := 13 })) (cmitOf m).id (cmitOf m).mask (cmitOf m).t (cmitOf m).fcg (if s.memberRefuses (cmitOf { m with typ := 13 }) = 5 then s.get HEAT_STATUS_FIRST_CODE else 0) (cmitOf m).update (cmitOf m).dryRun)] s t)) ∧
  (∀ (s : State) (port : Fin 64) (m : HfpMsg),
      s.keepsMsg port { m with typ := 13 } →
      (∀ c : FabMember, s.heldFrom m = some c →
      c.phase = 2 →
      s.frozen = false →
      s.domNs 0 < c.t →
      c.update = false →
      (∀ j : CommitJob, s.fab.job = some j →
      j.upd = false →
      (s.routePort c.from_).isSome = true →
      c.from_ < 32 →
      ∃ t, exec (.cmitArm port m) s = .next t ∧
        (t.hfp.fabMember = some { c with phase := 3 })))) ∧
  (∀ (s : State) (port : Fin 64) (m : HfpMsg),
      s.keepsMsg port { m with typ := 13 } →
      (∀ c : FabMember, s.heldFrom m = some c →
      s.commitState = 1 ∨ s.commitState = 2 →
      c.update = false →
      (s.routePort c.from_).isSome = true →
      c.from_ < 32 →
      ∃ t, exec (.cmitAbort port m) s = .next t ∧
        (t.hfp.fabMember = none))) ∧
  (∀ (s : State),
      (∀ c : FabMember, s.hfp.fabMember = some c →
      c.phase = 2 →
      c.update = false →
      ∃ t, exec .phase2Drop s = .next t ∧
        (t.hfp.fabMember = none))) ∧
  (∀ (s : State) (port : Fin 64) (m : HfpMsg),
      s.keepsMsg port { m with typ := 13 } →
      s.ledBy m = none →
      (∀ c : FabMember, s.heldFrom m = some c →
      c.update = true →
      s.updLive = 7 →
      s.rst.pw = [] →
      (s.routePort c.from_).isSome = true →
      c.from_ < 32 →
      ∃ t, exec (.cmitConfirm port m) s = .next t ∧
        (UpdEnters 0 s t))) ∧
  (∀ (s : State) (port : Fin 64) (m : HfpMsg),
      s.keepsMsg port { m with typ := 13 } →
      (∀ f : FabInit, s.ledBy m = some f →
      f.armed = false →
      f.aborting = false →
      f.waiting.contains m.src.val = true →
      (f.waiting.filter (· ≠ m.src.val)).isEmpty = false →
      ∃ t, exec (.cmitVote port m) s = .next t ∧
        (t.hfp.fabInit = some { f with waiting := f.waiting.filter (· ≠ m.src.val), failed := if beAt (msgData m) 1 1 = 0 then f.failed else f.failed ++ [(m.src.val, beAt (msgData m) 1 1)] }))) ∧
  (∀ (s : State) (port : Fin 64) (m : HfpMsg),
      s.keepsMsg port { m with typ := 13 } →
      (∀ f : FabInit, s.ledBy m = some f →
      f.armed = true →
      f.aborting = false →
      f.update = false →
      (f.waiting.filter (· ≠ m.src.val)).isEmpty = false →
      ∃ t, exec (.cmitAck port m) s = .next t ∧
        (t.hfp.fabInit = some { f with waiting := f.waiting.filter (· ≠ m.src.val) }))) ∧
  (∀ (s : State),
      (∀ f : FabInit, s.hfp.fabInit = some f →
      f.armed = false →
      f.aborting = false →
      f.update = false →
      f.waiting ≠ [] →
      (f.failed.all fun e => e.2 != 5) = true →
      f.own ≠ some 5 →
      ∃ t, exec .prepareTimeout s = .next t ∧
        (t.commitState = 0))) ∧
  (∀ (s : State),
      (∀ f : FabInit, s.hfp.fabInit = some f →
      f.armed = true →
      f.aborting = false →
      f.done = false →
      f.update = false →
      ∃ t, exec .armMarginDeadline s = .next t ∧
        (t.commitState = 0))) ∧
  (∀ (s : State),
      (∀ f : FabInit, s.hfp.fabInit = some f →
      f.aborting = true →
      f.waiting ≠ [] →
      s.domNs 0 < f.t →
      (f.waiting.all fun p => decide (p < 32) && (s.routePort p).isSome) = true →
      ∃ t, exec .abortRepeat s = .next t ∧
        (Sends (f.waiting.map fun p => (13, p, 0, cmitBody 5 0 f.id f.mask f.t f.fcg 0 f.update f.dryRun)) s t))) ∧
  (∀ (s : State),
      (∀ f : FabInit, s.hfp.fabInit = some f →
      f.update = true →
      f.done = true →
      f.aborting = false →
      s.updLive = 0 →
      (f.waiting.all fun p => decide (p < 32) && (s.routePort p).isSome) = true →
      ∃ t, exec .confirmRepeat s = .next t ∧
        (Sends (f.waiting.map fun p => (13, p, 0, cmitBody 6 0 f.id f.mask f.t f.fcg 0 f.update f.dryRun)) s t)))

/-- When each of the host and Cox rows completes: under conditions on the state and the operands alone, exec answers a next state with the effect of the row. -/
def Obligations.HostAndCoxRowsComplete : Prop :=
  (∀ (s : State) (who : Initiator) (ring : Ring) (value : Word),
      s.takesWrite who (ringCfg ring) (withBit value 0) →
      s.on (ringEn ring) = false →
      s.hif.heldEvents = [] →
      ∃ t, exec (.ringEnable who ring value) s = .next t ∧
        (t.on (ringEn ring) = true)) ∧
  (∀ (s : State) (who : Initiator) (ring : Ring) (value : Word),
      s.takesWrite who (ringCfg ring) (noBit value 0) →
      s.hif.heldEvents = [] →
      ∃ t, exec (.ringDisable who ring value) s = .next t ∧
        (t.on (ringEn ring) = false)) ∧
  (∀ (s : State),
      s.up .host = true →
      s.on HIF_CTRL_ENABLE = true →
      s.ringsAgree [] = true →
      ∃ t, exec .doorbellRead s = .next t ∧
        (t.hif.cmdProd = (if s.ringRuns .cmd then s.bellOf .cmd else s.hif.cmdProd))) ∧
  (∀ (s : State) (who : Initiator),
      s.takesWrite who HIF_KICK 1 →
      s.on HIF_CTRL_ENABLE = true →
      s.ringsAgree [] = true →
      ∃ t, exec (.kick who) s = .next t ∧
        (Runs .doorbellRead s fun u => { t with pins := { t.pins with faultHold := s.pins.faultHold } } = { u with hif := { u.hif with pollNs := s.get HIF_POLL_MIN_NS } })) ∧
  (∀ (s : State),
      (∀ q : Fin 16, s.nextTxRing = some q →
      s.framesStopped = false →
      s.up .fabric = true →
      60 ≤ bits (s.hostRd (s.txSlot q) 32) 64 16 →
      bits (s.hostRd (s.txSlot q) 32) 64 16 ≤ 9212 →
      bits (s.hostRd (s.txSlot q) 32) 112 8 < 64 →
      bits (s.hostRd (s.txSlot q) 32) 82 14 = 0 →
      bits (s.hostRd (s.txSlot q) 32) 120 72 = 0 →
      bits (s.hostRd (s.txSlot q) 32) 201 7 = 0 →
      bits (s.hostRd (s.txSlot q) 32) 208 48 = 0 →
      ∃ t, exec .txDescFetch s = .next t ∧
        (TxWritten q 0 s t))) ∧
  (∀ (s : State),
      s.alive = true →
      ∃ t, exec (.hostReset .perst) s = .next t ∧
        (t.hif = { running := s.hif.running.map (fun r => { r with cut := true }), perstLow := true, heldEvents := s.hif.heldEvents })) ∧
  (∀ (s : State) (source : Fin 48),
      SMap.get s.hif.holdoff 0 source.val ≠ 2 →
      ∃ t, exec (.msixHoldoffEnd source) s = .next t ∧
        (t.hif.holdoff = SMap.put s.hif.holdoff 0 source.val 0)) ∧
  (∀ (s : State) (src : CmdSrc) (d : Desc),
      s.takesCommand d [0, 1, 2] false →
      descZero d 16 64 = true →
      ∃ t, exec (.nop src d) s = .next t ∧
        (Completes src d 0 0 s t)) ∧
  (∀ (s : State),
      s.cmdRuns = true →
      s.hif.running = none →
      s.hif.cmdProd ≠ s.hif.cmdCons →
      descOp (BitVec.ofNat 512 (s.hostRd s.cmdSlot 64)) = 0 →
      ∃ t, exec .cmdFetch s = .next t ∧
        (exec (.nop .localRing (BitVec.ofNat 512 (s.hostRd s.cmdSlot 64))) s = .next t)) ∧
  (∀ (s : State) (missA : Bool) (missB : Bool),
      (∀ c : Running, s.hif.running = some c →
      (∀ x : Nat × Nat, (match c.kind with | .plain a b => some (a, b) | _ => none) = some x →
      c.cut = false →
      ∃ t, exec (.commandDone missA missB) s = .next t ∧
        (Completes c.src c.desc x.1 x.2 s t)))) ∧
  (∀ (s : State),
      s.comparing = true →
      s.cox.seqRunning = false →
      s.power ≠ 3 →
      ∃ t, exec (.lockstepMismatch false false) s = .next t ∧
        (Reacts 1 GLB_FAULT_LOCKSTEP_MISMATCH s t)) ∧
  (∀ (s : State) (alone : Option Bool) (outPar : Bool) (inPar : Bool),
      s.comparing = true →
      s.cox.seqRunning = false →
      s.power ≠ 3 →
      (∀ b : Bool, alone = some b →
      outPar = false →
      inPar = false →
      ∃ t, exec (.checkerFault alone outPar inPar) s = .next t ∧
        (Reacts (if b then 3 else 2) GLB_FAULT_CHECKER_FAULT s t))) ∧
  (∀ (s : State),
      s.comparing = true →
      s.cox.coresHeld = false →
      s.on (INJ_ARM_ARM 3) = false →
      ∃ t, exec (.selftest false false false false false false) s = .next t ∧
        (t.get COX_SELFTEST_BIT = s.cox.nextBit % 2 ^ COX_SELFTEST_BIT.w)) ∧
  (∀ (s : State) (who : Initiator) (w : Fin 2) (value : Word) (ms : Nat),
      s.takesWrite who (COX_WDOG_KICK w.val) value →
      SMap.get s.cox.wdog 0 w.val ≠ 0 →
      value.toNat = (if SMap.get s.cox.wdogSecond false w.val then 0xA5A5 else 0x5A5A) →
      SMap.get s.cox.wdog 0 w.val = 2 → s.get (COX_WDOG_CFG_MIN_MS w.val) ≤ ms →
      ∃ t, exec (.wdogKick who w value ms) s = .next t ∧
        (SMap.get t.cox.wdog 0 w.val = 2)) ∧
  (∀ (s : State) (w : Fin 2),
      SMap.get s.cox.wdog 0 w.val ≠ 0 →
      s.cox.seqRunning = false →
      s.power ≠ 3 →
      ∃ t, exec (.wdogExpiry w) s = .next t ∧
        (Reacts (if w.val = 0 then 0x10 else 0x12) GLB_FAULT_WDOG s t)) ∧
  (∀ (s : State) (m : Fin 9) (persists : Bool),
      s.up .cox = true →
      s.power ≠ 3 →
      ∃ t, exec (.clockMon m persists) s = .next t ∧
        (t.on GLB_FAULT_CLOCK = true)) ∧
  (∀ (s : State) (rail : Fin 16) (persists : Bool),
      s.up .cox = true →
      s.power ≠ 3 →
      ∃ t, exec (.supplyMon rail persists) s = .next t ∧
        (t.on GLB_FAULT_SUPPLY = true)) ∧
  (∀ (s : State) (sensorFail : Bool) (tj : Byte) (persists : Bool) (beyond : Nat),
      s.up .cox = true →
      s.power ≠ 3 →
      sensorFail = true →
      ∃ t, exec (.tempMon sensorFail tj persists beyond) s = .next t ∧
        (t.on GLB_FAULT_TEMP = true)) ∧
  (∀ (s : State) (r : ReleaseResult),
      s.up .cox = true →
      s.cox.coresHeld = true →
      s.on COX_STATUS_HALTED = false →
      s.on OPT_STATUS_VALID = true →
      s.updLive ≠ 8 →
      s.launchReverts s.cox.startCode r.digestOk = none →
      s.get COX_STATUS_MODE = 0 →
      s.on (INJ_ARM_ARM 3) = false →
      s.cox.startCode = 10 →
      s.get LOG_FAIL_START_FAILS + 1 < s.get OPT_BOOT_FAIL_LIMIT →
      s.rst.pw = [] →
      r.digestOk = true →
      r.missA = false →
      r.missB = false →
      (List.range 25).all (fun p => !s.on (INJ_ARM_ARM p)) = true →
      ∃ t, exec (.coreRelease r) s = .next t ∧
        (t.cox.coresHeld = false)) ∧
  (∀ (s : State) (who : Initiator),
      s.takesWrite who COX_CTRL 1 →
      ∃ t, exec (.unfreeze who) s = .next t ∧
        ((s.mayUnfreeze = true → t.frozen = false))) ∧
  (∀ (s : State) (src : CmdSrc) (d : Desc),
      s.takesCommand d [0, 1] true →
      descBits d 16 8 < 2 →
      descZero d 17 64 = true →
      descBits d 16 8 ≠ s.get COX_STATUS_MODE →
      s.get COX_STATUS_MODE ≠ 2 →
      s.on COX_STATUS_DEBUG = false →
      ∃ t, exec (.coxMode src d) s = .next t ∧
        (t.get COX_STATUS_MODE = 2)) ∧
  (∀ (s : State) (scans : List JtagScan) (attach : Bool),
      attach = true →
      s.debugAllowed = true →
      s.up .debug = true →
      s.up .cox = true →
      ∃ t, exec (.debugAttach scans attach) s = .next t ∧
        (t.on COX_STATUS_DEBUG = true)) ∧
  (∀ (s : State),
      ∃ t, exec .debugDetach s = .next t ∧
        (t.on COX_STATUS_DEBUG = false)) ∧
  (∀ (s : State) (src : CmdSrc) (d : Desc),
      s.takesCommand d [0, 1, 2] true →
      descZero d 17 24 = true →
      descZero d 32 64 = true →
      descBits d 24 64 % 8 = 0 →
      src = .localRing →
      descBits d 16 8 = 2 →
      descBits d 24 64 = 0 →
      s.get COX_LIFECYCLE_STATE = 1 →
      ∃ t, exec (.lifecycle src d) s = .next t ∧
        (RunsOn src d (.lifecycle 2 []) s t)) ∧
  (∀ (s : State) (src : CmdSrc) (d : Desc),
      s.takesCommand d [0, 1, 2] true →
      descZero d 17 24 = true →
      descZero d 32 64 = true →
      descBits d 24 64 % 8 = 0 →
      src = .localRing →
      descBits d 16 8 = 0 →
      descBits d 24 64 = 0 →
      s.get COX_LIFECYCLE_STATE ≠ 0 →
      s.on COX_LIFECYCLE_OWNER_LOCK = false →
      s.worn .ownerLock = false →
      ∃ t, exec (.ownerLock src d) s = .next t ∧
        (RunsOn src d (.ownerLock true) s t)) ∧
  (∀ (s : State) (who : Initiator),
      s.takesWrite who INJ_CTRL 1 →
      ∃ t, exec (.injEnable who) s = .next t ∧
        (t.on INJ_CTRL_EN = true)) ∧
  (∀ (s : State) (who : Initiator),
      s.takesWrite who INJ_CTRL 0 →
      ∃ t, exec (.injDisable who) s = .next t ∧
        (t.on INJ_CTRL_EN = false)) ∧
  (∀ (s : State) (who : Initiator) (p : Fin 25) (value : Word),
      s.takesWrite who (INJ_ARM p.val) value →
      [3, 8, 9, 10, 11, 16, 18, 19, 20, 21, 22, 23, 24].contains p.val = true →
      bit value.toNat 31 = true →
      ∃ t, exec (.injArm who p value) s = .next t ∧
        (t.on (INJ_ARM_ARM p.val) = true))

/-- When each of the key and update rows completes: under conditions on the state and the operands alone, exec answers a next state with the effect of the row. -/
def Obligations.KeyAndUpdateRowsComplete : Prop :=
  (∀ (s : State) (src : CmdSrc) (d : Desc),
      s.takesCommand d [0, 1] false →
      descBits d 16 8 ≠ 0 →
      descBits d 17 8 ≤ 2 →
      pairOk (descBits d 17 8) (descBits d 18 8) = true →
      descBits d 19 8 ≤ 1 →
      descZero d 24 64 = true →
      s.keyRefused (some (descBits d 16 8)) true true = none →
      s.slotWorn (descBits d 16 8) = false →
      ∃ t, exec (.keyGenerate src d) s = .next t ∧
        (SlotWritten src d (descBits d 16 8) (t.slotSoon (descBits d 16 8)) s t)) ∧
  (∀ (s : State) (src : CmdSrc) (d : Desc),
      s.takesCommand d [0, 1] false →
      SMap.get s.key.slotErr 0 (descBits d 16 8) = 0 →
      descBits d 17 8 = 0 →
      descZero d 19 24 = true →
      descZero d 32 64 = true →
      descBits d 24 64 % 8 = 0 →
      src = .localRing →
      s.keyRefused none false true = none →
      descBits d 16 8 ≠ 0 →
      slotValid (s.slot (descBits d 16 8)) = true →
      slotExport (s.slot (descBits d 16 8)) = true →
      ∃ t, exec (.keyWrap src d []) s = .next t ∧
        (HostWrote (descBits d 24 64) (s.makeBlob (s.slot (descBits d 16 8)) (sliceBytes (t.hostBytes (descBits d 24 64) 144) 24 12)) s t)) ∧
  (∀ (s : State) (src : CmdSrc) (d : Desc),
      s.takesCommand d [0, 1] false →
      descBits d 16 8 ≠ 0 →
      descBits d 17 8 = 0 →
      descBits d 19 8 = 0 →
      descBits d 20 8 = 0 →
      descBits d 21 8 = 0 →
      descBits d 32 32 = 0 →
      descBits d 22 16 = 144 →
      descZero d 36 64 = true →
      descBits d 24 64 % 8 = 0 →
      src = .localRing →
      s.keyRefused (some (descBits d 16 8)) true false = none →
      s.slotWorn (descBits d 16 8) = false →
      ∃ t, exec (.keyUnwrap src d []) s = .next t ∧
        ((∀ e, s.openBlob (s.hostBytes (descBits d 24 64) 144) = some e → SlotWritten src d (descBits d 16 8) e s t))) ∧
  (∀ (s : State) (src : CmdSrc) (d : Desc),
      s.takesCommand d [0, 1] false →
      SMap.get s.key.slotErr 0 (descBits d 17 8) = 0 →
      descBits d 16 8 ≠ 0 →
      descBits d 18 8 = 0 →
      descBits d 19 8 = 0 →
      descBits d 20 8 = 1 →
      descBits d 21 8 ≤ 1 →
      descZero d 36 64 = true →
      descBits d 24 64 % 8 = 0 →
      src = .localRing →
      descBits d 22 16 = 4 →
      beAt (s.hostBytes (descBits d 24 64) 4) 0 4 = 0 →
      s.keyRefused (some (descBits d 16 8)) true false = none →
      s.slotWorn (descBits d 16 8) = false →
      slotValid (s.slot (descBits d 17 8)) = true →
      slotUsage (s.slot (descBits d 17 8)) = 3 →
      slotType (s.slot (descBits d 17 8)) ≠ 2 →
      descBits d 21 8 = 1 → slotExport (s.slot (descBits d 17 8)) = true →
      ∃ t, exec (.keyDerive src d []) s = .next t ∧
        (SlotWritten src d (descBits d 16 8) (slotMake 3 0 1 (descBits d 21 8) (descBits d 32 32) (Config.hkdf (slotKey (s.slot (descBits d 17 8))) [] [] 32)) s t)) ∧
  (∀ (s : State) (src : CmdSrc) (d : Desc),
      s.takesCommand d [0, 1] false →
      descZero d 17 64 = true →
      s.keyRefused (some (descBits d 16 8)) false false = none →
      descBits d 16 8 ≠ 0 →
      s.slotWorn (descBits d 16 8) = false →
      ∃ t, exec (.keyDestroy src d) s = .next t ∧
        (t.slotSoon (descBits d 16 8) = 0)) ∧
  (∀ (s : State) (src : CmdSrc) (d : Desc),
      s.takesCommand d [0, 1, 2] false →
      SMap.get s.key.slotErr 0 0 = 0 →
      s.key.idLost = false →
      descBits d 16 64 % 8 = 0 →
      descZero d 56 64 = true →
      src = .localRing →
      s.keyRefused none false true = none →
      ∃ t, exec (.attest src d) s = .next t ∧
        ((s.dmaOn = true → t.hostBytes (descBits d 16 64) 712 = (s.kset fun k => { k with statements := k.statements + 1 }).statement (leBytes 32 (descBits d 24 256))))) ∧
  (∀ (s : State) (src : CmdSrc) (d : Desc),
      s.takesCommand d [0, 1, 2] false →
      descBits d 16 64 % 8 = 0 →
      1 ≤ descBits d 24 32 →
      descBits d 24 32 ≤ 4096 →
      descZero d 28 64 = true →
      src = .localRing →
      s.keyRefused none false true = none →
      ∃ t, exec (.random src d) s = .next t ∧
        (HostBut (descBits d 16 64) (descBits d 24 32) s t)) ∧
  (∀ (s : State) (apt : Bool),
      s.up .key = true →
      ∃ t, exec (.trngHealthFail apt) s = .next t ∧
        (t.on KEY_STATUS_TRNG_FAIL = true)) ∧
  (∀ (s : State) (who : Initiator) (pass : Bool),
      s.hostTurned who = false →
      s.busFree →
      s.up .key = true →
      ∃ t, exec (.trngRetest who pass) s = .next t ∧
        (t.on KEY_STATUS_TRNG_FAIL = (if pass then false else s.on KEY_STATUS_TRNG_FAIL))) ∧
  (∀ (s : State) (src : CmdSrc) (d : Desc),
      s.takesCommand d [0, 1] false →
      src = .localRing →
      descBits d 16 64 % 64 = 0 →
      descBits d 24 32 % 64 = 0 →
      64 ≤ descBits d 28 32 →
      descBits d 28 32 ≤ 1048576 →
      descBits d 32 8 < 2 →
      descZero d 33 64 = true →
      s.pdOn 8 = true →
      s.dramReady = true →
      s.updLive ≤ 2 →
      descBits d 24 32 + descBits d 28 32 ≤ s.get UPD_STAGE_SIZE * 2 ^ 21 →
      ∃ t, exec (.updLoad src d) s = .next t ∧
        (t.dramBytes (s.stageAddr (descBits d 24 32)) (descBits d 28 32) = s.hostBytes (descBits d 16 64) (descBits d 28 32))) ∧
  (∀ (s : State) (src : CmdSrc) (d : Desc),
      s.takesCommand d [0, 1, 2] false →
      descBits d 20 32 < 2 →
      descZero d 24 64 = true →
      s.updLive = 1 →
      ∃ t, exec (.updVerify src d) s = .next t ∧
        (RunsOn src d .updVerify s t)) ∧
  (∀ (s : State),
      s.up .cox = true →
      s.updLive = 3 →
      (∀ e : Nat × Option Nat, s.upd.todo.head? = some e →
      s.dram.badWords = [] →
      ∃ t, exec (.flashBlockDone true) s = .next t ∧
        (t.upd.todo = s.upd.todo.tail))) ∧
  (∀ (s : State),
      s.up .cox = true →
      s.updLive = 8 →
      s.cox.coresHeld = true →
      s.hif.running = none →
      ∃ t, exec .journalReplayDone s = .next t ∧
        (UpdEnters 0 s t)) ∧
  (∀ (s : State) (src : CmdSrc) (d : Desc),
      s.takesCommand d [0, 1] true →
      s.activateOk d = true →
      s.activateRefused (commitArgs d) = none →
      s.updClear = true →
      (commitArgs d).fabric = false →
      s.upd.entries = [] →
      ∃ t, exec (.updActivate src d) s = .next t ∧
        (t.commitState = 1)) ∧
  (∀ (s : State),
      (∀ j : CommitJob, s.fab.job = some j →
      s.commitState = 2 →
      j.upd = true →
      j.mask = 0 →
      j.timed = false ∨ s.domNs 0 ≥ j.at_ →
      s.upd.entries = [] →
      s.power ≠ 3 →
      s.cox.seqRunning = false →
      ∃ t, exec .updActivation s = .next t ∧
        (t.updLive = 6))) ∧
  (∀ (s : State) (who : Initiator) (value : Word),
      s.takesWrite who UPD_HEALTH value →
      s.updLive = 6 →
      s.hfp.fabMember = none →
      s.hfp.fabInit = none →
      s.power ≠ 2 →
      ∃ t, exec (.healthConfirm who value) s = .next t ∧
        (UpdEnters 0 s t)) ∧
  (∀ (s : State),
      s.up .cox = true →
      s.updLive = 6 →
      ∃ t, exec .healthExpiry s = .next t ∧
        (WasReset 5 s t)) ∧
  (∀ (s : State) (src : CmdSrc) (d : Desc),
      s.takesCommand d [0, 1] false →
      descZero d 16 64 = true →
      1 ≤ s.updLive →
      s.updLive ≤ 4 →
      s.validSlots = [] →
      s.commitState = 0 →
      s.hfp.fabMember = none →
      s.hfp.fabInit = none →
      s.rst.asked = false →
      ∃ t, exec (.updAbort src d) s = .next t ∧
        (UpdEnters 0 s t))

/-- When each of the power, sleep, wake, reset and persistent rows completes: under conditions on the state and the operands alone, exec answers a next state with the effect of the row. -/
def Obligations.PowerAndResetRowsComplete : Prop :=
  (∀ (s : State) (src : CmdSrc) (d : Desc),
      s.takesCommand d [0, 1] false →
      descBits d 16 8 = 4 →
      descZero d 17 64 = true →
      s.powerRefused 4 = none →
      s.pwr.goal = none →
      ∃ t, exec (.powerState src d) s = .next t ∧
        (EntersSleep s t)) ∧
  (∀ (s : State) (who : Initiator) (value : Word),
      s.takesWrite who PWR_CTRL value →
      bits value.toNat 0 3 = 5 →
      bit value.toNat 8 = false →
      s.power = 0 ∨ s.power = 1 →
      s.powerRefused 4 = none →
      s.pwr.goal = none →
      ∃ t, exec (.pwrReq who value) s = .next t ∧
        (EntersSleep s t)) ∧
  (∀ (s : State) (who : Initiator),
      s.takesWrite who PWR_CTRL 0x100 →
      ∃ t, exec (.stay who) s = .next t ∧
        (t.pwr.idleTimer = false)) ∧
  (∀ (s : State) (who : Initiator) (value : Word),
      s.takesWrite who PWR_ACTIVE value →
      s.power ≠ 0 →
      ∃ t, exec (.pwrDomainsWrite who false value) s = .next t ∧
        (t.rd PWR_ACTIVE = value ||| BitVec.ofNat 32 (maskOf activeMust))) ∧
  (∀ (s : State) (pd : Fin 15) (link : Option (Fin 3 × Fin 4)),
      s.alive = true →
      pd.val ≠ 0 →
      bit s.pwr.want pd.val = true →
      s.pdOn pd.val = false →
      s.pwr.goal = none →
      s.power ≠ 5 →
      ∃ t, exec (.domainPowerGood pd link) s = .next t ∧
        (t.pdOn pd.val = true)) ∧
  (∀ (s : State),
      s.power = 3 →
      s.pwr.latched = false →
      s.pwr.waitAck = [] →
      s.unmaskedFaults = 0 →
      s.imageMissing = none →
      ∃ t, exec (.sleepCommit none) s = .next t ∧
        (t.pwr.latched = true)) ∧
  (∀ (s : State),
      s.power = 3 →
      s.pwr.waitAck ≠ [] →
      ∃ t, exec .sleepTimeout s = .next t ∧
        (Aborts 2 (s.pwr.waitAck.foldl min 63) s t)) ∧
  (∀ (s : State),
      s.pastCommit = true →
      s.pwr.lateSource = 0 →
      ∃ t, exec .sleepPowerDown s = .next t ∧
        (t.power = 4)) ∧
  (∀ (s : State),
      s.alive = true →
      s.power = 4 →
      s.on WAK_SRC_EN_WAKE_IN = true →
      s.pwr.goal = none →
      ∃ t, exec .wakeIn s = .next t ∧
        (Wakes 1 s t)) ∧
  (∀ (s : State),
      s.alive = true →
      s.power = 4 →
      s.on WAK_SRC_EN_TIMER = true →
      s.get WAK_TIMER_SECONDS ≠ 0 →
      s.pwr.goal = none →
      ∃ t, exec .wakeTimer s = .next t ∧
        (Wakes 4 s t)) ∧
  (∀ (s : State),
      s.alive = true →
      s.power = 4 →
      s.on WAK_SRC_EN_STILL = true →
      s.pwr.goal = none →
      ∃ t, exec .vehicleStillFall s = .next t ∧
        (Wakes 5 s t)) ∧
  (∀ (s : State),
      s.pwr.idleTimer = true →
      s.on WAK_STATUS_WAKE_IN = true →
      ∃ t, exec .falseWake s = .next t ∧
        (t.pwr.falsePending = true)) ∧
  (∀ (s : State),
      s.alive = true →
      s.pwr.falsePending = false →
      ∃ t, exec .wakeInRelease s = .next t ∧
        (t.on WAK_STATUS_WAKE_IN = false)) ∧
  (∀ (s : State) (mv : BitVec 16) (still : Bool),
      s.alive = true →
      ∃ t, exec (.vbatSample mv still) s = .next t ∧
        (t.get PWR_VBAT_MV = min (mv.toNat * s.get PWR_VBAT_CFG_RATIO / 10) 65535)) ∧
  (∀ (s : State),
      ∃ t, exec .wakeOutEnd s = .next t ∧
        (t.pwr.wakeOut = false)) ∧
  (∀ (s : State),
      ∃ t, exec .xtal32Fail s = .next t ∧
        (t.pwr.xtalFailed = true)) ∧
  (∀ (s : State) (edge : BankVolt) (time : BankVolt),
      ∃ t, exec (.powerOn edge time) s = .next t ∧
        (WasReset 1 s t)) ∧
  (∀ (s : State) (rails : List (Fin 16)),
      s.rst.off = false →
      ∃ t, exec (.brownout rails) s = .next t ∧
        (WasReset 2 s t)) ∧
  (∀ (s : State),
      s.rst.off = false →
      ∃ t, exec .resetPin s = .next t ∧
        (WasReset 3 s t)) ∧
  (∀ (s : State),
      s.rst.off = false →
      ∃ t, exec .thermal s = .next t ∧
        (WasReset 6 s t)) ∧
  (∀ (s : State),
      s.alive = true →
      s.debugAllowed = true →
      s.up .debug = true →
      ∃ t, exec .jtagReset s = .next t ∧
        (WasReset 7 s t)) ∧
  (∀ (s : State),
      s.rst.off = false →
      s.rst.hold ≠ [] →
      ∃ t, exec .resetRelease s = .next t ∧
        (t.alive = true)) ∧
  (∀ (s : State),
      ∃ t, exec .powerLoss s = .next t ∧
        (WasReset 1 s t)) ∧
  (∀ (s : State),
      s.alive = true →
      s.on RST_START_START_OPEN = true →
      s.power ≠ 2 →
      ∃ t, exec .startTimeout s = .next t ∧
        (WasReset 8 s t)) ∧
  (∀ (s : State) (src : CmdSrc) (d : Desc),
      s.takesCommand d [0, 1, 2] false →
      deviceResetArgs d = true →
      descBits d 16 8 = 0 →
      descBits d 19 8 = 0 →
      src.remote = false ∨ s.peerHasAuthority src.peerByte = true →
      s.rst.asked = false →
      ∃ t, exec (.deviceReset src d) s = .next t ∧
        (WasReset 4 s t)) ∧
  (∀ (s : State),
      (∀ c : Running, s.hif.running = some c →
      c.kind = .islandReset →
      c.cut = false →
      s.alive = true →
      s.pdOn (domainOf (resetIsland c.desc).1 (resetIsland c.desc).2) = true →
      ∃ t, exec .islandReady s = .next t ∧
        (t.up (resetIsland c.desc).1 (resetIsland c.desc).2 = true))) ∧
  (∀ (s : State) (link : Option (Fin 3 × Fin 4)),
      s.alive = true →
      (∀ x : Fin 3 × Fin 4, link = some x →
      s.pdOn 7 = true →
      ∃ t, exec (.perstNDeassert link) s = .next t ∧
        (t.hif.perstLow = false))) ∧
  (∀ (s : State) (who : Initiator),
      s.takesWrite who RST_START 1 →
      s.cox.coresHeld = false →
      s.on RST_START_START_OPEN = true →
      s.get LOG_FAIL_START_FAILS = 0 →
      ∃ t, exec (.startOk who) s = .next t ∧
        (t.on GLB_FAULT_START_PENDING = false)) ∧
  (∀ (s : State) (who : Initiator),
      s.takesWrite who OPT_PROG 1 →
      s.rst.pw ≠ [] →
      ∃ t, exec (.optProgram who) s = .next t ∧
        (t.rst.pw = s.rst.pw ++ s.optProgramWrites)) ∧
  (∀ (s : State) (who : Initiator) (i : Fin 1024) (value : Word),
      s.takesWrite who (LOG_WORD i.val) value →
      s.get (LOG_WORD_VALUE i.val) ≠ value.toNat →
      s.worn (.logWord i.val) = false →
      s.rst.pw = [] →
      ∃ t, exec (.logWordWrite who i value) s = .next t ∧
        (t.rst.pw = [⟨.logWord i.val, value.toNat⟩])) ∧
  (∀ (s : State) (src : CmdSrc) (d : Desc),
      s.takesCommand d [0, 1, 2] false →
      descBits d 16 16 < 1024 →
      descZero d 18 20 = true →
      descZero d 28 64 = true →
      s.logValue (descBits d 16 16) = ((s.logValue (descBits d 16 16) &&& (2 ^ 32 - 1 - descBits d 24 32)) ||| (descBits d 20 32 &&& descBits d 24 32)) →
      (s.rst.pw.any fun w => w.tgt == .logWord (descBits d 16 16)) = false →
      ∃ t, exec (.logWrite src d) s = .next t ∧
        (Completes src d 0 (s.get (LOG_WEAR_COUNT (descBits d 16 16))) s t)) ∧
  (∀ (s : State),
      s.alive = true →
      (∀ w : PWrite, s.rst.pw.head? = some w →
      s.rst.pw.length = 1 →
      s.hif.running = none →
      w.tgt = .logWord 7 ∨ w.tgt = .failStart →
      w.val < 16 →
      ∃ t, exec .persistentWriteDone s = .next t ∧
        (t.pwStored w.tgt = w.val))) ∧
  (∀ (s : State) (bytes : List Byte) (ts : Option (BitVec 16)) (mka : Option MkaUse),
      s.up .cox = true →
      s.cox.coresHeld = false →
      s.up .fabric = true →
      s.framesStopped = false →
      mka = none →
      ∃ t, exec (.coxFrameTx bytes ts mka) s = .next t ∧
        ((t.rxAt 65 s.fab.nextFrame).any (fun x => x.bytes == bytes && x.port == 65 && x.ended) = true))
end

