-- ==== Sys2Proof/Laws/SMap.lean ====
section
/-! SUPPORT. The laws of sparse maps: reading after a write, and the canonical form that every write keeps; the laws of
bit fields of a number. -/
namespace Sys2Proof

namespace SMap
variable {α : Type}

@[simp] theorem find_insert_same (m : SMap α) (k : Nat) (v : α) : SMap.find (SMap.insert m k v) k = some v := by
  induction m with
  | nil => simp [SMap.insert, SMap.find]
  | cons e t ih =>
    obtain ⟨k', v'⟩ := e
    by_cases h : k < k'
    · simp [SMap.insert, SMap.find, h]
    · by_cases h' : k' = k
      · simp [SMap.insert, SMap.find, h']
      · simp [SMap.insert, SMap.find, h, h', ih]

theorem find_insert_ne (m : SMap α) {k j : Nat} (v : α) (hne : j ≠ k) :
    SMap.find (SMap.insert m k v) j = SMap.find m j := by
  induction m with
  | nil => simp [SMap.insert, SMap.find, Ne.symm hne]
  | cons e t ih =>
    obtain ⟨k', v'⟩ := e
    by_cases h : k < k'
    · simp [SMap.insert, SMap.find, h, Ne.symm hne]
    · by_cases h' : k' = k
      · subst h'
        simp [SMap.insert, SMap.find, Ne.symm hne]
      · simp only [SMap.insert, if_neg h, if_neg h', SMap.find, ih]

@[simp] theorem find_erase_same (m : SMap α) (k : Nat) : SMap.find (SMap.erase m k) k = none := by
  induction m with
  | nil => rfl
  | cons e t ih =>
    obtain ⟨k', v'⟩ := e
    by_cases h : k' = k <;> simp [SMap.erase, SMap.find, h, ih]

theorem find_erase_ne (m : SMap α) {k j : Nat} (hne : j ≠ k) : SMap.find (SMap.erase m k) j = SMap.find m j := by
  induction m with
  | nil => rfl
  | cons e t ih =>
    obtain ⟨k', v'⟩ := e
    by_cases h : k' = k
    · subst h
      simp [SMap.erase, SMap.find, ih, Ne.symm hne]
    · simp only [SMap.erase, if_neg h, SMap.find, ih]

@[simp] theorem get_put_same [DecidableEq α] (m : SMap α) (d : α) (k : Nat) (v : α) :
    SMap.get (SMap.put m d k v) d k = v := by
  by_cases h : v = d <;> simp [SMap.put, SMap.get, h]

theorem get_put_ne [DecidableEq α] (m : SMap α) (d d' : α) {k j : Nat} (v : α) (hne : j ≠ k) :
    SMap.get (SMap.put m d k v) d' j = SMap.get m d' j := by
  by_cases h : v = d
  · simp [SMap.put, SMap.get, h, find_erase_ne m hne]
  · simp [SMap.put, SMap.get, h, find_insert_ne m v hne]

@[simp] theorem get_insert_same (m : SMap α) (d : α) (k : Nat) (v : α) : SMap.get (SMap.insert m k v) d k = v := by
  simp [SMap.get]

theorem get_insert_ne (m : SMap α) (d : α) {k j : Nat} (v : α) (hne : j ≠ k) :
    SMap.get (SMap.insert m k v) d j = SMap.get m d j := by
  simp [SMap.get, find_insert_ne m v hne]

@[simp] theorem get_nil (d : α) (k : Nat) : SMap.get ([] : SMap α) d k = d := rfl
@[simp] theorem find_nil (k : Nat) : SMap.find ([] : SMap α) k = none := rfl

/-! ### The canonical form -/

/-- The canonical form as a pairwise order and a condition on each entry. -/
theorem wf_iff [DecidableEq α] (d : Nat → α) (m : SMap α) :
    SMap.wf d m = true ↔ List.Pairwise (fun a b : Nat × α => a.1 < b.1) m ∧ ∀ e ∈ m, e.2 ≠ d e.1 := by
  induction m with
  | nil => simp [SMap.wf]
  | cons e t ih =>
    obtain ⟨k, v⟩ := e
    cases t with
    | nil => simp [SMap.wf]
    | cons e' t' =>
      obtain ⟨k', v'⟩ := e'
      simp only [SMap.wf, Bool.and_eq_true, decide_eq_true_eq, ih]
      constructor
      · rintro ⟨⟨hv, hk⟩, hp, ha⟩
        refine ⟨List.pairwise_cons.mpr ⟨?_, hp⟩, ?_⟩
        · intro b hb
          rcases List.mem_cons.mp hb with rfl | hb
          · exact hk
          · exact Nat.lt_trans hk ((List.pairwise_cons.mp hp).1 b hb)
        · intro b hb
          rcases List.mem_cons.mp hb with rfl | hb
          · exact hv
          · exact ha b hb
      · rintro ⟨hp, ha⟩
        exact ⟨⟨ha (k, v) (by simp), (List.pairwise_cons.mp hp).1 (k', v') (by simp)⟩, (List.pairwise_cons.mp hp).2,
          fun b hb => ha b (List.mem_cons_of_mem _ hb)⟩

theorem mem_erase {m : SMap α} {k : Nat} {e : Nat × α} (h : e ∈ SMap.erase m k) : e ∈ m := by
  induction m with
  | nil => exact h
  | cons x t ih =>
    obtain ⟨k', v'⟩ := x
    by_cases hk : k' = k
    · simp only [SMap.erase, hk, if_true] at h
      exact List.mem_cons_of_mem _ (ih h)
    · simp only [SMap.erase, hk, if_false, List.mem_cons] at h
      rcases h with h | h
      · simp [h]
      · exact List.mem_cons_of_mem _ (ih h)

theorem mem_insert {m : SMap α} {k : Nat} {v : α} {e : Nat × α} (h : e ∈ SMap.insert m k v) : e = (k, v) ∨ e ∈ m := by
  induction m with
  | nil => simpa [SMap.insert] using h
  | cons x t ih =>
    obtain ⟨k', v'⟩ := x
    by_cases hlt : k < k'
    · simpa [SMap.insert, hlt] using h
    · by_cases hk : k' = k
      · simp only [SMap.insert, if_neg hlt, if_pos hk, List.mem_cons] at h
        rcases h with h | h
        · exact .inl h
        · exact .inr (List.mem_cons_of_mem _ h)
      · simp only [SMap.insert, hlt, hk, if_false, List.mem_cons] at h
        rcases h with h | h
        · exact .inr (by simp [h])
        · rcases ih h with h | h
          · exact .inl h
          · exact .inr (List.mem_cons_of_mem _ h)

theorem pairwise_erase {m : SMap α} (k : Nat) (h : List.Pairwise (fun a b : Nat × α => a.1 < b.1) m) :
    List.Pairwise (fun a b : Nat × α => a.1 < b.1) (SMap.erase m k) := by
  induction m with
  | nil => exact h
  | cons x t ih =>
    obtain ⟨k', v'⟩ := x
    have ht := List.pairwise_cons.mp h
    by_cases hk : k' = k
    · simpa [SMap.erase, hk] using ih ht.2
    · simp only [SMap.erase, hk, if_false]
      exact List.pairwise_cons.mpr ⟨fun b hb => ht.1 b (mem_erase hb), ih ht.2⟩

theorem pairwise_insert {m : SMap α} (k : Nat) (v : α) (h : List.Pairwise (fun a b : Nat × α => a.1 < b.1) m) :
    List.Pairwise (fun a b : Nat × α => a.1 < b.1) (SMap.insert m k v) := by
  induction m with
  | nil => simp [SMap.insert]
  | cons x t ih =>
    obtain ⟨k', v'⟩ := x
    have ht := List.pairwise_cons.mp h
    by_cases hlt : k < k'
    · simp only [SMap.insert, hlt, if_true]
      refine List.pairwise_cons.mpr ⟨fun b hb => ?_, h⟩
      rcases List.mem_cons.mp hb with rfl | hb
      · exact hlt
      · exact Nat.lt_trans hlt (ht.1 b hb)
    · by_cases hk : k' = k
      · subst hk
        simp only [SMap.insert, hlt, if_true, if_false]
        exact List.pairwise_cons.mpr ⟨fun b hb => ht.1 b hb, ht.2⟩
      · simp only [SMap.insert, hlt, hk, if_false]
        refine List.pairwise_cons.mpr ⟨fun b hb => ?_, ih ht.2⟩
        rcases mem_insert hb with rfl | hb
        · show k' < k
          omega
        · exact ht.1 b hb

/-- A write keeps the canonical form. -/
theorem wf_put [DecidableEq α] {d : Nat → α} {m : SMap α} (k : Nat) (v : α) (h : SMap.wf d m = true) :
    SMap.wf d (SMap.put m (d k) k v) = true := by
  rw [wf_iff] at h ⊢
  by_cases hv : v = d k
  · simp only [SMap.put, hv, if_true]
    exact ⟨pairwise_erase k h.1, fun e he => h.2 e (mem_erase he)⟩
  · simp only [SMap.put, hv, if_false]
    refine ⟨pairwise_insert k v h.1, fun e he => ?_⟩
    rcases mem_insert he with rfl | he
    · exact hv
    · exact h.2 e he

/-- Dropping entries by their key keeps the canonical form. -/
theorem wf_keep [DecidableEq α] {d : Nat → α} {m : SMap α} (p : Nat → Bool) (h : SMap.wf d m = true) :
    SMap.wf d (SMap.keep m p) = true := by
  rw [wf_iff] at h ⊢
  exact ⟨h.1.sublist List.filter_sublist, fun e he => h.2 e (List.mem_filter.mp he).1⟩

/-- What the entries that a predicate keeps read as. -/
theorem find_keep (m : SMap α) (p : Nat → Bool) (k : Nat) :
    SMap.find (SMap.keep m p) k = if p k then SMap.find m k else none := by
  induction m with
  | nil => simp [SMap.keep]
  | cons e t ih =>
    obtain ⟨k', v'⟩ := e
    simp only [SMap.keep] at ih
    by_cases hp : p k' = true
    · by_cases hk : k' = k
      · subst hk
        simp [SMap.keep, SMap.find, hp]
      · simp [SMap.keep, SMap.find, hp, hk, ih]
    · by_cases hk : k' = k
      · subst hk
        simp [SMap.keep, hp, ih]
      · simp [SMap.keep, SMap.find, hp, hk, ih]

end SMap

/-! ### Bit fields of a number -/

/-- A field reads what was put into it. -/
theorem bits_setBits_same (v lo w x : Nat) : bits (setBits v lo w x) lo w = x % 2 ^ w := by
  unfold bits setBits
  have h1 : v % 2 ^ lo < 2 ^ lo := Nat.mod_lt _ (by positivity)
  have e : v / 2 ^ (lo + w) * 2 ^ (lo + w) + x % 2 ^ w * 2 ^ lo + v % 2 ^ lo
      = v % 2 ^ lo + 2 ^ lo * (x % 2 ^ w + 2 ^ w * (v / 2 ^ (lo + w))) := by
    rw [pow_add]; ring
  rw [e, Nat.add_mul_div_left _ _ (by positivity), Nat.div_eq_of_lt h1, Nat.zero_add, Nat.add_mul_mod_self_left,
    Nat.mod_mod]

/-- A field below the one written keeps its value. -/
theorem bits_setBits_below (v lo w x lo' w' : Nat) (h : lo' + w' ≤ lo) : bits (setBits v lo w x) lo' w' = bits v lo' w' := by
  obtain ⟨k, rfl⟩ := Nat.exists_eq_add_of_le h
  unfold bits setBits
  have e : v / 2 ^ (lo' + w' + k + w) * 2 ^ (lo' + w' + k + w) + x % 2 ^ w * 2 ^ (lo' + w' + k) + v % 2 ^ (lo' + w' + k)
      = v % 2 ^ (lo' + w' + k) + 2 ^ (lo' + w' + k) * (x % 2 ^ w + 2 ^ w * (v / 2 ^ (lo' + w' + k + w))) := by
    rw [pow_add _ _ w]; ring
  rw [e]
  have key : ∀ c : Nat, (v % 2 ^ (lo' + w' + k) + 2 ^ (lo' + w' + k) * c) / 2 ^ lo' % 2 ^ w' = v / 2 ^ lo' % 2 ^ w' := by
    intro c
    have e2 : v % 2 ^ (lo' + w' + k) + 2 ^ (lo' + w' + k) * c ≡ v [MOD 2 ^ (lo' + w')] := by
      have : (2 : Nat) ^ (lo' + w' + k) = 2 ^ (lo' + w') * 2 ^ k := by rw [pow_add]
      have a : v % 2 ^ (lo' + w' + k) ≡ v [MOD 2 ^ (lo' + w')] := by
        have := Nat.mod_modEq v (2 ^ (lo' + w' + k))
        exact this.of_dvd (pow_dvd_pow 2 (by omega))
      have b : 2 ^ (lo' + w' + k) * c ≡ 0 [MOD 2 ^ (lo' + w')] := by
        rw [this, mul_assoc]
        exact (Nat.modEq_zero_iff_dvd).mpr (Dvd.intro _ rfl)
      simpa using a.add b
    have m : ∀ y : Nat, y / 2 ^ lo' % 2 ^ w' = y % 2 ^ (lo' + w') / 2 ^ lo' := by
      intro y
      rw [pow_add, Nat.mod_mul_right_div_self]
    rw [m, m, e2]
  exact key _

/-- A field above the one written keeps its value. -/
theorem bits_setBits_above (v lo w x lo' w' : Nat) (h : lo + w ≤ lo') : bits (setBits v lo w x) lo' w' = bits v lo' w' := by
  obtain ⟨k, rfl⟩ := Nat.exists_eq_add_of_le h
  unfold bits setBits
  have h1 : v % 2 ^ lo < 2 ^ lo := Nat.mod_lt _ (by positivity)
  have h2 : x % 2 ^ w < 2 ^ w := Nat.mod_lt _ (by positivity)
  have hlt : x % 2 ^ w * 2 ^ lo + v % 2 ^ lo < 2 ^ (lo + w) := by
    have : x % 2 ^ w * 2 ^ lo + v % 2 ^ lo < (x % 2 ^ w + 1) * 2 ^ lo := by
      rw [Nat.add_mul]; omega
    calc _ < (x % 2 ^ w + 1) * 2 ^ lo := this
      _ ≤ 2 ^ w * 2 ^ lo := Nat.mul_le_mul_right _ h2
      _ = 2 ^ (lo + w) := by rw [pow_add]; ring
  have e : v / 2 ^ (lo + w) * 2 ^ (lo + w) + x % 2 ^ w * 2 ^ lo + v % 2 ^ lo
      = (x % 2 ^ w * 2 ^ lo + v % 2 ^ lo) + 2 ^ (lo + w) * (v / 2 ^ (lo + w)) := by ring
  rw [e, pow_add 2 (lo + w) k, ← Nat.div_div_eq_div_mul, ← Nat.div_div_eq_div_mul,
    Nat.add_mul_div_left _ _ (by positivity), Nat.div_eq_of_lt hlt, Nat.zero_add]

theorem setBits_lt {v lo w x : Nat} (n : Nat) (hv : v < 2 ^ n) (h : lo + w ≤ n) : setBits v lo w x < 2 ^ n := by
  obtain ⟨k, rfl⟩ := Nat.exists_eq_add_of_le h
  unfold setBits
  have h1 : v % 2 ^ lo < 2 ^ lo := Nat.mod_lt _ (by positivity)
  have h2 : x % 2 ^ w < 2 ^ w := Nat.mod_lt _ (by positivity)
  have hlt : x % 2 ^ w * 2 ^ lo + v % 2 ^ lo < 2 ^ (lo + w) := by
    have : x % 2 ^ w * 2 ^ lo + v % 2 ^ lo < (x % 2 ^ w + 1) * 2 ^ lo := by
      rw [Nat.add_mul]; omega
    calc _ < (x % 2 ^ w + 1) * 2 ^ lo := this
      _ ≤ 2 ^ w * 2 ^ lo := Nat.mul_le_mul_right _ h2
      _ = 2 ^ (lo + w) := by rw [pow_add]; ring
  have h3 : v / 2 ^ (lo + w) < 2 ^ k := by
    rw [Nat.div_lt_iff_lt_mul (by positivity), ← pow_add, Nat.add_comm k]
    exact hv
  calc v / 2 ^ (lo + w) * 2 ^ (lo + w) + x % 2 ^ w * 2 ^ lo + v % 2 ^ lo
      < (v / 2 ^ (lo + w) + 1) * 2 ^ (lo + w) := by rw [Nat.add_mul]; omega
    _ ≤ 2 ^ k * 2 ^ (lo + w) := Nat.mul_le_mul_right _ h3
    _ = 2 ^ (lo + w + k) := by rw [← pow_add, Nat.add_comm k]

end Sys2Proof
end

