-- ==== Sys2Proof/Laws/Regs.lean ====
section
/-! SUPPORT. The laws of registers and fields: what a write of a word or a field changes and what it leaves, and of the
host memory. -/
namespace Sys2Proof

/-- The addresses of the words that hold a field. -/
def Fld.words (f : Fld) : List Nat := if f.lo + f.w ≤ 32 then [f.addr] else [f.addr, f.addr + 4]

/-- Two fields share no bit: they lie in different words, or apart in the same word. -/
def Fld.apart (f g : Fld) : Prop :=
  (∀ a ∈ f.words, a ∉ g.words) ∨
    (f.addr = g.addr ∧ f.lo + f.w ≤ 32 ∧ g.lo + g.w ≤ 32 ∧ (f.lo + f.w ≤ g.lo ∨ g.lo + g.w ≤ f.lo))

namespace Machine
variable (s : State)

/-! ### Words -/

@[simp] theorem rd_wr_same (a : Nat) (v : Word) : (s.wr a v).rd a = v := by
  simp [State.wr, State.rd]

theorem rd_wr_ne {a b : Nat} (v : Word) (h : b ≠ a) : (s.wr a v).rd b = s.rd b := by
  simp [State.wr, State.rd, SMap.get_put_ne _ _ _ _ h]

theorem rd_wr (a b : Nat) (v : Word) : (s.wr a v).rd b = if b = a then v else s.rd b := by
  by_cases h : b = a
  · subst h; simp
  · simp [h, rd_wr_ne]

theorem wr_rest (a : Nat) (v : Word) : { s.wr a v with regs := s.regs } = s := rfl

/-! ### Fields -/

/-- A word outside a field keeps its value when the field is set. -/
theorem rd_set_ne (f : Fld) (v : Nat) {a : Nat} (h : a ∉ f.words) : (s.set f v).rd a = s.rd a := by
  unfold Fld.words at h
  unfold State.set
  split at h
  · rename_i hf
    simp only [List.mem_singleton] at h
    simp [hf, rd_wr_ne, h]
  · rename_i hf
    simp only [List.mem_cons, List.not_mem_nil, or_false, not_or] at h
    simp [hf, rd_wr_ne, h.1, h.2]

theorem set_rest (f : Fld) (v : Nat) : { s.set f v with regs := s.regs } = s := by
  unfold State.set
  split <;> rfl

/-- A field that is set reads its value, cut to its width. -/
theorem get_set_same (f : Fld) (v : Nat) (hw : f.lo + f.w ≤ 64) : (s.set f v).get f = v % 2 ^ f.w := by
  unfold State.get State.set
  by_cases hf : f.lo + f.w ≤ 32
  · simp only [hf, if_true, rd_wr_same, BitVec.toNat_ofNat]
    rw [Nat.mod_eq_of_lt (setBits_lt 32 (s.rd f.addr).isLt hf), bits_setBits_same]
  · simp only [hf, if_false]
    rw [rd_wr_ne _ _ (by omega), rd_wr_same, rd_wr_same]
    simp only [BitVec.toNat_ofNat]
    have hlt : setBits ((s.rd f.addr).toNat + 2 ^ 32 * (s.rd (f.addr + 4)).toNat) f.lo f.w v < 2 ^ 64 := by
      apply setBits_lt 64 _ hw
      have h1 := (s.rd f.addr).isLt
      have h2 := (s.rd (f.addr + 4)).isLt
      omega
    rw [Nat.mod_eq_of_lt (a := setBits _ _ _ _ / 2 ^ 32) (by omega), Nat.mod_add_div, bits_setBits_same]

/-- A field keeps its value when another, apart from it, is set. -/
theorem get_set_apart (f g : Fld) (v : Nat) (h : g.apart f) : (s.set f v).get g = s.get g := by
  rcases h with h | ⟨ha, hg, hf, hb⟩
  · unfold State.get
    unfold Fld.words at h
    split
    · rename_i hg
      simp only [hg, if_true, List.mem_singleton, forall_eq] at h
      rw [rd_set_ne _ _ _ (by unfold Fld.words; exact h)]
    · rename_i hg
      simp only [hg, if_false, List.mem_cons, List.not_mem_nil, or_false, forall_eq_or_imp, forall_eq] at h
      rw [rd_set_ne _ _ _ (by unfold Fld.words; exact h.1), rd_set_ne _ _ _ (by unfold Fld.words; exact h.2)]
  · unfold State.get State.set
    simp only [hf, hg, if_true, ha, rd_wr_same, BitVec.toNat_ofNat]
    rw [Nat.mod_eq_of_lt (setBits_lt 32 (s.rd f.addr).isLt hf)]
    rcases hb with hb | hb
    · exact bits_setBits_below _ _ _ _ _ _ hb
    · exact bits_setBits_above _ _ _ _ _ _ hb

/-- A field that shares no word with a written one keeps its value. -/
theorem get_wr_ne (g : Fld) {a : Nat} (v : Word) (h : a ∉ g.words) : (s.wr a v).get g = s.get g := by
  unfold State.get
  unfold Fld.words at h
  split
  · rename_i hg
    simp only [hg, if_true, List.mem_singleton] at h
    rw [rd_wr_ne _ _ (Ne.symm h)]
  · rename_i hg
    simp only [hg, if_false, List.mem_cons, List.not_mem_nil, or_false, not_or] at h
    rw [rd_wr_ne _ _ (Ne.symm h.1), rd_wr_ne _ _ (Ne.symm h.2)]

/-- A field of the low 32 bits reads those bits of a word just written. -/
theorem get_wr_same (g : Fld) (v : Word) (h : g.lo + g.w ≤ 32) : (s.wr g.addr v).get g = bits v.toNat g.lo g.w := by
  simp [State.get, h]

/-- The value of a field depends on the words that hold it. -/
theorem get_congr {s t : State} (g : Fld) (h : ∀ a ∈ g.words, t.rd a = s.rd a) : t.get g = s.get g := by
  unfold State.get
  unfold Fld.words at h
  split
  · rename_i hg
    simp only [hg, if_true, List.mem_singleton, forall_eq] at h
    rw [h]
  · rename_i hg
    simp only [hg, if_false, List.mem_cons, List.not_mem_nil, or_false, forall_eq_or_imp, forall_eq] at h
    rw [h.1, h.2]

theorem put_eq_set (f : Fld) (b : Bool) : s.put f b = s.set f (if b then 1 else 0) := rfl
theorem inc_eq_set (f : Fld) : s.inc f = s.set f (min (s.get f + 1) (2 ^ f.w - 1)) := rfl

/-- A read of registers does not see the other parts of the state. -/
theorem rd_congr {s t : State} (h : t.regs = s.regs) (a : Nat) : t.rd a = s.rd a := by simp [State.rd, h]
theorem get_congr_regs {s t : State} (h : t.regs = s.regs) (g : Fld) : t.get g = s.get g := by
  simp [State.get, State.rd, h]

/-! ### Host memory -/

/-- An octet outside what is written keeps its value. -/
theorem hostByte_hostStore_ne (l : List Byte) : ∀ (s : State) (a : Nat) (b : Nat),
    (∀ i < l.length, b ≠ (a + i) % 2 ^ 64) → (s.hostStore a l).hostByte b = s.hostByte b := by
  induction l with
  | nil => intro s a b _; rfl
  | cons x t ih =>
    intro s a b h
    simp only [State.hostStore]
    rw [ih]
    · simp only [State.hostByte]
      exact SMap.get_put_ne _ _ _ _ (by simpa using h 0 (by simp))
    · intro i hi
      have := h (i + 1) (by simpa using hi)
      rwa [show a + 1 + i = a + (i + 1) by omega]

theorem hostByte_hostPut_ne (l : List Byte) (s : State) (a : Nat) (b : Nat)
    (h : ∀ i < l.length, b ≠ (a + i) % 2 ^ 64) : (s.hostPut a l).hostByte b = s.hostByte b := by
  unfold State.hostPut
  split
  · exact hostByte_hostStore_ne l s a b h
  · rfl

theorem hostStore_rest (l : List Byte) : ∀ (s : State) (a : Nat), { s.hostStore a l with hostMem := s.hostMem } = s := by
  induction l with
  | nil => intro s a; rfl
  | cons x t ih =>
    intro s a
    simp only [State.hostStore]
    have := ih { s with hostMem := SMap.put s.hostMem 0 (a % 2 ^ 64) x } (a + 1)
    generalize State.hostStore _ _ _ = u at this ⊢
    cases u
    simp only [State.mk.injEq] at this ⊢
    cases s
    simp_all

/-- A write of host memory touches nothing else. -/
theorem hostPut_rest (l : List Byte) (s : State) (a : Nat) : { s.hostPut a l with hostMem := s.hostMem } = s := by
  unfold State.hostPut
  split
  · exact hostStore_rest l s a
  · rfl

@[simp] theorem hostPut_regs (l : List Byte) (s : State) (a : Nat) : (s.hostPut a l).regs = s.regs :=
  (congrArg State.regs (hostPut_rest l s a) :)

end Machine
end Sys2Proof
end

