-- ==== Sys2Proof/Laws/Access.lean ====
section
/-! SUPPORT. What an accepted register write does, said once: the word takes its value and the register's own effect follows. -/
namespace Sys2Proof.Machine
variable (s : State)

/-- A local address is its own fabric address. -/
theorem here_toNat {a : Nat} (h : a < 2 ^ 26) : (here a).toNat = a := by
  simp only [here, BitVec.toNat_ofNat]; omega

/-- A local address is one of this device (R7, R8). -/
theorem addrKind_here {a : Nat} (h : a < 2 ^ 26) : s.addrKind (here a).toNat = .here := by
  rw [here_toNat h]
  have h1 : a / 2147483648 = 0 := by omega
  have h2 : a / 67108864 = 0 := by omega
  simp [State.addrKind, bit, bits, h1, h2]

theorem busDrain_of_busFree (h : s.busFree) : s.busDrain = s := by
  simp [State.busDrain, State.busQueue, h.2.1, h.2.2]

theorem busPut_of_busFree (h : s.busFree) (who : Initiator) (a : Nat) (v : Word) :
    s.busPut who a v = s.localWrite who a v := by
  simp [State.busPut, busDrain_of_busFree s h, h.1]

/-- On a free bus a write of this device acts at once. -/
theorem write_of_busFree (h : s.busFree) {who : Initiator} (hw : who ≠ .cfg) (ht : s.hostTurned who = false) {a : Nat} (ha : a < 2 ^ 26) (v : Word) :
    s.write who a v = s.localWrite who a v := by
  have e : (here a).toNat % 2 ^ 26 = a := by rw [here_toNat ha]; omega
  simp only [State.write, State.regWrite, addrKind_here s ha, busPut_of_busFree s h, e, hw, ht, Bool.false_eq_true, if_false]

theorem stored_of_faults_nil (who : Initiator) (d : RegDef) (i j w old v : Nat) (hv : v < 2 ^ 32)
    (h : (s.takeWrite who d i j w old v).faults = []) :
    s.takeWrite who d i j w old v = ⟨storedValue d w old v, v, []⟩ := by
  have hv' : v &&& whole = v := by
    have : whole = 2 ^ 32 - 1 := rfl
    rw [this, Nat.and_two_pow_sub_one_eq_mod, Nat.mod_eq_of_lt hv]
  simp only [State.takeWrite] at h ⊢
  rw [h]
  have hg := (List.append_eq_nil_iff.mp h).1
  simp [faultMask, hv', storedValue]

/-- An accepted write: the word takes `storedValue`, then the register acts, and FAULT_N follows. -/
theorem write_takes {who : Initiator} {a : Nat} (v : Word) {d : RegDef} {is : List Nat} {w : Nat}
    (hr : regAt a = some (d, is, w)) (ha : a < 2 ^ 26) (h4 : a / 4 * 4 = a) (h : s.takesWrite who a v) :
    s.write who a v = s.holdFaultN ((s.wr a (BitVec.ofNat 32 (storedValue d w (s.rd a).toNat v.toNat))).regHook d.reg
      (is.headD 0) w (s.rd a).toNat v.toNat ⟨storedValue d w (s.rd a).toNat v.toNat, v.toNat, []⟩) := by
  obtain ⟨hw, ht, hb, hm, hh⟩ := h
  simp only [State.writeMeets, hr, Bool.and_eq_true, List.isEmpty_iff] at hh
  obtain ⟨⟨hu, hp⟩, hf⟩ := hh
  rw [h4] at hf
  rw [write_of_busFree s hb hw ht ha]
  simp only [State.localWrite, hm, hr, hu, hp, h4, State.regPut, Bool.not_true, Bool.false_eq_true, if_false]
  rw [stored_of_faults_nil s who d _ _ w _ _ v.isLt hf]
  simp [worstCause, causeOrder]

end Sys2Proof.Machine
end

