-- ==== Sys2Proof/Laws/Keeps.lean ====
section
/-! SUPPORT. What every operation keeps: the queue of waiting commands, and the canonical form of the registers and of the host
memory. One lemma for each operation that answers a state; the provers cite them instead of unfolding it. -/
namespace Sys2Proof.Machine
set_option Elab.async false

/-- `t` has the queue of `s`, and is canonical wherever `s` is. -/
structure Keeps (s t : State) : Prop where
  pending : t.pending = s.pending
  regs : SMap.wf resetWord s.regs = true → SMap.wf resetWord t.regs = true
  host : SMap.wf (fun _ => (0 : Byte)) s.hostMem = true → SMap.wf (fun _ => (0 : Byte)) t.hostMem = true

/-- The next state of an outcome keeps what `s` has. -/
def Keeps.out (s : State) : Host.Outcome State Fault Refusal → Prop
  | .next t => Keeps s t
  | _ => True

/-- The same of an outcome that may be absent. -/
def Keeps.outOpt (s : State) : Option (Host.Outcome State Fault Refusal) → Prop
  | some o => Keeps.out s o
  | none => True

/-- The state that the body of a command leaves keeps what `s` has. -/
def Keeps.cmd (s : State) : CmdOut → Prop
  | .done t _ _ => Keeps s t
  | .long t _ => Keeps s t
  | .refuse _ _ => True

/-- The same of a command's body that may be absent. -/
def Keeps.cmdOpt (s : State) : Option CmdOut → Prop
  | some o => Keeps.cmd s o
  | none => True

/-- The state that the checks of a dequeued copy leave keeps what `s` has. -/
def Keeps.fate (s : State) : Fate → Prop
  | .gone t => Keeps s t
  | .start t _ => Keeps s t

theorem Keeps.refl (s : State) : Keeps s s := ⟨rfl, id, id⟩

theorem Keeps.trans {s t u : State} (h : Keeps s t) (g : Keeps t u) : Keeps s u :=
  ⟨g.pending.trans h.pending, g.regs ∘ h.regs, g.host ∘ h.host⟩

theorem Keeps.of_same {s t u : State} (h : Keeps s t) (hp : u.pending = t.pending) (hr : u.regs = t.regs)
    (hm : u.hostMem = t.hostMem) : Keeps s u :=
  ⟨hp.trans h.pending, fun w => hr ▸ h.regs w, fun w => hm ▸ h.host w⟩

/-- An update of other fields than these three keeps them. -/
theorem Keeps.fields {s t : State} {pending regs hostMem} {readData latch refTicks freeCtr pins hif cox pwr rst prt mdioQueue mdioBus mdioOut tim fab ump dram edge hfp key upd jtag}
    (h : Keeps s t) (hp : pending = t.pending) (hr : regs = t.regs) (hm : hostMem = t.hostMem) :
    Keeps s (State.mk pending regs readData latch hostMem refTicks freeCtr pins hif cox pwr rst prt mdioQueue mdioBus mdioOut tim fab ump dram edge hfp key upd jtag) :=
  h.of_same hp hr hm

/-- Dropping registers keeps their canonical form. -/
theorem Keeps.dropped {s t : State} {pending hostMem} (p : Nat → Bool)
    {readData latch refTicks freeCtr pins hif cox pwr rst prt mdioQueue mdioBus mdioOut tim fab ump dram edge hfp key upd jtag}
    (h : Keeps s t) (hp : pending = t.pending) (hm : hostMem = t.hostMem) :
    Keeps s (State.mk pending (SMap.keep t.regs p) readData latch hostMem refTicks freeCtr pins hif cox pwr rst prt mdioQueue mdioBus mdioOut tim fab ump dram edge hfp key upd jtag) :=
  ⟨hp.trans h.pending, fun w => SMap.wf_keep p (h.regs w), fun w => hm ▸ h.host w⟩

theorem Keeps.fst {s : State} {α : Type} {p : State × α} {t : State} {b : α} (e : p = (t, b)) (g : Keeps s p.1) : Keeps s t := by
  subst e; exact g

theorem Keeps.snd {s : State} {α : Type} {p : α × State} {t : State} {b : α} (e : p = (b, t)) (g : Keeps s p.2) : Keeps s t := by
  subst e; exact g

theorem Keeps.of_gone {s t : State} {f : Fate} (e : f = .gone t) (g : Keeps.fate s f) : Keeps s t := by subst e; exact g

theorem Keeps.of_start {s t : State} {f : Fate} {o} (e : f = .start t o) (g : Keeps.fate s f) : Keeps s t := by subst e; exact g

theorem Keeps.of_next {s t : State} {o : Host.Outcome State Fault Refusal} (e : o = .next t) (g : Keeps.out s o) : Keeps s t := by
  subst e; exact g

theorem Keeps.of_done {s t : State} {c : CmdOut} {a b} (e : c = .done t a b) (g : Keeps.cmd s c) : Keeps s t := by subst e; exact g

theorem Keeps.of_long {s t : State} {c : CmdOut} {k} (e : c = .long t k) (g : Keeps.cmd s c) : Keeps s t := by subst e; exact g

theorem Keeps.of_someOut {s : State} {o : Option (Host.Outcome State Fault Refusal)} {x} (e : o = some x) (g : Keeps.outOpt s o) : Keeps.out s x := by
  subst e; exact g

theorem Keeps.of_someCmd {s : State} {o : Option CmdOut} {x} (e : o = some x) (g : Keeps.cmdOpt s o) : Keeps.cmd s x := by subst e; exact g

theorem Keeps.getD {s : State} {o : Option State} {d : State} (h : ∀ u, o = some u → Keeps s u) (g : Keeps s d) : Keeps s (o.getD d) := by
  cases o with
  | none => exact g
  | some u => exact h u rfl

theorem Keeps.some_eq {s t u : State} (h : Keeps s t) : some t = some u → Keeps s u := by
  intro e; cases e; exact h

theorem Keeps.none_eq {s u : State} : (none : Option State) = some u → Keeps s u := nofun

theorem Keeps.foldl {s t : State} {α : Type} {f : State → α → State} {l : List α} (h : Keeps s t)
    (hf : ∀ u x, Keeps s u → Keeps s (f u x)) : Keeps s (l.foldl f t) := by
  induction l generalizing t with
  | nil => exact h
  | cons a l ih => exact ih (hf _ _ h)

theorem Keeps.foldl_fst {s : State} {α β : Type} {f : State × β → α → State × β} {l : List α} {p : State × β} (h : Keeps s p.1)
    (hf : ∀ u b x, Keeps s u → Keeps s (f (u, b) x).1) : Keeps s (l.foldl f p).1 := by
  induction l generalizing p with
  | nil => exact h
  | cons a l ih => exact ih (hf p.1 p.2 a h)

theorem Keeps.foldl_snd {s : State} {α β : Type} {f : β × State → α → β × State} {l : List α} {p : β × State} (h : Keeps s p.2)
    (hf : ∀ u b x, Keeps s u → Keeps s (f (b, u) x).2) : Keeps s (l.foldl f p).2 := by
  induction l generalizing p with
  | nil => exact h
  | cons a l ih => exact ih (hf p.2 p.1 a h)

theorem keeps_each {s t : State} {α : Type} {l : List α} {f : State → α → State} (h : Keeps s t)
    (hf : ∀ u x, Keeps s u → Keeps s (f u x)) : Keeps s (t.each l f) := Keeps.foldl h hf

theorem keeps_wr {s t : State} (h : Keeps s t) (a v) : Keeps s (t.wr a v) :=
  ⟨h.pending, fun w => SMap.wf_put a v (h.regs w), h.host⟩

theorem keeps_hostStore {s t : State} (h : Keeps s t) (a l) : Keeps s (t.hostStore a l) := by
  induction l generalizing t a with
  | nil => exact h
  | cons b l ih =>
    refine ih (t := { t with hostMem := SMap.put t.hostMem 0 (a % 2 ^ 64) b }) ⟨h.pending, h.regs, fun w => ?_⟩ (a + 1)
    exact SMap.wf_put (a % 2 ^ 64) b (h.host w)

theorem keeps_hostPut {s t : State} (h : Keeps s t) (a l) : Keeps s (t.hostPut a l) := by
  unfold State.hostPut
  split
  · exact keeps_hostStore h a l
  · exact h

theorem keeps_holdFaultN {s t : State} (h : Keeps s t) (x1) : Keeps s (State.holdFaultN x1 t) := by
  unfold State.holdFaultN
  split
  · exact h.of_same rfl rfl rfl
  · exact h

theorem Keeps.or {s : State} {a b : Option (Host.Outcome State Fault Refusal)} (ha : Keeps.outOpt s a) (hb : Keeps.outOpt s b) :
    Keeps.outOpt s (a.or b) := by
  cases a with
  | none => exact hb
  | some o => exact ha

theorem Keeps.elim {s d : State} {α : Type} {o : Option α} {f : α → State} (h : Keeps s d) (hf : ∀ x, Keeps s (f x)) :
    Keeps s (o.elim d f) := by
  cases o with
  | none => exact h
  | some x => exact hf x
theorem keeps_hostWr {s t : State} (h : Keeps s t) (x1 x2 x3) :
    Keeps s (State.hostWr t x1 x2 x3) := by
  unfold State.hostWr
  try dsimp only
  repeat' (first
    | with_reducible assumption
    | with_reducible apply keeps_hostPut)

theorem keeps_writeBack {s t : State} (h : Keeps s t) (x1 x2) :
    Keeps s (State.writeBack t x1 x2) := by
  unfold State.writeBack
  try dsimp only
  repeat' (first
    | with_reducible assumption
    | with_reducible apply keeps_hostWr
    | split
    | with_reducible refine Keeps.fields ?_ rfl rfl rfl)

theorem keeps_set {s t : State} (h : Keeps s t) (x1 x2) :
    Keeps s (State.set t x1 x2) := by
  unfold State.set
  try dsimp only
  repeat' (first
    | with_reducible assumption
    | with_reducible apply keeps_wr
    | split)

theorem keeps_add {s t : State} (h : Keeps s t) (x1 x2) :
    Keeps s (State.add t x1 x2) := by
  unfold State.add
  try dsimp only
  repeat' (first
    | with_reducible assumption
    | with_reducible apply keeps_set)

theorem keeps_inc {s t : State} (h : Keeps s t) (x1) :
    Keeps s (State.inc t x1) := by
  unfold State.inc
  try dsimp only
  repeat' (first
    | with_reducible assumption
    | with_reducible apply keeps_add)

theorem keeps_put {s t : State} (h : Keeps s t) (x1 x2) :
    Keeps s (State.put t x1 x2) := by
  unfold State.put
  try dsimp only
  repeat' (first
    | with_reducible assumption
    | with_reducible apply keeps_set)

theorem keeps_accessErr {s t : State} (h : Keeps s t) (x1 x2 x3 x4) :
    Keeps s (State.accessErr t x1 x2 x3 x4) := by
  unfold State.accessErr
  try dsimp only
  repeat' (first
    | with_reducible assumption
    | with_reducible apply keeps_inc
    | with_reducible apply keeps_set
    | with_reducible apply keeps_put
    | split)

theorem keeps_access {s t : State} (h : Keeps s t) (x1 x2 x3) :
    Keeps s (State.access t x1 x2 x3).1 := by
  unfold State.access
  try dsimp only
  repeat' (first
    | with_reducible assumption
    | with_reducible apply keeps_accessErr
    | split)

theorem keeps_sendVector {s t : State} (h : Keeps s t) (x1) :
    Keeps s (State.sendVector t x1) := by
  unfold State.sendVector
  try dsimp only
  repeat' (first
    | with_reducible assumption
    | with_reducible apply keeps_hostWr
    | split
    | with_reducible refine Keeps.fields ?_ rfl rfl rfl)

theorem keeps_raiseSource {s t : State} (h : Keeps s t) (x1 x2 x3 x4) :
    Keeps s (State.raiseSource t x1 x2 x3 x4) := by
  unfold State.raiseSource
  try dsimp only
  repeat' (first
    | with_reducible assumption
    | with_reducible apply keeps_sendVector
    | split
    | with_reducible refine Keeps.fields ?_ rfl rfl rfl)

theorem keeps_writeRing {s t : State} (h : Keeps s t) (x1) :
    Keeps s (State.writeRing t x1) := by
  unfold State.writeRing
  try dsimp only
  repeat' (first
    | with_reducible assumption
    | with_reducible apply keeps_hostWr
    | with_reducible apply keeps_raiseSource
    | with_reducible refine Keeps.fields ?_ rfl rfl rfl)

theorem keeps_loseRecord {s t : State} (h : Keeps s t) :
    Keeps s (State.loseRecord t) := by
  unfold State.loseRecord
  try dsimp only
  repeat' (first
    | with_reducible assumption
    | with_reducible apply keeps_inc
    | with_reducible refine Keeps.fields ?_ rfl rfl rfl)

theorem keeps_toRing {s t : State} (h : Keeps s t) (x1) :
    Keeps s (State.toRing t x1) := by
  unfold State.toRing
  try dsimp only
  repeat' (first
    | with_reducible assumption
    | with_reducible apply keeps_writeRing
    | with_reducible apply keeps_loseRecord
    | split)

theorem keeps_toRevq {s t : State} (h : Keeps s t) (x1) :
    Keeps s (State.toRevq t x1).1 := by
  unfold State.toRevq
  try dsimp only
  repeat' (first
    | with_reducible assumption
    | with_reducible apply keeps_inc
    | with_reducible apply keeps_each
    | with_reducible apply keeps_wr
    | with_reducible apply keeps_set
    | (intro)
    | split)

theorem keeps_deliver {s t : State} (h : Keeps s t) (x1) :
    Keeps s (State.deliver t x1).1 := by
  unfold State.deliver
  try dsimp only
  repeat' (first
    | with_reducible assumption
    | with_reducible apply keeps_toRing
    | with_reducible apply keeps_toRevq
    | split
    | with_reducible refine Keeps.fields ?_ rfl rfl rfl)

theorem keeps_emit {s t : State} (h : Keeps s t) (x1 x2 x3) :
    Keeps s (State.emit t x1 x2 x3) := by
  unfold State.emit
  try dsimp only
  repeat' (first
    | with_reducible assumption
    | with_reducible apply keeps_deliver
    | split)

theorem keeps_wornHit {s t : State} (h : Keeps s t) (x1) :
    Keeps s (State.wornHit t x1) := by
  unfold State.wornHit
  try dsimp only
  repeat' (first
    | with_reducible assumption
    | with_reducible apply keeps_emit
    | with_reducible apply keeps_set)

theorem keeps_busWaits {s t : State} (h : Keeps s t) (x1) :
    Keeps s (State.busWaits t x1) := by
  unfold State.busWaits
  try dsimp only
  repeat' (first
    | with_reducible assumption
    | with_reducible refine Keeps.fields ?_ rfl rfl rfl)

theorem keeps_pciSet {s t : State} (h : Keeps s t) (x1) :
    Keeps s (State.pciSet t x1) := by
  unfold State.pciSet
  try dsimp only
  repeat' (first
    | with_reducible assumption
    | with_reducible refine Keeps.fields ?_ rfl rfl rfl)

theorem keeps_incWrap {s t : State} (h : Keeps s t) (x1) :
    Keeps s (State.incWrap t x1) := by
  unfold State.incWrap
  try dsimp only
  repeat' (first
    | with_reducible assumption
    | with_reducible apply keeps_set)

theorem keeps_internalIn {s t : State} (h : Keeps s t) (x1 x2 x3 x4) :
    Keeps s (State.internalIn t x1 x2 x3 x4) := by
  unfold State.internalIn
  try dsimp only
  repeat' (first
    | with_reducible assumption
    | split
    | with_reducible refine Keeps.fields ?_ rfl rfl rfl)

theorem keeps_sendHfpOn {s t : State} (h : Keeps s t) (x1 x2) :
    Keeps s (State.sendHfpOn t x1 x2) := by
  unfold State.sendHfpOn
  try dsimp only
  repeat' (first
    | with_reducible assumption
    | with_reducible apply keeps_inc
    | with_reducible apply keeps_internalIn
    | split
    | with_reducible refine Keeps.fields ?_ rfl rfl rfl)

theorem keeps_sendHfp {s t : State} (h : Keeps s t) (x1) :
    Keeps s (State.sendHfp t x1) := by
  unfold State.sendHfp
  try dsimp only
  repeat' (first
    | with_reducible assumption
    | with_reducible apply keeps_sendHfpOn
    | with_reducible apply keeps_inc
    | split)

theorem keeps_sendCpl {s t : State} (h : Keeps s t) (x1 x2 x3 x4 x5) :
    Keeps s (State.sendCpl t x1 x2 x3 x4 x5) := by
  unfold State.sendCpl
  try dsimp only
  repeat' (first
    | with_reducible assumption
    | with_reducible apply keeps_sendHfp)

theorem keeps_complete {s t : State} (h : Keeps s t) (x1 x2 x3 x4 x5) :
    Keeps s (State.complete t x1 x2 x3 x4 x5) := by
  unfold State.complete
  try dsimp only
  repeat' (first
    | with_reducible assumption
    | with_reducible apply keeps_writeBack
    | with_reducible apply keeps_sendCpl
    | with_reducible apply keeps_emit
    | split)

theorem keeps_stopIdle {s t : State} (h : Keeps s t) :
    Keeps s (State.stopIdle t) := by
  unfold State.stopIdle
  try dsimp only
  repeat' (first
    | with_reducible assumption
    | with_reducible refine Keeps.fields ?_ rfl rfl rfl)

theorem keeps_stateRefused {s t : State} (h : Keeps s t) (x1 x2 x3 x4) :
    Keeps s (State.stateRefused t x1 x2 x3 x4) := by
  unfold State.stateRefused
  try dsimp only
  repeat' (first
    | with_reducible assumption
    | with_reducible apply keeps_emit)

theorem keeps_showRunning {s t : State} (h : Keeps s t) (x1 x2) :
    Keeps s (State.showRunning t x1 x2) := by
  unfold State.showRunning
  try dsimp only
  repeat' (first
    | with_reducible assumption
    | with_reducible apply keeps_set
    | with_reducible apply keeps_put)

theorem keeps_runCmd {s t : State} (h : Keeps s t) (x1 x2 x3 x4 x5) {f : State → CmdOut} (hf : ∀ u, Keeps s u → Keeps.cmd s (f u)) :
    Keeps s (State.runCmd t x1 x2 x3 x4 x5 f) := by
  have h0 := keeps_stopIdle h
  have hb := hf _ h0
  unfold State.runCmd
  dsimp only
  repeat' (first
    | with_reducible assumption
    | (with_reducible apply keeps_complete)
    | (with_reducible apply keeps_stateRefused)
    | (with_reducible apply keeps_showRunning)
    | (with_reducible apply keeps_stopIdle)
    | (with_reducible refine Keeps.of_done (by assumption) ?_)
    | (with_reducible refine Keeps.of_long (by assumption) ?_)
    | split
    | (with_reducible refine Keeps.fields ?_ rfl rfl rfl))

theorem keeps_showBusy {s t : State} (h : Keeps s t) :
    Keeps s (State.showBusy t) := by
  unfold State.showBusy
  try dsimp only
  repeat' (first
    | with_reducible assumption
    | with_reducible apply keeps_put)

theorem keeps_free {s t : State} (h : Keeps s t) (x1) :
    Keeps s (State.free t x1).2 := by
  unfold State.free
  try dsimp only
  repeat' (first
    | with_reducible assumption
    | with_reducible refine Keeps.fields ?_ rfl rfl rfl)

theorem keeps_wornRefused {s t : State} (h : Keeps s t) (x1) :
    Keeps s (State.wornRefused t x1) := by
  unfold State.wornRefused
  try dsimp only
  repeat' (first
    | with_reducible assumption
    | with_reducible apply keeps_emit
    | with_reducible apply keeps_set
    | with_reducible apply keeps_free
    | split)

theorem keeps_countWear {s t : State} (h : Keeps s t) (x1) :
    Keeps s (State.countWear t x1) := by
  unfold State.countWear
  try dsimp only
  repeat' (first
    | with_reducible assumption
    | with_reducible apply keeps_add
    | split
    | with_reducible refine Keeps.fields ?_ rfl rfl rfl)

theorem keeps_startPw {s t : State} (h : Keeps s t) (x1) : Keeps s (State.startPw t x1) := by
  induction x1 generalizing t with
  | nil => exact keeps_showBusy (h.of_same rfl rfl rfl)
  | cons w l ih =>
    unfold State.startPw
    split
    · exact ih h
    · split
      · exact ih (keeps_wornRefused h _)
      · exact keeps_showBusy (keeps_countWear (t := { t with rst := { t.rst with pw := w :: l } }) (h.of_same rfl rfl rfl) _)

theorem keeps_updStored {s t : State} (h : Keeps s t) (x1) :
    Keeps s (State.updStored t x1) := by
  unfold State.updStored
  try dsimp only
  repeat' (first
    | with_reducible assumption
    | with_reducible apply keeps_wr
    | with_reducible apply keeps_emit
    | split)

theorem keeps_slotStored {s t : State} (h : Keeps s t) (x1 x2) :
    Keeps s (State.slotStored t x1 x2) := by
  unfold State.slotStored
  try dsimp only
  repeat' (first
    | with_reducible assumption
    | split
    | with_reducible refine Keeps.fields ?_ rfl rfl rfl)

theorem keeps_pwStore {s t : State} (h : Keeps s t) (x1 x2) :
    Keeps s (State.pwStore t x1 x2) := by
  unfold State.pwStore
  try dsimp only
  repeat' (first
    | with_reducible assumption
    | with_reducible apply keeps_set
    | with_reducible apply keeps_updStored
    | with_reducible apply keeps_slotStored
    | split
    | with_reducible refine Keeps.fields ?_ rfl rfl rfl)

theorem keeps_clearWord {s t : State} (h : Keeps s t) (x1) :
    Keeps s (State.clearWord t x1) := by
  unfold State.clearWord
  try dsimp only
  repeat' (first
    | with_reducible assumption
    | with_reducible apply keeps_wr)

theorem keeps_unsupported {s t : State} (h : Keeps s t) (x1) :
    Keeps s (State.unsupported t x1) := by
  unfold State.unsupported
  try dsimp only
  repeat' (first
    | with_reducible assumption
    | with_reducible apply keeps_pciSet
    | split
    | with_reducible refine Keeps.fields ?_ rfl rfl rfl)

theorem keeps_refuseRunning {s t : State} (h : Keeps s t) (x1 x2) :
    Keeps s (State.refuseRunning t x1 x2) := by
  unfold State.refuseRunning
  try dsimp only
  repeat' (first
    | with_reducible assumption
    | with_reducible apply keeps_showRunning
    | with_reducible apply keeps_complete
    | with_reducible apply keeps_stateRefused
    | split
    | with_reducible refine Keeps.fields ?_ rfl rfl rfl)

theorem keeps_pwDone {s t : State} (h : Keeps s t) :
    Keeps s (State.pwDone t) := by
  unfold State.pwDone
  try dsimp only
  repeat' (first
    | with_reducible assumption
    | with_reducible apply keeps_startPw
    | with_reducible apply keeps_pwStore
    | split)

theorem keeps_pwFlush {s t : State} (h : Keeps s t) :
    Keeps s (State.pwFlush t) := by
  unfold State.pwFlush
  try dsimp only
  repeat' (first
    | with_reducible assumption
    | with_reducible apply keeps_each
    | with_reducible apply keeps_pwDone
    | (intro))

theorem keeps_pwRequest {s t : State} (h : Keeps s t) (x1) :
    Keeps s (State.pwRequest t x1) := by
  unfold State.pwRequest
  try dsimp only
  repeat' (first
    | with_reducible assumption
    | with_reducible apply keeps_startPw
    | with_reducible apply keeps_showBusy
    | split
    | with_reducible refine Keeps.fields ?_ rfl rfl rfl)

theorem keeps_finishRunning {s t : State} (h : Keeps s t) (x1 x2) :
    Keeps s (State.finishRunning t x1 x2) := by
  unfold State.finishRunning
  try dsimp only
  repeat' (first
    | with_reducible assumption
    | with_reducible apply keeps_complete
    | with_reducible apply keeps_showRunning
    | split
    | with_reducible refine Keeps.fields ?_ rfl rfl rfl)

theorem keeps_emitHeld {s t : State} (h : Keeps s t) (x1 x2) :
    Keeps s (State.emitHeld t x1 x2) := by
  unfold State.emitHeld
  try dsimp only
  repeat' (first
    | with_reducible assumption
    | with_reducible refine Keeps.fields ?_ rfl rfl rfl)

theorem keeps_injMark {s t : State} (h : Keeps s t) (x1) :
    Keeps s (State.injMark t x1) := by
  unfold State.injMark
  try dsimp only
  repeat' (first
    | with_reducible assumption
    | with_reducible apply keeps_set)

theorem keeps_captureFault {s t : State} (h : Keeps s t) (x1) :
    Keeps s (State.captureFault t x1) := by
  unfold State.captureFault
  try dsimp only
  repeat' (first
    | with_reducible assumption
    | with_reducible apply keeps_set
    | split)

theorem keeps_injSpend {s t : State} (h : Keeps s t) (x1) :
    Keeps s (State.injSpend t x1) := by
  unfold State.injSpend
  try dsimp only
  repeat' (first
    | with_reducible assumption
    | with_reducible apply keeps_set)

theorem keeps_setFaultBit {s t : State} (h : Keeps s t) (x1) :
    Keeps s (State.setFaultBit t x1) := by
  unfold State.setFaultBit
  try dsimp only
  repeat' (first
    | with_reducible assumption
    | with_reducible apply keeps_holdFaultN
    | with_reducible apply keeps_set)

theorem keeps_showGate {s t : State} (h : Keeps s t) (x1 x2 x3 x4 x5) :
    Keeps s (State.showGate t x1 x2 x3 x4 x5) := by
  unfold State.showGate
  try dsimp only
  repeat' (first
    | with_reducible assumption
    | with_reducible apply keeps_set
    | with_reducible apply keeps_put)

theorem keeps_gateRecompute {s t : State} (h : Keeps s t) (x1) :
    Keeps s (State.gateRecompute t x1) := by
  unfold State.gateRecompute
  try dsimp only
  repeat' (first
    | with_reducible assumption
    | with_reducible apply keeps_showGate
    | split
    | with_reducible refine Keeps.fields ?_ rfl rfl rfl)

theorem keeps_gatesFollow {s t : State} (h : Keeps s t) (x1) :
    Keeps s (State.gatesFollow t x1) := by
  unfold State.gatesFollow
  try dsimp only
  repeat' (first
    | with_reducible assumption
    | with_reducible apply keeps_each
    | with_reducible apply keeps_gateRecompute
    | (intro))

theorem keeps_showStaged {s t : State} (h : Keeps s t) (x1) :
    Keeps s (State.showStaged t x1) := by
  unfold State.showStaged
  try dsimp only
  repeat' (first
    | with_reducible assumption
    | with_reducible apply keeps_set)

theorem keeps_dramRaw {s t : State} (h : Keeps s t) (x1 x2) : Keeps s (State.dramRaw t x1 x2) := by
  induction x2 generalizing t x1 with
  | nil => exact h
  | cons b l ih => exact ih (t := { t with dram := { t.dram with bytes := SMap.put t.dram.bytes (Config.dramPowerUp t.dram.epoch x1) x1 b } }) (h.of_same rfl rfl rfl) (x1 + 1)

theorem keeps_dramTaken {s t : State} (h : Keeps s t) (x1 x2) :
    Keeps s (State.dramTaken t x1 x2) := by
  unfold State.dramTaken
  try dsimp only
  repeat' (first
    | with_reducible assumption
    | with_reducible apply keeps_injSpend
    | split
    | with_reducible refine Keeps.fields ?_ rfl rfl rfl)

theorem keeps_dramPut {s t : State} (h : Keeps s t) (x1 x2) :
    Keeps s (State.dramPut t x1 x2) := by
  unfold State.dramPut
  try dsimp only
  repeat' (first
    | with_reducible assumption
    | with_reducible apply keeps_dramRaw
    | with_reducible apply keeps_dramTaken
    | split)

theorem keeps_writePage {s t : State} (h : Keeps s t) (x1 x2) :
    Keeps s (State.writePage t x1 x2) := by
  unfold State.writePage
  try dsimp only
  repeat' (first
    | with_reducible assumption
    | with_reducible apply keeps_dramPut
    | with_reducible apply keeps_set
    | split
    | with_reducible refine Keeps.fields ?_ rfl rfl rfl)

theorem keeps_recFreeze {s t : State} (h : Keeps s t) :
    Keeps s (State.recFreeze t) := by
  unfold State.recFreeze
  try dsimp only
  repeat' (first
    | with_reducible assumption
    | with_reducible apply keeps_set
    | with_reducible apply keeps_emit)

theorem keeps_recTriggered {s t : State} (h : Keeps s t) (x1 x2) :
    Keeps s (State.recTriggered t x1 x2) := by
  unfold State.recTriggered
  try dsimp only
  repeat' (first
    | with_reducible assumption
    | with_reducible apply keeps_set)

theorem keeps_closePage {s t : State} (h : Keeps s t) :
    Keeps s (State.closePage t) := by
  unfold State.closePage
  try dsimp only
  repeat' (first
    | with_reducible assumption
    | with_reducible apply keeps_recFreeze
    | with_reducible apply keeps_recTriggered
    | with_reducible apply keeps_writePage
    | split
    | with_reducible refine Keeps.fields ?_ rfl rfl rfl)

theorem keeps_openPage {s t : State} (h : Keeps s t) :
    Keeps s (State.openPage t) := by
  unfold State.openPage
  try dsimp only
  repeat' (first
    | with_reducible assumption
    | with_reducible apply keeps_set
    | split
    | with_reducible refine Keeps.fields ?_ rfl rfl rfl)

theorem keeps_recTrigger {s t : State} (h : Keeps s t) (x1) :
    Keeps s (State.recTrigger t x1) := by
  unfold State.recTrigger
  try dsimp only
  repeat' (first
    | with_reducible assumption
    | with_reducible apply keeps_openPage
    | with_reducible apply keeps_recTriggered
    | with_reducible apply keeps_writePage
    | with_reducible apply keeps_recFreeze
    | with_reducible apply keeps_set
    | split
    | with_reducible refine Keeps.fields ?_ rfl rfl rfl)

theorem keeps_recFaultTrigger {s t : State} (h : Keeps s t) :
    Keeps s (State.recFaultTrigger t) := by
  unfold State.recFaultTrigger
  try dsimp only
  repeat' (first
    | with_reducible assumption
    | with_reducible apply keeps_recTrigger
    | split)

theorem keeps_recBuoyTrigger {s t : State} (h : Keeps s t) (x1) :
    Keeps s (State.recBuoyTrigger t x1) := by
  unfold State.recBuoyTrigger
  try dsimp only
  repeat' (first
    | with_reducible assumption
    | with_reducible apply keeps_recTrigger
    | split)

theorem keeps_recDrop {s t : State} (h : Keeps s t) :
    Keeps s (State.recDrop t) := by
  unfold State.recDrop
  try dsimp only
  repeat' (first
    | with_reducible assumption
    | with_reducible apply keeps_inc
    | with_reducible refine Keeps.fields ?_ rfl rfl rfl)

theorem keeps_recWrite {s t : State} (h : Keeps s t) (x1) :
    Keeps s (State.recWrite t x1) := by
  unfold State.recWrite
  try dsimp only
  repeat' (first
    | with_reducible assumption
    | with_reducible apply keeps_closePage
    | with_reducible apply keeps_recDrop
    | with_reducible apply keeps_openPage
    | with_reducible apply keeps_dramPut
    | with_reducible apply keeps_inc
    | with_reducible apply keeps_recTrigger
    | split
    | with_reducible refine Keeps.fields ?_ rfl rfl rfl)

theorem keeps_tset {s t : State} (h : Keeps s t) (x1) :
    Keeps s (State.tset t x1) := by
  unfold State.tset
  try dsimp only
  repeat' (first
    | with_reducible assumption
    | with_reducible refine Keeps.fields ?_ rfl rfl rfl)

theorem keeps_catchMiss {s t : State} (h : Keeps s t) (x1) :
    Keeps s (State.catchMiss t x1) := by
  unfold State.catchMiss
  try dsimp only
  repeat' (first
    | with_reducible assumption
    | with_reducible apply keeps_set
    | with_reducible apply keeps_emit
    | with_reducible apply keeps_tset)

theorem keeps_catchSeek {s t : State} (h : Keeps s t) (x1 x2) :
    Keeps s (State.catchSeek t x1 x2) := by
  unfold State.catchSeek
  try dsimp only
  repeat' (first
    | with_reducible assumption
    | with_reducible apply keeps_tset
    | with_reducible apply keeps_catchMiss
    | split)

theorem keeps_catchFollow {s t : State} (h : Keeps s t) (x1) :
    Keeps s (State.catchFollow t x1) := by
  unfold State.catchFollow
  try dsimp only
  repeat' (first
    | with_reducible assumption
    | with_reducible apply keeps_tset
    | with_reducible apply keeps_catchSeek
    | with_reducible apply keeps_add
    | split)

theorem keeps_showSlew {s t : State} (h : Keeps s t) (x1) :
    Keeps s (State.showSlew t x1) := by
  unfold State.showSlew
  try dsimp only
  repeat' (first
    | with_reducible assumption
    | with_reducible apply keeps_put
    | with_reducible apply keeps_set)

theorem keeps_setSlew {s t : State} (h : Keeps s t) (x1 x2) :
    Keeps s (State.setSlew t x1 x2) := by
  unfold State.setSlew
  try dsimp only
  repeat' (first
    | with_reducible assumption
    | with_reducible apply keeps_showSlew
    | with_reducible apply keeps_tset)

theorem keeps_tickDomain {s t : State} (h : Keeps s t) (x1) :
    Keeps s (State.tickDomain t x1) := by
  unfold State.tickDomain
  try dsimp only
  repeat' (first
    | with_reducible assumption
    | with_reducible apply keeps_tset
    | with_reducible apply keeps_setSlew
    | split)

theorem keeps_tick {s t : State} (h : Keeps s t) :
    Keeps s (State.tick t) := by
  unfold State.tick
  try dsimp only
  repeat' (first
    | with_reducible assumption
    | with_reducible apply keeps_each
    | with_reducible apply keeps_tset
    | with_reducible apply keeps_tickDomain
    | (intro)
    | split
    | with_reducible refine Keeps.fields ?_ rfl rfl rfl)

theorem keeps_inPlace {s t : State} (h : Keeps s t) (x1 x2) :
    Keeps s (State.inPlace t x1 x2) := by
  unfold State.inPlace
  try dsimp only
  repeat' (first
    | with_reducible assumption
    | with_reducible apply keeps_tset
    | with_reducible apply keeps_tick
    | split)

theorem keeps_catchPin {s t : State} (h : Keeps s t) (x1) :
    Keeps s (State.catchPin t x1) := by
  unfold State.catchPin
  try dsimp only
  repeat' (first
    | with_reducible assumption
    | split
    | with_reducible refine Keeps.fields ?_ rfl rfl rfl)

theorem keeps_noPulses {s t : State} (h : Keeps s t) (x1) :
    Keeps s (State.noPulses t x1) := by
  unfold State.noPulses
  try dsimp only
  repeat' (first
    | with_reducible assumption
    | with_reducible apply keeps_tset)

theorem keeps_dropSlew {s t : State} (h : Keeps s t) (x1) :
    Keeps s (State.dropSlew t x1) := by
  unfold State.dropSlew
  try dsimp only
  repeat' (first
    | with_reducible assumption
    | with_reducible apply keeps_setSlew)

theorem keeps_takeover {s t : State} (h : Keeps s t) (x1 x2) :
    Keeps s (State.takeover t x1 x2) := by
  unfold State.takeover
  try dsimp only
  repeat' (first
    | with_reducible assumption
    | with_reducible apply keeps_inPlace
    | with_reducible apply keeps_dropSlew
    | with_reducible apply keeps_wr
    | with_reducible apply keeps_emit
    | with_reducible apply keeps_noPulses
    | with_reducible apply keeps_set)

theorem keeps_injTimeWdog {s t : State} (h : Keeps s t) (x1) :
    Keeps s (State.injTimeWdog t x1) := by
  unfold State.injTimeWdog
  try dsimp only
  repeat' (first
    | with_reducible assumption
    | with_reducible apply keeps_takeover
    | with_reducible apply keeps_injSpend
    | split)

theorem keeps_showBuoy {s t : State} (h : Keeps s t) (x1) :
    Keeps s (State.showBuoy t x1) := by
  unfold State.showBuoy
  try dsimp only
  repeat' (first
    | with_reducible assumption
    | with_reducible apply keeps_set
    | with_reducible apply keeps_wr)

theorem keeps_restoreDomain {s t : State} (h : Keeps s t) (x1) :
    Keeps s (State.restoreDomain t x1) := by
  unfold State.restoreDomain
  try dsimp only
  repeat' (first
    | with_reducible assumption
    | with_reducible apply keeps_set
    | with_reducible apply keeps_wr
    | with_reducible apply keeps_tset
    | split)

theorem keeps_stepBy {s t : State} (h : Keeps s t) (x1 x2) :
    Keeps s (State.stepBy t x1 x2) := by
  unfold State.stepBy
  try dsimp only
  repeat' (first
    | with_reducible assumption
    | with_reducible apply keeps_incWrap
    | with_reducible apply keeps_tset
    | with_reducible apply keeps_each
    | with_reducible apply keeps_gatesFollow
    | with_reducible apply keeps_catchFollow
    | (intro))

theorem keeps_jumpRefused {s t : State} (h : Keeps s t) (x1 x2) :
    Keeps s (State.jumpRefused t x1 x2) := by
  unfold State.jumpRefused
  try dsimp only
  repeat' (first
    | with_reducible assumption
    | with_reducible apply keeps_emit
    | with_reducible apply keeps_inc
    | with_reducible apply keeps_set)

theorem keeps_jumpJudge {s t : State} (h : Keeps s t) (x1 x2) :
    Keeps s (State.jumpJudge t x1 x2).1 := by
  unfold State.jumpJudge
  try dsimp only
  repeat' (first
    | with_reducible assumption
    | with_reducible apply keeps_jumpRefused
    | with_reducible apply keeps_injSpend
    | split)

theorem keeps_servoJudge {s t : State} (h : Keeps s t) (x1 x2) :
    Keeps s (State.servoJudge t x1 x2) := by
  unfold State.servoJudge
  try dsimp only
  repeat' (first
    | with_reducible assumption
    | with_reducible apply keeps_tset
    | with_reducible apply keeps_inc
    | with_reducible apply keeps_setSlew
    | with_reducible apply keeps_wr
    | with_reducible apply keeps_set
    | split)

theorem keeps_timeSeen {s t : State} (h : Keeps s t) :
    Keeps s (State.timeSeen t) := by
  unfold State.timeSeen
  try dsimp only
  repeat' (first
    | with_reducible assumption
    | with_reducible apply keeps_tset)

theorem keeps_takeoverByReset {s t : State} (h : Keeps s t) (x1) :
    Keeps s (State.takeoverByReset t x1) := by
  unfold State.takeoverByReset
  try dsimp only
  repeat' (first
    | with_reducible assumption
    | with_reducible apply keeps_takeover
    | split)

theorem keeps_domainStarts {s t : State} (h : Keeps s t) (x1) :
    Keeps s (State.domainStarts t x1) := by
  unfold State.domainStarts
  try dsimp only
  repeat' (first
    | with_reducible assumption
    | with_reducible apply keeps_tset
    | with_reducible apply keeps_gatesFollow
    | with_reducible apply keeps_set
    | with_reducible apply keeps_dropSlew)

theorem keeps_timePowerUp {s t : State} (h : Keeps s t) :
    Keeps s (State.timePowerUp t) := by
  unfold State.timePowerUp
  try dsimp only
  repeat' (first
    | with_reducible assumption
    | with_reducible apply keeps_each
    | with_reducible apply keeps_restoreDomain
    | with_reducible apply keeps_tset
    | with_reducible apply keeps_gatesFollow
    | (intro))

theorem keeps_enterSw {s t : State} (h : Keeps s t) (x1) :
    Keeps s (State.enterSw t x1) := by
  unfold State.enterSw
  try dsimp only
  repeat' (first
    | with_reducible assumption
    | with_reducible apply keeps_injTimeWdog
    | with_reducible apply keeps_wr
    | with_reducible apply keeps_set)

theorem keeps_saveTime {s t : State} (h : Keeps s t) :
    Keeps s (State.saveTime t) := by
  unfold State.saveTime
  try dsimp only
  repeat' (first
    | with_reducible assumption
    | with_reducible apply keeps_tset)

theorem keeps_domainStops {s t : State} (h : Keeps s t) (x1) :
    Keeps s (State.domainStops t x1) := by
  unfold State.domainStops
  try dsimp only
  repeat' (first
    | with_reducible assumption
    | with_reducible apply keeps_domainStarts
    | with_reducible apply keeps_noPulses)

theorem keeps_buoyPush {s t : State} (h : Keeps s t) (x1 x2) :
    Keeps s (State.buoyPush t x1 x2) := by
  unfold State.buoyPush
  try dsimp only
  repeat' (first
    | with_reducible assumption
    | with_reducible apply keeps_inc
    | with_reducible apply keeps_emit
    | with_reducible apply keeps_set
    | with_reducible apply keeps_showBuoy
    | with_reducible apply keeps_tset
    | split)

theorem keeps_uset {s t : State} (h : Keeps s t) (x1) :
    Keeps s (State.uset t x1) := by
  unfold State.uset
  try dsimp only
  repeat' (first
    | with_reducible assumption
    | with_reducible refine Keeps.fields ?_ rfl rfl rfl)

theorem keeps_phStore {s t : State} (h : Keeps s t) (x1) :
    Keeps s (State.phStore t x1) := by
  unfold State.phStore
  try dsimp only
  repeat' (first
    | with_reducible assumption
    | with_reducible apply keeps_set
    | with_reducible apply keeps_uset)

theorem keeps_phLearn {s t : State} (h : Keeps s t) (x1 x2 x3 x4) :
    Keeps s (State.phLearn t x1 x2 x3 x4) := by
  unfold State.phLearn
  try dsimp only
  repeat' (first
    | with_reducible assumption
    | with_reducible apply keeps_phStore
    | with_reducible apply keeps_inc
    | split)

theorem keeps_patRewrite {s t : State} (h : Keeps s t) (x1) :
    Keeps s (State.patRewrite t x1) := by
  unfold State.patRewrite
  try dsimp only
  repeat' (first
    | with_reducible assumption
    | with_reducible apply keeps_emit
    | with_reducible apply keeps_inc
    | with_reducible apply keeps_uset)

theorem keeps_umpParityFlip {s t : State} (h : Keeps s t) (x1 x2) :
    Keeps s (State.umpParityFlip t x1 x2) := by
  unfold State.umpParityFlip
  try dsimp only
  repeat' (first
    | with_reducible assumption
    | with_reducible apply keeps_uset)

theorem keeps_umpDrop {s t : State} (h : Keeps s t) (x1 x2) :
    Keeps s (State.umpDrop t x1 x2).1 := by
  unfold State.umpDrop
  try dsimp only
  repeat' (first
    | with_reducible assumption
    | with_reducible apply keeps_inc)

theorem keeps_phLookup {s t : State} (h : Keeps s t) (x1 x2) :
    Keeps s (State.phLookup t x1 x2).1 := by
  unfold State.phLookup
  try dsimp only
  repeat' (first
    | with_reducible assumption
    | with_reducible apply keeps_inc
    | with_reducible apply keeps_phStore
    | split)

theorem keeps_tcamRewrite {s t : State} (h : Keeps s t) (x1) :
    Keeps s (State.tcamRewrite t x1) := by
  unfold State.tcamRewrite
  try dsimp only
  repeat' (first
    | with_reducible assumption
    | with_reducible apply keeps_emit
    | with_reducible apply keeps_inc
    | with_reducible apply keeps_uset)

theorem keeps_countOctets {s t : State} (h : Keeps s t) (x1 x2 x3) :
    Keeps s (State.countOctets t x1 x2 x3).1 := by
  unfold State.countOctets
  try dsimp only
  repeat' (first
    | with_reducible assumption
    | with_reducible apply keeps_add
    | split)

theorem keeps_judge {s t : State} (h : Keeps s t) (x1 x2 x3 x4 x5 x6 x7) :
    Keeps s (State.judge t x1 x2 x3 x4 x5 x6 x7).1 := by
  unfold State.judge
  try dsimp only
  repeat' (first
    | with_reducible assumption
    | with_reducible apply keeps_inc
    | with_reducible apply keeps_umpDrop
    | with_reducible apply keeps_tcamRewrite
    | with_reducible apply keeps_countOctets
    | with_reducible apply keeps_phLearn
    | split)

theorem keeps_classify {s t : State} (h : Keeps s t) (x1 x2 x3 x4 x5) :
    Keeps s (State.classify t x1 x2 x3 x4 x5).1 := by
  unfold State.classify
  try dsimp only
  repeat' (first
    | with_reducible assumption
    | with_reducible apply keeps_umpDrop
    | with_reducible apply keeps_inc
    | with_reducible apply keeps_phLookup
    | with_reducible apply keeps_each
    | with_reducible apply keeps_judge
    | (intro)
    | split)

theorem keeps_showFdb {s t : State} (h : Keeps s t) :
    Keeps s (State.showFdb t) := by
  unfold State.showFdb
  try dsimp only
  repeat' (first
    | with_reducible assumption
    | with_reducible apply keeps_set
    | with_reducible apply keeps_each
    | (intro))

theorem keeps_fset {s t : State} (h : Keeps s t) (x1) :
    Keeps s (State.fset t x1) := by
  unfold State.fset
  try dsimp only
  repeat' (first
    | with_reducible assumption
    | with_reducible refine Keeps.fields ?_ rfl rfl rfl)

theorem keeps_setLearned {s t : State} (h : Keeps s t) (x1) :
    Keeps s (State.setLearned t x1) := by
  unfold State.setLearned
  try dsimp only
  repeat' (first
    | with_reducible assumption
    | with_reducible apply keeps_showFdb
    | with_reducible apply keeps_fset)

theorem keeps_ageSweep {s t : State} (h : Keeps s t) :
    Keeps s (State.ageSweep t) := by
  unfold State.ageSweep
  try dsimp only
  repeat' (first
    | with_reducible assumption
    | with_reducible apply keeps_setLearned)

theorem keeps_flushLearned {s t : State} (h : Keeps s t) (x1 x2) :
    Keeps s (State.flushLearned t x1 x2) := by
  unfold State.flushLearned
  try dsimp only
  repeat' (first
    | with_reducible assumption
    | with_reducible apply keeps_setLearned)

theorem keeps_learn {s t : State} (h : Keeps s t) (x1 x2 x3) :
    Keeps s (State.learn t x1 x2 x3) := by
  unfold State.learn
  try dsimp only
  repeat' (first
    | with_reducible assumption
    | with_reducible apply keeps_setLearned
    | with_reducible apply keeps_inc
    | split)

theorem keeps_fdbSwapped {s t : State} (h : Keeps s t) :
    Keeps s (State.fdbSwapped t) := by
  unfold State.fdbSwapped
  try dsimp only
  repeat' (first
    | with_reducible assumption
    | with_reducible apply keeps_setLearned)

theorem keeps_kset {s t : State} (h : Keeps s t) (x1) :
    Keeps s (State.kset t x1) := by
  unfold State.kset
  try dsimp only
  repeat' (first
    | with_reducible assumption
    | with_reducible refine Keeps.fields ?_ rfl rfl rfl)

theorem keeps_showMac {s t : State} (h : Keeps s t) (x1) :
    Keeps s (State.showMac t x1) := by
  unfold State.showMac
  try dsimp only
  repeat' (first
    | with_reducible assumption
    | with_reducible apply keeps_put
    | with_reducible apply keeps_set)

theorem keeps_usePn {s t : State} (h : Keeps s t) (x1 x2) :
    Keeps s (State.usePn t x1 x2) := by
  unfold State.usePn
  try dsimp only
  repeat' (first
    | with_reducible assumption
    | with_reducible apply keeps_set
    | with_reducible apply keeps_inc
    | with_reducible apply keeps_emit
    | with_reducible apply keeps_kset
    | with_reducible apply keeps_showMac
    | split)

theorem keeps_macSend {s t : State} (h : Keeps s t) (x1 x2 x3 x4 x5) :
    Keeps s (State.macSend t x1 x2 x3 x4 x5).1 := by
  unfold State.macSend
  try dsimp only
  repeat' (first
    | with_reducible assumption
    | with_reducible apply keeps_inc
    | with_reducible apply keeps_usePn
    | split)

theorem keeps_macReceive {s t : State} (h : Keeps s t) (x1 x2) :
    Keeps s (State.macReceive t x1 x2).1 := by
  unfold State.macReceive
  try dsimp only
  repeat' (first
    | with_reducible assumption
    | with_reducible apply keeps_inc
    | with_reducible apply keeps_injSpend
    | with_reducible apply keeps_emit
    | with_reducible apply keeps_set
    | split)

theorem keeps_fstErrLoc {s t : State} (h : Keeps s t) (x1 x2 x3) :
    Keeps s (State.fstErrLoc t x1 x2 x3) := by
  unfold State.fstErrLoc
  try dsimp only
  repeat' (first
    | with_reducible assumption
    | with_reducible apply keeps_set
    | split)

theorem keeps_showPool {s t : State} (h : Keeps s t) (x1) :
    Keeps s (State.showPool t x1) := by
  unfold State.showPool
  try dsimp only
  repeat' (first
    | with_reducible assumption
    | with_reducible apply keeps_set)

theorem keeps_showStore {s t : State} (h : Keeps s t) :
    Keeps s (State.showStore t) := by
  unfold State.showStore
  try dsimp only
  repeat' (first
    | with_reducible assumption
    | with_reducible apply keeps_each
    | with_reducible apply keeps_showPool
    | with_reducible apply keeps_set
    | (intro))

theorem keeps_handleParity {s t : State} (h : Keeps s t) (x1 x2) :
    Keeps s (State.handleParity t x1 x2) := by
  unfold State.handleParity
  try dsimp only
  repeat' (first
    | with_reducible assumption
    | with_reducible apply keeps_fstErrLoc
    | with_reducible apply keeps_inc
    | with_reducible apply keeps_showStore
    | with_reducible apply keeps_fset)

theorem keeps_readHandle {s t : State} (h : Keeps s t) (x1) {f : Handle → State} (hf : ∀ x, Keeps s (f x)) :
    Keeps s (State.readHandle t x1 f) := by
  unfold State.readHandle
  split
  · exact h
  · split
    · exact hf _
    · exact keeps_handleParity h _ _

theorem keeps_hset {s t : State} (h : Keeps s t) (x1 x2) :
    Keeps s (State.hset t x1 x2) := by
  unfold State.hset
  try dsimp only
  repeat' (first
    | with_reducible assumption
    | with_reducible apply keeps_fset
    | split)

theorem keeps_setLane {s t : State} (h : Keeps s t) (x1 x2 x3) :
    Keeps s (State.setLane t x1 x2 x3) := by
  unfold State.setLane
  try dsimp only
  repeat' (first
    | with_reducible assumption
    | with_reducible apply keeps_fset)

theorem keeps_dropStamps {s t : State} (h : Keeps s t) (x1 x2) :
    Keeps s (State.dropStamps t x1 x2) := by
  unfold State.dropStamps
  try dsimp only
  repeat' (first
    | with_reducible assumption
    | with_reducible refine Keeps.fields ?_ rfl rfl rfl)

theorem keeps_purge {s t : State} (h : Keeps s t) (x1) :
    Keeps s (State.purge t x1) := by
  unfold State.purge
  try dsimp only
  repeat' (first
    | with_reducible assumption
    | with_reducible apply keeps_each
    | with_reducible apply keeps_setLane
    | with_reducible apply keeps_fset
    | with_reducible apply keeps_dropStamps
    | (intro)
    | split
    | with_reducible refine Keeps.fields ?_ rfl rfl rfl)

theorem keeps_freeFrame {s t : State} (h : Keeps s t) (x1) :
    Keeps s (State.freeFrame t x1) := by
  unfold State.freeFrame
  try dsimp only
  repeat' (first
    | with_reducible assumption
    | with_reducible apply keeps_showStore
    | with_reducible apply keeps_fset
    | split)

theorem keeps_freeIfDone {s t : State} (h : Keeps s t) (x1) :
    Keeps s (State.freeIfDone t x1) := by
  unfold State.freeIfDone
  try dsimp only
  repeat' (first
    | with_reducible assumption
    | with_reducible apply keeps_freeFrame
    | split)

theorem keeps_moveCharge {s t : State} (h : Keeps s t) (x1) :
    Keeps s (State.moveCharge t x1) := by
  unfold State.moveCharge
  try dsimp only
  repeat' (first
    | with_reducible assumption
    | with_reducible apply keeps_showStore
    | with_reducible apply keeps_hset
    | with_reducible apply keeps_purge
    | with_reducible apply keeps_add
    | with_reducible apply keeps_freeIfDone
    | split)

theorem keeps_takeHandle {s t : State} (h : Keeps s t) (x1 x2 x3 x4 x5) :
    Keeps s (State.takeHandle t x1 x2 x3 x4 x5) := by
  unfold State.takeHandle
  try dsimp only
  repeat' (first
    | with_reducible assumption
    | with_reducible apply keeps_injSpend
    | with_reducible apply keeps_showStore
    | with_reducible apply keeps_fset
    | split)

theorem keeps_uncount {s t : State} (h : Keeps s t) (x1) :
    Keeps s (State.uncount t x1) := by
  unfold State.uncount
  try dsimp only
  repeat' (first
    | with_reducible assumption
    | with_reducible apply keeps_hset)

theorem keeps_copyLeaves {s t : State} (h : Keeps s t) (x1) :
    Keeps s (State.copyLeaves t x1) := by
  unfold State.copyLeaves
  try dsimp only
  repeat' (first
    | with_reducible assumption
    | with_reducible apply keeps_readHandle
    | with_reducible apply keeps_moveCharge
    | with_reducible apply keeps_freeIfDone
    | with_reducible apply keeps_uncount
    | (intro))

theorem keeps_discCount {s t : State} (h : Keeps s t) (x1 x2) :
    Keeps s (State.discCount t x1 x2) := by
  unfold State.discCount
  try dsimp only
  repeat' (first
    | with_reducible assumption
    | with_reducible apply keeps_inc
    | split)

theorem keeps_laneDiscard {s t : State} (h : Keeps s t) (x1 x2) :
    Keeps s (State.laneDiscard t x1 x2) := by
  unfold State.laneDiscard
  try dsimp only
  repeat' (first
    | with_reducible assumption
    | with_reducible apply keeps_copyLeaves
    | with_reducible apply keeps_discCount)

theorem keeps_flushLane {s t : State} (h : Keeps s t) (x1 x2) :
    Keeps s (State.flushLane t x1 x2) := by
  unfold State.flushLane
  try dsimp only
  repeat' (first
    | with_reducible assumption
    | with_reducible apply keeps_each
    | with_reducible apply keeps_setLane
    | with_reducible apply keeps_laneDiscard
    | (intro))

theorem keeps_discardReserved {s t : State} (h : Keeps s t) (x1) :
    Keeps s (State.discardReserved t x1) := by
  unfold State.discardReserved
  try dsimp only
  repeat' (first
    | with_reducible assumption
    | with_reducible apply keeps_each
    | with_reducible apply keeps_flushLane
    | (intro))

theorem keeps_markBad {s t : State} (h : Keeps s t) (x1) :
    Keeps s (State.markBad t x1) := by
  unfold State.markBad
  try dsimp only
  repeat' (first
    | with_reducible assumption
    | with_reducible apply keeps_hset)

theorem keeps_writeWord {s t : State} (h : Keeps s t) (x1 x2) :
    Keeps s (State.writeWord t x1 x2) := by
  unfold State.writeWord
  try dsimp only
  repeat' (first
    | with_reducible assumption
    | with_reducible apply keeps_injSpend
    | with_reducible apply keeps_fset
    | split)

theorem keeps_writeWords {s t : State} (h : Keeps s t) (x1 x2 x3 x4) :
    Keeps s (State.writeWords t x1 x2 x3 x4) := by
  unfold State.writeWords
  try dsimp only
  repeat' (first
    | with_reducible assumption
    | with_reducible apply keeps_each
    | with_reducible apply keeps_writeWord
    | (intro))

theorem keeps_strike {s t : State} (h : Keeps s t) (x1 x2) :
    Keeps s (State.strike t x1 x2) := by
  unfold State.strike
  try dsimp only
  repeat' (first
    | with_reducible assumption
    | with_reducible apply keeps_fset
    | split)

theorem keeps_svcSet {s t : State} (h : Keeps s t) (x1 x2) :
    Keeps s (State.svcSet t x1 x2) := by
  unfold State.svcSet
  try dsimp only
  repeat' (first
    | with_reducible assumption
    | with_reducible apply keeps_fset)

theorem keeps_discardInTransmission {s t : State} (h : Keeps s t) (x1) :
    Keeps s (State.discardInTransmission t x1) := by
  unfold State.discardInTransmission
  try dsimp only
  repeat' (first
    | with_reducible assumption
    | with_reducible apply keeps_each
    | with_reducible apply keeps_svcSet
    | with_reducible apply keeps_laneDiscard
    | with_reducible apply keeps_dropStamps
    | (intro))

theorem keeps_flushPort {s t : State} (h : Keeps s t) (x1) :
    Keeps s (State.flushPort t x1) := by
  unfold State.flushPort
  try dsimp only
  repeat' (first
    | with_reducible assumption
    | with_reducible apply keeps_discardInTransmission
    | with_reducible apply keeps_each
    | with_reducible apply keeps_flushLane
    | (intro))

theorem keeps_enqueue {s t : State} (h : Keeps s t) (x1 x2) :
    Keeps s (State.enqueue t x1 x2) := by
  unfold State.enqueue
  try dsimp only
  repeat' (first
    | with_reducible assumption
    | with_reducible apply keeps_setLane
    | with_reducible apply keeps_uncount
    | with_reducible apply keeps_discCount
    | split)

theorem keeps_setMeter {s t : State} (h : Keeps s t) (x1 x2) :
    Keeps s (State.setMeter t x1 x2) := by
  unfold State.setMeter
  try dsimp only
  repeat' (first
    | with_reducible assumption
    | with_reducible apply keeps_fset)

theorem keeps_meterJudge {s t : State} (h : Keeps s t) (x1 x2 x3) :
    Keeps s (State.meterJudge t x1 x2 x3).1 := by
  unfold State.meterJudge
  try dsimp only
  repeat' (first
    | with_reducible assumption
    | with_reducible apply keeps_injSpend
    | with_reducible apply keeps_setMeter
    | split)

theorem keeps_zoneCheck {s t : State} (h : Keeps s t) (x1 x2 x3 x4) :
    Keeps s (State.zoneCheck t x1 x2 x3 x4).1 := by
  unfold State.zoneCheck
  try dsimp only
  repeat' (first
    | with_reducible assumption
    | with_reducible apply keeps_inc
    | split)

theorem keeps_mirrorCopies {s t : State} (h : Keeps s t) (x1 x2 x3) :
    Keeps s (State.mirrorCopies t x1 x2 x3).1 := by
  unfold State.mirrorCopies
  repeat' (first
    | with_reducible assumption
    | with_reducible apply keeps_inc
    | with_reducible apply keeps_zoneCheck
    | with_reducible apply Keeps.foldl_fst
    | (intro)
    | split
    | dsimp only [Keeps.out, Keeps.cmd, Keeps.fate, Keeps.outOpt, Keeps.cmdOpt])

theorem keeps_sampleCopy {s t : State} (h : Keeps s t) (x1 x2 x3) :
    Keeps s (State.sampleCopy t x1 x2 x3).1 := by
  unfold State.sampleCopy
  try dsimp only
  repeat' (first
    | with_reducible assumption
    | with_reducible apply keeps_inc
    | with_reducible apply keeps_fset
    | split)

theorem keeps_withMirrors {s t : State} (h : Keeps s t) (x1 x2 x3 x4) :
    Keeps s (State.withMirrors t x1 x2 x3 x4).1 := by
  unfold State.withMirrors
  try dsimp only
  repeat' (first
    | with_reducible assumption
    | with_reducible apply keeps_mirrorCopies
    | with_reducible apply keeps_sampleCopy)

theorem keeps_frerSet {s t : State} (h : Keeps s t) (x1 x2) :
    Keeps s (State.frerSet t x1 x2) := by
  unfold State.frerSet
  try dsimp only
  repeat' (first
    | with_reducible assumption
    | with_reducible apply keeps_fset)

theorem keeps_frerPass {s t : State} (h : Keeps s t) (x1 x2 x3 x4 x5 x6) :
    Keeps s (State.frerPass t x1 x2 x3 x4 x5 x6).1 := by
  unfold State.frerPass
  try dsimp only
  repeat' (first
    | with_reducible assumption
    | with_reducible apply keeps_inc
    | with_reducible apply keeps_frerSet)

theorem keeps_frerDup {s t : State} (h : Keeps s t) (x1 x2 x3) :
    Keeps s (State.frerDup t x1 x2 x3).1 := by
  unfold State.frerDup
  try dsimp only
  repeat' (first
    | with_reducible assumption
    | with_reducible apply keeps_inc
    | split)

theorem keeps_frerRecover {s t : State} (h : Keeps s t) (x1 x2 x3 x4 x5) :
    Keeps s (State.frerRecover t x1 x2 x3 x4 x5).1 := by
  unfold State.frerRecover
  try dsimp only
  repeat' (first
    | with_reducible assumption
    | with_reducible apply keeps_inc
    | with_reducible apply keeps_frerPass
    | with_reducible apply keeps_frerDup
    | with_reducible apply keeps_add
    | split)

theorem keeps_sourceCheck {s t : State} (h : Keeps s t) (x1 x2) :
    Keeps s (State.sourceCheck t x1 x2).1 := by
  unfold State.sourceCheck
  try dsimp only
  repeat' (first
    | with_reducible assumption
    | with_reducible apply keeps_inc
    | split)

theorem keeps_destination {s t : State} (h : Keeps s t) (x1 x2 x3) :
    Keeps s (State.destination t x1 x2 x3).1 := by
  unfold State.destination
  try dsimp only
  repeat' (first
    | with_reducible assumption
    | with_reducible apply keeps_inc
    | split)

theorem keeps_forwardCopy {s t : State} (h : Keeps s t) (x1 x2 x3 x4 x5) :
    Keeps s (State.forwardCopy t x1 x2 x3 x4 x5).1 := by
  unfold State.forwardCopy
  try dsimp only
  repeat' (first
    | with_reducible assumption
    | with_reducible apply keeps_inc
    | split)

theorem keeps_route {s t : State} (h : Keeps s t) (x1 x2 x3 x4) :
    Keeps s (State.route t x1 x2 x3 x4).1 := by
  unfold State.route
  repeat' (first
    | with_reducible assumption
    | with_reducible apply keeps_withMirrors
    | with_reducible apply keeps_inc
    | with_reducible apply keeps_frerRecover
    | with_reducible apply keeps_frerSet
    | with_reducible apply keeps_sourceCheck
    | with_reducible apply keeps_destination
    | with_reducible apply keeps_zoneCheck
    | with_reducible apply keeps_forwardCopy
    | with_reducible apply Keeps.foldl_fst
    | (intro)
    | split
    | dsimp only [Keeps.out, Keeps.cmd, Keeps.fate, Keeps.outOpt, Keeps.cmdOpt])

theorem keeps_meterDrop {s t : State} (h : Keeps s t) (x1) :
    Keeps s (State.meterDrop t x1) := by
  unfold State.meterDrop
  try dsimp only
  repeat' (first
    | with_reducible assumption
    | with_reducible apply keeps_inc
    | with_reducible apply keeps_emit
    | split)

theorem keeps_meterAdjust {s t : State} (h : Keeps s t) (x1 x2 x3) :
    Keeps s (State.meterAdjust t x1 x2 x3) := by
  unfold State.meterAdjust
  try dsimp only
  repeat' (first
    | with_reducible assumption
    | with_reducible apply keeps_setMeter)

theorem keeps_streamOf {s t : State} (h : Keeps s t) (x1 x2) :
    Keeps s (State.streamOf t x1 x2).1 := by
  unfold State.streamOf
  try dsimp only
  repeat' (first
    | with_reducible assumption
    | with_reducible apply keeps_inc
    | split)

theorem keeps_streamChecks {s t : State} (h : Keeps s t) (x1 x2 x3) :
    Keeps s (State.streamChecks t x1 x2 x3).1 := by
  unfold State.streamChecks
  try dsimp only
  repeat' (first
    | with_reducible assumption
    | with_reducible apply keeps_inc
    | with_reducible apply keeps_meterJudge
    | with_reducible apply keeps_meterDrop
    | split)

theorem keeps_adjustCharge {s t : State} (h : Keeps s t) (x1) :
    Keeps s (State.adjustCharge t x1) := by
  unfold State.adjustCharge
  try dsimp only
  repeat' (first
    | with_reducible assumption
    | with_reducible apply keeps_meterAdjust
    | split)

theorem keeps_frerSettle {s t : State} (h : Keeps s t) (x1 x2) :
    Keeps s (State.frerSettle t x1 x2) := by
  unfold State.frerSettle
  try dsimp only
  repeat' (first
    | with_reducible assumption
    | with_reducible apply keeps_each
    | with_reducible apply keeps_frerSet
    | with_reducible apply keeps_set
    | (intro)
    | split)

theorem keeps_bset {s t : State} (h : Keeps s t) (x1) :
    Keeps s (State.bset t x1) := by
  unfold State.bset
  try dsimp only
  repeat' (first
    | with_reducible assumption
    | with_reducible refine Keeps.fields ?_ rfl rfl rfl)

theorem keeps_showFabric {s t : State} (h : Keeps s t) :
    Keeps s (State.showFabric t) := by
  unfold State.showFabric
  try dsimp only
  repeat' (first
    | with_reducible assumption
    | with_reducible apply keeps_set
    | with_reducible apply keeps_put
    | with_reducible apply keeps_emit
    | split)

theorem keeps_computeRoutes {s t : State} (h : Keeps s t) :
    Keeps s (State.computeRoutes t) := by
  unfold State.computeRoutes
  try dsimp only
  repeat' (first
    | with_reducible assumption
    | with_reducible apply keeps_showFabric
    | with_reducible apply keeps_each
    | with_reducible apply keeps_set
    | with_reducible apply keeps_clearWord
    | (intro)
    | split)

theorem keeps_sendLsa {s t : State} (h : Keeps s t) (x1 x2 x3) :
    Keeps s (State.sendLsa t x1 x2 x3) := by
  unfold State.sendLsa
  try dsimp only
  repeat' (first
    | with_reducible assumption
    | with_reducible apply keeps_sendHfpOn)

theorem keeps_floodOwn {s t : State} (h : Keeps s t) :
    Keeps s (State.floodOwn t) := by
  unfold State.floodOwn
  try dsimp only
  repeat' (first
    | with_reducible assumption
    | with_reducible apply keeps_bset
    | with_reducible apply keeps_each
    | with_reducible apply keeps_sendLsa
    | (intro)
    | split)

theorem keeps_setAdj {s t : State} (h : Keeps s t) (x1 x2) :
    Keeps s (State.setAdj t x1 x2) := by
  unfold State.setAdj
  try dsimp only
  repeat' (first
    | with_reducible assumption
    | with_reducible apply keeps_set
    | with_reducible apply keeps_bset
    | with_reducible apply keeps_computeRoutes
    | with_reducible apply keeps_floodOwn
    | with_reducible apply keeps_emit
    | split)

theorem keeps_tlpEnd {s t : State} (h : Keeps s t) (x1) :
    Keeps s (State.tlpEnd t x1) := by
  unfold State.tlpEnd
  try dsimp only
  repeat' (first
    | with_reducible assumption
    | with_reducible apply keeps_bset
    | split
    | with_reducible refine Keeps.fields ?_ rfl rfl rfl)

theorem keeps_tlpPart {s t : State} (h : Keeps s t) (x1 x2 x3 x4) :
    Keeps s (State.tlpPart t x1 x2 x3 x4) := by
  unfold State.tlpPart
  try dsimp only
  repeat' (first
    | with_reducible assumption
    | with_reducible apply keeps_bset
    | split)

theorem keeps_lockPut {s t : State} (h : Keeps s t) (x1 x2) :
    Keeps s (State.lockPut t x1 x2) := by
  unfold State.lockPut
  try dsimp only
  repeat' (first
    | with_reducible assumption
    | with_reducible apply keeps_bset
    | split)

theorem keeps_lockTell {s t : State} (h : Keeps s t) (x1 x2 x3 x4) :
    Keeps s (State.lockTell t x1 x2 x3 x4) := by
  unfold State.lockTell
  try dsimp only
  repeat' (first
    | with_reducible assumption
    | with_reducible apply keeps_finishRunning
    | with_reducible apply keeps_bset
    | split)

theorem keeps_backOff {s t : State} (h : Keeps s t) (x1 x2) :
    Keeps s (State.backOff t x1 x2) := by
  unfold State.backOff
  try dsimp only
  repeat' (first
    | with_reducible assumption
    | with_reducible apply keeps_set
    | with_reducible apply keeps_bset)

theorem keeps_lockEnd {s t : State} (h : Keeps s t) (x1 x2 x3) :
    Keeps s (State.lockEnd t x1 x2 x3) := by
  unfold State.lockEnd
  try dsimp only
  repeat' (first
    | with_reducible assumption
    | with_reducible apply keeps_lockPut
    | with_reducible apply keeps_lockTell
    | with_reducible apply keeps_set
    | with_reducible apply keeps_free
    | with_reducible apply keeps_backOff
    | with_reducible apply keeps_inc
    | with_reducible apply keeps_sendHfp
    | split)

theorem keeps_completeAsk {s t : State} (h : Keeps s t) (x1 x2 x3) :
    Keeps s (State.completeAsk t x1 x2 x3) := by
  unfold State.completeAsk
  try dsimp only
  repeat' (first
    | with_reducible assumption
    | with_reducible apply keeps_inc
    | with_reducible apply keeps_bset
    | with_reducible apply keeps_set
    | with_reducible apply keeps_tlpEnd
    | with_reducible apply keeps_tlpPart
    | with_reducible apply keeps_finishRunning
    | with_reducible apply keeps_lockEnd
    | split
    | with_reducible refine Keeps.fields ?_ rfl rfl rfl)

theorem keeps_poisonPair {s t : State} (h : Keeps s t) (x1 x2) :
    Keeps s (State.poisonPair t x1 x2) := by
  unfold State.poisonPair
  try dsimp only
  repeat' (first
    | with_reducible assumption
    | with_reducible apply keeps_each
    | with_reducible apply keeps_bset
    | with_reducible apply keeps_completeAsk
    | (intro))

theorem keeps_lateRecord {s t : State} (h : Keeps s t) (x1 x2 x3 x4 x5 x6 x7) :
    Keeps s (State.lateRecord t x1 x2 x3 x4 x5 x6 x7) := by
  unfold State.lateRecord
  try dsimp only
  repeat' (first
    | with_reducible assumption
    | with_reducible apply keeps_inc
    | with_reducible apply keeps_emit
    | with_reducible apply keeps_poisonPair
    | with_reducible apply keeps_set
    | split)

theorem keeps_askWaits {s t : State} (h : Keeps s t) (x1) :
    Keeps s (State.askWaits t x1) := by
  unfold State.askWaits
  try dsimp only
  repeat' (first
    | with_reducible assumption
    | with_reducible apply keeps_bset
    | split)

theorem keeps_sendAsk {s t : State} (h : Keeps s t) (x1) :
    Keeps s (State.sendAsk t x1) := by
  unfold State.sendAsk
  try dsimp only
  repeat' (first
    | with_reducible assumption
    | with_reducible apply keeps_bset
    | with_reducible apply keeps_injSpend
    | with_reducible apply keeps_sendHfp
    | split)

theorem keeps_ask {s t : State} (h : Keeps s t) (x1) :
    Keeps s (State.ask t x1) := by
  unfold State.ask
  try dsimp only
  repeat' (first
    | with_reducible assumption
    | with_reducible apply keeps_completeAsk
    | with_reducible apply keeps_free
    | with_reducible apply keeps_lateRecord
    | with_reducible apply keeps_askWaits
    | with_reducible apply keeps_sendAsk
    | split)

theorem keeps_retryAsks {s t : State} (h : Keeps s t) :
    Keeps s (State.retryAsks t) := by
  unfold State.retryAsks
  try dsimp only
  repeat' (first
    | with_reducible assumption
    | with_reducible apply keeps_each
    | with_reducible apply keeps_bset
    | with_reducible apply keeps_ask
    | (intro))

theorem keeps_adjPortDown {s t : State} (h : Keeps s t) (x1) :
    Keeps s (State.adjPortDown t x1) := by
  unfold State.adjPortDown
  try dsimp only
  repeat' (first
    | with_reducible assumption
    | with_reducible apply keeps_setAdj
    | split)

theorem keeps_hfpStop {s t : State} (h : Keeps s t) :
    Keeps s (State.hfpStop t) := by
  unfold State.hfpStop
  try dsimp only
  repeat' (first
    | with_reducible assumption
    | with_reducible apply keeps_each
    | with_reducible apply keeps_adjPortDown
    | with_reducible apply keeps_bset
    | with_reducible apply keeps_showFabric
    | with_reducible apply keeps_clearWord
    | (intro))

theorem keeps_loseReq {s t : State} (h : Keeps s t) (x1 x2) :
    Keeps s (State.loseReq t x1 x2) := by
  unfold State.loseReq
  try dsimp only
  repeat' (first
    | with_reducible assumption
    | with_reducible apply keeps_lateRecord
    | with_reducible apply keeps_bset)

theorem keeps_showLanes {s t : State} (h : Keeps s t) (x1) :
    Keeps s (State.showLanes t x1) := by
  unfold State.showLanes
  try dsimp only
  repeat' (first
    | with_reducible assumption
    | with_reducible apply keeps_set)

theorem keeps_frameBoundary {s t : State} (h : Keeps s t) (x1) :
    Keeps s (State.frameBoundary t x1) := by
  unfold State.frameBoundary
  try dsimp only
  repeat' (first
    | with_reducible assumption
    | with_reducible apply keeps_showLanes
    | with_reducible apply keeps_svcSet
    | split)

theorem keeps_abortOn {s t : State} (h : Keeps s t) (x1 x2) :
    Keeps s (State.abortOn t x1 x2) := by
  unfold State.abortOn
  try dsimp only
  repeat' (first
    | with_reducible assumption
    | with_reducible apply keeps_svcSet
    | with_reducible apply keeps_fset
    | with_reducible apply keeps_dropStamps
    | with_reducible apply keeps_copyLeaves
    | with_reducible apply keeps_inc
    | split)

theorem keeps_preemptNow {s t : State} (h : Keeps s t) (x1) :
    Keeps s (State.preemptNow t x1) := by
  unfold State.preemptNow
  try dsimp only
  repeat' (first
    | with_reducible assumption
    | with_reducible apply keeps_inc
    | with_reducible apply keeps_svcSet
    | split)

theorem keeps_countDefer {s t : State} (h : Keeps s t) (x1) :
    Keeps s (State.countDefer t x1) := by
  unfold State.countDefer
  try dsimp only
  repeat' (first
    | with_reducible assumption
    | with_reducible apply keeps_inc
    | split)

theorem keeps_gateMoved {s t : State} (h : Keeps s t) (x1 x2) :
    Keeps s (State.gateMoved t x1 x2) := by
  unfold State.gateMoved
  try dsimp only
  repeat' (first
    | with_reducible assumption
    | with_reducible apply keeps_svcSet
    | with_reducible apply keeps_inc
    | with_reducible apply keeps_preemptNow
    | split)

theorem keeps_cutSending {s t : State} (h : Keeps s t) (x1) :
    Keeps s (State.cutSending t x1) := by
  unfold State.cutSending
  try dsimp only
  repeat' (first
    | with_reducible assumption
    | with_reducible apply keeps_gateMoved)

theorem keeps_gateChanged {s t : State} (h : Keeps s t) (x1) :
    Keeps s (State.gateChanged t x1) := by
  unfold State.gateChanged
  try dsimp only
  repeat' (first
    | with_reducible assumption
    | with_reducible apply keeps_cutSending
    | with_reducible apply keeps_gateRecompute)

theorem keeps_shaperCharge {s t : State} (h : Keeps s t) (x1 x2 x3) :
    Keeps s (State.shaperCharge t x1 x2 x3) := by
  unfold State.shaperCharge
  try dsimp only
  repeat' (first
    | with_reducible assumption
    | with_reducible apply keeps_fset
    | split)

theorem keeps_abortCopies {s t : State} (h : Keeps s t) (x1) :
    Keeps s (State.abortCopies t x1) := by
  unfold State.abortCopies
  try dsimp only
  repeat' (first
    | with_reducible assumption
    | with_reducible apply keeps_each
    | with_reducible apply keeps_abortOn
    | (intro))

theorem keeps_setMm {s t : State} (h : Keeps s t) (x1 x2 x3) :
    Keeps s (State.setMm t x1 x2 x3) := by
  unfold State.setMm
  try dsimp only
  repeat' (first
    | with_reducible assumption
    | with_reducible apply keeps_showLanes
    | with_reducible apply keeps_set
    | with_reducible apply keeps_put)

theorem keeps_mmLinkDown {s t : State} (h : Keeps s t) (x1) :
    Keeps s (State.mmLinkDown t x1) := by
  unfold State.mmLinkDown
  try dsimp only
  repeat' (first
    | with_reducible assumption
    | with_reducible apply keeps_setMm
    | with_reducible apply keeps_fset
    | split)

theorem keeps_mmLinkUp {s t : State} (h : Keeps s t) (x1) :
    Keeps s (State.mmLinkUp t x1) := by
  unfold State.mmLinkUp
  try dsimp only
  repeat' (first
    | with_reducible assumption
    | with_reducible apply keeps_setMm
    | with_reducible apply keeps_fset
    | split)

theorem keeps_zeroKeys {s t : State} (h : Keeps s t) :
    Keeps s (State.zeroKeys t) := by
  unfold State.zeroKeys
  try dsimp only
  repeat' (first
    | with_reducible assumption
    | with_reducible apply keeps_fset
    | with_reducible apply keeps_each
    | with_reducible apply keeps_set
    | (intro)
    | with_reducible refine Keeps.fields ?_ rfl rfl rfl)

theorem keeps_freeBytes {s t : State} (h : Keeps s t) (x1) :
    Keeps s (State.freeBytes t x1).2 := by
  unfold State.freeBytes
  try dsimp only
  repeat' (first
    | with_reducible assumption
    | with_reducible apply keeps_free)

theorem keeps_drawSeed {s t : State} (h : Keeps s t) :
    Keeps s (State.drawSeed t) := by
  unfold State.drawSeed
  try dsimp only
  repeat' (first
    | with_reducible assumption
    | with_reducible apply keeps_freeBytes
    | with_reducible apply keeps_kset)

theorem keeps_keysChanged {s t : State} (h : Keeps s t) (x1) :
    Keeps s (State.keysChanged t x1) := by
  unfold State.keysChanged
  try dsimp only
  repeat' (first
    | with_reducible assumption
    | with_reducible apply keeps_slotStored
    | with_reducible apply keeps_countWear
    | with_reducible apply keeps_zeroKeys
    | with_reducible apply keeps_drawSeed
    | with_reducible apply keeps_kset
    | with_reducible apply Keeps.foldl
    | (intro))

theorem keeps_slotUpset {s t : State} (h : Keeps s t) (x1) :
    Keeps s (State.slotUpset t x1) := by
  unfold State.slotUpset
  try dsimp only
  repeat' (first
    | with_reducible assumption
    | with_reducible apply keeps_kset)

theorem keeps_savePns {s t : State} (h : Keeps s t) :
    Keeps s (State.savePns t) := by
  unfold State.savePns
  try dsimp only
  repeat' (first
    | with_reducible assumption
    | with_reducible apply keeps_kset
    | split)

theorem keeps_keyFault {s t : State} (h : Keeps s t) (x1 x2) :
    Keeps s (State.keyFault t x1 x2) := by
  unfold State.keyFault
  try dsimp only
  repeat' (first
    | with_reducible assumption
    | with_reducible apply keeps_emit)

theorem keeps_slotSound {s t : State} (h : Keeps s t) (x1) :
    Keeps s (State.slotSound t x1) := by
  unfold State.slotSound
  try dsimp only
  repeat' (first
    | with_reducible assumption
    | with_reducible apply keeps_kset)

theorem keeps_saSwapped {s t : State} (h : Keeps s t) (x1) :
    Keeps s (State.saSwapped t x1) := by
  unfold State.saSwapped
  try dsimp only
  repeat' (first
    | with_reducible assumption
    | with_reducible apply keeps_kset
    | with_reducible apply keeps_each
    | with_reducible apply keeps_set
    | with_reducible apply keeps_showMac
    | (intro)
    | split)

theorem keeps_restorePn {s t : State} (h : Keeps s t) (x1) :
    Keeps s (State.restorePn t x1) := by
  unfold State.restorePn
  try dsimp only
  repeat' (first
    | with_reducible assumption
    | with_reducible apply keeps_set)

theorem keeps_firstSeed {s t : State} (h : Keeps s t) :
    Keeps s (State.firstSeed t) := by
  unfold State.firstSeed
  try dsimp only
  repeat' (first
    | with_reducible assumption
    | with_reducible apply keeps_drawSeed
    | split)

theorem keeps_sasFollow {s t : State} (h : Keeps s t) :
    Keeps s (State.sasFollow t) := by
  unfold State.sasFollow
  try dsimp only
  repeat' (first
    | with_reducible assumption
    | with_reducible apply keeps_each
    | with_reducible apply keeps_kset
    | with_reducible apply keeps_set
    | with_reducible apply keeps_showMac
    | (intro))

theorem keeps_slotWrite {s t : State} (h : Keeps s t) (x1 x2) :
    Keeps s (State.slotWrite t x1 x2) := by
  unfold State.slotWrite
  try dsimp only
  repeat' (first
    | with_reducible assumption
    | with_reducible apply keeps_pwRequest
    | with_reducible apply keeps_showStaged
    | with_reducible apply keeps_fset
    | split)

theorem keeps_slotGone {s t : State} (h : Keeps s t) (x1) :
    Keeps s (State.slotGone t x1) := by
  unfold State.slotGone
  try dsimp only
  repeat' (first
    | with_reducible assumption
    | with_reducible apply keeps_kset
    | with_reducible apply keeps_sasFollow
    | with_reducible apply keeps_slotStored
    | with_reducible apply keeps_fset
    | with_reducible apply keeps_slotSound
    | split)

theorem keeps_showStale {s t : State} (h : Keeps s t) (x1) :
    Keeps s (State.showStale t x1) := by
  unfold State.showStale
  try dsimp only
  repeat' (first
    | with_reducible assumption
    | with_reducible apply keeps_set)

theorem keeps_newRoute {s t : State} (h : Keeps s t) (x1) :
    Keeps s (State.newRoute t x1) := by
  unfold State.newRoute
  try dsimp only
  repeat' (first
    | with_reducible assumption
    | with_reducible apply keeps_showStale
    | with_reducible apply keeps_inc
    | split)

theorem keeps_eset {s t : State} (h : Keeps s t) (x1) :
    Keeps s (State.eset t x1) := by
  unfold State.eset
  try dsimp only
  repeat' (first
    | with_reducible assumption
    | with_reducible refine Keeps.fields ?_ rfl rfl rfl)

theorem keeps_staleEvent {s t : State} (h : Keeps s t) (x1) :
    Keeps s (State.staleEvent t x1) := by
  unfold State.staleEvent
  try dsimp only
  repeat' (first
    | with_reducible assumption
    | with_reducible apply keeps_emit
    | split)

theorem keeps_enterStale {s t : State} (h : Keeps s t) (x1) :
    Keeps s (State.enterStale t x1) := by
  unfold State.enterStale
  try dsimp only
  repeat' (first
    | with_reducible assumption
    | with_reducible apply keeps_eset
    | with_reducible apply keeps_staleEvent
    | with_reducible apply keeps_inc
    | with_reducible apply keeps_showStale)

theorem keeps_showLoad {s t : State} (h : Keeps s t) :
    Keeps s (State.showLoad t) := by
  unfold State.showLoad
  try dsimp only
  repeat' (first
    | with_reducible assumption
    | with_reducible apply keeps_set
    | split)

theorem keeps_routesLoaded {s t : State} (h : Keeps s t) :
    Keeps s (State.routesLoaded t) := by
  unfold State.routesLoaded
  try dsimp only
  repeat' (first
    | with_reducible assumption
    | with_reducible apply keeps_showLoad
    | with_reducible apply keeps_staleEvent
    | with_reducible apply keeps_each
    | with_reducible apply keeps_newRoute
    | (intro))

theorem keeps_edgeSwapped {s t : State} (h : Keeps s t) (x1 x2) :
    Keeps s (State.edgeSwapped t x1 x2) := by
  unfold State.edgeSwapped
  try dsimp only
  repeat' (first
    | with_reducible assumption
    | with_reducible apply keeps_eset
    | with_reducible apply keeps_each
    | with_reducible apply keeps_newRoute
    | with_reducible apply keeps_showLoad
    | with_reducible apply keeps_staleEvent
    | (intro)
    | split)

end Sys2Proof.Machine
end

