-- ==== Sys2Proof/Laws/KeepsUnits.lean ====
section
/-! SUPPORT. What the operations of the configuration, ports, resets, updates, power and the start keep (Sys2Proof.Machine.Keeps). -/
namespace Sys2Proof.Machine
set_option Elab.async false

theorem keeps_stageBody {s t : State} (h : Keeps s t) (x1 x2) :
    Keeps.cmd s (State.stageBody t x1 x2) := by
  unfold State.stageBody
  try dsimp only
  repeat' (first
    | with_reducible assumption
    | with_reducible apply keeps_showStaged
    | with_reducible apply keeps_fset
    | with_reducible apply keeps_showLoad
    | split
    | dsimp only [Keeps.out, Keeps.cmd, Keeps.fate, Keeps.outOpt, Keeps.cmdOpt])

theorem keeps_jobSet {s t : State} (h : Keeps s t) (x1) :
    Keeps s (State.jobSet t x1) := by
  unfold State.jobSet
  try dsimp only
  repeat' (first
    | with_reducible assumption
    | with_reducible apply keeps_fset)

theorem keeps_commitPends {s t : State} (h : Keeps s t) (x1) :
    Keeps s (State.commitPends t x1) := by
  unfold State.commitPends
  try dsimp only
  repeat' (first
    | with_reducible assumption
    | with_reducible apply keeps_set
    | with_reducible apply keeps_jobSet
    | split)

theorem keeps_fabricSwapped {s t : State} (h : Keeps s t) (x1 x2) :
    Keeps s (State.fabricSwapped t x1 x2) := by
  unfold State.fabricSwapped
  try dsimp only
  repeat' (first
    | with_reducible assumption
    | with_reducible apply keeps_fset
    | with_reducible apply keeps_uset
    | with_reducible apply keeps_fdbSwapped
    | with_reducible apply keeps_each
    | with_reducible apply keeps_gateMoved
    | with_reducible apply keeps_gateRecompute
    | with_reducible apply keeps_frameBoundary
    | with_reducible apply keeps_showLanes
    | with_reducible apply keeps_svcSet
    | (intro)
    | split)

theorem keeps_showPairs {s t : State} (h : Keeps s t) :
    Keeps s (State.showPairs t) := by
  unfold State.showPairs
  try dsimp only
  repeat' (first
    | with_reducible assumption
    | with_reducible apply keeps_set)

theorem keeps_sendCmit {s t : State} (h : Keeps s t) (x1 x2) :
    Keeps s (State.sendCmit t x1 x2) := by
  unfold State.sendCmit
  try dsimp only
  repeat' (first
    | with_reducible assumption
    | with_reducible apply keeps_sendHfp)

theorem keeps_sendCmitAck {s t : State} (h : Keeps s t) (x1) :
    Keeps s (State.sendCmitAck t x1) := by
  unfold State.sendCmitAck
  try dsimp only
  repeat' (first
    | with_reducible assumption
    | with_reducible apply keeps_sendCmit)

theorem keeps_showCmit {s t : State} (h : Keeps s t) (x1 x2 x3 x4) :
    Keeps s (State.showCmit t x1 x2 x3 x4) := by
  unfold State.showCmit
  try dsimp only
  repeat' (first
    | with_reducible assumption
    | with_reducible apply keeps_set)

theorem keeps_updSet {s t : State} (h : Keeps s t) (x1 x2) :
    Keeps s (State.updSet t x1 x2) := by
  unfold State.updSet
  try dsimp only
  repeat' (first
    | with_reducible assumption
    | with_reducible apply keeps_pwRequest
    | split)

theorem keeps_updTo {s t : State} (h : Keeps s t) (x1) :
    Keeps s (State.updTo t x1) := by
  unfold State.updTo
  try dsimp only
  repeat' (first
    | with_reducible assumption
    | with_reducible apply keeps_updSet)

theorem keeps_fabArmed {s t : State} (h : Keeps s t) :
    Keeps s (State.fabArmed t) := by
  unfold State.fabArmed
  try dsimp only
  repeat' (first
    | with_reducible assumption
    | with_reducible apply keeps_commitPends
    | with_reducible apply keeps_bset
    | with_reducible apply keeps_finishRunning
    | with_reducible apply keeps_updTo
    | split)

theorem keeps_commitIdle {s t : State} (h : Keeps s t) :
    Keeps s (State.commitIdle t) := by
  unfold State.commitIdle
  try dsimp only
  repeat' (first
    | with_reducible assumption
    | with_reducible apply keeps_set
    | with_reducible apply keeps_jobSet)

theorem keeps_memberDrops {s t : State} (h : Keeps s t) (x1 x2) :
    Keeps s (State.memberDrops t x1 x2) := by
  unfold State.memberDrops
  try dsimp only
  repeat' (first
    | with_reducible assumption
    | with_reducible apply keeps_showCmit
    | with_reducible apply keeps_commitIdle
    | with_reducible apply keeps_bset
    | with_reducible apply keeps_updTo
    | split)

theorem keeps_sendVote {s t : State} (h : Keeps s t) (x1 x2) :
    Keeps s (State.sendVote t x1 x2) := by
  unfold State.sendVote
  try dsimp only
  repeat' (first
    | with_reducible assumption
    | with_reducible apply keeps_sendCmit)

theorem keeps_cmitAll {s t : State} (h : Keeps s t) (x1 x2 x3) :
    Keeps s (State.cmitAll t x1 x2 x3) := by
  unfold State.cmitAll
  try dsimp only
  repeat' (first
    | with_reducible assumption
    | with_reducible apply keeps_each
    | with_reducible apply keeps_sendCmit
    | (intro))

theorem keeps_freezeCommits {s t : State} (h : Keeps s t) :
    Keeps s (State.freezeCommits t) := by
  unfold State.freezeCommits
  try dsimp only
  repeat' (first
    | with_reducible assumption
    | with_reducible apply keeps_memberDrops
    | with_reducible apply keeps_sendVote
    | with_reducible apply keeps_refuseRunning
    | with_reducible apply keeps_commitIdle
    | with_reducible apply keeps_cmitAll
    | with_reducible apply keeps_bset
    | with_reducible apply keeps_updTo
    | split)

theorem keeps_drainEnds {s t : State} (h : Keeps s t) :
    Keeps s (State.drainEnds t) := by
  unfold State.drainEnds
  try dsimp only
  repeat' (first
    | with_reducible assumption
    | with_reducible apply keeps_fset
    | with_reducible apply keeps_showLoad
    | with_reducible apply keeps_commitIdle
    | with_reducible apply keeps_each
    | with_reducible apply keeps_showStaged
    | with_reducible apply keeps_emit
    | with_reducible apply keeps_finishRunning
    | (intro)
    | split)

theorem keeps_startHeat {s t : State} (h : Keeps s t) (x1) :
    Keeps s (State.startHeat t x1) := by
  unfold State.startHeat
  try dsimp only
  repeat' (first
    | with_reducible assumption
    | with_reducible apply keeps_set
    | with_reducible apply keeps_put
    | with_reducible apply keeps_jobSet)

theorem keeps_drainCheck {s t : State} (h : Keeps s t) :
    Keeps s (State.drainCheck t) := by
  unfold State.drainCheck
  try dsimp only
  repeat' (first
    | with_reducible assumption
    | with_reducible apply keeps_drainEnds
    | split)

theorem keeps_fabStart {s t : State} (h : Keeps s t) (x1 x2 x3 x4 x5) :
    Keeps s (State.fabStart t x1 x2 x3 x4 x5) := by
  unfold State.fabStart
  try dsimp only
  repeat' (first
    | with_reducible assumption
    | with_reducible apply keeps_cmitAll
    | with_reducible apply keeps_showCmit
    | with_reducible apply keeps_bset)

theorem keeps_startImage {s t : State} (h : Keeps s t) (x1) :
    Keeps s (State.startImage t x1) := by
  unfold State.startImage
  try dsimp only
  repeat' (first
    | with_reducible assumption
    | with_reducible apply keeps_set
    | split)

theorem keeps_swapImages {s t : State} (h : Keeps s t) (x1 x2) :
    Keeps s (State.swapImages t x1 x2) := by
  unfold State.swapImages
  try dsimp only
  repeat' (first
    | with_reducible assumption
    | with_reducible apply keeps_startImage
    | split)

theorem keeps_fabFail {s t : State} (h : Keeps s t) (x1 x2 x3 x4) :
    Keeps s (State.fabFail t x1 x2 x3 x4) := by
  unfold State.fabFail
  try dsimp only
  repeat' (first
    | with_reducible assumption
    | with_reducible apply keeps_showCmit
    | with_reducible apply keeps_bset
    | with_reducible apply keeps_commitIdle
    | with_reducible apply keeps_cmitAll
    | with_reducible apply keeps_updTo
    | with_reducible apply keeps_finishRunning
    | split)

theorem keeps_fabDecide {s t : State} (h : Keeps s t) (x1) :
    Keeps s (State.fabDecide t x1) := by
  unfold State.fabDecide
  try dsimp only
  repeat' (first
    | with_reducible assumption
    | with_reducible apply keeps_fabFail
    | with_reducible apply keeps_finishRunning
    | with_reducible apply keeps_commitIdle
    | with_reducible apply keeps_showCmit
    | with_reducible apply keeps_bset
    | with_reducible apply keeps_cmitAll
    | with_reducible apply keeps_commitPends
    | with_reducible apply keeps_updTo
    | split)

theorem keeps_showHeat {s t : State} (h : Keeps s t) (x1 x2 x3 x4) :
    Keeps s (State.showHeat t x1 x2 x3 x4) := by
  unfold State.showHeat
  try dsimp only
  repeat' (first
    | with_reducible assumption
    | with_reducible apply keeps_put
    | with_reducible apply keeps_set)

theorem keeps_swapNow {s t : State} (h : Keeps s t) (x1) :
    Keeps s (State.swapNow t x1) := by
  unfold State.swapNow
  try dsimp only
  repeat' (first
    | with_reducible assumption
    | with_reducible apply keeps_fset
    | with_reducible apply keeps_set
    | with_reducible apply keeps_showStore
    | with_reducible apply keeps_showPairs
    | with_reducible apply keeps_edgeSwapped
    | with_reducible apply keeps_fabricSwapped
    | with_reducible apply keeps_saSwapped
    | with_reducible apply keeps_swapImages
    | with_reducible apply keeps_bset
    | split)

theorem keeps_heatEnds {s t : State} (h : Keeps s t) (x1 x2) :
    Keeps s (State.heatEnds t x1 x2).1 := by
  unfold State.heatEnds
  try dsimp only
  repeat' (first
    | with_reducible assumption
    | with_reducible apply keeps_jobSet
    | with_reducible apply keeps_showHeat
    | with_reducible apply keeps_fset)

theorem keeps_swapDue {s t : State} (h : Keeps s t) :
    Keeps s (State.swapDue t) := by
  unfold State.swapDue
  try dsimp only
  repeat' (first
    | with_reducible assumption
    | with_reducible apply keeps_swapNow
    | split)

theorem keeps_memberVotes {s t : State} (h : Keeps s t) (x1 x2) :
    Keeps s (State.memberVotes t x1 x2) := by
  unfold State.memberVotes
  try dsimp only
  repeat' (first
    | with_reducible assumption
    | with_reducible apply keeps_sendVote
    | with_reducible apply keeps_showCmit
    | with_reducible apply keeps_commitIdle
    | with_reducible apply keeps_bset
    | split)

theorem keeps_fabAdvance {s t : State} (h : Keeps s t) :
    Keeps s (State.fabAdvance t) := by
  unfold State.fabAdvance
  try dsimp only
  repeat' (first
    | with_reducible assumption
    | with_reducible apply keeps_fabDecide
    | split)

theorem keeps_mdioTake {s t : State} (h : Keeps s t) (x1) :
    Keeps s (State.mdioTake t x1) := by
  unfold State.mdioTake
  try dsimp only
  repeat' (first
    | with_reducible assumption
    | with_reducible refine Keeps.fields ?_ rfl rfl rfl)

theorem keeps_prtSet {s t : State} (h : Keeps s t) (x1 x2) :
    Keeps s (State.prtSet t x1 x2) := by
  unfold State.prtSet
  try dsimp only
  repeat' (first
    | with_reducible assumption
    | with_reducible refine Keeps.fields ?_ rfl rfl rfl)

theorem keeps_setLink {s t : State} (h : Keeps s t) (x1 x2) :
    Keeps s (State.setLink t x1 x2) := by
  unfold State.setLink
  try dsimp only
  repeat' (first
    | with_reducible assumption
    | with_reducible apply keeps_set
    | split)

theorem keeps_linkEvent {s t : State} (h : Keeps s t) (x1 x2 x3 x4) :
    Keeps s (State.linkEvent t x1 x2 x3 x4) := by
  unfold State.linkEvent
  try dsimp only
  repeat' (first
    | with_reducible assumption
    | with_reducible apply keeps_emit
    | with_reducible apply keeps_set)

theorem keeps_holdExpire {s t : State} (h : Keeps s t) (x1 x2) :
    Keeps s (State.holdExpire t x1 x2) := by
  unfold State.holdExpire
  try dsimp only
  repeat' (first
    | with_reducible assumption
    | with_reducible apply keeps_flushLearned
    | with_reducible apply keeps_flushPort
    | with_reducible apply keeps_prtSet
    | with_reducible apply keeps_setLink
    | with_reducible apply keeps_linkEvent)

theorem keeps_dropDiag {s t : State} (h : Keeps s t) (x1) :
    Keeps s (State.dropDiag t x1) := by
  unfold State.dropDiag
  try dsimp only
  repeat' (first
    | with_reducible assumption
    | with_reducible apply keeps_set
    | split)

theorem keeps_leaveUp {s t : State} (h : Keeps s t) (x1) :
    Keeps s (State.leaveUp t x1) := by
  unfold State.leaveUp
  try dsimp only
  repeat' (first
    | with_reducible assumption
    | with_reducible apply keeps_set
    | with_reducible apply keeps_adjPortDown
    | with_reducible apply keeps_mmLinkDown
    | with_reducible apply keeps_prtSet
    | split)

theorem keeps_enterUp {s t : State} (h : Keeps s t) (x1 x2 x3) :
    Keeps s (State.enterUp t x1 x2 x3) := by
  unfold State.enterUp
  try dsimp only
  repeat' (first
    | with_reducible assumption
    | with_reducible apply keeps_put
    | with_reducible apply keeps_setLink
    | with_reducible apply keeps_set
    | with_reducible apply keeps_linkEvent
    | with_reducible apply keeps_mmLinkUp
    | with_reducible apply keeps_prtSet
    | split)

theorem keeps_mdioNext {s t : State} (h : Keeps s t) (x1) :
    Keeps s (State.mdioNext t x1) := by
  unfold State.mdioNext
  try dsimp only
  repeat' (first
    | with_reducible assumption
    | with_reducible apply keeps_mdioTake
    | split
    | with_reducible refine Keeps.fields ?_ rfl rfl rfl)

theorem keeps_dropRecord {s t : State} (h : Keeps s t) (x1) :
    Keeps s (State.dropRecord t x1) := by
  unfold State.dropRecord
  try dsimp only
  repeat' (first
    | with_reducible assumption
    | with_reducible apply keeps_set)

theorem keeps_linkFail {s t : State} (h : Keeps s t) (x1 x2) :
    Keeps s (State.linkFail t x1 x2) := by
  unfold State.linkFail
  try dsimp only
  repeat' (first
    | with_reducible assumption
    | with_reducible apply keeps_inc
    | with_reducible apply keeps_setLink
    | with_reducible apply keeps_leaveUp
    | with_reducible apply keeps_prtSet
    | with_reducible apply keeps_set
    | with_reducible apply keeps_discardInTransmission
    | with_reducible apply keeps_discardReserved
    | with_reducible apply keeps_linkEvent
    | with_reducible apply keeps_holdExpire
    | split)

theorem keeps_writeRecord {s t : State} (h : Keeps s t) (x1) :
    Keeps s (State.writeRecord t x1) := by
  unfold State.writeRecord
  try dsimp only
  repeat' (first
    | with_reducible assumption
    | with_reducible apply keeps_set
    | with_reducible apply keeps_prtSet
    | with_reducible apply keeps_injSpend
    | split
    | with_reducible refine Keeps.fields ?_ rfl rfl rfl)

theorem keeps_noteNode {s t : State} (h : Keeps s t) (x1 x2) :
    Keeps s (State.noteNode t x1 x2) := by
  unfold State.noteNode
  try dsimp only
  repeat' (first
    | with_reducible assumption
    | with_reducible apply keeps_prtSet)

theorem keeps_resumeFallback {s t : State} (h : Keeps s t) (x1 x2 x3) :
    Keeps s (State.resumeFallback t x1 x2 x3) := by
  unfold State.resumeFallback
  try dsimp only
  repeat' (first
    | with_reducible assumption
    | with_reducible apply keeps_dropRecord
    | with_reducible apply keeps_set
    | with_reducible apply keeps_prtSet
    | with_reducible apply keeps_setLink
    | with_reducible apply keeps_linkEvent
    | with_reducible apply keeps_inc
    | split)

theorem keeps_resumeStart {s t : State} (h : Keeps s t) (x1 x2 x3) :
    Keeps s (State.resumeStart t x1 x2 x3) := by
  unfold State.resumeStart
  try dsimp only
  repeat' (first
    | with_reducible assumption
    | with_reducible apply keeps_prtSet
    | with_reducible apply keeps_setLink
    | with_reducible apply keeps_resumeFallback
    | split)

theorem keeps_putMdi {s t : State} (h : Keeps s t) (x1 x2) :
    Keeps s (State.putMdi t x1 x2) := by
  unfold State.putMdi
  try dsimp only
  repeat' (first
    | with_reducible assumption
    | with_reducible refine Keeps.fields ?_ rfl rfl rfl)

theorem keeps_leaveIfUp {s t : State} (h : Keeps s t) (x1) :
    Keeps s (State.leaveIfUp t x1) := by
  unfold State.leaveIfUp
  try dsimp only
  repeat' (first
    | with_reducible assumption
    | with_reducible apply keeps_leaveUp
    | split)

theorem keeps_portToOff {s t : State} (h : Keeps s t) (x1) :
    Keeps s (State.portToOff t x1) := by
  unfold State.portToOff
  try dsimp only
  repeat' (first
    | with_reducible assumption
    | with_reducible apply keeps_prtSet
    | with_reducible apply keeps_setLink
    | with_reducible apply keeps_dropDiag
    | with_reducible apply keeps_putMdi
    | with_reducible apply keeps_dropRecord
    | with_reducible apply keeps_flushLearned
    | with_reducible apply keeps_flushPort
    | with_reducible apply keeps_leaveIfUp)

theorem keeps_portSleep {s t : State} (h : Keeps s t) (x1) :
    Keeps s (State.portSleep t x1) := by
  unfold State.portSleep
  try dsimp only
  repeat' (first
    | with_reducible assumption
    | with_reducible apply keeps_writeRecord
    | with_reducible apply keeps_prtSet
    | with_reducible apply keeps_setLink
    | with_reducible apply keeps_flushLearned
    | with_reducible apply keeps_flushPort
    | with_reducible apply keeps_leaveUp)

theorem keeps_noteOwn {s t : State} (h : Keeps s t) (x1) :
    Keeps s (State.noteOwn t x1) := by
  unfold State.noteOwn
  try dsimp only
  repeat' (first
    | with_reducible assumption
    | with_reducible apply keeps_noteNode
    | split)

theorem keeps_portLeaveOff {s t : State} (h : Keeps s t) (x1) :
    Keeps s (State.portLeaveOff t x1) := by
  unfold State.portLeaveOff
  try dsimp only
  repeat' (first
    | with_reducible assumption
    | with_reducible apply keeps_enterUp
    | with_reducible apply keeps_putMdi
    | with_reducible apply keeps_setLink
    | split)

theorem keeps_portWake {s t : State} (h : Keeps s t) (x1) :
    Keeps s (State.portWake t x1) := by
  unfold State.portWake
  try dsimp only
  repeat' (first
    | with_reducible assumption
    | with_reducible apply keeps_setLink
    | with_reducible apply keeps_prtSet
    | with_reducible apply keeps_portLeaveOff
    | split)

theorem keeps_resumeUp {s t : State} (h : Keeps s t) (x1) :
    Keeps s (State.resumeUp t x1) := by
  unfold State.resumeUp
  try dsimp only
  repeat' (first
    | with_reducible assumption
    | with_reducible apply keeps_enterUp
    | with_reducible apply keeps_inc
    | with_reducible apply keeps_dropRecord
    | with_reducible apply keeps_set)

theorem keeps_fstStart {s t : State} (h : Keeps s t) :
    Keeps s (State.fstStart t) := by
  unfold State.fstStart
  try dsimp only
  repeat' (first
    | with_reducible assumption
    | with_reducible apply keeps_fset
    | with_reducible apply keeps_set
    | with_reducible apply keeps_writeWord
    | split)

theorem keeps_clearRegs {s t : State} (h : Keeps s t) (x1 x2) :
    Keeps s (State.clearRegs t x1 x2) := by
  unfold State.clearRegs
  try dsimp only
  repeat' (first
    | with_reducible assumption
    | with_reducible refine Keeps.dropped _ ?_ rfl rfl)

theorem keeps_dramLost {s t : State} (h : Keeps s t) :
    Keeps s (State.dramLost t) := by
  unfold State.dramLost
  try dsimp only
  repeat' (first
    | with_reducible assumption
    | with_reducible apply keeps_clearRegs
    | with_reducible refine Keeps.fields ?_ rfl rfl rfl)

theorem keeps_coxLost {s t : State} (h : Keeps s t) :
    Keeps s (State.coxLost t) := by
  unfold State.coxLost
  try dsimp only
  repeat' (first
    | with_reducible assumption
    | with_reducible refine Keeps.dropped _ ?_ rfl rfl)

theorem keeps_timeLost {s t : State} (h : Keeps s t) :
    Keeps s (State.timeLost t) := by
  unfold State.timeLost
  try dsimp only
  repeat' (first
    | with_reducible assumption
    | with_reducible apply keeps_clearRegs
    | with_reducible apply keeps_showFabric
    | with_reducible apply keeps_each
    | with_reducible apply keeps_gatesFollow
    | (intro)
    | with_reducible refine Keeps.fields ?_ rfl rfl rfl)

theorem keeps_fabricLost {s t : State} (h : Keeps s t) :
    Keeps s (State.fabricLost t) := by
  unfold State.fabricLost
  try dsimp only
  repeat' (first
    | with_reducible assumption
    | with_reducible apply keeps_clearRegs
    | with_reducible apply keeps_fset
    | with_reducible apply keeps_each
    | with_reducible apply keeps_showStaged
    | (intro)
    | with_reducible refine Keeps.fields ?_ rfl rfl rfl)

theorem keeps_stagedLost {s t : State} (h : Keeps s t) (x1) :
    Keeps s (State.stagedLost t x1) := by
  unfold State.stagedLost
  try dsimp only
  repeat' (first
    | with_reducible assumption
    | with_reducible apply keeps_fset
    | with_reducible apply keeps_each
    | with_reducible apply keeps_showStaged
    | (intro))

theorem keeps_umpLost {s t : State} (h : Keeps s t) :
    Keeps s (State.umpLost t) := by
  unfold State.umpLost
  try dsimp only
  repeat' (first
    | with_reducible assumption
    | with_reducible apply keeps_fset
    | with_reducible apply keeps_add
    | with_reducible apply keeps_stagedLost
    | with_reducible apply keeps_clearRegs
    | with_reducible refine Keeps.fields ?_ rfl rfl rfl)

theorem keeps_loadBanks {s t : State} (h : Keeps s t) (x1 x2) :
    Keeps s (State.loadBanks t x1 x2) := by
  unfold State.loadBanks
  try dsimp only
  repeat' (first
    | with_reducible assumption
    | with_reducible apply keeps_fset
    | with_reducible apply keeps_each
    | with_reducible apply keeps_showStaged
    | (intro))

theorem keeps_edgeLost {s t : State} (h : Keeps s t) :
    Keeps s (State.edgeLost t) := by
  unfold State.edgeLost
  try dsimp only
  repeat' (first
    | with_reducible assumption
    | with_reducible apply keeps_loadBanks
    | with_reducible apply keeps_clearRegs
    | with_reducible refine Keeps.fields ?_ rfl rfl rfl)

theorem keeps_keyLost {s t : State} (h : Keeps s t) :
    Keeps s (State.keyLost t) := by
  unfold State.keyLost
  try dsimp only
  repeat' (first
    | with_reducible assumption
    | with_reducible apply keeps_kset
    | with_reducible apply keeps_stagedLost
    | with_reducible apply keeps_fset
    | with_reducible apply keeps_clearRegs)

theorem keeps_hostLost {s t : State} (h : Keeps s t) :
    Keeps s (State.hostLost t) := by
  unfold State.hostLost
  try dsimp only
  repeat' (first
    | with_reducible assumption
    | with_reducible apply keeps_clearRegs
    | with_reducible refine Keeps.fields ?_ rfl rfl rfl)

theorem keeps_dramForgets {s t : State} (h : Keeps s t) :
    Keeps s (State.dramForgets t) := by
  unfold State.dramForgets
  try dsimp only
  repeat' (first
    | with_reducible assumption
    | with_reducible apply keeps_each
    | with_reducible apply keeps_set
    | (intro)
    | with_reducible refine Keeps.fields ?_ rfl rfl rfl)

theorem keeps_mdioLost {s t : State} (h : Keeps s t) (x1) :
    Keeps s (State.mdioLost t x1) := by
  unfold State.mdioLost
  try dsimp only
  repeat' (first
    | with_reducible assumption
    | with_reducible apply keeps_mdioNext
    | split
    | with_reducible refine Keeps.fields ?_ rfl rfl rfl)

theorem keeps_assemblyLost {s t : State} (h : Keeps s t) (x1) :
    Keeps s (State.assemblyLost t x1) := by
  unfold State.assemblyLost
  try dsimp only
  repeat' (first
    | with_reducible assumption
    | with_reducible apply keeps_each
    | with_reducible apply keeps_frerSettle
    | with_reducible apply keeps_adjustCharge
    | with_reducible apply keeps_fset
    | with_reducible apply keeps_readHandle
    | with_reducible apply keeps_freeIfDone
    | with_reducible apply keeps_abortCopies
    | with_reducible apply keeps_markBad
    | (intro)
    | split)

theorem keeps_portLost {s t : State} (h : Keeps s t) (x1) :
    Keeps s (State.portLost t x1) := by
  unfold State.portLost
  try dsimp only
  repeat' (first
    | with_reducible assumption
    | with_reducible apply keeps_dropRecord
    | with_reducible apply keeps_flushLearned
    | with_reducible apply keeps_flushPort
    | with_reducible apply keeps_leaveIfUp
    | with_reducible apply keeps_prtSet
    | with_reducible apply keeps_putMdi
    | with_reducible apply keeps_clearRegs
    | with_reducible apply keeps_mdioLost
    | with_reducible apply keeps_assemblyLost
    | split)

theorem keeps_domainLost {s t : State} (h : Keeps s t) (x1) :
    Keeps s (State.domainLost t x1) := by
  unfold State.domainLost
  try dsimp only
  repeat' (first
    | with_reducible assumption
    | with_reducible apply keeps_coxLost
    | with_reducible apply keeps_timeLost
    | with_reducible apply keeps_fabricLost
    | with_reducible apply keeps_umpLost
    | with_reducible apply keeps_edgeLost
    | with_reducible apply keeps_keyLost
    | with_reducible apply keeps_hostLost
    | with_reducible apply keeps_dramLost
    | with_reducible apply keeps_dramForgets
    | with_reducible apply keeps_set
    | with_reducible apply keeps_each
    | with_reducible apply keeps_portLost
    | (intro)
    | split
    | with_reducible refine Keeps.fields ?_ rfl rfl rfl)

theorem keeps_writeImage {s t : State} (h : Keeps s t) (x1) :
    Keeps s (State.writeImage t x1) := by
  unfold State.writeImage
  try dsimp only
  repeat' (first
    | with_reducible assumption
    | with_reducible apply keeps_dramTaken
    | with_reducible refine Keeps.fields ?_ rfl rfl rfl)

theorem keeps_refreshImages {s t : State} (h : Keeps s t) :
    Keeps s (State.refreshImages t) := by
  unfold State.refreshImages
  try dsimp only
  repeat' (first
    | with_reducible assumption
    | with_reducible apply keeps_each
    | with_reducible apply keeps_set
    | with_reducible apply keeps_writeImage
    | (intro)
    | split)

theorem keeps_resumeSas {s t : State} (h : Keeps s t) :
    Keeps s (State.resumeSas t) := by
  unfold State.resumeSas
  try dsimp only
  repeat' (first
    | with_reducible assumption
    | with_reducible apply keeps_each
    | with_reducible apply keeps_kset
    | with_reducible apply keeps_restorePn
    | with_reducible apply keeps_showMac
    | (intro))

theorem keeps_tablesLack {s t : State} (h : Keeps s t) (x1) :
    Keeps s (State.tablesLack t x1) := by
  unfold State.tablesLack
  try dsimp only
  repeat' (first
    | with_reducible assumption
    | split
    | with_reducible refine Keeps.fields ?_ rfl rfl rfl)

theorem keeps_unitTaken {s t : State} (h : Keeps s t) (x1) :
    Keeps s (State.unitTaken t x1) := by
  unfold State.unitTaken
  try dsimp only
  repeat' (first
    | with_reducible assumption
    | with_reducible apply keeps_routesLoaded
    | with_reducible apply keeps_resumeSas
    | split)

theorem keeps_unitStarts {s t : State} (h : Keeps s t) (x1) :
    Keeps s (State.unitStarts t x1) := by
  unfold State.unitStarts
  try dsimp only
  repeat' (first
    | with_reducible assumption
    | with_reducible apply keeps_resumeSas
    | with_reducible apply keeps_set
    | with_reducible apply keeps_tablesLack
    | with_reducible apply keeps_unitTaken
    | with_reducible apply keeps_loadBanks
    | split
    | with_reducible refine Keeps.fields ?_ rfl rfl rfl)

theorem keeps_clearIsland {s t : State} (h : Keeps s t) (x1 x2) :
    Keeps s (State.clearIsland t x1 x2) := by
  unfold State.clearIsland
  try dsimp only
  repeat' (first
    | with_reducible assumption
    | with_reducible apply keeps_fabricLost
    | with_reducible apply keeps_umpLost
    | with_reducible apply keeps_timeLost
    | with_reducible apply keeps_edgeLost
    | with_reducible apply keeps_kset
    | with_reducible apply keeps_keyLost
    | with_reducible apply keeps_hostLost
    | with_reducible apply keeps_dramLost
    | with_reducible apply keeps_portLost
    | split
    | with_reducible refine Keeps.fields ?_ rfl rfl rfl)

theorem keeps_sendTc10 {s t : State} (h : Keeps s t) (x1 x2) :
    Keeps s (State.sendTc10 t x1 x2) := by
  unfold State.sendTc10
  try dsimp only
  repeat' (first
    | with_reducible assumption
    | with_reducible refine Keeps.fields ?_ rfl rfl rfl)

theorem keeps_dramPowerUp {s t : State} (h : Keeps s t) :
    Keeps s (State.dramPowerUp t) := by
  unfold State.dramPowerUp
  try dsimp only
  repeat' (first
    | with_reducible assumption
    | with_reducible apply keeps_wr
    | split
    | with_reducible refine Keeps.fields ?_ rfl rfl rfl)

theorem keeps_fstReady {s t : State} (h : Keeps s t) :
    Keeps s (State.fstReady t) := by
  unfold State.fstReady
  try dsimp only
  repeat' (first
    | with_reducible assumption
    | with_reducible apply keeps_each
    | with_reducible apply keeps_set
    | with_reducible apply keeps_showStore
    | (intro))

theorem keeps_storesCleared {s t : State} (h : Keeps s t) :
    Keeps s (State.storesCleared t) := by
  unfold State.storesCleared
  try dsimp only
  repeat' (first
    | with_reducible assumption
    | with_reducible refine Keeps.fields ?_ rfl rfl rfl)

theorem keeps_rstCleared {s t : State} (h : Keeps s t) :
    Keeps s (State.rstCleared t) := by
  unfold State.rstCleared
  try dsimp only
  repeat' (first
    | with_reducible assumption
    | split
    | with_reducible refine Keeps.fields ?_ rfl rfl rfl)

theorem keeps_recordReset {s t : State} (h : Keeps s t) (x1) :
    Keeps s (State.recordReset t x1) := by
  unfold State.recordReset
  try dsimp only
  repeat' (first
    | with_reducible assumption
    | with_reducible apply keeps_set
    | with_reducible apply keeps_incWrap
    | split)

theorem keeps_fabricRestored {s t : State} (h : Keeps s t) :
    Keeps s (State.fabricRestored t) := by
  unfold State.fabricRestored
  try dsimp only
  repeat' (first
    | with_reducible assumption
    | with_reducible apply keeps_showPairs
    | with_reducible apply keeps_each
    | with_reducible apply keeps_gateRecompute
    | with_reducible apply keeps_showFabric
    | with_reducible apply keeps_fstStart
    | (intro)
    | split)

theorem keeps_bootBridge {s t : State} (h : Keeps s t) :
    Keeps s (State.bootBridge t) := by
  unfold State.bootBridge
  try dsimp only
  repeat' (first
    | with_reducible assumption
    | with_reducible apply keeps_wr
    | with_reducible apply keeps_set
    | with_reducible apply keeps_showFabric
    | split
    | with_reducible refine Keeps.fields ?_ rfl rfl rfl)

theorem keeps_unitsCleared {s t : State} (h : Keeps s t) (x1) :
    Keeps s (State.unitsCleared t x1) := by
  unfold State.unitsCleared
  try dsimp only
  repeat' (first
    | with_reducible assumption
    | with_reducible refine Keeps.fields ?_ rfl rfl rfl)

theorem keeps_clearDevice {s t : State} (h : Keeps s t) (x1) :
    Keeps s (State.clearDevice t x1) := by
  unfold State.clearDevice
  try dsimp only
  repeat' (first
    | with_reducible assumption
    | with_reducible apply keeps_rstCleared
    | with_reducible apply keeps_storesCleared
    | with_reducible apply keeps_unitsCleared
    | with_reducible apply keeps_dramForgets
    | with_reducible apply keeps_recordReset
    | with_reducible apply keeps_set
    | with_reducible apply keeps_holdFaultN
    | split
    | with_reducible refine Keeps.dropped _ ?_ rfl rfl)

theorem keeps_pcieLink {s t : State} (h : Keeps s t) (x1) :
    Keeps s (State.pcieLink t x1) := by
  unfold State.pcieLink
  try dsimp only
  repeat' (first
    | with_reducible assumption
    | with_reducible apply keeps_set
    | split)

theorem keeps_restoreWord {s t : State} (h : Keeps s t) (x1 x2) :
    Keeps s (State.restoreWord t x1 x2) := by
  unfold State.restoreWord
  try dsimp only
  repeat' (first
    | with_reducible assumption
    | with_reducible apply keeps_wr)

theorem keeps_restoreImage {s t : State} (h : Keeps s t) (x1) :
    Keeps s (State.restoreImage t x1) := by
  unfold State.restoreImage
  try dsimp only
  repeat' (first
    | with_reducible assumption
    | with_reducible apply keeps_fset
    | with_reducible apply keeps_loadBanks
    | with_reducible apply keeps_fabricRestored
    | with_reducible apply keeps_each
    | with_reducible apply keeps_restoreWord
    | (intro)
    | split
    | with_reducible refine Keeps.fields ?_ rfl rfl rfl)

theorem keeps_portPowerGood {s t : State} (h : Keeps s t) (x1) :
    Keeps s (State.portPowerGood t x1) := by
  unfold State.portPowerGood
  try dsimp only
  repeat' (first
    | with_reducible assumption
    | with_reducible apply keeps_prtSet
    | with_reducible apply keeps_clearRegs
    | with_reducible apply keeps_putMdi
    | with_reducible apply keeps_portLeaveOff
    | split)

theorem keeps_islandStarts {s t : State} (h : Keeps s t) (x1 x2) :
    Keeps s (State.islandStarts t x1 x2) := by
  unfold State.islandStarts
  try dsimp only
  repeat' (first
    | with_reducible assumption
    | with_reducible apply keeps_bootBridge
    | with_reducible apply keeps_fset
    | with_reducible apply keeps_unitStarts
    | with_reducible apply keeps_firstSeed
    | split)

theorem keeps_pset {s t : State} (h : Keeps s t) (x1) :
    Keeps s (State.pset t x1) := by
  unfold State.pset
  try dsimp only
  repeat' (first
    | with_reducible assumption
    | with_reducible refine Keeps.fields ?_ rfl rfl rfl)

theorem keeps_flashPut {s t : State} (h : Keeps s t) (x1 x2) :
    Keeps s (State.flashPut t x1 x2) := by
  unfold State.flashPut
  try dsimp only
  repeat' (first
    | with_reducible assumption
    | with_reducible apply keeps_pset)

theorem keeps_journalOff {s t : State} (h : Keeps s t) :
    Keeps s (State.journalOff t) := by
  unfold State.journalOff
  try dsimp only
  repeat' (first
    | with_reducible assumption
    | with_reducible apply keeps_flashPut)

theorem keeps_journalPut {s t : State} (h : Keeps s t) (x1) :
    Keeps s (State.journalPut t x1) := by
  unfold State.journalPut
  try dsimp only
  repeat' (first
    | with_reducible assumption
    | with_reducible apply keeps_pset
    | with_reducible apply keeps_flashPut)

theorem keeps_journalFirst {s t : State} (h : Keeps s t) :
    Keeps s (State.journalFirst t) := by
  unfold State.journalFirst
  try dsimp only
  repeat' (first
    | with_reducible assumption
    | with_reducible apply keeps_journalPut
    | split)

theorem keeps_measured {s t : State} (h : Keeps s t) (x1) :
    Keeps s (State.measured t x1) := by
  unfold State.measured
  try dsimp only
  repeat' (first
    | with_reducible assumption
    | split
    | with_reducible refine Keeps.fields ?_ rfl rfl rfl)

theorem keeps_stageTables {s t : State} (h : Keeps s t) (x1) :
    Keeps s (State.stageTables t x1) := by
  unfold State.stageTables
  try dsimp only
  repeat' (first
    | with_reducible assumption
    | with_reducible apply keeps_fset
    | with_reducible apply keeps_each
    | with_reducible apply keeps_showStaged
    | with_reducible apply keeps_measured
    | (intro))

theorem keeps_blockSpoiled {s t : State} (h : Keeps s t) :
    Keeps s (State.blockSpoiled t) := by
  unfold State.blockSpoiled
  try dsimp only
  repeat' (first
    | with_reducible assumption
    | with_reducible apply keeps_free
    | with_reducible apply keeps_pset
    | with_reducible apply keeps_flashPut
    | split)

theorem keeps_storeCause {s t : State} (h : Keeps s t) (x1) :
    Keeps s (State.storeCause t x1) := by
  unfold State.storeCause
  try dsimp only
  repeat' (first
    | with_reducible assumption
    | with_reducible apply keeps_pwFlush
    | with_reducible apply keeps_updSet)

theorem keeps_fcgSet {s t : State} (h : Keeps s t) (x1) :
    Keeps s (State.fcgSet t x1) := by
  unfold State.fcgSet
  try dsimp only
  repeat' (first
    | with_reducible assumption
    | with_reducible apply keeps_set)

theorem keeps_updCommitted {s t : State} (h : Keeps s t) :
    Keeps s (State.updCommitted t) := by
  unfold State.updCommitted
  try dsimp only
  repeat' (first
    | with_reducible assumption
    | with_reducible apply keeps_pwRequest
    | with_reducible apply keeps_updTo
    | with_reducible apply keeps_pset
    | with_reducible apply keeps_journalOff)

theorem keeps_fabConfirmed {s t : State} (h : Keeps s t) :
    Keeps s (State.fabConfirmed t) := by
  unfold State.fabConfirmed
  try dsimp only
  repeat' (first
    | with_reducible assumption
    | with_reducible apply keeps_fcgSet
    | with_reducible apply keeps_updCommitted
    | with_reducible apply keeps_cmitAll
    | with_reducible apply keeps_bset
    | split)

theorem keeps_launchIdles {s t : State} (h : Keeps s t) (x1) :
    Keeps s (State.launchIdles t x1) := by
  unfold State.launchIdles
  try dsimp only
  repeat' (first
    | with_reducible assumption
    | with_reducible apply keeps_updTo
    | split)

theorem keeps_progress {s t : State} (h : Keeps s t) (x1 x2) :
    Keeps s (State.progress t x1 x2) := by
  unfold State.progress
  try dsimp only
  repeat' (first
    | with_reducible assumption
    | with_reducible apply keeps_set)

theorem keeps_replayed {s t : State} (h : Keeps s t) :
    Keeps s (State.replayed t) := by
  unfold State.replayed
  try dsimp only
  repeat' (first
    | with_reducible assumption
    | with_reducible apply keeps_journalOff
    | with_reducible apply keeps_each
    | with_reducible apply keeps_flashPut
    | with_reducible apply keeps_updTo
    | with_reducible apply keeps_progress
    | with_reducible apply keeps_pset
    | (intro))

theorem keeps_dropActivation {s t : State} (h : Keeps s t) :
    Keeps s (State.dropActivation t) := by
  unfold State.dropActivation
  try dsimp only
  repeat' (first
    | with_reducible assumption
    | with_reducible apply keeps_commitIdle
    | with_reducible apply keeps_bset
    | split)

theorem keeps_flashWritten {s t : State} (h : Keeps s t) :
    Keeps s (State.flashWritten t) := by
  unfold State.flashWritten
  try dsimp only
  repeat' (first
    | with_reducible assumption
    | with_reducible apply keeps_set
    | with_reducible apply keeps_pset
    | with_reducible apply keeps_flashPut
    | with_reducible apply keeps_updTo
    | split)

theorem keeps_sayReverted {s t : State} (h : Keeps s t) :
    Keeps s (State.sayReverted t) := by
  unfold State.sayReverted
  try dsimp only
  repeat' (first
    | with_reducible assumption
    | with_reducible apply keeps_emit
    | with_reducible apply keeps_pset
    | split)

theorem keeps_healthConfirm {s t : State} (h : Keeps s t) :
    Keeps s (State.healthConfirm t) := by
  unfold State.healthConfirm
  try dsimp only
  repeat' (first
    | with_reducible assumption
    | with_reducible apply keeps_sendCmit
    | with_reducible apply keeps_updTo
    | with_reducible apply keeps_updCommitted
    | with_reducible apply keeps_fabConfirmed
    | with_reducible apply keeps_bset
    | split)

theorem keeps_tablesCommit {s t : State} (h : Keeps s t) :
    Keeps s (State.tablesCommit t) := by
  unfold State.tablesCommit
  try dsimp only
  repeat' (first
    | with_reducible assumption
    | with_reducible apply keeps_stageTables
    | with_reducible apply keeps_startHeat
    | split
    | with_reducible refine Keeps.fields ?_ rfl rfl rfl)

theorem keeps_beginRevert {s t : State} (h : Keeps s t) (x1) :
    Keeps s (State.beginRevert t x1) := by
  unfold State.beginRevert
  try dsimp only
  repeat' (first
    | with_reducible assumption
    | with_reducible apply keeps_pset
    | with_reducible apply keeps_dropActivation
    | with_reducible apply keeps_updSet
    | with_reducible apply keeps_progress)

theorem keeps_measure {s t : State} (h : Keeps s t) :
    Keeps s (State.measure t) := by
  unfold State.measure
  try dsimp only
  repeat' (first
    | with_reducible assumption
    | with_reducible apply keeps_each
    | with_reducible apply keeps_measured
    | (intro)
    | split
    | with_reducible refine Keeps.fields ?_ rfl rfl rfl)

theorem keeps_copyKept {s t : State} (h : Keeps s t) :
    Keeps s (State.copyKept t) := by
  unfold State.copyKept
  try dsimp only
  repeat' (first
    | with_reducible assumption
    | with_reducible apply keeps_pset
    | split)

theorem keeps_toPower {s t : State} (h : Keeps s t) (x1) :
    Keeps s (State.toPower t x1) := by
  unfold State.toPower
  try dsimp only
  repeat' (first
    | with_reducible assumption
    | with_reducible apply keeps_emit
    | with_reducible apply keeps_set)

theorem keeps_finishSwitch {s t : State} (h : Keeps s t) :
    Keeps s (State.finishSwitch t) := by
  unfold State.finishSwitch
  try dsimp only
  repeat' (first
    | with_reducible assumption
    | with_reducible apply keeps_toPower
    | with_reducible apply keeps_finishRunning
    | split
    | with_reducible refine Keeps.fields ?_ rfl rfl rfl)

theorem keeps_domainOff {s t : State} (h : Keeps s t) (x1) :
    Keeps s (State.domainOff t x1) := by
  unfold State.domainOff
  try dsimp only
  repeat' (first
    | with_reducible assumption
    | with_reducible apply keeps_saveTime
    | with_reducible apply keeps_savePns
    | with_reducible apply keeps_set
    | with_reducible apply keeps_domainLost
    | split)

theorem keeps_switchDomains {s t : State} (h : Keeps s t) (x1) :
    Keeps s (State.switchDomains t x1) := by
  unfold State.switchDomains
  try dsimp only
  repeat' (first
    | with_reducible assumption
    | with_reducible apply keeps_each
    | with_reducible apply keeps_domainOff
    | (intro)
    | with_reducible refine Keeps.fields ?_ rfl rfl rfl)

theorem keeps_settleSwitch {s t : State} (h : Keeps s t) :
    Keeps s (State.settleSwitch t) := by
  unfold State.settleSwitch
  try dsimp only
  repeat' (first
    | with_reducible assumption
    | with_reducible apply keeps_finishSwitch
    | with_reducible apply keeps_switchDomains
    | split)

theorem keeps_sleepRecords {s t : State} (h : Keeps s t) :
    Keeps s (State.sleepRecords t) := by
  unfold State.sleepRecords
  try dsimp only
  repeat' (first
    | with_reducible assumption
    | with_reducible apply keeps_each
    | with_reducible apply keeps_writeRecord
    | with_reducible apply keeps_dropRecord
    | (intro)
    | split)

theorem keeps_askSleep {s t : State} (h : Keeps s t) (x1) :
    Keeps s (State.askSleep t x1) := by
  unfold State.askSleep
  try dsimp only
  repeat' (first
    | with_reducible assumption
    | with_reducible apply keeps_each
    | with_reducible apply keeps_sendTc10
    | with_reducible apply keeps_portSleep
    | (intro)
    | split)

theorem keeps_forwardPorts {s t : State} (h : Keeps s t) :
    Keeps s (State.forwardPorts t) := by
  unfold State.forwardPorts
  try dsimp only
  repeat' (first
    | with_reducible assumption
    | with_reducible apply keeps_each
    | with_reducible apply keeps_sendTc10
    | (intro)
    | with_reducible refine Keeps.fields ?_ rfl rfl rfl)

theorem keeps_forwardTc10 {s t : State} (h : Keeps s t) :
    Keeps s (State.forwardTc10 t) := by
  unfold State.forwardTc10
  try dsimp only
  repeat' (first
    | with_reducible assumption
    | with_reducible apply keeps_forwardPorts
    | with_reducible refine Keeps.fields ?_ rfl rfl rfl)

theorem keeps_domainsFollow {s t : State} (h : Keeps s t) :
    Keeps s (State.domainsFollow t) := by
  unfold State.domainsFollow
  try dsimp only
  repeat' (first
    | with_reducible assumption
    | with_reducible apply keeps_switchDomains
    | split)

theorem keeps_abortEntry {s t : State} (h : Keeps s t) (x1 x2) :
    Keeps s (State.abortEntry t x1 x2) := by
  unfold State.abortEntry
  try dsimp only
  repeat' (first
    | with_reducible assumption
    | with_reducible apply keeps_wr
    | with_reducible apply keeps_free
    | with_reducible apply keeps_emit
    | with_reducible apply keeps_set
    | with_reducible apply keeps_each
    | with_reducible apply keeps_sendTc10
    | with_reducible apply keeps_portWake
    | with_reducible apply keeps_domainsFollow
    | (intro)
    | split
    | with_reducible refine Keeps.fields ?_ rfl rfl rfl)

theorem keeps_faultInEntry {s t : State} (h : Keeps s t) :
    Keeps s (State.faultInEntry t) := by
  unfold State.faultInEntry
  try dsimp only
  repeat' (first
    | with_reducible assumption
    | with_reducible apply keeps_abortEntry
    | split
    | with_reducible refine Keeps.fields ?_ rfl rfl rfl)

theorem keeps_startSwitch {s t : State} (h : Keeps s t) (x1) :
    Keeps s (State.startSwitch t x1) := by
  unfold State.startSwitch
  try dsimp only
  repeat' (first
    | with_reducible assumption
    | with_reducible apply keeps_askSleep
    | split
    | with_reducible refine Keeps.fields ?_ rfl rfl rfl)

theorem keeps_forwardWake {s t : State} (h : Keeps s t) (x1) :
    Keeps s (State.forwardWake t x1) := by
  unfold State.forwardWake
  try dsimp only
  repeat' (first
    | with_reducible assumption
    | split
    | with_reducible refine Keeps.fields ?_ rfl rfl rfl)

theorem keeps_enterSleepEntry {s t : State} (h : Keeps s t) :
    Keeps s (State.enterSleepEntry t) := by
  unfold State.enterSleepEntry
  try dsimp only
  repeat' (first
    | with_reducible assumption
    | with_reducible apply keeps_toPower
    | with_reducible apply keeps_askSleep
    | with_reducible apply keeps_sleepRecords
    | with_reducible refine Keeps.fields ?_ rfl rfl rfl)

theorem keeps_powerRequest {s t : State} (h : Keeps s t) (x1) :
    Keeps s (State.powerRequest t x1) := by
  unfold State.powerRequest
  try dsimp only
  repeat' (first
    | with_reducible assumption
    | with_reducible apply keeps_abortEntry
    | with_reducible apply keeps_enterSleepEntry
    | with_reducible apply keeps_startSwitch
    | split)

theorem keeps_recordWake {s t : State} (h : Keeps s t) (x1 x2 x3 x4 x5) :
    Keeps s (State.recordWake t x1 x2 x3 x4 x5) := by
  unfold State.recordWake
  try dsimp only
  repeat' (first
    | with_reducible assumption
    | with_reducible apply keeps_set)

theorem keeps_wakeUnits {s t : State} (h : Keeps s t) (x1) :
    Keeps s (State.wakeUnits t x1) := by
  unfold State.wakeUnits
  try dsimp only
  repeat' (first
    | with_reducible assumption
    | with_reducible refine Keeps.fields ?_ rfl rfl rfl)

theorem keeps_startIdleTimer {s t : State} (h : Keeps s t) :
    Keeps s (State.startIdleTimer t) := by
  unfold State.startIdleTimer
  try dsimp only
  repeat' (first
    | with_reducible assumption
    | with_reducible refine Keeps.fields ?_ rfl rfl rfl)

theorem keeps_beginWake {s t : State} (h : Keeps s t) (x1 x2 x3 x4 x5) :
    Keeps s (State.beginWake t x1 x2 x3 x4 x5) := by
  unfold State.beginWake
  try dsimp only
  repeat' (first
    | with_reducible assumption
    | with_reducible apply keeps_set
    | with_reducible apply keeps_recordWake
    | with_reducible apply keeps_incWrap
    | with_reducible apply keeps_clearWord
    | with_reducible apply keeps_wakeUnits
    | with_reducible apply keeps_holdFaultN
    | with_reducible apply keeps_startIdleTimer
    | with_reducible apply keeps_forwardTc10
    | with_reducible apply keeps_forwardWake)

theorem keeps_imgReleases {s t : State} (h : Keeps s t) (x1) :
    Keeps s (State.imgReleases t x1) := by
  unfold State.imgReleases
  try dsimp only
  repeat' (first
    | with_reducible assumption
    | with_reducible apply keeps_settleSwitch
    | with_reducible apply keeps_domainOff
    | split)

theorem keeps_wakeEvent {s t : State} (h : Keeps s t) (x1 x2) :
    Keeps s (State.wakeEvent t x1 x2) := by
  unfold State.wakeEvent
  try dsimp only
  repeat' (first
    | with_reducible assumption
    | with_reducible apply keeps_beginWake
    | with_reducible apply keeps_startIdleTimer
    | with_reducible apply keeps_forwardTc10
    | with_reducible apply keeps_forwardWake
    | with_reducible apply keeps_recordWake
    | with_reducible apply keeps_startSwitch
    | with_reducible apply keeps_emit
    | with_reducible apply keeps_abortEntry
    | split
    | with_reducible refine Keeps.fields ?_ rfl rfl rfl)

theorem keeps_stageCleared {s t : State} (h : Keeps s t) :
    Keeps s (State.stageCleared t) := by
  unfold State.stageCleared
  try dsimp only
  repeat' (first
    | with_reducible assumption
    | with_reducible refine Keeps.fields ?_ rfl rfl rfl)

theorem keeps_updLoaded {s t : State} (h : Keeps s t) (x1 x2 x3 x4) :
    Keeps s (State.updLoaded t x1 x2 x3 x4).1 := by
  unfold State.updLoaded
  try dsimp only
  repeat' (first
    | with_reducible assumption
    | with_reducible apply keeps_dramPut
    | with_reducible apply keeps_stageCleared
    | with_reducible apply keeps_updTo
    | split)

theorem keeps_updDramOff {s t : State} (h : Keeps s t) :
    Keeps s (State.updDramOff t) := by
  unfold State.updDramOff
  try dsimp only
  repeat' (first
    | with_reducible assumption
    | with_reducible apply keeps_domainOff
    | split)

theorem keeps_updLoadGoes {s t : State} (h : Keeps s t) :
    Keeps s (State.updLoadGoes t) := by
  unfold State.updLoadGoes
  try dsimp only
  repeat' (first
    | with_reducible assumption
    | with_reducible apply keeps_updLoaded
    | with_reducible apply keeps_updDramOff
    | with_reducible apply keeps_finishRunning
    | with_reducible apply keeps_refuseRunning
    | split)

theorem keeps_keyOff {s t : State} (h : Keeps s t) :
    Keeps s (State.keyOff t) := by
  unfold State.keyOff
  try dsimp only
  repeat' (first
    | with_reducible assumption
    | with_reducible apply keeps_domainOff
    | split)

theorem keeps_recErrLoc {s t : State} (h : Keeps s t) (x1) :
    Keeps s (State.recErrLoc t x1) := by
  unfold State.recErrLoc
  try dsimp only
  repeat' (first
    | with_reducible assumption
    | with_reducible apply keeps_set
    | split)

theorem keeps_faultBit {s t : State} (h : Keeps s t) (x1) :
    Keeps s (State.faultBit t x1) := by
  unfold State.faultBit
  try dsimp only
  repeat' (first
    | with_reducible assumption
    | with_reducible apply keeps_setFaultBit
    | with_reducible apply keeps_faultInEntry
    | with_reducible apply keeps_recFaultTrigger
    | split)

theorem keeps_eccUncorr {s t : State} (h : Keeps s t) (x1 x2) :
    Keeps s (State.eccUncorr t x1 x2) := by
  unfold State.eccUncorr
  try dsimp only
  repeat' (first
    | with_reducible assumption
    | with_reducible apply keeps_emit
    | with_reducible apply keeps_faultBit)

theorem keeps_dramBroken {s t : State} (h : Keeps s t) (x1 x2) :
    Keeps s (State.dramBroken t x1 x2) := by
  unfold State.dramBroken
  try dsimp only
  repeat' (first
    | with_reducible assumption
    | with_reducible apply keeps_inc
    | with_reducible apply keeps_recErrLoc
    | with_reducible apply keeps_eccUncorr
    | with_reducible apply keeps_free
    | with_reducible apply keeps_dramRaw
    | split)

theorem keeps_dramFetch {s t : State} (h : Keeps s t) (x1 x2) :
    Keeps s (State.dramFetch t x1 x2) := by
  unfold State.dramFetch
  try dsimp only
  repeat' (first
    | with_reducible assumption
    | with_reducible apply keeps_each
    | with_reducible apply keeps_dramBroken
    | (intro))

theorem keeps_rxUnread {s t : State} (h : Keeps s t) :
    Keeps s (State.rxUnread t).2 := by
  unfold State.rxUnread
  try dsimp only
  repeat' (first
    | with_reducible assumption
    | with_reducible apply keeps_free
    | split)

theorem keeps_coreCleared {s t : State} (h : Keeps s t) :
    Keeps s (State.coreCleared t) := by
  unfold State.coreCleared
  try dsimp only
  repeat' (first
    | with_reducible assumption
    | with_reducible apply keeps_rxUnread
    | with_reducible apply keeps_add
    | with_reducible apply keeps_each
    | with_reducible apply keeps_takeoverByReset
    | (intro)
    | with_reducible refine Keeps.fields ?_ rfl rfl rfl)

theorem keeps_slotLost {s t : State} (h : Keeps s t) (x1 x2) :
    Keeps s (State.slotLost t x1 x2) := by
  unfold State.slotLost
  try dsimp only
  repeat' (first
    | with_reducible assumption
    | with_reducible apply keeps_slotGone
    | with_reducible apply keeps_startImage
    | with_reducible apply keeps_keyFault
    | with_reducible apply keeps_faultBit
    | with_reducible apply keeps_inc
    | with_reducible apply keeps_slotSound
    | split)

theorem keeps_slotRead {s t : State} (h : Keeps s t) (x1) :
    Keeps s (State.slotRead t x1) := by
  unfold State.slotRead
  try dsimp only
  repeat' (first
    | with_reducible assumption
    | with_reducible apply keeps_inc
    | with_reducible apply keeps_slotSound
    | with_reducible apply keeps_slotLost
    | split)

theorem keeps_slotsLoad {s t : State} (h : Keeps s t) :
    Keeps s (State.slotsLoad t) := by
  unfold State.slotsLoad
  try dsimp only
  repeat' (first
    | with_reducible assumption
    | with_reducible apply keeps_each
    | with_reducible apply keeps_kset
    | with_reducible apply keeps_slotLost
    | (intro)
    | split)

theorem keeps_keepCause {s t : State} (h : Keeps s t) (x1 x2) :
    Keeps s (State.keepCause t x1 x2) := by
  unfold State.keepCause
  try dsimp only
  repeat' (first
    | with_reducible assumption
    | split
    | with_reducible refine Keeps.fields ?_ rfl rfl rfl)

theorem keeps_injUmp {s t : State} (h : Keeps s t) :
    Keeps s (State.injUmp t) := by
  unfold State.injUmp
  try dsimp only
  repeat' (first
    | with_reducible assumption
    | with_reducible apply keeps_each
    | with_reducible apply keeps_umpParityFlip
    | with_reducible apply keeps_injSpend
    | (intro)
    | split)

theorem keeps_coreReset {s t : State} (h : Keeps s t) :
    Keeps s (State.coreReset t) := by
  unfold State.coreReset
  try dsimp only
  repeat' (first
    | with_reducible assumption
    | with_reducible apply keeps_freezeCommits
    | with_reducible apply keeps_coreCleared)

theorem keeps_sayParity {s t : State} (h : Keeps s t) :
    Keeps s (State.sayParity t) := by
  unfold State.sayParity
  try dsimp only
  repeat' (first
    | with_reducible assumption
    | with_reducible apply keeps_each
    | with_reducible apply keeps_fset
    | with_reducible apply keeps_emit
    | with_reducible apply keeps_faultBit
    | (intro))

theorem keeps_safeReaction {s t : State} (h : Keeps s t) :
    Keeps s (State.safeReaction t) := by
  unfold State.safeReaction
  try dsimp only
  repeat' (first
    | with_reducible assumption
    | with_reducible apply keeps_holdFaultN
    | with_reducible apply keeps_set
    | with_reducible apply keeps_coreReset
    | split
    | with_reducible refine Keeps.fields ?_ rfl rfl rfl)

theorem keeps_finding {s t : State} (h : Keeps s t) (x1 x2 x3) :
    Keeps s (State.finding t x1 x2 x3) := by
  unfold State.finding
  try dsimp only
  repeat' (first
    | with_reducible assumption
    | with_reducible apply keeps_emit
    | with_reducible apply keeps_faultBit
    | with_reducible apply keeps_captureFault)

theorem keeps_coxFinding {s t : State} (h : Keeps s t) (x1 x2 x3) :
    Keeps s (State.coxFinding t x1 x2 x3) := by
  unfold State.coxFinding
  try dsimp only
  repeat' (first
    | with_reducible assumption
    | with_reducible apply keeps_safeReaction
    | with_reducible apply keeps_finding)

theorem keeps_wdogFinding {s t : State} (h : Keeps s t) (x1) :
    Keeps s (State.wdogFinding t x1) := by
  unfold State.wdogFinding
  try dsimp only
  repeat' (first
    | with_reducible assumption
    | with_reducible apply keeps_coxFinding)

theorem keeps_islandUp {s t : State} (h : Keeps s t) (x1 x2) :
    Keeps s (State.islandUp t x1 x2) := by
  unfold State.islandUp
  try dsimp only
  repeat' (first
    | with_reducible assumption
    | with_reducible apply keeps_islandStarts
    | with_reducible apply keeps_slotsLoad
    | with_reducible apply keeps_injUmp
    | split)

theorem keeps_monitorFinding {s t : State} (h : Keeps s t) (x1 x2 x3 x4) :
    Keeps s (State.monitorFinding t x1 x2 x3 x4) := by
  unfold State.monitorFinding
  try dsimp only
  repeat' (first
    | with_reducible assumption
    | with_reducible apply keeps_finding
    | with_reducible apply keeps_keepCause)

theorem keeps_checkerFinding {s t : State} (h : Keeps s t) (x1) :
    Keeps s (State.checkerFinding t x1) := by
  unfold State.checkerFinding
  try dsimp only
  repeat' (first
    | with_reducible assumption
    | with_reducible apply keeps_coxFinding)

theorem keeps_parityFindings {s t : State} (h : Keeps s t) (x1 x2) :
    Keeps s (State.parityFindings t x1 x2) := by
  unfold State.parityFindings
  try dsimp only
  repeat' (first
    | with_reducible assumption
    | with_reducible apply keeps_checkerFinding
    | split)

theorem keeps_mismatchFinding {s t : State} (h : Keeps s t) :
    Keeps s (State.mismatchFinding t) := by
  unfold State.mismatchFinding
  try dsimp only
  repeat' (first
    | with_reducible assumption
    | with_reducible apply keeps_coxFinding)

theorem keeps_flushOne {s t : State} (h : Keeps s t) (x1) :
    Keeps s (State.flushOne t x1) := by
  unfold State.flushOne
  try dsimp only
  repeat' (first
    | with_reducible assumption
    | with_reducible apply keeps_toRing
    | with_reducible apply keeps_toRevq
    | with_reducible apply keeps_deliver
    | split)

theorem keeps_flushHeld {s t : State} (h : Keeps s t) :
    Keeps s (State.flushHeld t) := by
  unfold State.flushHeld
  try dsimp only
  repeat' (first
    | with_reducible assumption
    | with_reducible apply keeps_each
    | with_reducible apply keeps_flushOne
    | (intro)
    | split
    | with_reducible refine Keeps.fields ?_ rfl rfl rfl)

theorem keeps_statusZero {s t : State} (h : Keeps s t) :
    Keeps s (State.statusZero t) := by
  unfold State.statusZero
  try dsimp only
  repeat' (first
    | with_reducible assumption
    | with_reducible apply keeps_hostPut)

theorem keeps_ringFail {s t : State} (h : Keeps s t) (x1 x2) :
    Keeps s (State.ringFail t x1 x2) := by
  unfold State.ringFail
  try dsimp only
  repeat' (first
    | with_reducible assumption
    | with_reducible apply keeps_emit
    | with_reducible apply keeps_set
    | with_reducible refine Keeps.fields ?_ rfl rfl rfl)

theorem keeps_ringRead {s t : State} (h : Keeps s t) (x1) :
    Keeps s (State.ringRead t x1) := by
  unfold State.ringRead
  try dsimp only
  repeat' (first
    | with_reducible assumption
    | with_reducible apply keeps_ringFail
    | split
    | with_reducible refine Keeps.fields ?_ rfl rfl rfl)

theorem keeps_readDoorbell {s t : State} (h : Keeps s t) :
    Keeps s (State.readDoorbell t) := by
  unfold State.readDoorbell
  try dsimp only
  repeat' (first
    | with_reducible assumption
    | with_reducible apply keeps_each
    | with_reducible apply keeps_ringRead
    | (intro)
    | split
    | with_reducible refine Keeps.fields ?_ rfl rfl rfl)

theorem keeps_kick {s t : State} (h : Keeps s t) :
    Keeps s (State.kick t) := by
  unfold State.kick
  try dsimp only
  repeat' (first
    | with_reducible assumption
    | with_reducible apply keeps_readDoorbell
    | split
    | with_reducible refine Keeps.fields ?_ rfl rfl rfl)

theorem keeps_ringZero {s t : State} (h : Keeps s t) (x1) :
    Keeps s (State.ringZero t x1) := by
  unfold State.ringZero
  try dsimp only
  repeat' (first
    | with_reducible assumption
    | with_reducible apply keeps_hostWr
    | split
    | with_reducible refine Keeps.fields ?_ rfl rfl rfl)

theorem keeps_rxDeliver {s t : State} (h : Keeps s t) (x1 x2) : Keeps s (State.rxDeliver t x1 x2) := by
  unfold State.rxDeliver
  extract_lets cons prod slot a d addr buf good flen n ts trunc flags st wb s1 s2 q s3 s4 s5 s6
  split
  · exact keeps_inc h _
  · have h3 : Keeps s s3 := Keeps.of_same (t := s2) (keeps_hostPut (keeps_hostPut h _ _) _ _) rfl rfl rfl
    have h4 : Keeps s s4 := keeps_hostWr h3 _ _ _
    have h5 : Keeps s s5 := by
      unfold s5
      split
      · exact keeps_inc h4 _
      · exact h4
    have h6 : Keeps s s6 := by
      unfold s6
      split
      · exact keeps_inc h5 _
      · exact h5
    exact keeps_raiseSource h6 _ _ _ _

theorem keeps_loadOptions {s t : State} (h : Keeps s t) (x1) :
    Keeps s (State.loadOptions t x1) := by
  unfold State.loadOptions
  try dsimp only
  repeat' (first
    | with_reducible assumption
    | with_reducible apply keeps_wr
    | with_reducible apply keeps_put
    | with_reducible apply keeps_set
    | with_reducible apply keeps_emitHeld
    | split)

theorem keeps_startSequence {s t : State} (h : Keeps s t) (x1) :
    Keeps s (State.startSequence t x1) := by
  unfold State.startSequence
  try dsimp only
  repeat' (first
    | with_reducible assumption
    | with_reducible apply keeps_loadOptions
    | with_reducible refine Keeps.fields ?_ rfl rfl rfl)

theorem keeps_finishWake {s t : State} (h : Keeps s t) :
    Keeps s (State.finishWake t) := by
  unfold State.finishWake
  try dsimp only
  repeat' (first
    | with_reducible assumption
    | with_reducible apply keeps_switchDomains
    | with_reducible apply keeps_toPower
    | with_reducible apply keeps_put
    | with_reducible apply keeps_emit
    | split)

theorem keeps_openStart {s t : State} (h : Keeps s t) :
    Keeps s (State.openStart t) := by
  unfold State.openStart
  try dsimp only
  repeat' (first
    | with_reducible assumption
    | with_reducible apply keeps_set
    | with_reducible refine Keeps.fields ?_ rfl rfl rfl)

theorem keeps_enterBoathouse {s t : State} (h : Keeps s t) (x1) :
    Keeps s (State.enterBoathouse t x1) := by
  unfold State.enterBoathouse
  try dsimp only
  repeat' (first
    | with_reducible assumption
    | with_reducible apply keeps_set
    | with_reducible apply keeps_holdFaultN
    | with_reducible apply keeps_switchDomains
    | with_reducible apply keeps_toPower
    | with_reducible apply keeps_portLeaveOff
    | with_reducible apply keeps_flushHeld
    | with_reducible apply keeps_emitHeld
    | with_reducible apply keeps_bootBridge
    | split
    | with_reducible refine Keeps.fields ?_ rfl rfl rfl)

theorem keeps_emitStart {s t : State} (h : Keeps s t) (x1) :
    Keeps s (State.emitStart t x1) := by
  unfold State.emitStart
  try dsimp only
  repeat' (first
    | with_reducible assumption
    | with_reducible apply keeps_flushHeld
    | with_reducible apply keeps_emitHeld)

theorem keeps_deviceReset {s t : State} (h : Keeps s t) (x1) :
    Keeps s (State.deviceReset t x1) := by
  unfold State.deviceReset
  try dsimp only
  repeat' (first
    | with_reducible assumption
    | with_reducible apply keeps_clearDevice
    | with_reducible apply keeps_startSequence
    | split
    | with_reducible refine Keeps.fields ?_ rfl rfl rfl)

theorem keeps_failReset {s t : State} (h : Keeps s t) :
    Keeps s (State.failReset t) := by
  unfold State.failReset
  try dsimp only
  repeat' (first
    | with_reducible assumption
    | with_reducible apply keeps_deviceReset
    | with_reducible apply keeps_pwFlush)

theorem keeps_startPends {s t : State} (h : Keeps s t) :
    Keeps s (State.startPends t) := by
  unfold State.startPends
  try dsimp only
  repeat' (first
    | with_reducible assumption
    | with_reducible apply keeps_holdFaultN
    | with_reducible apply keeps_set
    | with_reducible apply keeps_recFaultTrigger
    | split)

theorem keeps_countStart {s t : State} (h : Keeps s t) :
    Keeps s (State.countStart t).1 := by
  unfold State.countStart
  try dsimp only
  repeat' (first
    | with_reducible assumption
    | with_reducible apply keeps_pwRequest
    | split)

theorem keeps_startCounted {s t : State} (h : Keeps s t) :
    Keeps s (State.startCounted t).1 := by
  unfold State.startCounted
  try dsimp only
  repeat' (first
    | with_reducible assumption
    | with_reducible apply keeps_emitStart
    | with_reducible apply keeps_startPends
    | with_reducible apply keeps_set
    | with_reducible apply keeps_countStart
    | with_reducible apply keeps_openStart
    | split)

end Sys2Proof.Machine
end

