-- ==== Sys2Proof/Laws/KeepsFrames.lean ====
section
/-! SUPPORT. What the operations of Cox, resets, the Rigger, the rings and frames keep (Sys2Proof.Machine.Keeps). -/
namespace Sys2Proof.Machine
set_option Elab.async false

theorem keeps_lifecycleDone {s t : State} (h : Keeps s t) (x1 x2) :
    Keeps s (State.lifecycleDone t x1 x2) := by
  unfold State.lifecycleDone
  try dsimp only
  repeat' (first
    | with_reducible assumption
    | with_reducible apply keeps_set
    | with_reducible apply keeps_keysChanged
    | with_reducible apply keeps_finishRunning
    | with_reducible apply keeps_domainsFollow
    | split
    | with_reducible refine Keeps.fields ?_ rfl rfl rfl)

theorem keeps_execCheckerFault {s t : State} (h : Keeps s t) (x1 x2 x3) :
    Keeps.out s (execCheckerFault x1 x2 x3 t) := by
  unfold execCheckerFault
  try dsimp only
  repeat' (first
    | with_reducible assumption
    | with_reducible apply keeps_checkerFinding
    | with_reducible apply keeps_parityFindings
    | split
    | dsimp only [Keeps.out, Keeps.cmd, Keeps.fate, Keeps.outOpt, Keeps.cmdOpt])

theorem keeps_runSelftest {s t : State} (h : Keeps s t) (x1 x2) :
    Keeps s (State.runSelftest t x1 x2).1 := by
  unfold State.runSelftest
  try dsimp only
  repeat' (first
    | with_reducible assumption
    | with_reducible apply keeps_injSpend
    | with_reducible apply keeps_set
    | with_reducible apply keeps_incWrap
    | split
    | with_reducible refine Keeps.fields ?_ rfl rfl rfl)

theorem keeps_startWdogs {s t : State} (h : Keeps s t) :
    Keeps s (State.startWdogs t) := by
  unfold State.startWdogs
  try dsimp only
  repeat' (first
    | with_reducible assumption
    | split
    | with_reducible refine Keeps.fields ?_ rfl rfl rfl)

theorem keeps_injActNow {s t : State} (h : Keeps s t) (x1) :
    Keeps s (State.injActNow t x1) := by
  unfold State.injActNow
  try dsimp only
  repeat' (first
    | with_reducible assumption
    | with_reducible apply keeps_mismatchFinding
    | with_reducible apply keeps_injSpend
    | with_reducible apply keeps_checkerFinding
    | with_reducible apply keeps_wdogFinding
    | with_reducible apply keeps_monitorFinding
    | with_reducible apply keeps_linkFail
    | with_reducible apply keeps_injMark
    | with_reducible apply keeps_prtSet
    | with_reducible apply keeps_injUmp
    | with_reducible apply keeps_injTimeWdog
    | split)

theorem keeps_pairPoints {s t : State} (h : Keeps s t) :
    Keeps s (State.pairPoints t) := by
  unfold State.pairPoints
  try dsimp only
  repeat' (first
    | with_reducible assumption
    | with_reducible apply keeps_each
    | with_reducible apply keeps_injActNow
    | (intro)
    | split)

theorem keeps_afterRelease {s t : State} (h : Keeps s t) :
    Keeps s (State.afterRelease t) := by
  unfold State.afterRelease
  try dsimp only
  repeat' (first
    | with_reducible assumption
    | with_reducible apply keeps_tablesCommit
    | with_reducible apply keeps_pairPoints
    | with_reducible apply keeps_sayReverted)

theorem keeps_newNonce {s t : State} (h : Keeps s t) :
    Keeps s (State.newNonce t) := by
  unfold State.newNonce
  try dsimp only
  repeat' (first
    | with_reducible assumption
    | with_reducible apply keeps_free
    | with_reducible apply keeps_set)

theorem keeps_releaseCores {s t : State} (h : Keeps s t) :
    Keeps s (State.releaseCores t) := by
  unfold State.releaseCores
  try dsimp only
  repeat' (first
    | with_reducible assumption
    | with_reducible apply keeps_inc
    | with_reducible apply keeps_set
    | with_reducible apply keeps_computeRoutes
    | with_reducible apply keeps_afterRelease
    | with_reducible apply keeps_startWdogs
    | with_reducible apply keeps_newNonce
    | split
    | with_reducible refine Keeps.fields ?_ rfl rfl rfl)

theorem keeps_execTempMon {s t : State} (h : Keeps s t) (x1 x2 x3 x4) :
    Keeps.out s (execTempMon x1 x2 x3 t x4) := by
  unfold execTempMon
  try dsimp only
  repeat' (first
    | with_reducible assumption
    | with_reducible apply keeps_monitorFinding
    | with_reducible apply keeps_set
    | with_reducible apply keeps_keepCause
    | split
    | dsimp only [Keeps.out, Keeps.cmd, Keeps.fate, Keeps.outOpt, Keeps.cmdOpt])

theorem keeps_jtagCapture {s t : State} (h : Keeps s t) (x1 x2) :
    Keeps s (State.jtagCapture t x1 x2).2 := by
  unfold State.jtagCapture
  try dsimp only
  repeat' (first
    | with_reducible assumption
    | with_reducible apply keeps_free
    | split)

theorem keeps_wakeReleased {s t : State} (h : Keeps s t) :
    Keeps s (State.wakeReleased t) := by
  unfold State.wakeReleased
  try dsimp only
  repeat' (first
    | with_reducible assumption
    | with_reducible apply keeps_finishWake
    | split
    | with_reducible refine Keeps.fields ?_ rfl rfl rfl)

theorem keeps_releaseTested {s t : State} (h : Keeps s t) (x1 x2) :
    Keeps s (State.releaseTested t x1 x2) := by
  unfold State.releaseTested
  try dsimp only
  repeat' (first
    | with_reducible assumption
    | with_reducible apply keeps_releaseCores
    | with_reducible apply keeps_runSelftest
    | with_reducible apply keeps_set
    | with_reducible apply keeps_finding
    | split)

theorem keeps_startCores {s t : State} (h : Keeps s t) (x1) :
    Keeps s (State.startCores t x1) := by
  unfold State.startCores
  try dsimp only
  repeat' (first
    | with_reducible assumption
    | with_reducible apply keeps_startCounted
    | with_reducible apply keeps_releaseTested
    | with_reducible apply keeps_enterBoathouse
    | with_reducible apply keeps_failReset
    | with_reducible apply keeps_wakeReleased
    | with_reducible refine Keeps.fst (by assumption) ?_
    | split)

theorem keeps_execLifecycle {s t : State} (h : Keeps s t) (x1 x2) :
    Keeps.out s (execLifecycle x1 x2 t) := by
  unfold execLifecycle
  try dsimp only
  repeat' (first
    | with_reducible assumption
    | with_reducible apply keeps_runCmd
    | with_reducible apply keeps_newNonce
    | with_reducible apply keeps_countWear
    | (intro)
    | split
    | dsimp only [Keeps.out, Keeps.cmd, Keeps.fate, Keeps.outOpt, Keeps.cmdOpt])

theorem keeps_execCoxMode {s t : State} (h : Keeps s t) (x1 x2) :
    Keeps.out s (execCoxMode x1 x2 t) := by
  unfold execCoxMode
  try dsimp only
  repeat' (first
    | with_reducible assumption
    | with_reducible apply keeps_runCmd
    | with_reducible apply keeps_set
    | (intro)
    | split
    | dsimp only [Keeps.out, Keeps.cmd, Keeps.fate, Keeps.outOpt, Keeps.cmdOpt])

theorem keeps_copyChecked {s t : State} (h : Keeps s t) (x1) :
    Keeps s (State.copyChecked t x1) := by
  unfold State.copyChecked
  try dsimp only
  repeat' (first
    | with_reducible assumption
    | with_reducible apply keeps_set
    | split
    | with_reducible refine Keeps.fields ?_ rfl rfl rfl)

theorem keeps_launchLoads {s t : State} (h : Keeps s t) (x1) :
    Keeps s (State.launchLoads t x1) := by
  unfold State.launchLoads
  try dsimp only
  repeat' (first
    | with_reducible assumption
    | with_reducible apply keeps_launchIdles
    | with_reducible apply keeps_copyKept
    | with_reducible apply keeps_measure
    | split)

theorem keeps_testHalts {s t : State} (h : Keeps s t) (x1) :
    Keeps s (State.testHalts t x1) := by
  unfold State.testHalts
  try dsimp only
  repeat' (first
    | with_reducible assumption
    | with_reducible apply keeps_countStart
    | with_reducible apply keeps_startPends
    | with_reducible apply keeps_set
    | with_reducible apply keeps_checkerFinding
    | with_reducible apply keeps_failReset
    | with_reducible apply keeps_openStart
    | split)

theorem keeps_execDebugDetach {s t : State} (h : Keeps s t) :
    Keeps.out s (execDebugDetach t) := by
  unfold execDebugDetach
  try dsimp only
  repeat' (first
    | with_reducible assumption
    | with_reducible apply keeps_set
    | dsimp only [Keeps.out, Keeps.cmd, Keeps.fate, Keeps.outOpt, Keeps.cmdOpt])

theorem keeps_disarmAll {s t : State} (h : Keeps s t) :
    Keeps s (State.disarmAll t) := by
  unfold State.disarmAll
  try dsimp only
  repeat' (first
    | with_reducible assumption
    | with_reducible apply keeps_each
    | with_reducible apply keeps_set
    | (intro))

theorem keeps_execSelftest {s t : State} (h : Keeps s t) (x1 x2 x3 x4 x5 x6) :
    Keeps.out s (execSelftest x1 x2 x3 x4 t x5 x6) := by
  unfold execSelftest
  try dsimp only
  repeat' (first
    | with_reducible assumption
    | with_reducible apply keeps_parityFindings
    | with_reducible apply keeps_runSelftest
    | with_reducible apply keeps_checkerFinding
    | with_reducible apply keeps_mismatchFinding
    | split
    | dsimp only [Keeps.out, Keeps.cmd, Keeps.fate, Keeps.outOpt, Keeps.cmdOpt])

theorem keeps_wdogExpire {s t : State} (h : Keeps s t) (x1) :
    Keeps s (State.wdogExpire t x1) := by
  unfold State.wdogExpire
  try dsimp only
  repeat' (first
    | with_reducible assumption
    | with_reducible apply keeps_wdogFinding
    | split)

theorem keeps_coxModeDone {s t : State} (h : Keeps s t) (x1 x2 x3) :
    Keeps s (State.coxModeDone t x1 x2 x3) := by
  unfold State.coxModeDone
  try dsimp only
  repeat' (first
    | with_reducible assumption
    | with_reducible apply keeps_pairPoints
    | with_reducible apply keeps_finishRunning
    | with_reducible apply keeps_set
    | with_reducible apply keeps_runSelftest
    | with_reducible apply keeps_testHalts
    | split
    | with_reducible refine Keeps.fields ?_ rfl rfl rfl)

theorem keeps_jtagScan {s t : State} (h : Keeps s t) (x1) :
    Keeps s (State.jtagScan t x1) := by
  unfold State.jtagScan
  try dsimp only
  repeat' (first
    | with_reducible assumption
    | with_reducible apply keeps_jtagCapture
    | split
    | with_reducible refine Keeps.fields ?_ rfl rfl rfl)

theorem keeps_execOwnerLock {s t : State} (h : Keeps s t) (x1 x2) :
    Keeps.out s (execOwnerLock x1 x2 t) := by
  unfold execOwnerLock
  try dsimp only
  repeat' (first
    | with_reducible assumption
    | with_reducible apply keeps_runCmd
    | with_reducible apply keeps_newNonce
    | with_reducible apply keeps_countWear
    | (intro)
    | split
    | dsimp only [Keeps.out, Keeps.cmd, Keeps.fate, Keeps.outOpt, Keeps.cmdOpt])

theorem keeps_execWdogExpiry {s t : State} (h : Keeps s t) (x1) :
    Keeps.out s (execWdogExpiry x1 t) := by
  unfold execWdogExpiry
  try dsimp only
  repeat' (first
    | with_reducible assumption
    | with_reducible apply keeps_wdogExpire
    | dsimp only [Keeps.out, Keeps.cmd, Keeps.fate, Keeps.outOpt, Keeps.cmdOpt])

theorem keeps_execClockMon {s t : State} (h : Keeps s t) (x1 x2) :
    Keeps.out s (execClockMon x1 x2 t) := by
  unfold execClockMon
  try dsimp only
  repeat' (first
    | with_reducible assumption
    | with_reducible apply keeps_monitorFinding
    | split
    | dsimp only [Keeps.out, Keeps.cmd, Keeps.fate, Keeps.outOpt, Keeps.cmdOpt])

theorem keeps_execSupplyMon {s t : State} (h : Keeps s t) (x1 x2) :
    Keeps.out s (execSupplyMon x1 x2 t) := by
  unfold execSupplyMon
  try dsimp only
  repeat' (first
    | with_reducible assumption
    | with_reducible apply keeps_monitorFinding
    | split
    | dsimp only [Keeps.out, Keeps.cmd, Keeps.fate, Keeps.outOpt, Keeps.cmdOpt])

theorem keeps_execDebugAttach {s t : State} (h : Keeps s t) (x1 x2) :
    Keeps.out s (execDebugAttach t x1 x2) := by
  unfold execDebugAttach
  try dsimp only
  repeat' (first
    | with_reducible assumption
    | with_reducible apply keeps_each
    | with_reducible apply keeps_jtagScan
    | with_reducible apply keeps_set
    | (intro)
    | split
    | dsimp only [Keeps.out, Keeps.cmd, Keeps.fate, Keeps.outOpt, Keeps.cmdOpt])

theorem keeps_execLockstepMismatch {s t : State} (h : Keeps s t) (x1 x2) :
    Keeps.out s (execLockstepMismatch x1 x2 t) := by
  unfold execLockstepMismatch
  try dsimp only
  repeat' (first
    | with_reducible assumption
    | with_reducible apply keeps_parityFindings
    | with_reducible apply keeps_mismatchFinding
    | split
    | dsimp only [Keeps.out, Keeps.cmd, Keeps.fate, Keeps.outOpt, Keeps.cmdOpt])

theorem keeps_execCoreRelease {s t : State} (h : Keeps s t) (x1) :
    Keeps.out s (execCoreRelease x1 t) := by
  unfold execCoreRelease
  try dsimp only
  repeat' (first
    | with_reducible assumption
    | with_reducible apply keeps_beginRevert
    | with_reducible apply keeps_startCores
    | with_reducible apply keeps_launchLoads
    | with_reducible apply keeps_copyChecked
    | split
    | dsimp only [Keeps.out, Keeps.cmd, Keeps.fate, Keeps.outOpt, Keeps.cmdOpt])

theorem keeps_wdogKick {s t : State} (h : Keeps s t) (x1 x2 x3 x4) :
    Keeps s (State.wdogKick t x1 x2 x3 x4) := by
  unfold State.wdogKick
  try dsimp only
  repeat' (first
    | with_reducible assumption
    | with_reducible apply keeps_access
    | with_reducible apply keeps_accessErr
    | with_reducible apply keeps_wdogFinding
    | split
    | with_reducible refine Keeps.fields ?_ rfl rfl rfl)

theorem keeps_execWdogKick {s t : State} (h : Keeps s t) (x1 x2 x3 x4) :
    Keeps.out s (execWdogKick x1 x2 x3 x4 t) := by
  unfold execWdogKick
  try dsimp only
  repeat' (first
    | with_reducible assumption
    | with_reducible apply keeps_unsupported
    | with_reducible apply keeps_busWaits
    | with_reducible apply keeps_wdogKick
    | split
    | dsimp only [Keeps.out, Keeps.cmd, Keeps.fate, Keeps.outOpt, Keeps.cmdOpt])

theorem keeps_execResetRelease {s t : State} (h : Keeps s t) :
    Keeps.out s (execResetRelease t) := by
  unfold execResetRelease
  try dsimp only
  repeat' (first
    | with_reducible assumption
    | with_reducible apply keeps_startSequence
    | split
    | dsimp only [Keeps.out, Keeps.cmd, Keeps.fate, Keeps.outOpt, Keeps.cmdOpt]
    | with_reducible refine Keeps.fields ?_ rfl rfl rfl)

theorem keeps_openIsland {s t : State} (h : Keeps s t) (x1 x2) :
    Keeps s (State.openIsland t x1 x2) := by
  unfold State.openIsland
  try dsimp only
  repeat' (first
    | with_reducible assumption
    | with_reducible apply keeps_islandUp
    | with_reducible refine Keeps.fields ?_ rfl rfl rfl)

theorem keeps_execPowerLoss {s t : State} (h : Keeps s t) :
    Keeps.out s (execPowerLoss t) := by
  unfold execPowerLoss
  try dsimp only
  repeat' (first
    | with_reducible assumption
    | with_reducible apply keeps_clearDevice
    | dsimp only [Keeps.out, Keeps.cmd, Keeps.fate, Keeps.outOpt, Keeps.cmdOpt]
    | with_reducible refine Keeps.fields ?_ rfl rfl rfl)

theorem keeps_closeIsland {s t : State} (h : Keeps s t) (x1 x2) :
    Keeps s (State.closeIsland t x1 x2) := by
  unfold State.closeIsland
  try dsimp only
  repeat' (first
    | with_reducible assumption
    | with_reducible apply keeps_set
    | with_reducible apply keeps_portToOff
    | with_reducible apply keeps_clearIsland
    | split
    | with_reducible refine Keeps.fields ?_ rfl rfl rfl)

theorem keeps_execBrownout {s t : State} (h : Keeps s t) (x1) :
    Keeps.out s (execBrownout t x1) := by
  unfold execBrownout
  try dsimp only
  repeat' (first
    | with_reducible assumption
    | with_reducible apply keeps_deviceReset
    | split
    | dsimp only [Keeps.out, Keeps.cmd, Keeps.fate, Keeps.outOpt, Keeps.cmdOpt]
    | with_reducible refine Keeps.fields ?_ rfl rfl rfl)

theorem keeps_finishLogWrite {s t : State} (h : Keeps s t) :
    Keeps s (State.finishLogWrite t) := by
  unfold State.finishLogWrite
  try dsimp only
  repeat' (first
    | with_reducible assumption
    | with_reducible apply keeps_finishRunning
    | split)

theorem keeps_execPersistentWriteDone {s t : State} (h : Keeps s t) :
    Keeps.out s (execPersistentWriteDone t) := by
  unfold execPersistentWriteDone
  try dsimp only
  repeat' (first
    | with_reducible assumption
    | with_reducible apply keeps_finishLogWrite
    | with_reducible apply keeps_pwDone
    | with_reducible apply keeps_sasFollow
    | split
    | dsimp only [Keeps.out, Keeps.cmd, Keeps.fate, Keeps.outOpt, Keeps.cmdOpt])

theorem keeps_execXtal32Fail {s t : State} (h : Keeps s t) :
    Keeps.out s (execXtal32Fail t) := by
  unfold execXtal32Fail
  try dsimp only
  repeat' (first
    | with_reducible assumption
    | dsimp only [Keeps.out, Keeps.cmd, Keeps.fate, Keeps.outOpt, Keeps.cmdOpt]
    | with_reducible refine Keeps.fields ?_ rfl rfl rfl)

theorem keeps_execResetPin {s t : State} (h : Keeps s t) :
    Keeps.out s (execResetPin t) := by
  unfold execResetPin
  try dsimp only
  repeat' (first
    | with_reducible assumption
    | with_reducible apply keeps_deviceReset
    | split
    | dsimp only [Keeps.out, Keeps.cmd, Keeps.fate, Keeps.outOpt, Keeps.cmdOpt])

theorem keeps_execDeviceReset {s t : State} (h : Keeps s t) (x1 x2) : Keeps.out s (execDeviceReset x1 x2 t) := by
  unfold execDeviceReset
  extract_lets scope r u
  have hu : Keeps s u := by
    refine keeps_runCmd h _ _ _ _ _ fun v hv => ?_
    have ha : Keeps s { v with rst := { v.rst with asked := true } } := hv.of_same rfl rfl rfl
    have hc := keeps_set (keeps_countWear hv .failStart) LOG_FAIL_START_FAILS 0
    repeat' (first
      | exact trivial
      | exact ha
      | exact hv
      | exact keeps_closeIsland hv _ _
      | exact hc.of_same rfl rfl rfl
      | split)
  split
  · exact keeps_deviceReset (hu.of_same rfl rfl rfl) 4
  · exact hu

theorem keeps_bankFound {s t : State} (h : Keeps s t) (x1 x2) :
    Keeps s (State.bankFound t x1 x2) := by
  unfold State.bankFound
  try dsimp only
  repeat' (first
    | with_reducible assumption
    | with_reducible apply keeps_monitorFinding
    | split)

theorem keeps_execPowerOn {s t : State} (h : Keeps s t) (x1 x2) :
    Keeps.out s (execPowerOn t x1 x2) := by
  unfold execPowerOn
  try dsimp only
  repeat' (first
    | with_reducible assumption
    | with_reducible apply keeps_clearDevice
    | with_reducible apply keeps_bankFound
    | with_reducible apply keeps_startSequence
    | dsimp only [Keeps.out, Keeps.cmd, Keeps.fate, Keeps.outOpt, Keeps.cmdOpt]
    | with_reducible refine Keeps.fields ?_ rfl rfl rfl)

theorem keeps_execIslandReady {s t : State} (h : Keeps s t) :
    Keeps.out s (execIslandReady t) := by
  unfold execIslandReady
  try dsimp only
  repeat' (first
    | with_reducible assumption
    | with_reducible apply keeps_finishRunning
    | with_reducible apply keeps_openIsland
    | split
    | dsimp only [Keeps.out, Keeps.cmd, Keeps.fate, Keeps.outOpt, Keeps.cmdOpt])

theorem keeps_execThermal {s t : State} (h : Keeps s t) :
    Keeps.out s (execThermal t) := by
  unfold execThermal
  try dsimp only
  repeat' (first
    | with_reducible assumption
    | with_reducible apply keeps_deviceReset
    | split
    | dsimp only [Keeps.out, Keeps.cmd, Keeps.fate, Keeps.outOpt, Keeps.cmdOpt])

theorem keeps_logWordWrite {s t : State} (h : Keeps s t) (x1 x2) :
    Keeps s (State.logWordWrite t x1 x2) := by
  unfold State.logWordWrite
  try dsimp only
  repeat' (first
    | with_reducible assumption
    | with_reducible apply keeps_wornHit
    | with_reducible apply keeps_pwRequest
    | split)

theorem keeps_execLogWrite {s t : State} (h : Keeps s t) (x1 x2) :
    Keeps.out s (execLogWrite x1 x2 t) := by
  unfold execLogWrite
  try dsimp only
  repeat' (first
    | with_reducible assumption
    | with_reducible apply keeps_finishLogWrite
    | with_reducible apply keeps_runCmd
    | with_reducible apply keeps_set
    | with_reducible apply keeps_pwRequest
    | (intro)
    | split
    | dsimp only [Keeps.out, Keeps.cmd, Keeps.fate, Keeps.outOpt, Keeps.cmdOpt])

theorem keeps_execStartTimeout {s t : State} (h : Keeps s t) :
    Keeps.out s (execStartTimeout t) := by
  unfold execStartTimeout
  try dsimp only
  repeat' (first
    | with_reducible assumption
    | with_reducible apply keeps_deviceReset
    | split
    | dsimp only [Keeps.out, Keeps.cmd, Keeps.fate, Keeps.outOpt, Keeps.cmdOpt])

theorem keeps_startOk {s t : State} (h : Keeps s t) :
    Keeps s (State.startOk t) := by
  unfold State.startOk
  try dsimp only
  repeat' (first
    | with_reducible assumption
    | with_reducible apply keeps_set
    | with_reducible apply keeps_pwRequest
    | split)

theorem keeps_execPerstNDeassert {s t : State} (h : Keeps s t) (x1) :
    Keeps.out s (execPerstNDeassert x1 t) := by
  unfold execPerstNDeassert
  try dsimp only
  repeat' (first
    | with_reducible assumption
    | with_reducible apply keeps_pcieLink
    | split
    | dsimp only [Keeps.out, Keeps.cmd, Keeps.fate, Keeps.outOpt, Keeps.cmdOpt]
    | with_reducible refine Keeps.fields ?_ rfl rfl rfl)

theorem keeps_execJtagReset {s t : State} (h : Keeps s t) :
    Keeps.out s (execJtagReset t) := by
  unfold execJtagReset
  try dsimp only
  repeat' (first
    | with_reducible assumption
    | with_reducible apply keeps_deviceReset
    | split
    | dsimp only [Keeps.out, Keeps.cmd, Keeps.fate, Keeps.outOpt, Keeps.cmdOpt])

theorem keeps_linShow {s t : State} (h : Keeps s t) (x1) :
    Keeps s (State.linShow t x1) := by
  unfold State.linShow
  try dsimp only
  repeat' (first
    | with_reducible assumption
    | with_reducible apply keeps_set)

theorem keeps_canGo {s t : State} (h : Keeps s t) (x1) :
    Keeps s (State.canGo t x1) := by
  unfold State.canGo
  try dsimp only
  repeat' (first
    | with_reducible assumption
    | with_reducible apply keeps_set
    | split)

theorem keeps_channelsGo {s t : State} (h : Keeps s t) :
    Keeps s (State.channelsGo t) := by
  unfold State.channelsGo
  try dsimp only
  repeat' (first
    | with_reducible assumption
    | with_reducible apply keeps_each
    | with_reducible apply keeps_canGo
    | with_reducible apply keeps_linShow
    | (intro))

theorem keeps_tunPut {s t : State} (h : Keeps s t) (x1 x2) :
    Keeps s (State.tunPut t x1 x2) := by
  unfold State.tunPut
  try dsimp only
  repeat' (first
    | with_reducible assumption
    | with_reducible apply keeps_eset)

theorem keeps_sendTunnel {s t : State} (h : Keeps s t) (x1) :
    Keeps s (State.sendTunnel t x1) := by
  unfold State.sendTunnel
  try dsimp only
  repeat' (first
    | with_reducible assumption
    | with_reducible apply keeps_tunPut
    | with_reducible apply keeps_internalIn
    | split)

theorem keeps_gather {s t : State} (h : Keeps s t) (x1 x2) :
    Keeps s (State.gather t x1 x2) := by
  unfold State.gather
  try dsimp only
  repeat' (first
    | with_reducible assumption
    | with_reducible apply keeps_sendTunnel
    | with_reducible apply keeps_tunPut
    | split)

theorem keeps_emitEth {s t : State} (h : Keeps s t) (x1 x2) :
    Keeps s (State.emitEth t x1 x2) := by
  unfold State.emitEth
  try dsimp only
  repeat' (first
    | with_reducible assumption
    | with_reducible apply keeps_internalIn
    | with_reducible apply keeps_eset
    | split)

theorem keeps_canPut {s t : State} (h : Keeps s t) (x1 x2) :
    Keeps s (State.canPut t x1 x2) := by
  unfold State.canPut
  try dsimp only
  repeat' (first
    | with_reducible assumption
    | with_reducible apply keeps_eset)

theorem keeps_emitCan {s t : State} (h : Keeps s t) (x1 x2) :
    Keeps s (State.emitCan t x1 x2) := by
  unfold State.emitCan
  try dsimp only
  repeat' (first
    | with_reducible assumption
    | with_reducible apply keeps_inc
    | with_reducible apply keeps_canPut
    | split)

theorem keeps_pduSet {s t : State} (h : Keeps s t) (x1 x2) :
    Keeps s (State.pduSet t x1 x2) := by
  unfold State.pduSet
  try dsimp only
  repeat' (first
    | with_reducible assumption
    | with_reducible apply keeps_eset)

theorem keeps_sendPayload {s t : State} (h : Keeps s t) (x1 x2) :
    Keeps s (State.sendPayload t x1 x2) := by
  unfold State.sendPayload
  try dsimp only
  repeat' (first
    | with_reducible assumption
    | with_reducible apply keeps_emitEth
    | with_reducible apply keeps_emitCan
    | with_reducible apply keeps_pduSet
    | split)

theorem keeps_rigErrLoc {s t : State} (h : Keeps s t) (x1 x2) :
    Keeps s (State.rigErrLoc t x1 x2) := by
  unfold State.rigErrLoc
  try dsimp only
  repeat' (first
    | with_reducible assumption
    | with_reducible apply keeps_set
    | split)

theorem keeps_rigBreak {s t : State} (h : Keeps s t) (x1 x2) :
    Keeps s (State.rigBreak t x1 x2) := by
  unfold State.rigBreak
  try dsimp only
  repeat' (first
    | with_reducible assumption
    | with_reducible apply keeps_eset
    | with_reducible apply keeps_faultBit
    | with_reducible apply keeps_rigErrLoc
    | with_reducible apply keeps_inc
    | with_reducible apply keeps_emit
    | with_reducible apply keeps_showStale
    | split)

theorem keeps_rigTouch {s t : State} (h : Keeps s t) (x1 x2) :
    Keeps s (State.rigTouch t x1 x2) := by
  unfold State.rigTouch
  try dsimp only
  repeat' (first
    | with_reducible assumption
    | with_reducible apply keeps_rigBreak
    | with_reducible apply keeps_injSpend
    | split)

theorem keeps_bufWrite {s t : State} (h : Keeps s t) (x1 x2 x3) :
    Keeps s (State.bufWrite t x1 x2 x3) := by
  unfold State.bufWrite
  try dsimp only
  repeat' (first
    | with_reducible assumption
    | with_reducible apply keeps_pduSet)

theorem keeps_runRoute {s t : State} (h : Keeps s t) (x1 x2 x3 x4) :
    Keeps s (State.runRoute t x1 x2 x3 x4) := by
  unfold State.runRoute
  try dsimp only
  repeat' (first
    | with_reducible assumption
    | with_reducible apply keeps_rigTouch
    | with_reducible apply keeps_inc
    | with_reducible apply keeps_eset
    | with_reducible apply keeps_pduSet
    | with_reducible apply keeps_bufWrite
    | with_reducible apply keeps_showStale
    | split)

theorem keeps_judgeFresh {s t : State} (h : Keeps s t) (x1 x2) :
    Keeps s (State.judgeFresh t x1 x2) := by
  unfold State.judgeFresh
  try dsimp only
  repeat' (first
    | with_reducible assumption
    | with_reducible apply keeps_enterStale
    | split)

theorem keeps_staleAct {s t : State} (h : Keeps s t) (x1 x2) :
    Keeps s (State.staleAct t x1 x2) := by
  unfold State.staleAct
  try dsimp only
  repeat' (first
    | with_reducible assumption
    | with_reducible apply keeps_bufWrite
    | split)

theorem keeps_assemble {s t : State} (h : Keeps s t) (x1) :
    Keeps s (State.assemble t x1).1 := by
  unfold State.assemble
  try dsimp only
  repeat' (first
    | with_reducible assumption
    | with_reducible apply keeps_each
    | with_reducible apply keeps_judgeFresh
    | with_reducible apply keeps_rigTouch
    | with_reducible apply keeps_inc
    | with_reducible apply keeps_staleAct
    | (intro)
    | split)

theorem keeps_emitPdu {s t : State} (h : Keeps s t) (x1 x2) :
    Keeps s (State.emitPdu t x1 x2) := by
  unfold State.emitPdu
  try dsimp only
  repeat' (first
    | with_reducible assumption
    | with_reducible apply keeps_rigTouch
    | with_reducible apply keeps_assemble
    | with_reducible apply keeps_sendPayload
    | with_reducible refine Keeps.fst (by assumption) ?_
    | split)

theorem keeps_processSrc {s t : State} (h : Keeps s t) (x1 x2 x3) :
    Keeps s (State.processSrc t x1 x2 x3) := by
  unfold State.processSrc
  try dsimp only
  repeat' (first
    | with_reducible assumption
    | with_reducible apply keeps_inc
    | with_reducible apply keeps_each
    | with_reducible apply keeps_pduSet
    | with_reducible apply keeps_runRoute
    | with_reducible apply keeps_emitPdu
    | (intro)
    | split)

theorem keeps_takeContainer {s t : State} (h : Keeps s t) (x1 x2 x3) :
    Keeps s (State.takeContainer t x1 x2 x3) := by
  unfold State.takeContainer
  try dsimp only
  repeat' (first
    | with_reducible assumption
    | with_reducible apply keeps_each
    | with_reducible apply keeps_rigTouch
    | with_reducible apply keeps_processSrc
    | with_reducible apply keeps_inc
    | (intro)
    | split)

theorem keeps_takeContainers {s t : State} (h : Keeps s t) (x1 x2) :
    Keeps s (State.takeContainers t x1 x2) := by
  unfold State.takeContainers
  try dsimp only
  repeat' (first
    | with_reducible assumption
    | with_reducible apply keeps_add
    | with_reducible apply keeps_each
    | with_reducible apply keeps_takeContainer
    | (intro))

theorem keeps_takeAcf {s t : State} (h : Keeps s t) (x1 x2) :
    Keeps s (State.takeAcf t x1 x2) := by
  unfold State.takeAcf
  try dsimp only
  repeat' (first
    | with_reducible assumption
    | with_reducible apply keeps_inc
    | with_reducible apply keeps_canPut
    | split)

theorem keeps_canAccept {s t : State} (h : Keeps s t) (x1 x2) :
    Keeps s (State.canAccept t x1 x2) := by
  unfold State.canAccept
  try dsimp only
  repeat' (first
    | with_reducible assumption
    | with_reducible apply keeps_each
    | with_reducible apply keeps_rigTouch
    | with_reducible apply keeps_inc
    | with_reducible apply keeps_gather
    | with_reducible apply keeps_processSrc
    | (intro)
    | split)

theorem keeps_linAccept {s t : State} (h : Keeps s t) (x1 x2 x3 x4 x5) :
    Keeps s (State.linAccept t x1 x2 x3 x4 x5) := by
  unfold State.linAccept
  try dsimp only
  repeat' (first
    | with_reducible assumption
    | with_reducible apply keeps_inc
    | with_reducible apply keeps_each
    | with_reducible apply keeps_rigTouch
    | with_reducible apply keeps_gather
    | with_reducible apply keeps_processSrc
    | (intro)
    | split)

theorem keeps_rigUpset {s t : State} (h : Keeps s t) (x1) :
    Keeps s (State.rigUpset t x1) := by
  unfold State.rigUpset
  try dsimp only
  repeat' (first
    | with_reducible assumption
    | with_reducible apply keeps_rigBreak
    | with_reducible apply keeps_inc
    | split)

theorem keeps_rigTake {s t : State} (h : Keeps s t) (x1 x2) :
    Keeps s (State.rigTake t x1 x2) := by
  unfold State.rigTake
  try dsimp only
  repeat' (first
    | with_reducible assumption
    | with_reducible apply keeps_takeContainers
    | with_reducible apply keeps_each
    | with_reducible apply keeps_rigTouch
    | with_reducible apply keeps_takeAcf
    | with_reducible apply keeps_inc
    | (intro)
    | split)

theorem keeps_linSet {s t : State} (h : Keeps s t) (x1 x2) :
    Keeps s (State.linSet t x1 x2) := by
  unfold State.linSet
  try dsimp only
  repeat' (first
    | with_reducible assumption
    | with_reducible apply keeps_eset)

theorem keeps_rxDrop {s t : State} (h : Keeps s t) (x1 x2) :
    Keeps s (State.rxDrop t x1 x2) := by
  unfold State.rxDrop
  try dsimp only
  repeat' (first
    | with_reducible assumption
    | with_reducible apply keeps_fset)

theorem keeps_rxKeep {s t : State} (h : Keeps s t) (x1 x2 x3) :
    Keeps s (State.rxKeep t x1 x2 x3) := by
  unfold State.rxKeep
  try dsimp only
  repeat' (first
    | with_reducible assumption
    | with_reducible apply keeps_fset)

theorem keeps_releaseRx {s t : State} (h : Keeps s t) (x1 x2 x3) :
    Keeps s (State.releaseRx t x1 x2 x3) := by
  unfold State.releaseRx
  try dsimp only
  repeat' (first
    | with_reducible assumption
    | with_reducible apply keeps_rxDrop
    | with_reducible apply keeps_readHandle
    | with_reducible apply keeps_freeFrame
    | with_reducible apply keeps_hset
    | with_reducible apply keeps_rxKeep
    | (intro)
    | split)

theorem keeps_discardHeld {s t : State} (h : Keeps s t) (x1) :
    Keeps s (State.discardHeld t x1) := by
  unfold State.discardHeld
  try dsimp only
  repeat' (first
    | with_reducible assumption
    | with_reducible apply keeps_each
    | with_reducible apply keeps_releaseRx
    | with_reducible apply keeps_inc
    | (intro))

theorem keeps_quotaDrop {s t : State} (h : Keeps s t) (x1 x2) :
    Keeps s (State.quotaDrop t x1 x2) := by
  unfold State.quotaDrop
  try dsimp only
  repeat' (first
    | with_reducible assumption
    | with_reducible apply keeps_emit
    | with_reducible apply keeps_inc)

theorem keeps_notePeak {s t : State} (h : Keeps s t) (x1 x2) :
    Keeps s (State.notePeak t x1 x2) := by
  unfold State.notePeak
  try dsimp only
  repeat' (first
    | with_reducible assumption
    | with_reducible apply keeps_fset)

theorem keeps_enqueueAll {s t : State} (h : Keeps s t) (x1 x2 x3 x4) :
    Keeps s (State.enqueueAll t x1 x2 x3 x4) := by
  unfold State.enqueueAll
  try dsimp only
  repeat' (first
    | with_reducible assumption
    | with_reducible apply keeps_hset
    | with_reducible apply keeps_each
    | with_reducible apply keeps_enqueue
    | with_reducible apply keeps_readHandle
    | with_reducible apply keeps_moveCharge
    | with_reducible apply keeps_freeIfDone
    | (intro)
    | split)

theorem keeps_settleCharge {s t : State} (h : Keeps s t) (x1 x2 x3 x4 x5 x6 x7) :
    Keeps s (State.settleCharge t x1 x2 x3 x4 x5 x6 x7) := by
  unfold State.settleCharge
  try dsimp only
  repeat' (first
    | with_reducible assumption
    | with_reducible apply keeps_rxDrop
    | with_reducible apply keeps_readHandle
    | with_reducible apply keeps_rxKeep
    | with_reducible apply keeps_releaseRx
    | with_reducible apply keeps_quotaDrop
    | with_reducible apply keeps_inc
    | with_reducible apply keeps_showStore
    | with_reducible apply keeps_notePeak
    | with_reducible apply keeps_hset
    | with_reducible apply keeps_learn
    | with_reducible apply keeps_enqueueAll
    | (intro)
    | split)

theorem keeps_refuseStore {s t u : State} {x1 x2 x3 x4} (e : State.refuseStore t x1 x2 x3 x4 = some u) (h : Keeps s t) : Keeps s u := by
  unfold State.refuseStore at e
  repeat' (first
    | contradiction
    | (injection e with e; subst e; first | exact keeps_quotaDrop h _ _ | exact keeps_inc h _)
    | split at e)

theorem keeps_storeFrame {s t : State} (h : Keeps s t) (x1 x2 x3 x4 x5 x6) :
    Keeps s (State.storeFrame t x1 x2 x3 x4 x5 x6) := by
  unfold State.storeFrame
  try dsimp only
  repeat' (first
    | with_reducible assumption
    | with_reducible apply keeps_rxDrop
    | with_reducible apply keeps_inc
    | with_reducible apply keeps_writeWords
    | with_reducible apply keeps_takeHandle
    | with_reducible apply keeps_notePeak
    | with_reducible apply keeps_learn
    | with_reducible apply keeps_enqueueAll
    | refine keeps_refuseStore (by assumption) ?_
    | split)

theorem keeps_forwardRx {s t : State} (h : Keeps s t) (x1 x2 x3 x4 x5) :
    Keeps s (State.forwardRx t x1 x2 x3 x4 x5) := by
  unfold State.forwardRx
  try dsimp only
  repeat' (first
    | with_reducible assumption
    | with_reducible apply keeps_route
    | with_reducible apply keeps_rxKeep
    | with_reducible apply keeps_releaseRx
    | with_reducible apply keeps_settleCharge
    | with_reducible apply keeps_storeFrame
    | split)

theorem keeps_redecide {s t : State} (h : Keeps s t) (x1) :
    Keeps s (State.redecide t x1) := by
  unfold State.redecide
  try dsimp only
  repeat' (first
    | with_reducible assumption
    | with_reducible apply keeps_each
    | with_reducible apply keeps_forwardRx
    | (intro)
    | split)

theorem keeps_settleMarks {s t : State} (h : Keeps s t) (x1 x2) :
    Keeps s (State.settleMarks t x1 x2) := by
  unfold State.settleMarks
  try dsimp only
  repeat' (first
    | with_reducible assumption
    | with_reducible apply keeps_frerSettle
    | with_reducible apply keeps_discardHeld
    | with_reducible apply keeps_redecide
    | split)

theorem keeps_frameGoesBad {s t : State} (h : Keeps s t) (x1 x2 x3) :
    Keeps s (State.frameGoesBad t x1 x2 x3) := by
  unfold State.frameGoesBad
  try dsimp only
  repeat' (first
    | with_reducible assumption
    | with_reducible apply keeps_readHandle
    | with_reducible apply keeps_freeIfDone
    | with_reducible apply keeps_settleMarks
    | with_reducible apply keeps_abortCopies
    | with_reducible apply keeps_markBad
    | (intro))

theorem keeps_growHandle {s t : State} (h : Keeps s t) (x1 x2 x3) :
    Keeps s (State.growHandle t x1 x2 x3) := by
  unfold State.growHandle
  try dsimp only
  repeat' (first
    | with_reducible assumption
    | with_reducible apply keeps_hset
    | with_reducible apply keeps_writeWords
    | split)

theorem keeps_badEnd {s t : State} (h : Keeps s t) (x1 x2 x3) :
    Keeps s (State.badEnd t x1 x2 x3) := by
  unfold State.badEnd
  try dsimp only
  repeat' (first
    | with_reducible assumption
    | with_reducible apply keeps_adjustCharge
    | with_reducible apply keeps_frameGoesBad
    | with_reducible apply keeps_growHandle
    | with_reducible apply keeps_rxDrop
    | with_reducible apply keeps_rxKeep
    | split)

theorem keeps_oldSas {s t : State} (h : Keeps s t) :
    Keeps s (State.oldSas t) := by
  unfold State.oldSas
  try dsimp only
  repeat' (first
    | with_reducible assumption
    | with_reducible apply keeps_each
    | with_reducible apply keeps_fset
    | with_reducible apply keeps_set
    | (intro))

theorem keeps_saKeyRead {s t : State} (h : Keeps s t) (x1) :
    Keeps s (State.saKeyRead t x1) := by
  unfold State.saKeyRead
  try dsimp only
  repeat' (first
    | with_reducible assumption
    | with_reducible apply keeps_slotRead
    | split)

theorem keeps_rxKeyRead {s t : State} (h : Keeps s t) (x1 x2) :
    Keeps s (State.rxKeyRead t x1 x2) := by
  unfold State.rxKeyRead
  try dsimp only
  repeat' (first
    | with_reducible assumption
    | with_reducible apply keeps_saKeyRead
    | split)

theorem keeps_newSas {s t : State} (h : Keeps s t) (x1) : Keeps s (State.newSas t x1) := by
  unfold State.newSas
  exact keeps_each (Keeps.of_same h rfl rfl rfl) fun u x hu => keeps_set hu _ _

theorem keeps_macJudge {s t : State} (h : Keeps s t) (x1 x2) : Keeps s (State.macJudge t x1 x2).1 := by
  unfold State.macJudge
  dsimp only
  split
  · exact h
  · split
    · have hc := keeps_inc h KEY_OFF_DROP_COUNT
      exact hc
    · split
      · have hr := keeps_macReceive (keeps_rxKeyRead h x1 x2.bytes) x1 x2.bytes
        exact hr
      · have hr := keeps_newSas (keeps_macReceive (keeps_rxKeyRead (keeps_oldSas h) x1 x2.bytes) x1 x2.bytes) t
        exact hr

theorem keeps_umpireTakes {s t : State} (h : Keeps s t) (x1 x2) :
    Keeps s (State.umpireTakes t x1 x2).1 := by
  unfold State.umpireTakes
  try dsimp only
  repeat' (first
    | with_reducible assumption
    | with_reducible apply keeps_inc
    | with_reducible apply keeps_classify
    | split)

theorem keeps_mmCounted {s t : State} (h : Keeps s t) (x1 x2) :
    Keeps s (State.mmCounted t x1 x2) := by
  unfold State.mmCounted
  try dsimp only
  repeat' (first
    | with_reducible assumption
    | with_reducible apply keeps_add
    | split)

theorem keeps_macVerdict {s t : State} (h : Keeps s t) (x1 x2 x3 x4) :
    Keeps s (State.macVerdict t x1 x2 x3 x4).1 := by
  unfold State.macVerdict
  try dsimp only
  repeat' (first
    | with_reducible assumption
    | with_reducible apply keeps_noteNode
    | with_reducible apply keeps_mmCounted
    | with_reducible apply keeps_add
    | with_reducible apply keeps_injSpend
    | with_reducible apply keeps_inc
    | split)

theorem keeps_lateOctets {s t : State} (h : Keeps s t) (x1) :
    Keeps s (State.lateOctets t x1) := by
  unfold State.lateOctets
  try dsimp only
  repeat' (first
    | with_reducible assumption
    | with_reducible apply keeps_add
    | split)

theorem keeps_holdsOver {s t : State} (h : Keeps s t) :
    Keeps s (State.holdsOver t) := by
  unfold State.holdsOver
  try dsimp only
  repeat' (first
    | with_reducible assumption
    | with_reducible apply keeps_redecide)

theorem keeps_checkRx {s t : State} (h : Keeps s t) (x1 x2) :
    Keeps s (State.checkRx t x1 x2).1 := by
  unfold State.checkRx
  try dsimp only
  repeat' (first
    | with_reducible assumption
    | with_reducible apply keeps_streamChecks
    | split)

theorem keeps_lengthKnown {s t : State} (h : Keeps s t) (x1) :
    Keeps s (State.lengthKnown t x1) := by
  unfold State.lengthKnown
  try dsimp only
  repeat' (first
    | with_reducible assumption
    | with_reducible apply keeps_fset
    | with_reducible apply keeps_each
    | with_reducible apply keeps_copyLeaves
    | with_reducible apply keeps_inc
    | with_reducible apply keeps_setLane
    | (intro)
    | split)

theorem keeps_goodEnd {s t : State} (h : Keeps s t) (x1 x2 x3 x4) :
    Keeps s (State.goodEnd t x1 x2 x3 x4) := by
  unfold State.goodEnd
  try dsimp only
  repeat' (first
    | with_reducible assumption
    | with_reducible apply keeps_settleMarks
    | with_reducible apply keeps_hset
    | with_reducible apply keeps_growHandle
    | with_reducible apply keeps_lengthKnown
    | with_reducible apply keeps_adjustCharge
    | with_reducible apply keeps_rxDrop
    | with_reducible apply keeps_handleParity
    | with_reducible apply keeps_learn
    | with_reducible apply keeps_rxKeep
    | with_reducible apply keeps_freeFrame
    | with_reducible apply keeps_moveCharge
    | with_reducible apply keeps_freeIfDone
    | split)

theorem keeps_mgmtOut {s t : State} (h : Keeps s t) (x1) :
    Keeps s (State.mgmtOut t x1) := by
  unfold State.mgmtOut
  try dsimp only
  repeat' (first
    | with_reducible assumption
    | with_reducible apply keeps_add
    | with_reducible apply keeps_inc
    | with_reducible apply keeps_fset
    | split)

theorem keeps_identify {s t : State} (h : Keeps s t) (x1 x2) :
    Keeps s (State.identify t x1 x2).1 := by
  unfold State.identify
  try dsimp only
  repeat' (first
    | with_reducible assumption
    | with_reducible apply keeps_streamOf
    | with_reducible apply keeps_inc
    | split)

theorem keeps_settle {s t : State} (h : Keeps s t) (x1 x2 x3 x4) :
    Keeps s (State.settle t x1 x2 x3 x4) := by
  unfold State.settle
  try dsimp only
  repeat' (first
    | with_reducible assumption
    | with_reducible apply keeps_rxKeep
    | with_reducible apply keeps_rxDrop
    | with_reducible apply keeps_releaseRx
    | with_reducible apply keeps_identify
    | with_reducible apply keeps_checkRx
    | with_reducible apply keeps_stopIdle
    | with_reducible apply keeps_forwardRx
    | split)

theorem keeps_endEarly {s t : State} (h : Keeps s t) (x1 x2 x3) :
    Keeps s (State.endEarly t x1 x2 x3) := by
  unfold State.endEarly
  try dsimp only
  repeat' (first
    | with_reducible assumption
    | with_reducible apply keeps_frameGoesBad
    | with_reducible apply keeps_growHandle
    | with_reducible apply keeps_rxKeep
    | split)

theorem keeps_mgmtIn {s t : State} (h : Keeps s t) (x1) :
    Keeps s (State.mgmtIn t x1) := by
  unfold State.mgmtIn
  try dsimp only
  repeat' (first
    | with_reducible assumption
    | with_reducible apply keeps_inc
    | split
    | with_reducible refine Keeps.fields ?_ rfl rfl rfl)

theorem keeps_endFrame {s t : State} (h : Keeps s t) (x1 x2 x3 x4 x5) : Keeps s (State.endFrame t x1 x2 x3 x4 x5) := by
  unfold State.endFrame
  extract_lets m s1 j
  have hm : Keeps s m.1 := keeps_macVerdict h _ _ _ _
  have h1 : Keeps s s1 := keeps_lateOctets hm _
  have hj : Keeps s j.1 := keeps_macJudge h1 _ _
  split
  · exact keeps_badEnd h1 _ _ _
  · split
    · exact keeps_rxDrop (keeps_inc h1 _) _ _
    · split
      · exact keeps_rxDrop hj _ _
      · split
        · split
          · exact keeps_rxDrop (keeps_adjustCharge hj _) _ _
          · exact keeps_rxKeep (keeps_adjustCharge hj _) _ _ _
        · split
          · exact keeps_goodEnd (keeps_rxKeep hj _ _ _) _ _ _ _
          · exact keeps_settle hj _ _ _ _

theorem keeps_frameUncorr {s t : State} (h : Keeps s t) (x1 x2) :
    Keeps s (State.frameUncorr t x1 x2) := by
  unfold State.frameUncorr
  try dsimp only
  repeat' (first
    | with_reducible assumption
    | with_reducible apply keeps_hset
    | with_reducible apply keeps_fstErrLoc
    | with_reducible apply keeps_inc
    | with_reducible apply keeps_eccUncorr
    | with_reducible apply keeps_endEarly
    | with_reducible apply keeps_abortCopies
    | with_reducible apply keeps_markBad
    | split)

theorem keeps_readRest {s t : State} (h : Keeps s t) (x1 x2 x3) :
    Keeps s (State.readRest t x1 x2 x3) := by
  unfold State.readRest
  try dsimp only
  repeat' (first
    | with_reducible assumption
    | with_reducible apply keeps_svcSet
    | with_reducible apply keeps_add
    | with_reducible apply keeps_frameUncorr
    | split)

theorem keeps_toLine {s t : State} (h : Keeps s t) (x1 x2) :
    Keeps s (State.toLine t x1 x2) := by
  unfold State.toLine
  try dsimp only
  repeat' (first
    | with_reducible assumption
    | with_reducible apply keeps_noteOwn
    | with_reducible apply keeps_add
    | with_reducible apply keeps_inc
    | with_reducible apply keeps_endFrame
    | with_reducible apply keeps_fset
    | with_reducible apply keeps_timeSeen
    | split)

theorem keeps_toHost {s t : State} (h : Keeps s t) (x1 x2 x3 x4 x5) :
    Keeps s (State.toHost t x1 x2 x3 x4 x5) := by
  unfold State.toHost
  try dsimp only
  repeat' (first
    | with_reducible assumption
    | with_reducible apply keeps_rxDeliver)

theorem keeps_toCox {s t : State} (h : Keeps s t) (x1 x2 x3) :
    Keeps s (State.toCox t x1 x2 x3) := by
  unfold State.toCox
  try dsimp only
  repeat' (first
    | with_reducible assumption
    | with_reducible apply keeps_inc
    | split
    | with_reducible refine Keeps.fields ?_ rfl rfl rfl)

theorem keeps_toRigger {s t : State} (h : Keeps s t) (x1 x2) :
    Keeps s (State.toRigger t x1 x2) := by
  unfold State.toRigger
  try dsimp only
  repeat' (first
    | with_reducible assumption
    | with_reducible apply keeps_inc
    | with_reducible apply keeps_eset
    | split)

theorem keeps_toSampler {s t : State} (h : Keeps s t) (x1 x2 x3) :
    Keeps s (State.toSampler t x1 x2 x3) := by
  unfold State.toSampler
  try dsimp only
  repeat' (first
    | with_reducible assumption
    | with_reducible apply keeps_toCox
    | with_reducible apply keeps_toHost
    | split)

theorem keeps_deliverCopy {s t : State} (h : Keeps s t) (x1 x2 x3 x4) :
    Keeps s (State.deliverCopy t x1 x2 x3 x4) := by
  unfold State.deliverCopy
  try dsimp only
  repeat' (first
    | with_reducible assumption
    | with_reducible apply keeps_toLine
    | with_reducible apply keeps_toHost
    | with_reducible apply keeps_toCox
    | with_reducible apply keeps_toRigger
    | with_reducible apply keeps_toSampler
    | split)

theorem keeps_stampReady {s t : State} (h : Keeps s t) (x1 x2) :
    Keeps s (State.stampReady t x1 x2) := by
  unfold State.stampReady
  try dsimp only
  repeat' (first
    | with_reducible assumption
    | with_reducible apply keeps_tset)

theorem keeps_endCopy {s t : State} (h : Keeps s t) (x1) :
    Keeps s (State.endCopy t x1) := by
  unfold State.endCopy
  try dsimp only
  repeat' (first
    | with_reducible assumption
    | with_reducible apply keeps_svcSet
    | with_reducible apply keeps_readRest
    | with_reducible apply keeps_sayParity
    | with_reducible apply keeps_frameBoundary
    | with_reducible apply keeps_deliverCopy
    | with_reducible apply keeps_copyLeaves
    | with_reducible apply keeps_stampReady
    | split)

theorem keeps_returnStamp {s t : State} (h : Keeps s t) (x1) :
    Keeps s (State.returnStamp t x1) := by
  unfold State.returnStamp
  try dsimp only
  repeat' (first
    | with_reducible assumption
    | with_reducible apply keeps_tset
    | with_reducible apply keeps_emit
    | split
    | with_reducible refine Keeps.fields ?_ rfl rfl rfl)

theorem keeps_popLane {s t : State} (h : Keeps s t) (x1 x2) :
    Keeps s (State.popLane t x1 x2) := by
  unfold State.popLane
  try dsimp only
  repeat' (first
    | with_reducible assumption
    | with_reducible apply keeps_setLane)

theorem keeps_egressStamp {s t : State} (h : Keeps s t) (x1 x2 x3) :
    Keeps s (State.egressStamp t x1 x2 x3) := by
  unfold State.egressStamp
  try dsimp only
  repeat' (first
    | with_reducible assumption
    | with_reducible apply keeps_inc
    | with_reducible apply keeps_tset
    | with_reducible apply keeps_timeSeen
    | split)

theorem keeps_startCopy {s t : State} (h : Keeps s t) (x1 x2 x3 x4 x5) :
    Keeps s (State.startCopy t x1 x2 x3 x4 x5) := by
  unfold State.startCopy
  try dsimp only
  repeat' (first
    | with_reducible assumption
    | with_reducible apply keeps_shaperCharge
    | with_reducible apply keeps_svcSet
    | with_reducible apply keeps_egressStamp
    | with_reducible apply keeps_recWrite
    | split)

theorem keeps_dropped67 {s t : State} (h : Keeps s t) (x1) :
    Keeps s (State.dropped67 t x1) := by
  unfold State.dropped67
  try dsimp only
  repeat' (first
    | with_reducible assumption
    | split
    | with_reducible refine Keeps.fields ?_ rfl rfl rfl)

theorem keeps_discardAt {s t : State} (h : Keeps s t) (x1 x2) :
    Keeps s (State.discardAt t x1 x2) := by
  unfold State.discardAt
  try dsimp only
  repeat' (first
    | with_reducible assumption
    | with_reducible apply keeps_copyLeaves
    | with_reducible apply keeps_dropped67)

theorem keeps_dequeue {s t : State} (h : Keeps s t) (x1 x2 x3) :
    Keeps.fate s (State.dequeue t x1 x2 x3) := by
  unfold State.dequeue
  try dsimp only
  repeat' (first
    | with_reducible assumption
    | with_reducible apply keeps_dropped67
    | with_reducible apply keeps_sayParity
    | with_reducible apply keeps_handleParity
    | with_reducible apply keeps_copyLeaves
    | with_reducible apply keeps_recDrop
    | with_reducible apply keeps_discardAt
    | with_reducible apply keeps_inc
    | with_reducible apply keeps_add
    | with_reducible apply keeps_frameUncorr
    | with_reducible apply keeps_saKeyRead
    | with_reducible apply keeps_macSend
    | split
    | dsimp only [Keeps.out, Keeps.cmd, Keeps.fate, Keeps.outOpt, Keeps.cmdOpt])

theorem keeps_selectRun {s t : State} (h : Keeps s t) (x1 x2 x3) : Keeps s (State.selectRun t x1 x2 x3) := by
  induction x3 generalizing t with
  | zero => exact h
  | succ n ih =>
    have hd := fun l c f => keeps_dequeue (keeps_svcSet h x1 f) x1 l c
    unfold State.selectRun
    split
    · exact h
    · split
      · exact h
      · dsimp only
        split
        · exact keeps_startCopy (keeps_popLane (Keeps.of_start (by assumption) (hd _ _ _)) _ _) _ _ _ _ _
        · have hg := Keeps.of_gone (by assumption) (hd _ _ _)
          apply ih
          repeat' (first | exact hg | apply keeps_popLane | apply keeps_svcSet | split)

theorem keeps_cutAll {s t : State} (h : Keeps s t) :
    Keeps s (State.cutAll t) := by
  unfold State.cutAll
  try dsimp only
  repeat' (first
    | with_reducible assumption
    | with_reducible apply keeps_each
    | with_reducible apply keeps_cutSending
    | (intro))

theorem keeps_selectNext {s t : State} (h : Keeps s t) (x1 x2 x3) : Keeps s (State.selectNext t x1 x2 x3) := by
  have h1 := keeps_countDefer (keeps_frameBoundary h x1) x1
  unfold State.selectNext
  extract_lets s1 first
  split
  · exact keeps_svcSet h1 _ _
  · exact keeps_sayParity (keeps_selectRun (Keeps.elim h1 fun c => keeps_strike h1 _ _) _ _ _)

end Sys2Proof.Machine
end

