-- ==== Sys2Proof/Laws/KeepsAccess.lean ====
section
/-! SUPPORT. What the operations of the keys, register accesses and the set-up bus keep (Sys2Proof.Machine.Keeps). -/
namespace Sys2Proof.Machine
set_option Elab.async false

theorem keeps_keyOnDemand {s t : State} (h : Keeps s t) :
    Keeps s (State.keyOnDemand t) := by
  unfold State.keyOnDemand
  try dsimp only
  repeat' (first
    | with_reducible assumption
    | with_reducible apply keeps_set
    | with_reducible apply keeps_loadBanks
    | with_reducible apply keeps_firstSeed
    | with_reducible apply keeps_slotsLoad
    | split)

theorem keeps_keyDone {s t : State} (h : Keeps s t) (x1 x2) :
    Keeps.cmd s (keyDone t x1 x2) := by
  unfold keyDone
  try dsimp only
  repeat' (first
    | with_reducible assumption
    | dsimp only [Keeps.out, Keeps.cmd, Keeps.fate, Keeps.outOpt, Keeps.cmdOpt])

theorem keeps_execKeyDestroy {s t : State} (h : Keeps s t) (x1 x2) :
    Keeps.out s (execKeyDestroy x1 x2 t) := by
  unfold execKeyDestroy
  try dsimp only
  repeat' (first
    | with_reducible assumption
    | with_reducible apply keeps_runCmd
    | with_reducible apply keeps_keyDone
    | with_reducible apply keeps_startImage
    | with_reducible apply keeps_slotGone
    | with_reducible apply keeps_slotWrite
    | (intro)
    | split
    | dsimp only [Keeps.out, Keeps.cmd, Keeps.fate, Keeps.outOpt, Keeps.cmdOpt])

theorem keeps_execKeyGenerate {s t : State} (h : Keeps s t) (x1 x2) :
    Keeps.out s (execKeyGenerate x1 x2 t) := by
  unfold execKeyGenerate
  try dsimp only
  repeat' (first
    | with_reducible assumption
    | with_reducible apply keeps_runCmd
    | with_reducible apply keeps_keyDone
    | with_reducible apply keeps_freeBytes
    | with_reducible apply keeps_slotWrite
    | (intro)
    | split
    | dsimp only [Keeps.out, Keeps.cmd, Keeps.fate, Keeps.outOpt, Keeps.cmdOpt])

theorem keeps_execKeyUnwrap {s t : State} (h : Keeps s t) (x1 x2 x3) :
    Keeps.out s (execKeyUnwrap x1 x2 t x3) := by
  unfold execKeyUnwrap
  try dsimp only
  repeat' (first
    | with_reducible assumption
    | with_reducible apply keeps_runCmd
    | with_reducible apply keeps_each
    | with_reducible apply keeps_slotUpset
    | with_reducible apply keeps_slotRead
    | with_reducible apply keeps_keyDone
    | with_reducible apply keeps_slotWrite
    | (intro)
    | split
    | dsimp only [Keeps.out, Keeps.cmd, Keeps.fate, Keeps.outOpt, Keeps.cmdOpt])

theorem keeps_execAttest {s t : State} (h : Keeps s t) (x1 x2) :
    Keeps.out s (execAttest x1 x2 t) := by
  unfold execAttest
  try dsimp only
  repeat' (first
    | with_reducible assumption
    | with_reducible apply keeps_runCmd
    | with_reducible apply keeps_slotRead
    | with_reducible apply keeps_keyOnDemand
    | with_reducible apply keeps_keyDone
    | with_reducible apply keeps_kset
    | with_reducible apply keeps_freeBytes
    | with_reducible apply keeps_hostPut
    | (intro)
    | split
    | dsimp only [Keeps.out, Keeps.cmd, Keeps.fate, Keeps.outOpt, Keeps.cmdOpt])

theorem keeps_execRandom {s t : State} (h : Keeps s t) (x1 x2) :
    Keeps.out s (execRandom x1 x2 t) := by
  unfold execRandom
  try dsimp only
  repeat' (first
    | with_reducible assumption
    | with_reducible apply keeps_runCmd
    | with_reducible apply keeps_freeBytes
    | with_reducible apply keeps_keyOnDemand
    | with_reducible apply keeps_keyDone
    | with_reducible apply keeps_hostPut
    | (intro)
    | split
    | dsimp only [Keeps.out, Keeps.cmd, Keeps.fate, Keeps.outOpt, Keeps.cmdOpt])

theorem keeps_trngRetest {s t : State} (h : Keeps s t) (x1 x2) :
    Keeps s (State.trngRetest t x1 x2) := by
  unfold State.trngRetest
  try dsimp only
  repeat' (first
    | with_reducible assumption
    | with_reducible apply keeps_access
    | with_reducible apply keeps_set
    | split)

theorem keeps_execTrngRetest {s t : State} (h : Keeps s t) (x1 x2) :
    Keeps.out s (execTrngRetest x1 x2 t) := by
  unfold execTrngRetest
  try dsimp only
  repeat' (first
    | with_reducible assumption
    | with_reducible apply keeps_unsupported
    | with_reducible apply keeps_busWaits
    | with_reducible apply keeps_trngRetest
    | split
    | dsimp only [Keeps.out, Keeps.cmd, Keeps.fate, Keeps.outOpt, Keeps.cmdOpt])

theorem keeps_execKeyDerive {s t : State} (h : Keeps s t) (x1 x2 x3) :
    Keeps.out s (execKeyDerive x1 x2 t x3) := by
  unfold execKeyDerive
  try dsimp only
  repeat' (first
    | with_reducible assumption
    | with_reducible apply keeps_runCmd
    | with_reducible apply keeps_each
    | with_reducible apply keeps_slotUpset
    | with_reducible apply keeps_slotRead
    | with_reducible apply keeps_keyDone
    | with_reducible apply keeps_slotWrite
    | (intro)
    | split
    | dsimp only [Keeps.out, Keeps.cmd, Keeps.fate, Keeps.outOpt, Keeps.cmdOpt])

theorem keeps_execTrngHealthFail {s t : State} (h : Keeps s t) (x1) :
    Keeps.out s (execTrngHealthFail x1 t) := by
  unfold execTrngHealthFail
  try dsimp only
  repeat' (first
    | with_reducible assumption
    | with_reducible apply keeps_keyFault
    | with_reducible apply keeps_set
    | with_reducible apply keeps_inc
    | split
    | dsimp only [Keeps.out, Keeps.cmd, Keeps.fate, Keeps.outOpt, Keeps.cmdOpt])

theorem keeps_execKeyWrap {s t : State} (h : Keeps s t) (x1 x2 x3) :
    Keeps.out s (execKeyWrap x1 x2 t x3) := by
  unfold execKeyWrap
  try dsimp only
  repeat' (first
    | with_reducible assumption
    | with_reducible apply keeps_runCmd
    | with_reducible apply keeps_each
    | with_reducible apply keeps_slotUpset
    | with_reducible apply keeps_slotRead
    | with_reducible apply keeps_keyDone
    | with_reducible apply keeps_freeBytes
    | with_reducible apply keeps_hostPut
    | (intro)
    | split
    | dsimp only [Keeps.out, Keeps.cmd, Keeps.fate, Keeps.outOpt, Keeps.cmdOpt])

theorem keeps_timeSettled {s t : State} (h : Keeps s t) :
    Keeps s (State.timeSettled t) := by
  unfold State.timeSettled
  try dsimp only
  repeat' (first
    | with_reducible assumption
    | with_reducible apply keeps_showFabric
    | with_reducible apply keeps_cutAll)

theorem keeps_setTime {s t : State} (h : Keeps s t) (x1) :
    Keeps s (State.setTime t x1) := by
  unfold State.setTime
  try dsimp only
  repeat' (first
    | with_reducible assumption
    | with_reducible apply keeps_tset
    | with_reducible apply keeps_inPlace
    | with_reducible apply keeps_tick
    | with_reducible apply keeps_swapDue
    | with_reducible apply keeps_timeSettled
    | with_reducible apply keeps_enterSw
    | with_reducible apply keeps_each
    | with_reducible apply keeps_gatesFollow
    | with_reducible apply keeps_catchFollow
    | (intro))

theorem keeps_buoyPop {s t : State} (h : Keeps s t) (x1) :
    Keeps s (State.buoyPop t x1) := by
  unfold State.buoyPop
  try dsimp only
  repeat' (first
    | with_reducible assumption
    | with_reducible apply keeps_showBuoy
    | with_reducible apply keeps_tset)

theorem keeps_clearCounters {s t : State} (h : Keeps s t) (x1) :
    Keeps s (State.clearCounters t x1) := by
  unfold State.clearCounters
  try dsimp only
  repeat' (first
    | with_reducible assumption
    | with_reducible refine Keeps.dropped _ ?_ rfl rfl)

theorem keeps_domHook {s t : State} (h : Keeps s t) (x1 x2) :
    Keeps s (State.domHook t x1 x2) := by
  unfold State.domHook
  try dsimp only
  repeat' (first
    | with_reducible assumption
    | with_reducible apply keeps_timeSettled
    | with_reducible apply keeps_domainStarts
    | with_reducible apply keeps_domainStops
    | split)

theorem keeps_incrHook {s t : State} (h : Keeps s t) (x1) :
    Keeps s (State.incrHook t x1) := by
  unfold State.incrHook
  try dsimp only
  repeat' (first
    | with_reducible assumption
    | with_reducible apply keeps_wr
    | with_reducible apply keeps_inPlace
    | split)

theorem keeps_slewHook {s t : State} (h : Keeps s t) (x1 x2) :
    Keeps s (State.slewHook t x1 x2) := by
  unfold State.slewHook
  try dsimp only
  repeat' (first
    | with_reducible assumption
    | with_reducible apply keeps_jumpJudge
    | with_reducible apply keeps_timeSettled
    | with_reducible apply keeps_setSlew
    | split)

theorem keeps_stepHook {s t : State} (h : Keeps s t) (x1 x2 x3) :
    Keeps s (State.stepHook t x1 x2 x3) := by
  unfold State.stepHook
  try dsimp only
  repeat' (first
    | with_reducible assumption
    | with_reducible apply keeps_wr
    | with_reducible apply keeps_jumpJudge
    | with_reducible apply keeps_swapDue
    | with_reducible apply keeps_timeSettled
    | with_reducible apply keeps_stepBy
    | with_reducible apply keeps_inPlace
    | with_reducible apply keeps_tick
    | split)

theorem keeps_takeBack {s t : State} (h : Keeps s t) (x1) :
    Keeps s (State.takeBack t x1) := by
  unfold State.takeBack
  try dsimp only
  repeat' (first
    | with_reducible assumption
    | with_reducible apply keeps_enterSw
    | with_reducible apply keeps_emit
    | with_reducible apply keeps_noPulses
    | with_reducible apply keeps_dropSlew
    | with_reducible apply keeps_inPlace)

theorem keeps_servoHook {s t : State} (h : Keeps s t) (x1 x2) :
    Keeps s (State.servoHook t x1 x2) := by
  unfold State.servoHook
  try dsimp only
  repeat' (first
    | with_reducible assumption
    | with_reducible apply keeps_tick
    | with_reducible apply keeps_takeover
    | with_reducible apply keeps_timeSettled
    | with_reducible apply keeps_takeBack
    | split)

theorem keeps_snapshot {s t : State} (h : Keeps s t) :
    Keeps s (State.snapshot t) := by
  unfold State.snapshot
  try dsimp only
  repeat' (first
    | with_reducible assumption
    | with_reducible apply keeps_set
    | with_reducible apply keeps_each
    | (intro))

theorem keeps_catchHook {s t : State} (h : Keeps s t) (x1 x2) :
    Keeps s (State.catchHook t x1 x2) := by
  unfold State.catchHook
  try dsimp only
  repeat' (first
    | with_reducible assumption
    | with_reducible apply keeps_tset
    | with_reducible apply keeps_set
    | with_reducible apply keeps_catchSeek
    | with_reducible apply keeps_catchPin
    | split)

theorem keeps_timeHook {s t : State} (h : Keeps s t) (x1 x2 x3 x4 x5) :
    Keeps s (State.timeHook t x1 x2 x3 x4 x5) := by
  unfold State.timeHook
  try dsimp only
  repeat' (first
    | with_reducible assumption
    | with_reducible apply keeps_domHook
    | with_reducible apply keeps_incrHook
    | with_reducible apply keeps_slewHook
    | with_reducible apply keeps_stepHook
    | with_reducible apply keeps_setTime
    | with_reducible apply keeps_servoHook
    | with_reducible apply keeps_snapshot
    | with_reducible apply keeps_catchHook
    | with_reducible apply keeps_buoyPop
    | split)

theorem keeps_hostHook {s t : State} (h : Keeps s t) (x1 x2 x3 x4) :
    Keeps s (State.hostHook t x1 x2 x3 x4) := by
  unfold State.hostHook
  try dsimp only
  repeat' (first
    | with_reducible assumption
    | with_reducible apply keeps_flushHeld
    | with_reducible apply keeps_ringZero
    | with_reducible apply keeps_statusZero
    | with_reducible apply keeps_kick
    | with_reducible apply keeps_set
    | split)

theorem keeps_canRecover {s t : State} (h : Keeps s t) (x1) :
    Keeps s (State.canRecover t x1) := by
  unfold State.canRecover
  try dsimp only
  repeat' (first
    | with_reducible assumption
    | with_reducible apply keeps_canPut
    | with_reducible apply keeps_set
    | split)

theorem keeps_canHook {s t : State} (h : Keeps s t) (x1 x2 x3) :
    Keeps s (State.canHook t x1 x2 x3) := by
  unfold State.canHook
  try dsimp only
  repeat' (first
    | with_reducible assumption
    | with_reducible apply keeps_canGo
    | with_reducible apply keeps_canPut
    | with_reducible apply keeps_set
    | with_reducible apply keeps_canRecover
    | split)

theorem keeps_linDrive {s t : State} (h : Keeps s t) (x1) :
    Keeps s (State.linDrive t x1) := by
  unfold State.linDrive
  try dsimp only
  repeat' (first
    | with_reducible assumption
    | with_reducible apply keeps_eset
    | split)

theorem keeps_linHook {s t : State} (h : Keeps s t) (x1 x2 x3) :
    Keeps s (State.linHook t x1 x2 x3) := by
  unfold State.linHook
  try dsimp only
  repeat' (first
    | with_reducible assumption
    | with_reducible apply keeps_linSet
    | with_reducible apply keeps_set
    | with_reducible apply keeps_linShow
    | with_reducible apply keeps_linDrive
    | split)

theorem keeps_edgeHook {s t : State} (h : Keeps s t) (x1 x2 x3 x4) :
    Keeps s (State.edgeHook t x1 x2 x3 x4) := by
  unfold State.edgeHook
  try dsimp only
  repeat' (first
    | with_reducible assumption
    | with_reducible apply keeps_canHook
    | with_reducible apply keeps_linHook
    | with_reducible apply keeps_eset
    | with_reducible apply keeps_clearWord
    | with_reducible apply keeps_startImage
    | split)

theorem keeps_portEnabled {s t : State} (h : Keeps s t) (x1) :
    Keeps s (State.portEnabled t x1) := by
  unfold State.portEnabled
  try dsimp only
  repeat' (first
    | with_reducible assumption
    | with_reducible apply keeps_portLeaveOff
    | split)

theorem keeps_portHook {s t : State} (h : Keeps s t) (x1 x2) :
    Keeps s (State.portHook t x1 x2) := by
  unfold State.portHook
  try dsimp only
  repeat' (first
    | with_reducible assumption
    | with_reducible apply keeps_portToOff
    | with_reducible apply keeps_portEnabled
    | split)

theorem keeps_startDiag {s t : State} (h : Keeps s t) (x1) :
    Keeps s (State.startDiag t x1) := by
  unfold State.startDiag
  try dsimp only
  repeat' (first
    | with_reducible assumption
    | with_reducible apply keeps_prtSet
    | with_reducible apply keeps_putMdi
    | with_reducible apply keeps_setLink
    | with_reducible apply keeps_set
    | with_reducible apply keeps_dropRecord
    | split)

theorem keeps_startMdio {s t : State} (h : Keeps s t) (x1) :
    Keeps s (State.startMdio t x1) := by
  unfold State.startMdio
  try dsimp only
  repeat' (first
    | with_reducible assumption
    | with_reducible apply keeps_set
    | with_reducible apply keeps_mdioTake
    | split
    | with_reducible refine Keeps.fields ?_ rfl rfl rfl)

theorem keeps_ageHook {s t : State} (h : Keeps s t) (x1) :
    Keeps s (State.ageHook t x1) := by
  unfold State.ageHook
  try dsimp only
  repeat' (first
    | with_reducible assumption
    | with_reducible apply keeps_fset
    | split)

theorem keeps_fstHook {s t : State} (h : Keeps s t) (x1) :
    Keeps s (State.fstHook t x1) := by
  unfold State.fstHook
  try dsimp only
  repeat' (first
    | with_reducible assumption
    | with_reducible apply keeps_set
    | with_reducible apply keeps_fstStart
    | split)

theorem keeps_recStop {s t : State} (h : Keeps s t) :
    Keeps s (State.recStop t) := by
  unfold State.recStop
  try dsimp only
  repeat' (first
    | with_reducible assumption
    | with_reducible apply keeps_set
    | with_reducible apply keeps_writePage
    | split)

theorem keeps_recStart {s t : State} (h : Keeps s t) :
    Keeps s (State.recStart t) := by
  unfold State.recStart
  try dsimp only
  repeat' (first
    | with_reducible assumption
    | with_reducible apply keeps_set
    | with_reducible refine Keeps.fields ?_ rfl rfl rfl)

theorem keeps_recHook {s t : State} (h : Keeps s t) (x1) :
    Keeps s (State.recHook t x1) := by
  unfold State.recHook
  try dsimp only
  repeat' (first
    | with_reducible assumption
    | with_reducible apply keeps_recStop
    | with_reducible apply keeps_recStart
    | with_reducible apply keeps_set
    | split)

theorem keeps_dramHook {s t : State} (h : Keeps s t) (x1) :
    Keeps s (State.dramHook t x1) := by
  unfold State.dramHook
  try dsimp only
  repeat' (first
    | with_reducible assumption
    | with_reducible apply keeps_clearWord
    | with_reducible apply keeps_dramForgets
    | split)

theorem keeps_clearObs {s t : State} (h : Keeps s t) :
    Keeps s (State.clearObs t) := by
  unfold State.clearObs
  try dsimp only
  repeat' (first
    | with_reducible assumption
    | with_reducible refine Keeps.dropped _ ?_ rfl rfl)

theorem keeps_hfpHook {s t : State} (h : Keeps s t) (x1) :
    Keeps s (State.hfpHook t x1) := by
  unfold State.hfpHook
  try dsimp only
  repeat' (first
    | with_reducible assumption
    | with_reducible apply keeps_hfpStop
    | with_reducible apply keeps_showFabric
    | split)

theorem keeps_hfpPortsHook {s t : State} (h : Keeps s t) (x1 x2) :
    Keeps s (State.hfpPortsHook t x1 x2) := by
  unfold State.hfpPortsHook
  try dsimp only
  repeat' (first
    | with_reducible assumption
    | with_reducible apply keeps_each
    | with_reducible apply keeps_adjPortDown
    | (intro))

theorem keeps_adjHook {s t : State} (h : Keeps s t) (x1 x2) :
    Keeps s (State.adjHook t x1 x2) := by
  unfold State.adjHook
  try dsimp only
  repeat' (first
    | with_reducible assumption
    | with_reducible apply keeps_computeRoutes
    | with_reducible apply keeps_floodOwn
    | split)

theorem keeps_fabricHook {s t : State} (h : Keeps s t) (x1 x2 x3 x4) :
    Keeps s (State.fabricHook t x1 x2 x3 x4) := by
  unfold State.fabricHook
  try dsimp only
  repeat' (first
    | with_reducible assumption
    | with_reducible apply keeps_portHook
    | with_reducible apply keeps_startDiag
    | with_reducible apply keeps_startMdio
    | with_reducible apply keeps_ageHook
    | with_reducible apply keeps_fstHook
    | with_reducible apply keeps_clearWord
    | with_reducible apply keeps_recHook
    | with_reducible apply keeps_dramHook
    | with_reducible apply keeps_startImage
    | with_reducible apply keeps_clearObs
    | with_reducible apply keeps_cutSending
    | with_reducible apply keeps_hfpHook
    | with_reducible apply keeps_hfpPortsHook
    | with_reducible apply keeps_adjHook
    | split)

theorem keeps_faultHook {s t : State} (h : Keeps s t) (x1) :
    Keeps s (State.faultHook t x1) := by
  unfold State.faultHook
  try dsimp only
  repeat' (first
    | with_reducible assumption
    | with_reducible apply keeps_wr
    | with_reducible apply keeps_faultInEntry
    | with_reducible apply keeps_recFaultTrigger
    | split)

theorem keeps_pwrHook {s t : State} (h : Keeps s t) (x1 x2 x3) :
    Keeps s (State.pwrHook t x1 x2 x3) := by
  unfold State.pwrHook
  try dsimp only
  repeat' (first
    | with_reducible assumption
    | with_reducible apply keeps_stopIdle
    | with_reducible apply keeps_set
    | with_reducible apply keeps_settleSwitch
    | with_reducible apply keeps_powerRequest
    | split)

theorem keeps_domainsHook {s t : State} (h : Keeps s t) (x1 x2 x3) :
    Keeps s (State.domainsHook t x1 x2 x3) := by
  unfold State.domainsHook
  try dsimp only
  repeat' (first
    | with_reducible assumption
    | with_reducible apply keeps_wr
    | with_reducible apply keeps_domainsFollow
    | split)

theorem keeps_safetyHook {s t : State} (h : Keeps s t) (x1 x2 x3 x4 x5 x6) :
    Keeps s (State.safetyHook t x1 x2 x3 x4 x5 x6) := by
  unfold State.safetyHook
  try dsimp only
  repeat' (first
    | with_reducible assumption
    | with_reducible apply keeps_clearWord
    | with_reducible apply keeps_faultHook
    | with_reducible apply keeps_set
    | with_reducible apply keeps_disarmAll
    | with_reducible apply keeps_injActNow
    | with_reducible apply keeps_updDramOff
    | with_reducible apply keeps_healthConfirm
    | with_reducible apply keeps_pwrHook
    | with_reducible apply keeps_domainsFollow
    | with_reducible apply keeps_domainsHook
    | with_reducible apply keeps_startOk
    | with_reducible apply keeps_pwRequest
    | with_reducible apply keeps_logWordWrite
    | split)

theorem keeps_regHook {s t : State} (h : Keeps s t) (x1 x2 x3 x4 x5 x6) :
    Keeps s (State.regHook t x1 x2 x3 x4 x5 x6) := by
  unfold State.regHook
  try dsimp only
  repeat' (first
    | with_reducible assumption
    | with_reducible apply keeps_clearCounters
    | with_reducible apply keeps_timeHook
    | with_reducible apply keeps_hostHook
    | with_reducible apply keeps_edgeHook
    | with_reducible apply keeps_fabricHook
    | with_reducible apply keeps_safetyHook
    | split)

theorem keeps_readEffect {s t : State} (h : Keeps s t) (x1 x2 x3 x4) :
    Keeps s (State.readEffect t x1 x2 x3 x4) := by
  unfold State.readEffect
  try dsimp only
  repeat' (first
    | with_reducible assumption
    | with_reducible apply keeps_wr
    | with_reducible apply keeps_set
    | with_reducible apply keeps_fset
    | split
    | with_reducible refine Keeps.fields ?_ rfl rfl rfl)

theorem keeps_regGet {s t : State} (h : Keeps s t) (x1 x2 x3 x4) :
    Keeps s (State.regGet t x1 x2 x3 x4).2 := by
  unfold State.regGet
  try dsimp only
  repeat' (first
    | with_reducible assumption
    | with_reducible apply keeps_readEffect)

theorem keeps_localRead {s t : State} (h : Keeps s t) (x1 x2) :
    Keeps s (State.localRead t x1 x2).2 := by
  unfold State.localRead
  try dsimp only
  repeat' (first
    | with_reducible assumption
    | with_reducible apply keeps_accessErr
    | with_reducible apply keeps_regGet
    | split)

theorem keeps_flr {s t : State} (h : Keeps s t) :
    Keeps s (State.flr t) := by
  unfold State.flr
  try dsimp only
  repeat' (first
    | with_reducible assumption
    | with_reducible apply keeps_pcieLink
    | with_reducible apply keeps_clearIsland)

theorem keeps_msixRelease {s t : State} (h : Keeps s t) :
    Keeps s (State.msixRelease t) := by
  unfold State.msixRelease
  try dsimp only
  repeat' (first
    | with_reducible assumption
    | with_reducible apply keeps_each
    | with_reducible apply keeps_sendVector
    | (intro)
    | split
    | with_reducible refine Keeps.fields ?_ rfl rfl rfl)

theorem keeps_cfgDevControl {s t : State} (h : Keeps s t) (x1) :
    Keeps s (State.cfgDevControl t x1) := by
  unfold State.cfgDevControl
  try dsimp only
  repeat' (first
    | with_reducible assumption
    | with_reducible apply keeps_pciSet
    | with_reducible apply keeps_flr
    | split)

theorem keeps_cfgWrite {s t : State} (h : Keeps s t) (x1 x2) :
    Keeps s (State.cfgWrite t x1 x2) := by
  unfold State.cfgWrite
  try dsimp only
  repeat' (first
    | with_reducible assumption
    | with_reducible apply keeps_msixRelease
    | with_reducible apply keeps_pciSet
    | with_reducible apply keeps_cfgDevControl
    | split)

theorem keeps_msixWrite {s t : State} (h : Keeps s t) (x1 x2 x3) :
    Keeps s (State.msixWrite t x1 x2 x3) := by
  unfold State.msixWrite
  try dsimp only
  repeat' (first
    | with_reducible assumption
    | with_reducible apply keeps_msixRelease
    | split
    | with_reducible refine Keeps.fields ?_ rfl rfl rfl)

theorem keeps_regPut {s t : State} (h : Keeps s t) (x1 x2 x3 x4 x5 x6 x7) :
    Keeps s (State.regPut t x1 x2 x3 x4 x5 x6 x7) := by
  unfold State.regPut
  try dsimp only
  repeat' (first
    | with_reducible assumption
    | with_reducible apply keeps_regHook
    | with_reducible apply keeps_wr
    | with_reducible apply keeps_accessErr
    | with_reducible apply keeps_holdFaultN
    | split)

theorem keeps_localWrite {s t : State} (h : Keeps s t) (x1 x2 x3) :
    Keeps s (State.localWrite t x1 x2 x3) := by
  unfold State.localWrite
  try dsimp only
  repeat' (first
    | with_reducible assumption
    | with_reducible apply keeps_msixWrite
    | with_reducible apply keeps_accessErr
    | with_reducible apply keeps_regPut
    | split)

theorem keeps_waits {s t : State} (h : Keeps s t) (x1) :
    Keeps s (State.waits t x1) := by
  unfold State.waits
  try dsimp only
  repeat' (first
    | with_reducible assumption
    | with_reducible apply keeps_busWaits
    | with_reducible apply keeps_bset
    | split)

theorem keeps_cmdRefuse {s t : State} (h : Keeps s t) (x1 x2) :
    Keeps s (State.cmdRefuse t x1 x2) := by
  unfold State.cmdRefuse
  try dsimp only
  repeat' (first
    | with_reducible assumption
    | with_reducible apply keeps_complete
    | with_reducible apply keeps_stopIdle)

theorem keeps_busRead {s t : State} (h : Keeps s t) (x1 x2 x3) : Keeps s (State.busRead t x1 x2 x3).1 := by
  induction x3 generalizing t x2 with
  | zero => exact h
  | succ n ih => exact ih (keeps_localRead h _ _) (x2 + 4)

theorem keeps_peerRead {s t : State} (h : Keeps s t) (x1 x2 x3) :
    Keeps s (State.peerRead t x1 x2 x3) := by
  unfold State.peerRead
  try dsimp only
  repeat' (first
    | with_reducible assumption
    | with_reducible apply keeps_sendCpl
    | with_reducible apply keeps_accessErr
    | with_reducible apply keeps_busRead
    | split)

theorem keeps_sendLate {s t : State} (h : Keeps s t) (x1 x2) :
    Keeps s (State.sendLate t x1 x2) := by
  unfold State.sendLate
  try dsimp only
  repeat' (first
    | with_reducible assumption
    | with_reducible apply keeps_sendHfp)

theorem keeps_busWrite {s t : State} (h : Keeps s t) (x1 x2 x3) : Keeps s (State.busWrite t x1 x2 x3).1 := by
  induction x3 generalizing t x2 with
  | nil => exact h
  | cons v l ih => exact ih (keeps_localWrite h _ _ _) (x2 + 4)

theorem keeps_peerWrite {s t : State} (h : Keeps s t) (x1 x2 x3) :
    Keeps s (State.peerWrite t x1 x2 x3) := by
  unfold State.peerWrite
  try dsimp only
  repeat' (first
    | with_reducible assumption
    | with_reducible apply keeps_sendCpl
    | with_reducible apply keeps_sendLate
    | with_reducible apply keeps_accessErr
    | with_reducible apply keeps_busWrite
    | split)

theorem keeps_peerRequest {s t : State} (h : Keeps s t) (x1) :
    Keeps s (State.peerRequest t x1) := by
  unfold State.peerRequest
  try dsimp only
  repeat' (first
    | with_reducible assumption
    | with_reducible apply keeps_peerRead
    | with_reducible apply keeps_peerWrite
    | split)

theorem keeps_lockOp {s t : State} (h : Keeps s t) (x1 x2 x3) :
    Keeps s (State.lockOp t x1 x2 x3).1 := by
  unfold State.lockOp
  try dsimp only
  repeat' (first
    | with_reducible assumption
    | with_reducible apply keeps_localWrite
    | with_reducible apply keeps_localRead
    | split)

theorem keeps_lockOps {s t : State} (h : Keeps s t) (x1 x2) :
    Keeps s (State.lockOps t x1 x2).1 := by
  unfold State.lockOps
  try dsimp only
  repeat' (first
    | with_reducible assumption
    | with_reducible apply keeps_lockOp
    | with_reducible apply Keeps.foldl_fst
    | (intro))

theorem keeps_lockServe {s t : State} (h : Keeps s t) (x1 x2) :
    Keeps s (State.lockServe t x1 x2) := by
  unfold State.lockServe
  try dsimp only
  repeat' (first
    | with_reducible assumption
    | with_reducible apply keeps_sendCpl
    | with_reducible apply keeps_set
    | with_reducible apply keeps_lockOps
    | split)

theorem keeps_spanRun {s t : State} (h : Keeps s t) (x1 x2 x3) :
    Keeps s (State.spanRun t x1 x2 x3) := by
  unfold State.spanRun
  try dsimp only
  repeat' (first
    | with_reducible assumption
    | with_reducible apply keeps_accessErr
    | with_reducible apply keeps_localWrite
    | with_reducible apply keeps_localRead
    | with_reducible apply keeps_bset
    | with_reducible apply Keeps.foldl_fst
    | (intro)
    | split
    | with_reducible refine Keeps.fields ?_ rfl rfl rfl)

theorem keeps_runWaiting {s t : State} (h : Keeps s t) (x1) :
    Keeps s (State.runWaiting t x1) := by
  unfold State.runWaiting
  try dsimp only
  repeat' (first
    | with_reducible assumption
    | with_reducible apply keeps_peerRequest
    | with_reducible apply keeps_lockServe
    | with_reducible apply keeps_localWrite
    | with_reducible apply keeps_localRead
    | with_reducible apply keeps_spanRun
    | with_reducible apply keeps_wdogKick
    | with_reducible apply keeps_trngRetest
    | split
    | with_reducible refine Keeps.fields ?_ rfl rfl rfl)

theorem keeps_drainFrom {s t : State} (h : Keeps s t) (x1 x2) : Keeps s (State.drainFrom t x1 x2) := by
  induction x2 generalizing t x1 with
  | nil => exact keeps_each h fun u x hu => keeps_waits hu _
  | cons w l ih =>
    unfold State.drainFrom
    split
    · exact keeps_each h fun u x hu => keeps_waits hu _
    · split
      · exact ih h _
      · split
        · split
          · exact ih (keeps_cmdRefuse h _ _) _
          · exact ih h _
        · exact ih (keeps_runWaiting h _) _

theorem keeps_busDrain {s t : State} (h : Keeps s t) :
    Keeps s (State.busDrain t) := by
  unfold State.busDrain
  try dsimp only
  repeat' (first
    | with_reducible assumption
    | with_reducible apply keeps_drainFrom
    | with_reducible apply keeps_bset
    | split)

theorem keeps_busPut {s t : State} (h : Keeps s t) (x1 x2 x3) :
    Keeps s (State.busPut t x1 x2 x3) := by
  unfold State.busPut
  try dsimp only
  repeat' (first
    | with_reducible assumption
    | with_reducible apply keeps_busDrain
    | with_reducible apply keeps_busWaits
    | with_reducible apply keeps_localWrite
    | split)

theorem keeps_lockGo {s t : State} (h : Keeps s t) (x1) :
    Keeps s (State.lockGo t x1) := by
  unfold State.lockGo
  try dsimp only
  repeat' (first
    | with_reducible assumption
    | with_reducible apply keeps_ask
    | with_reducible apply keeps_set
    | with_reducible apply keeps_lockPut
    | split)

theorem keeps_lockTryOf {s t : State} (h : Keeps s t) (x1) :
    Keeps s (State.lockTryOf t x1) := by
  unfold State.lockTryOf
  try dsimp only
  repeat' (first
    | with_reducible assumption
    | with_reducible apply keeps_lockGo
    | split)

theorem keeps_lockTry {s t : State} (h : Keeps s t) :
    Keeps s (State.lockTry t) := by
  unfold State.lockTry
  try dsimp only
  repeat' (first
    | with_reducible assumption
    | with_reducible apply keeps_lockTryOf)

theorem keeps_busSettle {s t : State} (h : Keeps s t) :
    Keeps s (State.busSettle t) := by
  unfold State.busSettle
  try dsimp only
  repeat' (first
    | with_reducible assumption
    | with_reducible apply keeps_lockTry
    | with_reducible apply keeps_busDrain)

theorem keeps_sendNak {s t : State} (h : Keeps s t) (x1 x2) :
    Keeps s (State.sendNak t x1 x2) := by
  unfold State.sendNak
  try dsimp only
  repeat' (first
    | with_reducible assumption
    | with_reducible apply keeps_sendHfp)

theorem keeps_lockDrop {s t : State} (h : Keeps s t) (x1) : Keeps s (State.lockDrop t x1) := by
  unfold State.lockDrop
  refine keeps_each (keeps_bset h _) fun u w hu => ?_
  cases w.msg with
  | none => exact hu
  | some m => exact keeps_sendNak hu _ _

theorem keeps_lockTick {s t : State} (h : Keeps s t) :
    Keeps s (State.lockTick t) := by
  unfold State.lockTick
  try dsimp only
  repeat' (first
    | with_reducible assumption
    | with_reducible apply keeps_each
    | with_reducible apply keeps_set
    | with_reducible apply keeps_bset
    | with_reducible apply keeps_busSettle
    | with_reducible apply keeps_lockDrop
    | (intro)
    | split)

theorem keeps_busGet {s t : State} (h : Keeps s t) (x1 x2) :
    Keeps s (State.busGet t x1 x2) := by
  unfold State.busGet
  try dsimp only
  repeat' (first
    | with_reducible assumption
    | with_reducible apply keeps_busDrain
    | with_reducible apply keeps_busWaits
    | with_reducible apply keeps_localRead
    | split
    | with_reducible refine Keeps.fields ?_ rfl rfl rfl)

theorem keeps_busSpan {s t : State} (h : Keeps s t) (x1 x2 x3) :
    Keeps s (State.busSpan t x1 x2 x3) := by
  unfold State.busSpan
  try dsimp only
  repeat' (first
    | with_reducible assumption
    | with_reducible apply keeps_busDrain
    | with_reducible apply keeps_busWaits
    | with_reducible apply keeps_spanRun
    | split)

theorem keeps_execFaultNHoldEnd {s t : State} (h : Keeps s t) :
    Keeps.out s (execFaultNHoldEnd t) := by
  unfold execFaultNHoldEnd
  try dsimp only
  repeat' (first
    | with_reducible assumption
    | dsimp only [Keeps.out, Keeps.cmd, Keeps.fate, Keeps.outOpt, Keeps.cmdOpt]
    | with_reducible refine Keeps.fields ?_ rfl rfl rfl)

theorem keeps_malformed {s t : State} (h : Keeps s t) (x1 x2 x3) :
    Keeps s (State.malformed t x1 x2 x3) := by
  unfold State.malformed
  try dsimp only
  repeat' (first
    | with_reducible assumption
    | with_reducible apply keeps_bset
    | with_reducible apply keeps_accessErr)

theorem keeps_regWrite {s t : State} (h : Keeps s t) (x1 x2 x3) :
    Keeps s (State.regWrite t x1 x2 x3) := by
  unfold State.regWrite
  try dsimp only
  repeat' (first
    | with_reducible assumption
    | with_reducible apply keeps_cfgWrite
    | with_reducible apply keeps_unsupported
    | with_reducible apply keeps_malformed
    | with_reducible apply keeps_busPut
    | with_reducible apply keeps_busSettle
    | with_reducible apply keeps_ask
    | split)

theorem keeps_regRead {s t : State} (h : Keeps s t) (x1 x2) :
    Keeps s (State.regRead t x1 x2) := by
  unfold State.regRead
  try dsimp only
  repeat' (first
    | with_reducible assumption
    | with_reducible apply keeps_unsupported
    | with_reducible apply keeps_malformed
    | with_reducible apply keeps_busGet
    | with_reducible apply keeps_ask
    | split
    | with_reducible refine Keeps.fields ?_ rfl rfl rfl)

theorem keeps_execRcRead {s t : State} (h : Keeps s t) (x1 x2) :
    Keeps.out s (execRcRead x1 x2 t) := by
  unfold execRcRead
  try dsimp only
  repeat' (first
    | with_reducible assumption
    | with_reducible apply keeps_regRead
    | dsimp only [Keeps.out, Keeps.cmd, Keeps.fate, Keeps.outOpt, Keeps.cmdOpt])

theorem keeps_write {s t : State} (h : Keeps s t) (x1 x2 x3) :
    Keeps s (State.write t x1 x2 x3) := by
  unfold State.write
  try dsimp only
  repeat' (first
    | with_reducible assumption
    | with_reducible apply keeps_regWrite)

theorem keeps_execSetupLock {s t : State} (h : Keeps s t) (x1) :
    Keeps.out s (execSetupLock x1 t) := by
  unfold execSetupLock
  try dsimp only
  repeat' (first
    | with_reducible assumption
    | with_reducible apply keeps_write
    | dsimp only [Keeps.out, Keeps.cmd, Keeps.fate, Keeps.outOpt, Keeps.cmdOpt])

theorem keeps_execRegisterWrite {s t : State} (h : Keeps s t) (x1 x2 x3) :
    Keeps.out s (execRegisterWrite x1 x2 x3 t) := by
  unfold execRegisterWrite
  try dsimp only
  repeat' (first
    | with_reducible assumption
    | with_reducible apply keeps_regWrite
    | dsimp only [Keeps.out, Keeps.cmd, Keeps.fate, Keeps.outOpt, Keeps.cmdOpt])

theorem keeps_execCounterLowRead {s t : State} (h : Keeps s t) (x1 x2) :
    Keeps.out s (execCounterLowRead x1 x2 t) := by
  unfold execCounterLowRead
  try dsimp only
  repeat' (first
    | with_reducible assumption
    | with_reducible apply keeps_regRead
    | dsimp only [Keeps.out, Keeps.cmd, Keeps.fate, Keeps.outOpt, Keeps.cmdOpt])

theorem keeps_execCntClear {s t : State} (h : Keeps s t) (x1 x2) :
    Keeps.out s (execCntClear x1 x2 t) := by
  unfold execCntClear
  try dsimp only
  repeat' (first
    | with_reducible assumption
    | with_reducible apply keeps_write
    | dsimp only [Keeps.out, Keeps.cmd, Keeps.fate, Keeps.outOpt, Keeps.cmdOpt])

theorem keeps_canMark {s t : State} (h : Keeps s t) (x1 x2) :
    Keeps s (State.canMark t x1 x2) := by
  unfold State.canMark
  try dsimp only
  repeat' (first
    | with_reducible assumption
    | with_reducible apply keeps_eset
    | split)

theorem keeps_canShowErr {s t : State} (h : Keeps s t) (x1) :
    Keeps s (State.canShowErr t x1) := by
  unfold State.canShowErr
  try dsimp only
  repeat' (first
    | with_reducible assumption
    | with_reducible apply keeps_set)

theorem keeps_execCanRecoveryDone {s t : State} (h : Keeps s t) (x1) :
    Keeps.out s (execCanRecoveryDone x1 t) := by
  unfold execCanRecoveryDone
  try dsimp only
  repeat' (first
    | with_reducible assumption
    | with_reducible apply keeps_canPut
    | with_reducible apply keeps_set
    | with_reducible apply keeps_canShowErr
    | with_reducible apply keeps_inc
    | split
    | dsimp only [Keeps.out, Keeps.cmd, Keeps.fate, Keeps.outOpt, Keeps.cmdOpt])

theorem keeps_execCanTxDeadline {s t : State} (h : Keeps s t) (x1) :
    Keeps.out s (execCanTxDeadline x1 t) := by
  unfold execCanTxDeadline
  try dsimp only
  repeat' (first
    | with_reducible assumption
    | with_reducible apply keeps_canPut
    | with_reducible apply keeps_inc
    | split
    | dsimp only [Keeps.out, Keeps.cmd, Keeps.fate, Keeps.outOpt, Keeps.cmdOpt])

theorem keeps_canAck {s t : State} (h : Keeps s t) (x1) :
    Keeps s (State.canAck t x1) := by
  unfold State.canAck
  try dsimp only
  repeat' (first
    | with_reducible assumption
    | with_reducible apply keeps_canMark
    | split)

theorem keeps_canBusOff {s t : State} (h : Keeps s t) (x1) :
    Keeps s (State.canBusOff t x1) := by
  unfold State.canBusOff
  try dsimp only
  repeat' (first
    | with_reducible assumption
    | with_reducible apply keeps_set
    | with_reducible apply keeps_add
    | with_reducible apply keeps_canPut
    | with_reducible apply keeps_emit
    | with_reducible apply keeps_canRecover
    | split)

theorem keeps_canJudge {s t : State} (h : Keeps s t) (x1) :
    Keeps s (State.canJudge t x1) := by
  unfold State.canJudge
  try dsimp only
  repeat' (first
    | with_reducible assumption
    | with_reducible apply keeps_canBusOff
    | with_reducible apply keeps_set
    | with_reducible apply keeps_emit
    | split)

theorem keeps_execCanTxDone {s t : State} (h : Keeps s t) (x1) :
    Keeps.out s (execCanTxDone x1 t) := by
  unfold execCanTxDone
  try dsimp only
  repeat' (first
    | with_reducible assumption
    | with_reducible apply keeps_canJudge
    | with_reducible apply keeps_canShowErr
    | with_reducible apply keeps_canPut
    | with_reducible apply keeps_set
    | with_reducible apply keeps_inc
    | with_reducible apply keeps_eset
    | split
    | dsimp only [Keeps.out, Keeps.cmd, Keeps.fate, Keeps.outOpt, Keeps.cmdOpt])

theorem keeps_canPrune {s t : State} (h : Keeps s t) (x1) :
    Keeps s (State.canPrune t x1) := by
  unfold State.canPrune
  try dsimp only
  repeat' (first
    | with_reducible assumption
    | with_reducible apply keeps_add
    | with_reducible apply keeps_canPut)

theorem keeps_canFlag {s t : State} (h : Keeps s t) (x1 x2) :
    Keeps s (State.canFlag t x1 x2) := by
  unfold State.canFlag
  try dsimp only
  repeat' (first
    | with_reducible assumption
    | with_reducible apply keeps_canMark
    | split)

theorem keeps_canFail {s t : State} (h : Keeps s t) (x1 x2 x3 x4) :
    Keeps s (State.canFail t x1 x2 x3 x4) := by
  unfold State.canFail
  try dsimp only
  repeat' (first
    | with_reducible assumption
    | with_reducible apply keeps_canFlag
    | with_reducible apply keeps_inc
    | with_reducible apply keeps_set
    | with_reducible apply keeps_canPut
    | with_reducible apply keeps_canJudge
    | with_reducible apply keeps_canShowErr)

theorem keeps_canStart {s t : State} (h : Keeps s t) (x1 x2) :
    Keeps s (State.canStart t x1 x2) := by
  unfold State.canStart
  try dsimp only
  repeat' (first
    | with_reducible assumption
    | with_reducible apply keeps_canPut
    | with_reducible apply keeps_free
    | with_reducible apply keeps_canFail
    | with_reducible apply keeps_injSpend
    | split)

theorem keeps_execCanTxStart {s t : State} (h : Keeps s t) (x1) :
    Keeps.out s (execCanTxStart x1 t) := by
  unfold execCanTxStart
  try dsimp only
  repeat' (first
    | with_reducible assumption
    | with_reducible apply keeps_canPrune
    | with_reducible apply keeps_canStart
    | split
    | dsimp only [Keeps.out, Keeps.cmd, Keeps.fate, Keeps.outOpt, Keeps.cmdOpt])

theorem keeps_canException {s t : State} (h : Keeps s t) (x1) :
    Keeps s (State.canException t x1) := by
  unfold State.canException
  try dsimp only
  repeat' (first
    | with_reducible assumption
    | with_reducible apply keeps_inc
    | with_reducible apply keeps_set
    | with_reducible apply keeps_canPut)

theorem keeps_canRxGood {s t : State} (h : Keeps s t) (x1) :
    Keeps s (State.canRxGood t x1) := by
  unfold State.canRxGood
  try dsimp only
  repeat' (first
    | with_reducible assumption
    | with_reducible apply keeps_free
    | with_reducible apply keeps_canPut
    | with_reducible apply keeps_canJudge
    | with_reducible apply keeps_canShowErr
    | split)

theorem keeps_canTake {s t : State} (h : Keeps s t) (x1 x2) :
    Keeps s (State.canTake t x1 x2) := by
  unfold State.canTake
  try dsimp only
  repeat' (first
    | with_reducible assumption
    | with_reducible apply keeps_canException
    | with_reducible apply keeps_canRxGood
    | with_reducible apply keeps_canAck
    | with_reducible apply keeps_canPut
    | with_reducible apply keeps_inc
    | with_reducible apply keeps_canAccept
    | split)

theorem keeps_execCanFrameRx {s t : State} (h : Keeps s t) (x1 x2) :
    Keeps.out s (execCanFrameRx x1 x2 t) := by
  unfold execCanFrameRx
  try dsimp only
  repeat' (first
    | with_reducible assumption
    | with_reducible apply keeps_canTake
    | split
    | dsimp only [Keeps.out, Keeps.cmd, Keeps.fate, Keeps.outOpt, Keeps.cmdOpt])

theorem keeps_execCanError {s t : State} (h : Keeps s t) (x1 x2) :
    Keeps.out s (execCanError x1 x2 t) := by
  unfold execCanError
  try dsimp only
  repeat' (first
    | with_reducible assumption
    | with_reducible apply keeps_canException
    | with_reducible apply keeps_canFail
    | split
    | dsimp only [Keeps.out, Keeps.cmd, Keeps.fate, Keeps.outOpt, Keeps.cmdOpt])

theorem keeps_execCanBusIdle {s t : State} (h : Keeps s t) (x1) :
    Keeps.out s (execCanBusIdle x1 t) := by
  unfold execCanBusIdle
  try dsimp only
  repeat' (first
    | with_reducible assumption
    | with_reducible apply keeps_canJudge
    | with_reducible apply keeps_set
    | split
    | dsimp only [Keeps.out, Keeps.cmd, Keeps.fate, Keeps.outOpt, Keeps.cmdOpt])

end Sys2Proof.Machine
end

