-- ==== Sys2Proof/Laws/KeepsRows.lean ====
section
/-! SUPPORT. What the operations of the rows of the bridge, commits, power, updates and commands keep (Sys2Proof.Machine.Keeps). -/
namespace Sys2Proof.Machine
set_option Elab.async false

theorem keeps_hfpForward {s t : State} (h : Keeps s t) (x1) :
    Keeps s (State.hfpForward t x1) := by
  unfold State.hfpForward
  try dsimp only
  repeat' (first
    | with_reducible assumption
    | with_reducible apply keeps_inc
    | with_reducible apply keeps_sendHfp
    | split)

theorem keeps_hfpTurned {s t u : State} {x1 x2} (e : State.hfpTurned t x1 x2 = some u) (h : Keeps s t) : Keeps s u := by
  unfold State.hfpTurned at e
  repeat' (first
    | contradiction
    | (injection e with e; subst e; first | exact h | exact keeps_inc h _ | exact keeps_hfpForward h _)
    | split at e
    | dsimp only at e)

theorem keeps_hfpKeep {s t : State} (h : Keeps s t) (x1 x2) {f : State → State} (hf : ∀ u, Keeps s u → Keeps s (f u)) :
    Keeps s (State.hfpKeep t x1 x2 f) := by
  unfold State.hfpKeep
  split
  · exact keeps_hfpTurned (by assumption) h
  · exact hf _ (keeps_inc h _)

theorem keeps_execAck {s t : State} (h : Keeps s t) (x1 x2) :
    Keeps.out s (execAck x1 x2 t) := by
  unfold execAck
  try dsimp only
  repeat' (first
    | with_reducible assumption
    | with_reducible apply keeps_hfpKeep
    | with_reducible apply keeps_busSettle
    | with_reducible apply keeps_retryAsks
    | with_reducible apply keeps_bset
    | (intro)
    | dsimp only [Keeps.out, Keeps.cmd, Keeps.fate, Keeps.outOpt, Keeps.cmdOpt])

theorem keeps_execHfpRelay {s t : State} (h : Keeps s t) (x1 x2) :
    Keeps.out s (execHfpRelay x1 x2 t) := by
  unfold execHfpRelay
  try dsimp only
  repeat' (first
    | with_reducible assumption
    | with_reducible apply Keeps.getD
    | refine keeps_hfpTurned (by assumption) ?_
    | (intro)
    | dsimp only [Keeps.out, Keeps.cmd, Keeps.fate, Keeps.outOpt, Keeps.cmdOpt])

theorem keeps_sendAck {s t : State} (h : Keeps s t) (x1 x2) :
    Keeps s (State.sendAck t x1 x2) := by
  unfold State.sendAck
  try dsimp only
  repeat' (first
    | with_reducible assumption
    | with_reducible apply keeps_sendHfp
    | with_reducible apply keeps_bset)

theorem keeps_seqTake {s t : State} (h : Keeps s t) (x1) :
    Keeps s (State.seqTake t x1) := by
  unfold State.seqTake
  try dsimp only
  repeat' (first
    | with_reducible assumption
    | with_reducible apply keeps_inc
    | with_reducible apply keeps_sendHfp
    | with_reducible apply keeps_bset
    | with_reducible apply keeps_sendAck
    | split)

theorem keeps_execRemoteRequest {s t : State} (h : Keeps s t) (x1 x2 x3) :
    Keeps.out s (execRemoteRequest x1 x2 x3 t) := by
  unfold execRemoteRequest
  try dsimp only
  repeat' (first
    | with_reducible assumption
    | with_reducible apply keeps_unsupported
    | with_reducible apply keeps_malformed
    | with_reducible apply keeps_busSpan
    | with_reducible apply keeps_busSettle
    | with_reducible apply keeps_ask
    | split
    | dsimp only [Keeps.out, Keeps.cmd, Keeps.fate, Keeps.outOpt, Keeps.cmdOpt])

theorem keeps_execAckTimer {s t : State} (h : Keeps s t) (x1 x2) :
    Keeps.out s (execAckTimer x1 x2 t) := by
  unfold execAckTimer
  try dsimp only
  repeat' (first
    | with_reducible assumption
    | with_reducible apply keeps_sendAck
    | split
    | dsimp only [Keeps.out, Keeps.cmd, Keeps.fate, Keeps.outOpt, Keeps.cmdOpt])

theorem keeps_lockStep {s t : State} (h : Keeps s t) (x1 x2 x3) :
    Keeps s (State.lockStep x1 t x2 x3).1 := by
  unfold State.lockStep
  try dsimp only
  repeat' (first
    | with_reducible assumption
    | with_reducible apply keeps_lockOp
    | split)

theorem keeps_lockFinish {s t : State} (h : Keeps s t) (x1 x2) :
    Keeps s (State.lockFinish t x1 x2) := by
  unfold State.lockFinish
  try dsimp only
  repeat' (first
    | with_reducible assumption
    | with_reducible apply keeps_lockStep
    | with_reducible apply keeps_lockEnd
    | with_reducible apply keeps_hostPut
    | with_reducible apply Keeps.foldl_fst
    | (intro)
    | split)

theorem keeps_execAdjDead {s t : State} (h : Keeps s t) (x1) :
    Keeps.out s (execAdjDead x1 t) := by
  unfold execAdjDead
  try dsimp only
  repeat' (first
    | with_reducible assumption
    | with_reducible apply keeps_setAdj
    | split
    | dsimp only [Keeps.out, Keeps.cmd, Keeps.fate, Keeps.outOpt, Keeps.cmdOpt])

theorem keeps_execAckTimeout {s t : State} (h : Keeps s t) (x1 x2) :
    Keeps.out s (execAckTimeout x1 x2 t) := by
  unfold execAckTimeout
  try dsimp only
  repeat' (first
    | with_reducible assumption
    | with_reducible apply keeps_busSettle
    | with_reducible apply keeps_retryAsks
    | with_reducible apply keeps_loseReq
    | split
    | dsimp only [Keeps.out, Keeps.cmd, Keeps.fate, Keeps.outOpt, Keeps.cmdOpt])

theorem keeps_takeCpl {s t : State} (h : Keeps s t) (x1 x2 x3) :
    Keeps s (State.takeCpl t x1 x2 x3) := by
  unfold State.takeCpl
  try dsimp only
  repeat' (first
    | with_reducible assumption
    | with_reducible apply keeps_lockFinish
    | with_reducible apply keeps_completeAsk
    | split)

theorem keeps_dropReq {s t : State} (h : Keeps s t) (x1) :
    Keeps s (State.dropReq t x1) := by
  unfold State.dropReq
  try dsimp only
  repeat' (first
    | with_reducible assumption
    | with_reducible apply keeps_bset)

theorem keeps_execCpl {s t : State} (h : Keeps s t) (x1 x2) :
    Keeps.out s (execCpl x1 x2 t) := by
  unfold execCpl
  try dsimp only
  repeat' (first
    | with_reducible assumption
    | with_reducible apply keeps_hfpKeep
    | with_reducible apply keeps_inc
    | with_reducible apply keeps_busSettle
    | with_reducible apply keeps_retryAsks
    | with_reducible apply keeps_takeCpl
    | with_reducible apply keeps_dropReq
    | (intro)
    | split
    | dsimp only [Keeps.out, Keeps.cmd, Keeps.fate, Keeps.outOpt, Keeps.cmdOpt])

theorem keeps_loseRange {s t : State} (h : Keeps s t) (x1 x2 x3 x4) :
    Keeps s (State.loseRange t x1 x2 x3 x4) := by
  unfold State.loseRange
  try dsimp only
  repeat' (first
    | with_reducible assumption
    | with_reducible apply keeps_each
    | with_reducible apply keeps_loseReq
    | with_reducible apply keeps_completeAsk
    | with_reducible apply keeps_dropReq
    | (intro)
    | split)

theorem keeps_sendDatabase {s t : State} (h : Keeps s t) (x1) :
    Keeps s (State.sendDatabase t x1) := by
  unfold State.sendDatabase
  try dsimp only
  repeat' (first
    | with_reducible assumption
    | with_reducible apply keeps_each
    | with_reducible apply keeps_sendLsa
    | (intro))

theorem keeps_adjStep {s t : State} (h : Keeps s t) (x1 x2 x3) :
    Keeps s (State.adjStep t x1 x2 x3) := by
  unfold State.adjStep
  try dsimp only
  repeat' (first
    | with_reducible assumption
    | with_reducible apply keeps_setAdj
    | with_reducible apply keeps_sendDatabase
    | with_reducible apply keeps_set
    | split)

theorem keeps_execLsaTimer {s t : State} (h : Keeps s t) :
    Keeps.out s (execLsaTimer t) := by
  unfold execLsaTimer
  try dsimp only
  repeat' (first
    | with_reducible assumption
    | with_reducible apply keeps_floodOwn
    | dsimp only [Keeps.out, Keeps.cmd, Keeps.fate, Keeps.outOpt, Keeps.cmdOpt])

theorem keeps_bar2Faults {s t : State} (h : Keeps s t) (x1 x2) :
    Keeps s (State.bar2Faults t x1 x2) := by
  unfold State.bar2Faults
  try dsimp only
  repeat' (first
    | with_reducible assumption
    | with_reducible apply keeps_each
    | with_reducible apply keeps_accessErr
    | (intro))

theorem keeps_takeLsa {s t : State} (h : Keeps s t) (x1 x2 x3) :
    Keeps s (State.takeLsa t x1 x2 x3) := by
  unfold State.takeLsa
  try dsimp only
  repeat' (first
    | with_reducible assumption
    | with_reducible apply keeps_computeRoutes
    | with_reducible apply keeps_each
    | with_reducible apply keeps_bset
    | with_reducible apply keeps_sendLsa
    | with_reducible apply keeps_setAdj
    | (intro)
    | split)

theorem keeps_lateNamed {s t : State} (h : Keeps s t) (x1 x2 x3) :
    Keeps s (State.lateNamed t x1 x2 x3) := by
  unfold State.lateNamed
  try dsimp only
  repeat' (first
    | with_reducible assumption
    | with_reducible apply keeps_loseReq
    | with_reducible apply keeps_lateRecord
    | split)

theorem keeps_execLateErr {s t : State} (h : Keeps s t) (x1 x2) :
    Keeps.out s (execLateErr x1 x2 t) := by
  unfold execLateErr
  try dsimp only
  repeat' (first
    | with_reducible assumption
    | with_reducible apply keeps_hfpKeep
    | with_reducible apply keeps_busSettle
    | with_reducible apply keeps_retryAsks
    | with_reducible apply keeps_loseRange
    | with_reducible apply keeps_lateNamed
    | (intro)
    | split
    | dsimp only [Keeps.out, Keeps.cmd, Keeps.fate, Keeps.outOpt, Keeps.cmdOpt])

theorem keeps_bar2Ask {s t : State} (h : Keeps s t) (x1 x2) :
    Keeps s (State.bar2Ask t x1 x2) := by
  unfold State.bar2Ask
  try dsimp only
  repeat' (first
    | with_reducible assumption
    | with_reducible apply keeps_bar2Faults
    | with_reducible apply keeps_bset
    | with_reducible apply keeps_busSettle
    | with_reducible apply keeps_tlpEnd
    | with_reducible apply keeps_each
    | with_reducible apply keeps_ask
    | (intro)
    | split)

theorem keeps_fcgCheck {s t : State} (h : Keeps s t) (x1 x2) :
    Keeps s (State.fcgCheck t x1 x2) := by
  unfold State.fcgCheck
  try dsimp only
  repeat' (first
    | with_reducible assumption
    | with_reducible apply keeps_emit
    | with_reducible apply keeps_set
    | split)

theorem keeps_takeHello {s t : State} (h : Keeps s t) (x1 x2 x3) :
    Keeps s (State.takeHello t x1 x2 x3) := by
  unfold State.takeHello
  try dsimp only
  repeat' (first
    | with_reducible assumption
    | with_reducible apply keeps_bset
    | with_reducible apply keeps_computeRoutes
    | with_reducible apply keeps_emit
    | with_reducible apply keeps_setAdj
    | with_reducible apply keeps_fcgCheck
    | with_reducible apply keeps_adjStep
    | split)

theorem keeps_execHello {s t : State} (h : Keeps s t) (x1 x2 x3) :
    Keeps.out s (execHello x1 x2 x3 t) := by
  unfold execHello
  try dsimp only
  repeat' (first
    | with_reducible assumption
    | with_reducible apply keeps_hfpKeep
    | with_reducible apply keeps_takeHello
    | (intro)
    | split
    | dsimp only [Keeps.out, Keeps.cmd, Keeps.fate, Keeps.outOpt, Keeps.cmdOpt])

theorem keeps_execRequestRx {s t : State} (h : Keeps s t) (x1 x2) :
    Keeps.out s (execRequestRx x1 x2 t) := by
  unfold execRequestRx
  try dsimp only
  repeat' (first
    | with_reducible assumption
    | with_reducible apply keeps_hfpKeep
    | with_reducible apply keeps_inc
    | with_reducible apply keeps_busDrain
    | with_reducible apply keeps_seqTake
    | with_reducible apply keeps_waits
    | with_reducible apply keeps_peerRequest
    | (intro)
    | split
    | dsimp only [Keeps.out, Keeps.cmd, Keeps.fate, Keeps.outOpt, Keeps.cmdOpt])

theorem keeps_execCplTimeout {s t : State} (h : Keeps s t) (x1 x2) :
    Keeps.out s (execCplTimeout x1 x2 t) := by
  unfold execCplTimeout
  try dsimp only
  repeat' (first
    | with_reducible assumption
    | with_reducible apply keeps_busSettle
    | with_reducible apply keeps_retryAsks
    | with_reducible apply keeps_completeAsk
    | with_reducible apply keeps_dropReq
    | split
    | dsimp only [Keeps.out, Keeps.cmd, Keeps.fate, Keeps.outOpt, Keeps.cmdOpt])

theorem keeps_execLsa {s t : State} (h : Keeps s t) (x1 x2) :
    Keeps.out s (execLsa x1 x2 t) := by
  unfold execLsa
  try dsimp only
  repeat' (first
    | with_reducible assumption
    | with_reducible apply keeps_hfpKeep
    | with_reducible apply keeps_takeLsa
    | (intro)
    | split
    | dsimp only [Keeps.out, Keeps.cmd, Keeps.fate, Keeps.outOpt, Keeps.cmdOpt])

theorem keeps_execBar2Access {s t : State} (h : Keeps s t) (x1 x2) :
    Keeps.out s (execBar2Access x1 x2 t) := by
  unfold execBar2Access
  try dsimp only
  repeat' (first
    | with_reducible assumption
    | with_reducible apply keeps_unsupported
    | with_reducible apply keeps_each
    | with_reducible apply keeps_accessErr
    | with_reducible apply keeps_busSpan
    | with_reducible apply keeps_bar2Ask
    | (intro)
    | split
    | dsimp only [Keeps.out, Keeps.cmd, Keeps.fate, Keeps.outOpt, Keeps.cmdOpt]
    | with_reducible refine Keeps.fields ?_ rfl rfl rfl)

theorem keeps_execHelloTimer {s t : State} (h : Keeps s t) :
    Keeps.out s (execHelloTimer t) := by
  unfold execHelloTimer
  try dsimp only
  repeat' (first
    | with_reducible assumption
    | with_reducible apply keeps_each
    | with_reducible apply keeps_sendHfpOn
    | (intro)
    | split
    | dsimp only [Keeps.out, Keeps.cmd, Keeps.fate, Keeps.outOpt, Keeps.cmdOpt])

theorem keeps_execLsaExpire {s t : State} (h : Keeps s t) (x1) :
    Keeps.out s (execLsaExpire x1 t) := by
  unfold execLsaExpire
  try dsimp only
  repeat' (first
    | with_reducible assumption
    | with_reducible apply keeps_computeRoutes
    | with_reducible apply keeps_bset
    | split
    | dsimp only [Keeps.out, Keeps.cmd, Keeps.fate, Keeps.outOpt, Keeps.cmdOpt])

theorem keeps_execSwap {s t : State} (h : Keeps s t) :
    Keeps.out s (execSwap t) := by
  unfold execSwap
  try dsimp only
  repeat' (first
    | with_reducible assumption
    | with_reducible apply keeps_swapDue
    | dsimp only [Keeps.out, Keeps.cmd, Keeps.fate, Keeps.outOpt, Keeps.cmdOpt])

theorem keeps_cancelPending {s t : State} (h : Keeps s t) (x1) :
    Keeps s (State.cancelPending t x1) := by
  unfold State.cancelPending
  try dsimp only
  repeat' (first
    | with_reducible assumption
    | with_reducible apply keeps_commitIdle
    | with_reducible apply keeps_showCmit
    | with_reducible apply keeps_bset
    | split)

theorem keeps_execHeatReport {s t : State} (h : Keeps s t) (x1 x2) :
    Keeps.out s (execHeatReport x1 x2 t) := by
  unfold execHeatReport
  try dsimp only
  repeat' (first
    | with_reducible assumption
    | with_reducible apply keeps_runCmd
    | with_reducible apply keeps_hostPut
    | (intro)
    | split
    | dsimp only [Keeps.out, Keeps.cmd, Keeps.fate, Keeps.outOpt, Keeps.cmdOpt])

theorem keeps_execDrainEnd {s t : State} (h : Keeps s t) :
    Keeps.out s (execDrainEnd t) := by
  unfold execDrainEnd
  try dsimp only
  repeat' (first
    | with_reducible assumption
    | with_reducible apply keeps_drainCheck
    | dsimp only [Keeps.out, Keeps.cmd, Keeps.fate, Keeps.outOpt, Keeps.cmdOpt])

theorem keeps_execCommit {s t : State} (h : Keeps s t) (x1 x2) :
    Keeps.out s (execCommit x1 x2 t) := by
  unfold execCommit
  try dsimp only
  repeat' (first
    | with_reducible assumption
    | with_reducible apply keeps_runCmd
    | with_reducible apply keeps_fabStart
    | with_reducible apply keeps_startHeat
    | (intro)
    | split
    | dsimp only [Keeps.out, Keeps.cmd, Keeps.fate, Keeps.outOpt, Keeps.cmdOpt])

theorem keeps_execStage {s t : State} (h : Keeps s t) (x1 x2) :
    Keeps.out s (execStage x1 x2 t) := by
  unfold execStage
  try dsimp only
  repeat' (first
    | with_reducible assumption
    | with_reducible apply keeps_runCmd
    | with_reducible apply keeps_stageBody
    | (intro)
    | dsimp only [Keeps.out, Keeps.cmd, Keeps.fate, Keeps.outOpt, Keeps.cmdOpt])

theorem keeps_execCommitAbort {s t : State} (h : Keeps s t) (x1 x2) :
    Keeps.out s (execCommitAbort x1 x2 t) := by
  unfold execCommitAbort
  try dsimp only
  repeat' (first
    | with_reducible assumption
    | with_reducible apply keeps_runCmd
    | with_reducible apply keeps_cancelPending
    | (intro)
    | split
    | dsimp only [Keeps.out, Keeps.cmd, Keeps.fate, Keeps.outOpt, Keeps.cmdOpt])

theorem keeps_localHeated {s t : State} (h : Keeps s t) (x1) :
    Keeps s (State.localHeated t x1) := by
  unfold State.localHeated
  try dsimp only
  repeat' (first
    | with_reducible assumption
    | with_reducible apply keeps_commitIdle
    | with_reducible apply keeps_finishRunning
    | with_reducible apply keeps_swapNow
    | with_reducible apply keeps_commitPends
    | with_reducible apply keeps_updTo
    | split)

theorem keeps_execHeatDone {s t : State} (h : Keeps s t) (x1) :
    Keeps.out s (execHeatDone x1 t) := by
  unfold execHeatDone
  try dsimp only
  repeat' (first
    | with_reducible assumption
    | with_reducible apply keeps_heatEnds
    | with_reducible apply keeps_memberVotes
    | with_reducible apply keeps_localHeated
    | with_reducible apply keeps_fabAdvance
    | with_reducible apply keeps_bset
    | split
    | dsimp only [Keeps.out, Keeps.cmd, Keeps.fate, Keeps.outOpt, Keeps.cmdOpt])

theorem keeps_readSleepImage {s t : State} (h : Keeps s t) :
    Keeps s (State.readSleepImage t) := by
  unfold State.readSleepImage
  try dsimp only
  repeat' (first
    | with_reducible assumption
    | with_reducible apply keeps_set
    | with_reducible apply keeps_dramFetch
    | with_reducible apply keeps_restoreImage
    | split)

theorem keeps_restoreIfReady {s t : State} (h : Keeps s t) :
    Keeps s (State.restoreIfReady t) := by
  unfold State.restoreIfReady
  try dsimp only
  repeat' (first
    | with_reducible assumption
    | with_reducible apply keeps_readSleepImage
    | split
    | with_reducible refine Keeps.fields ?_ rfl rfl rfl)

theorem keeps_domainGood {s t : State} (h : Keeps s t) (x1 x2) :
    Keeps s (State.domainGood t x1 x2) := by
  unfold State.domainGood
  try dsimp only
  repeat' (first
    | with_reducible assumption
    | with_reducible apply keeps_set
    | with_reducible apply keeps_timePowerUp
    | with_reducible apply keeps_islandStarts
    | with_reducible apply keeps_islandUp
    | with_reducible apply keeps_pcieLink
    | with_reducible apply keeps_dramPowerUp
    | with_reducible apply keeps_forwardPorts
    | with_reducible apply keeps_each
    | with_reducible apply keeps_portPowerGood
    | with_reducible apply keeps_restoreIfReady
    | (intro)
    | split
    | with_reducible refine Keeps.fields ?_ rfl rfl rfl)

theorem keeps_execDomainPowerGood {s t : State} (h : Keeps s t) (x1 x2) :
    Keeps.out s (execDomainPowerGood x1 t x2) := by
  unfold execDomainPowerGood
  try dsimp only
  repeat' (first
    | with_reducible assumption
    | with_reducible apply keeps_finishWake
    | with_reducible apply keeps_settleSwitch
    | with_reducible apply keeps_domainGood
    | split
    | dsimp only [Keeps.out, Keeps.cmd, Keeps.fate, Keeps.outOpt, Keeps.cmdOpt])

theorem keeps_falseReturn {s t : State} (h : Keeps s t) :
    Keeps s (State.falseReturn t) := by
  unfold State.falseReturn
  try dsimp only
  repeat' (first
    | with_reducible assumption
    | with_reducible apply keeps_stopIdle
    | with_reducible apply keeps_enterSleepEntry
    | with_reducible apply keeps_inc
    | with_reducible apply keeps_set
    | split)

theorem keeps_execVbatSample {s t : State} (h : Keeps s t) (x1 x2) :
    Keeps.out s (execVbatSample x1 x2 t) := by
  unfold execVbatSample
  try dsimp only
  repeat' (first
    | with_reducible assumption
    | with_reducible apply keeps_set
    | split
    | dsimp only [Keeps.out, Keeps.cmd, Keeps.fate, Keeps.outOpt, Keeps.cmdOpt])

theorem keeps_asleep {s t : State} (h : Keeps s t) :
    Keeps s (State.asleep t) := by
  unfold State.asleep
  try dsimp only
  repeat' (first
    | with_reducible assumption
    | with_reducible apply keeps_put
    | with_reducible apply keeps_set
    | with_reducible refine Keeps.fields ?_ rfl rfl rfl)

theorem keeps_execVehicleStillFall {s t : State} (h : Keeps s t) :
    Keeps.out s (execVehicleStillFall t) := by
  unfold execVehicleStillFall
  try dsimp only
  repeat' (first
    | with_reducible assumption
    | with_reducible apply keeps_set
    | with_reducible apply keeps_settleSwitch
    | with_reducible apply keeps_wakeEvent
    | split
    | dsimp only [Keeps.out, Keeps.cmd, Keeps.fate, Keeps.outOpt, Keeps.cmdOpt])

theorem keeps_execSleepPowerDown {s t : State} (h : Keeps s t) :
    Keeps.out s (execSleepPowerDown t) := by
  unfold execSleepPowerDown
  try dsimp only
  repeat' (first
    | with_reducible assumption
    | with_reducible apply keeps_asleep
    | with_reducible apply keeps_each
    | with_reducible apply keeps_domainOff
    | with_reducible apply keeps_beginWake
    | (intro)
    | split
    | dsimp only [Keeps.out, Keeps.cmd, Keeps.fate, Keeps.outOpt, Keeps.cmdOpt])

theorem keeps_execWakeInRelease {s t : State} (h : Keeps s t) :
    Keeps.out s (execWakeInRelease t) := by
  unfold execWakeInRelease
  try dsimp only
  repeat' (first
    | with_reducible assumption
    | with_reducible apply keeps_set
    | with_reducible apply keeps_falseReturn
    | split
    | dsimp only [Keeps.out, Keeps.cmd, Keeps.fate, Keeps.outOpt, Keeps.cmdOpt])

theorem keeps_execFalseWake {s t : State} (h : Keeps s t) :
    Keeps.out s (execFalseWake t) := by
  unfold execFalseWake
  try dsimp only
  repeat' (first
    | with_reducible assumption
    | with_reducible apply keeps_falseReturn
    | split
    | dsimp only [Keeps.out, Keeps.cmd, Keeps.fate, Keeps.outOpt, Keeps.cmdOpt]
    | with_reducible refine Keeps.fields ?_ rfl rfl rfl)

theorem keeps_writeSleepImage {s t : State} (h : Keeps s t) :
    Keeps s (State.writeSleepImage t) := by
  unfold State.writeSleepImage
  try dsimp only
  repeat' (first
    | with_reducible assumption
    | with_reducible apply keeps_dramTaken
    | split
    | with_reducible refine Keeps.fields ?_ rfl rfl rfl)

theorem keeps_execWakeIn {s t : State} (h : Keeps s t) :
    Keeps.out s (execWakeIn t) := by
  unfold execWakeIn
  try dsimp only
  repeat' (first
    | with_reducible assumption
    | with_reducible apply keeps_set
    | with_reducible apply keeps_settleSwitch
    | with_reducible apply keeps_wakeEvent
    | split
    | dsimp only [Keeps.out, Keeps.cmd, Keeps.fate, Keeps.outOpt, Keeps.cmdOpt])

theorem keeps_execSleepCommit {s t : State} (h : Keeps s t) (x1) :
    Keeps.out s (execSleepCommit x1 t) := by
  unfold execSleepCommit
  try dsimp only
  repeat' (first
    | with_reducible assumption
    | with_reducible apply keeps_abortEntry
    | with_reducible apply keeps_savePns
    | with_reducible apply keeps_saveTime
    | with_reducible apply keeps_refreshImages
    | with_reducible apply keeps_writeSleepImage
    | split
    | dsimp only [Keeps.out, Keeps.cmd, Keeps.fate, Keeps.outOpt, Keeps.cmdOpt]
    | with_reducible refine Keeps.fields ?_ rfl rfl rfl)

theorem keeps_execWakeTimer {s t : State} (h : Keeps s t) :
    Keeps.out s (execWakeTimer t) := by
  unfold execWakeTimer
  try dsimp only
  repeat' (first
    | with_reducible assumption
    | with_reducible apply keeps_settleSwitch
    | with_reducible apply keeps_wakeEvent
    | split
    | dsimp only [Keeps.out, Keeps.cmd, Keeps.fate, Keeps.outOpt, Keeps.cmdOpt])

theorem keeps_execWakeOutEnd {s t : State} (h : Keeps s t) :
    Keeps.out s (execWakeOutEnd t) := by
  unfold execWakeOutEnd
  try dsimp only
  repeat' (first
    | with_reducible assumption
    | dsimp only [Keeps.out, Keeps.cmd, Keeps.fate, Keeps.outOpt, Keeps.cmdOpt]
    | with_reducible refine Keeps.fields ?_ rfl rfl rfl)

theorem keeps_execPowerState {s t : State} (h : Keeps s t) (x1 x2) :
    Keeps.out s (execPowerState x1 x2 t) := by
  unfold execPowerState
  try dsimp only
  repeat' (first
    | with_reducible assumption
    | with_reducible apply keeps_settleSwitch
    | with_reducible apply keeps_runCmd
    | with_reducible apply keeps_powerRequest
    | (intro)
    | split
    | dsimp only [Keeps.out, Keeps.cmd, Keeps.fate, Keeps.outOpt, Keeps.cmdOpt])

theorem keeps_execSleepTimeout {s t : State} (h : Keeps s t) :
    Keeps.out s (execSleepTimeout t) := by
  unfold execSleepTimeout
  try dsimp only
  repeat' (first
    | with_reducible assumption
    | with_reducible apply keeps_abortEntry
    | with_reducible apply keeps_each
    | with_reducible apply keeps_portToOff
    | with_reducible apply keeps_settleSwitch
    | (intro)
    | split
    | dsimp only [Keeps.out, Keeps.cmd, Keeps.fate, Keeps.outOpt, Keeps.cmdOpt]
    | with_reducible refine Keeps.fields ?_ rfl rfl rfl)

theorem keeps_stageParts {s t : State} (h : Keeps s t) :
    Keeps s (State.stageParts t) := by
  unfold State.stageParts
  try dsimp only
  repeat' (first
    | with_reducible assumption
    | with_reducible apply keeps_stageTables)

theorem keeps_execUpdActivate {s t : State} (h : Keeps s t) (x1 x2) :
    Keeps.out s (execUpdActivate x1 x2 t) := by
  unfold execUpdActivate
  try dsimp only
  repeat' (first
    | with_reducible assumption
    | with_reducible apply keeps_runCmd
    | with_reducible apply keeps_stageParts
    | with_reducible apply keeps_startHeat
    | with_reducible apply keeps_fabStart
    | (intro)
    | split
    | dsimp only [Keeps.out, Keeps.cmd, Keeps.fate, Keeps.outOpt, Keeps.cmdOpt])

theorem keeps_abortFabric {s t : State} (h : Keeps s t) :
    Keeps s (State.abortFabric t) := by
  unfold State.abortFabric
  try dsimp only
  repeat' (first
    | with_reducible assumption
    | with_reducible apply keeps_commitIdle
    | with_reducible apply keeps_cmitAll
    | with_reducible apply keeps_showCmit
    | with_reducible apply keeps_bset
    | split)

theorem keeps_updAbandon {s t : State} (h : Keeps s t) :
    Keeps.cmd s (State.updAbandon t) := by
  unfold State.updAbandon
  try dsimp only
  repeat' (first
    | with_reducible assumption
    | with_reducible apply keeps_abortFabric
    | with_reducible apply keeps_updDramOff
    | with_reducible apply keeps_updTo
    | with_reducible apply keeps_pset
    | with_reducible apply keeps_dropActivation
    | with_reducible apply keeps_beginRevert
    | split
    | dsimp only [Keeps.out, Keeps.cmd, Keeps.fate, Keeps.outOpt, Keeps.cmdOpt])

theorem keeps_fetchManifest {s t : State} (h : Keeps s t) :
    Keeps s (State.fetchManifest t) := by
  unfold State.fetchManifest
  try dsimp only
  repeat' (first
    | with_reducible assumption
    | with_reducible apply keeps_dramFetch)

theorem keeps_execUpdVerify {s t : State} (h : Keeps s t) (x1 x2) :
    Keeps.out s (execUpdVerify x1 x2 t) := by
  unfold execUpdVerify
  try dsimp only
  repeat' (first
    | with_reducible assumption
    | with_reducible apply keeps_runCmd
    | (intro)
    | split
    | dsimp only [Keeps.out, Keeps.cmd, Keeps.fate, Keeps.outOpt, Keeps.cmdOpt])

theorem keeps_fetchBlock {s t : State} (h : Keeps s t) :
    Keeps s (State.fetchBlock t) := by
  unfold State.fetchBlock
  try dsimp only
  repeat' (first
    | with_reducible assumption
    | with_reducible apply keeps_dramFetch
    | split)

theorem keeps_execFlashBlockDone {s t : State} (h : Keeps s t) (x1) :
    Keeps.out s (execFlashBlockDone x1 t) := by
  unfold execFlashBlockDone
  try dsimp only
  repeat' (first
    | with_reducible assumption
    | with_reducible apply keeps_journalFirst
    | with_reducible apply keeps_fetchBlock
    | with_reducible apply keeps_flashWritten
    | with_reducible apply keeps_blockSpoiled
    | with_reducible apply keeps_beginRevert
    | split
    | dsimp only [Keeps.out, Keeps.cmd, Keeps.fate, Keeps.outOpt, Keeps.cmdOpt])

theorem keeps_execJournalReplayDone {s t : State} (h : Keeps s t) :
    Keeps.out s (execJournalReplayDone t) := by
  unfold execJournalReplayDone
  try dsimp only
  repeat' (first
    | with_reducible assumption
    | with_reducible apply keeps_updDramOff
    | with_reducible apply keeps_replayed
    | with_reducible apply keeps_sayReverted
    | with_reducible apply keeps_finishRunning
    | split
    | dsimp only [Keeps.out, Keeps.cmd, Keeps.fate, Keeps.outOpt, Keeps.cmdOpt])

theorem keeps_portReload {s t : State} (h : Keeps s t) (x1) :
    Keeps s (State.portReload t x1) := by
  unfold State.portReload
  try dsimp only
  repeat' (first
    | with_reducible assumption
    | with_reducible apply keeps_portEnabled
    | with_reducible apply keeps_portToOff
    | split)

theorem keeps_updActivates {s t : State} (h : Keeps s t) (x1) :
    Keeps s (State.updActivates t x1) := by
  unfold State.updActivates
  try dsimp only
  repeat' (first
    | with_reducible assumption
    | with_reducible apply keeps_commitIdle
    | with_reducible apply keeps_swapNow
    | with_reducible apply keeps_each
    | with_reducible apply keeps_portReload
    | with_reducible apply keeps_coreReset
    | with_reducible apply keeps_updTo
    | (intro)
    | split
    | with_reducible refine Keeps.fields ?_ rfl rfl rfl)

theorem keeps_execUpdActivation {s t : State} (h : Keeps s t) :
    Keeps.out s (execUpdActivation t) := by
  unfold execUpdActivation
  try dsimp only
  repeat' (first
    | with_reducible assumption
    | with_reducible apply keeps_updActivates
    | split
    | dsimp only [Keeps.out, Keeps.cmd, Keeps.fate, Keeps.outOpt, Keeps.cmdOpt])

theorem keeps_updTakes {s t : State} (h : Keeps s t) (x1) :
    Keeps s (State.updTakes t x1) := by
  unfold State.updTakes
  try dsimp only
  repeat' (first
    | with_reducible assumption
    | with_reducible apply keeps_pset
    | with_reducible apply keeps_updTo
    | with_reducible apply keeps_progress
    | split)

theorem keeps_execUpdAbort {s t : State} (h : Keeps s t) (x1 x2) :
    Keeps.out s (execUpdAbort x1 x2 t) := by
  unfold execUpdAbort
  try dsimp only
  repeat' (first
    | with_reducible assumption
    | with_reducible apply keeps_runCmd
    | with_reducible apply keeps_updAbandon
    | with_reducible apply keeps_deviceReset
    | with_reducible apply keeps_storeCause
    | (intro)
    | split
    | dsimp only [Keeps.out, Keeps.cmd, Keeps.fate, Keeps.outOpt, Keeps.cmdOpt]
    | with_reducible refine Keeps.fields ?_ rfl rfl rfl)

theorem keeps_fetchParts {s t : State} (h : Keeps s t) :
    Keeps s (State.fetchParts t) := by
  unfold State.fetchParts
  try dsimp only
  repeat' (first
    | with_reducible assumption
    | with_reducible apply keeps_each
    | with_reducible apply keeps_dramFetch
    | (intro))

theorem keeps_updVerified {s t : State} (h : Keeps s t) (x1 x2) :
    Keeps s (State.updVerified t x1 x2) := by
  unfold State.updVerified
  try dsimp only
  repeat' (first
    | with_reducible assumption
    | with_reducible apply keeps_fetchManifest
    | with_reducible apply keeps_fetchParts
    | with_reducible apply keeps_finishRunning
    | with_reducible apply keeps_updTakes
    | split)

theorem keeps_execHealthExpiry {s t : State} (h : Keeps s t) :
    Keeps.out s (execHealthExpiry t) := by
  unfold execHealthExpiry
  try dsimp only
  repeat' (first
    | with_reducible assumption
    | with_reducible apply keeps_deviceReset
    | with_reducible apply keeps_storeCause
    | with_reducible apply keeps_bset
    | split
    | dsimp only [Keeps.out, Keeps.cmd, Keeps.fate, Keeps.outOpt, Keeps.cmdOpt])

theorem keeps_updDramOn {s t : State} (h : Keeps s t) :
    Keeps s (State.updDramOn t) := by
  unfold State.updDramOn
  try dsimp only
  repeat' (first
    | with_reducible assumption
    | with_reducible apply keeps_domainGood
    | with_reducible apply keeps_dramHook
    | with_reducible apply keeps_set
    | with_reducible refine Keeps.fields ?_ rfl rfl rfl)

theorem keeps_execUpdLoad {s t : State} (h : Keeps s t) (x1 x2) :
    Keeps.out s (execUpdLoad x1 x2 t) := by
  unfold execUpdLoad
  try dsimp only
  repeat' (first
    | with_reducible assumption
    | with_reducible apply keeps_runCmd
    | with_reducible apply keeps_updDramOn
    | with_reducible apply keeps_updLoaded
    | (intro)
    | split
    | dsimp only [Keeps.out, Keeps.cmd, Keeps.fate, Keeps.outOpt, Keeps.cmdOpt])

theorem keeps_memberConfirms {s t : State} (h : Keeps s t) (x1) :
    Keeps s (State.memberConfirms t x1) := by
  unfold State.memberConfirms
  try dsimp only
  repeat' (first
    | with_reducible assumption
    | with_reducible apply keeps_sendCmitAck
    | with_reducible apply keeps_bset
    | with_reducible apply keeps_fcgSet
    | with_reducible apply keeps_updCommitted
    | split)

theorem keeps_execArmMarginDeadline {s t : State} (h : Keeps s t) :
    Keeps.out s (execArmMarginDeadline t) := by
  unfold execArmMarginDeadline
  try dsimp only
  repeat' (first
    | with_reducible assumption
    | with_reducible apply keeps_fabFail
    | split
    | dsimp only [Keeps.out, Keeps.cmd, Keeps.fate, Keeps.outOpt, Keeps.cmdOpt])

theorem keeps_takeConfirm {s t : State} (h : Keeps s t) (x1 x2) :
    Keeps s (State.takeConfirm t x1 x2) := by
  unfold State.takeConfirm
  try dsimp only
  repeat' (first
    | with_reducible assumption
    | with_reducible apply keeps_fabConfirmed
    | with_reducible apply keeps_bset
    | split)

theorem keeps_execCmitConfirm {s t : State} (h : Keeps s t) (x1 x2) :
    Keeps.out s (execCmitConfirm x1 x2 t) := by
  unfold execCmitConfirm
  try dsimp only
  repeat' (first
    | with_reducible assumption
    | with_reducible apply keeps_hfpKeep
    | with_reducible apply keeps_takeConfirm
    | with_reducible apply keeps_memberConfirms
    | with_reducible apply keeps_sendCmitAck
    | (intro)
    | split
    | dsimp only [Keeps.out, Keeps.cmd, Keeps.fate, Keeps.outOpt, Keeps.cmdOpt])

theorem keeps_memberArms {s t : State} (h : Keeps s t) (x1) :
    Keeps s (State.memberArms t x1) := by
  unfold State.memberArms
  try dsimp only
  repeat' (first
    | with_reducible assumption
    | with_reducible apply keeps_sendCmitAck
    | with_reducible apply keeps_showCmit
    | with_reducible apply keeps_commitPends
    | with_reducible apply keeps_bset
    | with_reducible apply keeps_updTo
    | split)

theorem keeps_execCmitArm {s t : State} (h : Keeps s t) (x1 x2) :
    Keeps.out s (execCmitArm x1 x2 t) := by
  unfold execCmitArm
  try dsimp only
  repeat' (first
    | with_reducible assumption
    | with_reducible apply keeps_hfpKeep
    | with_reducible apply keeps_memberArms
    | (intro)
    | split
    | dsimp only [Keeps.out, Keeps.cmd, Keeps.fate, Keeps.outOpt, Keeps.cmdOpt])

theorem keeps_execCmitAbort {s t : State} (h : Keeps s t) (x1 x2) :
    Keeps.out s (execCmitAbort x1 x2 t) := by
  unfold execCmitAbort
  try dsimp only
  repeat' (first
    | with_reducible assumption
    | with_reducible apply keeps_hfpKeep
    | with_reducible apply keeps_sendCmitAck
    | with_reducible apply keeps_memberDrops
    | (intro)
    | split
    | dsimp only [Keeps.out, Keeps.cmd, Keeps.fate, Keeps.outOpt, Keeps.cmdOpt])

theorem keeps_execPhase2Drop {s t : State} (h : Keeps s t) :
    Keeps.out s (execPhase2Drop t) := by
  unfold execPhase2Drop
  try dsimp only
  repeat' (first
    | with_reducible assumption
    | with_reducible apply keeps_memberDrops
    | split
    | dsimp only [Keeps.out, Keeps.cmd, Keeps.fate, Keeps.outOpt, Keeps.cmdOpt])

theorem keeps_memberStarts {s t : State} (h : Keeps s t) (x1) :
    Keeps s (State.memberStarts t x1) := by
  unfold State.memberStarts
  try dsimp only
  repeat' (first
    | with_reducible assumption
    | with_reducible apply keeps_showCmit
    | with_reducible apply keeps_bset
    | with_reducible apply keeps_stageParts
    | with_reducible apply keeps_startHeat
    | split)

theorem keeps_execCmitPrepare {s t : State} (h : Keeps s t) (x1 x2) :
    Keeps.out s (execCmitPrepare x1 x2 t) := by
  unfold execCmitPrepare
  try dsimp only
  repeat' (first
    | with_reducible assumption
    | with_reducible apply keeps_hfpKeep
    | with_reducible apply keeps_memberStarts
    | with_reducible apply keeps_sendVote
    | (intro)
    | split
    | dsimp only [Keeps.out, Keeps.cmd, Keeps.fate, Keeps.outOpt, Keeps.cmdOpt])

theorem keeps_execCmitVote {s t : State} (h : Keeps s t) (x1 x2) :
    Keeps.out s (execCmitVote x1 x2 t) := by
  unfold execCmitVote
  try dsimp only
  repeat' (first
    | with_reducible assumption
    | with_reducible apply keeps_hfpKeep
    | with_reducible apply keeps_fabAdvance
    | with_reducible apply keeps_bset
    | (intro)
    | split
    | dsimp only [Keeps.out, Keeps.cmd, Keeps.fate, Keeps.outOpt, Keeps.cmdOpt])

theorem keeps_answered {s t : State} (h : Keeps s t) (x1 x2) :
    Keeps s (State.answered t x1 x2) := by
  unfold State.answered
  try dsimp only
  repeat' (first
    | with_reducible assumption
    | with_reducible apply keeps_fabArmed
    | with_reducible apply keeps_bset)

theorem keeps_execCmitAck {s t : State} (h : Keeps s t) (x1 x2) :
    Keeps.out s (execCmitAck x1 x2 t) := by
  unfold execCmitAck
  try dsimp only
  repeat' (first
    | with_reducible assumption
    | with_reducible apply keeps_hfpKeep
    | with_reducible apply keeps_answered
    | (intro)
    | split
    | dsimp only [Keeps.out, Keeps.cmd, Keeps.fate, Keeps.outOpt, Keeps.cmdOpt])

theorem keeps_execAbortRepeat {s t : State} (h : Keeps s t) :
    Keeps.out s (execAbortRepeat t) := by
  unfold execAbortRepeat
  try dsimp only
  repeat' (first
    | with_reducible assumption
    | with_reducible apply keeps_bset
    | with_reducible apply keeps_cmitAll
    | split
    | dsimp only [Keeps.out, Keeps.cmd, Keeps.fate, Keeps.outOpt, Keeps.cmdOpt])

theorem keeps_execConfirmRepeat {s t : State} (h : Keeps s t) :
    Keeps.out s (execConfirmRepeat t) := by
  unfold execConfirmRepeat
  try dsimp only
  repeat' (first
    | with_reducible assumption
    | with_reducible apply keeps_cmitAll
    | split
    | dsimp only [Keeps.out, Keeps.cmd, Keeps.fate, Keeps.outOpt, Keeps.cmdOpt])

theorem keeps_execPrepareTimeout {s t : State} (h : Keeps s t) :
    Keeps.out s (execPrepareTimeout t) := by
  unfold execPrepareTimeout
  try dsimp only
  repeat' (first
    | with_reducible assumption
    | with_reducible apply keeps_fabDecide
    | with_reducible apply keeps_bset
    | split
    | dsimp only [Keeps.out, Keeps.cmd, Keeps.fate, Keeps.outOpt, Keeps.cmdOpt])

theorem keeps_lockYield {s t : State} (h : Keeps s t) :
    Keeps s (State.lockYield t) := by
  unfold State.lockYield
  try dsimp only
  repeat' (first
    | with_reducible assumption
    | with_reducible apply keeps_bset
    | with_reducible apply keeps_inc
    | with_reducible apply keeps_lockEnd)

theorem keeps_execClearPoison {s t : State} (h : Keeps s t) (x1 x2) :
    Keeps.out s (execClearPoison x1 x2 t) := by
  unfold execClearPoison
  try dsimp only
  repeat' (first
    | with_reducible assumption
    | with_reducible apply keeps_runCmd
    | with_reducible apply keeps_each
    | with_reducible apply keeps_set
    | (intro)
    | split
    | dsimp only [Keeps.out, Keeps.cmd, Keeps.fate, Keeps.outOpt, Keeps.cmdOpt])

theorem keeps_takeLock {s t : State} (h : Keeps s t) (x1 x2 x3) :
    Keeps s (State.takeLock t x1 x2 x3) := by
  unfold State.takeLock
  try dsimp only
  repeat' (first
    | with_reducible assumption
    | with_reducible apply keeps_waits
    | with_reducible apply keeps_busSettle
    | with_reducible apply keeps_lockServe
    | with_reducible apply keeps_sendNak
    | with_reducible apply keeps_busDrain
    | with_reducible apply keeps_lockYield
    | split)

theorem keeps_execLockReq {s t : State} (h : Keeps s t) (x1 x2 x3) :
    Keeps.out s (execLockReq x1 x2 t x3) := by
  unfold execLockReq
  try dsimp only
  repeat' (first
    | with_reducible assumption
    | with_reducible apply keeps_hfpKeep
    | with_reducible apply keeps_takeLock
    | with_reducible apply keeps_seqTake
    | (intro)
    | dsimp only [Keeps.out, Keeps.cmd, Keeps.fate, Keeps.outOpt, Keeps.cmdOpt])

theorem keeps_execLockNak {s t : State} (h : Keeps s t) (x1 x2) :
    Keeps.out s (execLockNak x1 x2 t) := by
  unfold execLockNak
  try dsimp only
  repeat' (first
    | with_reducible assumption
    | with_reducible apply keeps_hfpKeep
    | with_reducible apply keeps_busSettle
    | with_reducible apply keeps_retryAsks
    | with_reducible apply keeps_lockEnd
    | with_reducible apply keeps_dropReq
    | (intro)
    | split
    | dsimp only [Keeps.out, Keeps.cmd, Keeps.fate, Keeps.outOpt, Keeps.cmdOpt])

theorem keeps_lockFree {s t : State} (h : Keeps s t) :
    Keeps s (State.lockFree t) := by
  unfold State.lockFree
  try dsimp only
  repeat' (first
    | with_reducible assumption
    | with_reducible apply keeps_busSettle
    | with_reducible apply keeps_set)

theorem keeps_notSent {s t : State} (h : Keeps s t) (x1) :
    Keeps.cmdOpt s (State.notSent t x1) := by
  unfold State.notSent
  try dsimp only
  repeat' (first
    | with_reducible assumption
    | with_reducible apply keeps_inc
    | split
    | dsimp only [Keeps.out, Keeps.cmd, Keeps.fate, Keeps.outOpt, Keeps.cmdOpt])

theorem keeps_coxSeq {s t : State} (h : Keeps s t) (x1) :
    Keeps s (State.coxSeq t x1) := by
  unfold State.coxSeq
  try dsimp only
  repeat' (first
    | with_reducible assumption
    | with_reducible apply keeps_lockTell
    | with_reducible apply keeps_inc
    | with_reducible apply keeps_lockTry
    | with_reducible apply keeps_lockPut
    | split)

theorem keeps_badOpcode {s t : State} (h : Keeps s t) (x1 x2) :
    Keeps s (State.badOpcode t x1 x2) := by
  unfold State.badOpcode
  try dsimp only
  repeat' (first
    | with_reducible assumption
    | with_reducible apply keeps_stopIdle
    | with_reducible apply keeps_complete
    | split)

theorem keeps_execLockedSeq {s t : State} (h : Keeps s t) (x1 x2 x3) :
    Keeps.out s (execLockedSeq x1 x2 t x3) := by
  unfold execLockedSeq
  try dsimp only
  repeat' (first
    | with_reducible assumption
    | with_reducible apply keeps_coxSeq
    | with_reducible apply keeps_badOpcode
    | with_reducible apply keeps_runCmd
    | with_reducible apply keeps_notSent
    | with_reducible apply keeps_bset
    | with_reducible apply keeps_lockTry
    | with_reducible refine Keeps.of_someCmd (by assumption) ?_
    | (intro)
    | split
    | dsimp only [Keeps.out, Keeps.cmd, Keeps.fate, Keeps.outOpt, Keeps.cmdOpt])

theorem keeps_execLockRel {s t : State} (h : Keeps s t) (x1 x2) :
    Keeps.out s (execLockRel x1 x2 t) := by
  unfold execLockRel
  try dsimp only
  repeat' (first
    | with_reducible assumption
    | with_reducible apply keeps_hfpKeep
    | with_reducible apply keeps_bset
    | with_reducible apply keeps_lockFree
    | (intro)
    | split
    | dsimp only [Keeps.out, Keeps.cmd, Keeps.fate, Keeps.outOpt, Keeps.cmdOpt])

theorem keeps_execLockBackoffEnd {s t : State} (h : Keeps s t) (x1) :
    Keeps.out s (execLockBackoffEnd t x1) := by
  unfold execLockBackoffEnd
  try dsimp only
  repeat' (first
    | with_reducible assumption
    | with_reducible apply keeps_busSettle
    | with_reducible apply keeps_set
    | with_reducible apply keeps_bset
    | split
    | dsimp only [Keeps.out, Keeps.cmd, Keeps.fate, Keeps.outOpt, Keeps.cmdOpt])

theorem keeps_execLockMaxExpiry {s t : State} (h : Keeps s t) :
    Keeps.out s (execLockMaxExpiry t) := by
  unfold execLockMaxExpiry
  try dsimp only
  repeat' (first
    | with_reducible assumption
    | with_reducible apply keeps_lockFree
    | with_reducible apply keeps_lockDrop
    | split
    | dsimp only [Keeps.out, Keeps.cmd, Keeps.fate, Keeps.outOpt, Keeps.cmdOpt])

theorem keeps_execRemoteCmd {s t : State} (h : Keeps s t) (x1 x2) :
    Keeps.out s (execRemoteCmd x1 x2 t) := by
  unfold execRemoteCmd
  try dsimp only
  repeat' (first
    | with_reducible assumption
    | with_reducible apply keeps_badOpcode
    | with_reducible apply keeps_runCmd
    | with_reducible apply keeps_notSent
    | with_reducible apply keeps_ask
    | with_reducible refine Keeps.of_someCmd (by assumption) ?_
    | (intro)
    | split
    | dsimp only [Keeps.out, Keeps.cmd, Keeps.fate, Keeps.outOpt, Keeps.cmdOpt])

theorem keeps_txWriteback {s t : State} (h : Keeps s t) (x1 x2 x3) :
    Keeps s (State.txWriteback t x1 x2 x3) := by
  unfold State.txWriteback
  try dsimp only
  repeat' (first
    | with_reducible assumption
    | with_reducible apply keeps_hostWr
    | with_reducible apply keeps_raiseSource
    | with_reducible refine Keeps.fields ?_ rfl rfl rfl)

theorem keeps_execTxDescFetch {s t : State} (h : Keeps s t) :
    Keeps.out s (execTxDescFetch t) := by
  unfold execTxDescFetch
  try dsimp only
  repeat' (first
    | with_reducible assumption
    | with_reducible apply keeps_txWriteback
    | with_reducible apply keeps_inc
    | with_reducible apply keeps_internalIn
    | split
    | dsimp only [Keeps.out, Keeps.cmd, Keeps.fate, Keeps.outOpt, Keeps.cmdOpt])

theorem keeps_execMsixHoldoffEnd {s t : State} (h : Keeps s t) (x1) :
    Keeps.out s (execMsixHoldoffEnd x1 t) := by
  unfold execMsixHoldoffEnd
  try dsimp only
  repeat' (first
    | with_reducible assumption
    | with_reducible apply keeps_raiseSource
    | split
    | dsimp only [Keeps.out, Keeps.cmd, Keeps.fate, Keeps.outOpt, Keeps.cmdOpt]
    | with_reducible refine Keeps.fields ?_ rfl rfl rfl)

theorem keeps_execHostReset {s t : State} (h : Keeps s t) (x1) :
    Keeps.out s (execHostReset x1 t) := by
  unfold execHostReset
  try dsimp only
  repeat' (first
    | with_reducible assumption
    | with_reducible apply keeps_clearIsland
    | with_reducible apply keeps_pcieLink
    | with_reducible apply keeps_flr
    | with_reducible apply keeps_domainOff
    | split
    | dsimp only [Keeps.out, Keeps.cmd, Keeps.fate, Keeps.outOpt, Keeps.cmdOpt]
    | with_reducible refine Keeps.fields ?_ rfl rfl rfl)

theorem keeps_execCommandDone {s t : State} (h : Keeps s t) (x1 x2) :
    Keeps.out s (execCommandDone x1 x2 t) := by
  unfold execCommandDone
  try dsimp only
  repeat' (first
    | with_reducible assumption
    | with_reducible apply keeps_keyOff
    | with_reducible apply keeps_finishRunning
    | with_reducible apply keeps_coxModeDone
    | with_reducible apply keeps_lifecycleDone
    | with_reducible apply keeps_updVerified
    | with_reducible apply keeps_domainsFollow
    | with_reducible apply keeps_put
    | split
    | dsimp only [Keeps.out, Keeps.cmd, Keeps.fate, Keeps.outOpt, Keeps.cmdOpt])

theorem keeps_execDoorbellRead {s t : State} (h : Keeps s t) :
    Keeps.out s (execDoorbellRead t) := by
  unfold execDoorbellRead
  try dsimp only
  repeat' (first
    | with_reducible assumption
    | with_reducible apply keeps_readDoorbell
    | split
    | dsimp only [Keeps.out, Keeps.cmd, Keeps.fate, Keeps.outOpt, Keeps.cmdOpt])

theorem keeps_execNop {s t : State} (h : Keeps s t) (x1 x2) :
    Keeps.out s (execNop x1 x2 t) := by
  unfold execNop
  try dsimp only
  repeat' (first
    | with_reducible assumption
    | with_reducible apply keeps_runCmd
    | (intro)
    | dsimp only [Keeps.out, Keeps.cmd, Keeps.fate, Keeps.outOpt, Keeps.cmdOpt])

theorem keeps_execAgeSweep {s t : State} (h : Keeps s t) :
    Keeps.out s (execAgeSweep t) := by
  unfold execAgeSweep
  try dsimp only
  repeat' (first
    | with_reducible assumption
    | with_reducible apply keeps_fset
    | with_reducible apply keeps_ageSweep
    | split
    | dsimp only [Keeps.out, Keeps.cmd, Keeps.fate, Keeps.outOpt, Keeps.cmdOpt])

theorem keeps_execFdbDump {s t : State} (h : Keeps s t) (x1 x2) :
    Keeps.out s (execFdbDump x1 x2 t) := by
  unfold execFdbDump
  try dsimp only
  repeat' (first
    | with_reducible assumption
    | with_reducible apply keeps_runCmd
    | with_reducible apply keeps_hostPut
    | (intro)
    | dsimp only [Keeps.out, Keeps.cmd, Keeps.fate, Keeps.outOpt, Keeps.cmdOpt])

theorem keeps_execFdbFlush {s t : State} (h : Keeps s t) (x1 x2) :
    Keeps.out s (execFdbFlush x1 x2 t) := by
  unfold execFdbFlush
  try dsimp only
  repeat' (first
    | with_reducible assumption
    | with_reducible apply keeps_runCmd
    | with_reducible apply keeps_flushLearned
    | (intro)
    | split
    | dsimp only [Keeps.out, Keeps.cmd, Keeps.fate, Keeps.outOpt, Keeps.cmdOpt])

theorem keeps_execFstReady {s t : State} (h : Keeps s t) :
    Keeps.out s (execFstReady t) := by
  unfold execFstReady
  try dsimp only
  repeat' (first
    | with_reducible assumption
    | with_reducible apply keeps_fstReady
    | split
    | dsimp only [Keeps.out, Keeps.cmd, Keeps.fate, Keeps.outOpt, Keeps.cmdOpt])

theorem keeps_scrubBack {s t : State} (h : Keeps s t) (x1 x2 x3) :
    Keeps s (State.scrubBack t x1 x2 x3) := by
  unfold State.scrubBack
  try dsimp only
  repeat' (first
    | with_reducible assumption
    | with_reducible apply keeps_writeWord
    | with_reducible apply keeps_inc
    | split)

theorem keeps_scrubUncorr {s t : State} (h : Keeps s t) (x1 x2) :
    Keeps s (State.scrubUncorr t x1 x2) := by
  unfold State.scrubUncorr
  try dsimp only
  repeat' (first
    | with_reducible assumption
    | with_reducible apply keeps_fstErrLoc
    | with_reducible apply keeps_inc
    | with_reducible apply keeps_eccUncorr)

theorem keeps_scrubRewrite {s t : State} (h : Keeps s t) (x1 x2 x3 x4 x5 x6) :
    Keeps s (State.scrubRewrite t x1 x2 x3 x4 x5 x6) := by
  unfold State.scrubRewrite
  try dsimp only
  repeat' (first
    | with_reducible assumption
    | with_reducible apply keeps_writeWord
    | with_reducible apply keeps_showStore
    | with_reducible apply keeps_fset
    | with_reducible apply keeps_scrubUncorr
    | with_reducible apply keeps_inc
    | split)

theorem keeps_scrubWord {s t : State} (h : Keeps s t) (x1 x2 x3 x4 x5) :
    Keeps s (State.scrubWord t x1 x2 x3 x4 x5) := by
  unfold State.scrubWord
  try dsimp only
  repeat' (first
    | with_reducible assumption
    | with_reducible apply keeps_scrubBack
    | with_reducible apply keeps_scrubUncorr
    | with_reducible apply keeps_frameUncorr
    | with_reducible apply keeps_scrubRewrite
    | with_reducible apply keeps_showStore
    | with_reducible apply keeps_fset
    | split)

theorem keeps_scrubUnused {s t : State} (h : Keeps s t) (x1 x2) :
    Keeps s (State.scrubUnused t x1 x2) := by
  unfold State.scrubUnused
  try dsimp only
  repeat' (first
    | with_reducible assumption
    | with_reducible apply keeps_eccUncorr
    | with_reducible apply keeps_inc
    | with_reducible apply keeps_scrubBack
    | split)

theorem keeps_execRecRearm {s t : State} (h : Keeps s t) (x1 x2) :
    Keeps.out s (execRecRearm x1 x2 t) := by
  unfold execRecRearm
  try dsimp only
  repeat' (first
    | with_reducible assumption
    | with_reducible apply keeps_runCmd
    | with_reducible apply keeps_set
    | (intro)
    | split
    | dsimp only [Keeps.out, Keeps.cmd, Keeps.fate, Keeps.outOpt, Keeps.cmdOpt]
    | with_reducible refine Keeps.fields ?_ rfl rfl rfl)

theorem keeps_execScrubStep {s t : State} (h : Keeps s t) (x1) :
    Keeps.out s (execScrubStep x1 t) := by
  unfold execScrubStep
  try dsimp only
  repeat' (first
    | with_reducible assumption
    | with_reducible apply keeps_fset
    | with_reducible apply keeps_scrubWord
    | with_reducible apply keeps_scrubUnused
    | with_reducible apply keeps_incWrap
    | split
    | dsimp only [Keeps.out, Keeps.cmd, Keeps.fate, Keeps.outOpt, Keeps.cmdOpt])

theorem keeps_freezeRecorder {s t : State} (h : Keeps s t) :
    Keeps s (State.freezeRecorder t) := by
  unfold State.freezeRecorder
  try dsimp only
  repeat' (first
    | with_reducible assumption
    | with_reducible apply keeps_recFreeze
    | with_reducible apply keeps_writePage
    | split)

theorem keeps_copyPage {s t : State} (h : Keeps s t) (x1 x2) :
    Keeps s (State.copyPage t x1 x2) := by
  unfold State.copyPage
  try dsimp only
  repeat' (first
    | with_reducible assumption
    | with_reducible apply keeps_dramFetch
    | with_reducible apply keeps_hostPut)

theorem keeps_execRecPageTimeout {s t : State} (h : Keeps s t) :
    Keeps.out s (execRecPageTimeout t) := by
  unfold execRecPageTimeout
  try dsimp only
  repeat' (first
    | with_reducible assumption
    | with_reducible apply keeps_closePage
    | split
    | dsimp only [Keeps.out, Keeps.cmd, Keeps.fate, Keeps.outOpt, Keeps.cmdOpt])

theorem keeps_execDramTrainDone {s t : State} (h : Keeps s t) (x1) :
    Keeps.out s (execDramTrainDone x1 t) := by
  unfold execDramTrainDone
  try dsimp only
  repeat' (first
    | with_reducible assumption
    | with_reducible apply keeps_updLoadGoes
    | with_reducible apply keeps_set
    | split
    | dsimp only [Keeps.out, Keeps.cmd, Keeps.fate, Keeps.outOpt, Keeps.cmdOpt])

theorem keeps_execRecFreeze {s t : State} (h : Keeps s t) (x1 x2) :
    Keeps.out s (execRecFreeze x1 x2 t) := by
  unfold execRecFreeze
  try dsimp only
  repeat' (first
    | with_reducible assumption
    | with_reducible apply keeps_runCmd
    | with_reducible apply keeps_recTrigger
    | with_reducible apply keeps_freezeRecorder
    | (intro)
    | split
    | dsimp only [Keeps.out, Keeps.cmd, Keeps.fate, Keeps.outOpt, Keeps.cmdOpt])

theorem keeps_execRecRead {s t : State} (h : Keeps s t) (x1 x2) :
    Keeps.out s (execRecRead x1 x2 t) := by
  unfold execRecRead
  try dsimp only
  repeat' (first
    | with_reducible assumption
    | with_reducible apply keeps_runCmd
    | with_reducible apply keeps_each
    | with_reducible apply keeps_copyPage
    | (intro)
    | split
    | dsimp only [Keeps.out, Keeps.cmd, Keeps.fate, Keeps.outOpt, Keeps.cmdOpt])

theorem keeps_loadEnds {s t : State} (h : Keeps s t) (x1 x2) :
    Keeps s (State.loadEnds t x1 x2) := by
  unfold State.loadEnds
  try dsimp only
  repeat' (first
    | with_reducible assumption
    | with_reducible apply keeps_dramFetch
    | with_reducible apply keeps_set
    | with_reducible apply keeps_loadBanks
    | with_reducible apply keeps_kset
    | with_reducible apply keeps_unitTaken
    | with_reducible apply keeps_tablesCommit
    | with_reducible apply keeps_tablesLack
    | with_reducible apply keeps_emit
    | with_reducible apply keeps_keyFault
    | split
    | with_reducible refine Keeps.fields ?_ rfl rfl rfl)

theorem keeps_execImageLoadDone {s t : State} (h : Keeps s t) (x1 x2) :
    Keeps.out s (execImageLoadDone x1 x2 t) := by
  unfold execImageLoadDone
  try dsimp only
  repeat' (first
    | with_reducible assumption
    | with_reducible apply keeps_loadEnds
    | with_reducible apply keeps_finishWake
    | with_reducible apply keeps_channelsGo
    | split
    | dsimp only [Keeps.out, Keeps.cmd, Keeps.fate, Keeps.outOpt, Keeps.cmdOpt])

theorem keeps_execTcamScan {s t : State} (h : Keeps s t) :
    Keeps.out s (execTcamScan t) := by
  unfold execTcamScan
  try dsimp only
  repeat' (first
    | with_reducible assumption
    | with_reducible apply keeps_each
    | with_reducible apply keeps_tcamRewrite
    | with_reducible apply keeps_patRewrite
    | (intro)
    | split
    | dsimp only [Keeps.out, Keeps.cmd, Keeps.fate, Keeps.outOpt, Keeps.cmdOpt])

theorem keeps_execImageWriteDone {s t : State} (h : Keeps s t) (x1 x2) :
    Keeps.out s (execImageWriteDone x1 x2 t) := by
  unfold execImageWriteDone
  try dsimp only
  repeat' (first
    | with_reducible assumption
    | with_reducible apply keeps_set
    | with_reducible apply keeps_writeImage
    | with_reducible apply keeps_imgReleases
    | split
    | dsimp only [Keeps.out, Keeps.cmd, Keeps.fate, Keeps.outOpt, Keeps.cmdOpt])

theorem keeps_execPinholeFlush {s t : State} (h : Keeps s t) (x1 x2) :
    Keeps.out s (execPinholeFlush x1 x2 t) := by
  unfold execPinholeFlush
  try dsimp only
  repeat' (first
    | with_reducible assumption
    | with_reducible apply keeps_runCmd
    | with_reducible apply keeps_phStore
    | (intro)
    | split
    | dsimp only [Keeps.out, Keeps.cmd, Keeps.fate, Keeps.outOpt, Keeps.cmdOpt])

theorem keeps_execPinholeDump {s t : State} (h : Keeps s t) (x1 x2) :
    Keeps.out s (execPinholeDump x1 x2 t) := by
  unfold execPinholeDump
  try dsimp only
  repeat' (first
    | with_reducible assumption
    | with_reducible apply keeps_runCmd
    | with_reducible apply keeps_hostPut
    | (intro)
    | split
    | dsimp only [Keeps.out, Keeps.cmd, Keeps.fate, Keeps.outOpt, Keeps.cmdOpt])

theorem keeps_execPinholeExpiry {s t : State} (h : Keeps s t) :
    Keeps.out s (execPinholeExpiry t) := by
  unfold execPinholeExpiry
  try dsimp only
  repeat' (first
    | with_reducible assumption
    | with_reducible apply keeps_uset
    | with_reducible apply keeps_add
    | with_reducible apply keeps_phStore
    | split
    | dsimp only [Keeps.out, Keeps.cmd, Keeps.fate, Keeps.outOpt, Keeps.cmdOpt])

theorem keeps_catchDrive {s t : State} (h : Keeps s t) (x1 x2) :
    Keeps s (State.catchDrive t x1 x2) := by
  unfold State.catchDrive
  try dsimp only
  repeat' (first
    | with_reducible assumption
    | with_reducible apply keeps_catchPin
    | with_reducible apply keeps_tset
    | with_reducible apply keeps_put)

theorem keeps_execCatchPulseEnd {s t : State} (h : Keeps s t) (x1) :
    Keeps.out s (execCatchPulseEnd x1 t) := by
  unfold execCatchPulseEnd
  try dsimp only
  repeat' (first
    | with_reducible assumption
    | with_reducible apply keeps_catchDrive
    | split
    | dsimp only [Keeps.out, Keeps.cmd, Keeps.fate, Keeps.outOpt, Keeps.cmdOpt])

theorem keeps_execBuoyCapture {s t : State} (h : Keeps s t) (x1 x2) :
    Keeps.out s (execBuoyCapture x1 x2 t) := by
  unfold execBuoyCapture
  try dsimp only
  repeat' (first
    | with_reducible assumption
    | with_reducible apply keeps_put
    | with_reducible apply keeps_tset
    | with_reducible apply keeps_recBuoyTrigger
    | with_reducible apply keeps_buoyPush
    | with_reducible apply keeps_timeSeen
    | with_reducible apply keeps_each
    | with_reducible apply keeps_servoJudge
    | (intro)
    | split
    | dsimp only [Keeps.out, Keeps.cmd, Keeps.fate, Keeps.outOpt, Keeps.cmdOpt])

theorem keeps_execServoWatchdog {s t : State} (h : Keeps s t) (x1) :
    Keeps.out s (execServoWatchdog x1 t) := by
  unfold execServoWatchdog
  try dsimp only
  repeat' (first
    | with_reducible assumption
    | with_reducible apply keeps_timeSettled
    | with_reducible apply keeps_takeover
    | split
    | dsimp only [Keeps.out, Keeps.cmd, Keeps.fate, Keeps.outOpt, Keeps.cmdOpt])

theorem keeps_execLockLoss {s t : State} (h : Keeps s t) (x1) :
    Keeps.out s (execLockLoss x1 t) := by
  unfold execLockLoss
  try dsimp only
  repeat' (first
    | with_reducible assumption
    | with_reducible apply keeps_noPulses
    | with_reducible apply keeps_set
    | split
    | dsimp only [Keeps.out, Keeps.cmd, Keeps.fate, Keeps.outOpt, Keeps.cmdOpt])

theorem keeps_execReanchor {s t : State} (h : Keeps s t) (x1 x2) :
    Keeps.out s (execReanchor x1 x2 t) := by
  unfold execReanchor
  try dsimp only
  repeat' (first
    | with_reducible assumption
    | with_reducible apply keeps_runCmd
    | with_reducible apply keeps_set
    | with_reducible apply keeps_stepBy
    | with_reducible apply keeps_inPlace
    | with_reducible apply keeps_swapDue
    | with_reducible apply keeps_timeSettled
    | with_reducible apply keeps_emit
    | (intro)
    | split
    | dsimp only [Keeps.out, Keeps.cmd, Keeps.fate, Keeps.outOpt, Keeps.cmdOpt])

theorem keeps_execCatchEdge {s t : State} (h : Keeps s t) (x1) :
    Keeps.out s (execCatchEdge x1 t) := by
  unfold execCatchEdge
  try dsimp only
  repeat' (first
    | with_reducible assumption
    | with_reducible apply keeps_tset
    | with_reducible apply keeps_timeSeen
    | with_reducible apply keeps_incWrap
    | with_reducible apply keeps_catchDrive
    | split
    | dsimp only [Keeps.out, Keeps.cmd, Keeps.fate, Keeps.outOpt, Keeps.cmdOpt])

theorem keeps_execSlewDone {s t : State} (h : Keeps s t) (x1) :
    Keeps.out s (execSlewDone x1 t) := by
  unfold execSlewDone
  try dsimp only
  repeat' (first
    | with_reducible assumption
    | with_reducible apply keeps_dropSlew
    | with_reducible apply keeps_tset
    | split
    | dsimp only [Keeps.out, Keeps.cmd, Keeps.fate, Keeps.outOpt, Keeps.cmdOpt])

theorem keeps_runTables {s t : State} (h : Keeps s t) (x1 x2) :
    Keeps.outOpt s (State.runTables t x1 x2) := by
  unfold State.runTables
  try dsimp only
  repeat' (first
    | with_reducible assumption
    | with_reducible exact trivial
    | with_reducible apply keeps_execStage
    | with_reducible apply keeps_execCommit
    | with_reducible apply keeps_execCommitAbort
    | with_reducible apply keeps_execHeatReport
    | with_reducible apply keeps_execFdbFlush
    | with_reducible apply keeps_execFdbDump
    | with_reducible apply keeps_execRecFreeze
    | with_reducible apply keeps_execRecRearm
    | with_reducible apply keeps_execRecRead
    | with_reducible apply keeps_execPinholeFlush
    | with_reducible apply keeps_execPinholeDump
    | with_reducible refine Keeps.of_next (by assumption) ?_
    | split
    | dsimp only [Keeps.out, Keeps.cmd, Keeps.fate, Keeps.outOpt, Keeps.cmdOpt])

theorem keeps_runUnits {s t : State} (h : Keeps s t) (x1 x2) :
    Keeps.outOpt s (State.runUnits t x1 x2) := by
  unfold State.runUnits
  try dsimp only
  repeat' (first
    | with_reducible assumption
    | with_reducible exact trivial
    | with_reducible apply keeps_execReanchor
    | with_reducible apply keeps_execRemoteCmd
    | with_reducible apply keeps_execLockedSeq
    | with_reducible apply keeps_execClearPoison
    | with_reducible apply keeps_execKeyGenerate
    | with_reducible apply keeps_execKeyWrap
    | with_reducible apply keeps_execKeyUnwrap
    | with_reducible apply keeps_execKeyDerive
    | with_reducible apply keeps_execKeyDestroy
    | with_reducible apply keeps_execAttest
    | with_reducible apply keeps_execRandom
    | with_reducible refine Keeps.of_next (by assumption) ?_
    | split
    | dsimp only [Keeps.out, Keeps.cmd, Keeps.fate, Keeps.outOpt, Keeps.cmdOpt])

theorem keeps_runSystem {s t : State} (h : Keeps s t) (x1 x2) :
    Keeps.outOpt s (State.runSystem t x1 x2) := by
  unfold State.runSystem
  try dsimp only
  repeat' (first
    | with_reducible assumption
    | with_reducible exact trivial
    | with_reducible apply keeps_execNop
    | with_reducible apply keeps_execUpdLoad
    | with_reducible apply keeps_execUpdVerify
    | with_reducible apply keeps_execUpdActivate
    | with_reducible apply keeps_execUpdAbort
    | with_reducible apply keeps_execPowerState
    | with_reducible apply keeps_execLogWrite
    | with_reducible apply keeps_execDeviceReset
    | with_reducible apply keeps_execCoxMode
    | with_reducible apply keeps_execLifecycle
    | with_reducible apply keeps_execOwnerLock
    | with_reducible refine Keeps.of_next (by assumption) ?_
    | split
    | dsimp only [Keeps.out, Keeps.cmd, Keeps.fate, Keeps.outOpt, Keeps.cmdOpt])

theorem keeps_runDescriptor {s t : State} (h : Keeps s t) (x1 x2) : Keeps.out s (State.runDescriptor t x1 x2) := by
  have k := Keeps.or (Keeps.or (keeps_runTables h x1 x2) (keeps_runUnits h x1 x2)) (keeps_runSystem h x1 x2)
  unfold State.runDescriptor
  cases e : ((t.runTables x1 x2).or (t.runUnits x1 x2)).or (t.runSystem x1 x2) with
  | none => exact keeps_badOpcode h x1 x2
  | some o => exact (Keeps.of_someOut e k)

theorem keeps_cmdRun {s t : State} (h : Keeps s t) (x1) :
    Keeps.out s (State.cmdRun t x1) := by
  unfold State.cmdRun
  try dsimp only
  repeat' (first
    | with_reducible assumption
    | with_reducible apply keeps_cmdRefuse
    | with_reducible apply keeps_runDescriptor
    | split
    | dsimp only [Keeps.out, Keeps.cmd, Keeps.fate, Keeps.outOpt, Keeps.cmdOpt])

theorem keeps_execCmdRx {s t : State} (h : Keeps s t) (x1 x2) :
    Keeps.out s (execCmdRx x1 x2 t) := by
  unfold execCmdRx
  try dsimp only
  repeat' (first
    | with_reducible assumption
    | with_reducible apply keeps_inc
    | with_reducible apply keeps_busDrain
    | with_reducible apply keeps_seqTake
    | with_reducible apply keeps_waits
    | with_reducible apply keeps_cmdRun
    | refine keeps_hfpTurned (by assumption) ?_
    | split
    | dsimp only [Keeps.out, Keeps.cmd, Keeps.fate, Keeps.outOpt, Keeps.cmdOpt])

theorem keeps_cmdTaken {s t : State} (h : Keeps s t) (x1) :
    Keeps s (State.cmdTaken t x1) := by
  unfold State.cmdTaken
  try dsimp only
  repeat' (first
    | with_reducible assumption
    | with_reducible apply keeps_bset)

theorem keeps_execCmdFetch {s t : State} (h : Keeps s t) :
    Keeps.out s (execCmdFetch t) := by
  unfold execCmdFetch
  try dsimp only
  repeat' (first
    | with_reducible assumption
    | with_reducible apply keeps_busDrain
    | with_reducible apply keeps_runDescriptor
    | with_reducible apply keeps_cmdRun
    | with_reducible apply keeps_cmdTaken
    | split
    | dsimp only [Keeps.out, Keeps.cmd, Keeps.fate, Keeps.outOpt, Keeps.cmdOpt])

theorem keeps_clock {s t : State} (h : Keeps s t) :
    Keeps s (State.clock t) := by
  unfold State.clock
  try dsimp only
  repeat' (first
    | with_reducible assumption
    | with_reducible apply keeps_holdsOver
    | with_reducible apply keeps_sayParity
    | with_reducible apply keeps_lockTick
    | with_reducible apply keeps_tick)

theorem keeps_mkaFrame {s t : State} (h : Keeps s t) {x1 x2 r} (e : State.mkaFrame t x1 x2 = some r) : Keeps s r.1 := by
  unfold State.mkaFrame at e
  dsimp only at e
  repeat' (first
    | contradiction
    | (injection e with e; subst e; first | exact h | exact keeps_slotWrite (keeps_freeBytes h _) _ _ | exact keeps_slotWrite h _ _)
    | split at e)

theorem keeps_execCoxFrameTx {s t : State} (h : Keeps s t) (x1 x2 x3) : Keeps.out s (execCoxFrameTx x1 x2 t x3) := by
  unfold execCoxFrameTx
  extract_lets send
  have hs : ∀ u b, Keeps s u → Keeps s (send u b) := fun u b hu => keeps_internalIn hu _ _ _ _
  split
  · exact h
  · split
    · exact hs _ _ h
    · rename_i u
      extract_lets k
      have hk : Keeps s k := by
        unfold k
        split
        · exact keeps_slotRead h _
        · exact h
      show Keeps s _
      split
      · exact hs _ _ (keeps_mkaFrame hk (by assumption))
      · exact hk

end Sys2Proof.Machine
end

