-- ==== Sys2Proof/Laws/KeepsLines.lean ====
section
/-! SUPPORT. What the operations of the rows of frames, lanes, lines and registers keep (Sys2Proof.Machine.Keeps). -/
namespace Sys2Proof.Machine
set_option Elab.async false

theorem keeps_execFrameEnd {s t : State} (h : Keeps s t) (x1 x2 x3) :
    Keeps.out s (execFrameEnd x1 x2 x3 t) := by
  unfold execFrameEnd
  try dsimp only
  repeat' (first
    | with_reducible assumption
    | with_reducible apply keeps_macVerdict
    | with_reducible apply keeps_rxDrop
    | with_reducible apply keeps_inc
    | with_reducible apply keeps_mgmtIn
    | with_reducible apply keeps_sayParity
    | with_reducible apply keeps_endFrame
    | split
    | dsimp only [Keeps.out, Keeps.cmd, Keeps.fate, Keeps.outOpt, Keeps.cmdOpt])

theorem keeps_execStreamMaxLenExceeded {s t : State} (h : Keeps s t) (x1 x2 x3 x4) :
    Keeps.out s (execStreamMaxLenExceeded x1 x2 t x3 x4) := by
  unfold execStreamMaxLenExceeded
  try dsimp only
  repeat' (first
    | with_reducible assumption
    | with_reducible apply keeps_sayParity
    | with_reducible apply keeps_inc
    | with_reducible apply keeps_endEarly
    | split
    | dsimp only [Keeps.out, Keeps.cmd, Keeps.fate, Keeps.outOpt, Keeps.cmdOpt])

theorem keeps_execTxEnd {s t : State} (h : Keeps s t) (x1) :
    Keeps.out s (execTxEnd x1 t) := by
  unfold execTxEnd
  try dsimp only
  repeat' (first
    | with_reducible assumption
    | with_reducible apply keeps_endCopy
    | split
    | dsimp only [Keeps.out, Keeps.cmd, Keeps.fate, Keeps.outOpt, Keeps.cmdOpt])

theorem keeps_execClassify {s t : State} (h : Keeps s t) (x1 x2) :
    Keeps.out s (execClassify x1 x2 t) := by
  unfold execClassify
  try dsimp only
  repeat' (first
    | with_reducible assumption
    | with_reducible apply keeps_umpireTakes
    | with_reducible apply keeps_rxDrop
    | with_reducible apply keeps_rxKeep
    | split
    | dsimp only [Keeps.out, Keeps.cmd, Keeps.fate, Keeps.outOpt, Keeps.cmdOpt])

theorem keeps_execLaneSelect {s t : State} (h : Keeps s t) (x1 x2 x3) :
    Keeps.out s (execLaneSelect x1 x2 x3 t) := by
  unfold execLaneSelect
  try dsimp only
  repeat' (first
    | (with_reducible assumption)
    | (with_reducible exact trivial)
    | (with_reducible apply keeps_selectNext)
    | (with_reducible apply keeps_preemptNow)
    | (with_reducible apply Keeps.foldl)
    | (with_reducible apply Keeps.foldl_fst)
    | (with_reducible apply Keeps.foldl_snd)
    | (with_reducible apply Keeps.getD)
    | (with_reducible refine Keeps.fst (by assumption) ?_)
    | (with_reducible refine Keeps.snd (by assumption) ?_)
    | (intro)
    | (split)
    | (dsimp only [Keeps.out, Keeps.cmd, Keeps.fate, Keeps.outOpt, Keeps.cmdOpt])
    | (with_reducible refine Keeps.fields ?_ rfl rfl rfl)
    | (with_reducible refine Keeps.dropped _ ?_ rfl rfl))

theorem keeps_execTsRecordReturn {s t : State} (h : Keeps s t) (x1) :
    Keeps.out s (execTsRecordReturn x1 t) := by
  unfold execTsRecordReturn
  try dsimp only
  repeat' (first
    | with_reducible assumption
    | with_reducible apply keeps_returnStamp
    | split
    | dsimp only [Keeps.out, Keeps.cmd, Keeps.fate, Keeps.outOpt, Keeps.cmdOpt])

theorem keeps_tryCut {s t : State} (h : Keeps s t) (x1 x2 x3 x4) :
    Keeps s (State.tryCut t x1 x2 x3 x4) := by
  unfold State.tryCut
  try dsimp only
  repeat' (first
    | with_reducible assumption
    | with_reducible apply keeps_inc
    | with_reducible apply keeps_rxKeep
    | with_reducible apply keeps_writeWords
    | with_reducible apply keeps_takeHandle
    | with_reducible apply keeps_settle
    | split)

theorem keeps_execChunkOutgrown {s t : State} (h : Keeps s t) (x1 x2 x3 x4) :
    Keeps.out s (execChunkOutgrown x1 x2 t x3 x4) := by
  unfold execChunkOutgrown
  try dsimp only
  repeat' (first
    | (with_reducible assumption)
    | (with_reducible exact trivial)
    | (with_reducible apply keeps_sayParity)
    | (with_reducible apply keeps_inc)
    | (with_reducible apply keeps_endEarly)
    | (with_reducible apply Keeps.foldl)
    | (with_reducible apply Keeps.foldl_fst)
    | (with_reducible apply Keeps.foldl_snd)
    | (with_reducible apply Keeps.getD)
    | (with_reducible refine Keeps.fst (by assumption) ?_)
    | (with_reducible refine Keeps.snd (by assumption) ?_)
    | (intro)
    | (split)
    | (dsimp only [Keeps.out, Keeps.cmd, Keeps.fate, Keeps.outOpt, Keeps.cmdOpt])
    | (with_reducible refine Keeps.fields ?_ rfl rfl rfl)
    | (with_reducible refine Keeps.dropped _ ?_ rfl rfl))

theorem keeps_execCt64thByte {s t : State} (h : Keeps s t) (x1 x2) :
    Keeps.out s (execCt64thByte x1 x2 t) := by
  unfold execCt64thByte
  try dsimp only
  repeat' (first
    | with_reducible assumption
    | with_reducible apply keeps_tryCut
    | split
    | dsimp only [Keeps.out, Keeps.cmd, Keeps.fate, Keeps.outOpt, Keeps.cmdOpt])

theorem keeps_execDescriptorArrival {s t : State} (h : Keeps s t) (x1 x2 x3) :
    Keeps.out s (execDescriptorArrival x1 x2 x3 t) := by
  unfold execDescriptorArrival
  try dsimp only
  repeat' (first
    | (with_reducible assumption)
    | (with_reducible exact trivial)
    | (with_reducible apply keeps_mgmtOut)
    | (with_reducible apply keeps_rxDrop)
    | (with_reducible apply keeps_sayParity)
    | (with_reducible apply keeps_settle)
    | (with_reducible apply Keeps.foldl)
    | (with_reducible apply Keeps.foldl_fst)
    | (with_reducible apply Keeps.foldl_snd)
    | (with_reducible apply Keeps.getD)
    | (with_reducible refine Keeps.fst (by assumption) ?_)
    | (with_reducible refine Keeps.snd (by assumption) ?_)
    | (intro)
    | (split)
    | (dsimp only [Keeps.out, Keeps.cmd, Keeps.fate, Keeps.outOpt, Keeps.cmdOpt])
    | (with_reducible refine Keeps.fields ?_ rfl rfl rfl)
    | (with_reducible refine Keeps.dropped _ ?_ rfl rfl))

theorem keeps_execShaperRefill {s t : State} (h : Keeps s t) (x1) :
    Keeps.out s (execShaperRefill x1 t) := by
  unfold execShaperRefill
  try dsimp only
  repeat' (first
    | (with_reducible assumption)
    | (with_reducible exact trivial)
    | (with_reducible apply keeps_free)
    | (with_reducible apply keeps_selectNext)
    | (with_reducible apply Keeps.foldl)
    | (with_reducible apply Keeps.foldl_fst)
    | (with_reducible apply Keeps.foldl_snd)
    | (with_reducible apply Keeps.getD)
    | (with_reducible refine Keeps.fst (by assumption) ?_)
    | (with_reducible refine Keeps.snd (by assumption) ?_)
    | (intro)
    | (split)
    | (dsimp only [Keeps.out, Keeps.cmd, Keeps.fate, Keeps.outOpt, Keeps.cmdOpt])
    | (with_reducible refine Keeps.fields ?_ rfl rfl rfl)
    | (with_reducible refine Keeps.dropped _ ?_ rfl rfl))

theorem keeps_obsLane {s t : State} (h : Keeps s t) (x1 x2) :
    Keeps s (State.obsLane t x1 x2) := by
  unfold State.obsLane
  try dsimp only
  repeat' (first
    | with_reducible assumption
    | with_reducible apply keeps_set
    | with_reducible apply keeps_inc)

theorem keeps_gateStep {s t : State} (h : Keeps s t) (x1 x2 x3) :
    Keeps s (State.gateStep t x1 x2 x3) := by
  unfold State.gateStep
  try dsimp only
  repeat' (first
    | with_reducible assumption
    | with_reducible apply keeps_fset
    | with_reducible apply keeps_cutSending
    | with_reducible apply keeps_showGate)

theorem keeps_execGateBoundary {s t : State} (h : Keeps s t) (x1) :
    Keeps.out s (execGateBoundary x1 t) := by
  unfold execGateBoundary
  try dsimp only
  repeat' (first
    | (with_reducible assumption)
    | (with_reducible exact trivial)
    | (with_reducible apply keeps_timeSeen)
    | (with_reducible apply keeps_gateStep)
    | (with_reducible apply Keeps.foldl)
    | (with_reducible apply Keeps.foldl_fst)
    | (with_reducible apply Keeps.foldl_snd)
    | (with_reducible apply Keeps.getD)
    | (with_reducible refine Keeps.fst (by assumption) ?_)
    | (with_reducible refine Keeps.snd (by assumption) ?_)
    | (intro)
    | (split)
    | (dsimp only [Keeps.out, Keeps.cmd, Keeps.fate, Keeps.outOpt, Keeps.cmdOpt])
    | (with_reducible refine Keeps.fields ?_ rfl rfl rfl)
    | (with_reducible refine Keeps.dropped _ ?_ rfl rfl))

theorem keeps_execMmVerifyTimer {s t : State} (h : Keeps s t) (x1) :
    Keeps.out s (execMmVerifyTimer x1 t) := by
  unfold execMmVerifyTimer
  try dsimp only
  repeat' (first
    | with_reducible assumption
    | with_reducible apply keeps_fset
    | with_reducible apply keeps_setMm
    | with_reducible apply keeps_emit
    | split
    | dsimp only [Keeps.out, Keeps.cmd, Keeps.fate, Keeps.outOpt, Keeps.cmdOpt])

theorem keeps_execObsSample {s t : State} (h : Keeps s t) :
    Keeps.out s (execObsSample t) := by
  unfold execObsSample
  try dsimp only
  repeat' (first
    | with_reducible assumption
    | with_reducible apply keeps_each
    | with_reducible apply keeps_obsLane
    | (intro)
    | split
    | dsimp only [Keeps.out, Keeps.cmd, Keeps.fate, Keeps.outOpt, Keeps.cmdOpt])

theorem keeps_execMmRespond {s t : State} (h : Keeps s t) (x1) :
    Keeps.out s (execMmRespond x1 t) := by
  unfold execMmRespond
  try dsimp only
  repeat' (first
    | with_reducible assumption
    | with_reducible apply keeps_setMm
    | split
    | dsimp only [Keeps.out, Keeps.cmd, Keeps.fate, Keeps.outOpt, Keeps.cmdOpt])

theorem keeps_linErr {s t : State} (h : Keeps s t) (x1 x2) :
    Keeps s (State.linErr t x1 x2) := by
  unfold State.linErr
  try dsimp only
  repeat' (first
    | with_reducible assumption
    | with_reducible apply keeps_set)

theorem keeps_linMissing {s t : State} (h : Keeps s t) (x1) :
    Keeps s (State.linMissing t x1) := by
  unfold State.linMissing
  try dsimp only
  repeat' (first
    | with_reducible assumption
    | with_reducible apply keeps_linErr
    | with_reducible apply keeps_inc
    | split)

theorem keeps_linAnswer {s t : State} (h : Keeps s t) (x1 x2 x3) :
    Keeps s (State.linAnswer t x1 x2 x3) := by
  unfold State.linAnswer
  try dsimp only
  repeat' (first
    | with_reducible assumption
    | with_reducible apply keeps_assemble
    | with_reducible apply keeps_linDrive
    | with_reducible apply keeps_inc
    | with_reducible refine Keeps.fst (by assumption) ?_
    | split)

theorem keeps_linHeader {s t : State} (h : Keeps s t) (x1 x2) :
    Keeps s (State.linHeader t x1 x2) := by
  unfold State.linHeader
  try dsimp only
  repeat' (first
    | with_reducible assumption
    | with_reducible apply keeps_linSet
    | with_reducible apply keeps_each
    | with_reducible apply keeps_rigTouch
    | with_reducible apply keeps_linAnswer
    | (intro)
    | split)

theorem keeps_execLinHeaderRx {s t : State} (h : Keeps s t) (x1 x2) :
    Keeps.out s (execLinHeaderRx x1 x2 t) := by
  unfold execLinHeaderRx
  try dsimp only
  repeat' (first
    | with_reducible assumption
    | with_reducible apply keeps_linHeader
    | split
    | dsimp only [Keeps.out, Keeps.cmd, Keeps.fate, Keeps.outOpt, Keeps.cmdOpt])

theorem keeps_linJudge {s t : State} (h : Keeps s t) (x1 x2 x3 x4 x5) :
    Keeps s (State.linJudge t x1 x2 x3 x4 x5) := by
  unfold State.linJudge
  try dsimp only
  repeat' (first
    | with_reducible assumption
    | with_reducible apply keeps_linMissing
    | with_reducible apply keeps_linErr
    | with_reducible apply keeps_inc
    | with_reducible apply keeps_linAccept
    | split)

theorem keeps_execLinResponseRx {s t : State} (h : Keeps s t) (x1 x2 x3 x4 x5) :
    Keeps.out s (execLinResponseRx x1 x2 x3 x4 x5 t) := by
  unfold execLinResponseRx
  try dsimp only
  repeat' (first
    | with_reducible assumption
    | with_reducible apply keeps_linSet
    | with_reducible apply keeps_linJudge
    | with_reducible apply keeps_linErr
    | with_reducible apply keeps_inc
    | split
    | dsimp only [Keeps.out, Keeps.cmd, Keeps.fate, Keeps.outOpt, Keeps.cmdOpt])

theorem keeps_linSlotTouch {s t : State} (h : Keeps s t) (x1 x2 x3) :
    Keeps s (State.linSlotTouch t x1 x2 x3) := by
  unfold State.linSlotTouch
  try dsimp only
  repeat' (first
    | (with_reducible assumption)
    | (with_reducible exact trivial)
    | (with_reducible apply keeps_rigTouch)
    | (with_reducible apply Keeps.foldl)
    | (with_reducible apply Keeps.foldl_fst)
    | (with_reducible apply Keeps.foldl_snd)
    | (with_reducible apply Keeps.getD)
    | (with_reducible refine Keeps.fst (by assumption) ?_)
    | (with_reducible refine Keeps.snd (by assumption) ?_)
    | (intro)
    | (split)
    | (dsimp only [Keeps.out, Keeps.cmd, Keeps.fate, Keeps.outOpt, Keeps.cmdOpt])
    | (with_reducible refine Keeps.fields ?_ rfl rfl rfl)
    | (with_reducible refine Keeps.dropped _ ?_ rfl rfl))

theorem keeps_execLinNoResponse {s t : State} (h : Keeps s t) (x1) :
    Keeps.out s (execLinNoResponse x1 t) := by
  unfold execLinNoResponse
  try dsimp only
  repeat' (first
    | with_reducible assumption
    | with_reducible apply keeps_linMissing
    | with_reducible apply keeps_linSet
    | split
    | dsimp only [Keeps.out, Keeps.cmd, Keeps.fate, Keeps.outOpt, Keeps.cmdOpt])

theorem keeps_linRunSlot {s t : State} (h : Keeps s t) (x1 x2) :
    Keeps s (State.linRunSlot t x1 x2) := by
  unfold State.linRunSlot
  try dsimp only
  repeat' (first
    | with_reducible assumption
    | with_reducible apply keeps_rigTouch
    | with_reducible apply keeps_linAnswer
    | with_reducible apply keeps_linSet
    | with_reducible apply keeps_linDrive
    | split)

theorem keeps_execLinSlotStart {s t : State} (h : Keeps s t) (x1) :
    Keeps.out s (execLinSlotStart x1 t) := by
  unfold execLinSlotStart
  try dsimp only
  repeat' (first
    | (with_reducible assumption)
    | (with_reducible exact trivial)
    | (with_reducible apply keeps_linShow)
    | (with_reducible apply keeps_linSet)
    | (with_reducible apply keeps_linSlotTouch)
    | (with_reducible apply keeps_set)
    | (with_reducible apply keeps_linRunSlot)
    | (with_reducible apply Keeps.foldl)
    | (with_reducible apply Keeps.foldl_fst)
    | (with_reducible apply Keeps.foldl_snd)
    | (with_reducible apply Keeps.getD)
    | (with_reducible refine Keeps.fst (by assumption) ?_)
    | (with_reducible refine Keeps.snd (by assumption) ?_)
    | (intro)
    | (split)
    | (dsimp only [Keeps.out, Keeps.cmd, Keeps.fate, Keeps.outOpt, Keeps.cmdOpt])
    | (with_reducible refine Keeps.fields ?_ rfl rfl rfl)
    | (with_reducible refine Keeps.dropped _ ?_ rfl rfl))

theorem keeps_phyCounted {s t : State} (h : Keeps s t) (x1 x2 x3) :
    Keeps s (State.phyCounted t x1 x2 x3) := by
  unfold State.phyCounted
  try dsimp only
  repeat' (first
    | (with_reducible assumption)
    | (with_reducible exact trivial)
    | (with_reducible apply keeps_add)
    | (with_reducible apply Keeps.foldl)
    | (with_reducible apply Keeps.foldl_fst)
    | (with_reducible apply Keeps.foldl_snd)
    | (with_reducible apply Keeps.getD)
    | (with_reducible refine Keeps.fst (by assumption) ?_)
    | (with_reducible refine Keeps.snd (by assumption) ?_)
    | (intro)
    | (split)
    | (dsimp only [Keeps.out, Keeps.cmd, Keeps.fate, Keeps.outOpt, Keeps.cmdOpt])
    | (with_reducible refine Keeps.fields ?_ rfl rfl rfl)
    | (with_reducible refine Keeps.dropped _ ?_ rfl rfl))

theorem keeps_sqiJudge {s t : State} (h : Keeps s t) (x1 x2) :
    Keeps s (State.sqiJudge t x1 x2) := by
  unfold State.sqiJudge
  try dsimp only
  repeat' (first
    | with_reducible assumption
    | with_reducible apply keeps_prtSet
    | with_reducible apply keeps_linkEvent
    | split)

theorem keeps_noteSqi {s t : State} (h : Keeps s t) (x1 x2) :
    Keeps s (State.noteSqi t x1 x2) := by
  unfold State.noteSqi
  try dsimp only
  repeat' (first
    | with_reducible assumption
    | with_reducible apply keeps_set
    | split)

theorem keeps_execSqiSample {s t : State} (h : Keeps s t) (x1 x2 x3 x4) :
    Keeps.out s (execSqiSample x1 x2 t x3 x4) := by
  unfold execSqiSample
  try dsimp only
  repeat' (first
    | (with_reducible assumption)
    | (with_reducible exact trivial)
    | (with_reducible apply keeps_phyCounted)
    | (with_reducible apply keeps_sqiJudge)
    | (with_reducible apply keeps_noteSqi)
    | (with_reducible apply keeps_resumeUp)
    | (with_reducible apply Keeps.foldl)
    | (with_reducible apply Keeps.foldl_fst)
    | (with_reducible apply Keeps.foldl_snd)
    | (with_reducible apply Keeps.getD)
    | (with_reducible refine Keeps.fst (by assumption) ?_)
    | (with_reducible refine Keeps.snd (by assumption) ?_)
    | (intro)
    | (split)
    | (dsimp only [Keeps.out, Keeps.cmd, Keeps.fate, Keeps.outOpt, Keeps.cmdOpt])
    | (with_reducible refine Keeps.fields ?_ rfl rfl rfl)
    | (with_reducible refine Keeps.dropped _ ?_ rfl rfl))

theorem keeps_portWoken {s t : State} (h : Keeps s t) (x1 x2) :
    Keeps s (State.portWoken t x1 x2) := by
  unfold State.portWoken
  try dsimp only
  repeat' (first
    | with_reducible assumption
    | with_reducible apply keeps_portWake
    | with_reducible apply keeps_settleSwitch
    | with_reducible apply keeps_wakeEvent
    | split)

theorem keeps_execTc10Wake {s t : State} (h : Keeps s t) (x1) :
    Keeps.out s (execTc10Wake x1 t) := by
  unfold execTc10Wake
  try dsimp only
  repeat' (first
    | with_reducible assumption
    | with_reducible apply keeps_portWoken
    | split
    | dsimp only [Keeps.out, Keeps.cmd, Keeps.fate, Keeps.outOpt, Keeps.cmdOpt])

theorem keeps_execHoldExpiry {s t : State} (h : Keeps s t) (x1 x2) :
    Keeps.out s (execHoldExpiry x1 x2 t) := by
  unfold execHoldExpiry
  try dsimp only
  repeat' (first
    | with_reducible assumption
    | with_reducible apply keeps_holdExpire
    | split
    | dsimp only [Keeps.out, Keeps.cmd, Keeps.fate, Keeps.outOpt, Keeps.cmdOpt])

theorem keeps_diagBack {s t : State} (h : Keeps s t) (x1) :
    Keeps s (State.diagBack t x1) := by
  unfold State.diagBack
  try dsimp only
  repeat' (first
    | with_reducible assumption
    | with_reducible apply keeps_putMdi
    | with_reducible apply keeps_setLink
    | with_reducible apply keeps_portLeaveOff
    | split)

theorem keeps_execDiagDone {s t : State} (h : Keeps s t) (x1 x2 x3) :
    Keeps.out s (execDiagDone x1 x2 x3 t) := by
  unfold execDiagDone
  try dsimp only
  repeat' (first
    | with_reducible assumption
    | with_reducible apply keeps_set
    | with_reducible apply keeps_diagBack
    | with_reducible apply keeps_dropRecord
    | with_reducible apply keeps_linkEvent
    | split
    | dsimp only [Keeps.out, Keeps.cmd, Keeps.fate, Keeps.outOpt, Keeps.cmdOpt])

theorem keeps_execCollision {s t : State} (h : Keeps s t) (x1) :
    Keeps.out s (execCollision x1 t) := by
  unfold execCollision
  try dsimp only
  repeat' (first
    | with_reducible assumption
    | with_reducible apply keeps_inc
    | split
    | dsimp only [Keeps.out, Keeps.cmd, Keeps.fate, Keeps.outOpt, Keeps.cmdOpt])

theorem keeps_speedMismatch {s t : State} (h : Keeps s t) (x1) :
    Keeps s (State.speedMismatch t x1) := by
  unfold State.speedMismatch
  try dsimp only
  repeat' (first
    | with_reducible assumption
    | with_reducible apply keeps_linkEvent
    | with_reducible apply keeps_set
    | split)

theorem keeps_execPartnerSignal {s t : State} (h : Keeps s t) (x1 x2) :
    Keeps.out s (execPartnerSignal x1 x2 t) := by
  unfold execPartnerSignal
  try dsimp only
  repeat' (first
    | with_reducible assumption
    | with_reducible apply keeps_prtSet
    | with_reducible apply keeps_setLink
    | with_reducible apply keeps_speedMismatch
    | split
    | dsimp only [Keeps.out, Keeps.cmd, Keeps.fate, Keeps.outOpt, Keeps.cmdOpt])

theorem keeps_execMdioFrameDone {s t : State} (h : Keeps s t) (x1 x2) :
    Keeps.out s (execMdioFrameDone x1 x2 t) := by
  unfold execMdioFrameDone
  try dsimp only
  repeat' (first
    | with_reducible assumption
    | with_reducible apply keeps_set
    | with_reducible apply keeps_mdioNext
    | split
    | dsimp only [Keeps.out, Keeps.cmd, Keeps.fate, Keeps.outOpt, Keeps.cmdOpt])

theorem keeps_execTc10SleepRequest {s t : State} (h : Keeps s t) (x1) :
    Keeps.out s (execTc10SleepRequest x1 t) := by
  unfold execTc10SleepRequest
  try dsimp only
  repeat' (first
    | with_reducible assumption
    | with_reducible apply keeps_sendTc10
    | with_reducible apply keeps_portSleep
    | with_reducible apply keeps_inc
    | split
    | dsimp only [Keeps.out, Keeps.cmd, Keeps.fate, Keeps.outOpt, Keeps.cmdOpt])

theorem keeps_execTc10SleepAbort {s t : State} (h : Keeps s t) (x1) :
    Keeps.out s (execTc10SleepAbort x1 t) := by
  unfold execTc10SleepAbort
  try dsimp only
  repeat' (first
    | with_reducible assumption
    | with_reducible apply keeps_abortEntry
    | split
    | dsimp only [Keeps.out, Keeps.cmd, Keeps.fate, Keeps.outOpt, Keeps.cmdOpt])

theorem keeps_execTc10SleepAck {s t : State} (h : Keeps s t) (x1) :
    Keeps.out s (execTc10SleepAck x1 t) := by
  unfold execTc10SleepAck
  try dsimp only
  repeat' (first
    | with_reducible assumption
    | with_reducible apply keeps_portSleep
    | with_reducible apply keeps_settleSwitch
    | split
    | dsimp only [Keeps.out, Keeps.cmd, Keeps.fate, Keeps.outOpt, Keeps.cmdOpt]
    | with_reducible refine Keeps.fields ?_ rfl rfl rfl)

theorem keeps_execHoldRetrain {s t : State} (h : Keeps s t) (x1) :
    Keeps.out s (execHoldRetrain x1 t) := by
  unfold execHoldRetrain
  try dsimp only
  repeat' (first
    | with_reducible assumption
    | with_reducible apply keeps_prtSet
    | split
    | dsimp only [Keeps.out, Keeps.cmd, Keeps.fate, Keeps.outOpt, Keeps.cmdOpt])

theorem keeps_execLinkStatusFail {s t : State} (h : Keeps s t) (x1 x2) :
    Keeps.out s (execLinkStatusFail x1 x2 t) := by
  unfold execLinkStatusFail
  try dsimp only
  repeat' (first
    | with_reducible assumption
    | with_reducible apply keeps_linkFail
    | with_reducible apply keeps_prtSet
    | split
    | dsimp only [Keeps.out, Keeps.cmd, Keeps.fate, Keeps.outOpt, Keeps.cmdOpt])

theorem keeps_execSegmentActivity {s t : State} (h : Keeps s t) (x1) :
    Keeps.out s (execSegmentActivity x1 t) := by
  unfold execSegmentActivity
  try dsimp only
  repeat' (first
    | with_reducible assumption
    | with_reducible apply keeps_portWoken
    | split
    | dsimp only [Keeps.out, Keeps.cmd, Keeps.fate, Keeps.outOpt, Keeps.cmdOpt])

theorem keeps_noteLink {s t : State} (h : Keeps s t) (x1 x2) :
    Keeps s (State.noteLink t x1 x2) := by
  unfold State.noteLink
  try dsimp only
  repeat' (first
    | with_reducible assumption
    | with_reducible apply keeps_prtSet
    | with_reducible apply keeps_noteSqi
    | with_reducible apply keeps_each
    | with_reducible apply keeps_noteNode
    | (intro)
    | split)

theorem keeps_linkOk {s t : State} (h : Keeps s t) (x1 x2) :
    Keeps s (State.linkOk t x1 x2) := by
  unfold State.linkOk
  try dsimp only
  repeat' (first
    | with_reducible assumption
    | with_reducible apply keeps_speedMismatch
    | with_reducible apply keeps_enterUp
    | with_reducible apply keeps_noteLink
    | with_reducible apply keeps_prtSet
    | with_reducible apply keeps_resumeUp
    | split)

theorem keeps_execPlcaBeaconTimeout {s t : State} (h : Keeps s t) (x1) :
    Keeps.out s (execPlcaBeaconTimeout x1 t) := by
  unfold execPlcaBeaconTimeout
  try dsimp only
  repeat' (first
    | with_reducible assumption
    | with_reducible apply keeps_inc
    | split
    | dsimp only [Keeps.out, Keeps.cmd, Keeps.fate, Keeps.outOpt, Keeps.cmdOpt])

theorem keeps_execAnalogStartEnd {s t : State} (h : Keeps s t) (x1 x2 x3) :
    Keeps.out s (execAnalogStartEnd x1 x2 x3 t) := by
  unfold execAnalogStartEnd
  try dsimp only
  repeat' (first
    | with_reducible assumption
    | with_reducible apply keeps_resumeStart
    | split
    | dsimp only [Keeps.out, Keeps.cmd, Keeps.fate, Keeps.outOpt, Keeps.cmdOpt])

theorem keeps_execResumeProbeDone {s t : State} (h : Keeps s t) (x1 x2 x3 x4 x5) :
    Keeps.out s (execResumeProbeDone x1 x2 x3 x4 x5 t) := by
  unfold execResumeProbeDone
  try dsimp only
  repeat' (first
    | with_reducible assumption
    | with_reducible apply keeps_prtSet
    | with_reducible apply keeps_resumeFallback
    | split
    | dsimp only [Keeps.out, Keeps.cmd, Keeps.fate, Keeps.outOpt, Keeps.cmdOpt])

theorem keeps_execLinkStatusOk {s t : State} (h : Keeps s t) (x1 x2) :
    Keeps.out s (execLinkStatusOk x1 x2 t) := by
  unfold execLinkStatusOk
  try dsimp only
  repeat' (first
    | with_reducible assumption
    | with_reducible apply keeps_injMark
    | with_reducible apply keeps_linkOk
    | with_reducible apply keeps_holdExpire
    | split
    | dsimp only [Keeps.out, Keeps.cmd, Keeps.fate, Keeps.outOpt, Keeps.cmdOpt])

theorem keeps_execResumeLimit {s t : State} (h : Keeps s t) (x1 x2) :
    Keeps.out s (execResumeLimit x1 x2 t) := by
  unfold execResumeLimit
  try dsimp only
  repeat' (first
    | with_reducible assumption
    | with_reducible apply keeps_resumeFallback
    | with_reducible apply keeps_resumeUp
    | split
    | dsimp only [Keeps.out, Keeps.cmd, Keeps.fate, Keeps.outOpt, Keeps.cmdOpt])

theorem keeps_execPlcaForeignBeacon {s t : State} (h : Keeps s t) (x1) :
    Keeps.out s (execPlcaForeignBeacon x1 t) := by
  unfold execPlcaForeignBeacon
  try dsimp only
  repeat' (first
    | with_reducible assumption
    | with_reducible apply keeps_set
    | with_reducible apply keeps_inc
    | split
    | dsimp only [Keeps.out, Keeps.cmd, Keeps.fate, Keeps.outOpt, Keeps.cmdOpt])

theorem keeps_execDiagStart {s t : State} (h : Keeps s t) (x1 x2) :
    Keeps.out s (execDiagStart x1 x2 t) := by
  unfold execDiagStart
  try dsimp only
  repeat' (first
    | with_reducible assumption
    | with_reducible apply keeps_write
    | dsimp only [Keeps.out, Keeps.cmd, Keeps.fate, Keeps.outOpt, Keeps.cmdOpt])

theorem keeps_execRecEnable {s t : State} (h : Keeps s t) (x1 x2) :
    Keeps.out s (execRecEnable x1 x2 t) := by
  unfold execRecEnable
  try dsimp only
  repeat' (first
    | with_reducible assumption
    | with_reducible apply keeps_write
    | dsimp only [Keeps.out, Keeps.cmd, Keeps.fate, Keeps.outOpt, Keeps.cmdOpt])

theorem keeps_execPwrReq {s t : State} (h : Keeps s t) (x1 x2) :
    Keeps.out s (execPwrReq x1 x2 t) := by
  unfold execPwrReq
  try dsimp only
  repeat' (first
    | with_reducible assumption
    | with_reducible apply keeps_write
    | dsimp only [Keeps.out, Keeps.cmd, Keeps.fate, Keeps.outOpt, Keeps.cmdOpt])

theorem keeps_execPortDisable {s t : State} (h : Keeps s t) (x1 x2 x3) :
    Keeps.out s (execPortDisable x1 x2 x3 t) := by
  unfold execPortDisable
  try dsimp only
  repeat' (first
    | with_reducible assumption
    | with_reducible apply keeps_write
    | dsimp only [Keeps.out, Keeps.cmd, Keeps.fate, Keeps.outOpt, Keeps.cmdOpt])

theorem keeps_execTakeback {s t : State} (h : Keeps s t) (x1 x2) :
    Keeps.out s (execTakeback x1 x2 t) := by
  unfold execTakeback
  try dsimp only
  repeat' (first
    | with_reducible assumption
    | with_reducible apply keeps_write
    | dsimp only [Keeps.out, Keeps.cmd, Keeps.fate, Keeps.outOpt, Keeps.cmdOpt])

theorem keeps_execRecDisable {s t : State} (h : Keeps s t) (x1 x2) :
    Keeps.out s (execRecDisable x1 x2 t) := by
  unfold execRecDisable
  try dsimp only
  repeat' (first
    | with_reducible assumption
    | with_reducible apply keeps_write
    | dsimp only [Keeps.out, Keeps.cmd, Keeps.fate, Keeps.outOpt, Keeps.cmdOpt])

theorem keeps_execBuoyPop {s t : State} (h : Keeps s t) (x1 x2) :
    Keeps.out s (execBuoyPop x1 x2 t) := by
  unfold execBuoyPop
  try dsimp only
  repeat' (first
    | with_reducible assumption
    | with_reducible apply keeps_write
    | dsimp only [Keeps.out, Keeps.cmd, Keeps.fate, Keeps.outOpt, Keeps.cmdOpt])

theorem keeps_execPwrDomainsWrite {s t : State} (h : Keeps s t) (x1 x2 x3) :
    Keeps.out s (execPwrDomainsWrite x1 x2 x3 t) := by
  unfold execPwrDomainsWrite
  try dsimp only
  repeat' (first
    | with_reducible assumption
    | with_reducible apply keeps_write
    | split
    | dsimp only [Keeps.out, Keeps.cmd, Keeps.fate, Keeps.outOpt, Keeps.cmdOpt])

theorem keeps_execFstRun {s t : State} (h : Keeps s t) (x1 x2) :
    Keeps.out s (execFstRun x1 x2 t) := by
  unfold execFstRun
  try dsimp only
  repeat' (first
    | with_reducible assumption
    | with_reducible apply keeps_write
    | dsimp only [Keeps.out, Keeps.cmd, Keeps.fate, Keeps.outOpt, Keeps.cmdOpt])

theorem keeps_execTimeSet {s t : State} (h : Keeps s t) (x1 x2 x3) :
    Keeps.out s (execTimeSet x1 x2 x3 t) := by
  unfold execTimeSet
  try dsimp only
  repeat' (first
    | with_reducible assumption
    | with_reducible apply keeps_write
    | dsimp only [Keeps.out, Keeps.cmd, Keeps.fate, Keeps.outOpt, Keeps.cmdOpt])

theorem keeps_execImgEnable {s t : State} (h : Keeps s t) (x1 x2 x3) :
    Keeps.out s (execImgEnable x1 x2 x3 t) := by
  unfold execImgEnable
  try dsimp only
  repeat' (first
    | with_reducible assumption
    | with_reducible apply keeps_write
    | dsimp only [Keeps.out, Keeps.cmd, Keeps.fate, Keeps.outOpt, Keeps.cmdOpt])

theorem keeps_execLinTableSelect {s t : State} (h : Keeps s t) (x1 x2 x3) :
    Keeps.out s (execLinTableSelect x1 x2 x3 t) := by
  unfold execLinTableSelect
  try dsimp only
  repeat' (first
    | with_reducible assumption
    | with_reducible apply keeps_write
    | dsimp only [Keeps.out, Keeps.cmd, Keeps.fate, Keeps.outOpt, Keeps.cmdOpt])

theorem keeps_execUnfreeze {s t : State} (h : Keeps s t) (x1) :
    Keeps.out s (execUnfreeze x1 t) := by
  unfold execUnfreeze
  try dsimp only
  repeat' (first
    | with_reducible assumption
    | with_reducible apply keeps_write
    | dsimp only [Keeps.out, Keeps.cmd, Keeps.fate, Keeps.outOpt, Keeps.cmdOpt])

theorem keeps_execInjArm {s t : State} (h : Keeps s t) (x1 x2 x3) :
    Keeps.out s (execInjArm x1 x2 x3 t) := by
  unfold execInjArm
  try dsimp only
  repeat' (first
    | with_reducible assumption
    | with_reducible apply keeps_write
    | dsimp only [Keeps.out, Keeps.cmd, Keeps.fate, Keeps.outOpt, Keeps.cmdOpt])

theorem keeps_execLinStop {s t : State} (h : Keeps s t) (x1 x2 x3) :
    Keeps.out s (execLinStop x1 x2 x3 t) := by
  unfold execLinStop
  try dsimp only
  repeat' (first
    | with_reducible assumption
    | with_reducible apply keeps_write
    | dsimp only [Keeps.out, Keeps.cmd, Keeps.fate, Keeps.outOpt, Keeps.cmdOpt])

theorem keeps_execCanDisable {s t : State} (h : Keeps s t) (x1 x2 x3) :
    Keeps.out s (execCanDisable x1 x2 x3 t) := by
  unfold execCanDisable
  try dsimp only
  repeat' (first
    | with_reducible assumption
    | with_reducible apply keeps_write
    | dsimp only [Keeps.out, Keeps.cmd, Keeps.fate, Keeps.outOpt, Keeps.cmdOpt])

theorem keeps_execKick {s t : State} (h : Keeps s t) (x1) :
    Keeps.out s (execKick x1 t) := by
  unfold execKick
  try dsimp only
  repeat' (first
    | with_reducible assumption
    | with_reducible apply keeps_write
    | dsimp only [Keeps.out, Keeps.cmd, Keeps.fate, Keeps.outOpt, Keeps.cmdOpt])

theorem keeps_execDramEnable {s t : State} (h : Keeps s t) (x1 x2) :
    Keeps.out s (execDramEnable x1 x2 t) := by
  unfold execDramEnable
  try dsimp only
  repeat' (first
    | with_reducible assumption
    | with_reducible apply keeps_write
    | dsimp only [Keeps.out, Keeps.cmd, Keeps.fate, Keeps.outOpt, Keeps.cmdOpt])

theorem keeps_execTimeNowRead {s t : State} (h : Keeps s t) (x1 x2) :
    Keeps.out s (execTimeNowRead x1 x2 t) := by
  unfold execTimeNowRead
  try dsimp only
  repeat' (first
    | with_reducible assumption
    | with_reducible apply keeps_regRead
    | dsimp only [Keeps.out, Keeps.cmd, Keeps.fate, Keeps.outOpt, Keeps.cmdOpt])

theorem keeps_execHealthConfirm {s t : State} (h : Keeps s t) (x1 x2) :
    Keeps.out s (execHealthConfirm x1 x2 t) := by
  unfold execHealthConfirm
  try dsimp only
  repeat' (first
    | with_reducible assumption
    | with_reducible apply keeps_write
    | dsimp only [Keeps.out, Keeps.cmd, Keeps.fate, Keeps.outOpt, Keeps.cmdOpt])

theorem keeps_execCatchArm {s t : State} (h : Keeps s t) (x1 x2 x3) :
    Keeps.out s (execCatchArm x1 x2 x3 t) := by
  unfold execCatchArm
  try dsimp only
  repeat' (first
    | with_reducible assumption
    | with_reducible apply keeps_write
    | dsimp only [Keeps.out, Keeps.cmd, Keeps.fate, Keeps.outOpt, Keeps.cmdOpt])

theorem keeps_execCanEnable {s t : State} (h : Keeps s t) (x1 x2 x3) :
    Keeps.out s (execCanEnable x1 x2 x3 t) := by
  unfold execCanEnable
  try dsimp only
  repeat' (first
    | with_reducible assumption
    | with_reducible apply keeps_write
    | dsimp only [Keeps.out, Keeps.cmd, Keeps.fate, Keeps.outOpt, Keeps.cmdOpt])

theorem keeps_execStay {s t : State} (h : Keeps s t) (x1) :
    Keeps.out s (execStay x1 t) := by
  unfold execStay
  try dsimp only
  repeat' (first
    | with_reducible assumption
    | with_reducible apply keeps_write
    | dsimp only [Keeps.out, Keeps.cmd, Keeps.fate, Keeps.outOpt, Keeps.cmdOpt])

theorem keeps_execLogWordWrite {s t : State} (h : Keeps s t) (x1 x2 x3) :
    Keeps.out s (execLogWordWrite x1 x2 x3 t) := by
  unfold execLogWordWrite
  try dsimp only
  repeat' (first
    | with_reducible assumption
    | with_reducible apply keeps_write
    | dsimp only [Keeps.out, Keeps.cmd, Keeps.fate, Keeps.outOpt, Keeps.cmdOpt])

theorem keeps_execSnapshotCapture {s t : State} (h : Keeps s t) (x1) :
    Keeps.out s (execSnapshotCapture x1 t) := by
  unfold execSnapshotCapture
  try dsimp only
  repeat' (first
    | with_reducible assumption
    | with_reducible apply keeps_write
    | dsimp only [Keeps.out, Keeps.cmd, Keeps.fate, Keeps.outOpt, Keeps.cmdOpt])

theorem keeps_execHandover {s t : State} (h : Keeps s t) (x1 x2) :
    Keeps.out s (execHandover x1 x2 t) := by
  unfold execHandover
  try dsimp only
  repeat' (first
    | with_reducible assumption
    | with_reducible apply keeps_write
    | dsimp only [Keeps.out, Keeps.cmd, Keeps.fate, Keeps.outOpt, Keeps.cmdOpt])

theorem keeps_execCanRecover {s t : State} (h : Keeps s t) (x1 x2) :
    Keeps.out s (execCanRecover x1 x2 t) := by
  unfold execCanRecover
  try dsimp only
  repeat' (first
    | with_reducible assumption
    | with_reducible apply keeps_write
    | dsimp only [Keeps.out, Keeps.cmd, Keeps.fate, Keeps.outOpt, Keeps.cmdOpt])

theorem keeps_execDomainDisable {s t : State} (h : Keeps s t) (x1 x2 x3) :
    Keeps.out s (execDomainDisable x1 x2 x3 t) := by
  unfold execDomainDisable
  try dsimp only
  repeat' (first
    | with_reducible assumption
    | with_reducible apply keeps_write
    | dsimp only [Keeps.out, Keeps.cmd, Keeps.fate, Keeps.outOpt, Keeps.cmdOpt])

theorem keeps_execLoopbackChange {s t : State} (h : Keeps s t) (x1 x2 x3) :
    Keeps.out s (execLoopbackChange x1 x2 x3 t) := by
  unfold execLoopbackChange
  try dsimp only
  repeat' (first
    | with_reducible assumption
    | with_reducible apply keeps_write
    | dsimp only [Keeps.out, Keeps.cmd, Keeps.fate, Keeps.outOpt, Keeps.cmdOpt])

theorem keeps_execObsClear {s t : State} (h : Keeps s t) (x1) :
    Keeps.out s (execObsClear x1 t) := by
  unfold execObsClear
  try dsimp only
  repeat' (first
    | with_reducible assumption
    | with_reducible apply keeps_write
    | dsimp only [Keeps.out, Keeps.cmd, Keeps.fate, Keeps.outOpt, Keeps.cmdOpt])

theorem keeps_execMdioStart {s t : State} (h : Keeps s t) (x1 x2 x3) :
    Keeps.out s (execMdioStart x1 x2 x3 t) := by
  unfold execMdioStart
  try dsimp only
  repeat' (first
    | with_reducible assumption
    | with_reducible apply keeps_write
    | dsimp only [Keeps.out, Keeps.cmd, Keeps.fate, Keeps.outOpt, Keeps.cmdOpt])

theorem keeps_execOptProgram {s t : State} (h : Keeps s t) (x1) :
    Keeps.out s (execOptProgram x1 t) := by
  unfold execOptProgram
  try dsimp only
  repeat' (first
    | with_reducible assumption
    | with_reducible apply keeps_write
    | dsimp only [Keeps.out, Keeps.cmd, Keeps.fate, Keeps.outOpt, Keeps.cmdOpt])

theorem keeps_execTimeStep {s t : State} (h : Keeps s t) (x1 x2 x3) :
    Keeps.out s (execTimeStep x1 x2 x3 t) := by
  unfold execTimeStep
  try dsimp only
  repeat' (first
    | with_reducible assumption
    | with_reducible apply keeps_write
    | dsimp only [Keeps.out, Keeps.cmd, Keeps.fate, Keeps.outOpt, Keeps.cmdOpt])

theorem keeps_execInjDisable {s t : State} (h : Keeps s t) (x1) :
    Keeps.out s (execInjDisable x1 t) := by
  unfold execInjDisable
  try dsimp only
  repeat' (first
    | with_reducible assumption
    | with_reducible apply keeps_write
    | dsimp only [Keeps.out, Keeps.cmd, Keeps.fate, Keeps.outOpt, Keeps.cmdOpt])

theorem keeps_execFwdAgeWrite {s t : State} (h : Keeps s t) (x1 x2) :
    Keeps.out s (execFwdAgeWrite x1 x2 t) := by
  unfold execFwdAgeWrite
  try dsimp only
  repeat' (first
    | with_reducible assumption
    | with_reducible apply keeps_write
    | dsimp only [Keeps.out, Keeps.cmd, Keeps.fate, Keeps.outOpt, Keeps.cmdOpt])

theorem keeps_execDomainEnable {s t : State} (h : Keeps s t) (x1 x2 x3) :
    Keeps.out s (execDomainEnable x1 x2 x3 t) := by
  unfold execDomainEnable
  try dsimp only
  repeat' (first
    | with_reducible assumption
    | with_reducible apply keeps_write
    | dsimp only [Keeps.out, Keeps.cmd, Keeps.fate, Keeps.outOpt, Keeps.cmdOpt])

theorem keeps_execLinRun {s t : State} (h : Keeps s t) (x1 x2 x3) :
    Keeps.out s (execLinRun x1 x2 x3 t) := by
  unfold execLinRun
  try dsimp only
  repeat' (first
    | with_reducible assumption
    | with_reducible apply keeps_write
    | dsimp only [Keeps.out, Keeps.cmd, Keeps.fate, Keeps.outOpt, Keeps.cmdOpt])

theorem keeps_execInjEnable {s t : State} (h : Keeps s t) (x1) :
    Keeps.out s (execInjEnable x1 t) := by
  unfold execInjEnable
  try dsimp only
  repeat' (first
    | with_reducible assumption
    | with_reducible apply keeps_write
    | dsimp only [Keeps.out, Keeps.cmd, Keeps.fate, Keeps.outOpt, Keeps.cmdOpt])

theorem keeps_execPortEnable {s t : State} (h : Keeps s t) (x1 x2 x3) :
    Keeps.out s (execPortEnable x1 x2 x3 t) := by
  unfold execPortEnable
  try dsimp only
  repeat' (first
    | with_reducible assumption
    | with_reducible apply keeps_write
    | dsimp only [Keeps.out, Keeps.cmd, Keeps.fate, Keeps.outOpt, Keeps.cmdOpt])

theorem keeps_execIncrWrite {s t : State} (h : Keeps s t) (x1 x2 x3) :
    Keeps.out s (execIncrWrite x1 x2 x3 t) := by
  unfold execIncrWrite
  try dsimp only
  repeat' (first
    | with_reducible assumption
    | with_reducible apply keeps_write
    | dsimp only [Keeps.out, Keeps.cmd, Keeps.fate, Keeps.outOpt, Keeps.cmdOpt])

theorem keeps_execSlewWrite {s t : State} (h : Keeps s t) (x1 x2 x3) :
    Keeps.out s (execSlewWrite x1 x2 x3 t) := by
  unfold execSlewWrite
  try dsimp only
  repeat' (first
    | with_reducible assumption
    | with_reducible apply keeps_write
    | dsimp only [Keeps.out, Keeps.cmd, Keeps.fate, Keeps.outOpt, Keeps.cmdOpt])

theorem keeps_execCatchDisarm {s t : State} (h : Keeps s t) (x1 x2 x3) :
    Keeps.out s (execCatchDisarm x1 x2 x3 t) := by
  unfold execCatchDisarm
  try dsimp only
  repeat' (first
    | with_reducible assumption
    | with_reducible apply keeps_write
    | dsimp only [Keeps.out, Keeps.cmd, Keeps.fate, Keeps.outOpt, Keeps.cmdOpt])

theorem keeps_execLinWake {s t : State} (h : Keeps s t) (x1 x2) :
    Keeps.out s (execLinWake x1 x2 t) := by
  unfold execLinWake
  try dsimp only
  repeat' (first
    | with_reducible assumption
    | with_reducible apply keeps_write
    | dsimp only [Keeps.out, Keeps.cmd, Keeps.fate, Keeps.outOpt, Keeps.cmdOpt])

theorem keeps_execRingEnable {s t : State} (h : Keeps s t) (x1 x2 x3) :
    Keeps.out s (execRingEnable x1 x2 x3 t) := by
  unfold execRingEnable
  try dsimp only
  repeat' (first
    | with_reducible assumption
    | with_reducible apply keeps_write
    | dsimp only [Keeps.out, Keeps.cmd, Keeps.fate, Keeps.outOpt, Keeps.cmdOpt])

theorem keeps_execRingDisable {s t : State} (h : Keeps s t) (x1 x2 x3) :
    Keeps.out s (execRingDisable x1 x2 x3 t) := by
  unfold execRingDisable
  try dsimp only
  repeat' (first
    | with_reducible assumption
    | with_reducible apply keeps_write
    | dsimp only [Keeps.out, Keeps.cmd, Keeps.fate, Keeps.outOpt, Keeps.cmdOpt])

theorem keeps_execGteHoldWrite {s t : State} (h : Keeps s t) (x1 x2 x3) :
    Keeps.out s (execGteHoldWrite x1 x2 x3 t) := by
  unfold execGteHoldWrite
  try dsimp only
  repeat' (first
    | with_reducible assumption
    | with_reducible apply keeps_write
    | dsimp only [Keeps.out, Keeps.cmd, Keeps.fate, Keeps.outOpt, Keeps.cmdOpt])

theorem keeps_execStartOk {s t : State} (h : Keeps s t) (x1) :
    Keeps.out s (execStartOk x1 t) := by
  unfold execStartOk
  try dsimp only
  repeat' (first
    | with_reducible assumption
    | with_reducible apply keeps_write
    | dsimp only [Keeps.out, Keeps.cmd, Keeps.fate, Keeps.outOpt, Keeps.cmdOpt])

theorem keeps_execRigCyclicTick {s t : State} (h : Keeps s t) :
    Keeps.out s (execRigCyclicTick t) := by
  unfold execRigCyclicTick
  try dsimp only
  repeat' (first
    | with_reducible assumption
    | with_reducible apply keeps_eset
    | with_reducible apply keeps_each
    | with_reducible apply keeps_emitPdu
    | (intro)
    | split
    | dsimp only [Keeps.out, Keeps.cmd, Keeps.fate, Keeps.outOpt, Keeps.cmdOpt])

theorem keeps_execAcfBatchTimeout {s t : State} (h : Keeps s t) (x1) :
    Keeps.out s (execAcfBatchTimeout x1 t) := by
  unfold execAcfBatchTimeout
  try dsimp only
  repeat' (first
    | with_reducible assumption
    | with_reducible apply keeps_rigTouch
    | with_reducible apply keeps_sendTunnel
    | split
    | dsimp only [Keeps.out, Keeps.cmd, Keeps.fate, Keeps.outOpt, Keeps.cmdOpt])

theorem keeps_execRigEthRx {s t : State} (h : Keeps s t) :
    Keeps.out s (execRigEthRx t) := by
  unfold execRigEthRx
  try dsimp only
  repeat' (first
    | (with_reducible assumption)
    | (with_reducible exact trivial)
    | (with_reducible apply keeps_eset)
    | (with_reducible apply keeps_inc)
    | (with_reducible apply keeps_rigTake)
    | (with_reducible apply Keeps.foldl)
    | (with_reducible apply Keeps.foldl_fst)
    | (with_reducible apply Keeps.foldl_snd)
    | (with_reducible apply Keeps.getD)
    | (with_reducible refine Keeps.fst (by assumption) ?_)
    | (with_reducible refine Keeps.snd (by assumption) ?_)
    | (intro)
    | (split)
    | (dsimp only [Keeps.out, Keeps.cmd, Keeps.fate, Keeps.outOpt, Keeps.cmdOpt])
    | (with_reducible refine Keeps.fields ?_ rfl rfl rfl)
    | (with_reducible refine Keeps.dropped _ ?_ rfl rfl))

theorem keeps_freshForced {s t : State} (h : Keeps s t) (x1) :
    Keeps s (State.freshForced t x1) := by
  unfold State.freshForced
  try dsimp only
  repeat' (first
    | with_reducible assumption
    | with_reducible apply keeps_enterStale
    | with_reducible apply keeps_injSpend
    | split)

theorem keeps_execRigFreshTick {s t : State} (h : Keeps s t) (x1) :
    Keeps.out s (execRigFreshTick t x1) := by
  unfold execRigFreshTick
  try dsimp only
  repeat' (first
    | with_reducible assumption
    | with_reducible apply keeps_each
    | with_reducible apply keeps_rigUpset
    | with_reducible apply keeps_freshForced
    | with_reducible apply keeps_judgeFresh
    | (intro)
    | split
    | dsimp only [Keeps.out, Keeps.cmd, Keeps.fate, Keeps.outOpt, Keeps.cmdOpt])

end Sys2Proof.Machine
end

