-- ==== Sys2Proof/Laws/State.lean ====
section
/-! SUPPORT. The fields of State under each update: one lemma for each field and update, so that no proof unfolds a record. -/
namespace Sys2Proof.Machine
set_option Elab.async false
variable (s : State)

/-! ### The units -/

@[simp] theorem State.fset_pending (g : Fabric → Fabric) : (s.fset g).pending = s.pending := rfl
@[simp] theorem State.fset_regs (g : Fabric → Fabric) : (s.fset g).regs = s.regs := rfl
@[simp] theorem State.fset_readData (g : Fabric → Fabric) : (s.fset g).readData = s.readData := rfl
@[simp] theorem State.fset_latch (g : Fabric → Fabric) : (s.fset g).latch = s.latch := rfl
@[simp] theorem State.fset_hostMem (g : Fabric → Fabric) : (s.fset g).hostMem = s.hostMem := rfl
@[simp] theorem State.fset_refTicks (g : Fabric → Fabric) : (s.fset g).refTicks = s.refTicks := rfl
@[simp] theorem State.fset_freeCtr (g : Fabric → Fabric) : (s.fset g).freeCtr = s.freeCtr := rfl
@[simp] theorem State.fset_pins (g : Fabric → Fabric) : (s.fset g).pins = s.pins := rfl
@[simp] theorem State.fset_hif (g : Fabric → Fabric) : (s.fset g).hif = s.hif := rfl
@[simp] theorem State.fset_cox (g : Fabric → Fabric) : (s.fset g).cox = s.cox := rfl
@[simp] theorem State.fset_pwr (g : Fabric → Fabric) : (s.fset g).pwr = s.pwr := rfl
@[simp] theorem State.fset_rst (g : Fabric → Fabric) : (s.fset g).rst = s.rst := rfl
@[simp] theorem State.fset_prt (g : Fabric → Fabric) : (s.fset g).prt = s.prt := rfl
@[simp] theorem State.fset_mdioQueue (g : Fabric → Fabric) : (s.fset g).mdioQueue = s.mdioQueue := rfl
@[simp] theorem State.fset_mdioBus (g : Fabric → Fabric) : (s.fset g).mdioBus = s.mdioBus := rfl
@[simp] theorem State.fset_mdioOut (g : Fabric → Fabric) : (s.fset g).mdioOut = s.mdioOut := rfl
@[simp] theorem State.fset_tim (g : Fabric → Fabric) : (s.fset g).tim = s.tim := rfl
@[simp] theorem State.fset_fab (g : Fabric → Fabric) : (s.fset g).fab = g s.fab := rfl
@[simp] theorem State.fset_ump (g : Fabric → Fabric) : (s.fset g).ump = s.ump := rfl
@[simp] theorem State.fset_dram (g : Fabric → Fabric) : (s.fset g).dram = s.dram := rfl
@[simp] theorem State.fset_edge (g : Fabric → Fabric) : (s.fset g).edge = s.edge := rfl
@[simp] theorem State.fset_hfp (g : Fabric → Fabric) : (s.fset g).hfp = s.hfp := rfl
@[simp] theorem State.fset_key (g : Fabric → Fabric) : (s.fset g).key = s.key := rfl
@[simp] theorem State.fset_upd (g : Fabric → Fabric) : (s.fset g).upd = s.upd := rfl
@[simp] theorem State.fset_jtag (g : Fabric → Fabric) : (s.fset g).jtag = s.jtag := rfl
@[simp] theorem State.fset_rd (g : Fabric → Fabric) (a : Nat) : (s.fset g).rd a = s.rd a := rfl
@[simp] theorem State.fset_get (g : Fabric → Fabric) (x : Fld) : (s.fset g).get x = s.get x := rfl
@[simp] theorem State.fset_on (g : Fabric → Fabric) (x : Fld) : (s.fset g).on x = s.on x := rfl

@[simp] theorem State.tset_pending (g : TimeUnit → TimeUnit) : (s.tset g).pending = s.pending := rfl
@[simp] theorem State.tset_regs (g : TimeUnit → TimeUnit) : (s.tset g).regs = s.regs := rfl
@[simp] theorem State.tset_readData (g : TimeUnit → TimeUnit) : (s.tset g).readData = s.readData := rfl
@[simp] theorem State.tset_latch (g : TimeUnit → TimeUnit) : (s.tset g).latch = s.latch := rfl
@[simp] theorem State.tset_hostMem (g : TimeUnit → TimeUnit) : (s.tset g).hostMem = s.hostMem := rfl
@[simp] theorem State.tset_refTicks (g : TimeUnit → TimeUnit) : (s.tset g).refTicks = s.refTicks := rfl
@[simp] theorem State.tset_freeCtr (g : TimeUnit → TimeUnit) : (s.tset g).freeCtr = s.freeCtr := rfl
@[simp] theorem State.tset_pins (g : TimeUnit → TimeUnit) : (s.tset g).pins = s.pins := rfl
@[simp] theorem State.tset_hif (g : TimeUnit → TimeUnit) : (s.tset g).hif = s.hif := rfl
@[simp] theorem State.tset_cox (g : TimeUnit → TimeUnit) : (s.tset g).cox = s.cox := rfl
@[simp] theorem State.tset_pwr (g : TimeUnit → TimeUnit) : (s.tset g).pwr = s.pwr := rfl
@[simp] theorem State.tset_rst (g : TimeUnit → TimeUnit) : (s.tset g).rst = s.rst := rfl
@[simp] theorem State.tset_prt (g : TimeUnit → TimeUnit) : (s.tset g).prt = s.prt := rfl
@[simp] theorem State.tset_mdioQueue (g : TimeUnit → TimeUnit) : (s.tset g).mdioQueue = s.mdioQueue := rfl
@[simp] theorem State.tset_mdioBus (g : TimeUnit → TimeUnit) : (s.tset g).mdioBus = s.mdioBus := rfl
@[simp] theorem State.tset_mdioOut (g : TimeUnit → TimeUnit) : (s.tset g).mdioOut = s.mdioOut := rfl
@[simp] theorem State.tset_tim (g : TimeUnit → TimeUnit) : (s.tset g).tim = g s.tim := rfl
@[simp] theorem State.tset_fab (g : TimeUnit → TimeUnit) : (s.tset g).fab = s.fab := rfl
@[simp] theorem State.tset_ump (g : TimeUnit → TimeUnit) : (s.tset g).ump = s.ump := rfl
@[simp] theorem State.tset_dram (g : TimeUnit → TimeUnit) : (s.tset g).dram = s.dram := rfl
@[simp] theorem State.tset_edge (g : TimeUnit → TimeUnit) : (s.tset g).edge = s.edge := rfl
@[simp] theorem State.tset_hfp (g : TimeUnit → TimeUnit) : (s.tset g).hfp = s.hfp := rfl
@[simp] theorem State.tset_key (g : TimeUnit → TimeUnit) : (s.tset g).key = s.key := rfl
@[simp] theorem State.tset_upd (g : TimeUnit → TimeUnit) : (s.tset g).upd = s.upd := rfl
@[simp] theorem State.tset_jtag (g : TimeUnit → TimeUnit) : (s.tset g).jtag = s.jtag := rfl
@[simp] theorem State.tset_rd (g : TimeUnit → TimeUnit) (a : Nat) : (s.tset g).rd a = s.rd a := rfl
@[simp] theorem State.tset_get (g : TimeUnit → TimeUnit) (x : Fld) : (s.tset g).get x = s.get x := rfl
@[simp] theorem State.tset_on (g : TimeUnit → TimeUnit) (x : Fld) : (s.tset g).on x = s.on x := rfl

@[simp] theorem State.kset_pending (g : KeyUnit → KeyUnit) : (s.kset g).pending = s.pending := rfl
@[simp] theorem State.kset_regs (g : KeyUnit → KeyUnit) : (s.kset g).regs = s.regs := rfl
@[simp] theorem State.kset_readData (g : KeyUnit → KeyUnit) : (s.kset g).readData = s.readData := rfl
@[simp] theorem State.kset_latch (g : KeyUnit → KeyUnit) : (s.kset g).latch = s.latch := rfl
@[simp] theorem State.kset_hostMem (g : KeyUnit → KeyUnit) : (s.kset g).hostMem = s.hostMem := rfl
@[simp] theorem State.kset_refTicks (g : KeyUnit → KeyUnit) : (s.kset g).refTicks = s.refTicks := rfl
@[simp] theorem State.kset_freeCtr (g : KeyUnit → KeyUnit) : (s.kset g).freeCtr = s.freeCtr := rfl
@[simp] theorem State.kset_pins (g : KeyUnit → KeyUnit) : (s.kset g).pins = s.pins := rfl
@[simp] theorem State.kset_hif (g : KeyUnit → KeyUnit) : (s.kset g).hif = s.hif := rfl
@[simp] theorem State.kset_cox (g : KeyUnit → KeyUnit) : (s.kset g).cox = s.cox := rfl
@[simp] theorem State.kset_pwr (g : KeyUnit → KeyUnit) : (s.kset g).pwr = s.pwr := rfl
@[simp] theorem State.kset_rst (g : KeyUnit → KeyUnit) : (s.kset g).rst = s.rst := rfl
@[simp] theorem State.kset_prt (g : KeyUnit → KeyUnit) : (s.kset g).prt = s.prt := rfl
@[simp] theorem State.kset_mdioQueue (g : KeyUnit → KeyUnit) : (s.kset g).mdioQueue = s.mdioQueue := rfl
@[simp] theorem State.kset_mdioBus (g : KeyUnit → KeyUnit) : (s.kset g).mdioBus = s.mdioBus := rfl
@[simp] theorem State.kset_mdioOut (g : KeyUnit → KeyUnit) : (s.kset g).mdioOut = s.mdioOut := rfl
@[simp] theorem State.kset_tim (g : KeyUnit → KeyUnit) : (s.kset g).tim = s.tim := rfl
@[simp] theorem State.kset_fab (g : KeyUnit → KeyUnit) : (s.kset g).fab = s.fab := rfl
@[simp] theorem State.kset_ump (g : KeyUnit → KeyUnit) : (s.kset g).ump = s.ump := rfl
@[simp] theorem State.kset_dram (g : KeyUnit → KeyUnit) : (s.kset g).dram = s.dram := rfl
@[simp] theorem State.kset_edge (g : KeyUnit → KeyUnit) : (s.kset g).edge = s.edge := rfl
@[simp] theorem State.kset_hfp (g : KeyUnit → KeyUnit) : (s.kset g).hfp = s.hfp := rfl
@[simp] theorem State.kset_key (g : KeyUnit → KeyUnit) : (s.kset g).key = g s.key := rfl
@[simp] theorem State.kset_upd (g : KeyUnit → KeyUnit) : (s.kset g).upd = s.upd := rfl
@[simp] theorem State.kset_jtag (g : KeyUnit → KeyUnit) : (s.kset g).jtag = s.jtag := rfl
@[simp] theorem State.kset_rd (g : KeyUnit → KeyUnit) (a : Nat) : (s.kset g).rd a = s.rd a := rfl
@[simp] theorem State.kset_get (g : KeyUnit → KeyUnit) (x : Fld) : (s.kset g).get x = s.get x := rfl
@[simp] theorem State.kset_on (g : KeyUnit → KeyUnit) (x : Fld) : (s.kset g).on x = s.on x := rfl

@[simp] theorem State.eset_pending (g : EdgeUnit → EdgeUnit) : (s.eset g).pending = s.pending := rfl
@[simp] theorem State.eset_regs (g : EdgeUnit → EdgeUnit) : (s.eset g).regs = s.regs := rfl
@[simp] theorem State.eset_readData (g : EdgeUnit → EdgeUnit) : (s.eset g).readData = s.readData := rfl
@[simp] theorem State.eset_latch (g : EdgeUnit → EdgeUnit) : (s.eset g).latch = s.latch := rfl
@[simp] theorem State.eset_hostMem (g : EdgeUnit → EdgeUnit) : (s.eset g).hostMem = s.hostMem := rfl
@[simp] theorem State.eset_refTicks (g : EdgeUnit → EdgeUnit) : (s.eset g).refTicks = s.refTicks := rfl
@[simp] theorem State.eset_freeCtr (g : EdgeUnit → EdgeUnit) : (s.eset g).freeCtr = s.freeCtr := rfl
@[simp] theorem State.eset_pins (g : EdgeUnit → EdgeUnit) : (s.eset g).pins = s.pins := rfl
@[simp] theorem State.eset_hif (g : EdgeUnit → EdgeUnit) : (s.eset g).hif = s.hif := rfl
@[simp] theorem State.eset_cox (g : EdgeUnit → EdgeUnit) : (s.eset g).cox = s.cox := rfl
@[simp] theorem State.eset_pwr (g : EdgeUnit → EdgeUnit) : (s.eset g).pwr = s.pwr := rfl
@[simp] theorem State.eset_rst (g : EdgeUnit → EdgeUnit) : (s.eset g).rst = s.rst := rfl
@[simp] theorem State.eset_prt (g : EdgeUnit → EdgeUnit) : (s.eset g).prt = s.prt := rfl
@[simp] theorem State.eset_mdioQueue (g : EdgeUnit → EdgeUnit) : (s.eset g).mdioQueue = s.mdioQueue := rfl
@[simp] theorem State.eset_mdioBus (g : EdgeUnit → EdgeUnit) : (s.eset g).mdioBus = s.mdioBus := rfl
@[simp] theorem State.eset_mdioOut (g : EdgeUnit → EdgeUnit) : (s.eset g).mdioOut = s.mdioOut := rfl
@[simp] theorem State.eset_tim (g : EdgeUnit → EdgeUnit) : (s.eset g).tim = s.tim := rfl
@[simp] theorem State.eset_fab (g : EdgeUnit → EdgeUnit) : (s.eset g).fab = s.fab := rfl
@[simp] theorem State.eset_ump (g : EdgeUnit → EdgeUnit) : (s.eset g).ump = s.ump := rfl
@[simp] theorem State.eset_dram (g : EdgeUnit → EdgeUnit) : (s.eset g).dram = s.dram := rfl
@[simp] theorem State.eset_edge (g : EdgeUnit → EdgeUnit) : (s.eset g).edge = g s.edge := rfl
@[simp] theorem State.eset_hfp (g : EdgeUnit → EdgeUnit) : (s.eset g).hfp = s.hfp := rfl
@[simp] theorem State.eset_key (g : EdgeUnit → EdgeUnit) : (s.eset g).key = s.key := rfl
@[simp] theorem State.eset_upd (g : EdgeUnit → EdgeUnit) : (s.eset g).upd = s.upd := rfl
@[simp] theorem State.eset_jtag (g : EdgeUnit → EdgeUnit) : (s.eset g).jtag = s.jtag := rfl
@[simp] theorem State.eset_rd (g : EdgeUnit → EdgeUnit) (a : Nat) : (s.eset g).rd a = s.rd a := rfl
@[simp] theorem State.eset_get (g : EdgeUnit → EdgeUnit) (x : Fld) : (s.eset g).get x = s.get x := rfl
@[simp] theorem State.eset_on (g : EdgeUnit → EdgeUnit) (x : Fld) : (s.eset g).on x = s.on x := rfl

@[simp] theorem State.bset_pending (g : HfpUnit → HfpUnit) : (s.bset g).pending = s.pending := rfl
@[simp] theorem State.bset_regs (g : HfpUnit → HfpUnit) : (s.bset g).regs = s.regs := rfl
@[simp] theorem State.bset_readData (g : HfpUnit → HfpUnit) : (s.bset g).readData = s.readData := rfl
@[simp] theorem State.bset_latch (g : HfpUnit → HfpUnit) : (s.bset g).latch = s.latch := rfl
@[simp] theorem State.bset_hostMem (g : HfpUnit → HfpUnit) : (s.bset g).hostMem = s.hostMem := rfl
@[simp] theorem State.bset_refTicks (g : HfpUnit → HfpUnit) : (s.bset g).refTicks = s.refTicks := rfl
@[simp] theorem State.bset_freeCtr (g : HfpUnit → HfpUnit) : (s.bset g).freeCtr = s.freeCtr := rfl
@[simp] theorem State.bset_pins (g : HfpUnit → HfpUnit) : (s.bset g).pins = s.pins := rfl
@[simp] theorem State.bset_hif (g : HfpUnit → HfpUnit) : (s.bset g).hif = s.hif := rfl
@[simp] theorem State.bset_cox (g : HfpUnit → HfpUnit) : (s.bset g).cox = s.cox := rfl
@[simp] theorem State.bset_pwr (g : HfpUnit → HfpUnit) : (s.bset g).pwr = s.pwr := rfl
@[simp] theorem State.bset_rst (g : HfpUnit → HfpUnit) : (s.bset g).rst = s.rst := rfl
@[simp] theorem State.bset_prt (g : HfpUnit → HfpUnit) : (s.bset g).prt = s.prt := rfl
@[simp] theorem State.bset_mdioQueue (g : HfpUnit → HfpUnit) : (s.bset g).mdioQueue = s.mdioQueue := rfl
@[simp] theorem State.bset_mdioBus (g : HfpUnit → HfpUnit) : (s.bset g).mdioBus = s.mdioBus := rfl
@[simp] theorem State.bset_mdioOut (g : HfpUnit → HfpUnit) : (s.bset g).mdioOut = s.mdioOut := rfl
@[simp] theorem State.bset_tim (g : HfpUnit → HfpUnit) : (s.bset g).tim = s.tim := rfl
@[simp] theorem State.bset_fab (g : HfpUnit → HfpUnit) : (s.bset g).fab = s.fab := rfl
@[simp] theorem State.bset_ump (g : HfpUnit → HfpUnit) : (s.bset g).ump = s.ump := rfl
@[simp] theorem State.bset_dram (g : HfpUnit → HfpUnit) : (s.bset g).dram = s.dram := rfl
@[simp] theorem State.bset_edge (g : HfpUnit → HfpUnit) : (s.bset g).edge = s.edge := rfl
@[simp] theorem State.bset_hfp (g : HfpUnit → HfpUnit) : (s.bset g).hfp = g s.hfp := rfl
@[simp] theorem State.bset_key (g : HfpUnit → HfpUnit) : (s.bset g).key = s.key := rfl
@[simp] theorem State.bset_upd (g : HfpUnit → HfpUnit) : (s.bset g).upd = s.upd := rfl
@[simp] theorem State.bset_jtag (g : HfpUnit → HfpUnit) : (s.bset g).jtag = s.jtag := rfl
@[simp] theorem State.bset_rd (g : HfpUnit → HfpUnit) (a : Nat) : (s.bset g).rd a = s.rd a := rfl
@[simp] theorem State.bset_get (g : HfpUnit → HfpUnit) (x : Fld) : (s.bset g).get x = s.get x := rfl
@[simp] theorem State.bset_on (g : HfpUnit → HfpUnit) (x : Fld) : (s.bset g).on x = s.on x := rfl

@[simp] theorem State.uset_pending (g : UmpUnit → UmpUnit) : (s.uset g).pending = s.pending := rfl
@[simp] theorem State.uset_regs (g : UmpUnit → UmpUnit) : (s.uset g).regs = s.regs := rfl
@[simp] theorem State.uset_readData (g : UmpUnit → UmpUnit) : (s.uset g).readData = s.readData := rfl
@[simp] theorem State.uset_latch (g : UmpUnit → UmpUnit) : (s.uset g).latch = s.latch := rfl
@[simp] theorem State.uset_hostMem (g : UmpUnit → UmpUnit) : (s.uset g).hostMem = s.hostMem := rfl
@[simp] theorem State.uset_refTicks (g : UmpUnit → UmpUnit) : (s.uset g).refTicks = s.refTicks := rfl
@[simp] theorem State.uset_freeCtr (g : UmpUnit → UmpUnit) : (s.uset g).freeCtr = s.freeCtr := rfl
@[simp] theorem State.uset_pins (g : UmpUnit → UmpUnit) : (s.uset g).pins = s.pins := rfl
@[simp] theorem State.uset_hif (g : UmpUnit → UmpUnit) : (s.uset g).hif = s.hif := rfl
@[simp] theorem State.uset_cox (g : UmpUnit → UmpUnit) : (s.uset g).cox = s.cox := rfl
@[simp] theorem State.uset_pwr (g : UmpUnit → UmpUnit) : (s.uset g).pwr = s.pwr := rfl
@[simp] theorem State.uset_rst (g : UmpUnit → UmpUnit) : (s.uset g).rst = s.rst := rfl
@[simp] theorem State.uset_prt (g : UmpUnit → UmpUnit) : (s.uset g).prt = s.prt := rfl
@[simp] theorem State.uset_mdioQueue (g : UmpUnit → UmpUnit) : (s.uset g).mdioQueue = s.mdioQueue := rfl
@[simp] theorem State.uset_mdioBus (g : UmpUnit → UmpUnit) : (s.uset g).mdioBus = s.mdioBus := rfl
@[simp] theorem State.uset_mdioOut (g : UmpUnit → UmpUnit) : (s.uset g).mdioOut = s.mdioOut := rfl
@[simp] theorem State.uset_tim (g : UmpUnit → UmpUnit) : (s.uset g).tim = s.tim := rfl
@[simp] theorem State.uset_fab (g : UmpUnit → UmpUnit) : (s.uset g).fab = s.fab := rfl
@[simp] theorem State.uset_ump (g : UmpUnit → UmpUnit) : (s.uset g).ump = g s.ump := rfl
@[simp] theorem State.uset_dram (g : UmpUnit → UmpUnit) : (s.uset g).dram = s.dram := rfl
@[simp] theorem State.uset_edge (g : UmpUnit → UmpUnit) : (s.uset g).edge = s.edge := rfl
@[simp] theorem State.uset_hfp (g : UmpUnit → UmpUnit) : (s.uset g).hfp = s.hfp := rfl
@[simp] theorem State.uset_key (g : UmpUnit → UmpUnit) : (s.uset g).key = s.key := rfl
@[simp] theorem State.uset_upd (g : UmpUnit → UmpUnit) : (s.uset g).upd = s.upd := rfl
@[simp] theorem State.uset_jtag (g : UmpUnit → UmpUnit) : (s.uset g).jtag = s.jtag := rfl
@[simp] theorem State.uset_rd (g : UmpUnit → UmpUnit) (a : Nat) : (s.uset g).rd a = s.rd a := rfl
@[simp] theorem State.uset_get (g : UmpUnit → UmpUnit) (x : Fld) : (s.uset g).get x = s.get x := rfl
@[simp] theorem State.uset_on (g : UmpUnit → UmpUnit) (x : Fld) : (s.uset g).on x = s.on x := rfl

@[simp] theorem State.pset_pending (g : UpdUnit → UpdUnit) : (s.pset g).pending = s.pending := rfl
@[simp] theorem State.pset_regs (g : UpdUnit → UpdUnit) : (s.pset g).regs = s.regs := rfl
@[simp] theorem State.pset_readData (g : UpdUnit → UpdUnit) : (s.pset g).readData = s.readData := rfl
@[simp] theorem State.pset_latch (g : UpdUnit → UpdUnit) : (s.pset g).latch = s.latch := rfl
@[simp] theorem State.pset_hostMem (g : UpdUnit → UpdUnit) : (s.pset g).hostMem = s.hostMem := rfl
@[simp] theorem State.pset_refTicks (g : UpdUnit → UpdUnit) : (s.pset g).refTicks = s.refTicks := rfl
@[simp] theorem State.pset_freeCtr (g : UpdUnit → UpdUnit) : (s.pset g).freeCtr = s.freeCtr := rfl
@[simp] theorem State.pset_pins (g : UpdUnit → UpdUnit) : (s.pset g).pins = s.pins := rfl
@[simp] theorem State.pset_hif (g : UpdUnit → UpdUnit) : (s.pset g).hif = s.hif := rfl
@[simp] theorem State.pset_cox (g : UpdUnit → UpdUnit) : (s.pset g).cox = s.cox := rfl
@[simp] theorem State.pset_pwr (g : UpdUnit → UpdUnit) : (s.pset g).pwr = s.pwr := rfl
@[simp] theorem State.pset_rst (g : UpdUnit → UpdUnit) : (s.pset g).rst = s.rst := rfl
@[simp] theorem State.pset_prt (g : UpdUnit → UpdUnit) : (s.pset g).prt = s.prt := rfl
@[simp] theorem State.pset_mdioQueue (g : UpdUnit → UpdUnit) : (s.pset g).mdioQueue = s.mdioQueue := rfl
@[simp] theorem State.pset_mdioBus (g : UpdUnit → UpdUnit) : (s.pset g).mdioBus = s.mdioBus := rfl
@[simp] theorem State.pset_mdioOut (g : UpdUnit → UpdUnit) : (s.pset g).mdioOut = s.mdioOut := rfl
@[simp] theorem State.pset_tim (g : UpdUnit → UpdUnit) : (s.pset g).tim = s.tim := rfl
@[simp] theorem State.pset_fab (g : UpdUnit → UpdUnit) : (s.pset g).fab = s.fab := rfl
@[simp] theorem State.pset_ump (g : UpdUnit → UpdUnit) : (s.pset g).ump = s.ump := rfl
@[simp] theorem State.pset_dram (g : UpdUnit → UpdUnit) : (s.pset g).dram = s.dram := rfl
@[simp] theorem State.pset_edge (g : UpdUnit → UpdUnit) : (s.pset g).edge = s.edge := rfl
@[simp] theorem State.pset_hfp (g : UpdUnit → UpdUnit) : (s.pset g).hfp = s.hfp := rfl
@[simp] theorem State.pset_key (g : UpdUnit → UpdUnit) : (s.pset g).key = s.key := rfl
@[simp] theorem State.pset_upd (g : UpdUnit → UpdUnit) : (s.pset g).upd = g s.upd := rfl
@[simp] theorem State.pset_jtag (g : UpdUnit → UpdUnit) : (s.pset g).jtag = s.jtag := rfl
@[simp] theorem State.pset_rd (g : UpdUnit → UpdUnit) (a : Nat) : (s.pset g).rd a = s.rd a := rfl
@[simp] theorem State.pset_get (g : UpdUnit → UpdUnit) (x : Fld) : (s.pset g).get x = s.get x := rfl
@[simp] theorem State.pset_on (g : UpdUnit → UpdUnit) (x : Fld) : (s.pset g).on x = s.on x := rfl

/-! ### Words and fields of registers -/

@[simp] theorem State.wr_pending (a : Nat) (v : Word) : (s.wr a v).pending = s.pending := rfl
@[simp] theorem State.wr_readData (a : Nat) (v : Word) : (s.wr a v).readData = s.readData := rfl
@[simp] theorem State.wr_latch (a : Nat) (v : Word) : (s.wr a v).latch = s.latch := rfl
@[simp] theorem State.wr_hostMem (a : Nat) (v : Word) : (s.wr a v).hostMem = s.hostMem := rfl
@[simp] theorem State.wr_refTicks (a : Nat) (v : Word) : (s.wr a v).refTicks = s.refTicks := rfl
@[simp] theorem State.wr_freeCtr (a : Nat) (v : Word) : (s.wr a v).freeCtr = s.freeCtr := rfl
@[simp] theorem State.wr_pins (a : Nat) (v : Word) : (s.wr a v).pins = s.pins := rfl
@[simp] theorem State.wr_hif (a : Nat) (v : Word) : (s.wr a v).hif = s.hif := rfl
@[simp] theorem State.wr_cox (a : Nat) (v : Word) : (s.wr a v).cox = s.cox := rfl
@[simp] theorem State.wr_pwr (a : Nat) (v : Word) : (s.wr a v).pwr = s.pwr := rfl
@[simp] theorem State.wr_rst (a : Nat) (v : Word) : (s.wr a v).rst = s.rst := rfl
@[simp] theorem State.wr_prt (a : Nat) (v : Word) : (s.wr a v).prt = s.prt := rfl
@[simp] theorem State.wr_mdioQueue (a : Nat) (v : Word) : (s.wr a v).mdioQueue = s.mdioQueue := rfl
@[simp] theorem State.wr_mdioBus (a : Nat) (v : Word) : (s.wr a v).mdioBus = s.mdioBus := rfl
@[simp] theorem State.wr_mdioOut (a : Nat) (v : Word) : (s.wr a v).mdioOut = s.mdioOut := rfl
@[simp] theorem State.wr_tim (a : Nat) (v : Word) : (s.wr a v).tim = s.tim := rfl
@[simp] theorem State.wr_fab (a : Nat) (v : Word) : (s.wr a v).fab = s.fab := rfl
@[simp] theorem State.wr_ump (a : Nat) (v : Word) : (s.wr a v).ump = s.ump := rfl
@[simp] theorem State.wr_dram (a : Nat) (v : Word) : (s.wr a v).dram = s.dram := rfl
@[simp] theorem State.wr_edge (a : Nat) (v : Word) : (s.wr a v).edge = s.edge := rfl
@[simp] theorem State.wr_hfp (a : Nat) (v : Word) : (s.wr a v).hfp = s.hfp := rfl
@[simp] theorem State.wr_key (a : Nat) (v : Word) : (s.wr a v).key = s.key := rfl
@[simp] theorem State.wr_upd (a : Nat) (v : Word) : (s.wr a v).upd = s.upd := rfl
@[simp] theorem State.wr_jtag (a : Nat) (v : Word) : (s.wr a v).jtag = s.jtag := rfl

@[simp] theorem State.set_pending (x : Fld) (v : Nat) : (s.set x v).pending = s.pending := by unfold State.set; split <;> rfl
@[simp] theorem State.set_readData (x : Fld) (v : Nat) : (s.set x v).readData = s.readData := by unfold State.set; split <;> rfl
@[simp] theorem State.set_latch (x : Fld) (v : Nat) : (s.set x v).latch = s.latch := by unfold State.set; split <;> rfl
@[simp] theorem State.set_hostMem (x : Fld) (v : Nat) : (s.set x v).hostMem = s.hostMem := by unfold State.set; split <;> rfl
@[simp] theorem State.set_refTicks (x : Fld) (v : Nat) : (s.set x v).refTicks = s.refTicks := by unfold State.set; split <;> rfl
@[simp] theorem State.set_freeCtr (x : Fld) (v : Nat) : (s.set x v).freeCtr = s.freeCtr := by unfold State.set; split <;> rfl
@[simp] theorem State.set_pins (x : Fld) (v : Nat) : (s.set x v).pins = s.pins := by unfold State.set; split <;> rfl
@[simp] theorem State.set_hif (x : Fld) (v : Nat) : (s.set x v).hif = s.hif := by unfold State.set; split <;> rfl
@[simp] theorem State.set_cox (x : Fld) (v : Nat) : (s.set x v).cox = s.cox := by unfold State.set; split <;> rfl
@[simp] theorem State.set_pwr (x : Fld) (v : Nat) : (s.set x v).pwr = s.pwr := by unfold State.set; split <;> rfl
@[simp] theorem State.set_rst (x : Fld) (v : Nat) : (s.set x v).rst = s.rst := by unfold State.set; split <;> rfl
@[simp] theorem State.set_prt (x : Fld) (v : Nat) : (s.set x v).prt = s.prt := by unfold State.set; split <;> rfl
@[simp] theorem State.set_mdioQueue (x : Fld) (v : Nat) : (s.set x v).mdioQueue = s.mdioQueue := by unfold State.set; split <;> rfl
@[simp] theorem State.set_mdioBus (x : Fld) (v : Nat) : (s.set x v).mdioBus = s.mdioBus := by unfold State.set; split <;> rfl
@[simp] theorem State.set_mdioOut (x : Fld) (v : Nat) : (s.set x v).mdioOut = s.mdioOut := by unfold State.set; split <;> rfl
@[simp] theorem State.set_tim (x : Fld) (v : Nat) : (s.set x v).tim = s.tim := by unfold State.set; split <;> rfl
@[simp] theorem State.set_fab (x : Fld) (v : Nat) : (s.set x v).fab = s.fab := by unfold State.set; split <;> rfl
@[simp] theorem State.set_ump (x : Fld) (v : Nat) : (s.set x v).ump = s.ump := by unfold State.set; split <;> rfl
@[simp] theorem State.set_dram (x : Fld) (v : Nat) : (s.set x v).dram = s.dram := by unfold State.set; split <;> rfl
@[simp] theorem State.set_edge (x : Fld) (v : Nat) : (s.set x v).edge = s.edge := by unfold State.set; split <;> rfl
@[simp] theorem State.set_hfp (x : Fld) (v : Nat) : (s.set x v).hfp = s.hfp := by unfold State.set; split <;> rfl
@[simp] theorem State.set_key (x : Fld) (v : Nat) : (s.set x v).key = s.key := by unfold State.set; split <;> rfl
@[simp] theorem State.set_upd (x : Fld) (v : Nat) : (s.set x v).upd = s.upd := by unfold State.set; split <;> rfl
@[simp] theorem State.set_jtag (x : Fld) (v : Nat) : (s.set x v).jtag = s.jtag := by unfold State.set; split <;> rfl

@[simp] theorem State.put_pending (x : Fld) (b : Bool) : (s.put x b).pending = s.pending := State.set_pending _ _ _
@[simp] theorem State.put_readData (x : Fld) (b : Bool) : (s.put x b).readData = s.readData := State.set_readData _ _ _
@[simp] theorem State.put_latch (x : Fld) (b : Bool) : (s.put x b).latch = s.latch := State.set_latch _ _ _
@[simp] theorem State.put_hostMem (x : Fld) (b : Bool) : (s.put x b).hostMem = s.hostMem := State.set_hostMem _ _ _
@[simp] theorem State.put_refTicks (x : Fld) (b : Bool) : (s.put x b).refTicks = s.refTicks := State.set_refTicks _ _ _
@[simp] theorem State.put_freeCtr (x : Fld) (b : Bool) : (s.put x b).freeCtr = s.freeCtr := State.set_freeCtr _ _ _
@[simp] theorem State.put_pins (x : Fld) (b : Bool) : (s.put x b).pins = s.pins := State.set_pins _ _ _
@[simp] theorem State.put_hif (x : Fld) (b : Bool) : (s.put x b).hif = s.hif := State.set_hif _ _ _
@[simp] theorem State.put_cox (x : Fld) (b : Bool) : (s.put x b).cox = s.cox := State.set_cox _ _ _
@[simp] theorem State.put_pwr (x : Fld) (b : Bool) : (s.put x b).pwr = s.pwr := State.set_pwr _ _ _
@[simp] theorem State.put_rst (x : Fld) (b : Bool) : (s.put x b).rst = s.rst := State.set_rst _ _ _
@[simp] theorem State.put_prt (x : Fld) (b : Bool) : (s.put x b).prt = s.prt := State.set_prt _ _ _
@[simp] theorem State.put_mdioQueue (x : Fld) (b : Bool) : (s.put x b).mdioQueue = s.mdioQueue := State.set_mdioQueue _ _ _
@[simp] theorem State.put_mdioBus (x : Fld) (b : Bool) : (s.put x b).mdioBus = s.mdioBus := State.set_mdioBus _ _ _
@[simp] theorem State.put_mdioOut (x : Fld) (b : Bool) : (s.put x b).mdioOut = s.mdioOut := State.set_mdioOut _ _ _
@[simp] theorem State.put_tim (x : Fld) (b : Bool) : (s.put x b).tim = s.tim := State.set_tim _ _ _
@[simp] theorem State.put_fab (x : Fld) (b : Bool) : (s.put x b).fab = s.fab := State.set_fab _ _ _
@[simp] theorem State.put_ump (x : Fld) (b : Bool) : (s.put x b).ump = s.ump := State.set_ump _ _ _
@[simp] theorem State.put_dram (x : Fld) (b : Bool) : (s.put x b).dram = s.dram := State.set_dram _ _ _
@[simp] theorem State.put_edge (x : Fld) (b : Bool) : (s.put x b).edge = s.edge := State.set_edge _ _ _
@[simp] theorem State.put_hfp (x : Fld) (b : Bool) : (s.put x b).hfp = s.hfp := State.set_hfp _ _ _
@[simp] theorem State.put_key (x : Fld) (b : Bool) : (s.put x b).key = s.key := State.set_key _ _ _
@[simp] theorem State.put_upd (x : Fld) (b : Bool) : (s.put x b).upd = s.upd := State.set_upd _ _ _
@[simp] theorem State.put_jtag (x : Fld) (b : Bool) : (s.put x b).jtag = s.jtag := State.set_jtag _ _ _

@[simp] theorem State.add_pending (x : Fld) (k : Nat) : (s.add x k).pending = s.pending := State.set_pending _ _ _
@[simp] theorem State.add_readData (x : Fld) (k : Nat) : (s.add x k).readData = s.readData := State.set_readData _ _ _
@[simp] theorem State.add_latch (x : Fld) (k : Nat) : (s.add x k).latch = s.latch := State.set_latch _ _ _
@[simp] theorem State.add_hostMem (x : Fld) (k : Nat) : (s.add x k).hostMem = s.hostMem := State.set_hostMem _ _ _
@[simp] theorem State.add_refTicks (x : Fld) (k : Nat) : (s.add x k).refTicks = s.refTicks := State.set_refTicks _ _ _
@[simp] theorem State.add_freeCtr (x : Fld) (k : Nat) : (s.add x k).freeCtr = s.freeCtr := State.set_freeCtr _ _ _
@[simp] theorem State.add_pins (x : Fld) (k : Nat) : (s.add x k).pins = s.pins := State.set_pins _ _ _
@[simp] theorem State.add_hif (x : Fld) (k : Nat) : (s.add x k).hif = s.hif := State.set_hif _ _ _
@[simp] theorem State.add_cox (x : Fld) (k : Nat) : (s.add x k).cox = s.cox := State.set_cox _ _ _
@[simp] theorem State.add_pwr (x : Fld) (k : Nat) : (s.add x k).pwr = s.pwr := State.set_pwr _ _ _
@[simp] theorem State.add_rst (x : Fld) (k : Nat) : (s.add x k).rst = s.rst := State.set_rst _ _ _
@[simp] theorem State.add_prt (x : Fld) (k : Nat) : (s.add x k).prt = s.prt := State.set_prt _ _ _
@[simp] theorem State.add_mdioQueue (x : Fld) (k : Nat) : (s.add x k).mdioQueue = s.mdioQueue := State.set_mdioQueue _ _ _
@[simp] theorem State.add_mdioBus (x : Fld) (k : Nat) : (s.add x k).mdioBus = s.mdioBus := State.set_mdioBus _ _ _
@[simp] theorem State.add_mdioOut (x : Fld) (k : Nat) : (s.add x k).mdioOut = s.mdioOut := State.set_mdioOut _ _ _
@[simp] theorem State.add_tim (x : Fld) (k : Nat) : (s.add x k).tim = s.tim := State.set_tim _ _ _
@[simp] theorem State.add_fab (x : Fld) (k : Nat) : (s.add x k).fab = s.fab := State.set_fab _ _ _
@[simp] theorem State.add_ump (x : Fld) (k : Nat) : (s.add x k).ump = s.ump := State.set_ump _ _ _
@[simp] theorem State.add_dram (x : Fld) (k : Nat) : (s.add x k).dram = s.dram := State.set_dram _ _ _
@[simp] theorem State.add_edge (x : Fld) (k : Nat) : (s.add x k).edge = s.edge := State.set_edge _ _ _
@[simp] theorem State.add_hfp (x : Fld) (k : Nat) : (s.add x k).hfp = s.hfp := State.set_hfp _ _ _
@[simp] theorem State.add_key (x : Fld) (k : Nat) : (s.add x k).key = s.key := State.set_key _ _ _
@[simp] theorem State.add_upd (x : Fld) (k : Nat) : (s.add x k).upd = s.upd := State.set_upd _ _ _
@[simp] theorem State.add_jtag (x : Fld) (k : Nat) : (s.add x k).jtag = s.jtag := State.set_jtag _ _ _

@[simp] theorem State.inc_pending (x : Fld) : (s.inc x).pending = s.pending := State.set_pending _ _ _
@[simp] theorem State.inc_readData (x : Fld) : (s.inc x).readData = s.readData := State.set_readData _ _ _
@[simp] theorem State.inc_latch (x : Fld) : (s.inc x).latch = s.latch := State.set_latch _ _ _
@[simp] theorem State.inc_hostMem (x : Fld) : (s.inc x).hostMem = s.hostMem := State.set_hostMem _ _ _
@[simp] theorem State.inc_refTicks (x : Fld) : (s.inc x).refTicks = s.refTicks := State.set_refTicks _ _ _
@[simp] theorem State.inc_freeCtr (x : Fld) : (s.inc x).freeCtr = s.freeCtr := State.set_freeCtr _ _ _
@[simp] theorem State.inc_pins (x : Fld) : (s.inc x).pins = s.pins := State.set_pins _ _ _
@[simp] theorem State.inc_hif (x : Fld) : (s.inc x).hif = s.hif := State.set_hif _ _ _
@[simp] theorem State.inc_cox (x : Fld) : (s.inc x).cox = s.cox := State.set_cox _ _ _
@[simp] theorem State.inc_pwr (x : Fld) : (s.inc x).pwr = s.pwr := State.set_pwr _ _ _
@[simp] theorem State.inc_rst (x : Fld) : (s.inc x).rst = s.rst := State.set_rst _ _ _
@[simp] theorem State.inc_prt (x : Fld) : (s.inc x).prt = s.prt := State.set_prt _ _ _
@[simp] theorem State.inc_mdioQueue (x : Fld) : (s.inc x).mdioQueue = s.mdioQueue := State.set_mdioQueue _ _ _
@[simp] theorem State.inc_mdioBus (x : Fld) : (s.inc x).mdioBus = s.mdioBus := State.set_mdioBus _ _ _
@[simp] theorem State.inc_mdioOut (x : Fld) : (s.inc x).mdioOut = s.mdioOut := State.set_mdioOut _ _ _
@[simp] theorem State.inc_tim (x : Fld) : (s.inc x).tim = s.tim := State.set_tim _ _ _
@[simp] theorem State.inc_fab (x : Fld) : (s.inc x).fab = s.fab := State.set_fab _ _ _
@[simp] theorem State.inc_ump (x : Fld) : (s.inc x).ump = s.ump := State.set_ump _ _ _
@[simp] theorem State.inc_dram (x : Fld) : (s.inc x).dram = s.dram := State.set_dram _ _ _
@[simp] theorem State.inc_edge (x : Fld) : (s.inc x).edge = s.edge := State.set_edge _ _ _
@[simp] theorem State.inc_hfp (x : Fld) : (s.inc x).hfp = s.hfp := State.set_hfp _ _ _
@[simp] theorem State.inc_key (x : Fld) : (s.inc x).key = s.key := State.set_key _ _ _
@[simp] theorem State.inc_upd (x : Fld) : (s.inc x).upd = s.upd := State.set_upd _ _ _
@[simp] theorem State.inc_jtag (x : Fld) : (s.inc x).jtag = s.jtag := State.set_jtag _ _ _

@[simp] theorem State.incWrap_pending (x : Fld) : (s.incWrap x).pending = s.pending := State.set_pending _ _ _
@[simp] theorem State.incWrap_readData (x : Fld) : (s.incWrap x).readData = s.readData := State.set_readData _ _ _
@[simp] theorem State.incWrap_latch (x : Fld) : (s.incWrap x).latch = s.latch := State.set_latch _ _ _
@[simp] theorem State.incWrap_hostMem (x : Fld) : (s.incWrap x).hostMem = s.hostMem := State.set_hostMem _ _ _
@[simp] theorem State.incWrap_refTicks (x : Fld) : (s.incWrap x).refTicks = s.refTicks := State.set_refTicks _ _ _
@[simp] theorem State.incWrap_freeCtr (x : Fld) : (s.incWrap x).freeCtr = s.freeCtr := State.set_freeCtr _ _ _
@[simp] theorem State.incWrap_pins (x : Fld) : (s.incWrap x).pins = s.pins := State.set_pins _ _ _
@[simp] theorem State.incWrap_hif (x : Fld) : (s.incWrap x).hif = s.hif := State.set_hif _ _ _
@[simp] theorem State.incWrap_cox (x : Fld) : (s.incWrap x).cox = s.cox := State.set_cox _ _ _
@[simp] theorem State.incWrap_pwr (x : Fld) : (s.incWrap x).pwr = s.pwr := State.set_pwr _ _ _
@[simp] theorem State.incWrap_rst (x : Fld) : (s.incWrap x).rst = s.rst := State.set_rst _ _ _
@[simp] theorem State.incWrap_prt (x : Fld) : (s.incWrap x).prt = s.prt := State.set_prt _ _ _
@[simp] theorem State.incWrap_mdioQueue (x : Fld) : (s.incWrap x).mdioQueue = s.mdioQueue := State.set_mdioQueue _ _ _
@[simp] theorem State.incWrap_mdioBus (x : Fld) : (s.incWrap x).mdioBus = s.mdioBus := State.set_mdioBus _ _ _
@[simp] theorem State.incWrap_mdioOut (x : Fld) : (s.incWrap x).mdioOut = s.mdioOut := State.set_mdioOut _ _ _
@[simp] theorem State.incWrap_tim (x : Fld) : (s.incWrap x).tim = s.tim := State.set_tim _ _ _
@[simp] theorem State.incWrap_fab (x : Fld) : (s.incWrap x).fab = s.fab := State.set_fab _ _ _
@[simp] theorem State.incWrap_ump (x : Fld) : (s.incWrap x).ump = s.ump := State.set_ump _ _ _
@[simp] theorem State.incWrap_dram (x : Fld) : (s.incWrap x).dram = s.dram := State.set_dram _ _ _
@[simp] theorem State.incWrap_edge (x : Fld) : (s.incWrap x).edge = s.edge := State.set_edge _ _ _
@[simp] theorem State.incWrap_hfp (x : Fld) : (s.incWrap x).hfp = s.hfp := State.set_hfp _ _ _
@[simp] theorem State.incWrap_key (x : Fld) : (s.incWrap x).key = s.key := State.set_key _ _ _
@[simp] theorem State.incWrap_upd (x : Fld) : (s.incWrap x).upd = s.upd := State.set_upd _ _ _
@[simp] theorem State.incWrap_jtag (x : Fld) : (s.incWrap x).jtag = s.jtag := State.set_jtag _ _ _

end Sys2Proof.Machine
end

