-- ==== Sys2Proof/WellFormed.lean ====
section
/-! DEFINITION. Which commands the sender outside the block can give: the lengths and ranges that the types of the
operands leave open. The machine is total, so an ill-formed command has an effect too; no statement needs one. -/
namespace Sys2Proof

/-- An address of the local set-up space: bits 31:26 are 0 (R8). -/
def localAddr (a : Word) : Bool := a.toNat < 2 ^ 26

/-- The octets after the descriptor in a CMD message: up to 192, in whole words (R333, R348). -/
def CmdSrc.wf : CmdSrc → Bool
  | .localRing => true
  | .hfp _ _ _ extra => extra.length ≤ 192 && extra.length % 4 == 0

/-- A frame has its two addresses and its EtherType. -/
def FrameIn.wf (f : FrameIn) : Bool := 14 ≤ f.bytes.length

/-- The ports that ask in the same Fabric cycle: each at most once (R103). -/
def rivalsWf (l : List (Fin 70)) : Bool := l.Nodup

/-- The lengths of CAN data: up to 8 octets, the FD lengths up to 64, XL 1 to 2048 (PRESUMED: ISO 11898-1, which R292 names). -/
def canLengthOk (fmt : Fin 3) (n : Nat) : Bool :=
  match fmt with
  | 0 => n ≤ 8
  | 1 => n ≤ 8 || [12, 16, 20, 24, 32, 48, 64].contains n
  | 2 => 1 ≤ n && n ≤ 2048

/-- A CAN frame: its length, an identifier of 11 bits unless it is extended, and no remote frame but a classical one. -/
def CanFrame.wf (f : CanFrame) : Bool :=
  canLengthOk f.fmt f.data.length && (f.ext || f.id.toNat < 2 ^ 11) && (!f.rtr || f.fmt == 0) && (!f.ext || f.fmt != 2)

/-- A LIN response carries at most 8 octets (PRESUMED: ISO 17987). -/
def linDataWf (data : List Byte) : Bool := data.length ≤ 8

/-- What a TLP or a remote request carries, in whole words: a write of up to 512 octets, a read of up to 4,096 (R366). -/
def RemReq.wf (r : RemReq) : Bool := 1 ≤ r.words.length && r.words.length ≤ (if r.write then 128 else 1024)

/-- A descriptor command is well formed when its source is: what its descriptor holds is for the block to judge (R12, R376). -/
def commandSource : Instr → Option CmdSrc
  | .stage src _ => some src
  | .commit src _ => some src
  | .commitAbort src _ => some src
  | .heatReport src _ => some src
  | .fdbFlush src _ => some src
  | .fdbDump src _ => some src
  | .recFreeze src _ => some src
  | .recRearm src _ => some src
  | .recRead src _ => some src
  | .pinholeFlush src _ => some src
  | .pinholeDump src _ => some src
  | .reanchor src _ => some src
  | .remoteCmd src _ => some src
  | .lockedSeq src _ _ => some src
  | .clearPoison src _ => some src
  | .nop src _ => some src
  | .coxMode src _ => some src
  | .lifecycle src _ => some src
  | .ownerLock src _ => some src
  | .keyGenerate src _ => some src
  | .keyWrap src _ _ => some src
  | .keyUnwrap src _ _ => some src
  | .keyDerive src _ _ => some src
  | .keyDestroy src _ => some src
  | .attest src _ => some src
  | .random src _ => some src
  | .updLoad src _ => some src
  | .updVerify src _ => some src
  | .updActivate src _ => some src
  | .updAbort src _ => some src
  | .powerState src _ => some src
  | .deviceReset src _ => some src
  | .logWrite src _ => some src
  | _ => none

/-- The operands of the rows that are no descriptor command. -/
def operandsWf : Instr → Bool
  | .registerWrite _ addr _ => localAddr addr
  | .rcRead _ addr => localAddr addr
  | .counterLowRead _ addr => localAddr addr
  | .ct64thByte f rivals => 64 ≤ f.bytes.length && rivalsWf rivals
  | .classify f _ => f.wf
  | .frameEnd f _ rivals => f.wf && rivalsWf rivals
  | .descriptorArrival _ _ rivals => rivalsWf rivals
  | .canFrameRx _ f => f.wf
  | .linResponseRx _ data _ _ _ => linDataWf data
  | .remoteRequest _ _ req => req.wf
  | .bar2Access _ req => req.wf
  | .coxFrameTx bytes _ => 14 ≤ bytes.length
  | _ => true

/-- A command that the outside world can send. -/
def Instr.wf (i : Instr) : Bool := operandsWf i && (((commandSource i).map CmdSrc.wf).getD true)

end Sys2Proof
end

