-- ==== Sys2Proof/Tests/Slice0.lean ====
section
/-! SUPPORT. The tests of the model: an ill-formed command for each check of well-formedness, single steps, and for every
statement a state and operands that meet its premises together. -/
open Sys2Proof Sys2Proof.Machine
namespace Sys2Proof.Tests
set_option linter.unusedVariables false
set_option Elab.async false

/-- Every domain is on and no island waits for its reset to end. -/
def up (s : State) : State := { s.set PWR_STATUS_ON (2 ^ 14 - 1) with rst := { s.rst with islands := [], hold := [], off := false }, hif := { s.hif with pci := { s.hif.pci with memOn := true, busMaster := true, d3hot := false } } }

/-- ACTIVE and not frozen. -/
def act0 (s : State) : State := (((up s).set PWR_STATUS_STATE 0).set COX_STATUS_FROZEN 0)

/-- The bridge runs, with every peer reachable through port 3. -/
def fabOn (s : State) : State :=
  let u := ((act0 s).set HFP_CFG_EN 1).set GLB_CFG_STATE_STATE 0
  let v := u.each (List.range 32) fun t f => ((t.set (HFP_ROUTE_VALID f) 1).set (HFP_ROUTE_PORT f) 3)
  let w := (((v.set (HFP_ADJ_STATE 3) 3).set HFP_REACH_PEERS (2 ^ 32 - 1)).set (HFP_POISON_PEERS 0) 0).set (HFP_POISON_PEERS 1) 0
  let x := ((w.set HFP_LOCK_STATUS_FAR_HELD 0).set HFP_LOCK_STATUS_OUT_ACTIVE 0).set HFP_LOCK_STATUS_BACKOFF_HOST 0
  { x with cox := { x.cox with coresHeld := false }, hif := { x.hif with running := none, cmdProd := x.hif.cmdCons },
           hfp := { x.hfp with busWait := [], rxStall := [], stalled := [], lockCox := none, lockOut := none, waitReq := [], reqs := [], fabInit := none, fabMember := none } }

/-- ACTIVE, no command runs. -/
def idle (s : State) : State := let u := act0 s; { u with hif := { u.hif with running := none } }

/-- The event ring runs, with a message for each group. -/
def evtOn (s : State) : State :=
  let u := (((s.set HIF_CTRL_ENABLE 1).set HIF_EVT_CFG_EN 1).set HIF_EVT_CFG_LOG2_SIZE 6).set HIF_EVT_BASE_ADDR 0x4000
  let v := (u.set HIF_ST_BASE_ADDR 0x777).set PWR_STATUS_ON (u.get PWR_STATUS_ON ||| 64)
  let w := v.each (List.range 16) fun t g => ((t.set (HIF_EVT_VEC_EN g) 1).set (HIF_EVT_VEC_VEC g) (g + 3)).set (HIF_EVT_VEC_HOLDOFF g) 0
  let x := { w with hif := { w.hif with pci := { w.hif.pci with memOn := true, busMaster := true, d3hot := false }, stopped := w.hif.stopped.filter (· ≠ 33), evtCons := w.hif.evtProd, holdoff := [], msixTab := (List.range 64).flatMap fun k => [(4 * k, 0x9000#32 + 4 * BitVec.ofNat 32 k), (4 * k + 1, 0), (4 * k + 2, 0x1234), (4 * k + 3, 0)] } }
  { x with rst := { x.rst with islands := x.rst.islands.filter (· ≠ islandKey .host 0) } }

/-- The cores run. -/
def coxOn (s : State) : State :=
  let u := ((((act0 s).set COX_STATUS_MODE 0).set COX_STATUS_LS_BROKEN 0).set COX_STATUS_HALTED 0).set GLB_FAULT_START_PENDING 0
  let v := u.each (List.range 25) fun t p => t.set (INJ_ARM_ARM p) 0
  { v with cox := { v.cox with coresHeld := false, seqRunning := false, wdog := [(0, 2), (1, 1)], wdogSecond := [] }, hif := { v.hif with running := none } }

/-- The key unit is ready and holds three keys. -/
def keyOn (s : State) : State :=
  let u := ((idle s).set KEY_STATUS_READY 1).set KEY_STATUS_TRNG_FAIL 0
  let v := u.set GLB_CFG_STATE_STATE 0
  { v with key := { v.key with wear := [], slots := [(1, slotMake 1 0 2 1 7 (leBytes 32 9)), (2, slotMake 1 1 3 1 8 (leBytes 64 5)), (4, slotMake 1 0 0 1 8 (leBytes 32 5))] }, fab := { v.fab with staged := [], active := [], job := none } }

/-- The update unit is in a state, with a manifest in place. -/
def updOn (s : State) (st : Nat) : State :=
  let u := ((coxOn s).set UPD_STATUS_STATE st).set GLB_CFG_STATE_STATE 0
  { u with rst := { u.rst with pw := [], asked := false }, hfp := { u.hfp with fabInit := none, fabMember := none }, fab := { u.fab with job := none },
           upd := { u.upd with manifest := [1, 2], todo := [], tries := 0, entries := [], slots := 0, flash := [], revertedDue := false } }

/-- The device is in a power state with nothing under way. -/
def pwrOn (s : State) (p : Nat) : State :=
  let u := (((updOn s 0).set PWR_STATUS_STATE p).set WAK_STATUS_WAKE_IN 0).wr GLB_FAULT 0
  { u with pwr := { u.pwr with goal := none, waitAck := [], latched := p == 3, entryFrom := p % 2, want := u.wantedDomains 0, lateSource := 0, idleTimer := false, falsePending := false } }

/-- The device runs with its options loaded. -/
def rstOn (s : State) : State :=
  let u := (((updOn s 0).set LOG_STATUS_BUSY 0).set OPT_STATUS_PROG_BUSY 0).set OPT_STATUS_VALID 1
  { u with cox := { u.cox with coresHeld := false } }

/-- Idle, with nothing else under way. -/
def calmOn (s : State) : State := let u := idle s; { u with hfp := { u.hfp with lockOut := none }, pwr := { u.pwr with goal := none }, rst := { u.rst with asked := false } }
abbrev allPins : List Pin := (List.finRange 32).map .canTxd ++ (List.finRange 16).map .linTx ++ (List.finRange 8).map .xmode ++ (List.finRange 64).map .mdi ++ (List.finRange 8).map .serdesTx ++ (List.finRange 2).map .mdc ++ (List.finRange 2).map .mdio ++ (List.finRange 16).map .catch_ ++ [.wakeOut, .inhOut, .faultN, .pcieTx, .xspiCsN, .xspiClk, .xspiDq, .dram, .tdo]

/-! ### What the sender cannot give: one ill-formed command for each check -/

/-- A frame of `n` octets of zeros on port 3. -/
def frame (n : Nat) : FrameIn := ⟨3, 0, List.replicate n 0, 0⟩

/-- A classical CAN frame with an 11-bit identifier and `n` octets of data. -/
def canFrame (n : Nat) : CanFrame := ⟨0, false, false, false, false, 5, 0, 0, 0, List.replicate n 0, 0⟩

theorem test_wf_address : Instr.wf (.registerWrite .host 0x4000000 0) = false ∧ Instr.wf (.registerWrite .host 0x3FFFFFC 0) = true := by decide
theorem test_wf_read_address : Instr.wf (.rcRead .host 0x4000000) = false := by decide
theorem test_wf_counter_address : Instr.wf (.counterLowRead .cox 0x4000000) = false := by decide
theorem test_wf_cmd_words : Instr.wf (.nop (.hfp 3 0 0 [1]) 0) = false ∧ Instr.wf (.nop (.hfp 3 0 0 [1, 2, 3, 4]) 0) = true := by decide
theorem test_wf_cmd_length : Instr.wf (.stage (.hfp 3 0 0 (List.replicate 196 0)) 0) = false ∧ Instr.wf (.stage (.hfp 3 0 0 (List.replicate 192 0)) 0) = true := by
  decide +kernel
theorem test_wf_64th_byte : Instr.wf (.ct64thByte (frame 63) []) = false ∧ Instr.wf (.ct64thByte (frame 64) []) = true := by decide +kernel
theorem test_wf_rivals : Instr.wf (.descriptorArrival 3 0 [4, 4]) = false ∧ Instr.wf (.frameEnd (frame 14) ⟨true, 0, 0, 0, false, 0, 0, 0⟩ [4, 4]) = false := by decide
theorem test_wf_frame : Instr.wf (.classify (frame 13) true) = false ∧ Instr.wf (.classify (frame 14) true) = true := by decide
theorem test_wf_can_length : Instr.wf (.canFrameRx 0 (canFrame 9)) = false ∧ Instr.wf (.canFrameRx 0 (canFrame 8)) = true := by decide
theorem test_wf_can_fd_length : canLengthOk 1 9 = false ∧ canLengthOk 1 12 = true ∧ canLengthOk 1 64 = true := by decide
theorem test_wf_can_xl_length : canLengthOk 2 0 = false ∧ canLengthOk 2 2048 = true ∧ canLengthOk 2 2049 = false := by decide
theorem test_wf_can_identifier : Instr.wf (.canFrameRx 0 { canFrame 1 with id := 0x800 }) = false := by decide
theorem test_wf_can_remote : Instr.wf (.canFrameRx 0 { canFrame 1 with fmt := 1, rtr := true }) = false := by decide
theorem test_wf_can_xl_extended : Instr.wf (.canFrameRx 0 { canFrame 1 with fmt := 2, ext := true }) = false := by decide
theorem test_wf_lin : Instr.wf (.linResponseRx 0 (List.replicate 9 0) 0 0 0) = false ∧ Instr.wf (.linResponseRx 0 (List.replicate 8 0) 0 0 0) = true := by decide
theorem test_wf_request_words : Instr.wf (.remoteRequest .host 0 ⟨true, true, [], true, true⟩) = false ∧ Instr.wf (.remoteRequest .host 0 ⟨true, true, [0], true, true⟩) = true := by decide
theorem test_wf_request_length : Instr.wf (.bar2Access 0 ⟨true, true, List.replicate 129 0, true, true⟩) = false := by decide +kernel
theorem test_wf_cox_frame : Instr.wf (.coxFrameTx (List.replicate 13 0) none) = false := by decide

/-! ### The step, the table words and reset -/

theorem test_step_takes_the_front_command :
    step { State.reset with pending := [.faultNHoldEnd, .drainEnd] } = exec .faultNHoldEnd { State.reset with pending := [.drainEnd] } := rfl
theorem test_table_word_spells_no_command : decodeTableWord 8 1 = none ∧ (State.reset.withFetchWord 8 1).pending = [] := by decide
/-- GLB_ID of the register table: DEVICE 0x6425, VENDOR 0x1F6A. -/
theorem test_reset_identity : State.reset.rd GLB_ID = 0x64251F6A := by decide +kernel
/-- GLB_CAP of the register table: 64 external and 6 internal ports. -/
theorem test_reset_capability : State.reset.get GLB_CAP_NPORTS = 64 ∧ State.reset.get GLB_CAP_NINT = 6 := by decide +kernel
/-- Nothing waits and domain 0 stands at 0. -/
theorem test_reset_queue_and_time : State.reset.pending = [] ∧ State.reset.domTime 0 = 0 := by decide +kernel

/-- R36: a write outside the map is recorded with cause 4 and its address. -/
theorem test_unmapped_write_is_recorded :
    (match exec (.registerWrite .cox 0x1600004 7) (up State.reset) with
     | .next t => t.get GLB_ACCESS_ERR_CAUSE == 4 && t.get GLB_ACCESS_ADDR_ADDR == 0x1600004 && t.get GLB_ACCESS_ERR_INITIATOR == 1
     | _ => false) = true := by decide +kernel
/-- R10: a write of the RW bits of TIM_JUMP_LIMIT reads back as written. -/
theorem test_write_reads_back :
    (match exec (.registerWrite .host (BitVec.ofNat 32 (TIM_JUMP_LIMIT 2)) 0x1234) (up State.reset) with
     | .next t => (t.rd (TIM_JUMP_LIMIT 2)).toNat == 0x1234 && t.get GLB_ACCESS_ERR_COUNT == 0
     | _ => false) = true := by decide +kernel
/-- R517: the identification register is 0x1642_576B, and its lowest bit comes first. -/
theorem test_jtag_idcode :
    (match exec (.debugAttach [⟨.idcode, List.replicate 32 false⟩]) (up State.reset) with
     | .next t => t.jtag.tdo == (List.range 32).map fun k => bit 0x1642576B k
     | _ => false) = true := by decide +kernel
/-- R439: two bits in error destroy a slot when it is read, and count. -/
theorem test_slot_upset_destroys :
    (let t := ((keyOn State.reset).slotUpset ⟨4, 1⟩).slotRead 4
     slotValid ((keyOn State.reset).slot 4) && t.slot 4 == 0 && t.get KEY_ECC_UNCORR_COUNT == 1 && t.on GLB_FAULT_ECC_UNCORR) = true := by
  decide +kernel
/-- An idle step is one 2 ns tick of the reference (log 1). -/
theorem test_idle_step_ticks : (match step State.reset with | .next t => t.refTicks == 1 | _ => false) = true := by decide +kernel

/-! ### States that meet the premises of the statements written out in full -/

theorem test_meets_StepRunsTheFrontCommand : ∃ (s : State) (c : Instr) (q : List Instr), s.pending = c :: q :=
  ⟨{ State.reset with pending := [.swap] }, .swap, [], rfl⟩
theorem test_meets_StepTicksWhenIdle : ∃ s : State, s.pending = [] ∧ s.hfp.backEnd = [] ∧ s.busQueue = [] ∧ s.fab.parityDue = [] ∧ (s.fab.rx.all fun e => e.2.heldBy.isNone) = true :=
  ⟨State.reset, by decide +kernel⟩
theorem test_meets_ExecKeepsTheQueue : ∃ (c : Instr) (s t : State), exec c s = .next t := ⟨.faultNHoldEnd, State.reset, _, rfl⟩
theorem test_meets_StepKeepsCanonical : ∃ s t : State, s.canonical ∧ step s = .next t :=
  ⟨{ State.reset with regs := [(GLB_LOCK, 1)], hostMem := [(5, 1), (9, 2)], pending := [.faultNHoldEnd] }, _, ⟨by decide +kernel, by decide +kernel⟩, rfl⟩

/-- The first and the last reserved bit of a command of each list of layouts is set. -/
theorem test_meets_ReservedFieldsAreRefused_table : ∃ (s : State) (src : CmdSrc) (d : Desc) (l : List (Nat × Nat)),
    commandRow (.stage src d) = some (src, d, l) ∧ reservedSet d l = true ∧ src.remote = true ∧ s.calm :=
  ⟨calmOn State.reset, .hfp 3 0 0 [], 2 ^ 511, _, rfl, by decide +kernel, by decide, by decide +kernel⟩
theorem test_meets_ReservedFieldsAreRefused_unit : ∃ (s : State) (src : CmdSrc) (d : Desc) (l : List (Nat × Nat)),
    commandRow (.keyDestroy src d) = some (src, d, l) ∧ reservedSet d l = true ∧ s.calm :=
  ⟨calmOn State.reset, .localRing, 2 ^ 9, _, rfl, by decide +kernel, by decide +kernel⟩
theorem test_meets_ReservedFieldsAreRefused_local : ∃ (s : State) (src : CmdSrc) (d : Desc) (l : List (Nat × Nat)),
    commandRow (.lockedSeq src d false) = some (src, d, l) ∧ reservedSet d l = true ∧ (src.remote = true → localOnly (.lockedSeq src d false) = false) ∧ s.calm :=
  ⟨calmOn State.reset, .localRing, 2 ^ 32, _, rfl, by decide +kernel, by decide, by decide +kernel⟩

/-- The ring runs with a message per group that no record disturbs. -/
theorem test_meets_EventRecords_room : ∃ (s : State) (e : EventRec), s.evtRuns = true ∧ s.evtFull = false ∧
    (((List.range 32).all fun i => !within (s.get HIF_ST_BASE_ADDR * 4096 + 4) 4 ((s.get HIF_EVT_BASE_ADDR * 64
       + 32 * (s.hif.evtProd.toNat % ringSize (s.get HIF_EVT_CFG_LOG2_SIZE)) + i) % 2 ^ 64)) = true) ∧
    s.on (HIF_EVT_VEC_EN (e.code / 256 % 16)) = false :=
  ⟨(evtOn (up State.reset)).set (HIF_EVT_VEC_EN 5) 0, ⟨0x0500, 1, 2, 3⟩, by decide +kernel⟩
theorem test_meets_EventRecords_full : ∃ s : State, s.evtRuns = true ∧ s.evtFull = true :=
  ⟨let u := evtOn (up State.reset); { u with hif := { u.hif with evtProd := u.hif.evtCons + 64 } }, by decide +kernel⟩
theorem test_meets_EventRecords_stopped : ∃ s : State, s.evtRuns = false := ⟨State.reset, by decide +kernel⟩
theorem test_meets_TicksAdvanceTheDomains_off : ∃ (s : State) (d : Nat), d < 4 ∧ s.pending = [] ∧ s.up .time = true ∧ s.hfp.backEnd = [] ∧ s.busQueue = [] ∧ s.fab.parityDue = [] ∧ (s.fab.rx.all fun e => e.2.heldBy.isNone) = true ∧
    s.domEn d = false :=
  ⟨up State.reset, 3, by decide +kernel⟩
theorem test_meets_TicksAdvanceTheDomains_on : ∃ (s : State) (d : Nat), d < 4 ∧ s.pending = [] ∧ s.up .time = true ∧ s.hfp.backEnd = [] ∧ s.busQueue = [] ∧ s.fab.parityDue = [] ∧ (s.fab.rx.all fun e => e.2.heldBy.isNone) = true ∧
    s.domEn d = true ∧
    SMap.get s.tim.slew (0 : Int) d = 0 ∧ SMap.get s.tim.carry (0 : Int) d = 0 := ⟨up State.reset, 0, by decide +kernel⟩
theorem test_meets_TicksAdvanceTheDomains_slew : ∃ (s : State) (d : Nat), d < 4 ∧ s.pending = [] ∧ s.up .time = true ∧ s.hfp.backEnd = [] ∧ s.busQueue = [] ∧ s.fab.parityDue = [] ∧ (s.fab.rx.all fun e => e.2.heldBy.isNone) = true ∧
    s.domEn d = true ∧
    0 < SMap.get s.tim.slew (0 : Int) d ∧ 0 ≤ SMap.get s.tim.carry (0 : Int) d :=
  ⟨((up State.reset).set (TIM_DOM_CFG_EN 3) 1).tset fun u => { u with slew := [(3, 1)], carry := [(3, 999999)] }, 3, by decide +kernel⟩
theorem test_meets_TicksAdvanceTheDomains_back : ∃ (s : State) (d : Nat), d < 4 ∧ s.pending = [] ∧ s.up .time = true ∧ s.hfp.backEnd = [] ∧ s.busQueue = [] ∧ s.fab.parityDue = [] ∧ (s.fab.rx.all fun e => e.2.heldBy.isNone) = true ∧
    s.domEn d = true ∧ SMap.get s.tim.slew (0 : Int) d < 0 ∧ 0 ≤ SMap.get s.tim.carry (0 : Int) d ∧
    (2 * s.get (TIM_DOM_CFG_SLEW_PPM d) * 2 ^ 28 : Int) ≤ s.domTime d * 10 ^ 6 :=
  ⟨((up State.reset).set (TIM_DOM_CFG_EN 3) 1).tset fun u => { u with slew := [(3, -1)], now := [(3, 2 ^ 60)] }, 3, by decide +kernel⟩

/-! ### States that meet the premises of each clause of the other statements -/

theorem test_meets_SetupAccesses_0 : ∃ (s : State) (who : Initiator) (addr : Word) (data : Word),
    addr.toNat < 2 ^ 26 ∧ ((regAt addr.toNat).any fun (x : RegDef × List Nat × Nat) => decide (quietReg x.1.reg = true ∧ s.takesWrite who addr.toNat data)) = true :=
  ⟨(evtOn (State.reset)), .cox, 0x300050#32, 0x1#32, by decide +kernel⟩

theorem test_meets_SetupAccesses_1 : ∃ (s : State) (who : Initiator) (addr : Word),
    who ≠ .cfg ∧ s.hostTurned who = false ∧ addr.toNat < 2 ^ 26 ∧ s.busFree ∧ msixAt addr.toNat = none ∧ ((regAt addr.toNat).any fun (x : RegDef × List Nat × Nat) => decide (plainRead x.1.reg = true ∧ s.up x.1.island (x.2.1.headD 0) = true ∧ s.applies x.1.reg (x.2.1.headD 0) = true)) = true :=
  ⟨(evtOn (State.reset)), (.hfp 4), 0x301290#32, by decide +kernel⟩

theorem test_meets_SetupAccesses_2 : ∃ (s : State) (who : Initiator) (addr : Word),
    who ≠ .cfg ∧ s.hostTurned who = false ∧ addr.toNat < 2 ^ 26 ∧ s.busFree ∧ msixAt addr.toNat = none ∧ ((regAt addr.toNat).any fun (x : RegDef × List Nat × Nat) => decide (latches x.1.reg = true ∧ x.2.2 = 0 ∧ s.up x.1.island (x.2.1.headD 0) = true ∧ s.applies x.1.reg (x.2.1.headD 0) = true)) = true :=
  ⟨up State.reset, .jtag, 0x41c100#32, by decide +kernel⟩

theorem test_meets_SetupAccesses_3 : ∃ (s : State) (who : Initiator) (blk : CntBlock),
    s.takesWrite who (clearReg blk) 1 :=
  ⟨(evtOn (State.reset)), .host, .hif, by decide +kernel⟩

theorem test_meets_SetupAccesses_4 : ∃ (s : State) (who : Initiator),
    s.takesWrite who GLB_LOCK 1 :=
  ⟨up State.reset, .jtag, by decide +kernel⟩

theorem test_meets_SetupAccesses_5 : ∃ (s : State) (addr : Word) (data : Word),
    s.up .host = true ∧ addr.toNat / 4 = 0x24 :=
  ⟨(evtOn (State.reset)), 0x90#32, 0x40000004#32, by decide +kernel⟩

theorem test_meets_SetupAccesses_6 : ∃ (s : State) (addr : Word),
    s.up .host = true ∧ addr.toNat / 4 = 0 :=
  ⟨(evtOn (State.reset)), 0x0#32, by decide +kernel⟩

theorem test_meets_SetupAccesses_7 : ∃ (s : State) (addr : Word) (data : Word),
    s.up .host = true ∧ (s.hif.pci.memOn = false ∨ s.hif.pci.d3hot = true) ∧ addr.toNat < 2 ^ 26 :=
  ⟨let s := State.reset; { up s with hif := { s.hif with pci := { s.hif.pci with memOn := false } } }, 0x0#32, 0x8000004#32, by decide +kernel⟩

theorem test_meets_SetupAccesses_8 : ∃ (s : State) (addr : Word),
    s.up .host = true ∧ (s.hif.pci.memOn = false ∨ s.hif.pci.d3hot = true) ∧ addr.toNat < 2 ^ 26 :=
  ⟨let s := State.reset; { up s with hif := { s.hif with pci := { s.hif.pci with memOn := false } } }, 0x0#32, by decide +kernel⟩

theorem test_meets_StagingAndCommits_0 : ∃ (s : State) (src : CmdSrc) (d : Desc),
    s.takesCommand d [0, 1] true ∧ s.stageOk src d = true ∧ s.commitState = 0 ∧ s.remoteMay src = true ∧ s.classOff (2 ^ (stageArgs d).cls) = none ∧ (((stageArgs d).op ≤ 1 → (stageArgs d).index + (stageArgs d).count ≤ classSize (stageArgs d).cls)) ∧ ((List.range (s.stageEntries src (stageArgs d)).length).any (fun k => (s.storedEntry (stageArgs d).cls ((stageArgs d).index + k) ((s.stageEntries src (stageArgs d)).getD k 0)).isNone)) = false ∧ stageTooMuch (s.stagedBank (stageArgs d).cls (stageArgs d).op (stageArgs d).index (s.stageEntries src (stageArgs d))) (stageArgs d).cls = false :=
  ⟨State.reset, .localRing, 0x60000000000000100000000000000000000000000ee46005e#512, by decide +kernel⟩

theorem test_meets_StagingAndCommits_1 : ∃ (s : State) (src : CmdSrc) (d : Desc),
    s.takesCommand d [0, 1] true ∧ s.commitOk d = true ∧ s.commitRefused src (commitArgs d) = none ∧ (((commitArgs d).fabric = true → s.fabTooLate (commitArgs d).at_ = false)) :=
  ⟨State.reset, .localRing, 0x404000000000000000000000000f4ed0147#512, by decide +kernel⟩

theorem test_meets_StagingAndCommits_2 : ∃ (s : State) (us : Word),
    ((s.fab.job).any fun (j : CommitJob) => decide (s.commitState = 1 ∧ j.heated = false ∧ s.hfp.fabMember = none ∧ s.hfp.fabInit = none ∧ heatPassed (s.runHeat (s.candidate j.mask)) = false)) = true :=
  ⟨(let u := (up State.reset).set GLB_CFG_STATE_STATE 1; { u with hfp := { u.hfp with fabMember := none, fabInit := none }, fab := { u.fab with job := some { mask := 2 ^ 14, timed := false, fabric := false, dryRun := true, id := 7, at_ := 0, heated := false }, staged := [(2 ^ 20 * 14, 2 ^ 300 - 1)] } }), 0x80#32, by decide +kernel⟩

theorem test_meets_StagingAndCommits_3 : ∃ (s : State) (us : Word),
    ((s.fab.job).any fun (j : CommitJob) => decide (s.commitState = 1 ∧ j.heated = false ∧ j.dryRun = false ∧ j.timed = true ∧ j.upd = false ∧ s.hfp.fabMember = none ∧ s.hfp.fabInit = none ∧ heatPassed (s.runHeat (s.candidate j.mask)) = true ∧ s.domNs 0 + 10 ^ 5 ≤ j.at_)) = true :=
  ⟨(let u := (up State.reset).set GLB_CFG_STATE_STATE 1; { u with hfp := { u.hfp with fabMember := none, fabInit := none }, fab := { u.fab with job := some { mask := 2, timed := true, fabric := false, dryRun := false, id := 7, at_ := 10 ^ 30, heated := false } } }), 0x80#32, by decide +kernel⟩

theorem test_meets_StagingAndCommits_4 : ∃ (s : State) (us : Word),
    ((s.fab.job).any fun (j : CommitJob) => decide (s.commitState = 1 ∧ j.heated = false ∧ j.dryRun = false ∧ j.timed = false ∧ j.upd = false ∧ s.hfp.fabMember = none ∧ s.hfp.fabInit = none ∧ heatPassed (s.runHeat (s.candidate j.mask)) = true)) = true :=
  ⟨(let u := (up State.reset).set GLB_CFG_STATE_STATE 1; { u with hfp := { u.hfp with fabMember := none, fabInit := none }, fab := { u.fab with job := some { mask := 2, timed := false, fabric := false, dryRun := false, id := 7, at_ := 0, heated := false } } }), 0x80#32, by decide +kernel⟩

theorem test_meets_StagingAndCommits_5 : ∃ (s : State) (src : CmdSrc) (d : Desc),
    s.takesCommand d [0, 1] false ∧ descZero d 16 64 = true ∧ ((s.fab.job).any fun (j : CommitJob) => decide (s.commitState = 2 ∧ j.upd = false ∧ s.domNs 0 < j.at_)) = true :=
  ⟨let s := State.reset; (let s := idle s; (let u := (up s).set GLB_CFG_STATE_STATE 2; { u with hfp := { u.hfp with fabMember := none, fabInit := none }, fab := { u.fab with job := some { mask := 2, timed := true, fabric := false, dryRun := false, id := 7, at_ := 10 ^ 30, heated := true } } })), .localRing, 0x68d0100#512, by decide +kernel⟩

theorem test_meets_StagingAndCommits_6 : ∃ (s : State),
    ((s.fab.job).any fun (j : CommitJob) => decide (s.commitState = 2 ∧ j.upd = false ∧ s.domNs 0 ≥ j.at_)) = true :=
  ⟨(let u := (up State.reset).set GLB_CFG_STATE_STATE 2; { u with hfp := { u.hfp with fabMember := none, fabInit := none }, fab := { u.fab with job := some { mask := 2, timed := true, fabric := false, dryRun := false, id := 7, at_ := 0, heated := true } } }), by decide +kernel⟩

theorem test_meets_StagingAndCommits_7 : ∃ (s : State),
    ((s.fab.job).any fun (j : CommitJob) => decide (s.commitState = 3 ∧ s.drained = true)) = true :=
  ⟨(let u := (up State.reset).set GLB_CFG_STATE_STATE 3; { u with hfp := { u.hfp with fabMember := none, fabInit := none }, fab := { u.fab with job := some { mask := 2, timed := true, fabric := false, dryRun := false, id := 7, at_ := 0, heated := true } } }), by decide +kernel⟩

theorem test_meets_StagingAndCommits_8 : ∃ (s : State) (src : CmdSrc) (d : Desc),
    s.takesCommand d [0, 1] false ∧ src = .localRing ∧ descBits d 16 64 % 64 = 0 ∧ descBits d 24 8 ≤ 1 ∧ descZero d 25 28 = true ∧ 1 ≤ descBits d 28 32 ∧ descBits d 28 32 ≤ 67584 ∧ descZero d 32 64 = true ∧ s.get HEAT_STATUS_RESULT ≠ 0 :=
  ⟨(idle State.reset).set HEAT_STATUS_RESULT 1, .localRing, 0x4000000000000000000000040000000000000000000000000068d0100#512, by decide +kernel⟩

theorem test_meets_PortRegistersAct_0 : ∃ (s : State) (who : Initiator) (n : Fin 64) (value : Word),
    s.takesWrite who (PRT_MODE n.val) (withBit value 0) :=
  ⟨up State.reset, .cox, 9, 0x0#32, by decide +kernel⟩

theorem test_meets_PortRegistersAct_1 : ∃ (s : State) (who : Initiator) (n : Fin 64) (value : Word),
    s.takesWrite who (PRT_MODE n.val) (noBit value 0) :=
  ⟨let n : Fin 64 := 46; ((up State.reset).set (PRT_LINK_STATUS_STATE n.val) 4).set (PRT_MODE_ENABLE n.val) 1, .cox, 46, 0x0#32, by decide +kernel⟩

theorem test_meets_PortRegistersAct_2 : ∃ (s : State) (who : Initiator) (n : Fin 64) (value : Word),
    s.takesWrite who (PRT_MODE n.val) value ∧ s.on (PRT_MODE_ENABLE n.val) = true ∧ bit value.toNat 0 = true ∧ s.get (PRT_MODE_LOOPBACK n.val) ≠ bits value.toNat 16 2 ∧ s.up .port n.val = true :=
  ⟨let n : Fin 64 := 9; let value : Word := 0x10001#32; (((up State.reset).set (PRT_LINK_STATUS_STATE n.val) 1).wr (PRT_MODE n.val) (value &&& 0xFFFCFFFF)).put GLB_LOCK_SETUP_LOCK false, .cox, 9, 0x10001#32, by decide +kernel⟩

theorem test_meets_PortRegistersAct_3 : ∃ (s : State) (who : Initiator) (n : Fin 64),
    s.takesWrite who (PRT_DIAG n.val) 1 :=
  ⟨up State.reset, .jtag, 13, by decide +kernel⟩

theorem test_meets_PortRegistersAct_4 : ∃ (s : State) (who : Initiator) (n : Fin 64) (value : Word),
    s.takesWrite who (PRT_MDIO_CMD n.val) (withBit value 31) :=
  ⟨let n : Fin 64 := 1; ((up State.reset).set (PRT_MODE_MEDIA n.val) 1).set (PRT_MDIO_STATUS_BUSY n.val) 0, .cox, 1, 0x1#32, by decide +kernel⟩

theorem test_meets_LinkRows_0 : ∃ (s : State) (n : Fin 64) (crcOk : Bool) (partner : Bool),
    s.up .port n.val = true ∧ (s.prtOf n.val).analog = true ∧ (s.link n.val = 0 ∨ s.link n.val = 6) :=
  ⟨let n : Fin 64 := 7; let partner : Bool := true; ((up State.reset).set (PRT_RESUME_INFO_VALID n.val) (if partner then 1 else 0)).prtSet n.val fun p => { p with analog := true }, 7, true, true, by decide +kernel⟩

theorem test_meets_LinkRows_1 : ∃ (s : State) (n : Fin 64) (agreed : Bool),
    s.up .port n.val = true ∧ s.link n.val = 1 ∧ agreed = true ∧ s.isT1 n.val = true :=
  ⟨let n : Fin 64 := 7; (up State.reset).set (PRT_LINK_STATUS_STATE n.val) 1, 7, true, by decide +kernel⟩

theorem test_meets_LinkRows_2 : ∃ (s : State) (n : Fin 64) (res : LinkResult),
    s.up .port n.val = true ∧ s.linkForced n.val = false ∧ s.link n.val = 2 ∧ (res.speedOk || isS n.val) = true :=
  ⟨let n : Fin 64 := 7; (up State.reset).set (PRT_LINK_STATUS_STATE n.val) 2, 7, { speedOk := true, slave := true, nodes := 0x0#16, sqi := 0, rtd := 0x3a6#16 }, by decide +kernel⟩

theorem test_meets_LinkRows_3 : ∃ (s : State) (n : Fin 64) (partner : Bool),
    s.up .port n.val = true ∧ s.link n.val = 4 ∧ s.get (PRT_MODE_LOOPBACK n.val) ≠ 1 ∧ s.get (PRT_LINK_CFG_LINK_HOLD n.val) ≠ 0 :=
  ⟨let n : Fin 64 := 7; (((up State.reset).set (PRT_LINK_STATUS_STATE n.val) 4).set (PRT_MODE_LOOPBACK n.val) 0).set (PRT_LINK_CFG_LINK_HOLD n.val) 7, 7, true, by decide +kernel⟩

theorem test_meets_LinkRows_4 : ∃ (s : State) (n : Fin 64) (partner : Bool),
    s.up .port n.val = true ∧ s.link n.val = 5 :=
  ⟨let n : Fin 64 := 7; (up State.reset).set (PRT_LINK_STATUS_STATE n.val) 5, 7, true, by decide +kernel⟩

theorem test_meets_LinkRows_5 : ∃ (s : State) (n : Fin 64),
    s.up .port n.val = true ∧ s.link n.val = 5 :=
  ⟨let n : Fin 64 := 7; (up State.reset).set (PRT_LINK_STATUS_STATE n.val) 5, 7, by decide +kernel⟩

theorem test_meets_LinkRows_6 : ∃ (s : State) (n : Fin 64) (corr : Fin 257) (rtd : BitVec 16) (page : Bool) (partner : Bool),
    s.up .port n.val = true ∧ s.link n.val = 3 ∧ (s.prtOf n.val).probed = false :=
  ⟨let n : Fin 64 := 7; (up State.reset).set (PRT_LINK_STATUS_STATE n.val) 3, 7, 0, 0x0#16, true, false, by decide +kernel⟩

theorem test_meets_LinkRows_7 : ∃ (s : State) (n : Fin 64) (partner : Bool),
    s.up .port n.val = true ∧ s.link n.val = 3 :=
  ⟨let n : Fin 64 := 7; let partner : Bool := true; ((up State.reset).set (PRT_LINK_STATUS_STATE n.val) 3).prtSet n.val fun p => { p with linkOk := partner }, 7, true, by decide +kernel⟩

theorem test_meets_LineRows_0 : ∃ (s : State) (n : Fin 64) (sqi : Fin 8) (phyErrs : Nat) (fecCorr : Nat),
    s.up .port n.val = true ∧ s.isT1 n.val = true ∧ s.link n.val = 4 :=
  ⟨let n : Fin 64 := 7; ((up State.reset).set (PRT_LINK_STATUS_STATE n.val) 4).prtSet n.val fun p => { p with lowRun := 2 }, 7, 0, 134217728, 176, by decide +kernel⟩

theorem test_meets_LineRows_1 : ∃ (s : State) (n : Fin 64),
    s.up .port n.val = true ∧ s.tc10On n.val = true ∧ s.link n.val = 4 ∧ s.power ≠ 3 :=
  ⟨let n : Fin 64 := 7; ((((up State.reset).set (PRT_LINK_STATUS_STATE n.val) 4).set (PRT_MODE_TC10_EN n.val) 1).set PWR_STATUS_STATE 0).set (WAK_PSLEEP_PORTS (n.val / 32)) 0xF0F0F0F0, 7, by decide +kernel⟩

theorem test_meets_LineRows_2 : ∃ (s : State) (n : Fin 64),
    s.pwr.waitAck.contains n.val = true ∧ s.pwr.goal = none ∧ s.link n.val = 4 :=
  ⟨let n : Fin 64 := 7; let u := (up State.reset).set (PRT_LINK_STATUS_STATE n.val) 4; { u with pwr := { u.pwr with waitAck := [n.val, 3], goal := none } }, 7, by decide +kernel⟩

theorem test_meets_LineRows_3 : ∃ (s : State) (n : Fin 64),
    s.power = 3 ∧ s.pwr.waitAck.contains n.val = true :=
  ⟨let n : Fin 64 := 7; let u := (up State.reset).set PWR_STATUS_STATE 3; { u with pwr := { u.pwr with waitAck := [n.val, 3], goal := none } }, 7, by decide +kernel⟩

theorem test_meets_LineRows_4 : ∃ (s : State) (n : Fin 64),
    s.up .port n.val = true ∧ s.tc10On n.val = true ∧ s.link n.val = 6 ∧ s.power = 0 ∧ s.on (PRT_MODE_ENABLE n.val) = true ∧ s.on (PRT_RESUME_INFO_VALID n.val) = false ∧ s.get (PRT_MODE_LOOPBACK n.val) ≠ 1 :=
  ⟨let n : Fin 64 := 7; (((((up State.reset).set (PRT_LINK_STATUS_STATE n.val) 6).set (PRT_MODE_TC10_EN n.val) 1).set PWR_STATUS_STATE 0).set (PRT_MODE_ENABLE n.val) 1).set (PRT_RESUME_INFO_VALID n.val) 0, 7, by decide +kernel⟩

theorem test_meets_LineRows_5 : ∃ (s : State) (n : Fin 64),
    s.up .port n.val = true ∧ isS n.val = true ∧ s.on (PRT_MODE_TC10_EN n.val) = true ∧ s.link n.val = 6 ∧ s.power = 0 ∧ s.on (PRT_MODE_ENABLE n.val) = true ∧ s.on (PRT_RESUME_INFO_VALID n.val) = false ∧ s.get (PRT_MODE_LOOPBACK n.val) ≠ 1 :=
  ⟨let n : Fin 64 := 48; (((((up State.reset).set (PRT_LINK_STATUS_STATE n.val) 6).set (PRT_MODE_TC10_EN n.val) 1).set PWR_STATUS_STATE 0).set (PRT_MODE_ENABLE n.val) 1).set (PRT_RESUME_INFO_VALID n.val) 0, 48, by decide +kernel⟩

theorem test_meets_LineRows_6 : ∃ (s : State) (n : Fin 64) (result : Fin 5) (distance : BitVec 16),
    s.up .port n.val = true ∧ s.link n.val = 7 :=
  ⟨let n : Fin 64 := 7; (up State.reset).set (PRT_LINK_STATUS_STATE n.val) 7, 7, 0, 0x0#16, by decide +kernel⟩

theorem test_meets_LineRows_7 : ∃ (s : State) (bus : Fin 2) (rdata : BitVec 16),
    (SMap.find s.mdioBus bus.val).isSome = true :=
  ⟨{ State.reset with mdioBus := [(0, ⟨2, 3, 1, 2, 5⟩), (1, ⟨5, 1, 1, 2, 5⟩)], mdioQueue := [⟨3, 1, 0, 0, 7⟩] }, 1, 0xed#16, by decide +kernel⟩

theorem test_meets_LineRows_8 : ∃ (s : State) (n : Fin 64),
    s.plcaRuns n.val = true ∧ s.get (PRT_MODE_ROLE n.val) = 0 :=
  ⟨let n : Fin 64 := 48; (((up State.reset).set (PRT_LINK_STATUS_STATE n.val) 4).set (PRT_MODE_ENABLE n.val) 1).set (PRT_MODE_ROLE n.val) 0, 48, by decide +kernel⟩

theorem test_meets_LineRows_9 : ∃ (s : State) (n : Fin 64),
    s.plcaRuns n.val = true :=
  ⟨let n : Fin 64 := 48; (((up State.reset).set (PRT_LINK_STATUS_STATE n.val) 4).set (PRT_MODE_ENABLE n.val) 1).set (PRT_MODE_ROLE n.val) 0, 48, by decide +kernel⟩

theorem test_meets_LineRows_10 : ∃ (s : State) (n : Fin 64),
    s.plcaRuns n.val = true ∧ s.get (PRT_MODE_ROLE n.val) = 1 :=
  ⟨let n : Fin 64 := 48; (((up State.reset).set (PRT_LINK_STATUS_STATE n.val) 4).set (PRT_MODE_ENABLE n.val) 1).set (PRT_MODE_ROLE n.val) 1, 48, by decide +kernel⟩

theorem test_meets_FramesComeIn_0 : ∃ (s : State) (f : FrameIn) (rivals : List (Fin 70)),
    s.takesFrames f.port.val = true ∧ s.framesStopped = false ∧ s.power ≠ 2 ∧ s.rxAt f.port.val f.fid = none ∧ macControl f.bytes = false ∧ s.mayCut f.port.val (s.rxOf f).epoch = true ∧ s.on FST_STATUS_READY = true ∧ s.freeSharedHandles ≠ 0 ∧ s.served (f.port.val :: rivals.map (·.val)) = some f.port.val ∧ (s.cutPlace f.bytes f.port.val).isSome = true :=
  ⟨let f : FrameIn := { port := 1, fid := 1, bytes := [0x0#8, 0x0#8, 0x0#8, 0x0#8, 0x0#8, 0x1#8, 0x0#8, 0x0#8, 0x0#8, 0x0#8, 0x0#8, 0x4#8, 0x8#8, 0x0#8, 0x66#8, 0x99#8, 0x7b#8, 0xa3#8, 0x7e#8, 0x74#8, 0x3f#8, 0xb9#8, 0x41#8, 0x17#8, 0xea#8, 0x55#8, 0x1#8, 0xfd#8, 0xe4#8, 0xe#8, 0x34#8, 0xd#8, 0xe1#8, 0x40#8, 0xce#8, 0x98#8, 0x83#8, 0xdd#8, 0x90#8, 0xed#8, 0xfc#8, 0x87#8, 0xbe#8, 0x95#8, 0x68#8, 0x1#8, 0x84#8, 0x77#8, 0xa5#8, 0xc2#8, 0xf0#8, 0x1#8, 0xe6#8, 0xd1#8, 0xea#8, 0xea#8, 0x85#8, 0xb#8, 0xe9#8, 0x79#8, 0x4a#8, 0xe6#8, 0xaf#8, 0x43#8, 0x75#8, 0xb5#8, 0xd7#8, 0xd8#8, 0x58#8, 0x45#8, 0x3a#8, 0xce#8, 0x88#8, 0x16#8, 0x58#8, 0xd0#8, 0x9a#8, 0xc9#8, 0x2a#8, 0xde#8, 0x2d#8, 0x9b#8, 0x4c#8, 0x14#8, 0xf3#8, 0x3f#8, 0xd#8, 0x2f#8, 0x3e#8, 0xe2#8, 0x4f#8, 0x6b#8, 0xf0#8, 0x4b#8, 0xc0#8, 0x16#8, 0x32#8, 0x45#8, 0x9c#8, 0x8d#8, 0x8b#8, 0xc6#8, 0x3e#8], age := 15 }; (((act0 State.reset).set FST_STATUS_READY 1).each (List.range 4) fun u p => (u.set (FST_POOL_INFO_CHUNKS p) 500) |> fun v => let w := ((v.set (PRT_LINK_STATUS_STATE f.port.val) 4).set (FWD_PORT_CFG_CT_EN f.port.val) 1).rxDrop f.port.val f.fid; { w with fab := { w.fab with allocLast := (f.port.val + 69) % 70, handles := w.fab.handles.filter fun e => e.1 < 3 } }), { port := 1, fid := 1, bytes := [0x0#8, 0x0#8, 0x0#8, 0x0#8, 0x0#8, 0x1#8, 0x0#8, 0x0#8, 0x0#8, 0x0#8, 0x0#8, 0x4#8, 0x8#8, 0x0#8, 0x66#8, 0x99#8, 0x7b#8, 0xa3#8, 0x7e#8, 0x74#8, 0x3f#8, 0xb9#8, 0x41#8, 0x17#8, 0xea#8, 0x55#8, 0x1#8, 0xfd#8, 0xe4#8, 0xe#8, 0x34#8, 0xd#8, 0xe1#8, 0x40#8, 0xce#8, 0x98#8, 0x83#8, 0xdd#8, 0x90#8, 0xed#8, 0xfc#8, 0x87#8, 0xbe#8, 0x95#8, 0x68#8, 0x1#8, 0x84#8, 0x77#8, 0xa5#8, 0xc2#8, 0xf0#8, 0x1#8, 0xe6#8, 0xd1#8, 0xea#8, 0xea#8, 0x85#8, 0xb#8, 0xe9#8, 0x79#8, 0x4a#8, 0xe6#8, 0xaf#8, 0x43#8, 0x75#8, 0xb5#8, 0xd7#8, 0xd8#8, 0x58#8, 0x45#8, 0x3a#8, 0xce#8, 0x88#8, 0x16#8, 0x58#8, 0xd0#8, 0x9a#8, 0xc9#8, 0x2a#8, 0xde#8, 0x2d#8, 0x9b#8, 0x4c#8, 0x14#8, 0xf3#8, 0x3f#8, 0xd#8, 0x2f#8, 0x3e#8, 0xe2#8, 0x4f#8, 0x6b#8, 0xf0#8, 0x4b#8, 0xc0#8, 0x16#8, 0x32#8, 0x45#8, 0x9c#8, 0x8d#8, 0x8b#8, 0xc6#8, 0x3e#8], age := 15 }, [], by decide +kernel⟩

theorem test_meets_FramesComeIn_1 : ∃ (s : State) (f : FrameIn) (whole : Bool),
    s.takesFrames f.port.val = true ∧ s.framesStopped = false ∧ s.power ≠ 2 ∧ s.rxAt f.port.val f.fid = none ∧ macControl f.bytes = false ∧ s.up .fabric = true ∧ s.rxSecure (s.rxOf f).epoch f.port.val = false ∧ s.up .umpire = true :=
  ⟨let f : FrameIn := { port := 63, fid := 1, bytes := [0x0#8, 0x0#8, 0x0#8, 0x0#8, 0x0#8, 0x1#8, 0x0#8, 0x0#8, 0x0#8, 0x0#8, 0x0#8, 0x4#8, 0x81#8, 0x0#8, 0xb0#8, 0x26#8, 0xf3#8, 0xe9#8, 0xb3#8, 0x3#8, 0x4#8, 0x2e#8, 0x4c#8, 0xc9#8, 0xef#8, 0xdf#8, 0x4b#8, 0x4b#8, 0x61#8, 0x7f#8, 0xa4#8, 0x29#8, 0x3d#8, 0xa2#8, 0xba#8, 0x6d#8, 0x2#8, 0x5e#8, 0x15#8, 0x8c#8, 0xf7#8, 0x1d#8, 0xdd#8, 0x5#8, 0xd9#8, 0xb4#8, 0xb#8, 0xfe#8, 0x41#8, 0xac#8, 0x8f#8, 0x70#8, 0x2b#8, 0xe4#8, 0x41#8, 0x98#8, 0xb4#8, 0x46#8, 0xe0#8, 0xae#8, 0x87#8, 0x63#8, 0x82#8, 0x5b#8, 0xd1#8, 0x38#8, 0xf0#8, 0x75#8, 0xb4#8, 0xe2#8, 0x67#8, 0xd2#8, 0xb7#8], age := 73 }; let u := ((act0 State.reset).set (PRT_LINK_STATUS_STATE f.port.val) 4).set GLB_CFG_STATE_STATE 0; ({ u with fab := { u.fab with active := u.fab.active.filter fun e => e.1 / 2 ^ 20 != 14 && e.1 / 2 ^ 20 != 15 } } : State).rxDrop f.port.val f.fid, { port := 63, fid := 1, bytes := [0x0#8, 0x0#8, 0x0#8, 0x0#8, 0x0#8, 0x1#8, 0x0#8, 0x0#8, 0x0#8, 0x0#8, 0x0#8, 0x4#8, 0x81#8, 0x0#8, 0xb0#8, 0x26#8, 0xf3#8, 0xe9#8, 0xb3#8, 0x3#8, 0x4#8, 0x2e#8, 0x4c#8, 0xc9#8, 0xef#8, 0xdf#8, 0x4b#8, 0x4b#8, 0x61#8, 0x7f#8, 0xa4#8, 0x29#8, 0x3d#8, 0xa2#8, 0xba#8, 0x6d#8, 0x2#8, 0x5e#8, 0x15#8, 0x8c#8, 0xf7#8, 0x1d#8, 0xdd#8, 0x5#8, 0xd9#8, 0xb4#8, 0xb#8, 0xfe#8, 0x41#8, 0xac#8, 0x8f#8, 0x70#8, 0x2b#8, 0xe4#8, 0x41#8, 0x98#8, 0xb4#8, 0x46#8, 0xe0#8, 0xae#8, 0x87#8, 0x63#8, 0x82#8, 0x5b#8, 0xd1#8, 0x38#8, 0xf0#8, 0x75#8, 0xb4#8, 0xe2#8, 0x67#8, 0xd2#8, 0xb7#8], age := 73 }, false, by decide +kernel⟩

theorem test_meets_FramesComeIn_2 : ∃ (s : State) (f : FrameIn) (v : RxVerdict) (rivals : List (Fin 70)),
    s.takesFrames f.port.val = true ∧ s.framesStopped = false ∧ s.power ≠ 2 ∧ s.rxAt f.port.val f.fid = none ∧ macControl f.bytes = false ∧ s.commitState ≠ 3 ∧ s.fab.parityDue = [] ∧ v.assyErr = false ∧ v.fcsOk = false ∧ 64 ≤ f.bytes.length + 4 ∧ f.bytes.length + 4 ≤ classMax f.port.val :=
  ⟨let f : FrameIn := { port := 2, fid := 1, bytes := [0x0#8, 0x0#8, 0x0#8, 0x0#8, 0x0#8, 0x1#8, 0x0#8, 0x0#8, 0x0#8, 0x0#8, 0x0#8, 0x0#8, 0x8#8, 0x0#8, 0x43#8, 0x75#8, 0xb5#8, 0xd7#8, 0xd8#8, 0x58#8, 0x45#8, 0x3a#8, 0xce#8, 0x88#8, 0x16#8, 0x58#8, 0xd0#8, 0x9a#8, 0xc9#8, 0x2a#8, 0xde#8, 0x2d#8, 0x9b#8, 0x4c#8, 0x14#8, 0xf3#8, 0x3f#8, 0xd#8, 0x2f#8, 0x3e#8, 0xe2#8, 0x4f#8, 0x6b#8, 0xf0#8, 0x4b#8, 0xc0#8, 0x16#8, 0x32#8, 0x45#8, 0x9c#8, 0x8d#8, 0x8b#8, 0xc6#8, 0x3e#8, 0x23#8, 0x94#8, 0xd3#8, 0x3c#8, 0x66#8, 0x27#8, 0xf1#8, 0xdd#8, 0xb3#8, 0x2d#8, 0x67#8, 0x7f#8, 0xda#8, 0xaf#8, 0x6a#8, 0xff#8, 0x57#8, 0x47#8, 0x17#8, 0xe2#8, 0xe7#8, 0xd9#8, 0x84#8, 0x6b#8, 0xb2#8, 0xaf#8, 0xe7#8, 0xa9#8, 0x83#8, 0xbf#8, 0x26#8, 0xa9#8, 0x15#8], age := 36 }; let u := ((act0 State.reset).set (PRT_LINK_STATUS_STATE f.port.val) 4).set GLB_CFG_STATE_STATE 0; ({ u with fab := { u.fab with active := u.fab.active.filter fun e => e.1 / 2 ^ 20 != 14 && e.1 / 2 ^ 20 != 15 } } : State).rxDrop f.port.val f.fid, { port := 2, fid := 1, bytes := [0x0#8, 0x0#8, 0x0#8, 0x0#8, 0x0#8, 0x1#8, 0x0#8, 0x0#8, 0x0#8, 0x0#8, 0x0#8, 0x0#8, 0x8#8, 0x0#8, 0x43#8, 0x75#8, 0xb5#8, 0xd7#8, 0xd8#8, 0x58#8, 0x45#8, 0x3a#8, 0xce#8, 0x88#8, 0x16#8, 0x58#8, 0xd0#8, 0x9a#8, 0xc9#8, 0x2a#8, 0xde#8, 0x2d#8, 0x9b#8, 0x4c#8, 0x14#8, 0xf3#8, 0x3f#8, 0xd#8, 0x2f#8, 0x3e#8, 0xe2#8, 0x4f#8, 0x6b#8, 0xf0#8, 0x4b#8, 0xc0#8, 0x16#8, 0x32#8, 0x45#8, 0x9c#8, 0x8d#8, 0x8b#8, 0xc6#8, 0x3e#8, 0x23#8, 0x94#8, 0xd3#8, 0x3c#8, 0x66#8, 0x27#8, 0xf1#8, 0xdd#8, 0xb3#8, 0x2d#8, 0x67#8, 0x7f#8, 0xda#8, 0xaf#8, 0x6a#8, 0xff#8, 0x57#8, 0x47#8, 0x17#8, 0xe2#8, 0xe7#8, 0xd9#8, 0x84#8, 0x6b#8, 0xb2#8, 0xaf#8, 0xe7#8, 0xa9#8, 0x83#8, 0xbf#8, 0x26#8, 0xa9#8, 0x15#8], age := 36 }, { fcsOk := false, phyErrs := 0, fecCorr := 0, frags := 0, assyErr := false, smdErrs := 0, idleErrs := 0, node := 0 }, [], by decide +kernel⟩

theorem test_meets_FramesComeIn_3 : ∃ (s : State) (f : FrameIn) (v : RxVerdict) (rivals : List (Fin 70)),
    s.takesFrames f.port.val = true ∧ s.framesStopped = false ∧ s.power ≠ 2 ∧ s.rxAt f.port.val f.fid = none ∧ macControl f.bytes = false ∧ s.commitState ≠ 3 ∧ s.fab.parityDue = [] ∧ s.rxSecure (s.rxOf f).epoch f.port.val = false ∧ v.assyErr = false ∧ v.fcsOk = true ∧ v.phyErrs = 0 ∧ 64 ≤ f.bytes.length + 4 ∧ f.bytes.length + 4 ≤ classMax f.port.val :=
  ⟨let f : FrameIn := { port := 63, fid := 1, bytes := [0x0#8, 0x0#8, 0x0#8, 0x0#8, 0x0#8, 0x1#8, 0x0#8, 0x0#8, 0x0#8, 0x0#8, 0x0#8, 0x4#8, 0x81#8, 0x0#8, 0xb0#8, 0x26#8, 0xf3#8, 0xe9#8, 0xb3#8, 0x3#8, 0x4#8, 0x2e#8, 0x4c#8, 0xc9#8, 0xef#8, 0xdf#8, 0x4b#8, 0x4b#8, 0x61#8, 0x7f#8, 0xa4#8, 0x29#8, 0x3d#8, 0xa2#8, 0xba#8, 0x6d#8, 0x2#8, 0x5e#8, 0x15#8, 0x8c#8, 0xf7#8, 0x1d#8, 0xdd#8, 0x5#8, 0xd9#8, 0xb4#8, 0xb#8, 0xfe#8, 0x41#8, 0xac#8, 0x8f#8, 0x70#8, 0x2b#8, 0xe4#8, 0x41#8, 0x98#8, 0xb4#8, 0x46#8, 0xe0#8, 0xae#8, 0x87#8, 0x63#8, 0x82#8, 0x5b#8, 0xd1#8, 0x38#8, 0xf0#8, 0x75#8, 0xb4#8, 0xe2#8, 0x67#8, 0xd2#8, 0xb7#8], age := 73 }; let u := ((act0 State.reset).set (PRT_LINK_STATUS_STATE f.port.val) 4).set GLB_CFG_STATE_STATE 0; ({ u with fab := { u.fab with active := u.fab.active.filter fun e => e.1 / 2 ^ 20 != 14 && e.1 / 2 ^ 20 != 15 } } : State).rxDrop f.port.val f.fid, { port := 63, fid := 1, bytes := [0x0#8, 0x0#8, 0x0#8, 0x0#8, 0x0#8, 0x1#8, 0x0#8, 0x0#8, 0x0#8, 0x0#8, 0x0#8, 0x4#8, 0x81#8, 0x0#8, 0xb0#8, 0x26#8, 0xf3#8, 0xe9#8, 0xb3#8, 0x3#8, 0x4#8, 0x2e#8, 0x4c#8, 0xc9#8, 0xef#8, 0xdf#8, 0x4b#8, 0x4b#8, 0x61#8, 0x7f#8, 0xa4#8, 0x29#8, 0x3d#8, 0xa2#8, 0xba#8, 0x6d#8, 0x2#8, 0x5e#8, 0x15#8, 0x8c#8, 0xf7#8, 0x1d#8, 0xdd#8, 0x5#8, 0xd9#8, 0xb4#8, 0xb#8, 0xfe#8, 0x41#8, 0xac#8, 0x8f#8, 0x70#8, 0x2b#8, 0xe4#8, 0x41#8, 0x98#8, 0xb4#8, 0x46#8, 0xe0#8, 0xae#8, 0x87#8, 0x63#8, 0x82#8, 0x5b#8, 0xd1#8, 0x38#8, 0xf0#8, 0x75#8, 0xb4#8, 0xe2#8, 0x67#8, 0xd2#8, 0xb7#8], age := 73 }, { fcsOk := true, phyErrs := 0, fecCorr := 0, frags := 0, assyErr := false, smdErrs := 0, idleErrs := 0, node := 9 }, [], by decide +kernel⟩

theorem test_meets_FramesComeIn_4 : ∃ (s : State) (port : Fin 70) (fid : Nat) (rivals : List (Fin 70)),
    ((s.rxAt port.val fid).any fun (x : RxFrame) => decide (s.power ≠ 2 ∧ s.commitState ≠ 3 ∧ s.fab.parityDue = [] ∧ x.desc.isSome = true ∧ x.descHere = false ∧ x.settled = false ∧ x.ended = false ∧ x.handle = none)) = true :=
  ⟨let port : Fin 70 := 63; let fid : Nat := 1; let u := (act0 State.reset).set GLB_CFG_STATE_STATE 0; u.rxKeep port.val fid { port := port.val, bytes := [], epoch := 0, stamp := [], arrival := 0, desc := some { outcome := 3 } }, 63, 1, [], by decide +kernel⟩

theorem test_meets_FramesComeIn_5 : ∃ (s : State) (port : Fin 70) (fid : Nat) (rivals : List (Fin 70)),
    ((s.rxAt port.val fid).any fun (x : RxFrame) => decide (((x.desc).any fun (d : UDesc) => decide (s.power ≠ 2 ∧ s.commitState ≠ 3 ∧ s.fab.parityDue = [] ∧ d.outcome = 3 ∧ x.descHere = false ∧ x.settled = false ∧ x.ended = true ∧ x.handle = none)) = true)) = true :=
  ⟨let port : Fin 70 := 63; let fid : Nat := 1; let u := (act0 State.reset).set GLB_CFG_STATE_STATE 0; u.rxKeep port.val fid { port := port.val, bytes := [], epoch := 0, stamp := [], arrival := 0, ended := true, desc := some { outcome := 3 } }, 63, 1, [], by decide +kernel⟩

theorem test_meets_FramesComeIn_6 : ∃ (s : State) (port : Fin 70) (fid : Nat) (bytes : List Byte) (age : Nat),
    ((s.rxAt port.val fid).any fun (x : RxFrame) => decide (((x.handle).any fun (h : Nat) => decide (((s.handle h).any fun (y : Handle) => decide (x.ended = false ∧ s.commitState ≠ 3 ∧ s.entriesOf h = 0 ∧ y.refcnt = 0 ∧ y.parBad = 0 ∧ s.fab.frer = [] ∧ s.fab.parityDue = [])) = true)) = true)) = true :=
  ⟨let port : Fin 70 := 63; let fid : Nat := 1; let bytes : List Byte := [0x62#8, 0x5b#8, 0xc9#8, 0xb0#8, 0x26#8, 0xf3#8, 0xe9#8, 0xb3#8, 0x3#8, 0x4#8, 0x2e#8, 0x4c#8, 0xc9#8, 0xef#8, 0xdf#8, 0x4b#8, 0x4b#8, 0x61#8, 0x7f#8, 0xa4#8, 0x29#8]; let u := (act0 State.reset).set GLB_CFG_STATE_STATE 0; ({ u with fab := { u.fab with handles := [(7, { pool := 1, chunk := 3, bytes := [], port := port.val, frame := fid })], frer := [] } } : State).rxKeep port.val fid { port := port.val, bytes := [], epoch := 0, stamp := [], arrival := 0, handle := some 7, stream := some 9 }, 63, 1, ([0x62#8, 0x5b#8, 0xc9#8, 0xb0#8, 0x26#8, 0xf3#8, 0xe9#8, 0xb3#8, 0x3#8, 0x4#8, 0x2e#8, 0x4c#8, 0xc9#8, 0xef#8, 0xdf#8, 0x4b#8, 0x4b#8, 0x61#8, 0x7f#8, 0xa4#8, 0x29#8]), 162, by decide +kernel⟩

theorem test_meets_FramesComeIn_7 : ∃ (s : State) (port : Fin 70) (fid : Nat) (bytes : List Byte) (age : Nat),
    ((s.rxAt port.val fid).any fun (x : RxFrame) => decide (((x.handle).any fun (h : Nat) => decide (((s.handle h).any fun (y : Handle) => decide (((x.stream).any fun (k : Nat) => decide (x.ended = false ∧ x.desc.any (·.outcome == 1) = false ∧ s.commitState ≠ 3 ∧ s.entriesOf h = 0 ∧ y.refcnt = 0 ∧ y.parBad = 0 ∧ s.fab.frer = [] ∧ s.fab.parityDue = [])) = true)) = true)) = true)) = true :=
  ⟨let port : Fin 70 := 63; let fid : Nat := 1; let bytes : List Byte := [0x62#8, 0x5b#8, 0xc9#8, 0xb0#8, 0x26#8, 0xf3#8, 0xe9#8, 0xb3#8, 0x3#8, 0x4#8, 0x2e#8, 0x4c#8, 0xc9#8, 0xef#8, 0xdf#8, 0x4b#8, 0x4b#8, 0x61#8, 0x7f#8, 0xa4#8, 0x29#8]; let u := (act0 State.reset).set GLB_CFG_STATE_STATE 0; ({ u with fab := { u.fab with handles := [(7, { pool := 1, chunk := 3, bytes := [], port := port.val, frame := fid })], frer := [] } } : State).rxKeep port.val fid { port := port.val, bytes := [], epoch := 0, stamp := [], arrival := 0, handle := some 7, stream := some 9 }, 63, 1, ([0x62#8, 0x5b#8, 0xc9#8, 0xb0#8, 0x26#8, 0xf3#8, 0xe9#8, 0xb3#8, 0x3#8, 0x4#8, 0x2e#8, 0x4c#8, 0xc9#8, 0xef#8, 0xdf#8, 0x4b#8, 0x4b#8, 0x61#8, 0x7f#8, 0xa4#8, 0x29#8]), 162, by decide +kernel⟩

/-- A copy waits in a lane of an internal port. -/
def copyWaits0 : State := let n : Fin 70 := 69; let s := State.reset; let u := ((act0 s).set GLB_CFG_STATE_STATE 0).fset fun f => { f with handles := [(7, { pool := 1, chunk := 3, bytes := leBytes 60 0, port := 3, frame := 0, state := 1, refcnt := 1, arrival := s.short 0 })], lanes := [], shapers := [], active := f.active.filter (fun e => e.1 / 2 ^ 20 != 8), gates := [] }; (u.setLane n.val 3 [⟨7, 0, 3, false, 0, 0, false⟩]).svcSet n.val fun _ => {}

theorem test_meets_CopiesGoOut_0 : ∃ (s : State) (n : Fin 70) (ecc : Fin 3) (delay : Nat),
    (decide (ecc = 0) && decide (s.commitState ≠ 3) && decide (s.up .fabric = true) && decide (s.power ≠ 2) && decide (s.portServes n.val = true) && decide ((s.svc n.val).sending = none) && decide ((s.svc n.val).rest = none) && decide ((s.svc n.val).entry = none) && ((s.selectLane n.val).any fun r => (((s.lane n.val r.1).head?).any fun c => ((s.handle c.handle).any fun h => decide (s.fab.parityDue = []) && decide (h.parBad = 0) && decide (s.frameErrs h 0 = []) && decide (h.state = 1) && decide (s.ringDown n.val c = none) && decide (s.aged n.val r.1 h.arrival = false) && decide (64 ≤ n.val) && decide (n.val ≠ 65) && decide (n.val ≠ 67) && decide (s.txSecure n.val = false))))) = true :=
  ⟨copyWaits0, 69, 0, 128, by decide +kernel⟩

/-- A copy waits in a lane of an internal port. -/
def copyWaits1 : State := let n : Fin 70 := 69; let s := State.reset; let u := ((act0 s).set GLB_CFG_STATE_STATE 0).fset fun f => { f with handles := [(7, { pool := 1, chunk := 3, bytes := leBytes 60 0, port := 3, frame := 0, state := 1, refcnt := 1, arrival := s.short 0 })], lanes := [], shapers := [], active := f.active.filter (fun e => e.1 / 2 ^ 20 != 8), gates := [] }; (u.setLane n.val 3 [⟨7, 0, 3, false, 0, 0, false⟩]).svcSet n.val fun _ => {}

theorem test_meets_CopiesGoOut_1 : ∃ (s : State) (n : Fin 70),
    (decide (s.commitState ≠ 3) && decide (s.up .fabric = true) && decide (s.power ≠ 2) && decide (s.portServes n.val = true) && decide ((s.svc n.val).sending = none) && decide ((s.svc n.val).rest = none) && decide ((s.svc n.val).entry = none) && ((s.selectLane n.val).any fun r => (((s.lane n.val r.1).head?).any fun c => ((s.handle c.handle).any fun h => decide (s.fab.parityDue = []) && decide (h.parBad = 0) && decide (s.frameErrs h 0 = []) && decide (h.state = 1) && decide (s.ringDown n.val c = none) && decide (s.aged n.val r.1 h.arrival = false) && decide (64 ≤ n.val) && decide (n.val ≠ 65) && decide (n.val ≠ 67) && decide (s.txSecure n.val = false))))) = true :=
  ⟨copyWaits1, 69, by decide +kernel⟩

theorem test_meets_CopiesGoOut_2 : ∃ (s : State) (n : Fin 70),
    s.commitState ≠ 3 ∧ s.up .fabric = true ∧ n.val = 69 ∧ (((s.svc n.val).sending).any fun (x : Sending) => decide (((s.handle x.copy.handle).any fun (h : Handle) => decide (h.state = 1 ∧ h.refcnt = 1 ∧ h.parBad = 0 ∧ s.fab.parityDue = [] ∧ x.copy.rsv = false ∧ (s.svc n.val).entry = none ∧ h.quotaOf = none)) = true)) = true :=
  ⟨let n : Fin 70 := 69; let s := State.reset; let u := ((act0 s).set GLB_CFG_STATE_STATE 0).fset fun f => { f with handles := [(7, { pool := 1, chunk := 3, bytes := leBytes 60 0, port := 3, frame := 0, state := 1, refcnt := 1, arrival := s.short 0 })] }; u.svcSet n.val fun _ => { sending := some ⟨⟨7, 0, 3, false, 0, 0, false⟩, false, none, 0, 64, 0, 0⟩ }, 69, by decide +kernel⟩

theorem test_meets_CopiesGoOut_3 : ∃ (s : State) (n : Fin 64),
    s.up .time = true ∧ (((SMap.get s.tim.stampsWait [] n.val).find? (·.ready)).any fun (r : StampRec) => decide (r.source = 64)) = true :=
  ⟨let n : Fin 64 := 7; (up State.reset).tset fun u => { u with stampsWait := [(n.val, [⟨3, leBytes 24 77, 64, 2, false⟩, ⟨4, leBytes 24 78, 64, 5, true⟩])] }, 7, by decide +kernel⟩

theorem test_meets_GatesAndMerge_0 : ∃ (s : State) (n : Fin 70),
    ((s.gateList n.val).any fun (g : GateList) => decide (((SMap.find s.fab.gates n.val).any fun (st : Gate) => decide (s.up .fabric = true ∧ shortDiff (s.short g.domain) st.next ≥ 0 ∧ (s.svc n.val).sending = none ∧ st.index + 1 < (gateSpans g.cycle g.ops 0).length)) = true)) = true :=
  ⟨let n : Fin 70 := 63; let s := State.reset; let u := (up s).fset fun f => { f with service := [], gates := [(n.val, ⟨0, (s.short 0 + 0) % 2 ^ 32⟩)], active := SMap.insert (SMap.insert (SMap.insert f.active (9 * 2 ^ 20 + 40960 + n.val) (leNat (leBytes 6 0 ++ leBytes 2 (1 + 2 * 32) ++ leBytes 4 0 ++ leBytes 4 1000))) (9 * 2 ^ 20 + gateOpIndex n.val 0) (0x0F + 400 * 2 ^ 32)) (9 * 2 ^ 20 + gateOpIndex n.val 1) (0xF3 + 2 ^ 8 + 500 * 2 ^ 32) }; u, 63, by decide +kernel⟩

theorem test_meets_GatesAndMerge_1 : ∃ (s : State) (n : Fin 70),
    ((s.gateList n.val).any fun (g : GateList) => decide (((SMap.find s.fab.gates n.val).any fun (st : Gate) => decide (shortDiff (s.short g.domain) st.next < 0)) = true)) = true :=
  ⟨let n : Fin 70 := 63; let s := State.reset; let u := (up s).fset fun f => { f with service := [], gates := [(n.val, ⟨0, (s.short 0 + 100) % 2 ^ 32⟩)], active := SMap.insert (SMap.insert (SMap.insert f.active (9 * 2 ^ 20 + 40960 + n.val) (leNat (leBytes 6 0 ++ leBytes 2 (1 + 2 * 32) ++ leBytes 4 0 ++ leBytes 4 1000))) (9 * 2 ^ 20 + gateOpIndex n.val 0) (0x0F + 400 * 2 ^ 32)) (9 * 2 ^ 20 + gateOpIndex n.val 1) (0xF3 + 2 ^ 8 + 500 * 2 ^ 32) }; u, 63, by decide +kernel⟩

theorem test_meets_GatesAndMerge_2 : ∃ (s : State) (who : Initiator) (n : Fin 70) (value : Word),
    s.takesWrite who (GTE_HOLD n.val) value :=
  ⟨up State.reset, .cox, 40, 0x0#32, by decide +kernel⟩

theorem test_meets_GatesAndMerge_3 : ∃ (s : State) (n : Fin 32),
    s.up .fabric = true ∧ s.get (LNE_MM_STATUS_VERIFY n.val) = 2 :=
  ⟨let n : Fin 32 := 7; ((up State.reset).set (LNE_MM_STATUS_VERIFY n.val) 2).fset fun f => { f with verify := [(1, 1), (2, 3), (n.val, 3)] }, 7, by decide +kernel⟩

theorem test_meets_GatesAndMerge_4 : ∃ (s : State) (n : Fin 32),
    s.up .fabric = true ∧ s.get (LNE_MM_STATUS_VERIFY n.val) = 2 :=
  ⟨let n : Fin 32 := 7; (up State.reset).set (LNE_MM_STATUS_VERIFY n.val) 2, 7, by decide +kernel⟩

theorem test_meets_ObservationAndDatabase_0 : ∃ (s : State),
    s.up .fabric = true :=
  ⟨(((up State.reset).set (LNE_PORT_CFG_OBS_EN 3) 1).set (LNE_PORT_CFG_BIN_WIDTH 3) 100).set (LNE_PORT_CFG_OBS_EN 64) 1, by decide +kernel⟩

theorem test_meets_ObservationAndDatabase_1 : ∃ (s : State) (who : Initiator),
    s.takesWrite who LNE_CNT_CLEAR 2 :=
  ⟨up State.reset, .jtag, by decide +kernel⟩

theorem test_meets_ObservationAndDatabase_2 : ∃ (s : State),
    s.up .fabric = true ∧ s.on FWD_AGE_AGE_EN = true ∧ s.fab.ageTick + s.get FWD_AGE_AGE_TIME * 500000000 ≤ s.refTicks :=
  ⟨let s := State.reset; { ((up s).set FWD_AGE_AGE_EN 1).setLearned [(4, ⟨1, 99, 3, true⟩), (9, ⟨1, 98, 3, false⟩)] with refTicks := s.fab.ageTick + s.get FWD_AGE_AGE_TIME * 500000000 + 7 }, by decide +kernel⟩

theorem test_meets_ObservationAndDatabase_3 : ∃ (s : State),
    s.refTicks < s.fab.ageTick + s.get FWD_AGE_AGE_TIME * 500000000 :=
  ⟨{ up State.reset with refTicks := 5 }, by decide +kernel⟩

theorem test_meets_ObservationAndDatabase_4 : ∃ (s : State) (who : Initiator) (value : Word),
    s.takesWrite who FWD_AGE value :=
  ⟨up State.reset, .host, 0x78f3#32, by decide +kernel⟩

theorem test_meets_ObservationAndDatabase_5 : ∃ (s : State) (src : CmdSrc) (d : Desc),
    s.takesCommand d [0, 1] false ∧ (descBits d 16 8 < 70 ∨ descBits d 16 8 = 0xFF) ∧ descBits d 17 8 < 2 ∧ descBits d 18 16 < 4096 ∧ descZero d 20 64 = true ∧ (descBits d 17 1 = 0 ∨ (1 ≤ descBits d 18 12 ∧ descBits d 18 12 ≤ 4094)) :=
  ⟨(idle State.reset).setLearned [(4, ⟨1, 99, 3, true⟩), (9, ⟨2, 98, 0, false⟩), (10, ⟨1, 98, 0, false⟩)], .localRing, 0x10102000000000000000000000000845b0000#512, by decide +kernel⟩

theorem test_meets_ObservationAndDatabase_6 : ∃ (s : State) (src : CmdSrc) (d : Desc),
    s.takesCommand d [0, 1] false ∧ dumpOk src d 65536 = true :=
  ⟨(idle State.reset).setLearned [(4, ⟨1, 99, 3, true⟩), (9, ⟨2, 98, 0, false⟩)], .localRing, 0x1000000250000000000001580000000000000000000000000845b0000#512, by decide +kernel⟩

theorem test_meets_RecorderActs_0 : ∃ (s : State) (who : Initiator) (value : Word),
    s.takesWrite who REC_CTRL (withBit value 0) ∧ s.on REC_CTRL_ENABLE = false :=
  ⟨let who : Initiator := .cox; let u := ((up State.reset).set REC_DRAM_STATUS_READY 1).set REC_CTRL_ENABLE 0; if who == .cox then u.set REC_DRAM_STATUS_USABLE_MIB 1984 else u, .cox, 0x1#32, by decide +kernel⟩

theorem test_meets_RecorderActs_1 : ∃ (s : State) (who : Initiator) (value : Word),
    s.takesWrite who REC_CTRL (noBit value 0) ∧ s.on REC_CTRL_ENABLE = true :=
  ⟨let who : Initiator := .cox; let u := ((up State.reset).set REC_DRAM_STATUS_READY 1).set REC_CTRL_ENABLE 1; { u with dram := { u.dram with open_ := who == .cox } }, .cox, 0x1#32, by decide +kernel⟩

theorem test_meets_RecorderActs_2 : ∃ (s : State),
    s.up .dram = true ∧ s.dram.open_ = true ∧ s.recState = 1 ∧ s.get REC_HEAD_PAGE + 1 < s.get REC_PAGES_PAGES :=
  ⟨let u := (((up State.reset).set REC_DRAM_STATUS_READY 1).set REC_STATUS_STATE 1).set REC_PAGES_PAGES 100; { (u.set REC_HEAD_PAGE 5) with dram := { u.dram with open_ := true } }, by decide +kernel⟩

theorem test_meets_RecorderActs_3 : ∃ (s : State) (src : CmdSrc) (d : Desc),
    s.takesCommand d [0, 1] false ∧ descBits d 16 8 = 1 ∧ descZero d 17 64 = true ∧ s.pdOn 8 = true ∧ (s.recState = 1 ∨ s.recState = 2) ∧ s.dram.open_ = false :=
  ⟨let u := (idle State.reset).set REC_STATUS_STATE 1; { u with dram := { u.dram with open_ := false } }, .localRing, 0x1000000000000000000000000f4ed0100#512, by decide +kernel⟩

theorem test_meets_RecorderActs_4 : ∃ (s : State) (src : CmdSrc) (d : Desc),
    s.takesCommand d [0, 1] false ∧ descZero d 16 64 = true ∧ s.pdOn 8 = true ∧ s.recState = 3 :=
  ⟨(idle State.reset).set REC_STATUS_STATE 3, .localRing, 0xb6f70015#512, by decide +kernel⟩

theorem test_meets_RecorderActs_5 : ∃ (s : State) (src : CmdSrc) (d : Desc),
    s.takesCommand d [0, 1] false ∧ src = .localRing ∧ descBits d 16 64 % 64 = 0 ∧ descBits d 24 32 < s.get REC_PAGES_PAGES ∧ descBits d 28 32 = 1 ∧ descZero d 32 64 = true ∧ s.pdOn 8 = true ∧ (s.recState = 0 ∨ s.recState = 3) ∧ s.dram.badWords = [] :=
  ⟨let u := (idle State.reset).set REC_STATUS_STATE 3; { u.set REC_PAGES_PAGES 64 with dram := { u.dram with badWords := [] } }, .localRing, 0x1000000000000000000000700000000000000000000000000a70b0100#512, by decide +kernel⟩

theorem test_meets_StoreAndDram_0 : ∃ (s : State) (who : Initiator) (value : Word),
    s.takesWrite who REC_DRAM_CFG (withBit value 0) ∧ s.on REC_DRAM_CFG_ENABLE = false :=
  ⟨(up State.reset).set REC_DRAM_CFG_ENABLE 0, .cox, 0x1#32, by decide +kernel⟩

theorem test_meets_StoreAndDram_1 : ∃ (s : State) (ok : Bool),
    s.up .dram = true ∧ s.on REC_DRAM_CFG_ENABLE = true ∧ s.on REC_DRAM_STATUS_READY = false ∧ s.on REC_DRAM_STATUS_TRAIN_ERR = false ∧ (match s.runningKind with | some (.updLoad _ _ _ _) => false | _ => true) = true :=
  ⟨((up State.reset).set REC_DRAM_CFG_ENABLE 1).clearWord REC_DRAM_STATUS, false, by decide +kernel⟩

theorem test_meets_StoreAndDram_2 : ∃ (s : State) (ok : Bool),
    s.up .dram = true ∧ s.on REC_DRAM_CFG_ENABLE = true ∧ s.on REC_DRAM_STATUS_READY = false ∧ s.on REC_DRAM_STATUS_TRAIN_ERR = false ∧ ((s.hif.running).any fun (c : Running) => decide (c.cut = false ∧ ((match c.kind with | .updLoad _ off len _ => some (off, len) | _ => none)).isSome = true)) = true :=
  ⟨let u := ((up State.reset).set REC_DRAM_CFG_ENABLE 1).clearWord REC_DRAM_STATUS; { u with hif := { u.hif with running := some ⟨.localRing, 0x129, .updLoad 0 0 64 false, false⟩ } }, false, by decide +kernel⟩

theorem test_meets_StoreAndDram_3 : ∃ (s : State) (who : Initiator) (value : Word),
    s.takesWrite who FST_CTRL (withBit value 0) ∧ s.on FST_CTRL_RUN = false :=
  ⟨let who : Initiator := .cox; let u := (up State.reset).set FST_CTRL_RUN 0; if who == .host then u.set FST_CARVE_P2_GRAN 1000 else u, .cox, 0x1#32, by decide +kernel⟩

theorem test_meets_StoreAndDram_4 : ∃ (s : State),
    s.up .fabric = true ∧ s.on FST_CTRL_RUN = true ∧ s.on FST_STATUS_READY = false :=
  ⟨((up State.reset).set FST_CTRL_RUN 1).set FST_STATUS_READY 0, by decide +kernel⟩

theorem test_meets_StoreAndDram_5 : ∃ (s : State) (ecc : Fin 4),
    s.up .fabric = true ∧ s.on FST_CTRL_SCRUB_EN = true ∧ s.on FST_STATUS_READY = true ∧ s.commitState ≠ 3 ∧ s.fab.handles = [] ∧ s.fab.suspect = [] ∧ ecc.val < 2 ∧ SMap.get s.fab.badWords 0 s.fab.scrub = 0 ∧ s.on (INJ_ARM_ARM 8) = false :=
  ⟨let ecc : Fin 4 := 0; ((((up State.reset).set FST_CTRL_SCRUB_EN 1).set FST_STATUS_READY 1 |>.set GLB_CFG_STATE_STATE 0).fset fun f => { f with handles := [], suspect := [], badWords := [], scrub := if ecc.val == 1 then 524287 else f.scrub }).put (INJ_ARM_ARM 8) false, 0, by decide +kernel⟩

theorem test_meets_StoreAndDram_6 : ∃ (s : State) (ecc : Fin 4),
    s.up .fabric = true ∧ s.on FST_CTRL_SCRUB_EN = true ∧ s.on FST_STATUS_READY = true ∧ s.commitState ≠ 3 ∧ s.fab.handles = [] ∧ s.fab.suspect = [] ∧ ecc.val = 2 ∧ SMap.get s.fab.badWords 0 s.fab.scrub ≤ 2 ∧ (s.wordAt s.fab.scrub).isSome = true :=
  ⟨(((up State.reset).set FST_CTRL_SCRUB_EN 1).set FST_STATUS_READY 1 |>.set GLB_CFG_STATE_STATE 0).fset fun f => { f with handles := [], suspect := [] }, 2, by decide +kernel⟩

theorem test_meets_PinholesAndImages_0 : ∃ (s : State),
    s.up .umpire = true :=
  ⟨(up State.reset).uset fun u => { u with second := 100, pinholes := [(3, { v := 4, sip := 1, dip := 2, proto := 17, sport := 3, dport := 4, retZone := 2, from_ := 8, profile := 1, closing := false, last := 0 }), (9, { v := 4, sip := 1, dip := 2, proto := 17, sport := 3, dport := 4, retZone := 3, from_ := 8, profile := 0, closing := false, last := 99 })] }, by decide +kernel⟩

theorem test_meets_PinholesAndImages_1 : ∃ (s : State),
    s.up .umpire = true ∧ ((s.ump.tcamBad.head?).any fun (i : Nat) => decide (s.ump.tcamBad.Nodup ∧ s.ump.patBad.Nodup)) = true :=
  ⟨(up State.reset).uset fun u => { u with tcamBad := [4, 9], patBad := [7] }, by decide +kernel⟩

theorem test_meets_PinholesAndImages_2 : ∃ (s : State) (src : CmdSrc) (d : Desc),
    s.takesCommand d [0, 1] false ∧ descBits d 16 8 < 2 ∧ descBits d 17 8 < 16 ∧ descZero d 18 64 = true ∧ s.pdOn 4 = true :=
  ⟨(idle State.reset).uset fun u => { u with second := 100, pinholes := [(3, { v := 4, sip := 1, dip := 2, proto := 17, sport := 3, dport := 4, retZone := 2, from_ := 8, profile := 1, closing := false, last := 0 }), (9, { v := 4, sip := 1, dip := 2, proto := 17, sport := 3, dport := 4, retZone := 3, from_ := 8, profile := 0, closing := false, last := 99 })] }, .localRing, 0xb6f70015#512, by decide +kernel⟩

theorem test_meets_PinholesAndImages_3 : ∃ (s : State) (src : CmdSrc) (d : Desc),
    s.takesCommand d [0, 1] false ∧ dumpOk src d 16384 = true ∧ s.pdOn 4 = true :=
  ⟨(idle State.reset).uset fun u => { u with second := 100, pinholes := [(3, { v := 4, sip := 1, dip := 2, proto := 17, sport := 3, dport := 4, retZone := 2, from_ := 8, profile := 1, closing := false, last := 0 }), (9, { v := 4, sip := 1, dip := 2, proto := 17, sport := 3, dport := 4, retZone := 3, from_ := 8, profile := 0, closing := false, last := 99 })] }, .localRing, 0x1000000070000000000001580000000000000000000000000845b0000#512, by decide +kernel⟩

theorem test_meets_PinholesAndImages_4 : ∃ (s : State) (who : Initiator) (unit : ImgUnit) (value : Word),
    s.takesWrite who (imgReg unit) (withBit value 31) ∧ bit (s.rd (imgReg unit)).toNat 31 = false :=
  ⟨(((up State.reset).set UMP_IMG_EN 0).set RIG_IMG_EN 0).set KEY_IMG_EN 0, .host, .rig, 0x0#32, by decide +kernel⟩

theorem test_meets_PinholesAndImages_5 : ∃ (s : State) (unit : ImgUnit) (ok : Bool),
    s.up (unitIsland unit) = true ∧ s.on (unitImgBusy unit) = true ∧ s.pwr.goal = none ∧ (s.pwr.want = 0 ∨ bit s.pwr.want (domainOf (unitIsland unit) 0) = true) :=
  ⟨let u := (((up State.reset).set UMP_STATUS_IMG_BUSY 1).set RIG_STATUS_IMG_BUSY 1).set KEY_STATUS_IMG_BUSY 1 |>.set REC_DRAM_STATUS_READY 1; { u with pwr := { u.pwr with goal := none, want := 0 } }, .key, true, by decide +kernel⟩

theorem test_meets_PinholesAndImages_6 : ∃ (s : State) (unit : ImgUnit) (ok : Bool),
    s.up (unitIsland unit) = true ∧ s.pwr.loading.contains (unitIdx unit) = true ∧ s.power ≠ 5 ∧ ok = false ∧ unit = .ump :=
  ⟨let u := act0 State.reset; { u with pwr := { u.pwr with loading := [0, 1, 2] } }, .ump, false, by decide +kernel⟩

theorem test_meets_PinholesAndImages_7 : ∃ (s : State) (unit : ImgUnit) (ok : Bool),
    s.up (unitIsland unit) = true ∧ s.pwr.loading.contains (unitIdx unit) = true ∧ s.power ≠ 5 ∧ ok = true ∧ s.imageThere unit = true ∧ s.dram.badWords = [] :=
  ⟨let u := (act0 State.reset).set REC_DRAM_STATUS_READY 1; { u with pwr := { u.pwr with loading := [0, 1, 2] }, dram := { u.dram with badWords := [], images := [(u.imgKey .ump, [(3 * 2 ^ 20, 5)]), (u.imgKey .rig + 4, []), (u.imgKey .rig, []), (u.imgKey .key, [])] } }, .key, true, by decide +kernel⟩

theorem test_meets_DomainsAndTime_0 : ∃ (s : State) (who : Initiator) (d : Fin 4) (value : Word),
    s.takesWrite who (TIM_DOM_CFG d.val) (withBit value 0) ∧ s.domEn d.val = false :=
  ⟨let d : Fin 4 := 0; (up State.reset).set (TIM_DOM_CFG_EN d.val) 0, .host, 0, 0x1100000#32, by decide +kernel⟩

theorem test_meets_DomainsAndTime_1 : ∃ (s : State) (who : Initiator) (d : Fin 4) (value : Word),
    s.takesWrite who (TIM_DOM_CFG d.val) (noBit value 0) ∧ s.domEn d.val = true :=
  ⟨let d : Fin 4 := 1; (up State.reset).set (TIM_DOM_CFG_EN d.val) 1, (.hfp 10), 1, 0x2000000#32, by decide +kernel⟩

theorem test_meets_DomainsAndTime_2 : ∃ (s : State) (who : Initiator) (d : Fin 4) (value : Word),
    s.takesWrite who (TIM_INCR d.val) value :=
  ⟨let d : Fin 4 := 1; (up State.reset).set (TIM_DOM_STATUS_STATE d.val) 2, .cox, 1, 0x1ffff370#32, by decide +kernel⟩

theorem test_meets_DomainsAndTime_3 : ∃ (s : State) (who : Initiator) (d : Fin 4) (value : Word),
    s.takesWrite who (TIM_SLEW d.val) value ∧ s.domEn d.val = true ∧ (s.domState d.val ≠ 2 ∨ (s.injArmedFor 18 d.val = false ∧ s.on (TIM_DOM_STATUS_JUMP_REFUSED d.val) = false ∧ (sext 32 value.toNat).natAbs ≤ s.get (TIM_JUMP_LIMIT_LIMIT d.val))) :=
  ⟨let d : Fin 4 := 1; (((up State.reset).set (TIM_DOM_CFG_EN d.val) 1).set (TIM_DOM_STATUS_STATE d.val) 2).set (TIM_JUMP_LIMIT_LIMIT d.val) 900000, .cox, 1, 0x6130#32, by decide +kernel⟩

theorem test_meets_DomainsAndTime_4 : ∃ (s : State) (who : Initiator) (d : Fin 4) (value : Word),
    s.takesWrite who (TIM_SLEW d.val) value ∧ s.domEn d.val = true ∧ s.domState d.val = 2 ∧ s.injArmedFor 18 d.val = false ∧ (s.on (TIM_DOM_STATUS_JUMP_REFUSED d.val) = true ∨ s.get (TIM_JUMP_LIMIT_LIMIT d.val) < (sext 32 value.toNat).natAbs) :=
  ⟨let d : Fin 4 := 1; (((up State.reset).set (TIM_DOM_CFG_EN d.val) 1).set (TIM_DOM_STATUS_STATE d.val) 2).set (TIM_JUMP_LIMIT_LIMIT d.val) 10, .cox, 1, 0x6130#32, by decide +kernel⟩

theorem test_meets_DomainsAndTime_5 : ∃ (s : State) (who : Initiator) (d : Fin 4) (upper : Word),
    s.takesWrite who (TIM_STEP d.val + 4) upper ∧ s.commitState ≠ 2 ∧ s.domEn d.val = true ∧ s.domState d.val ≠ 2 :=
  ⟨let d : Fin 4 := 2; (((up State.reset).set (TIM_DOM_CFG_EN d.val) 1).set (TIM_DOM_STATUS_STATE d.val) 0).tset fun u => { u with now := [(0, 2 ^ 90), (1, 2 ^ 90), (2, 2 ^ 90), (3, 2 ^ 90)] }, .cox, 2, 0x0#32, by decide +kernel⟩

theorem test_meets_DomainsAndTime_6 : ∃ (s : State) (who : Initiator) (d : Fin 4) (upper : Word),
    s.takesWrite who (TIM_STEP d.val + 4) upper ∧ s.commitState ≠ 2 ∧ s.domEn d.val = true ∧ s.domState d.val = 2 ∧ s.injArmedFor 18 d.val = false ∧ s.get (TIM_JUMP_LIMIT_LIMIT d.val) < (sext 64 (upper.toNat * 2 ^ 32 + (s.rd (TIM_STEP d.val)).toNat)).natAbs :=
  ⟨let d : Fin 4 := 1; (((up State.reset).set (TIM_DOM_CFG_EN d.val) 1).set (TIM_DOM_STATUS_STATE d.val) 2).tset fun u => { u with now := [(0, 2 ^ 90), (1, 2 ^ 90), (2, 2 ^ 90), (3, 2 ^ 90)] }, .cox, 1, 0x1#32, by decide +kernel⟩

theorem test_meets_DomainsAndTime_7 : ∃ (s : State) (who : Initiator) (d : Fin 4) (value : Word),
    s.takesWrite who (TIM_SET_NS d.val) (withBit value 31) ∧ s.commitState ≠ 2 ∧ s.domEn d.val = true ∧ s.injArmedFor 17 d.val = false :=
  ⟨let d : Fin 4 := 2; ((up State.reset).set (TIM_DOM_CFG_EN d.val) 1).set (TIM_DOM_STATUS_STATE d.val) 0, .cox, 2, 0x0#32, by decide +kernel⟩

theorem test_meets_DomainsAndTime_8 : ∃ (s : State) (d : Fin 4),
    s.up .time = true ∧ s.domEn d.val = true ∧ SMap.get s.tim.slew 0 d.val ≠ 0 :=
  ⟨let d : Fin 4 := 3; ((up State.reset).set (TIM_DOM_CFG_EN d.val) 1).setSlew d.val 1234567890123456789, 3, by decide +kernel⟩

theorem test_meets_ServosAndReanchor_0 : ∃ (s : State) (who : Initiator) (d : Fin 4),
    s.takesWrite who (TIM_SERVO_CTRL d.val) 1 :=
  ⟨let d : Fin 4 := 3; ((up State.reset).set (TIM_DOM_CFG_EN d.val) 1).set (TIM_DOM_STATUS_STATE d.val) 2, .cox, 3, by decide +kernel⟩

theorem test_meets_ServosAndReanchor_1 : ∃ (s : State) (who : Initiator) (d : Fin 4),
    s.takesWrite who (TIM_SERVO_CTRL d.val) 2 ∧ s.injArmedFor 17 d.val = false :=
  ⟨let d : Fin 4 := 3; ((up State.reset).set (TIM_DOM_CFG_EN d.val) 1).set (TIM_DOM_STATUS_STATE d.val) 4, .cox, 3, by decide +kernel⟩

theorem test_meets_ServosAndReanchor_2 : ∃ (s : State) (d : Fin 4),
    s.up .time = true ∧ s.domEn d.val = true ∧ s.domState d.val = 2 :=
  ⟨let d : Fin 4 := 3; ((up State.reset).set (TIM_DOM_CFG_EN d.val) 1).set (TIM_DOM_STATUS_STATE d.val) 2, 3, by decide +kernel⟩

theorem test_meets_ServosAndReanchor_3 : ∃ (s : State) (d : Fin 4),
    s.up .time = true ∧ s.domEn d.val = true ∧ s.domState d.val = 4 :=
  ⟨let d : Fin 4 := 3; ((up State.reset).set (TIM_DOM_CFG_EN d.val) 1).set (TIM_DOM_STATUS_STATE d.val) 4 |>.tset fun u => { u with good := [(0,3),(1,2)], lastGood := [(0,5),(2,7)] }, 3, by decide +kernel⟩

theorem test_meets_ServosAndReanchor_4 : ∃ (s : State) (src : CmdSrc) (d : Desc),
    s.takesCommand d [0, 1] true ∧ s.reanchorOk d = true ∧ s.commitState ≠ 2 ∧ s.reanchorRefused src d = none :=
  ⟨let d : Desc := 0xb2d05e000000000000000103000000000000000000000000845b0000#512; (((idle State.reset).set (TIM_DOM_CFG_EN (descBits d 16 2)) 1).set (TIM_DOM_STATUS_STATE (descBits d 16 2)) 2).set (TIM_DOM_STATUS_JUMP_REFUSED (descBits d 16 2)) 1 |>.tset fun u => { u with now := [(0, 2 ^ 90), (1, 2 ^ 90), (2, 2 ^ 90), (3, 2 ^ 90)] }, .localRing, 0xb2d05e000000000000000103000000000000000000000000845b0000#512, by decide +kernel⟩

theorem test_meets_ServosAndReanchor_5 : ∃ (s : State) (src : CmdSrc) (d : Desc),
    s.takesCommand d [0, 1] true ∧ s.reanchorOk d = true ∧ s.pdOn 2 = true ∧ s.domEn (descBits d 16 2) = true ∧ s.domState (descBits d 16 2) ≠ 2 :=
  ⟨let d : Desc := 0xb2d05e000000000000000103000000000000000000000000845b0000#512; (((idle State.reset).set (TIM_DOM_CFG_EN (descBits d 16 2)) 1).set (TIM_DOM_STATUS_STATE (descBits d 16 2)) 3) |>.tset fun u => { u with now := [(0, 2 ^ 90), (1, 2 ^ 90), (2, 2 ^ 90), (3, 2 ^ 90)] }, .localRing, 0xb2d05e000000000000000103000000000000000000000000845b0000#512, by decide +kernel⟩

theorem test_meets_CatchBuoyAndReads_0 : ∃ (s : State) (who : Initiator) (c : Fin 16) (value : Word),
    s.takesWrite who (TIM_CATCH_CFG c.val) (withBit value 1) ∧ s.on (TIM_CATCH_CFG_ARM c.val) = false :=
  ⟨let who : Initiator := .cox; let c : Fin 16 := 14; let u := ((up State.reset).set (TIM_CATCH_CFG_ARM c.val) 0).set (TIM_CATCH_PERIOD_PERIOD c.val) 0; if who == .cox then u else if who == .host then (u.set (TIM_CATCH_PERIOD_PERIOD c.val) 100).set (TIM_CATCH_WIDTH_WIDTH c.val) 99 else (u.set (TIM_CATCH_START_SEC_SEC c.val) (2 ^ 40)).set (TIM_CATCH_WIDTH_WIDTH c.val) 8, .cox, 14, 0x0#32, by decide +kernel⟩

theorem test_meets_CatchBuoyAndReads_1 : ∃ (s : State) (who : Initiator) (c : Fin 16) (value : Word),
    s.takesWrite who (TIM_CATCH_CFG c.val) (noBit value 1) ∧ s.on (TIM_CATCH_CFG_ARM c.val) = true :=
  ⟨let c : Fin 16 := 14; ((up State.reset).set (TIM_CATCH_CFG_ARM c.val) 1).set (TIM_CATCH_CFG_EN c.val) 1 |>.tset fun u => { u with catchNext := [(c.val, 4)], catchPulse := [(c.val, true)] }, .cox, 14, 0x0#32, by decide +kernel⟩

theorem test_meets_CatchBuoyAndReads_2 : ∃ (s : State) (c : Fin 16),
    ((SMap.find s.tim.catchNext c.val).any fun (k : Nat) => decide (s.up .time = true ∧ s.domEn (s.get (TIM_CATCH_CFG_DOMAIN c.val)) = true ∧ s.on (TIM_CATCH_CFG_ARM c.val) = true ∧ s.catchDue c.val k = true)) = true :=
  ⟨let c : Fin 16 := 7; let s := State.reset; (((up s).set (TIM_CATCH_CFG_ARM c.val) 1).set (TIM_CATCH_CFG_EN c.val) (c.val % 2)).set (TIM_DOM_CFG_EN (s.get (TIM_CATCH_CFG_DOMAIN c.val))) 1 |>.tset fun u => { u with catchNext := [(c.val, 0)], now := [(0, 2 ^ 90), (1, 2 ^ 90), (2, 2 ^ 90), (3, 2 ^ 90)] }, 7, by decide +kernel⟩

theorem test_meets_CatchBuoyAndReads_3 : ∃ (s : State) (c : Fin 16),
    s.up .time = true ∧ SMap.get s.tim.catchPulse false c.val = true :=
  ⟨let c : Fin 16 := 7; ((up State.reset).set (TIM_CATCH_CFG_EN c.val) (c.val % 2)).tset fun u => { u with catchPulse := [(c.val, true)] }, 7, by decide +kernel⟩

theorem test_meets_CatchBuoyAndReads_4 : ∃ (s : State) (b : Fin 16) (rising : Bool),
    s.up .time = true ∧ s.buoyTakes b.val rising = true ∧ (SMap.get s.tim.buoyFifo [] b.val).length < 8 ∧ ((s.lockers b.val).isEmpty = true ∨ rising = false) :=
  ⟨let b : Fin 16 := 7; let s := State.reset; (((up s).set (TIM_BUOY_CFG_EN b.val) 1).set (TIM_BUOY_CFG_EDGE b.val) 3).set (TIM_DOM_CFG_EN (s.get (TIM_BUOY_CFG_DOMAIN b.val))) 1 |>.tset fun u => { u with buoyFifo := [(b.val, [⟨5, true⟩])], buoyLast := [] }, 7, true, by decide +kernel⟩

theorem test_meets_CatchBuoyAndReads_5 : ∃ (s : State) (who : Initiator) (b : Fin 16),
    s.takesWrite who (TIM_BUOY_POP b.val) 1 :=
  ⟨let b : Fin 16 := 13; (up State.reset).tset fun u => { u with buoyFifo := [(b.val, [⟨5, true⟩, ⟨7, false⟩])] }, .jtag, 13, by decide +kernel⟩

theorem test_meets_CatchBuoyAndReads_6 : ∃ (s : State) (who : Initiator),
    s.takesWrite who TIM_SNAP_CTRL 1 :=
  ⟨((up State.reset).set (TIM_DOM_CFG_EN 1) 1).tset fun u => { u with now := [(0, 2 ^ 70), (1, 2 ^ 69)] }, .jtag, by decide +kernel⟩

theorem test_meets_CatchBuoyAndReads_7 : ∃ (s : State) (who : Initiator) (d : Fin 4),
    who ≠ .cfg ∧ s.hostTurned who = false ∧ s.busFree ∧ s.up .time = true :=
  ⟨up State.reset, .jtag, 1, by decide +kernel⟩

theorem test_meets_CanChannels_0 : ∃ (s : State) (who : Initiator) (c : Fin 32) (value : Word),
    s.takesWrite who (EDG_CAN_CTRL c.val) (withBit value 0) ∧ s.on (EDG_CAN_CTRL_ENABLE c.val) = false ∧ s.canState c.val = 0 ∧ bit value.toNat 4 = false :=
  ⟨let c : Fin 32 := 14; ((up State.reset).set (EDG_CAN_CTRL_ENABLE c.val) 0).set (EDG_CAN_STATUS_STATE c.val) 0, .cox, 14, 0x0#32, by decide +kernel⟩

theorem test_meets_CanChannels_1 : ∃ (s : State) (who : Initiator) (c : Fin 32) (value : Word),
    s.takesWrite who (EDG_CAN_CTRL c.val) (noBit value 0) ∧ s.on (EDG_CAN_CTRL_ENABLE c.val) = true ∧ bit value.toNat 4 = false :=
  ⟨let c : Fin 32 := 14; ((((up State.reset)).set (EDG_CAN_STATUS_STATE c.val) 3).set (EDG_CAN_CTRL_ENABLE c.val) 1).canPut c.val fun x => { x with txErr := 9, recovering := true }, .cox, 14, 0x0#32, by decide +kernel⟩

theorem test_meets_CanChannels_2 : ∃ (s : State) (who : Initiator) (c : Fin 32),
    s.takesWrite who (EDG_CAN_CTRL c.val) (withBit (s.rd (EDG_CAN_CTRL c.val)) 4) ∧ s.canState c.val = 4 :=
  ⟨let c : Fin 32 := 13; ((((up State.reset)).set (EDG_CAN_STATUS_STATE c.val) 4).set (EDG_CAN_CTRL_ENABLE c.val) 1), .jtag, 13, by decide +kernel⟩

theorem test_meets_CanChannels_3 : ∃ (s : State) (c : Fin 32),
    s.up .edge = true ∧ s.canState c.val = 1 ∧ (s.canSt c.val).recovering = false ∧ (s.canSt c.val).txErr < 128 ∧ (s.canSt c.val).rxErr < 128 :=
  ⟨let c : Fin 32 := 7; ((((up State.reset)).set (EDG_CAN_STATUS_STATE c.val) 1).set (EDG_CAN_CTRL_ENABLE c.val) 1), 7, by decide +kernel⟩

theorem test_meets_CanChannels_4 : ∃ (s : State) (c : Fin 32) (f : CanFrame),
    s.canOn c.val = true ∧ f.fmt = 0 ∧ f.rtr = true ∧ (s.canSt c.val).rxErr < 128 ∧ (s.canSt c.val).txErr < 128 :=
  ⟨let c : Fin 32 := 17; ((((up State.reset)).set (EDG_CAN_STATUS_STATE c.val) 3).set (EDG_CAN_CTRL_ENABLE c.val) 1).canPut c.val fun x => { x with rxErr := 9 }, 17, { fmt := 0, ext := false, rtr := true, brs := true, esi := false, id := 0x14b#29, sdt := 0x7#8, vcid := 0x0#8, af := 0x0#32, data := [0xfa#8, 0x26#8, 0x26#8, 0xaa#8, 0xb1#8], age := 77 }, by decide +kernel⟩

theorem test_meets_CanChannels_5 : ∃ (s : State) (c : Fin 32) (f : CanFrame),
    s.canOn c.val = true ∧ f.fmt = 0 ∧ f.rtr = false ∧ (s.canSt c.val).rxErr < 128 ∧ (s.canSt c.val).txErr < 128 ∧ s.on (INJ_ARM_ARM 20) = false ∧ ((pdusOf s.fab.active).any fun p => canMatches p.2 c.val f) = false ∧ (tunsOf s.fab.active).isEmpty = true :=
  ⟨let c : Fin 32 := 7; ((((up State.reset)).set (EDG_CAN_STATUS_STATE c.val) 3).set (EDG_CAN_CTRL_ENABLE c.val) 1).canPut c.val fun x => { x with rxErr := 9 }, 7, { fmt := 0, ext := false, rtr := false, brs := true, esi := false, id := 0x226#29, sdt := 0x3#8, vcid := 0x0#8, af := 0x0#32, data := [0xb3#8, 0x3#8, 0x4#8, 0x2e#8, 0x4c#8, 0xc9#8, 0xef#8, 0xdf#8], age := 55 }, by decide +kernel⟩

theorem test_meets_CanChannels_6 : ∃ (s : State) (c : Fin 32) (e : CanErr),
    s.canOn c.val = true ∧ e.tx = false ∧ e.code ≠ 0 ∧ e.code ≠ 7 ∧ (s.canSt c.val).rxErr < 127 ∧ (s.canSt c.val).txErr < 128 :=
  ⟨let c : Fin 32 := 19; ((((up State.reset)).set (EDG_CAN_STATUS_STATE c.val) 2).set (EDG_CAN_CTRL_ENABLE c.val) 1), 19, { code := 3, tx := false, xlData := false }, by decide +kernel⟩

theorem test_meets_CanChannels_7 : ∃ (s : State) (c : Fin 32) (e : CanErr),
    s.canOn c.val = true ∧ e.tx = false ∧ e.code = 7 :=
  ⟨let c : Fin 32 := 1; ((((up State.reset)).set (EDG_CAN_STATUS_STATE c.val) 2).set (EDG_CAN_CTRL_ENABLE c.val) 1), 1, { code := 7, tx := false, xlData := false }, by decide +kernel⟩

theorem test_meets_CanChannels_8 : ∃ (s : State) (c : Fin 32),
    s.up .edge = true ∧ (s.canSt c.val).recovering = true :=
  ⟨let c : Fin 32 := 7; ((((up State.reset)).set (EDG_CAN_STATUS_STATE c.val) 1).set (EDG_CAN_CTRL_ENABLE c.val) 1).canPut c.val fun x => { x with txErr := 300, recovering := true }, 7, by decide +kernel⟩

theorem test_meets_CanChannels_9 : ∃ (s : State) (c : Fin 32),
    s.canOn c.val = true ∧ s.get (EDG_CAN_CTRL_MODE c.val) = 0 ∧ (s.canSt c.val).sending = none ∧ s.injArmedFor 21 c.val = false ∧ (canBest ((s.canPrune c.val).canQueue c.val)).isSome = true :=
  ⟨let c : Fin 32 := 7; let s := State.reset; ((((up s)).set (EDG_CAN_STATUS_STATE c.val) 2).set (EDG_CAN_CTRL_ENABLE c.val) 1).set (EDG_CAN_CTRL_MODE c.val) 0 |>.canPut c.val fun x => { x with sending := none, fifo := [{ pdu := none, fmt := 0, ext := false, brs := false, id := 4, data := [1, 2], deadline := 0 }, { pdu := none, fmt := 0, ext := false, brs := false, id := 5, data := [1, 2], deadline := s.refTicks + 99 }], boxes := [(3, { pdu := none, fmt := 0, ext := false, brs := false, id := 5, data := [1, 2], deadline := s.refTicks + 99 })] }, 7, by decide +kernel⟩

theorem test_meets_CanChannels_10 : ∃ (s : State) (c : Fin 32),
    (((s.canSt c.val).sending).any fun (x : Nat × CanTx) => decide (s.bankDrives 11 = true ∧ s.canOn c.val = true ∧ (s.canSt c.val).txErr < 128 ∧ (s.canSt c.val).rxErr < 128)) = true :=
  ⟨let c : Fin 32 := 7; let s := State.reset; ((((up s)).set (EDG_CAN_STATUS_STATE c.val) 2).set (EDG_CAN_CTRL_ENABLE c.val) 1).canPut c.val fun x => { x with sending := some (3, { pdu := none, fmt := 0, ext := false, brs := false, id := 5, data := [1, 2], deadline := s.refTicks + 99 }), boxes := [(3, { pdu := none, fmt := 0, ext := false, brs := false, id := 5, data := [1, 2], deadline := s.refTicks + 99 })] }, 7, by decide +kernel⟩

theorem test_meets_CanChannels_11 : ∃ (s : State) (c : Fin 32),
    s.up .edge = true ∧ (s.canEarliest c.val).isSome = true :=
  ⟨let c : Fin 32 := 7; let s := State.reset; ((((up s)).set (EDG_CAN_STATUS_STATE c.val) 2).set (EDG_CAN_CTRL_ENABLE c.val) 1).canPut c.val fun x => { x with sending := none, fifo := [{ pdu := none, fmt := 0, ext := false, brs := false, id := 5, data := [1, 2], deadline := s.refTicks + 99 }], boxes := [(3, { pdu := none, fmt := 0, ext := false, brs := false, id := 5, data := [1, 2], deadline := s.refTicks + 99 })] }, 7, by decide +kernel⟩

theorem test_meets_LinChannels_0 : ∃ (s : State) (who : Initiator) (l : Fin 16) (value : Word),
    s.takesWrite who (EDG_LIN_CTRL l.val) (withBit value 2) ∧ linRuns (s.rd (EDG_LIN_CTRL l.val)).toNat = false ∧ bit value.toNat 0 = true ∧ bit value.toNat 1 = false ∧ bit value.toNat 3 = false :=
  ⟨let l : Fin 16 := 13; (up State.reset).set (EDG_LIN_CTRL_RUN l.val) 0, .jtag, 13, 0x4b000d01#32, by decide +kernel⟩

theorem test_meets_LinChannels_1 : ∃ (s : State) (who : Initiator) (l : Fin 16) (value : Word),
    s.takesWrite who (EDG_LIN_CTRL l.val) (noBit value 2) ∧ bit value.toNat 0 = true ∧ bit value.toNat 3 = false :=
  ⟨up State.reset, .jtag, 13, 0x4b000d01#32, by decide +kernel⟩

theorem test_meets_LinChannels_2 : ∃ (s : State) (who : Initiator) (l : Fin 16) (value : Word),
    s.takesWrite who (EDG_LIN_SCHED l.val) value :=
  ⟨up State.reset, .cox, 14, 0x0#32, by decide +kernel⟩

theorem test_meets_LinChannels_3 : ∃ (s : State) (l : Fin 16),
    s.linOn l.val false = true ∧ (s.linSt l.val).running = true ∧ s.on (EDG_LIN_CTRL_RUN l.val) = false :=
  ⟨let l : Fin 16 := 7; ((((up State.reset).set RIG_STATUS_READY 1).set (EDG_LIN_CTRL_ENABLE l.val) 1).set (EDG_LIN_CTRL_ROLE l.val) 0).set (EDG_LIN_CTRL_RUN l.val) 0 |>.linSet l.val fun x => { x with running := true }, 7, by decide +kernel⟩

theorem test_meets_LinChannels_4 : ∃ (s : State) (l : Fin 16),
    s.linOn l.val false = true ∧ (s.linSt l.val).running = true ∧ s.on (EDG_LIN_CTRL_RUN l.val) = true ∧ s.on (INJ_ARM_ARM 20) = false ∧ s.get (EDG_LIN_SCHED_TABLE l.val) = s.get (EDG_LIN_SCHED_ACTIVE l.val) ∧ s.linSlotOn l.val (s.get (EDG_LIN_SCHED_TABLE l.val)) (s.linSt l.val).next = false ∧ s.linSlotOn l.val (s.get (EDG_LIN_SCHED_TABLE l.val)) 0 = false :=
  ⟨let l : Fin 16 := 7; let s := State.reset; (((((up s).set RIG_STATUS_READY 1).set (EDG_LIN_CTRL_ENABLE l.val) 1).set (EDG_LIN_CTRL_ROLE l.val) 0).set (EDG_LIN_CTRL_RUN l.val) 1 |>.linSet l.val fun x => { x with running := true, next := 3 }).set (EDG_LIN_SCHED_ACTIVE l.val) (s.get (EDG_LIN_SCHED_TABLE l.val)) |>.set (INJ_ARM_ARM 20) 0, 7, by decide +kernel⟩

theorem test_meets_LinChannels_5 : ∃ (s : State) (l : Fin 16),
    s.linOn l.val false = true ∧ (s.linSt l.val).running = true ∧ s.on (EDG_LIN_CTRL_RUN l.val) = true ∧ s.on (INJ_ARM_ARM 20) = false ∧ ((some (s.linSlotAt l.val (s.get (EDG_LIN_SCHED_TABLE l.val)) (if s.get (EDG_LIN_SCHED_TABLE l.val) = s.get (EDG_LIN_SCHED_ACTIVE l.val) then (s.linSt l.val).next else 0))).any fun (k : Nat) => decide (s.linSlotOn l.val (s.get (EDG_LIN_SCHED_TABLE l.val)) k = true ∧ ((some (ebits (s.tab 12 (4096 + 256 * l.val + 64 * s.get (EDG_LIN_SCHED_TABLE l.val) + k)) 2 0 12)).any fun (p : Nat) => decide (s.rigBroken 1 p = false ∧ pduValid (s.tab 12 p) = true ∧ pduBus (s.tab 12 p) = 1 ∧ pduChan (s.tab 12 p) = l.val ∧ s.bankDrives 11 = true ∧ pduDir (s.tab 12 p) = 0)) = true)) = true :=
  ⟨let l : Fin 16 := 7; let s := State.reset; (((((up s).set RIG_STATUS_READY 1).set (EDG_LIN_CTRL_ENABLE l.val) 1).set (EDG_LIN_CTRL_ROLE l.val) 0).set (EDG_LIN_CTRL_RUN l.val) 1 |>.linSet l.val fun x => { x with running := true, next := 3 }).set (EDG_LIN_SCHED_ACTIVE l.val) (s.get (EDG_LIN_SCHED_TABLE l.val)) |>.set (INJ_ARM_ARM 20) 0 |>.fset fun f => { f with active := (List.range 4).foldl (fun b t => SMap.insert b (12 * 2 ^ 20 + 4096 + 256 * l.val + 64 * t + 3 * (t % 2)) (1 + 7 * 2 ^ 16)) (SMap.insert (f.active.filter fun e => e.1 / 2 ^ 20 != 12 && e.1 / 2 ^ 20 != 11) (12 * 2 ^ 20 + 7) (5 + 0 + l.val * 2 ^ 8 + 2 * 2 ^ 16 + 9 * 2 ^ 32)) }, 7, by decide +kernel⟩

theorem test_meets_LinChannels_6 : ∃ (s : State) (l : Fin 16),
    s.linOn l.val false = true ∧ (s.linSt l.val).running = true ∧ s.on (EDG_LIN_CTRL_RUN l.val) = true ∧ s.on (INJ_ARM_ARM 20) = false ∧ ((some (s.linSlotAt l.val (s.get (EDG_LIN_SCHED_TABLE l.val)) (if s.get (EDG_LIN_SCHED_TABLE l.val) = s.get (EDG_LIN_SCHED_ACTIVE l.val) then (s.linSt l.val).next else 0))).any fun (k : Nat) => decide (s.linSlotOn l.val (s.get (EDG_LIN_SCHED_TABLE l.val)) k = true ∧ ((some (ebits (s.tab 12 (4096 + 256 * l.val + 64 * s.get (EDG_LIN_SCHED_TABLE l.val) + k)) 2 0 12)).any fun (p : Nat) => decide (s.rigBroken 1 p = false ∧ pduValid (s.tab 12 p) = true ∧ pduBus (s.tab 12 p) = 1 ∧ pduChan (s.tab 12 p) = l.val ∧ s.bankDrives 11 = true ∧ pduDir (s.tab 12 p) = 1 ∧ s.routesTo p = [])) = true)) = true :=
  ⟨let l : Fin 16 := 7; let s := State.reset; (((((up s).set RIG_STATUS_READY 1).set (EDG_LIN_CTRL_ENABLE l.val) 1).set (EDG_LIN_CTRL_ROLE l.val) 0).set (EDG_LIN_CTRL_RUN l.val) 1 |>.linSet l.val fun x => { x with running := true, next := 3 }).set (EDG_LIN_SCHED_ACTIVE l.val) (s.get (EDG_LIN_SCHED_TABLE l.val)) |>.set (INJ_ARM_ARM 20) 0 |>.fset fun f => { f with active := (List.range 4).foldl (fun b t => SMap.insert b (12 * 2 ^ 20 + 4096 + 256 * l.val + 64 * t + 3 * (t % 2)) (1 + 7 * 2 ^ 16)) (SMap.insert (f.active.filter fun e => e.1 / 2 ^ 20 != 12 && e.1 / 2 ^ 20 != 11) (12 * 2 ^ 20 + 7) (5 + 2 + l.val * 2 ^ 8 + 2 * 2 ^ 16 + 9 * 2 ^ 32)) }, 7, by decide +kernel⟩

theorem test_meets_LinChannels_7 : ∃ (s : State) (l : Fin 16) (pid : Byte),
    s.linOn l.val true = true ∧ linPid (pid.toNat % 64) = pid.toNat ∧ s.on (INJ_ARM_ARM 20) = false ∧ s.livePdus.find? (linMatches l.val 1 (pid.toNat % 64)) = none ∧ (s.livePdus.find? (linMatches l.val 0 (pid.toNat % 64))).isSome = true :=
  ⟨let l : Fin 16 := 7; let pid : Byte := 0xd#8; ((((up State.reset).set RIG_STATUS_READY 1).set (EDG_LIN_CTRL_ENABLE l.val) 1).set (EDG_LIN_CTRL_ROLE l.val) 1).set (EDG_LIN_CTRL_RUN l.val) 0 |>.set (INJ_ARM_ARM 20) 0 |>.fset fun f => { f with active := SMap.insert (f.active.filter fun e => e.1 / 2 ^ 20 != 12) (12 * 2 ^ 20 + 7) (5 + l.val * 2 ^ 8 + 2 ^ 17 + pid.toNat % 64 * 2 ^ 32) }, 7, 0xd#8, by decide +kernel⟩

theorem test_meets_LinChannels_8 : ∃ (s : State) (l : Fin 16) (pid : Byte),
    s.linOn l.val true = true ∧ linPid (pid.toNat % 64) = pid.toNat ∧ s.on (INJ_ARM_ARM 20) = false ∧ s.livePdus.find? (linMatches l.val 1 (pid.toNat % 64)) = none ∧ s.livePdus.find? (linMatches l.val 0 (pid.toNat % 64)) = none :=
  ⟨let l : Fin 16 := 7; ((((up State.reset).set RIG_STATUS_READY 1).set (EDG_LIN_CTRL_ENABLE l.val) 1).set (EDG_LIN_CTRL_ROLE l.val) 1).set (EDG_LIN_CTRL_RUN l.val) 0 |>.set (INJ_ARM_ARM 20) 0 |>.fset fun f => { f with active := f.active.filter fun e => e.1 / 2 ^ 20 != 12 }, 7, 0xd#8, by decide +kernel⟩

theorem test_meets_LinChannels_9 : ∃ (s : State) (l : Fin 16) (data : List Byte) (checksum : Byte) (err : Fin 4) (age : Nat),
    s.rigReady = true ∧ s.on (EDG_LIN_CTRL_ENABLE l.val) = true ∧ err.val ≠ 0 :=
  ⟨let l : Fin 16 := 1; ((((up State.reset).set RIG_STATUS_READY 1).set (EDG_LIN_CTRL_ENABLE l.val) 1).set (EDG_LIN_CTRL_ROLE l.val) 1).set (EDG_LIN_CTRL_RUN l.val) 0, 1, [0x1#8], 0x3#8, 2, 4096, by decide +kernel⟩

theorem test_meets_LinChannels_10 : ∃ (s : State) (l : Fin 16) (data : List Byte) (checksum : Byte) (err : Fin 4) (age : Nat),
    s.rigReady = true ∧ s.on (EDG_LIN_CTRL_ENABLE l.val) = true ∧ err.val = 0 ∧ (((s.linSt l.val).wait).any fun (w : Nat × Nat) => decide (((s.linSource l.val w.2 w.1).any fun (p : Nat) => decide (pduLen (s.tab 12 p) = data.length ∧ checksum.toNat ≠ linCheck (s.tab 12 p) data)) = true)) = true :=
  ⟨let l : Fin 16 := 7; let data : List Byte := [0x1#8]; (((((up State.reset).set RIG_STATUS_READY 1).set (EDG_LIN_CTRL_ENABLE l.val) 1).set (EDG_LIN_CTRL_ROLE l.val) 1).set (EDG_LIN_CTRL_RUN l.val) 0 |>.linSet l.val fun x => { x with wait := some (5, 7) }).fset fun f => { f with active := SMap.insert (f.active.filter fun e => e.1 / 2 ^ 20 != 12) (12 * 2 ^ 20 + 7) (5 + l.val * 2 ^ 8 + data.length * 2 ^ 16 + 5 * 2 ^ 32) }, 7, [0x1#8], 0xff#8, 0, 11369, by decide +kernel⟩

theorem test_meets_LinChannels_11 : ∃ (s : State) (l : Fin 16) (data : List Byte) (checksum : Byte) (err : Fin 4) (age : Nat),
    s.rigReady = true ∧ s.on (EDG_LIN_CTRL_ENABLE l.val) = true ∧ err.val = 0 ∧ (((s.linSt l.val).wait).any fun (w : Nat × Nat) => decide (((s.linSource l.val w.2 w.1).any fun (p : Nat) => decide (pduLen (s.tab 12 p) = data.length ∧ checksum.toNat = linCheck (s.tab 12 p) data)) = true)) = true :=
  ⟨let l : Fin 16 := 2; let data : List Byte := []; (((((up State.reset).set RIG_STATUS_READY 1).set (EDG_LIN_CTRL_ENABLE l.val) 1).set (EDG_LIN_CTRL_ROLE l.val) 1).set (EDG_LIN_CTRL_RUN l.val) 0 |>.linSet l.val fun x => { x with wait := some (5, 7) }).set RIG_CFG_ENABLE 0 |>.set (INJ_ARM_ARM 20) 0 |>.fset fun f => { f with active := SMap.insert (SMap.insert (SMap.insert (f.active.filter fun e => e.1 / 2 ^ 20 != 12 && e.1 / 2 ^ 20 != 11 && e.1 / 2 ^ 20 != 13) (12 * 2 ^ 20 + 7) (5 + l.val * 2 ^ 8 + data.length * 2 ^ 16 + 5 * 2 ^ 32)) (12 * 2 ^ 20 + 9) (7 + l.val * 2 ^ 8 + 2 ^ 16 + 6 * 2 ^ 32)) (11 * 2 ^ 20 + 3) (7 + 9 * 2 ^ 16 + 8 * 2 ^ 48 + 2 ^ 87) }, 2, [], 0xff#8, 0, 2097152, by decide +kernel⟩

theorem test_meets_LinChannels_12 : ∃ (s : State) (l : Fin 16) (data : List Byte) (checksum : Byte) (err : Fin 4) (age : Nat),
    s.rigReady = true ∧ s.on (EDG_LIN_CTRL_ENABLE l.val) = true ∧ err.val = 0 ∧ (((s.linSt l.val).wait).any fun (w : Nat × Nat) => decide (((s.linSource l.val w.2 w.1).any fun (p : Nat) => decide (pduLen (s.tab 12 p) = data.length ∧ checksum.toNat = linCheck (s.tab 12 p) data ∧ s.rigRuns = true ∧ s.on (INJ_ARM_ARM 20) = false ∧ (tunsOf s.fab.active).isEmpty = true ∧ (((match (routesOf s.fab.active).filter (fun (r : Nat × Nat) => rtSrc r.2 == p) with | [r] => some r | _ => none)).any fun (r : Nat × Nat) => decide (s.rigBroken 0 r.1 = false ∧ pduBus (s.tab 12 (rtDst r.2)) = 1 ∧ s.tooSoon p = false)) = true)) = true)) = true :=
  ⟨let l : Fin 16 := 2; let data : List Byte := []; (((((up State.reset).set RIG_STATUS_READY 1).set (EDG_LIN_CTRL_ENABLE l.val) 1).set (EDG_LIN_CTRL_ROLE l.val) 1).set (EDG_LIN_CTRL_RUN l.val) 0 |>.linSet l.val fun x => { x with wait := some (5, 7) }).set RIG_CFG_ENABLE 1 |>.set (INJ_ARM_ARM 20) 0 |>.fset fun f => { f with active := SMap.insert (SMap.insert (SMap.insert (f.active.filter fun e => e.1 / 2 ^ 20 != 12 && e.1 / 2 ^ 20 != 11 && e.1 / 2 ^ 20 != 13) (12 * 2 ^ 20 + 7) (5 + l.val * 2 ^ 8 + data.length * 2 ^ 16 + 5 * 2 ^ 32)) (12 * 2 ^ 20 + 9) (7 + l.val * 2 ^ 8 + 2 ^ 16 + 6 * 2 ^ 32)) (11 * 2 ^ 20 + 3) (7 + 9 * 2 ^ 16 + 8 * 2 ^ 48 + 2 ^ 87) }, 2, [], 0xff#8, 0, 2097152, by decide +kernel⟩

theorem test_meets_LinChannels_13 : ∃ (s : State) (l : Fin 16) (data : List Byte) (checksum : Byte) (err : Fin 4) (age : Nat),
    s.rigReady = true ∧ s.on (EDG_LIN_CTRL_ENABLE l.val) = true ∧ err.val = 0 ∧ (((s.linSt l.val).wait).any fun (w : Nat × Nat) => decide (s.linSource l.val w.2 w.1 = none)) = true :=
  ⟨let l : Fin 16 := 7; (((((up State.reset).set RIG_STATUS_READY 1).set (EDG_LIN_CTRL_ENABLE l.val) 1).set (EDG_LIN_CTRL_ROLE l.val) 1).set (EDG_LIN_CTRL_RUN l.val) 0 |>.linSet l.val fun x => { x with wait := some (5, 7) }).fset fun f => { f with active := f.active.filter fun e => e.1 / 2 ^ 20 != 12 }, 7, [0x1#8], 0xff#8, 0, 11369, by decide +kernel⟩

theorem test_meets_LinChannels_14 : ∃ (s : State) (l : Fin 16),
    s.rigReady = true ∧ s.on (EDG_LIN_CTRL_ENABLE l.val) = true ∧ (s.linSt l.val).wait.isSome = true ∧ s.on (EDG_LIN_CTRL_ROLE l.val) = false :=
  ⟨let l : Fin 16 := 7; ((((up State.reset).set RIG_STATUS_READY 1).set (EDG_LIN_CTRL_ENABLE l.val) 1).set (EDG_LIN_CTRL_ROLE l.val) 0).set (EDG_LIN_CTRL_RUN l.val) 0 |>.linSet l.val fun x => { x with wait := some (5, 7) }, 7, by decide +kernel⟩

theorem test_meets_LinChannels_15 : ∃ (s : State) (who : Initiator) (l : Fin 16),
    s.takesWrite who (EDG_LIN_CTRL l.val) (withBit (s.rd (EDG_LIN_CTRL l.val)) 3) ∧ s.on (EDG_LIN_CTRL_ENABLE l.val) = true ∧ s.on (EDG_LIN_CTRL_ROLE l.val) = false ∧ s.rigReady = true ∧ s.bankDrives 11 = true :=
  ⟨let l : Fin 16 := 13; ((((up State.reset).set RIG_STATUS_READY 1).set (EDG_LIN_CTRL_ENABLE l.val) 1).set (EDG_LIN_CTRL_ROLE l.val) 0).set (EDG_LIN_CTRL_RUN l.val) 0, .jtag, 13, by decide +kernel⟩

theorem test_meets_RiggerTicks_0 : ∃ (s : State),
    ((s.edge.rigIn.head?).any fun (x : List Byte × Nat) => decide (s.rigRuns = true ∧ s.sourceAt x.1 = none ∧ ((tunsOf s.fab.active).any fun u => ebit u.2 16 1) = false)) = true :=
  ⟨(((up State.reset).set RIG_STATUS_READY 1).set RIG_CFG_ENABLE 1).eset fun e => { e with rigIn := [(leBytes 60 0, 5), ([], 3)] }, by decide +kernel⟩

theorem test_meets_RiggerTicks_1 : ∃ (s : State),
    ((s.edge.rigIn.head?).any fun (x : List Byte × Nat) => decide (s.rigRuns = true ∧ s.on (INJ_ARM_ARM 20) = false ∧ ((s.sourceAt x.1).any fun (o : Nat) => decide ((((match (containers (x.1.drop o) ((x.1.drop o).length / 16 + 1) 0) with | ([c], 0) => some c | _ => none)).any fun (c : Nat × List Byte) => decide (((s.livePdus.find? (fun (p : Nat × Nat) => pduDir p.2 == 0 && pduBus p.2 == 2 && pduId p.2 == c.1)).any fun (p : Nat × Nat) => decide ((((match (routesOf s.fab.active).filter (fun (r : Nat × Nat) => rtSrc r.2 == p.1) with | [r] => some r | _ => none)).any fun (r : Nat × Nat) => decide (s.rigBroken 0 r.1 = false ∧ pduBus (s.tab 12 (rtDst r.2)) = 1 ∧ s.tooSoon p.1 = false)) = true)) = true)) = true)) = true)) = true :=
  ⟨let s := State.reset; (((up s).set RIG_STATUS_READY 1).set RIG_CFG_ENABLE 1).set (INJ_ARM_ARM 20) 0 |>.eset (fun e => { e with broken := [], pdus := [], rigIn := [(leBytes 12 7 ++ beBytes 2 (s.get RIG_CFG_ETYPE) ++ beBytes 4 77 ++ beBytes 4 2 ++ leBytes 8 0 ++ [5, 6], 5), ([], 3)] }) |>.fset fun f => { f with active := SMap.insert (SMap.insert (SMap.insert (f.active.filter fun e => e.1 / 2 ^ 20 != 12 && e.1 / 2 ^ 20 != 11) (12 * 2 ^ 20 + 7) (9 + 2 * 2 ^ 16 + 77 * 2 ^ 32)) (12 * 2 ^ 20 + 9) (7 + 2 ^ 16 + 6 * 2 ^ 32)) (11 * 2 ^ 20 + 3) (7 + 9 * 2 ^ 16 + 8 * 2 ^ 48 + 2 ^ 87) }, by decide +kernel⟩

theorem test_meets_RiggerTicks_2 : ∃ (s : State),
    ((s.edge.rigIn.head?).any fun (x : List Byte × Nat) => decide (s.rigRuns = true ∧ s.on (INJ_ARM_ARM 20) = false ∧ ((s.sourceAt x.1).any fun (o : Nat) => decide ((((match (containers (x.1.drop o) ((x.1.drop o).length / 16 + 1) 0) with | ([c], 0) => some c | _ => none)).any fun (c : Nat × List Byte) => decide (s.livePdus.find? (fun (p : Nat × Nat) => pduDir p.2 == 0 && pduBus p.2 == 2 && pduId p.2 == c.1) = none)) = true)) = true)) = true :=
  ⟨let s := State.reset; (((up s).set RIG_STATUS_READY 1).set RIG_CFG_ENABLE 1).set (INJ_ARM_ARM 20) 0 |>.eset (fun e => { e with broken := [], pdus := [], rigIn := [(leBytes 12 7 ++ beBytes 2 (s.get RIG_CFG_ETYPE) ++ beBytes 4 77 ++ beBytes 4 2 ++ leBytes 8 0 ++ [5, 6], 5), ([], 3)] }) |>.fset fun f => { f with active := id (f.active.filter fun e => e.1 / 2 ^ 20 != 12 && e.1 / 2 ^ 20 != 11)  }, by decide +kernel⟩

theorem test_meets_RiggerTicks_3 : ∃ (s : State),
    ((s.edge.rigIn.head?).any fun (x : List Byte × Nat) => decide (s.rigReady = true ∧ s.on RIG_CFG_ENABLE = false)) = true :=
  ⟨(((up State.reset).set RIG_STATUS_READY 1).set RIG_CFG_ENABLE 0).eset fun e => { e with rigIn := [([1], 5), ([], 3)] }, by decide +kernel⟩

theorem test_meets_RiggerTicks_4 : ∃ (s : State),
    s.rigRuns = true ∧ (s.cyclicDue (s.edge.tick + 1)).isEmpty = true :=
  ⟨((up State.reset).set RIG_STATUS_READY 1).set RIG_CFG_ENABLE 1, by decide +kernel⟩

theorem test_meets_RiggerTicks_5 : ∃ (s : State),
    s.rigReady = true ∧ s.on (INJ_ARM_ARM 19) = false :=
  ⟨let u := ((up State.reset).set RIG_STATUS_READY 1).set (INJ_ARM_ARM 19) 0; { (u.eset fun e => { e with routes := [(3, { fresh := true, last := some 0, inv := false }), (4, { fresh := true, last := some 900000, inv := false })] }) with refTicks := 1000000, fab := { u.fab with active := SMap.insert (SMap.insert (u.fab.active.filter fun e => e.1 / 2 ^ 20 != 11) (11 * 2 ^ 20 + 3) (2 ^ 96 + 2 ^ 80)) (11 * 2 ^ 20 + 4) (2 ^ 96 + 2 ^ 80) } }, by decide +kernel⟩

theorem test_meets_RiggerTicks_6 : ∃ (s : State) (upsets : List RigUpset),
    s.rigReady = true ∧ (routesOf s.fab.active).isEmpty = true ∧ (upsets.any (·.lost)) = false :=
  ⟨let u := (up State.reset).set RIG_STATUS_READY 1; u.fset fun f => { f with active := f.active.filter fun e => e.1 / 2 ^ 20 != 11 }, [], by decide +kernel⟩

theorem test_meets_RiggerTicks_7 : ∃ (s : State) (t : Fin 512),
    s.rigRuns = true ∧ s.on (INJ_ARM_ARM 20) = false ∧ (s.tunSt t.val).msgs ≠ [] ∧ (s.liveTuns.any fun u => u.1 == t.val) = true ∧ s.up .fabric = true ∧ s.framesStopped = false :=
  ⟨let t : Fin 512 := 327; let u := (((up State.reset).set RIG_STATUS_READY 1).set RIG_CFG_ENABLE 1).set (INJ_ARM_ARM 20) 0; { u with fab := { u.fab with active := SMap.insert u.fab.active (13 * 2 ^ 20 + t.val) (2 ^ 128) }, edge := { u.edge with broken := [], tuns := [(t.val, { msgs := [leBytes 12 5], seq := 255 })] } }, 327, by decide +kernel⟩

theorem test_meets_HfpDiscovery_0 : ∃ (s : State) (port : Fin 64) (m : HfpMsg),
    s.up .fabric = true ∧ msgOk m = true ∧ (1 ≤ m.typ.toNat ∧ m.typ.toNat ≤ 13) ∧ s.power ≠ 2 ∧ (m.dst ≠ 0xFF ∧ m.dst.toNat ≠ s.ownId) ∧ m.hops ≠ 0 ∧ (s.routePort m.dst.toNat).isSome = true :=
  ⟨(fabOn State.reset).set HFP_CFG_ID 31, 12, { ver := 0x1#8, typ := 0x7#8, src := 0, dst := 0x14#8, cls := 1, hops := 0x1a#8, seq := 0x5#32, tag := 0x3#16, len := 0x28#16, body := [0x0#8, 0x0#8, 0x0#8, 0x0#8, 0x0#8, 0x0#8, 0x0#8, 0x0#8, 0x0#8, 0x0#8, 0x0#8, 0x0#8, 0x0#8, 0x0#8, 0x0#8, 0x0#8, 0x0#8, 0x0#8, 0x0#8, 0x0#8, 0x0#8, 0x0#8, 0x0#8, 0x0#8] }, by decide +kernel⟩

theorem test_meets_HfpDiscovery_1 : ∃ (s : State) (port : Fin 64) (m : HfpMsg),
    s.up .fabric = true ∧ msgOk m = true ∧ (1 ≤ m.typ.toNat ∧ m.typ.toNat ≤ 13) ∧ s.power ≠ 2 ∧ (m.dst ≠ 0xFF ∧ m.dst.toNat ≠ s.ownId) ∧ m.hops = 0 :=
  ⟨(fabOn State.reset).set HFP_CFG_ID 31, 7, { ver := 0x1#8, typ := 0x2#8, src := 29, dst := 0x13#8, cls := 3, hops := 0x0#8, seq := 0x4#32, tag := 0x0#16, len := 0x18#16, body := [0x33#8, 0xe2#8, 0x6a#8, 0xb0#8, 0xef#8, 0xc0#8, 0x7b#8, 0x32#8] }, by decide +kernel⟩

theorem test_meets_HfpDiscovery_2 : ∃ (s : State) (port : Fin 64) (mac : BitVec 48) (m : HfpMsg),
    s.keepsMsg port { m with typ := 1 } ∧ s.firmware = true ∧ s.hfpPort port.val = true ∧ s.helloClash { m with typ := 1, body := msgData { m with typ := 1 } } = false ∧ s.adjState port.val = 0 ∧ s.authority ≠ some m.src.val :=
  ⟨let port : Fin 64 := 41; let m : HfpMsg := { ver := 0x1#8, typ := 0xe#8, src := 22, dst := 0x0#8, cls := 2, hops := 0x11#8, seq := 0x1#32, tag := 0x2#16, len := 0x20#16, body := [0xa9#8, 0x15#8, 0x28#8, 0x44#8, 0x79#8, 0x56#8, 0x19#8, 0x13#8, 0xbe#8, 0xa7#8, 0x2f#8, 0x65#8, 0x94#8, 0xeb#8, 0x72#8, 0x15#8] }; ((((let u := fabOn State.reset; u.set HFP_CFG_ID (m.dst.toNat % 32)).set (HFP_PORTS_PORTS (port.val / 32)) (2 ^ 32 - 1)).set (HFP_ADJ_STATE port.val) 0).set HFP_CFG_ANCHOR_ID (beAt m.body 8 1 % 32)).set HFP_CFG_DEPUTY_ID (beAt m.body 9 1 % 32), 41, 0x17bdf#48, { ver := 0x1#8, typ := 0xe#8, src := 22, dst := 0x0#8, cls := 2, hops := 0x11#8, seq := 0x1#32, tag := 0x2#16, len := 0x20#16, body := [0xa9#8, 0x15#8, 0x28#8, 0x44#8, 0x79#8, 0x56#8, 0x19#8, 0x13#8, 0xbe#8, 0xa7#8, 0x2f#8, 0x65#8, 0x94#8, 0xeb#8, 0x72#8, 0x15#8] }, by decide +kernel⟩

theorem test_meets_HfpDiscovery_3 : ∃ (s : State),
    s.hfpRuns = true ∧ s.firmware = true :=
  ⟨((((fabOn State.reset).set (HFP_PORTS_PORTS 0) 0x0F).set (PRT_LINK_STATUS_STATE 1) 4).set (PRT_LINK_STATUS_STATE 3) 4).set HFP_CFG_ID 2, by decide +kernel⟩

theorem test_meets_HfpDiscovery_4 : ∃ (s : State) (port : Fin 64),
    s.hfpRuns = true ∧ s.firmware = true ∧ s.adjState port.val ≠ 0 :=
  ⟨let port : Fin 64 := 7; ((fabOn State.reset).set (HFP_ADJ_STATE port.val) (1 + port.val % 3)).set (HFP_ADJ_NEIGHBOR port.val) 7, 7, by decide +kernel⟩

theorem test_meets_HfpDiscovery_5 : ∃ (s : State) (port : Fin 64) (m : HfpMsg),
    s.keepsMsg port { m with typ := 2 } ∧ s.firmware = true ∧ m.src.val ≠ s.ownId ∧ (SMap.find s.hfp.lsdb m.src.val).all (fun o => decide (o.seq < beAt (msgData m) 0 4)) = true :=
  ⟨let m : HfpMsg := { ver := 0x1#8, typ := 0xb#8, src := 2, dst := 0x1f#8, cls := 0, hops := 0xd#8, seq := 0x4#32, tag := 0x0#16, len := 0x20#16, body := [0x0#8, 0x0#8, 0x0#8, 0x0#8, 0x0#8, 0x0#8, 0x0#8, 0x0#8, 0x0#8, 0x0#8, 0x0#8, 0x0#8, 0x0#8, 0x0#8, 0x0#8, 0x0#8] }; let u := fabOn State.reset; u.set HFP_CFG_ID (m.dst.toNat % 32), 7, { ver := 0x1#8, typ := 0xb#8, src := 2, dst := 0x1f#8, cls := 0, hops := 0xd#8, seq := 0x4#32, tag := 0x0#16, len := 0x20#16, body := [0x0#8, 0x0#8, 0x0#8, 0x0#8, 0x0#8, 0x0#8, 0x0#8, 0x0#8, 0x0#8, 0x0#8, 0x0#8, 0x0#8, 0x0#8, 0x0#8, 0x0#8, 0x0#8] }, by decide +kernel⟩

theorem test_meets_HfpDiscovery_6 : ∃ (s : State),
    s.hfpRuns = true ∧ s.firmware = true :=
  ⟨((fabOn State.reset).set (HFP_ADJ_STATE 9) 3).set HFP_CFG_ID 5, by decide +kernel⟩

theorem test_meets_HfpDiscovery_7 : ∃ (s : State) (origin : Fin 32),
    s.hfpRuns = true ∧ s.firmware = true ∧ origin.val ≠ s.ownId :=
  ⟨let origin : Fin 32 := 7; (fabOn State.reset).set HFP_CFG_ID 5 |>.bset fun b => { b with lsdb := [(1, ⟨3, []⟩), (2, ⟨3, []⟩), (origin.val, ⟨3, []⟩)] }, 7, by decide +kernel⟩

theorem test_meets_HfpRequestsOut_0 : ∃ (s : State) (who : Initiator) (addr : Word) (req : RemReq),
    who ≠ .cfg ∧ s.hostTurned who = false ∧ 1 ≤ req.words.length ∧ req.words.length ≤ 64 ∧ ((s.peerOf addr.toNat).any fun (f : Nat) => decide (s.quietBridge ∧ s.maySend (remAsk who f addr.toNat req .access))) = true :=
  ⟨(fabOn State.reset).set HFP_CFG_ID 30, .jtag, 0x94600000#32, { write := false, nonPosted := true, words := [0xfab0ba26#32], firstBe := true, lastBe := true }, by decide +kernel⟩

theorem test_meets_HfpRequestsOut_1 : ∃ (s : State) (offset : BitVec 26) (req : RemReq),
    s.up .host = true ∧ req.words.length = 1 ∧ (req.write && !req.firstBe) = false ∧ s.on HIF_RWIN_EN = true ∧ s.get HIF_RWIN_PEER ≠ s.ownId ∧ s.quietBridge ∧ s.maySend (remAsk .host (s.get HIF_RWIN_PEER) (2 ^ 31 + s.get HIF_RWIN_PEER * 2 ^ 26 + offset.toNat / 4 * 4) { req with nonPosted := !req.write } (.bar2 s.hfp.nextTlp)) :=
  ⟨(((fabOn State.reset).set HFP_CFG_ID 30).set HIF_RWIN_EN 1).set HIF_RWIN_PEER 4, 0xa269#26, { write := true, nonPosted := false, words := [0x514c#32], firstBe := true, lastBe := true }, by decide +kernel⟩

theorem test_meets_HfpRequestsOut_2 : ∃ (s : State) (port : Fin 64) (m : HfpMsg),
    s.keepsMsg port { m with typ := 7 } ∧ ((s.openReq m.src.val m.tag.toNat).any fun (r : HfpReq) => decide (r.ask.kind = .access ∧ beAt (msgData m) 0 1 = 0 ∧ r.ask.typ = 5 ∧ s.quietBridge)) = true :=
  ⟨let m : HfpMsg := { ver := 0x1#8, typ := 0xb#8, src := 2, dst := 0x1f#8, cls := 0, hops := 0xd#8, seq := 0x4#32, tag := 0x0#16, len := 0x20#16, body := [0x0#8, 0x0#8, 0x0#8, 0x0#8, 0x0#8, 0x0#8, 0x0#8, 0x0#8, 0x0#8, 0x0#8, 0x0#8, 0x0#8, 0x0#8, 0x0#8, 0x0#8, 0x0#8] }; let u := let u := fabOn State.reset; u.set HFP_CFG_ID (m.dst.toNat % 32); u.bset fun b => { b with reqs := [{ ask := { peer := m.src.val, cls := 0, init := 1, typ := 5, posted := false, addr := 8, len := 4, data := [], kind := .access }, tag := m.tag.toNat, seq := 5, route := 3 }] }, 7, { ver := 0x1#8, typ := 0xb#8, src := 2, dst := 0x1f#8, cls := 0, hops := 0xd#8, seq := 0x4#32, tag := 0x0#16, len := 0x20#16, body := [0x0#8, 0x0#8, 0x0#8, 0x0#8, 0x0#8, 0x0#8, 0x0#8, 0x0#8, 0x0#8, 0x0#8, 0x0#8, 0x0#8, 0x0#8, 0x0#8, 0x0#8, 0x0#8] }, by decide +kernel⟩

theorem test_meets_HfpRequestsOut_3 : ∃ (s : State) (port : Fin 64) (m : HfpMsg),
    s.keepsMsg port { m with typ := 7 } ∧ s.openReq m.src.val m.tag.toNat = none :=
  ⟨let m : HfpMsg := { ver := 0x1#8, typ := 0xb#8, src := 2, dst := 0x1f#8, cls := 0, hops := 0xd#8, seq := 0x4#32, tag := 0x0#16, len := 0x20#16, body := [0x0#8, 0x0#8, 0x0#8, 0x0#8, 0x0#8, 0x0#8, 0x0#8, 0x0#8, 0x0#8, 0x0#8, 0x0#8, 0x0#8, 0x0#8, 0x0#8, 0x0#8, 0x0#8] }; let u := fabOn State.reset; u.set HFP_CFG_ID (m.dst.toNat % 32), 7, { ver := 0x1#8, typ := 0xb#8, src := 2, dst := 0x1f#8, cls := 0, hops := 0xd#8, seq := 0x4#32, tag := 0x0#16, len := 0x20#16, body := [0x0#8, 0x0#8, 0x0#8, 0x0#8, 0x0#8, 0x0#8, 0x0#8, 0x0#8, 0x0#8, 0x0#8, 0x0#8, 0x0#8, 0x0#8, 0x0#8, 0x0#8, 0x0#8] }, by decide +kernel⟩

theorem test_meets_HfpRequestsOut_4 : ∃ (s : State) (peer : Fin 32) (tag : BitVec 16),
    ((s.openReq peer.val tag.toNat).any fun (r : HfpReq) => decide (r.ask.kind = .access ∧ s.quietBridge)) = true :=
  ⟨let peer : Fin 32 := 7; let tag : BitVec 16 := 0xed#16; (fabOn State.reset).bset fun b => { b with reqs := [{ ask := { peer := peer.val, cls := 0, init := 1, typ := 5, posted := false, addr := 8, len := 4, data := [], kind := .access }, tag := tag.toNat, seq := 5, route := 3 }] }, 7, 0xed#16, by decide +kernel⟩

theorem test_meets_HfpRequestsOut_5 : ∃ (s : State) (port : Fin 64) (m : HfpMsg),
    s.keepsMsg port { m with typ := 8 } ∧ s.quietBridge :=
  ⟨let m : HfpMsg := { ver := 0x1#8, typ := 0xb#8, src := 2, dst := 0x1f#8, cls := 0, hops := 0xd#8, seq := 0x4#32, tag := 0x0#16, len := 0x20#16, body := [0x0#8, 0x0#8, 0x0#8, 0x0#8, 0x0#8, 0x0#8, 0x0#8, 0x0#8, 0x0#8, 0x0#8, 0x0#8, 0x0#8, 0x0#8, 0x0#8, 0x0#8, 0x0#8] }; let u := let u := fabOn State.reset; u.set HFP_CFG_ID (m.dst.toNat % 32); u.bset fun b => { b with reqs := [3, 5, 8].map fun k => { ask := { peer := m.src.val, cls := m.cls.val, init := 1, typ := 3, posted := true, addr := 8, len := 4, data := [], kind := .access }, tag := k, seq := k, route := 3 } }, 7, { ver := 0x1#8, typ := 0xb#8, src := 2, dst := 0x1f#8, cls := 0, hops := 0xd#8, seq := 0x4#32, tag := 0x0#16, len := 0x20#16, body := [0x0#8, 0x0#8, 0x0#8, 0x0#8, 0x0#8, 0x0#8, 0x0#8, 0x0#8, 0x0#8, 0x0#8, 0x0#8, 0x0#8, 0x0#8, 0x0#8, 0x0#8, 0x0#8] }, by decide +kernel⟩

theorem test_meets_HfpRequestsOut_6 : ∃ (s : State) (peer : Fin 32) (cls : Fin 4),
    ((s.hfp.reqs.find? (fun r => r.ask.posted && r.inStream peer.val cls.val)).any fun (r : HfpReq) => decide (2 ≤ r.ask.init ∧ s.quietBridge)) = true :=
  ⟨let peer : Fin 32 := 7; let cls : Fin 4 := 0; (fabOn State.reset).bset fun b => { b with reqs := [3, 5, 8].map fun k => { ask := { peer := peer.val, cls := cls.val, init := 3, typ := 3, posted := true, addr := 8, len := 4, data := [], kind := .access }, tag := k, seq := k, route := 3 } }, 7, 0, by decide +kernel⟩

theorem test_meets_HfpRequestsOut_7 : ∃ (s : State) (peer : Fin 32) (cls : Fin 4),
    ((s.hfp.reqs.find? (fun r => r.ask.posted && r.inStream peer.val cls.val)).any fun (r : HfpReq) => decide (r.ask.init < 2 ∧ r.ask.peer < 32 ∧ s.quietBridge)) = true :=
  ⟨let peer : Fin 32 := 7; let cls : Fin 4 := 0; (fabOn State.reset).bset fun b => { b with reqs := [3, 5, 8].map fun k => { ask := { peer := peer.val, cls := cls.val, init := 1, typ := 3, posted := k != 5, addr := 8, len := 4, data := [], kind := .access }, tag := k, seq := k, route := 3 } }, 7, 0, by decide +kernel⟩

theorem test_meets_HfpRequestsOut_8 : ∃ (s : State) (port : Fin 64) (m : HfpMsg),
    s.keepsMsg port { m with typ := 9 } ∧ beAt (msgData m) 0 1 ≠ 8 ∧ ((s.hfp.reqs.find? (fun r => r.ask.posted && r.inStream m.src.val m.cls.val && r.tag == m.tag.toNat)).any fun (r : HfpReq) => decide (2 ≤ r.ask.init ∧ s.quietBridge)) = true :=
  ⟨let m : HfpMsg := { ver := 0x1#8, typ := 0xb#8, src := 2, dst := 0x1f#8, cls := 0, hops := 0xd#8, seq := 0x4#32, tag := 0x0#16, len := 0x20#16, body := [0x0#8, 0x0#8, 0x0#8, 0x0#8, 0x0#8, 0x0#8, 0x0#8, 0x0#8, 0x0#8, 0x0#8, 0x0#8, 0x0#8, 0x0#8, 0x0#8, 0x0#8, 0x0#8] }; let u := let u := fabOn State.reset; u.set HFP_CFG_ID (m.dst.toNat % 32); u.bset fun b => { b with reqs := [m.tag.toNat, 5, 8].map fun k => { ask := { peer := m.src.val, cls := m.cls.val, init := 3, typ := 3, posted := true, addr := 8, len := 4, data := [], kind := .access }, tag := k, seq := k, route := 3 } }, 7, { ver := 0x1#8, typ := 0xb#8, src := 2, dst := 0x1f#8, cls := 0, hops := 0xd#8, seq := 0x4#32, tag := 0x0#16, len := 0x20#16, body := [0x0#8, 0x0#8, 0x0#8, 0x0#8, 0x0#8, 0x0#8, 0x0#8, 0x0#8, 0x0#8, 0x0#8, 0x0#8, 0x0#8, 0x0#8, 0x0#8, 0x0#8, 0x0#8] }, by decide +kernel⟩

theorem test_meets_HfpRequestsOut_9 : ∃ (s : State) (src : CmdSrc) (d : Desc),
    s.takesCommand d [0, 1] false ∧ (descBits d 16 8 ≤ 1 ∨ descBits d 16 8 = 0xFF) ∧ (descBits d 17 8 ≤ 31 ∨ descBits d 17 8 = 0xFF) ∧ descZero d 18 64 = true :=
  ⟨((idle State.reset).set (HFP_POISON_PEERS 0) 0xFFFF).set (HFP_POISON_PEERS 1) 0xFF00FF, .localRing, 0x11ff00000000000000000000000068620100#512, by decide +kernel⟩

theorem test_meets_HfpRequestsIn_0 : ∃ (s : State) (port : Fin 64) (m : HfpMsg),
    m.typ = 5 ∧ s.keepsMsg port m ∧ requestOk m = true ∧ beAt (msgData m) 4 2 = 4 ∧ beAt (msgData m) 0 4 < 2 ^ 26 ∧ readCause (beAt (msgData m) 0 4) = none ∧ s.busHeld = false ∧ s.hfp.busWait = [] ∧ s.hfp.rxStall = [] ∧ m.seq.toNat = SMap.get s.hfp.rxSeq 0 (4 * m.src.val + m.cls.val) ∧ SMap.get s.hfp.rxUnacked 0 (4 * m.src.val + m.cls.val) < 15 ∧ (s.routePort m.src.val).isSome = true ∧ ((s.inc HFP_RX_MSG_COUNT).localRead (.hfp m.src) (beAt (msgData m) 0 4)).2 = s.inc HFP_RX_MSG_COUNT :=
  ⟨let m : HfpMsg := { ver := 0x1#8, typ := 0x5#8, src := 19, dst := 0x0#8, cls := 3, hops := 0x3#8, seq := 0x2#32, tag := 0x0#16, len := 0x1c#16, body := [0x0#8, 0xf0#8, 0x0#8, 0x4#8, 0x0#8, 0x4#8, 0x0#8, 0x0#8, 0x62#8, 0x5b#8, 0xc9#8, 0xb0#8] }; let u := let u := fabOn State.reset; u.set HFP_CFG_ID (m.dst.toNat % 32); u.bset fun b => { b with rxSeq := [(4 * m.src.val + m.cls.val, m.seq.toNat)], rxUnacked := [] }, 7, { ver := 0x1#8, typ := 0x5#8, src := 19, dst := 0x0#8, cls := 3, hops := 0x3#8, seq := 0x2#32, tag := 0x0#16, len := 0x1c#16, body := [0x0#8, 0xf0#8, 0x0#8, 0x4#8, 0x0#8, 0x4#8, 0x0#8, 0x0#8, 0x62#8, 0x5b#8, 0xc9#8, 0xb0#8] }, by decide +kernel⟩

theorem test_meets_HfpRequestsIn_1 : ∃ (s : State) (port : Fin 64) (m : HfpMsg),
    m.typ = 4 ∧ s.keepsMsg port m ∧ requestOk m = true ∧ s.busHeld = false ∧ s.hfp.busWait = [] ∧ s.hfp.rxStall = [] ∧ s.power ≠ 2 ∧ s.peerMay m.src.val = false ∧ m.seq.toNat = SMap.get s.hfp.rxSeq 0 (4 * m.src.val + m.cls.val) ∧ SMap.get s.hfp.rxUnacked 0 (4 * m.src.val + m.cls.val) < 15 ∧ (s.routePort m.src.val).isSome = true :=
  ⟨let m : HfpMsg := { ver := 0x1#8, typ := 0x4#8, src := 2, dst := 0x0#8, cls := 0, hops := 0xd#8, seq := 0x4#32, tag := 0x0#16, len := 0x1c#16, body := [0x0#8, 0xd0#8, 0x12#8, 0xe0#8, 0x0#8, 0x4#8, 0x0#8, 0x0#8, 0x4b#8, 0x61#8, 0x7f#8, 0xa4#8] }; let u := (let u := fabOn State.reset; u.set HFP_CFG_ID (m.dst.toNat % 32)).set HFP_ACL_PEERS 0; u.bset fun b => { b with rxSeq := [(4 * m.src.val + m.cls.val, m.seq.toNat)], rxUnacked := [] }, 2, { ver := 0x1#8, typ := 0x4#8, src := 2, dst := 0x0#8, cls := 0, hops := 0xd#8, seq := 0x4#32, tag := 0x0#16, len := 0x1c#16, body := [0x0#8, 0xd0#8, 0x12#8, 0xe0#8, 0x0#8, 0x4#8, 0x0#8, 0x0#8, 0x4b#8, 0x61#8, 0x7f#8, 0xa4#8] }, by decide +kernel⟩

theorem test_meets_HfpRequestsIn_2 : ∃ (s : State) (port : Fin 64) (m : HfpMsg),
    s.keepsMsg port { m with typ := 6 } ∧ s.busHeld = false ∧ s.hfp.busWait = [] ∧ s.hfp.rxStall = [] ∧ requestOk { m with typ := 6 } = true ∧ 64 ≤ beAt (msgData m) 4 2 ∧ s.peerMay m.src.val = false ∧ m.seq.toNat = SMap.get s.hfp.rxSeq 0 (4 * m.src.val + m.cls.val) ∧ SMap.get s.hfp.rxUnacked 0 (4 * m.src.val + m.cls.val) < 15 ∧ (s.routePort m.src.val).isSome = true :=
  ⟨let m : HfpMsg := { ver := 0x1#8, typ := 0x6#8, src := 1, dst := 0x0#8, cls := 1, hops := 0x10#8, seq := 0x4#32, tag := 0x1#16, len := 0x58#16, body := [0x0#8, 0x0#8, 0x0#8, 0x0#8, 0x0#8, 0x40#8, 0x0#8, 0x0#8, 0x10#8, 0x0#8, 0x0#8, 0x0#8, 0x0#8, 0x0#8, 0x0#8, 0x0#8, 0x0#8, 0x0#8, 0x0#8, 0x0#8, 0x0#8, 0x0#8, 0x0#8, 0x0#8, 0x0#8, 0x0#8, 0x0#8, 0x0#8, 0x0#8, 0x0#8, 0x0#8, 0x0#8, 0x0#8, 0x0#8, 0x0#8, 0x0#8, 0x0#8, 0x0#8, 0x0#8, 0x0#8, 0x0#8, 0x0#8, 0x0#8, 0x0#8, 0x0#8, 0x0#8, 0x0#8, 0x0#8, 0x0#8, 0x0#8, 0x0#8, 0x0#8, 0x0#8, 0x0#8, 0x0#8, 0x0#8, 0x0#8, 0x0#8, 0x0#8, 0x0#8, 0x0#8, 0x0#8, 0x0#8, 0x0#8, 0x0#8, 0x0#8, 0x0#8, 0x0#8, 0x0#8, 0x0#8, 0x0#8, 0x0#8] }; let u := (let u := fabOn State.reset; u.set HFP_CFG_ID (m.dst.toNat % 32)).set HFP_ACL_PEERS 0; u.bset fun b => { b with rxSeq := [(4 * m.src.val + m.cls.val, m.seq.toNat)], rxUnacked := [] }, 7, { ver := 0x1#8, typ := 0x6#8, src := 1, dst := 0x0#8, cls := 1, hops := 0x10#8, seq := 0x4#32, tag := 0x1#16, len := 0x58#16, body := [0x0#8, 0x0#8, 0x0#8, 0x0#8, 0x0#8, 0x40#8, 0x0#8, 0x0#8, 0x10#8, 0x0#8, 0x0#8, 0x0#8, 0x0#8, 0x0#8, 0x0#8, 0x0#8, 0x0#8, 0x0#8, 0x0#8, 0x0#8, 0x0#8, 0x0#8, 0x0#8, 0x0#8, 0x0#8, 0x0#8, 0x0#8, 0x0#8, 0x0#8, 0x0#8, 0x0#8, 0x0#8, 0x0#8, 0x0#8, 0x0#8, 0x0#8, 0x0#8, 0x0#8, 0x0#8, 0x0#8, 0x0#8, 0x0#8, 0x0#8, 0x0#8, 0x0#8, 0x0#8, 0x0#8, 0x0#8, 0x0#8, 0x0#8, 0x0#8, 0x0#8, 0x0#8, 0x0#8, 0x0#8, 0x0#8, 0x0#8, 0x0#8, 0x0#8, 0x0#8, 0x0#8, 0x0#8, 0x0#8, 0x0#8, 0x0#8, 0x0#8, 0x0#8, 0x0#8, 0x0#8, 0x0#8, 0x0#8, 0x0#8] }, by decide +kernel⟩

theorem test_meets_HfpRequestsIn_3 : ∃ (s : State) (port : Fin 64) (m : HfpMsg),
    s.keepsMsg port { m with typ := 6 } ∧ s.busHeld = false ∧ s.hfp.busWait = [] ∧ s.hfp.rxStall = [] ∧ requestOk { m with typ := 6 } = true ∧ 64 ≤ beAt (msgData m) 4 2 ∧ s.peerMay m.src.val = true ∧ m.seq.toNat = SMap.get s.hfp.rxSeq 0 (4 * m.src.val + m.cls.val) ∧ SMap.get s.hfp.rxUnacked 0 (4 * m.src.val + m.cls.val) < 15 ∧ s.hif.running = none ∧ s.cmdPending = false ∧ leAt ((msgData m).drop 8) 0 64 = 0 ∧ (s.power = 0 ∨ s.power = 1) :=
  ⟨let m : HfpMsg := { ver := 0x1#8, typ := 0x6#8, src := 0, dst := 0x0#8, cls := 1, hops := 0x19#8, seq := 0x2#32, tag := 0x0#16, len := 0x58#16, body := [0x0#8, 0x0#8, 0x0#8, 0x0#8, 0x0#8, 0x40#8, 0x0#8, 0x0#8, 0x0#8, 0x0#8, 0x0#8, 0x0#8, 0x0#8, 0x0#8, 0x0#8, 0x0#8, 0x0#8, 0x0#8, 0x0#8, 0x0#8, 0x0#8, 0x0#8, 0x0#8, 0x0#8, 0x0#8, 0x0#8, 0x0#8, 0x0#8, 0x0#8, 0x0#8, 0x0#8, 0x0#8, 0x0#8, 0x0#8, 0x0#8, 0x0#8, 0x0#8, 0x0#8, 0x0#8, 0x0#8, 0x0#8, 0x0#8, 0x0#8, 0x0#8, 0x0#8, 0x0#8, 0x0#8, 0x0#8, 0x0#8, 0x0#8, 0x0#8, 0x0#8, 0x0#8, 0x0#8, 0x0#8, 0x0#8, 0x0#8, 0x0#8, 0x0#8, 0x0#8, 0x0#8, 0x0#8, 0x0#8, 0x0#8, 0x0#8, 0x0#8, 0x0#8, 0x0#8, 0x0#8, 0x0#8, 0x0#8, 0x0#8] }; let u := (let u := fabOn State.reset; u.set HFP_CFG_ID (m.dst.toNat % 32)).set HFP_ACL_PEERS (2 ^ 32 - 1); u.bset fun b => { b with rxSeq := [(4 * m.src.val + m.cls.val, m.seq.toNat)], rxUnacked := [] }, 21, { ver := 0x1#8, typ := 0x6#8, src := 0, dst := 0x0#8, cls := 1, hops := 0x19#8, seq := 0x2#32, tag := 0x0#16, len := 0x58#16, body := [0x0#8, 0x0#8, 0x0#8, 0x0#8, 0x0#8, 0x40#8, 0x0#8, 0x0#8, 0x0#8, 0x0#8, 0x0#8, 0x0#8, 0x0#8, 0x0#8, 0x0#8, 0x0#8, 0x0#8, 0x0#8, 0x0#8, 0x0#8, 0x0#8, 0x0#8, 0x0#8, 0x0#8, 0x0#8, 0x0#8, 0x0#8, 0x0#8, 0x0#8, 0x0#8, 0x0#8, 0x0#8, 0x0#8, 0x0#8, 0x0#8, 0x0#8, 0x0#8, 0x0#8, 0x0#8, 0x0#8, 0x0#8, 0x0#8, 0x0#8, 0x0#8, 0x0#8, 0x0#8, 0x0#8, 0x0#8, 0x0#8, 0x0#8, 0x0#8, 0x0#8, 0x0#8, 0x0#8, 0x0#8, 0x0#8, 0x0#8, 0x0#8, 0x0#8, 0x0#8, 0x0#8, 0x0#8, 0x0#8, 0x0#8, 0x0#8, 0x0#8, 0x0#8, 0x0#8, 0x0#8, 0x0#8, 0x0#8, 0x0#8] }, by decide +kernel⟩

theorem test_meets_HfpRequestsIn_4 : ∃ (s : State) (peer : Fin 32) (cls : Fin 4),
    s.hfpRuns = true ∧ SMap.get s.hfp.rxUnacked 0 (4 * peer.val + cls.val) ≠ 0 ∧ (s.routePort peer.val).isSome = true :=
  ⟨let peer : Fin 32 := 7; let cls : Fin 4 := 0; (fabOn State.reset).bset fun b => { b with rxSeq := [(4 * peer.val + cls.val, peer.val)], rxUnacked := [(4 * peer.val + cls.val, 3)] }, 7, 0, by decide +kernel⟩

theorem test_meets_LockedSequences_0 : ∃ (s : State) (src : CmdSrc) (d : Desc),
    src = .localRing ∧ s.takesCommand d [0, 1] false ∧ descBits d 16 8 < 32 ∧ descBits d 17 8 < 2 ∧ descZero d 18 24 = true ∧ descBits d 24 64 % 64 = 0 ∧ 64 ≤ descBits d 32 16 ∧ descBits d 32 16 ≤ 256 ∧ descBits d 32 16 % 4 = 0 ∧ descZero d 34 64 = true ∧ descBits d 16 8 ≠ s.ownId ∧ s.hfp.waitReq = [] ∧ s.maySend { peer := descBits d 16 8, cls := descBits d 17 8, init := 0, typ := 6, posted := false, addr := 0, len := descBits d 32 16, data := s.hostBytes (descBits d 24 64) (descBits d 32 16), kind := .cmd } :=
  ⟨(fabOn State.reset).set HFP_CFG_ID 30, .localRing, 0x48000000000000054000000000000001070000000000000000000000000fc90100#512, by decide +kernel⟩

theorem test_meets_LockedSequences_1 : ∃ (s : State) (src : CmdSrc) (d : Desc),
    src = .localRing ∧ s.takesCommand d [0, 1] false ∧ lockArgsOk d = true ∧ descBits d 16 8 ≠ s.ownId ∧ s.quietBridge ∧ s.up .fabric = true ∧ s.get HFP_LOCK_STATUS_BACKOFF_HOST = 0 ∧ s.maySend { peer := descBits d 16 8, cls := 0, init := 0, typ := 0x0A, posted := false, addr := 0, len := 0, data := lockReqBody (lockArgs d), kind := .lock } :=
  ⟨(fabOn State.reset).set HFP_CFG_ID 30, .localRing, 0x400000400000000000003c00000000000000107000000000000000000000000845b0000#512, by decide +kernel⟩

theorem test_meets_LockedSequences_2 : ∃ (s : State) (src : CmdSrc) (d : Desc),
    s.up .cox = true ∧ s.cox.coresHeld = false ∧ s.hfpRuns = true ∧ s.power ≠ 2 ∧ lockArgsOk d = true ∧ descBits d 16 8 ≠ s.ownId ∧ s.quietBridge ∧ s.get HFP_LOCK_STATUS_BACKOFF_COX = 0 ∧ s.maySend { peer := descBits d 16 8, cls := 1, init := 1, typ := 0x0A, posted := false, addr := 0, len := 0, data := lockReqBody (lockArgs d), kind := .lock } :=
  ⟨(fabOn State.reset).set HFP_CFG_ID 30 |>.set HFP_LOCK_STATUS_BACKOFF_COX 0, .localRing, 0x400000400000000000003c00000000000000107000000000000000000000000845b0000#512, by decide +kernel⟩

theorem test_meets_LockedSequences_3 : ∃ (s : State) (port : Fin 64) (m : HfpMsg) (cut : Option (Fin 4)),
    s.keepsMsg port { m with typ := 10 } ∧ s.quietBridge ∧ s.power ≠ 2 ∧ s.peerMay m.src.val = true ∧ m.seq.toNat = SMap.get s.hfp.rxSeq 0 (4 * m.src.val + m.cls.val) ∧ SMap.get s.hfp.rxUnacked 0 (4 * m.src.val + m.cls.val) < 15 ∧ ((lockBody (msgData m)).all fun o => o.kind == 0) = true ∧ (cut.all fun k => decide ((lockBody (msgData m)).length ≤ k.val)) = true :=
  ⟨let m : HfpMsg := { ver := 0x1#8, typ := 0xa#8, src := 27, dst := 0x0#8, cls := 0, hops := 0x6#8, seq := 0x3#32, tag := 0x2#16, len := 0x28#16, body := [0x0#8, 0x0#8, 0x0#8, 0x0#8, 0x0#8, 0x0#8, 0x0#8, 0x0#8, 0x4#8, 0x0#8, 0x0#8, 0x4#8, 0x0#8, 0x0#8, 0x0#8, 0x0#8, 0x4#8, 0x10#8, 0x0#8, 0x0#8, 0x0#8, 0x0#8, 0x0#8, 0x0#8] }; let u := (let u := fabOn State.reset; u.set HFP_CFG_ID (m.dst.toNat % 32)).set HFP_ACL_PEERS (2 ^ 32 - 1); u.bset fun b => { b with rxSeq := [(4 * m.src.val + m.cls.val, m.seq.toNat)], rxUnacked := [] }, 7, { ver := 0x1#8, typ := 0xa#8, src := 27, dst := 0x0#8, cls := 0, hops := 0x6#8, seq := 0x3#32, tag := 0x2#16, len := 0x28#16, body := [0x0#8, 0x0#8, 0x0#8, 0x0#8, 0x0#8, 0x0#8, 0x0#8, 0x0#8, 0x4#8, 0x0#8, 0x0#8, 0x4#8, 0x0#8, 0x0#8, 0x0#8, 0x0#8, 0x4#8, 0x10#8, 0x0#8, 0x0#8, 0x0#8, 0x0#8, 0x0#8, 0x0#8] }, (some 2), by decide +kernel⟩

theorem test_meets_LockedSequences_4 : ∃ (s : State) (port : Fin 64) (m : HfpMsg) (cut : Option (Fin 4)),
    s.keepsMsg port { m with typ := 10 } ∧ s.quietBridge ∧ s.power ≠ 2 ∧ s.peerMay m.src.val = true ∧ m.seq.toNat = SMap.get s.hfp.rxSeq 0 (4 * m.src.val + m.cls.val) ∧ SMap.get s.hfp.rxUnacked 0 (4 * m.src.val + m.cls.val) < 15 ∧ ((lockBody (msgData m)).all fun o => o.kind == 0) = true ∧ (cut.any fun k => decide (k.val < (lockBody (msgData m)).length)) = true ∧ (s.routePort m.src.val).isSome = true :=
  ⟨let m : HfpMsg := { ver := 0x1#8, typ := 0xa#8, src := 21, dst := 0x0#8, cls := 2, hops := 0x0#8, seq := 0x5#32, tag := 0x0#16, len := 0x28#16, body := [0x1#8, 0x0#8, 0x0#8, 0x0#8, 0x0#8, 0x0#8, 0x0#8, 0x0#8, 0x4#8, 0x0#8, 0x0#8, 0x8#8, 0x0#8, 0x0#8, 0x0#8, 0x0#8, 0x4#8, 0x10#8, 0x0#8, 0x0#8, 0x0#8, 0x0#8, 0x0#8, 0x0#8] }; let u := (let u := fabOn State.reset; u.set HFP_CFG_ID (m.dst.toNat % 32)).set HFP_ACL_PEERS (2 ^ 32 - 1); u.bset fun b => { b with rxSeq := [(4 * m.src.val + m.cls.val, m.seq.toNat)], rxUnacked := [] }, 2, { ver := 0x1#8, typ := 0xa#8, src := 21, dst := 0x0#8, cls := 2, hops := 0x0#8, seq := 0x5#32, tag := 0x0#16, len := 0x28#16, body := [0x1#8, 0x0#8, 0x0#8, 0x0#8, 0x0#8, 0x0#8, 0x0#8, 0x0#8, 0x4#8, 0x0#8, 0x0#8, 0x8#8, 0x0#8, 0x0#8, 0x0#8, 0x0#8, 0x4#8, 0x10#8, 0x0#8, 0x0#8, 0x0#8, 0x0#8, 0x0#8, 0x0#8] }, (some 0), by decide +kernel⟩

theorem test_meets_LockedSequences_5 : ∃ (s : State) (port : Fin 64) (m : HfpMsg),
    s.keepsMsg port { m with typ := 11 } ∧ ((s.openReq m.src.val m.tag.toNat).any fun (r : HfpReq) => decide (r.ask.kind = .lock ∧ ((s.hfp.lockOut).any fun (l : LockSeq) => decide (((s.hif.running).any fun (c : Running) => decide (c.cut = false ∧ r.ask.init = 0 ∧ l.holds = true ∧ s.hfp.busWait = [] ∧ s.hfp.rxStall = [] ∧ s.hfp.waitReq = [] ∧ s.hfp.stalled = [] ∧ s.hfp.lockCox = none)) = true)) = true)) = true :=
  ⟨let m : HfpMsg := { ver := 0x1#8, typ := 0xb#8, src := 2, dst := 0x1f#8, cls := 0, hops := 0xd#8, seq := 0x4#32, tag := 0x0#16, len := 0x20#16, body := [0x0#8, 0x0#8, 0x0#8, 0x0#8, 0x0#8, 0x0#8, 0x0#8, 0x0#8, 0x0#8, 0x0#8, 0x0#8, 0x0#8, 0x0#8, 0x0#8, 0x0#8, 0x0#8] }; let u := let u := fabOn State.reset; u.set HFP_CFG_ID (m.dst.toNat % 32); { (u.bset fun b => { b with lockOut := some { peer := 4, ops := [⟨0, true, 0, 0⟩], result := 64, holds := true }, reqs := [{ ask := { peer := m.src.val, cls := 0, init := 0, typ := 10, posted := false, addr := 8, len := 4, data := [], kind := .lock }, tag := m.tag.toNat, seq := 5, route := 3 }] }).set HFP_LOCK_STATUS_OUT_ACTIVE 1 with hif := { u.hif with running := some ⟨.localRing, 0x129, .lockedSeq, false⟩ } }, 7, { ver := 0x1#8, typ := 0xb#8, src := 2, dst := 0x1f#8, cls := 0, hops := 0xd#8, seq := 0x4#32, tag := 0x0#16, len := 0x20#16, body := [0x0#8, 0x0#8, 0x0#8, 0x0#8, 0x0#8, 0x0#8, 0x0#8, 0x0#8, 0x0#8, 0x0#8, 0x0#8, 0x0#8, 0x0#8, 0x0#8, 0x0#8, 0x0#8] }, by decide +kernel⟩

theorem test_meets_LockedSequences_6 : ∃ (s : State) (port : Fin 64) (m : HfpMsg),
    s.keepsMsg port { m with typ := 12 } ∧ s.on HFP_LOCK_STATUS_FAR_HELD = true ∧ s.get HFP_LOCK_STATUS_HOLDER = m.src.val ∧ s.hfp.busWait = [] ∧ s.hfp.rxStall = [] ∧ s.hfp.lockOut = none ∧ s.hfp.lockCox = none :=
  ⟨let m : HfpMsg := { ver := 0x1#8, typ := 0xb#8, src := 2, dst := 0x1f#8, cls := 0, hops := 0xd#8, seq := 0x4#32, tag := 0x0#16, len := 0x20#16, body := [0x0#8, 0x0#8, 0x0#8, 0x0#8, 0x0#8, 0x0#8, 0x0#8, 0x0#8, 0x0#8, 0x0#8, 0x0#8, 0x0#8, 0x0#8, 0x0#8, 0x0#8, 0x0#8] }; ((let u := fabOn State.reset; u.set HFP_CFG_ID (m.dst.toNat % 32)).set HFP_LOCK_STATUS_FAR_HELD 1).set HFP_LOCK_STATUS_HOLDER m.src.val, 7, { ver := 0x1#8, typ := 0xb#8, src := 2, dst := 0x1f#8, cls := 0, hops := 0xd#8, seq := 0x4#32, tag := 0x0#16, len := 0x20#16, body := [0x0#8, 0x0#8, 0x0#8, 0x0#8, 0x0#8, 0x0#8, 0x0#8, 0x0#8, 0x0#8, 0x0#8, 0x0#8, 0x0#8, 0x0#8, 0x0#8, 0x0#8, 0x0#8] }, by decide +kernel⟩

theorem test_meets_LockedSequences_7 : ∃ (s : State),
    s.up .fabric = true ∧ s.on HFP_LOCK_STATUS_FAR_HELD = true ∧ s.hfp.busWait = [] ∧ s.hfp.rxStall = [] ∧ s.hfp.lockOut = none ∧ s.hfp.lockCox = none :=
  ⟨(fabOn State.reset).set HFP_LOCK_STATUS_FAR_HELD 1, by decide +kernel⟩

theorem test_meets_LockedSequences_8 : ∃ (s : State) (cox : Bool),
    s.up .fabric = true ∧ s.quietBridge :=
  ⟨let u := (fabOn State.reset).set HFP_LOCK_STATUS_BACKOFF_HOST 77; u.bset fun b => { b with backEnd := [(0, 5)] }, false, by decide +kernel⟩

theorem test_meets_FabricCommitMembers_0 : ∃ (s : State) (port : Fin 64) (m : HfpMsg),
    s.keepsMsg port { m with typ := 13 } ∧ s.memberRefuses (cmitOf { m with typ := 13 }) ≠ 0 ∧ (s.routePort m.src.val).isSome = true :=
  ⟨let m : HfpMsg := { ver := 0x1#8, typ := 0xd#8, src := 16, dst := 0x0#8, cls := 3, hops := 0x9#8, seq := 0x3#32, tag := 0x4#16, len := 0x30#16, body := [0x1#8, 0x5#8, 0x0#8, 0x3#8, 0x0#8, 0x0#8, 0x0#8, 0x4#8, 0x0#8, 0x0#8, 0x0#8, 0x11#8, 0x2e#8, 0xb#8, 0x0#8, 0x0#8, 0x36#8, 0xd#8, 0x52#8, 0x0#8, 0x0#8, 0x0#8, 0x0#8, 0x8#8, 0x0#8, 0x0#8, 0x0#8, 0x0#8, 0x0#8, 0x0#8, 0x0#8, 0x0#8] }; let u := fabOn State.reset; u.set HFP_CFG_ID (m.dst.toNat % 32), 7, { ver := 0x1#8, typ := 0xd#8, src := 16, dst := 0x0#8, cls := 3, hops := 0x9#8, seq := 0x3#32, tag := 0x4#16, len := 0x30#16, body := [0x1#8, 0x5#8, 0x0#8, 0x3#8, 0x0#8, 0x0#8, 0x0#8, 0x4#8, 0x0#8, 0x0#8, 0x0#8, 0x11#8, 0x2e#8, 0xb#8, 0x0#8, 0x0#8, 0x36#8, 0xd#8, 0x52#8, 0x0#8, 0x0#8, 0x0#8, 0x0#8, 0x8#8, 0x0#8, 0x0#8, 0x0#8, 0x0#8, 0x0#8, 0x0#8, 0x0#8, 0x0#8] }, by decide +kernel⟩

theorem test_meets_FabricCommitMembers_1 : ∃ (s : State) (port : Fin 64) (m : HfpMsg),
    s.keepsMsg port { m with typ := 13 } ∧ s.memberRefuses (cmitOf { m with typ := 13 }) = 0 ∧ (cmitOf m).update = false :=
  ⟨let m : HfpMsg := { ver := 0x1#8, typ := 0xd#8, src := 16, dst := 0x0#8, cls := 3, hops := 0x9#8, seq := 0x3#32, tag := 0x4#16, len := 0x30#16, body := [0x1#8, 0x5#8, 0x0#8, 0x3#8, 0x0#8, 0x0#8, 0x0#8, 0x4#8, 0x0#8, 0x0#8, 0x0#8, 0x11#8, 0x2e#8, 0xb#8, 0x0#8, 0x0#8, 0x36#8, 0xd#8, 0x52#8, 0x0#8, 0x0#8, 0x0#8, 0x0#8, 0x8#8, 0x0#8, 0x0#8, 0x0#8, 0x0#8, 0x0#8, 0x0#8, 0x0#8, 0x0#8] }; ((let u := fabOn State.reset; u.set HFP_CFG_ID (m.dst.toNat % 32)).set HFP_FAB_STATUS_AUTH_VALID 1).set HFP_FAB_STATUS_AUTH_ID m.src.val |>.set HFP_FAB_STATUS_ADRIFT 0, 7, { ver := 0x1#8, typ := 0xd#8, src := 16, dst := 0x0#8, cls := 3, hops := 0x9#8, seq := 0x3#32, tag := 0x4#16, len := 0x30#16, body := [0x1#8, 0x5#8, 0x0#8, 0x3#8, 0x0#8, 0x0#8, 0x0#8, 0x4#8, 0x0#8, 0x0#8, 0x0#8, 0x11#8, 0x2e#8, 0xb#8, 0x0#8, 0x0#8, 0x36#8, 0xd#8, 0x52#8, 0x0#8, 0x0#8, 0x0#8, 0x0#8, 0x8#8, 0x0#8, 0x0#8, 0x0#8, 0x0#8, 0x0#8, 0x0#8, 0x0#8, 0x0#8] }, by decide +kernel⟩

theorem test_meets_FabricCommitMembers_2 : ∃ (s : State) (port : Fin 64) (m : HfpMsg),
    s.keepsMsg port { m with typ := 13 } ∧ ((s.heldFrom m).any fun (c : FabMember) => decide (c.phase = 2 ∧ s.frozen = false ∧ s.domNs 0 < c.t ∧ c.update = false ∧ ((s.fab.job).any fun (j : CommitJob) => decide (j.upd = false ∧ (s.routePort c.from_).isSome = true ∧ c.from_ < 32)) = true)) = true :=
  ⟨let m : HfpMsg := { ver := 0x1#8, typ := 0xd#8, src := 16, dst := 0x0#8, cls := 3, hops := 0x9#8, seq := 0x3#32, tag := 0x4#16, len := 0x30#16, body := [0x1#8, 0x5#8, 0x0#8, 0x3#8, 0x0#8, 0x0#8, 0x0#8, 0x4#8, 0x0#8, 0x0#8, 0x0#8, 0x11#8, 0x2e#8, 0xb#8, 0x0#8, 0x0#8, 0x36#8, 0xd#8, 0x52#8, 0x0#8, 0x0#8, 0x0#8, 0x0#8, 0x8#8, 0x0#8, 0x0#8, 0x0#8, 0x0#8, 0x0#8, 0x0#8, 0x0#8, 0x0#8] }; let u := (let u := fabOn State.reset; u.set HFP_CFG_ID (m.dst.toNat % 32)).set GLB_CFG_STATE_STATE 1; let v := u.bset fun b => { b with fabMember := some { from_ := m.src.val, t := 2 ^ 60, fcg := 9, id := beAt m.body 2 2, mask := 1, dryRun := false, update := false, phase := 2 } }; { v with fab := { v.fab with job := some { mask := 1, timed := true, fabric := true, dryRun := false, id := 7, heat := {}, at_ := 2 ^ 60, upd := false, heated := true } } }, 7, { ver := 0x1#8, typ := 0xd#8, src := 16, dst := 0x0#8, cls := 3, hops := 0x9#8, seq := 0x3#32, tag := 0x4#16, len := 0x30#16, body := [0x1#8, 0x5#8, 0x0#8, 0x3#8, 0x0#8, 0x0#8, 0x0#8, 0x4#8, 0x0#8, 0x0#8, 0x0#8, 0x11#8, 0x2e#8, 0xb#8, 0x0#8, 0x0#8, 0x36#8, 0xd#8, 0x52#8, 0x0#8, 0x0#8, 0x0#8, 0x0#8, 0x8#8, 0x0#8, 0x0#8, 0x0#8, 0x0#8, 0x0#8, 0x0#8, 0x0#8, 0x0#8] }, by decide +kernel⟩

theorem test_meets_FabricCommitMembers_3 : ∃ (s : State) (port : Fin 64) (m : HfpMsg),
    s.keepsMsg port { m with typ := 13 } ∧ ((s.heldFrom m).any fun (c : FabMember) => decide ((s.commitState = 1 ∨ s.commitState = 2) ∧ c.update = false ∧ (s.routePort c.from_).isSome = true ∧ c.from_ < 32)) = true :=
  ⟨let m : HfpMsg := { ver := 0x1#8, typ := 0xd#8, src := 16, dst := 0x0#8, cls := 3, hops := 0x9#8, seq := 0x3#32, tag := 0x4#16, len := 0x30#16, body := [0x1#8, 0x5#8, 0x0#8, 0x3#8, 0x0#8, 0x0#8, 0x0#8, 0x4#8, 0x0#8, 0x0#8, 0x0#8, 0x11#8, 0x2e#8, 0xb#8, 0x0#8, 0x0#8, 0x36#8, 0xd#8, 0x52#8, 0x0#8, 0x0#8, 0x0#8, 0x0#8, 0x8#8, 0x0#8, 0x0#8, 0x0#8, 0x0#8, 0x0#8, 0x0#8, 0x0#8, 0x0#8] }; let u := (let u := fabOn State.reset; u.set HFP_CFG_ID (m.dst.toNat % 32)).set GLB_CFG_STATE_STATE 2; let v := u.bset fun b => { b with fabMember := some { from_ := m.src.val, t := 2 ^ 60, fcg := 9, id := beAt m.body 2 2, mask := 1, dryRun := false, update := false, phase := 2 } }; { v with fab := { v.fab with job := some { mask := 1, timed := true, fabric := true, dryRun := false, id := 7, heat := {}, at_ := 2 ^ 60, upd := false, heated := true } } }, 7, { ver := 0x1#8, typ := 0xd#8, src := 16, dst := 0x0#8, cls := 3, hops := 0x9#8, seq := 0x3#32, tag := 0x4#16, len := 0x30#16, body := [0x1#8, 0x5#8, 0x0#8, 0x3#8, 0x0#8, 0x0#8, 0x0#8, 0x4#8, 0x0#8, 0x0#8, 0x0#8, 0x11#8, 0x2e#8, 0xb#8, 0x0#8, 0x0#8, 0x36#8, 0xd#8, 0x52#8, 0x0#8, 0x0#8, 0x0#8, 0x0#8, 0x8#8, 0x0#8, 0x0#8, 0x0#8, 0x0#8, 0x0#8, 0x0#8, 0x0#8, 0x0#8] }, by decide +kernel⟩

theorem test_meets_FabricCommitMembers_4 : ∃ (s : State),
    ((s.hfp.fabMember).any fun (c : FabMember) => decide (c.phase = 2 ∧ c.update = false)) = true :=
  ⟨let u := (let u := fabOn State.reset; u.set HFP_CFG_ID (4)).set GLB_CFG_STATE_STATE 1; let v := u.bset fun b => { b with fabMember := some { from_ := 5, t := 2 ^ 60, fcg := 9, id := 7, mask := 1, dryRun := false, update := false, phase := 2 } }; { v with fab := { v.fab with job := some { mask := 1, timed := true, fabric := true, dryRun := false, id := 7, heat := {}, at_ := 2 ^ 60, upd := false, heated := true } } }, by decide +kernel⟩

theorem test_meets_FabricCommitMembers_5 : ∃ (s : State) (port : Fin 64) (m : HfpMsg),
    s.keepsMsg port { m with typ := 13 } ∧ s.ledBy m = none ∧ ((s.heldFrom m).any fun (c : FabMember) => decide (c.update = true ∧ s.updLive = 7 ∧ s.rst.pw = [] ∧ (s.routePort c.from_).isSome = true ∧ c.from_ < 32)) = true :=
  ⟨let m : HfpMsg := { ver := 0x1#8, typ := 0xd#8, src := 16, dst := 0x0#8, cls := 3, hops := 0x9#8, seq := 0x3#32, tag := 0x4#16, len := 0x30#16, body := [0x1#8, 0x5#8, 0x0#8, 0x3#8, 0x0#8, 0x0#8, 0x0#8, 0x4#8, 0x0#8, 0x0#8, 0x0#8, 0x11#8, 0x2e#8, 0xb#8, 0x0#8, 0x0#8, 0x36#8, 0xd#8, 0x52#8, 0x0#8, 0x0#8, 0x0#8, 0x0#8, 0x8#8, 0x0#8, 0x0#8, 0x0#8, 0x0#8, 0x0#8, 0x0#8, 0x0#8, 0x0#8] }; let u := (let u := fabOn State.reset; u.set HFP_CFG_ID (m.dst.toNat % 32)).set UPD_STATUS_STATE 7; { (u.bset fun b => { b with fabMember := some { from_ := m.src.val, t := 2 ^ 60, fcg := 9, id := beAt m.body 2 2, mask := 1, dryRun := false, update := true, phase := 3 } }) with rst := { u.rst with pw := [] } }, 7, { ver := 0x1#8, typ := 0xd#8, src := 16, dst := 0x0#8, cls := 3, hops := 0x9#8, seq := 0x3#32, tag := 0x4#16, len := 0x30#16, body := [0x1#8, 0x5#8, 0x0#8, 0x3#8, 0x0#8, 0x0#8, 0x0#8, 0x4#8, 0x0#8, 0x0#8, 0x0#8, 0x11#8, 0x2e#8, 0xb#8, 0x0#8, 0x0#8, 0x36#8, 0xd#8, 0x52#8, 0x0#8, 0x0#8, 0x0#8, 0x0#8, 0x8#8, 0x0#8, 0x0#8, 0x0#8, 0x0#8, 0x0#8, 0x0#8, 0x0#8, 0x0#8] }, by decide +kernel⟩

theorem test_meets_FabricCommitInitiator_0 : ∃ (s : State) (port : Fin 64) (m : HfpMsg),
    s.keepsMsg port { m with typ := 13 } ∧ ((s.ledBy m).any fun (f : FabInit) => decide (f.armed = false ∧ f.aborting = false ∧ f.waiting.contains m.src.val = true ∧ (f.waiting.filter (· ≠ m.src.val)).isEmpty = false)) = true :=
  ⟨let m : HfpMsg := { ver := 0x1#8, typ := 0xd#8, src := 16, dst := 0x0#8, cls := 3, hops := 0x9#8, seq := 0x3#32, tag := 0x4#16, len := 0x30#16, body := [0x1#8, 0x5#8, 0x0#8, 0x3#8, 0x0#8, 0x0#8, 0x0#8, 0x4#8, 0x0#8, 0x0#8, 0x0#8, 0x11#8, 0x2e#8, 0xb#8, 0x0#8, 0x0#8, 0x36#8, 0xd#8, 0x52#8, 0x0#8, 0x0#8, 0x0#8, 0x0#8, 0x8#8, 0x0#8, 0x0#8, 0x0#8, 0x0#8, 0x0#8, 0x0#8, 0x0#8, 0x0#8] }; let u := (let u := fabOn State.reset; u.set HFP_CFG_ID (m.dst.toNat % 32)).set GLB_CFG_STATE_STATE 1; let v := u.bset fun b => { b with fabInit := some { members := [2, 5], waiting := [m.src.val, 40], t := 2 ^ 60, fcg := 9, id := beAt m.body 2 2, mask := 1 } }; { v with fab := { v.fab with job := some { mask := 1, timed := true, fabric := true, dryRun := false, id := 7, heat := {}, at_ := 2 ^ 60, upd := false, heated := true } } }, 7, { ver := 0x1#8, typ := 0xd#8, src := 16, dst := 0x0#8, cls := 3, hops := 0x9#8, seq := 0x3#32, tag := 0x4#16, len := 0x30#16, body := [0x1#8, 0x5#8, 0x0#8, 0x3#8, 0x0#8, 0x0#8, 0x0#8, 0x4#8, 0x0#8, 0x0#8, 0x0#8, 0x11#8, 0x2e#8, 0xb#8, 0x0#8, 0x0#8, 0x36#8, 0xd#8, 0x52#8, 0x0#8, 0x0#8, 0x0#8, 0x0#8, 0x8#8, 0x0#8, 0x0#8, 0x0#8, 0x0#8, 0x0#8, 0x0#8, 0x0#8, 0x0#8] }, by decide +kernel⟩

theorem test_meets_FabricCommitInitiator_1 : ∃ (s : State) (port : Fin 64) (m : HfpMsg),
    s.keepsMsg port { m with typ := 13 } ∧ ((s.ledBy m).any fun (f : FabInit) => decide (f.armed = true ∧ f.aborting = false ∧ f.update = false ∧ (f.waiting.filter (· ≠ m.src.val)).isEmpty = false)) = true :=
  ⟨let m : HfpMsg := { ver := 0x1#8, typ := 0xd#8, src := 16, dst := 0x0#8, cls := 3, hops := 0x9#8, seq := 0x3#32, tag := 0x4#16, len := 0x30#16, body := [0x1#8, 0x5#8, 0x0#8, 0x3#8, 0x0#8, 0x0#8, 0x0#8, 0x4#8, 0x0#8, 0x0#8, 0x0#8, 0x11#8, 0x2e#8, 0xb#8, 0x0#8, 0x0#8, 0x36#8, 0xd#8, 0x52#8, 0x0#8, 0x0#8, 0x0#8, 0x0#8, 0x8#8, 0x0#8, 0x0#8, 0x0#8, 0x0#8, 0x0#8, 0x0#8, 0x0#8, 0x0#8] }; let u := (let u := fabOn State.reset; u.set HFP_CFG_ID (m.dst.toNat % 32)).set GLB_CFG_STATE_STATE 1; let v := u.bset fun b => { b with fabInit := some { members := [2, 5], waiting := [m.src.val, 40], t := 2 ^ 60, fcg := 9, id := beAt m.body 2 2, mask := 1, armed := true } }; { v with fab := { v.fab with job := some { mask := 1, timed := true, fabric := true, dryRun := false, id := 7, heat := {}, at_ := 2 ^ 60, upd := false, heated := true } } }, 7, { ver := 0x1#8, typ := 0xd#8, src := 16, dst := 0x0#8, cls := 3, hops := 0x9#8, seq := 0x3#32, tag := 0x4#16, len := 0x30#16, body := [0x1#8, 0x5#8, 0x0#8, 0x3#8, 0x0#8, 0x0#8, 0x0#8, 0x4#8, 0x0#8, 0x0#8, 0x0#8, 0x11#8, 0x2e#8, 0xb#8, 0x0#8, 0x0#8, 0x36#8, 0xd#8, 0x52#8, 0x0#8, 0x0#8, 0x0#8, 0x0#8, 0x8#8, 0x0#8, 0x0#8, 0x0#8, 0x0#8, 0x0#8, 0x0#8, 0x0#8, 0x0#8] }, by decide +kernel⟩

theorem test_meets_FabricCommitInitiator_2 : ∃ (s : State),
    ((s.hfp.fabInit).any fun (f : FabInit) => decide (f.armed = false ∧ f.aborting = false ∧ f.update = false ∧ f.waiting ≠ [] ∧ (f.failed.all fun e => e.2 != 5) = true ∧ f.own ≠ some 5)) = true :=
  ⟨let u := (let u := fabOn State.reset; u.set HFP_CFG_ID (4)).set GLB_CFG_STATE_STATE 1; let v := u.bset fun b => { b with fabInit := some { members := [2, 5], waiting := [4], t := 2 ^ 60, fcg := 9, id := 7, mask := 1 } }; { v with fab := { v.fab with job := some { mask := 1, timed := true, fabric := true, dryRun := false, id := 7, heat := {}, at_ := 2 ^ 60, upd := false, heated := true } } }, by decide +kernel⟩

theorem test_meets_FabricCommitInitiator_3 : ∃ (s : State),
    ((s.hfp.fabInit).any fun (f : FabInit) => decide (f.armed = true ∧ f.aborting = false ∧ f.done = false ∧ f.update = false)) = true :=
  ⟨let u := (let u := fabOn State.reset; u.set HFP_CFG_ID (4)).set GLB_CFG_STATE_STATE 1; let v := u.bset fun b => { b with fabInit := some { members := [2, 5], waiting := [4], t := 2 ^ 60, fcg := 9, id := 7, mask := 1, armed := true } }; { v with fab := { v.fab with job := some { mask := 1, timed := true, fabric := true, dryRun := false, id := 7, heat := {}, at_ := 2 ^ 60, upd := false, heated := true } } }, by decide +kernel⟩

theorem test_meets_FabricCommitInitiator_4 : ∃ (s : State),
    ((s.hfp.fabInit).any fun (f : FabInit) => decide (f.aborting = true ∧ f.waiting ≠ [] ∧ s.domNs 0 < f.t ∧ (f.waiting.all fun p => decide (p < 32) && (s.routePort p).isSome) = true)) = true :=
  ⟨let u := (let u := fabOn State.reset; u.set HFP_CFG_ID (4)).set GLB_CFG_STATE_STATE 1; let v := u.bset fun b => { b with fabInit := some { members := [2, 5], waiting := [4, 5], t := 2 ^ 60, fcg := 9, id := 7, mask := 1, aborting := true } }; { v with fab := { v.fab with job := some { mask := 1, timed := true, fabric := true, dryRun := false, id := 7, heat := {}, at_ := 2 ^ 60, upd := false, heated := true } } }, by decide +kernel⟩

theorem test_meets_FabricCommitInitiator_5 : ∃ (s : State),
    ((s.hfp.fabInit).any fun (f : FabInit) => decide (f.aborting = true ∧ (f.waiting = [] ∨ f.t ≤ s.domNs 0))) = true :=
  ⟨let u := (let u := fabOn State.reset; u.set HFP_CFG_ID (4)).set GLB_CFG_STATE_STATE 1; let v := u.bset fun b => { b with fabInit := some { members := [2, 5], waiting := [], t := 2 ^ 60, fcg := 9, id := 7, mask := 1, aborting := true } }; { v with fab := { v.fab with job := some { mask := 1, timed := true, fabric := true, dryRun := false, id := 7, heat := {}, at_ := 2 ^ 60, upd := false, heated := true } } }, by decide +kernel⟩

theorem test_meets_FabricCommitInitiator_6 : ∃ (s : State),
    ((s.hfp.fabInit).any fun (f : FabInit) => decide (f.update = true ∧ f.done = true ∧ f.aborting = false ∧ s.updLive = 0 ∧ (f.waiting.all fun p => decide (p < 32) && (s.routePort p).isSome) = true)) = true :=
  ⟨let u := (let u := (fabOn State.reset).set UPD_STATUS_STATE 0; u.set HFP_CFG_ID (4)).set GLB_CFG_STATE_STATE 1; let v := u.bset fun b => { b with fabInit := some { members := [2, 5], waiting := [4, 5], t := 2 ^ 60, fcg := 9, id := 7, mask := 1, update := true, done := true } }; { v with fab := { v.fab with job := some { mask := 1, timed := true, fabric := true, dryRun := false, id := 7, heat := {}, at_ := 2 ^ 60, upd := false, heated := true } } }, by decide +kernel⟩

theorem test_meets_RingsAndDoorbells_0 : ∃ (s : State) (who : Initiator) (ring : Ring) (value : Word),
    s.takesWrite who (ringCfg ring) (withBit value 0) ∧ s.on (ringEn ring) = false ∧ s.hif.heldEvents = [] :=
  ⟨let ring : Ring := .evt; let u := (let u := up State.reset; let v := (u.set HIF_CTRL_ENABLE 1); { v with hif := { v.hif with stopped := [], cmdProd := 0, cmdCons := 0, evtProd := 0, evtCons := 0, txProd := [], txCons := [], rxProd := [], rxCons := [], running := none, heldEvents := [] } }); u.set (ringEn ring) 0, .jtag, .evt, 0x61#32, by decide +kernel⟩

theorem test_meets_RingsAndDoorbells_1 : ∃ (s : State) (who : Initiator) (ring : Ring) (value : Word),
    s.takesWrite who (ringCfg ring) (noBit value 0) ∧ s.hif.heldEvents = [] :=
  ⟨let ring : Ring := .evt; let u := (let u := up State.reset; let v := (u.set HIF_CTRL_ENABLE 1); { v with hif := { v.hif with stopped := [], cmdProd := 0, cmdCons := 0, evtProd := 0, evtCons := 0, txProd := [], txCons := [], rxProd := [], rxCons := [], running := none, heldEvents := [] } }); u.set (ringEn ring) 1, .jtag, .evt, 0x61#32, by decide +kernel⟩

theorem test_meets_RingsAndDoorbells_2 : ∃ (s : State),
    s.up .host = true ∧ s.on HIF_CTRL_ENABLE = true ∧ s.ringsAgree [] = true :=
  ⟨let u := (let u := up State.reset; let v := (u.set HIF_CTRL_ENABLE 1); { v with hif := { v.hif with stopped := [], cmdProd := 0, cmdCons := 0, evtProd := 0, evtCons := 0, txProd := [], txCons := [], rxProd := [], rxCons := [], running := none, heldEvents := [] } }); let w := u.hostPut (u.get HIF_DB_BASE_ADDR * 4096) (leBytes 256 0); w.set HIF_CMD_CFG_EN 1, by decide +kernel⟩

theorem test_meets_RingsAndDoorbells_3 : ∃ (s : State),
    s.up .host = true ∧ s.on HIF_CTRL_ENABLE = true ∧ s.ringRuns (.tx 5) = true ∧ s.ringsAgree [.tx 5] = true ∧ ringSize (s.get (ringLog (.tx 5))) < s.ringLead (.tx 5) :=
  ⟨let u := (let u := up State.reset; let v := (u.set HIF_CTRL_ENABLE 1); { v with hif := { v.hif with stopped := [], cmdProd := 0, cmdCons := 0, evtProd := 0, evtCons := 0, txProd := [], txCons := [], rxProd := [], rxCons := [], running := none, heldEvents := [] } }); let w := (((u.set (HIF_TX_CFG_EN 5) 1).set HIF_ST_BASE_ADDR 3).set (HIF_TX_BASE_ADDR 5) 64).set (HIF_TX_CFG_LOG2_SIZE 5) 6; let x := { w with hif := { w.hif with txProd := [(5, 1)] } }; (x.hostPut (x.get HIF_DB_BASE_ADDR * 4096) (leBytes 256 0)).hostWr (x.get HIF_DB_BASE_ADDR * 4096 + 0x54) 4 5000, by decide +kernel⟩

theorem test_meets_RingsAndDoorbells_4 : ∃ (s : State) (who : Initiator),
    s.takesWrite who HIF_KICK 1 ∧ s.on HIF_CTRL_ENABLE = true ∧ s.ringsAgree [] = true :=
  ⟨let u := (let u := up State.reset; let v := (u.set HIF_CTRL_ENABLE 1); { v with hif := { v.hif with stopped := [], cmdProd := 0, cmdCons := 0, evtProd := 0, evtCons := 0, txProd := [], txCons := [], rxProd := [], rxCons := [], running := none, heldEvents := [] } }); let w := u.hostPut (u.get HIF_DB_BASE_ADDR * 4096) (leBytes 256 0); w.set HIF_CMD_CFG_EN 1, .jtag, by decide +kernel⟩

theorem test_meets_RingsAndDoorbells_5 : ∃ (s : State),
    ((s.nextTxRing).any fun (q : Fin 16) => decide (s.framesStopped = false ∧ s.up .fabric = true ∧ 60 ≤ bits (s.hostRd (s.txSlot q) 32) 64 16 ∧ bits (s.hostRd (s.txSlot q) 32) 64 16 ≤ 9212 ∧ bits (s.hostRd (s.txSlot q) 32) 112 8 < 64 ∧ bits (s.hostRd (s.txSlot q) 32) 82 14 = 0 ∧ bits (s.hostRd (s.txSlot q) 32) 120 72 = 0 ∧ bits (s.hostRd (s.txSlot q) 32) 201 7 = 0 ∧ bits (s.hostRd (s.txSlot q) 32) 208 48 = 0)) = true :=
  ⟨let u := (let u := up State.reset; let v := (u.set HIF_CTRL_ENABLE 1); { v with hif := { v.hif with stopped := [], cmdProd := 0, cmdCons := 0, evtProd := 0, evtCons := 0, txProd := [], txCons := [], rxProd := [], rxCons := [], running := none, heldEvents := [] } }); let w := (((u.set (HIF_TX_CFG_EN 5) 1).set HIF_ST_BASE_ADDR 3).set (HIF_TX_BASE_ADDR 5) 64).set (HIF_TX_CFG_LOG2_SIZE 5) 6; let x := { w with hif := { w.hif with txProd := [(5, 1)] } }; x.hostPut 4096 (leBytes 32 (4 * 4096 + 90 * 2 ^ 64 + 7 * 2 ^ 96 + 2 ^ 81 + 9 * 2 ^ 112)), by decide +kernel⟩

theorem test_meets_RingsAndDoorbells_6 : ∃ (s : State),
    ((s.nextTxRing).any fun (q : Fin 16) => decide (s.framesStopped = false ∧ (bits (s.hostRd (s.txSlot q) 32) 64 16 < 60 ∨ 9212 < bits (s.hostRd (s.txSlot q) 32) 64 16 ∨ 64 ≤ bits (s.hostRd (s.txSlot q) 32) 112 8 ∨ bits (s.hostRd (s.txSlot q) 32) 82 14 ≠ 0 ∨ bits (s.hostRd (s.txSlot q) 32) 120 72 ≠ 0))) = true :=
  ⟨let u := (let u := up State.reset; let v := (u.set HIF_CTRL_ENABLE 1); { v with hif := { v.hif with stopped := [], cmdProd := 0, cmdCons := 0, evtProd := 0, evtCons := 0, txProd := [], txCons := [], rxProd := [], rxCons := [], running := none, heldEvents := [] } }); let w := (((u.set (HIF_TX_CFG_EN 5) 1).set HIF_ST_BASE_ADDR 3).set (HIF_TX_BASE_ADDR 5) 64).set (HIF_TX_CFG_LOG2_SIZE 5) 6; let x := { w with hif := { w.hif with txProd := [(5, 1)] } }; x.hostPut 4096 (leBytes 32 (4 * 4096 + 9 * 2 ^ 64)), by decide +kernel⟩

theorem test_meets_HostInterfaceRows_0 : ∃ (s : State),
    s.alive = true :=
  ⟨State.reset, by decide +kernel⟩

theorem test_meets_HostInterfaceRows_1 : ∃ (s : State),
    s.up .host = true :=
  ⟨(evtOn (State.reset)), by decide +kernel⟩

theorem test_meets_HostInterfaceRows_2 : ∃ (s : State) (lk : Fin 3 × Fin 4),
    s.up .host = true :=
  ⟨(evtOn (State.reset)), ((2 : Fin 3), (3 : Fin 4)), by decide +kernel⟩

theorem test_meets_HostInterfaceRows_3 : ∃ (s : State),
    s.up .host = true :=
  ⟨(evtOn (State.reset)), by decide +kernel⟩

theorem test_meets_HostInterfaceRows_4 : ∃ (s : State),
    s.up .host = true :=
  ⟨(evtOn (State.reset)), by decide +kernel⟩

theorem test_meets_HostInterfaceRows_5 : ∃ (s : State) (source : Fin 48),
    SMap.get s.hif.holdoff 0 source.val ≠ 2 :=
  ⟨State.reset, 23, by decide +kernel⟩

theorem test_meets_HostInterfaceRows_6 : ∃ (s : State) (source : Fin 48),
    SMap.get s.hif.holdoff 0 source.val = 2 ∧ (s.sourceVector source.val).1 = true ∧ s.hif.pci.msixOn = true ∧ s.msixMasked (s.sourceVector source.val).2.1 = false :=
  ⟨let source : Fin 48 := 23; let u := act0 State.reset; let v := (((u.set (HIF_TX_CFG_VEC_EN (source.val % 16)) 1).set (HIF_RX_CFG_VEC_EN (source.val % 16)) 1).set (HIF_EVT_VEC_EN (source.val % 16)) 1); { v with hif := { v.hif with holdoff := [(source.val, 2)], pci := { v.hif.pci with msixOn := true, msixMask := false }, msixTab := (List.range 64).map fun k => (4 * k + 3, 0) } }, 23, by decide +kernel⟩

theorem test_meets_HostInterfaceRows_7 : ∃ (s : State) (source : Fin 48),
    SMap.get s.hif.holdoff 0 source.val = 2 ∧ (s.sourceVector source.val).1 = true ∧ s.hif.pci.msixOn = true ∧ s.msixMasked (s.sourceVector source.val).2.1 = true :=
  ⟨let source : Fin 48 := 23; let u := act0 State.reset; let v := (((u.set (HIF_TX_CFG_VEC_EN (source.val % 16)) 1).set (HIF_RX_CFG_VEC_EN (source.val % 16)) 1).set (HIF_EVT_VEC_EN (source.val % 16)) 1); { v with hif := { v.hif with holdoff := [(source.val, 2)], pci := { v.hif.pci with msixOn := true, msixMask := false }, msixTab := [] } }, 23, by decide +kernel⟩

theorem test_meets_HostInterfaceRows_8 : ∃ (s : State) (src : CmdSrc) (d : Desc),
    s.takesCommand d [0, 1, 2] false ∧ descZero d 16 64 = true :=
  ⟨idle State.reset, .localRing, 0x68d0100#512, by decide +kernel⟩

theorem test_meets_HostInterfaceRows_9 : ∃ (s : State),
    s.cmdRuns = true ∧ s.hif.running = none ∧ s.hif.cmdProd ≠ s.hif.cmdCons ∧ descOp (BitVec.ofNat 512 (s.hostRd s.cmdSlot 64)) = 0 :=
  ⟨let u := (let u := up State.reset; let v := (u.set HIF_CTRL_ENABLE 1); { v with hif := { v.hif with stopped := [], cmdProd := 0, cmdCons := 0, evtProd := 0, evtCons := 0, txProd := [], txCons := [], rxProd := [], rxCons := [], running := none, heldEvents := [] } }); let w := u.set HIF_CMD_CFG_EN 1; let w := w.hostPut w.cmdSlot (leBytes 64 0); { w with hif := { w.hif with cmdProd := 3 } }, by decide +kernel⟩

theorem test_meets_HostInterfaceRows_10 : ∃ (s : State),
    s.cmdRuns = true ∧ s.hif.running = none ∧ s.hif.cmdProd ≠ s.hif.cmdCons ∧ descOp (BitVec.ofNat 512 (s.hostRd s.cmdSlot 64)) = 0xEE ∧ s.power = 0 :=
  ⟨let u := (let u := up State.reset; let v := (u.set HIF_CTRL_ENABLE 1); { v with hif := { v.hif with stopped := [], cmdProd := 0, cmdCons := 0, evtProd := 0, evtCons := 0, txProd := [], txCons := [], rxProd := [], rxCons := [], running := none, heldEvents := [] } }); let w := (u.set HIF_CMD_CFG_EN 1).set PWR_STATUS_STATE 0; let w := w.hostPut w.cmdSlot (leBytes 64 0xEE); { w with hif := { w.hif with cmdProd := 3 } }, by decide +kernel⟩

theorem test_meets_HostInterfaceRows_11 : ∃ (s : State) (missA : Bool) (missB : Bool),
    ((s.hif.running).any fun (c : Running) => decide ((((match c.kind with | .plain a b => some (a, b) | _ => none)).any fun (x : Nat × Nat) => decide (c.cut = false)) = true)) = true :=
  ⟨let u := act0 State.reset; { u with hif := { u.hif with running := some ⟨.localRing, 0x129, .plain 0 7, false⟩ } }, false, true, by decide +kernel⟩

theorem test_meets_DetectorsAndMonitors_0 : ∃ (s : State),
    s.comparing = true ∧ s.cox.seqRunning = false ∧ s.power ≠ 3 :=
  ⟨coxOn State.reset, by decide +kernel⟩

theorem test_meets_DetectorsAndMonitors_1 : ∃ (s : State) (inPar : Bool),
    s.comparing = true ∧ s.cox.seqRunning = false ∧ s.power ≠ 3 :=
  ⟨coxOn State.reset, false, by decide +kernel⟩

theorem test_meets_DetectorsAndMonitors_2 : ∃ (s : State) (outPar : Bool) (inPar : Bool),
    s.comparing = false :=
  ⟨let s := State.reset; s.set COX_STATUS_MODE 1, false, true, by decide +kernel⟩

theorem test_meets_DetectorsAndMonitors_3 : ∃ (s : State) (alone : Option Bool) (outPar : Bool) (inPar : Bool),
    s.comparing = true ∧ s.cox.seqRunning = false ∧ s.power ≠ 3 ∧ ((alone).any fun (b : Bool) => decide (outPar = false ∧ inPar = false)) = true :=
  ⟨coxOn State.reset, (some false), false, false, by decide +kernel⟩

theorem test_meets_DetectorsAndMonitors_4 : ∃ (s : State) (alone : Option Bool) (outPar : Bool) (inPar : Bool),
    s.comparing = true ∧ s.cox.seqRunning = false ∧ s.power ≠ 3 ∧ alone = none ∧ (outPar = true ∨ inPar = true) :=
  ⟨coxOn State.reset, none, false, true, by decide +kernel⟩

theorem test_meets_DetectorsAndMonitors_5 : ∃ (s : State) (alone : Option Bool) (outPar : Bool) (inPar : Bool),
    s.comparing = false ∧ outPar = false ∧ inPar = false :=
  ⟨let s := State.reset; s.set COX_STATUS_MODE 1, (some false), false, false, by decide +kernel⟩

theorem test_meets_DetectorsAndMonitors_6 : ∃ (s : State),
    s.comparing = true ∧ s.cox.coresHeld = false ∧ s.on (INJ_ARM_ARM 3) = false :=
  ⟨coxOn State.reset, by decide +kernel⟩

theorem test_meets_DetectorsAndMonitors_7 : ∃ (s : State) (missA : Bool) (missB : Bool) (otherA : Bool) (otherB : Bool),
    s.comparing = true ∧ s.cox.seqRunning = false ∧ s.power ≠ 3 ∧ s.cox.coresHeld = false ∧ s.on (INJ_ARM_ARM 3) = false ∧ (missA = true ∨ missB = true) ∧ otherA = otherB :=
  ⟨coxOn State.reset, false, true, true, true, by decide +kernel⟩

theorem test_meets_DetectorsAndMonitors_8 : ∃ (s : State) (missA : Bool) (missB : Bool) (otherA : Bool) (otherB : Bool) (outPar : Bool) (inPar : Bool),
    s.comparing = true ∧ s.cox.seqRunning = false ∧ s.power ≠ 3 ∧ s.cox.coresHeld = false ∧ s.on (INJ_ARM_ARM 3) = false ∧ (missA = true ∨ missB = true) ∧ otherA = otherB ∧ (outPar = true ∨ inPar = true) :=
  ⟨coxOn State.reset, false, true, true, true, false, true, by decide +kernel⟩

theorem test_meets_DetectorsAndMonitors_9 : ∃ (s : State) (alone : Option Bool) (outPar : Bool) (inPar : Bool),
    s.comparing = false ∧ s.cox.coresHeld = false ∧ s.on COX_STATUS_LS_BROKEN = true ∧ s.get COX_STATUS_MODE = 0 ∧ s.up .cox = true ∧ s.cox.seqRunning = false ∧ s.power ≠ 3 ∧ (outPar = true ∨ inPar = true) :=
  ⟨(coxOn State.reset).set COX_STATUS_LS_BROKEN 1, (some false), true, true, by decide +kernel⟩

theorem test_meets_DetectorsAndMonitors_10 : ∃ (s : State) (who : Initiator) (w : Fin 2) (value : Word) (ms : Nat),
    s.takesWrite who (COX_WDOG_KICK w.val) value ∧ SMap.get s.cox.wdog 0 w.val ≠ 0 ∧ value.toNat = (if SMap.get s.cox.wdogSecond false w.val then 0xA5A5 else 0x5A5A) ∧ (SMap.get s.cox.wdog 0 w.val = 2 → s.get (COX_WDOG_CFG_MIN_MS w.val) ≤ ms) :=
  ⟨coxOn State.reset, .cox, 0, 0x5a5a#32, 20000, by decide +kernel⟩

theorem test_meets_DetectorsAndMonitors_11 : ∃ (s : State) (who : Initiator) (w : Fin 2) (value : Word) (ms : Nat),
    s.takesWrite who (COX_WDOG_KICK w.val) value ∧ SMap.get s.cox.wdog 0 w.val ≠ 0 ∧ value.toNat ≠ (if SMap.get s.cox.wdogSecond false w.val then 0xA5A5 else 0x5A5A) ∧ s.cox.seqRunning = false ∧ s.power ≠ 3 :=
  ⟨coxOn State.reset, .jtag, 1, 0x1234#32, 10000, by decide +kernel⟩

theorem test_meets_DetectorsAndMonitors_12 : ∃ (s : State) (w : Fin 2),
    SMap.get s.cox.wdog 0 w.val ≠ 0 ∧ s.cox.seqRunning = false ∧ s.power ≠ 3 :=
  ⟨coxOn State.reset, 1, by decide +kernel⟩

theorem test_meets_DetectorsAndMonitors_13 : ∃ (s : State) (m : Fin 9) (persists : Bool),
    s.up .cox = true ∧ s.power ≠ 3 :=
  ⟨coxOn State.reset, 5, true, by decide +kernel⟩

theorem test_meets_DetectorsAndMonitors_14 : ∃ (s : State) (rail : Fin 16) (persists : Bool),
    s.up .cox = true ∧ s.power ≠ 3 :=
  ⟨coxOn State.reset, 7, true, by decide +kernel⟩

theorem test_meets_DetectorsAndMonitors_15 : ∃ (s : State) (sensorFail : Bool) (tj : Byte) (persists : Bool) (beyond : Nat),
    s.up .cox = true ∧ s.power ≠ 3 ∧ sensorFail = true :=
  ⟨coxOn State.reset, true, 0x2#8, true, 179, by decide +kernel⟩

theorem test_meets_DetectorsAndMonitors_16 : ∃ (s : State) (sensorFail : Bool) (tj : Byte) (persists : Bool) (beyond : Nat),
    s.up .cox = true ∧ s.power ≠ 3 ∧ sensorFail = false ∧ sext 8 tj.toNat + beyond > (s.get COX_MON_TEMP_LIMIT : Int) :=
  ⟨(coxOn State.reset).set COX_MON_TEMP_LIMIT 3, false, 0xed#8, true, 134217728, by decide +kernel⟩

theorem test_meets_DetectorsAndMonitors_17 : ∃ (s : State) (sensorFail : Bool) (tj : Byte) (persists : Bool) (beyond : Nat),
    s.up .cox = true ∧ sensorFail = false ∧ (¬ sext 8 tj.toNat + beyond > (s.get COX_MON_TEMP_LIMIT : Int)) :=
  ⟨(coxOn State.reset).set COX_MON_TEMP_LIMIT 100, false, 0xb0#8, true, 1, by decide +kernel⟩

theorem test_meets_CoxControl_0 : ∃ (s : State) (r : ReleaseResult),
    s.up .cox = true ∧ s.cox.coresHeld = true ∧ s.on COX_STATUS_HALTED = false ∧ s.on OPT_STATUS_VALID = true ∧ s.updLive ≠ 8 ∧ s.launchReverts s.cox.startCode r.digestOk = none ∧ s.get COX_STATUS_MODE = 0 ∧ s.on (INJ_ARM_ARM 3) = false ∧ s.cox.startCode = 10 ∧ s.get LOG_FAIL_START_FAILS + 1 < s.get OPT_BOOT_FAIL_LIMIT ∧ s.rst.pw = [] ∧ r.digestOk = true ∧ r.missA = false ∧ r.missB = false ∧ (List.range 25).all (fun p => !s.on (INJ_ARM_ARM p)) = true :=
  ⟨let s := State.reset; let u := ((((coxOn s).set OPT_STATUS_VALID 1).set UPD_STATUS_STATE 0).set OPT_BOOT_FAIL_LIMIT 9).set LOG_FAIL_START_FAILS (s.get LOG_FAIL_START_FAILS % 5); { u with cox := { u.cox with coresHeld := true, startCode := 10, seqRunning := true, faultLocked := true }, rst := { u.rst with pw := [] } }, { digestOk := true, copyBad := false, missA := false, missB := false, boot := none }, by decide +kernel⟩

theorem test_meets_CoxControl_1 : ∃ (s : State) (r : ReleaseResult),
    s.up .cox = true ∧ s.cox.coresHeld = true ∧ s.on COX_STATUS_HALTED = false ∧ s.on OPT_STATUS_VALID = true ∧ s.updLive ≠ 8 ∧ s.launchReverts s.cox.startCode r.digestOk = none ∧ s.get COX_STATUS_MODE = 0 ∧ s.on (INJ_ARM_ARM 3) = false ∧ s.cox.startCode = 10 ∧ s.get LOG_FAIL_START_FAILS + 1 < s.get OPT_BOOT_FAIL_LIMIT ∧ s.rst.pw = [] ∧ r.digestOk = true ∧ (r.missA = true ∨ r.missB = true) :=
  ⟨let s := State.reset; let u := ((((coxOn s).set OPT_STATUS_VALID 1).set UPD_STATUS_STATE 0).set OPT_BOOT_FAIL_LIMIT 9).set LOG_FAIL_START_FAILS (s.get LOG_FAIL_START_FAILS % 5); { u with cox := { u.cox with coresHeld := true, startCode := 10, seqRunning := true, faultLocked := true }, rst := { u.rst with pw := [] } }, { digestOk := true, copyBad := false, missA := true, missB := false, boot := some { cfg := 0x1#32, etype := 0x0#32, macLo := 0x2000#32, macHi := 0x2000000#32 } }, by decide +kernel⟩

theorem test_meets_CoxControl_2 : ∃ (s : State) (who : Initiator),
    s.takesWrite who COX_CTRL 1 :=
  ⟨((coxOn State.reset).set GLB_FAULT_LOCKSTEP_MISMATCH 0).set GLB_FAULT_CHECKER_FAULT 0 |>.set COX_STATUS_FROZEN 1, .jtag, by decide +kernel⟩

theorem test_meets_CoxControl_3 : ∃ (s : State) (src : CmdSrc) (d : Desc),
    s.takesCommand d [0, 1] true ∧ descBits d 16 8 < 2 ∧ descZero d 17 64 = true ∧ descBits d 16 8 ≠ s.get COX_STATUS_MODE ∧ s.get COX_STATUS_MODE ≠ 2 ∧ s.on COX_STATUS_DEBUG = false :=
  ⟨(coxOn State.reset).set COX_STATUS_DEBUG 0, .localRing, 0x1000000000000000000000000f4ed0100#512, by decide +kernel⟩

theorem test_meets_CoxControl_4 : ∃ (s : State) (missA : Bool) (missB : Bool),
    ((s.hif.running).any fun (c : Running) => decide (c.kind = .coxMode 1 ∧ c.cut = false)) = true :=
  ⟨{ (coxOn State.reset).set COX_STATUS_MODE 2 with hif := { (coxOn State.reset).hif with running := some ⟨.localRing, 0x129, .coxMode 1, false⟩ } }, false, true, by decide +kernel⟩

theorem test_meets_CoxControl_5 : ∃ (s : State) (missA : Bool) (missB : Bool),
    ((s.hif.running).any fun (c : Running) => decide (c.kind = .coxMode 0 ∧ c.cut = false ∧ missA = false ∧ missB = false ∧ s.on (INJ_ARM_ARM 3) = false)) = true :=
  ⟨{ (coxOn State.reset).set COX_STATUS_MODE 2 with hif := { (coxOn State.reset).hif with running := some ⟨.localRing, 0x129, .coxMode 0, false⟩ } }, false, false, by decide +kernel⟩

theorem test_meets_CoxControl_6 : ∃ (s : State) (scans : List JtagScan) (attach : Bool),
    attach = true ∧ s.debugAllowed = true ∧ s.up .debug = true ∧ s.up .cox = true :=
  ⟨(coxOn State.reset).set COX_LIFECYCLE_STATE 0, [], true, by decide +kernel⟩

theorem test_meets_CoxControl_7 : ∃ (s : State) (scans : List JtagScan) (attach : Bool),
    s.get COX_LIFECYCLE_STATE = 2 :=
  ⟨(coxOn State.reset).set COX_LIFECYCLE_STATE 2, [], true, by decide +kernel⟩

theorem test_meets_CoxControl_8 : ∃ (s : State) (tdi : List Bool) (attach : Bool),
    s.up .debug = true ∧ tdi.length = 32 :=
  ⟨coxOn State.reset, (List.replicate 32 true), false, by decide +kernel⟩

theorem test_meets_CoxControl_10 : ∃ (s : State) (src : CmdSrc) (d : Desc),
    s.takesCommand d [0, 1, 2] true ∧ descZero d 17 24 = true ∧ descZero d 32 64 = true ∧ descBits d 24 64 % 8 = 0 ∧ src = .localRing ∧ descBits d 16 8 = 2 ∧ descBits d 24 64 = 0 ∧ s.get COX_LIFECYCLE_STATE = 1 :=
  ⟨(coxOn State.reset).set COX_LIFECYCLE_STATE 1, .localRing, 0x2000000000000000000000000068d0100#512, by decide +kernel⟩

theorem test_meets_CoxControl_11 : ∃ (s : State) (src : CmdSrc) (d : Desc),
    s.takesCommand d [0, 1, 2] true ∧ descZero d 17 24 = true ∧ descZero d 32 64 = true ∧ descBits d 24 64 % 8 = 0 ∧ src = .localRing ∧ 1 ≤ descBits d 16 8 ∧ descBits d 16 8 ≤ 3 ∧ (descBits d 16 8 ≠ 2 ∨ descBits d 24 64 = 0) ∧ lifecycleNext (s.get COX_LIFECYCLE_STATE) (descBits d 16 8) = false :=
  ⟨(coxOn State.reset).set COX_LIFECYCLE_STATE 3, .localRing, 0x2000000000000000000000000068d0100#512, by decide +kernel⟩

theorem test_meets_CoxControl_12 : ∃ (s : State) (missA : Bool) (missB : Bool),
    ((s.hif.running).any fun (c : Running) => decide (c.kind = .lifecycle 2 [] ∧ c.cut = false)) = true :=
  ⟨{ (coxOn State.reset).set COX_LIFECYCLE_STATE 1 with hif := { (coxOn State.reset).hif with running := some ⟨.localRing, 0x129, .lifecycle 2 [], false⟩ } }, false, true, by decide +kernel⟩

theorem test_meets_CoxControl_13 : ∃ (s : State) (src : CmdSrc) (d : Desc),
    s.takesCommand d [0, 1, 2] true ∧ descZero d 17 24 = true ∧ descZero d 32 64 = true ∧ descBits d 24 64 % 8 = 0 ∧ src = .localRing ∧ descBits d 16 8 = 0 ∧ descBits d 24 64 = 0 ∧ s.get COX_LIFECYCLE_STATE ≠ 0 ∧ s.on COX_LIFECYCLE_OWNER_LOCK = false ∧ s.worn .ownerLock = false :=
  ⟨(coxOn State.reset).set COX_LIFECYCLE_STATE 1 |>.set COX_LIFECYCLE_OWNER_LOCK 0, .localRing, 0x68d0100#512, by decide +kernel⟩

theorem test_meets_CoxControl_14 : ∃ (s : State) (missA : Bool) (missB : Bool),
    ((s.hif.running).any fun (c : Running) => decide (c.kind = .ownerLock true ∧ c.cut = false)) = true :=
  ⟨{ (coxOn State.reset) with hif := { (coxOn State.reset).hif with running := some ⟨.localRing, 0x129, .ownerLock true, false⟩ } }, false, true, by decide +kernel⟩

theorem test_meets_CoxControl_15 : ∃ (s : State) (who : Initiator),
    s.takesWrite who INJ_CTRL 1 :=
  ⟨(coxOn State.reset).set COX_LIFECYCLE_STATE 0, .jtag, by decide +kernel⟩

theorem test_meets_CoxControl_16 : ∃ (s : State) (who : Initiator),
    s.takesWrite who INJ_CTRL 0 :=
  ⟨((coxOn State.reset).set INJ_CTRL_EN 1).set (INJ_ARM_ARM 10) 1, .jtag, by decide +kernel⟩

theorem test_meets_CoxControl_17 : ∃ (s : State) (who : Initiator) (p : Fin 25) (value : Word),
    s.takesWrite who (INJ_ARM p.val) value ∧ [3, 8, 9, 10, 11, 16, 18, 19, 20, 21, 22, 23, 24].contains p.val = true ∧ bit value.toNat 31 = true :=
  ⟨(coxOn State.reset).set INJ_CTRL_EN 1, .cox, 19, 0x80000000#32, by decide +kernel⟩

theorem test_meets_KeySlots_0 : ∃ (s : State) (src : CmdSrc) (d : Desc),
    s.takesCommand d [0, 1] false ∧ descBits d 16 8 ≠ 0 ∧ descBits d 17 8 ≤ 2 ∧ pairOk (descBits d 17 8) (descBits d 18 8) = true ∧ descBits d 19 8 ≤ 1 ∧ descZero d 24 64 = true ∧ s.keyRefused (some (descBits d 16 8)) true true = none ∧ s.slotWorn (descBits d 16 8) = false :=
  ⟨keyOn State.reset, .localRing, 0x4d0101000b000000000000000000000000845b0000#512, by decide +kernel⟩

theorem test_meets_KeySlots_1 : ∃ (s : State) (src : CmdSrc) (d : Desc),
    s.takesCommand d [0, 1] false ∧ descBits d 16 8 ≠ 0 ∧ descBits d 17 8 ≤ 2 ∧ pairOk (descBits d 17 8) (descBits d 18 8) = true ∧ descBits d 19 8 ≤ 1 ∧ descZero d 24 64 = true ∧ (s.keyRefused (some (descBits d 16 8)) true true).isSome = true :=
  ⟨keyOn State.reset, (.hfp 7 0xe0d2#16 1 [0x27#8, 0x15#8]), 0x4d000200010000000000000000000000001f660100#512, by decide +kernel⟩

theorem test_meets_KeySlots_2 : ∃ (s : State) (src : CmdSrc) (d : Desc),
    s.takesCommand d [0, 1] false ∧ SMap.get s.key.slotErr 0 (descBits d 16 8) = 0 ∧ descBits d 17 8 = 0 ∧ descZero d 19 24 = true ∧ descZero d 32 64 = true ∧ descBits d 24 64 % 8 = 0 ∧ src = .localRing ∧ s.keyRefused none false true = none ∧ descBits d 16 8 ≠ 0 ∧ slotValid (s.slot (descBits d 16 8)) = true ∧ slotExport (s.slot (descBits d 16 8)) = true :=
  ⟨keyOn State.reset, .localRing, 0x100000000000001000400000000000000000000000035630100#512, by decide +kernel⟩

theorem test_meets_KeySlots_3 : ∃ (s : State) (src : CmdSrc) (d : Desc),
    s.takesCommand d [0, 1] false ∧ SMap.get s.key.slotErr 0 (descBits d 16 8) = 0 ∧ SMap.get s.key.slotErr 0 (descBits d 18 8) = 0 ∧ descBits d 17 8 = 1 ∧ descZero d 19 24 = true ∧ descZero d 32 64 = true ∧ descBits d 24 64 % 8 = 0 ∧ src = .localRing ∧ s.keyRefused none false true = none ∧ descBits d 16 8 ≠ 0 ∧ slotValid (s.slot (descBits d 16 8)) = true ∧ slotExport (s.slot (descBits d 16 8)) = true ∧ slotType (s.slot (descBits d 16 8)) = 0 ∧ slotValid (s.slot (descBits d 18 8)) = true ∧ slotUsage (s.slot (descBits d 18 8)) = 2 :=
  ⟨keyOn State.reset, .localRing, 0x1000000000000010101000000000000000000000000c6750000#512, by decide +kernel⟩

theorem test_meets_KeySlots_4 : ∃ (s : State) (src : CmdSrc) (d : Desc),
    s.takesCommand d [0, 1] false ∧ SMap.get s.key.slotErr 0 (descBits d 16 8) = 0 ∧ SMap.get s.key.slotErr 0 (descBits d 18 8) = 0 ∧ descBits d 17 8 ≤ 1 ∧ descZero d 19 24 = true ∧ descZero d 32 64 = true ∧ descBits d 24 64 % 8 = 0 ∧ src = .localRing ∧ s.keyRefused none false true = none ∧ (descBits d 16 8 = 0 ∨ slotValid (s.slot (descBits d 16 8)) = false ∨ slotExport (s.slot (descBits d 16 8)) = false) :=
  ⟨keyOn State.reset, .localRing, 0x80000000000010103000000000000000000000000845b0000#512, by decide +kernel⟩

theorem test_meets_KeySlots_5 : ∃ (s : State) (src : CmdSrc) (d : Desc),
    s.takesCommand d [0, 1] false ∧ descBits d 16 8 ≠ 0 ∧ descBits d 17 8 = 0 ∧ descBits d 19 8 = 0 ∧ descBits d 20 8 = 0 ∧ descBits d 21 8 = 0 ∧ descBits d 32 32 = 0 ∧ descBits d 22 16 = 144 ∧ descZero d 36 64 = true ∧ descBits d 24 64 % 8 = 0 ∧ src = .localRing ∧ s.keyRefused (some (descBits d 16 8)) true false = none ∧ s.slotWorn (descBits d 16 8) = false :=
  ⟨keyOn State.reset, .localRing, 0xa80090000000010003000000000000000000000000b6b30100#512, by decide +kernel⟩

theorem test_meets_KeySlots_6 : ∃ (s : State) (src : CmdSrc) (d : Desc),
    s.takesCommand d [0, 1] false ∧ SMap.get s.key.slotErr 0 (descBits d 18 8) = 0 ∧ descBits d 16 8 ≠ 0 ∧ descBits d 17 8 = 1 ∧ descBits d 19 8 = 0 ∧ descBits d 20 8 = 3 ∧ descBits d 21 8 ≤ 1 ∧ descZero d 36 64 = true ∧ descBits d 24 64 % 8 = 0 ∧ src = .localRing ∧ s.keyRefused (some (descBits d 16 8)) true false = none ∧ s.slotWorn (descBits d 16 8) = false ∧ slotValid (s.slot (descBits d 18 8)) = true ∧ slotUsage (s.slot (descBits d 18 8)) = 2 :=
  ⟨keyOn State.reset, .localRing, 0x8009000030001010e000000000000000000000000845b0000#512, by decide +kernel⟩

theorem test_meets_KeySlots_7 : ∃ (s : State) (src : CmdSrc) (d : Desc),
    s.takesCommand d [0, 1] false ∧ SMap.get s.key.slotErr 0 (descBits d 17 8) = 0 ∧ descBits d 16 8 ≠ 0 ∧ descBits d 18 8 = 0 ∧ descBits d 19 8 = 0 ∧ descBits d 20 8 = 1 ∧ descBits d 21 8 ≤ 1 ∧ descZero d 36 64 = true ∧ descBits d 24 64 % 8 = 0 ∧ src = .localRing ∧ descBits d 22 16 = 4 ∧ beAt (s.hostBytes (descBits d 24 64) 4) 0 4 = 0 ∧ s.keyRefused (some (descBits d 16 8)) true false = none ∧ s.slotWorn (descBits d 16 8) = false ∧ slotValid (s.slot (descBits d 17 8)) = true ∧ slotUsage (s.slot (descBits d 17 8)) = 3 ∧ slotType (s.slot (descBits d 17 8)) ≠ 2 ∧ (descBits d 21 8 = 1 → slotExport (s.slot (descBits d 17 8)) = true) :=
  ⟨keyOn State.reset, .localRing, 0x8000400010000020e000000000000000000000000845b0000#512, by decide +kernel⟩

theorem test_meets_KeySlots_8 : ∃ (s : State) (src : CmdSrc) (d : Desc),
    s.takesCommand d [0, 1] false ∧ SMap.get s.key.slotErr 0 (descBits d 17 8) = 0 ∧ descBits d 16 8 ≠ 0 ∧ descBits d 18 8 = 0 ∧ descBits d 19 8 = 0 ∧ descBits d 20 8 = 1 ∧ descBits d 21 8 ≤ 1 ∧ descZero d 36 64 = true ∧ descBits d 24 64 % 8 = 0 ∧ src = .localRing ∧ descBits d 22 16 = 4 ∧ beAt (s.hostBytes (descBits d 24 64) 4) 0 4 = 0 ∧ s.keyRefused (some (descBits d 16 8)) true false = none ∧ (slotValid (s.slot (descBits d 17 8)) = false ∨ slotUsage (s.slot (descBits d 17 8)) ≠ 3) :=
  ⟨keyOn State.reset, .localRing, 0xa80004000100000103000000000000000000000000b6b30100#512, by decide +kernel⟩

theorem test_meets_KeySlots_9 : ∃ (s : State) (src : CmdSrc) (d : Desc),
    s.takesCommand d [0, 1] false ∧ descBits d 24 64 % 8 = 0 ∧ descBits d 17 8 = 0 ∧ descZero d 19 24 = true ∧ descZero d 32 64 = true ∧ src = .localRing ∧ s.keyRefused none false true = none ∧ descBits d 16 8 ≠ 0 ∧ SMap.get s.key.slotErr 0 (descBits d 16 8) = 2 :=
  ⟨(keyOn State.reset).kset fun k => { k with slotErr := ((List.range 7).map fun i => (i, 2)).drop 1 }, .localRing, 0x100000000000001000400000000000000000000000035630100#512, by decide +kernel⟩

theorem test_meets_KeySlots_10 : ∃ (s : State) (src : CmdSrc) (d : Desc),
    s.takesCommand d [0, 1] false ∧ descBits d 24 64 % 8 = 0 ∧ descBits d 17 8 = 0 ∧ descZero d 19 24 = true ∧ descZero d 32 64 = true ∧ src = .localRing ∧ s.keyRefused none false true = none ∧ descBits d 16 8 ≠ 0 ∧ SMap.get s.key.slotErr 0 (descBits d 16 8) = 1 :=
  ⟨(keyOn State.reset).kset fun k => { k with slotErr := ((List.range 7).map fun i => (i, 1)).drop 1 }, .localRing, 0x100000000000001000400000000000000000000000035630100#512, by decide +kernel⟩

theorem test_meets_KeySlots_14 : ∃ (s : State) (src : CmdSrc) (d : Desc),
    s.takesCommand d [0, 1] false ∧ descZero d 17 64 = true ∧ s.keyRefused (some (descBits d 16 8)) false false = none ∧ descBits d 16 8 ≠ 0 ∧ s.slotWorn (descBits d 16 8) = false :=
  ⟨keyOn State.reset, .localRing, 0xb000000000000000000000000f4ed0100#512, by decide +kernel⟩

theorem test_meets_KeySlots_15 : ∃ (s : State) (src : CmdSrc) (d : Desc),
    s.takesCommand d [0, 1] false ∧ descZero d 17 64 = true ∧ s.keyRefused (some (descBits d 16 8)) false false = none ∧ descBits d 16 8 = 0 :=
  ⟨keyOn State.reset, .localRing, 0xba360100#512, by decide +kernel⟩

theorem test_meets_AttestationAndRandom_0 : ∃ (s : State) (src : CmdSrc) (d : Desc),
    s.takesCommand d [0, 1, 2] false ∧ SMap.get s.key.slotErr 0 0 = 0 ∧ s.key.idLost = false ∧ descBits d 16 64 % 8 = 0 ∧ descZero d 56 64 = true ∧ src = .localRing ∧ s.keyRefused none false true = none :=
  ⟨keyOn State.reset, .localRing, 0x630000000000000068000000000000000000000000f4ed0100#512, by decide +kernel⟩

theorem test_meets_AttestationAndRandom_1 : ∃ (s : State) (src : CmdSrc) (d : Desc),
    s.takesCommand d [0, 1, 2] false ∧ descBits d 16 64 % 8 = 0 ∧ 1 ≤ descBits d 24 32 ∧ descBits d 24 32 ≤ 4096 ∧ descZero d 28 64 = true ∧ src = .localRing ∧ s.keyRefused none false true = none :=
  ⟨keyOn State.reset, .localRing, 0xe000000000000006800000000000000000000000068620100#512, by decide +kernel⟩

theorem test_meets_AttestationAndRandom_2 : ∃ (s : State) (apt : Bool),
    s.up .key = true :=
  ⟨up State.reset, false, by decide +kernel⟩

theorem test_meets_AttestationAndRandom_3 : ∃ (s : State) (who : Initiator) (pass : Bool),
    s.hostTurned who = false ∧ s.busFree ∧ s.up .key = true :=
  ⟨(up State.reset).set KEY_STATUS_TRNG_FAIL 1, .jtag, true, by decide +kernel⟩

theorem test_meets_UpdateWriting_0 : ∃ (s : State) (src : CmdSrc) (d : Desc),
    s.takesCommand d [0, 1] false ∧ src = .localRing ∧ descBits d 16 64 % 64 = 0 ∧ descBits d 24 32 % 64 = 0 ∧ 64 ≤ descBits d 28 32 ∧ descBits d 28 32 ≤ 1048576 ∧ descBits d 32 8 < 2 ∧ descZero d 33 64 = true ∧ s.pdOn 8 = true ∧ s.dramReady = true ∧ s.updLive ≤ 2 ∧ descBits d 24 32 + descBits d 28 32 ≤ s.get UPD_STAGE_SIZE * 2 ^ 21 :=
  ⟨let u := ((updOn State.reset 0).set UPD_STAGE_SIZE 9).set REC_DRAM_STATUS_READY 1; { u with dram := { u.dram with bytes := [] } }, .localRing, 0x55000009400000000000000340000000000000000000000000845b0000#512, by decide +kernel⟩

theorem test_meets_UpdateWriting_1 : ∃ (s : State) (src : CmdSrc) (d : Desc),
    s.takesCommand d [0, 1] false ∧ src = .localRing ∧ descBits d 16 64 % 64 = 0 ∧ descBits d 24 32 % 64 = 0 ∧ 64 ≤ descBits d 28 32 ∧ descBits d 28 32 ≤ 1048576 ∧ descBits d 32 8 < 2 ∧ descZero d 33 64 = true ∧ s.pdOn 8 = true ∧ s.dramReady = true ∧ s.updLive ≤ 2 ∧ s.get UPD_STAGE_SIZE * 2 ^ 21 < descBits d 24 32 + descBits d 28 32 :=
  ⟨((updOn State.reset 0).set UPD_STAGE_SIZE 0).set REC_DRAM_STATUS_READY 1, .localRing, 0x55000009400000000000000340000000000000000000000000845b0000#512, by decide +kernel⟩

theorem test_meets_UpdateWriting_2 : ∃ (s : State) (src : CmdSrc) (d : Desc),
    s.takesCommand d [0, 1, 2] false ∧ descBits d 20 32 < 2 ∧ descZero d 24 64 = true ∧ s.updLive = 1 :=
  ⟨updOn State.reset 1, .localRing, 0x100001388000000000000000000000000f4ed0100#512, by decide +kernel⟩

theorem test_meets_UpdateWriting_3 : ∃ (s : State) (src : CmdSrc) (d : Desc),
    s.takesCommand d [0, 1, 2] false ∧ descBits d 20 32 < 2 ∧ descZero d 24 64 = true ∧ s.updLive ≠ 1 :=
  ⟨updOn State.reset 6, .localRing, 0x100001388000000000000000000000000f4ed0100#512, by decide +kernel⟩

theorem test_meets_UpdateWriting_4 : ∃ (s : State) (missA : Bool) (missB : Bool),
    ((s.hif.running).any fun (c : Running) => decide (c.kind = .updVerify ∧ c.cut = false ∧ s.dram.badWords = [] ∧ (s.updChecks (descBits c.desc 16 32) (bit (descBits c.desc 20 32) 0)).isSome = true)) = true :=
  ⟨(let u := updOn State.reset 1; { u with hif := { u.hif with running := some ⟨.localRing, 0x129, .updVerify, false⟩ }, dram := { u.dram with bytes := (List.range 8).map fun i => (u.stageAddr 0 + i, 0) } }), false, true, by decide +kernel⟩

theorem test_meets_UpdateWriting_5 : ∃ (s : State),
    s.up .cox = true ∧ s.updLive = 3 ∧ ((s.upd.todo.head?).any fun (e : Nat × Option Nat) => decide (s.dram.badWords = [])) = true :=
  ⟨let s := State.reset; (updOn s 3).pset fun u => { u with todo := if s.get GLB_CFG_STATE_EPOCH = 0 then [(0, none)] else [(7, some 64), (0, none)], tries := s.get PWR_STATUS_STATE % 2 }, by decide +kernel⟩

theorem test_meets_UpdateWriting_6 : ∃ (s : State),
    s.up .cox = true ∧ s.updLive = 3 ∧ ((s.upd.todo.head?).any fun (e : Nat × Option Nat) => decide (s.upd.tries < 2 ∧ s.dram.badWords = [])) = true :=
  ⟨(updOn State.reset 3).pset fun u => { u with todo := [(0, none)], tries := 1 }, by decide +kernel⟩

theorem test_meets_UpdateWriting_7 : ∃ (s : State),
    s.up .cox = true ∧ s.updLive = 3 ∧ ((s.upd.todo.head?).any fun (e : Nat × Option Nat) => decide (s.upd.tries = 2 ∧ s.commitState = 0 ∧ s.dram.badWords = [])) = true :=
  ⟨(updOn State.reset 3).pset fun u => { u with todo := [(0, none)], tries := 2 }, by decide +kernel⟩

theorem test_meets_UpdateWriting_8 : ∃ (s : State),
    s.up .cox = true ∧ s.updLive = 8 ∧ s.cox.coresHeld = true ∧ s.hif.running = none :=
  ⟨let u := ((updOn State.reset 8).pset fun u => { u with seq := 5, slots := 0 }).journalPut 3; { u with cox := { u.cox with coresHeld := true } }, by decide +kernel⟩

theorem test_meets_UpdateActivation_0 : ∃ (s : State) (src : CmdSrc) (d : Desc),
    s.takesCommand d [0, 1] true ∧ s.activateOk d = true ∧ s.activateRefused (commitArgs d) = none ∧ s.updClear = true ∧ (commitArgs d).fabric = false ∧ s.upd.entries = [] :=
  ⟨(((updOn State.reset 4).set COX_LIFECYCLE_OWNER_LOCK 0).set WAK_STATUS_STILL 1).set UPD_CFG_VBAT_MIN 0 |> fun u => (u.set HFP_FAB_STATUS_ADRIFT 0), .localRing, 0x50000000000000000000000000000000000000000000000000000000000000000f4ed0100#512, by decide +kernel⟩

theorem test_meets_UpdateActivation_1 : ∃ (s : State) (src : CmdSrc) (d : Desc),
    s.takesCommand d [0, 1] true ∧ s.activateOk d = true ∧ s.updLive ≠ 4 :=
  ⟨updOn State.reset 3, .localRing, 0x50000000000000000000000000000000000000000000000000000000000000000f4ed0100#512, by decide +kernel⟩

theorem test_meets_UpdateActivation_2 : ∃ (s : State),
    ((s.fab.job).any fun (j : CommitJob) => decide (s.commitState = 2 ∧ j.upd = true ∧ j.mask = 0 ∧ (j.timed = false ∨ s.domNs 0 ≥ j.at_) ∧ s.upd.entries = [] ∧ s.power ≠ 3 ∧ s.cox.seqRunning = false)) = true :=
  ⟨let u := (updOn State.reset 5).set GLB_CFG_STATE_STATE 2; { u with fab := { u.fab with job := some { mask := 0, timed := false, fabric := false, dryRun := false, id := 7, at_ := 0, upd := true, heated := true } } }, by decide +kernel⟩

theorem test_meets_UpdateActivation_3 : ∃ (s : State) (who : Initiator) (value : Word),
    s.takesWrite who UPD_HEALTH value ∧ s.updLive = 6 ∧ s.hfp.fabMember = none ∧ s.hfp.fabInit = none ∧ s.power ≠ 2 :=
  ⟨updOn State.reset 6, .cox, 0x4845414c#32, by decide +kernel⟩

theorem test_meets_UpdateActivation_4 : ∃ (s : State),
    s.up .cox = true ∧ s.updLive = 6 :=
  ⟨updOn State.reset 6, by decide +kernel⟩

theorem test_meets_UpdateActivation_5 : ∃ (s : State) (src : CmdSrc) (d : Desc),
    s.takesCommand d [0, 1] false ∧ descZero d 16 64 = true ∧ 1 ≤ s.updLive ∧ s.updLive ≤ 4 ∧ s.validSlots = [] ∧ s.commitState = 0 ∧ s.hfp.fabMember = none ∧ s.hfp.fabInit = none ∧ s.rst.asked = false :=
  ⟨(let u := updOn State.reset 2; { u with upd := { u.upd with flash := [(u.slotBlock 0, [0]), (u.slotBlock 0 + 1, [0])] } }), .localRing, 0x68d0100#512, by decide +kernel⟩

theorem test_meets_UpdateActivation_6 : ∃ (s : State) (src : CmdSrc) (d : Desc),
    s.takesCommand d [0, 1] false ∧ descZero d 16 64 = true ∧ s.updLive = 0 ∧ s.rst.asked = false :=
  ⟨updOn State.reset 0, .localRing, 0x68d0100#512, by decide +kernel⟩

theorem test_meets_UpdateActivation_7 : ∃ (s : State) (src : CmdSrc) (d : Desc),
    s.takesCommand d [0, 1] false ∧ descZero d 16 64 = true ∧ s.updLive = 6 ∧ s.hfp.fabMember = none ∧ s.hfp.fabInit = none ∧ s.rst.asked = false :=
  ⟨updOn State.reset 6, .localRing, 0x68d0100#512, by decide +kernel⟩

theorem test_meets_PowerRequests_0 : ∃ (s : State) (src : CmdSrc) (d : Desc),
    s.takesCommand d [0, 1] false ∧ descBits d 16 8 = 4 ∧ descZero d 17 64 = true ∧ s.powerRefused 4 = none ∧ s.pwr.goal = none :=
  ⟨pwrOn State.reset 0, .localRing, 0x400000000000000000000000068150100#512, by decide +kernel⟩

theorem test_meets_PowerRequests_1 : ∃ (s : State) (src : CmdSrc) (d : Desc),
    s.takesCommand d [0, 1] false ∧ descBits d 16 8 ≤ 1 ∧ descZero d 17 64 = true ∧ s.powerRefused (descBits d 16 8) = none ∧ s.pwr.goal = none ∧ (bit (s.wantedDomains (descBits d 16 8)) 7 = true ∨ src.remote = true ∧ s.pdOn 7 = false) :=
  ⟨let d : Desc := 0xc68c0100#512; pwrOn State.reset (1 - descBits d 16 8 % 2), .localRing, 0xc68c0100#512, by decide +kernel⟩

theorem test_meets_PowerRequests_2 : ∃ (s : State) (src : CmdSrc) (d : Desc),
    s.takesCommand d [0, 1] false ∧ (descBits d 16 8 = 0 ∨ descBits d 16 8 = 1 ∨ descBits d 16 8 = 4) ∧ descZero d 17 64 = true ∧ (s.powerRefused (descBits d 16 8)).isSome = true ∧ s.pwr.goal = none :=
  ⟨pwrOn State.reset 1, .localRing, 0x1000000000000000000000000fab00100#512, by decide +kernel⟩

theorem test_meets_PowerRequests_3 : ∃ (s : State) (who : Initiator) (value : Word),
    s.takesWrite who PWR_CTRL value ∧ bits value.toNat 0 3 = 5 ∧ bit value.toNat 8 = false ∧ (s.power = 0 ∨ s.power = 1) ∧ s.powerRefused 4 = none ∧ s.pwr.goal = none :=
  ⟨pwrOn State.reset 0, .cox, 0x5#32, by decide +kernel⟩

theorem test_meets_PowerRequests_4 : ∃ (s : State) (who : Initiator) (value : Word),
    s.busFree ∧ s.hostTurned who = false ∧ s.up .aon = true ∧ [3, 4, 6, 7].contains value.toNat = true ∧ (who = .cox ∨ who = .host) :=
  ⟨pwrOn State.reset 0, .cox, 0x4#32, by decide +kernel⟩

theorem test_meets_PowerRequests_5 : ∃ (s : State) (who : Initiator),
    s.takesWrite who PWR_CTRL 0x100 :=
  ⟨pwrOn State.reset 0, .jtag, by decide +kernel⟩

theorem test_meets_PowerRequests_6 : ∃ (s : State) (who : Initiator) (value : Word),
    s.takesWrite who PWR_ACTIVE value ∧ s.power ≠ 0 :=
  ⟨pwrOn State.reset 1, .cox, 0x6a04#32, by decide +kernel⟩

theorem test_meets_PowerRequests_7 : ∃ (s : State) (who : Initiator) (value : Word),
    s.takesWrite who PWR_FEATHER value ∧ s.power ≠ 1 :=
  ⟨pwrOn State.reset 0, .cox, 0x6a04#32, by decide +kernel⟩

theorem test_meets_PowerRequests_8 : ∃ (s : State) (pd : Fin 15) (link : Option (Fin 3 × Fin 4)),
    s.alive = true ∧ pd.val ≠ 0 ∧ bit s.pwr.want pd.val = true ∧ s.pdOn pd.val = false ∧ s.pwr.goal = none ∧ s.power ≠ 5 :=
  ⟨let u := pwrOn State.reset 0; { u.set PWR_STATUS_ON 0 with pwr := { u.pwr with want := 2 ^ 15 - 1 } }, 8, (some (2, 3)), by decide +kernel⟩

theorem test_meets_PowerRequests_9 : ∃ (s : State) (pd : Fin 15) (link : Option (Fin 3 × Fin 4)),
    (bit s.pwr.want pd.val = false ∨ s.pdOn pd.val = true) :=
  ⟨State.reset, 8, (some (2, 3)), by decide +kernel⟩

theorem test_meets_SleepAndWake_0 : ∃ (s : State),
    s.power = 3 ∧ s.pwr.latched = false ∧ s.pwr.waitAck = [] ∧ s.unmaskedFaults = 0 ∧ s.imageMissing = none :=
  ⟨let u := pwrOn State.reset 3; { u with pwr := { u.pwr with latched := false } }, by decide +kernel⟩

theorem test_meets_SleepAndWake_1 : ∃ (s : State) (failed : Option (Fin 4)),
    s.power = 3 ∧ s.pwr.latched = false ∧ s.pwr.waitAck = [] ∧ (failed).isSome = true :=
  ⟨let u := pwrOn State.reset 3; { u with pwr := { u.pwr with latched := false } }, (some 1), by decide +kernel⟩

theorem test_meets_SleepAndWake_2 : ∃ (s : State),
    s.power = 3 ∧ s.pwr.waitAck ≠ [] :=
  ⟨let u := pwrOn State.reset 3; { u with pwr := { u.pwr with latched := false, waitAck := [9, 4] } }, by decide +kernel⟩

theorem test_meets_SleepAndWake_3 : ∃ (s : State),
    s.pastCommit = true ∧ s.pwr.lateSource = 0 :=
  ⟨pwrOn State.reset 3, by decide +kernel⟩

theorem test_meets_SleepAndWake_4 : ∃ (s : State),
    s.pastCommit = true ∧ s.pwr.lateSource ≠ 0 ∧ s.pwr.lateSource < 8 :=
  ⟨let u := pwrOn State.reset 3; { u with pwr := { u.pwr with lateSource := 4 } }, by decide +kernel⟩

theorem test_meets_SleepAndWake_5 : ∃ (s : State),
    s.alive = true ∧ s.power = 4 ∧ s.on WAK_SRC_EN_WAKE_IN = true ∧ s.pwr.goal = none :=
  ⟨(pwrOn State.reset 4).set WAK_SRC_EN_WAKE_IN 1, by decide +kernel⟩

theorem test_meets_SleepAndWake_6 : ∃ (s : State),
    s.alive = true ∧ s.on WAK_SRC_EN_WAKE_IN = false :=
  ⟨(pwrOn State.reset 4).set WAK_SRC_EN_WAKE_IN 0, by decide +kernel⟩

theorem test_meets_SleepAndWake_7 : ∃ (s : State),
    s.alive = true ∧ s.power = 4 ∧ s.on WAK_SRC_EN_TIMER = true ∧ s.get WAK_TIMER_SECONDS ≠ 0 ∧ s.pwr.goal = none :=
  ⟨((pwrOn State.reset 4).set WAK_SRC_EN_TIMER 1).set WAK_TIMER_SECONDS 7, by decide +kernel⟩

theorem test_meets_SleepAndWake_8 : ∃ (s : State),
    s.alive = true ∧ s.power = 4 ∧ s.on WAK_SRC_EN_STILL = true ∧ s.pwr.goal = none :=
  ⟨(pwrOn State.reset 4).set WAK_SRC_EN_STILL 1, by decide +kernel⟩

theorem test_meets_SleepAndWake_9 : ∃ (s : State),
    s.alive = true ∧ s.on WAK_SRC_EN_STILL = false :=
  ⟨(pwrOn State.reset 4).set WAK_SRC_EN_STILL 0, by decide +kernel⟩

theorem test_meets_SleepAndWake_10 : ∃ (s : State),
    s.pwr.idleTimer = true ∧ s.on WAK_STATUS_WAKE_IN = true :=
  ⟨let u := (pwrOn State.reset 0).set WAK_STATUS_WAKE_IN 1; { u with pwr := { u.pwr with idleTimer := true } }, by decide +kernel⟩

theorem test_meets_SleepAndWake_11 : ∃ (s : State),
    s.pwr.idleTimer = true ∧ s.on WAK_STATUS_WAKE_IN = false ∧ (s.power = 0 ∨ s.power = 1) ∧ s.powerRefused 4 = none :=
  ⟨let u := pwrOn State.reset 0; { u with pwr := { u.pwr with idleTimer := true } }, by decide +kernel⟩

theorem test_meets_SleepAndWake_12 : ∃ (s : State),
    s.alive = true ∧ s.pwr.falsePending = false :=
  ⟨(pwrOn State.reset 0).set WAK_STATUS_WAKE_IN 1, by decide +kernel⟩

theorem test_meets_SleepAndWake_13 : ∃ (s : State),
    s.alive = true ∧ s.pwr.falsePending = true ∧ s.pwr.idleTimer = true ∧ (s.power = 0 ∨ s.power = 1) ∧ (s.set WAK_STATUS_WAKE_IN 0).powerRefused 4 = none :=
  ⟨let u := (pwrOn State.reset 0).set WAK_STATUS_WAKE_IN 1; { u with pwr := { u.pwr with idleTimer := true, falsePending := true } }, by decide +kernel⟩

theorem test_meets_SleepAndWake_14 : ∃ (s : State) (mv : BitVec 16) (still : Bool),
    s.alive = true :=
  ⟨State.reset, 0x80#16, true, by decide +kernel⟩

theorem test_meets_DeviceResets_1 : ∃ (s : State) (rails : List (Fin 16)),
    s.rst.off = false :=
  ⟨State.reset, [], by decide +kernel⟩

theorem test_meets_DeviceResets_2 : ∃ (s : State),
    s.rst.off = false :=
  ⟨State.reset, by decide +kernel⟩

theorem test_meets_DeviceResets_3 : ∃ (s : State),
    s.rst.off = false :=
  ⟨State.reset, by decide +kernel⟩

theorem test_meets_DeviceResets_4 : ∃ (s : State),
    s.alive = true ∧ s.debugAllowed = true ∧ s.up .debug = true :=
  ⟨(rstOn State.reset).set COX_LIFECYCLE_STATE 0, by decide +kernel⟩

theorem test_meets_DeviceResets_5 : ∃ (s : State),
    s.get COX_LIFECYCLE_STATE = 2 :=
  ⟨(rstOn State.reset).set COX_LIFECYCLE_STATE 2, by decide +kernel⟩

theorem test_meets_DeviceResets_6 : ∃ (s : State),
    s.rst.off = false ∧ s.rst.hold ≠ [] :=
  ⟨let u := rstOn State.reset; { u with rst := { u.rst with hold := [3] } }, by decide +kernel⟩

theorem test_meets_DeviceResets_8 : ∃ (s : State),
    s.alive = true ∧ s.on RST_START_START_OPEN = true ∧ s.power ≠ 2 :=
  ⟨(rstOn State.reset).set RST_START_START_OPEN 1, by decide +kernel⟩

theorem test_meets_DeviceResets_9 : ∃ (s : State),
    (s.on RST_START_START_OPEN = false ∨ s.power = 2) :=
  ⟨(rstOn State.reset).set RST_START_START_OPEN 0, by decide +kernel⟩

theorem test_meets_DeviceResets_10 : ∃ (s : State) (src : CmdSrc) (d : Desc),
    s.takesCommand d [0, 1, 2] false ∧ deviceResetArgs d = true ∧ descBits d 16 8 = 0 ∧ descBits d 19 8 = 0 ∧ (src.remote = false ∨ s.peerHasAuthority src.peerByte = true) ∧ s.rst.asked = false :=
  ⟨rstOn State.reset, .localRing, 0x5253542100330500000000000000000000000000b6b30100#512, by decide +kernel⟩

theorem test_meets_DeviceResets_11 : ∃ (s : State) (src : CmdSrc) (d : Desc),
    s.takesCommand d [0, 1, 2] false ∧ deviceResetArgs d = true ∧ descBits d 16 8 = 1 ∧ s.power ≠ 2 ∧ (((resetIsland d).1 = .fabric → s.commitState = 0)) ∧ s.pdOn (domainOf (resetIsland d).1 (resetIsland d).2) = true ∧ (src.remote = false ∨ s.peerHasAuthority src.peerByte = true) ∧ s.rst.asked = false :=
  ⟨rstOn State.reset, .localRing, 0x52535421002d0101000000000000000000000000845b0000#512, by decide +kernel⟩

theorem test_meets_DeviceResets_12 : ∃ (s : State) (src : CmdSrc) (d : Desc),
    s.takesCommand d [0, 1, 2] false ∧ deviceResetArgs d = true ∧ descBits d 16 8 = 1 ∧ s.power = 2 ∧ s.rst.asked = false :=
  ⟨(rstOn State.reset).set PWR_STATUS_STATE 2, .localRing, 0x52535421002d0101000000000000000000000000845b0000#512, by decide +kernel⟩

theorem test_meets_DeviceResets_13 : ∃ (s : State),
    ((s.hif.running).any fun (c : Running) => decide (c.kind = .islandReset ∧ c.cut = false ∧ s.alive = true ∧ s.pdOn (domainOf (resetIsland c.desc).1 (resetIsland c.desc).2) = true)) = true :=
  ⟨let s := State.reset; let u := rstOn s; { u with hif := { u.hif with running := some ⟨.localRing, 1 + 2 ^ 128 + s.get GLB_CFG_STATE_EPOCH * 2 ^ 137, .islandReset, false⟩ }, rst := { u.rst with islands := [islandKey .umpire 0, islandKey .edge 0, islandKey .fabric 0, islandKey .time 0] } }, by decide +kernel⟩

theorem test_meets_DeviceResets_14 : ∃ (s : State) (link : Option (Fin 3 × Fin 4)),
    s.alive = true ∧ ((link).any fun (x : Fin 3 × Fin 4) => decide (s.pdOn 7 = true)) = true :=
  ⟨let u := rstOn State.reset; { u with rst := { u.rst with islands := [islandKey .host 0] } }, (some (2, 3)), by decide +kernel⟩

theorem test_meets_PersistentWords_0 : ∃ (s : State) (who : Initiator),
    s.takesWrite who RST_START 1 ∧ s.cox.coresHeld = false ∧ s.on RST_START_START_OPEN = true ∧ s.get LOG_FAIL_START_FAILS = 0 :=
  ⟨((rstOn State.reset).set RST_START_START_OPEN 1).set LOG_FAIL_START_FAILS 0, .cox, by decide +kernel⟩

theorem test_meets_PersistentWords_1 : ∃ (s : State) (who : Initiator),
    s.takesWrite who RST_START 1 ∧ s.cox.coresHeld = false ∧ s.on RST_START_START_OPEN = true ∧ s.get LOG_FAIL_START_FAILS ≠ 0 ∧ s.rst.pw = [] ∧ s.worn .failStart = false :=
  ⟨((rstOn State.reset).set RST_START_START_OPEN 1).set LOG_FAIL_START_FAILS 2, .cox, by decide +kernel⟩

theorem test_meets_PersistentWords_2 : ∃ (s : State) (who : Initiator),
    s.takesWrite who OPT_PROG 1 ∧ s.rst.pw ≠ [] :=
  ⟨let u := (rstOn State.reset).set COX_LIFECYCLE_STATE 0; { u with rst := { u.rst with pw := [⟨.logWord 3, 2⟩] } }, .jtag, by decide +kernel⟩

theorem test_meets_PersistentWords_3 : ∃ (s : State) (who : Initiator),
    s.takesWrite who OPT_PROG 1 ∧ s.rst.pw = [] ∧ (s.optProgramWrites.all fun w => !s.worn w.tgt) = true :=
  ⟨(rstOn State.reset).set COX_LIFECYCLE_STATE 0, .jtag, by decide +kernel⟩

theorem test_meets_PersistentWords_4 : ∃ (s : State) (who : Initiator) (i : Fin 1024) (value : Word),
    s.takesWrite who (LOG_WORD i.val) value ∧ s.get (LOG_WORD_VALUE i.val) ≠ value.toNat ∧ s.worn (.logWord i.val) = false ∧ s.rst.pw = [] :=
  ⟨rstOn State.reset, .jtag, 653, 0x4#32, by decide +kernel⟩

theorem test_meets_PersistentWords_5 : ∃ (s : State) (who : Initiator) (i : Fin 1024) (value : Word),
    s.takesWrite who (LOG_WORD i.val) value ∧ s.get (LOG_WORD_VALUE i.val) = value.toNat :=
  ⟨let i : Fin 1024 := 653; let value : Word := 0x4#32; (rstOn State.reset).set (LOG_WORD_VALUE i.val) value.toNat, .jtag, 653, 0x4#32, by decide +kernel⟩

theorem test_meets_PersistentWords_6 : ∃ (s : State) (who : Initiator) (i : Fin 1024) (value : Word),
    s.takesWrite who (LOG_WORD i.val) value ∧ s.get (LOG_WORD_VALUE i.val) ≠ value.toNat ∧ s.worn (.logWord i.val) = true :=
  ⟨let i : Fin 1024 := 653; (rstOn State.reset).set (LOG_WEAR_COUNT i.val) 100000, .jtag, 653, 0x4#32, by decide +kernel⟩

theorem test_meets_PersistentWords_7 : ∃ (s : State) (src : CmdSrc) (d : Desc),
    s.takesCommand d [0, 1, 2] false ∧ descBits d 16 16 < 1024 ∧ descZero d 18 20 = true ∧ descZero d 28 64 = true ∧ s.logValue (descBits d 16 16) = ((s.logValue (descBits d 16 16) &&& (2 ^ 32 - 1 - descBits d 24 32)) ||| (descBits d 20 32 &&& descBits d 24 32)) ∧ (s.rst.pw.any fun w => w.tgt == .logWord (descBits d 16 16)) = false :=
  ⟨rstOn State.reset, .localRing, 0x600000147000000000000000000000000845b0000#512, by decide +kernel⟩

theorem test_meets_PersistentWords_8 : ∃ (s : State) (src : CmdSrc) (d : Desc),
    s.takesCommand d [0, 1, 2] false ∧ descBits d 16 16 < 1024 ∧ descZero d 18 20 = true ∧ descZero d 28 64 = true ∧ s.logValue (descBits d 16 16) ≠ ((s.logValue (descBits d 16 16) &&& (2 ^ 32 - 1 - descBits d 24 32)) ||| (descBits d 20 32 &&& descBits d 24 32)) ∧ s.worn (.logWord (descBits d 16 16)) = false ∧ s.rst.pw = [] :=
  ⟨rstOn State.reset, (.hfp 7 0xe0d2#16 1 [0x27#8, 0x15#8]), 0x200000003000000810000000000000000000000001f660100#512, by decide +kernel⟩

theorem test_meets_PersistentWords_9 : ∃ (s : State) (src : CmdSrc) (d : Desc),
    s.takesCommand d [0, 1, 2] false ∧ descBits d 16 16 < 1024 ∧ descZero d 18 20 = true ∧ descZero d 28 64 = true ∧ s.logValue (descBits d 16 16) ≠ ((s.logValue (descBits d 16 16) &&& (2 ^ 32 - 1 - descBits d 24 32)) ||| (descBits d 20 32 &&& descBits d 24 32)) ∧ s.worn (.logWord (descBits d 16 16)) = true :=
  ⟨let d : Desc := 0x200000003000000810000000000000000000000001f660100#512; (rstOn State.reset).set (LOG_WEAR_COUNT (descBits d 16 16)) 100000, (.hfp 7 0xe0d2#16 1 [0x27#8, 0x15#8]), 0x200000003000000810000000000000000000000001f660100#512, by decide +kernel⟩

theorem test_meets_PersistentWords_10 : ∃ (s : State),
    s.alive = true ∧ ((s.rst.pw.head?).any fun (w : PWrite) => decide (s.rst.pw.length = 1 ∧ s.hif.running = none ∧ (w.tgt = .logWord 7 ∨ w.tgt = .failStart) ∧ w.val < 16)) = true :=
  ⟨let s := State.reset; let u := rstOn s; { u with rst := { u.rst with pw := [if s.get GLB_CFG_STATE_EPOCH = 0 then ⟨.failStart, 2⟩ else ⟨.logWord 7, 5⟩] } }, by decide +kernel⟩

theorem test_meets_PersistentWords_11 : ∃ (s : State),
    s.alive = true ∧ ((s.rst.pw.head?).any fun (w : PWrite) => decide (s.rst.pw.length = 1 ∧ w.tgt = .updState ∧ w.val < 2 ^ 32)) = true :=
  ⟨let u := rstOn State.reset; { u with rst := { u.rst with pw := [⟨.updState, 3 + 5 * 2 ^ 24⟩] } }, by decide +kernel⟩

theorem test_meets_PersistentWords_12 : ∃ (s : State),
    s.alive = true ∧ ((s.rst.pw.head?).any fun (w : PWrite) => decide (s.rst.pw.length = 1 ∧ ((match w.tgt with | .keySlot i => some i | _ => none)).isSome = true)) = true :=
  ⟨let u := rstOn State.reset; { u with rst := { u.rst with pw := [⟨.keySlot 3, 77⟩] } }, by decide +kernel⟩

theorem test_meets_PersistentWords_13 : ∃ (s : State),
    s.alive = true ∧ ((s.rst.pw.head?).any fun (w : PWrite) => decide (s.rst.pw.length = 1 ∧ w.tgt = .logWord 7 ∧ ((s.hif.running).any fun (c : Running) => decide (c.kind = .logWrite 7 ∧ c.cut = false)) = true)) = true :=
  ⟨let u := rstOn State.reset; { u with rst := { u.rst with pw := [⟨.logWord 7, 5⟩] }, hif := { u.hif with running := some ⟨.localRing, 0x129, .logWrite 7, false⟩ } }, by decide +kernel⟩

theorem test_meets_CoxFrames_0 : ∃ (s : State) (bytes : List Byte) (ts : Option (BitVec 16)) (mka : Option MkaUse),
    s.up .cox = true ∧ s.cox.coresHeld = false ∧ s.up .fabric = true ∧ s.framesStopped = false ∧ mka = none :=
  ⟨rstOn State.reset, ([0x47#8, 0x8d#8, 0xed#8, 0x62#8, 0x5b#8, 0xc9#8, 0xb0#8, 0x26#8, 0xf3#8, 0xe9#8, 0xb3#8, 0x3#8, 0x4#8, 0x2e#8]), none, none, by decide +kernel⟩

theorem test_meets_CoxFrames_1 : ∃ (s : State) (bytes : List Byte) (ts : Option (BitVec 16)) (mka : Option MkaUse),
    s.up .cox = true ∧ s.cox.coresHeld = false ∧ s.up .fabric = true ∧ s.framesStopped = false ∧ s.up .key = true ∧ ((mka).any fun (u : MkaUse) => decide (u.step = .icv ∧ s.injArmedFor 10 6 = false ∧ SMap.get s.key.slotErr 0 u.cak.toNat = 0 ∧ slotValid (s.slot u.cak.toNat) = true ∧ slotType (s.slot u.cak.toNat) = 0 ∧ slotUsage (s.slot u.cak.toNat) = 3)) = true :=
  ⟨let u := rstOn State.reset; { u with key := { u.key with slots := [(1, slotMake 1 0 3 1 7 (leBytes 32 9))] } }, ([0xef#8, 0xdf#8, 0x4b#8, 0x4b#8, 0x61#8, 0x7f#8, 0xa4#8, 0x29#8, 0x3d#8, 0xa2#8, 0xba#8, 0x6d#8, 0x2#8, 0x5e#8, 0x15#8, 0x8c#8, 0xf7#8]), none, (some { cak := 0x1#8, ckn := [0x1#8, 0x2#8], step := .icv }), by decide +kernel⟩

theorem test_meets_CoxFrames_2 : ∃ (s : State) (bytes : List Byte) (ts : Option (BitVec 16)) (mka : Option MkaUse),
    s.cox.coresHeld = true :=
  ⟨let u := rstOn State.reset; { u with cox := { u.cox with coresHeld := true } }, ([0x47#8, 0x8d#8, 0xed#8, 0x62#8, 0x5b#8, 0xc9#8, 0xb0#8, 0x26#8, 0xf3#8, 0xe9#8, 0xb3#8, 0x3#8, 0x4#8, 0x2e#8]), none, none, by decide +kernel⟩

theorem test_meets_UnfreezeFollowsItsConditions_0 : ∃ (s : State) (who : Initiator),
    who ≠ .cfg ∧ s.hostTurned who = false ∧ s.busFree ∧ s.up .cox = true ∧ s.on GLB_FAULT_START_PENDING = false ∧ (s.rd GLB_FAULT).toNat % 4 = 0 ∧ s.on COX_STATUS_HALTED = false :=
  ⟨((coxOn State.reset).wr GLB_FAULT 0).set COX_STATUS_FROZEN 1, .jtag, by decide +kernel⟩

theorem test_meets_UnfreezeFollowsItsConditions_1 : ∃ (s : State) (who : Initiator),
    who ≠ .cfg ∧ s.hostTurned who = false ∧ s.busFree ∧ s.up .cox = true ∧ (s.on GLB_FAULT_START_PENDING = true ∨ (s.rd GLB_FAULT).toNat % 4 ≠ 0 ∨ s.on COX_STATUS_HALTED = true) :=
  ⟨((coxOn State.reset).wr GLB_FAULT 1).set COX_STATUS_FROZEN 1, .jtag, by decide +kernel⟩

theorem test_meets_UnfreezeFollowsItsConditions_3 : ∃ (s : State) (rails : List (Fin 16)),
    s.rst.off = false :=
  ⟨State.reset, [], by decide +kernel⟩

theorem test_meets_UnfreezeFollowsItsConditions_4 : ∃ (s : State),
    s.rst.off = false :=
  ⟨State.reset, by decide +kernel⟩

theorem test_meets_UnfreezeFollowsItsConditions_5 : ∃ (s : State),
    s.rst.off = false :=
  ⟨State.reset, by decide +kernel⟩

theorem test_meets_UnfreezeFollowsItsConditions_6 : ∃ (s : State),
    s.alive = true ∧ s.debugAllowed = true ∧ s.up .debug = true :=
  ⟨(rstOn State.reset).set COX_LIFECYCLE_STATE 0, by decide +kernel⟩

theorem test_meets_UnfreezeFollowsItsConditions_7 : ∃ (s : State),
    s.alive = true ∧ s.on RST_START_START_OPEN = true ∧ s.power ≠ 2 :=
  ⟨(rstOn State.reset).set RST_START_START_OPEN 1, by decide +kernel⟩

theorem test_meets_UnfreezeFollowsItsConditions_8 : ∃ (s : State) (src : CmdSrc) (d : Desc),
    s.takesCommand d [0, 1, 2] false ∧ deviceResetArgs d = true ∧ descBits d 16 8 = 0 ∧ descBits d 19 8 = 0 ∧ (src.remote = false ∨ s.peerHasAuthority src.peerByte = true) ∧ s.rst.asked = false :=
  ⟨rstOn State.reset, .localRing, 0x5253542100330500000000000000000000000000b6b30100#512, by decide +kernel⟩

theorem test_meets_UnmappedAccesses_0 : ∃ (s : State) (who : Initiator) (addr : Word) (data : Word),
    who ≠ .cfg ∧ s.hostTurned who = false ∧ s.busFree ∧ 0x1600000 ≤ addr.toNat ∧ addr.toNat < 2 ^ 26 :=
  ⟨up State.reset, .cox, 0x1600000#32, 0xb6b3c803#32, by decide +kernel⟩

theorem test_meets_UnmappedAccesses_1 : ∃ (s : State) (who : Initiator) (addr : Word),
    who ≠ .cfg ∧ s.hostTurned who = false ∧ s.busFree ∧ 0x1600000 ≤ addr.toNat ∧ addr.toNat < 2 ^ 26 :=
  ⟨up State.reset, .cox, 0x1600000#32, by decide +kernel⟩

theorem test_meets_OnlyTheOwnerSteers_0 : ∃ (s : State) (who : Initiator) (d : Fin 4) (value : Word),
    s.hostTurned who = false ∧ s.busFree ∧ s.up .time = true ∧ ((if s.get (TIM_DOM_CFG_OWNER d.val) = 0 then who ≠ .cox else who ≠ .host) ∧ who ≠ .cfg) :=
  ⟨up State.reset, .jtag, 1, 0x1ffff12d#32, by decide +kernel⟩

theorem test_meets_OnlyTheOwnerSteers_1 : ∃ (s : State) (who : Initiator) (d : Fin 4) (value : Word),
    s.hostTurned who = false ∧ s.busFree ∧ s.up .time = true ∧ ((if s.get (TIM_DOM_CFG_OWNER d.val) = 0 then who ≠ .cox else who ≠ .host) ∧ who ≠ .cfg) :=
  ⟨up State.reset, .jtag, 1, 0x11a6d#32, by decide +kernel⟩

theorem test_meets_OnlyTheOwnerSteers_2 : ∃ (s : State) (who : Initiator) (d : Fin 4) (upper : Word),
    s.hostTurned who = false ∧ s.busFree ∧ s.up .time = true ∧ ((if s.get (TIM_DOM_CFG_OWNER d.val) = 0 then who ≠ .cox else who ≠ .host) ∧ who ≠ .cfg) :=
  ⟨up State.reset, .jtag, 1, 0x8000004#32, by decide +kernel⟩

theorem test_meets_OnlyTheOwnerSteers_3 : ∃ (s : State) (who : Initiator) (d : Fin 4) (value : Word),
    s.hostTurned who = false ∧ s.busFree ∧ s.up .time = true ∧ ((if s.get (TIM_DOM_CFG_OWNER d.val) = 0 then who ≠ .cox else who ≠ .host) ∧ who ≠ .cfg) :=
  ⟨up State.reset, .jtag, 1, 0x8000004#32, by decide +kernel⟩

theorem test_meets_OnlyTheOwnerSteers_4 : ∃ (s : State) (who : Initiator) (d : Fin 4),
    s.hostTurned who = false ∧ s.busFree ∧ s.up .time = true ∧ ((if s.get (TIM_DOM_CFG_OWNER d.val) = 0 then who ≠ .cox else who ≠ .host) ∧ who ≠ .cfg) :=
  ⟨up State.reset, .jtag, 1, by decide +kernel⟩

theorem test_meets_OnlyTheOwnerSteers_5 : ∃ (s : State) (who : Initiator) (d : Fin 4),
    s.hostTurned who = false ∧ s.busFree ∧ s.up .time = true ∧ ((if s.get (TIM_DOM_CFG_OWNER d.val) = 0 then who ≠ .cox else who ≠ .host) ∧ who ≠ .cfg) :=
  ⟨up State.reset, .jtag, 1, by decide +kernel⟩

theorem test_meets_OnlyTheOwnerSteers_6 : ∃ (s : State) (src : CmdSrc) (d : Desc),
    s.takesCommand d [0, 1] true ∧ s.reanchorOk d = true ∧ s.reanchorRefused src d = none :=
  ⟨let d : Desc := 0xb2d05e000000000000000103000000000000000000000000845b0000#512; (((idle State.reset).set (TIM_DOM_CFG_EN (descBits d 16 2)) 1).set (TIM_DOM_STATUS_STATE (descBits d 16 2)) 2).set (TIM_DOM_STATUS_JUMP_REFUSED (descBits d 16 2)) 1 |>.tset fun u => { u with now := [(0, 2 ^ 90), (1, 2 ^ 90), (2, 2 ^ 90), (3, 2 ^ 90)] }, .localRing, 0xb2d05e000000000000000103000000000000000000000000845b0000#512, by decide +kernel⟩

theorem test_meets_FrozenRefusals_0 : ∃ (s : State) (src : CmdSrc) (d : Desc),
    s.hif.running = none ∧ descHeaderOk d = true ∧ [0, 1].contains s.power = true ∧ s.frozen = true ∧ s.stageOk src d = true :=
  ⟨(calmOn State.reset).set COX_STATUS_FROZEN 1, (.hfp 16 0x14b6#16 1 [0xd8#8, 0x13#8]), 0x3000003000000000000000000000000004bb5010b#512, by decide +kernel⟩

theorem test_meets_FrozenRefusals_1 : ∃ (s : State) (src : CmdSrc) (d : Desc),
    s.hif.running = none ∧ descHeaderOk d = true ∧ [0, 1].contains s.power = true ∧ s.frozen = true ∧ s.commitOk d = true :=
  ⟨(calmOn State.reset).set COX_STATUS_FROZEN 1, .localRing, 0x404000000000000000000000000f4ed0147#512, by decide +kernel⟩

theorem test_meets_FrozenRefusals_2 : ∃ (s : State) (src : CmdSrc) (d : Desc),
    s.hif.running = none ∧ descHeaderOk d = true ∧ [0, 1].contains s.power = true ∧ s.frozen = true ∧ s.reanchorOk d = true :=
  ⟨(calmOn State.reset).set COX_STATUS_FROZEN 1, .localRing, 0xb2d05e000000000000000103000000000000000000000000845b0000#512, by decide +kernel⟩

theorem test_meets_FrozenRefusals_3 : ∃ (s : State) (src : CmdSrc) (d : Desc),
    s.hif.running = none ∧ descHeaderOk d = true ∧ [0, 1].contains s.power = true ∧ s.frozen = true ∧ s.activateOk d = true :=
  ⟨(calmOn State.reset).set COX_STATUS_FROZEN 1, .localRing, 0x50000000000000000000000000000000000000000000000000000000000000000f4ed0100#512, by decide +kernel⟩

theorem test_meets_FrozenRefusals_4 : ∃ (s : State) (src : CmdSrc) (d : Desc),
    s.hif.running = none ∧ descHeaderOk d = true ∧ [0, 1].contains s.power = true ∧ s.frozen = true ∧ descBits d 16 8 < 2 ∧ descZero d 17 64 = true :=
  ⟨(calmOn State.reset).set COX_STATUS_FROZEN 1, .localRing, 0x1000000000000000000000000f4ed0100#512, by decide +kernel⟩

theorem test_meets_FrozenRefusals_5 : ∃ (s : State) (src : CmdSrc) (d : Desc),
    s.hif.running = none ∧ descHeaderOk d = true ∧ [0, 1].contains s.power = true ∧ s.frozen = true ∧ src = .localRing ∧ descBits d 16 8 = 2 ∧ descZero d 17 64 = true :=
  ⟨(calmOn State.reset).set COX_STATUS_FROZEN 1, .localRing, 0x2000000000000000000000000068d0100#512, by decide +kernel⟩

theorem test_meets_FrozenRefusals_6 : ∃ (s : State) (src : CmdSrc) (d : Desc),
    s.hif.running = none ∧ descHeaderOk d = true ∧ [0, 1].contains s.power = true ∧ s.frozen = true ∧ src = .localRing ∧ descBits d 16 8 = 0 ∧ descZero d 17 64 = true :=
  ⟨(calmOn State.reset).set COX_STATUS_FROZEN 1, .localRing, 0x68d0100#512, by decide +kernel⟩

theorem test_meets_CompletionsReachTheHost_0 : ∃ (s : State) (src : CmdSrc) (d : Desc),
    src = .localRing ∧ s.takesCommand d [0, 1, 2] false ∧ descZero d 16 64 = true ∧ descBits d 1 1 = 0 ∧ s.cmdRuns = true ∧ ((List.range 8).all fun i => !within (s.get HIF_ST_BASE_ADDR * 4096) 4 ((s.cmdSlot + 8 + i) % 2 ^ 64)) = true :=
  ⟨let u := idle State.reset; let v := (((u.set HIF_CTRL_ENABLE 1).set HIF_CMD_CFG_EN 1).set HIF_ST_BASE_ADDR 5).set HIF_CMD_BASE_ADDR 8; { v with hif := { v.hif with stopped := [] } }, .localRing, 0xeba0000#512, by decide +kernel⟩

theorem test_meets_RegistersWithoutAnEffectOfTheirOwn_0 : ∃ (s : State) (who : Initiator) (addr : Word) (data : Word),
    addr.toNat < 2 ^ 26 ∧ s.hostTurned who = false ∧ s.busFree ∧ ((regAt addr.toNat).any fun (x : RegDef × List Nat × Nat) => decide (quietReg x.1.reg = true ∧ msixAt addr.toNat = none)) = true :=
  ⟨State.reset, .cfg, 0x1500024#32, 0x1#32, by decide +kernel⟩

theorem test_meets_SetupAndPortRowsComplete_0 : ∃ (s : State) (who : Initiator) (addr : Word) (data : Word),
    addr.toNat < 2 ^ 26 ∧ ((regAt addr.toNat).any fun (x : RegDef × List Nat × Nat) => decide (quietReg x.1.reg = true ∧ s.takesWrite who addr.toNat data)) = true := test_meets_SetupAccesses_0

theorem test_meets_SetupAndPortRowsComplete_1 : ∃ (s : State) (who : Initiator) (addr : Word),
    who ≠ .cfg ∧ s.hostTurned who = false ∧ addr.toNat < 2 ^ 26 ∧ s.busFree ∧ msixAt addr.toNat = none ∧ ((regAt addr.toNat).any fun (x : RegDef × List Nat × Nat) => decide (plainRead x.1.reg = true ∧ s.up x.1.island (x.2.1.headD 0) = true ∧ s.applies x.1.reg (x.2.1.headD 0) = true)) = true := test_meets_SetupAccesses_1

theorem test_meets_SetupAndPortRowsComplete_2 : ∃ (s : State) (who : Initiator) (addr : Word),
    who ≠ .cfg ∧ s.hostTurned who = false ∧ addr.toNat < 2 ^ 26 ∧ s.busFree ∧ msixAt addr.toNat = none ∧ ((regAt addr.toNat).any fun (x : RegDef × List Nat × Nat) => decide (latches x.1.reg = true ∧ x.2.2 = 0 ∧ s.up x.1.island (x.2.1.headD 0) = true ∧ s.applies x.1.reg (x.2.1.headD 0) = true)) = true := test_meets_SetupAccesses_2

theorem test_meets_SetupAndPortRowsComplete_3 : ∃ (s : State) (who : Initiator) (blk : CntBlock),
    s.takesWrite who (clearReg blk) 1 := test_meets_SetupAccesses_3

theorem test_meets_SetupAndPortRowsComplete_4 : ∃ (s : State) (who : Initiator),
    s.takesWrite who GLB_LOCK 1 := test_meets_SetupAccesses_4

theorem test_meets_SetupAndPortRowsComplete_6 : ∃ (s : State) (src : CmdSrc) (d : Desc),
    s.takesCommand d [0, 1] true ∧ s.stageOk src d = true ∧ s.commitState = 0 ∧ s.remoteMay src = true ∧ s.classOff (2 ^ (stageArgs d).cls) = none ∧ (((stageArgs d).op ≤ 1 → (stageArgs d).index + (stageArgs d).count ≤ classSize (stageArgs d).cls)) ∧ ((List.range (s.stageEntries src (stageArgs d)).length).any (fun k => (s.storedEntry (stageArgs d).cls ((stageArgs d).index + k) ((s.stageEntries src (stageArgs d)).getD k 0)).isNone)) = false ∧ stageTooMuch (s.stagedBank (stageArgs d).cls (stageArgs d).op (stageArgs d).index (s.stageEntries src (stageArgs d))) (stageArgs d).cls = false := test_meets_StagingAndCommits_0

theorem test_meets_SetupAndPortRowsComplete_7 : ∃ (s : State) (src : CmdSrc) (d : Desc),
    s.takesCommand d [0, 1] true ∧ s.commitOk d = true ∧ s.commitRefused src (commitArgs d) = none ∧ (((commitArgs d).fabric = true → s.fabTooLate (commitArgs d).at_ = false)) := test_meets_StagingAndCommits_1

theorem test_meets_SetupAndPortRowsComplete_8 : ∃ (s : State) (us : Word),
    ((s.fab.job).any fun (j : CommitJob) => decide (s.commitState = 1 ∧ j.heated = false ∧ s.hfp.fabMember = none ∧ s.hfp.fabInit = none ∧ heatPassed (s.runHeat (s.candidate j.mask)) = false)) = true := test_meets_StagingAndCommits_2

theorem test_meets_SetupAndPortRowsComplete_9 : ∃ (s : State) (src : CmdSrc) (d : Desc),
    s.takesCommand d [0, 1] false ∧ descZero d 16 64 = true ∧ ((s.fab.job).any fun (j : CommitJob) => decide (s.commitState = 2 ∧ j.upd = false ∧ s.domNs 0 < j.at_)) = true := test_meets_StagingAndCommits_5

theorem test_meets_SetupAndPortRowsComplete_10 : ∃ (s : State),
    ((s.fab.job).any fun (j : CommitJob) => decide (s.commitState = 2 ∧ j.upd = false ∧ s.domNs 0 ≥ j.at_)) = true := test_meets_StagingAndCommits_6

theorem test_meets_SetupAndPortRowsComplete_11 : ∃ (s : State),
    ((s.fab.job).any fun (j : CommitJob) => decide (s.commitState = 3 ∧ s.drained = true)) = true := test_meets_StagingAndCommits_7

theorem test_meets_SetupAndPortRowsComplete_12 : ∃ (s : State) (src : CmdSrc) (d : Desc),
    s.takesCommand d [0, 1] false ∧ src = .localRing ∧ descBits d 16 64 % 64 = 0 ∧ descBits d 24 8 ≤ 1 ∧ descZero d 25 28 = true ∧ 1 ≤ descBits d 28 32 ∧ descBits d 28 32 ≤ 67584 ∧ descZero d 32 64 = true ∧ s.get HEAT_STATUS_RESULT ≠ 0 := test_meets_StagingAndCommits_8

theorem test_meets_SetupAndPortRowsComplete_13 : ∃ (s : State) (who : Initiator) (n : Fin 64) (value : Word),
    s.takesWrite who (PRT_MODE n.val) (withBit value 0) := test_meets_PortRegistersAct_0

theorem test_meets_SetupAndPortRowsComplete_14 : ∃ (s : State) (who : Initiator) (n : Fin 64) (value : Word),
    s.takesWrite who (PRT_MODE n.val) (noBit value 0) := test_meets_PortRegistersAct_1

theorem test_meets_SetupAndPortRowsComplete_15 : ∃ (s : State) (who : Initiator) (n : Fin 64) (value : Word),
    s.takesWrite who (PRT_MODE n.val) value ∧ s.on (PRT_MODE_ENABLE n.val) = true ∧ bit value.toNat 0 = true ∧ s.get (PRT_MODE_LOOPBACK n.val) ≠ bits value.toNat 16 2 ∧ s.up .port n.val = true := test_meets_PortRegistersAct_2

theorem test_meets_SetupAndPortRowsComplete_16 : ∃ (s : State) (who : Initiator) (n : Fin 64),
    s.takesWrite who (PRT_DIAG n.val) 1 := test_meets_PortRegistersAct_3

theorem test_meets_SetupAndPortRowsComplete_17 : ∃ (s : State) (who : Initiator) (n : Fin 64) (value : Word),
    s.takesWrite who (PRT_MDIO_CMD n.val) (withBit value 31) := test_meets_PortRegistersAct_4

theorem test_meets_SetupAndPortRowsComplete_18 : ∃ (s : State) (n : Fin 64) (crcOk : Bool) (partner : Bool),
    s.up .port n.val = true ∧ (s.prtOf n.val).analog = true ∧ (s.link n.val = 0 ∨ s.link n.val = 6) := test_meets_LinkRows_0

theorem test_meets_SetupAndPortRowsComplete_19 : ∃ (s : State) (n : Fin 64) (agreed : Bool),
    s.up .port n.val = true ∧ s.link n.val = 1 ∧ agreed = true ∧ s.isT1 n.val = true := test_meets_LinkRows_1

theorem test_meets_SetupAndPortRowsComplete_20 : ∃ (s : State) (n : Fin 64) (res : LinkResult),
    s.up .port n.val = true ∧ s.linkForced n.val = false ∧ s.link n.val = 2 ∧ (res.speedOk || isS n.val) = true := test_meets_LinkRows_2

theorem test_meets_SetupAndPortRowsComplete_21 : ∃ (s : State) (n : Fin 64) (partner : Bool),
    s.up .port n.val = true ∧ s.link n.val = 4 ∧ s.get (PRT_MODE_LOOPBACK n.val) ≠ 1 ∧ s.get (PRT_LINK_CFG_LINK_HOLD n.val) ≠ 0 := test_meets_LinkRows_3

theorem test_meets_SetupAndPortRowsComplete_22 : ∃ (s : State) (n : Fin 64) (partner : Bool),
    s.up .port n.val = true ∧ s.link n.val = 5 := test_meets_LinkRows_4

theorem test_meets_SetupAndPortRowsComplete_23 : ∃ (s : State) (n : Fin 64),
    s.up .port n.val = true ∧ s.link n.val = 5 := test_meets_LinkRows_5

theorem test_meets_SetupAndPortRowsComplete_24 : ∃ (s : State) (n : Fin 64) (corr : Fin 257) (rtd : BitVec 16) (page : Bool) (partner : Bool),
    s.up .port n.val = true ∧ s.link n.val = 3 ∧ (s.prtOf n.val).probed = false := test_meets_LinkRows_6

theorem test_meets_SetupAndPortRowsComplete_25 : ∃ (s : State) (n : Fin 64) (partner : Bool),
    s.up .port n.val = true ∧ s.link n.val = 3 := test_meets_LinkRows_7

theorem test_meets_SetupAndPortRowsComplete_26 : ∃ (s : State) (n : Fin 64) (sqi : Fin 8) (phyErrs : Nat) (fecCorr : Nat),
    s.up .port n.val = true ∧ s.isT1 n.val = true ∧ s.link n.val = 4 := test_meets_LineRows_0

theorem test_meets_SetupAndPortRowsComplete_27 : ∃ (s : State) (n : Fin 64),
    s.up .port n.val = true ∧ s.tc10On n.val = true ∧ s.link n.val = 4 ∧ s.power ≠ 3 := test_meets_LineRows_1

theorem test_meets_SetupAndPortRowsComplete_28 : ∃ (s : State) (n : Fin 64),
    s.pwr.waitAck.contains n.val = true ∧ s.pwr.goal = none ∧ s.link n.val = 4 := test_meets_LineRows_2

theorem test_meets_SetupAndPortRowsComplete_29 : ∃ (s : State) (n : Fin 64),
    s.power = 3 ∧ s.pwr.waitAck.contains n.val = true := test_meets_LineRows_3

theorem test_meets_SetupAndPortRowsComplete_30 : ∃ (s : State) (n : Fin 64),
    s.up .port n.val = true ∧ s.tc10On n.val = true ∧ s.link n.val = 6 ∧ s.power = 0 ∧ s.on (PRT_MODE_ENABLE n.val) = true ∧ s.on (PRT_RESUME_INFO_VALID n.val) = false ∧ s.get (PRT_MODE_LOOPBACK n.val) ≠ 1 := test_meets_LineRows_4

theorem test_meets_SetupAndPortRowsComplete_31 : ∃ (s : State) (n : Fin 64),
    s.up .port n.val = true ∧ isS n.val = true ∧ s.on (PRT_MODE_TC10_EN n.val) = true ∧ s.link n.val = 6 ∧ s.power = 0 ∧ s.on (PRT_MODE_ENABLE n.val) = true ∧ s.on (PRT_RESUME_INFO_VALID n.val) = false ∧ s.get (PRT_MODE_LOOPBACK n.val) ≠ 1 := test_meets_LineRows_5

theorem test_meets_SetupAndPortRowsComplete_32 : ∃ (s : State) (n : Fin 64) (result : Fin 5) (distance : BitVec 16),
    s.up .port n.val = true ∧ s.link n.val = 7 := test_meets_LineRows_6

theorem test_meets_SetupAndPortRowsComplete_33 : ∃ (s : State) (bus : Fin 2) (rdata : BitVec 16),
    (SMap.find s.mdioBus bus.val).isSome = true := test_meets_LineRows_7

theorem test_meets_SetupAndPortRowsComplete_34 : ∃ (s : State) (n : Fin 64),
    s.plcaRuns n.val = true ∧ s.get (PRT_MODE_ROLE n.val) = 0 := test_meets_LineRows_8

theorem test_meets_SetupAndPortRowsComplete_35 : ∃ (s : State) (n : Fin 64),
    s.plcaRuns n.val = true := test_meets_LineRows_9

theorem test_meets_SetupAndPortRowsComplete_36 : ∃ (s : State) (n : Fin 64),
    s.plcaRuns n.val = true ∧ s.get (PRT_MODE_ROLE n.val) = 1 := test_meets_LineRows_10

theorem test_meets_FrameAndStoreRowsComplete_0 : ∃ (s : State) (f : FrameIn) (rivals : List (Fin 70)),
    s.takesFrames f.port.val = true ∧ s.framesStopped = false ∧ s.power ≠ 2 ∧ s.rxAt f.port.val f.fid = none ∧ macControl f.bytes = false ∧ s.mayCut f.port.val (s.rxOf f).epoch = true ∧ s.on FST_STATUS_READY = true ∧ s.freeSharedHandles ≠ 0 ∧ s.served (f.port.val :: rivals.map (·.val)) = some f.port.val ∧ (s.cutPlace f.bytes f.port.val).isSome = true := test_meets_FramesComeIn_0

theorem test_meets_FrameAndStoreRowsComplete_1 : ∃ (s : State) (f : FrameIn) (whole : Bool),
    s.takesFrames f.port.val = true ∧ s.framesStopped = false ∧ s.power ≠ 2 ∧ s.rxAt f.port.val f.fid = none ∧ macControl f.bytes = false ∧ s.up .fabric = true ∧ s.rxSecure (s.rxOf f).epoch f.port.val = false ∧ s.up .umpire = true := test_meets_FramesComeIn_1

theorem test_meets_FrameAndStoreRowsComplete_2 : ∃ (s : State) (f : FrameIn) (v : RxVerdict) (rivals : List (Fin 70)),
    s.takesFrames f.port.val = true ∧ s.framesStopped = false ∧ s.power ≠ 2 ∧ s.rxAt f.port.val f.fid = none ∧ macControl f.bytes = false ∧ s.commitState ≠ 3 ∧ s.fab.parityDue = [] ∧ s.rxSecure (s.rxOf f).epoch f.port.val = false ∧ v.assyErr = false ∧ v.fcsOk = true ∧ v.phyErrs = 0 ∧ 64 ≤ f.bytes.length + 4 ∧ f.bytes.length + 4 ≤ classMax f.port.val := test_meets_FramesComeIn_3

theorem test_meets_FrameAndStoreRowsComplete_3 : ∃ (s : State) (port : Fin 70) (fid : Nat) (rivals : List (Fin 70)),
    ((s.rxAt port.val fid).any fun (x : RxFrame) => decide (s.power ≠ 2 ∧ s.commitState ≠ 3 ∧ s.fab.parityDue = [] ∧ x.desc.isSome = true ∧ x.descHere = false ∧ x.settled = false ∧ x.ended = false ∧ x.handle = none)) = true := test_meets_FramesComeIn_4

theorem test_meets_FrameAndStoreRowsComplete_4 : ∃ (s : State) (port : Fin 70) (fid : Nat) (bytes : List Byte) (age : Nat),
    ((s.rxAt port.val fid).any fun (x : RxFrame) => decide (((x.handle).any fun (h : Nat) => decide (((s.handle h).any fun (y : Handle) => decide (x.ended = false ∧ s.commitState ≠ 3 ∧ s.entriesOf h = 0 ∧ y.refcnt = 0 ∧ y.parBad = 0 ∧ s.fab.frer = [] ∧ s.fab.parityDue = [])) = true)) = true)) = true := test_meets_FramesComeIn_6

theorem test_meets_FrameAndStoreRowsComplete_5 : ∃ (s : State) (port : Fin 70) (fid : Nat) (bytes : List Byte) (age : Nat),
    ((s.rxAt port.val fid).any fun (x : RxFrame) => decide (((x.handle).any fun (h : Nat) => decide (((s.handle h).any fun (y : Handle) => decide (((x.stream).any fun (k : Nat) => decide (x.ended = false ∧ x.desc.any (·.outcome == 1) = false ∧ s.commitState ≠ 3 ∧ s.entriesOf h = 0 ∧ y.refcnt = 0 ∧ y.parBad = 0 ∧ s.fab.frer = [] ∧ s.fab.parityDue = [])) = true)) = true)) = true)) = true := test_meets_FramesComeIn_7

theorem test_meets_FrameAndStoreRowsComplete_6 : ∃ (s : State) (n : Fin 70) (ecc : Fin 3) (delay : Nat),
    (decide (ecc = 0) && decide (s.commitState ≠ 3) && decide (s.up .fabric = true) && decide (s.power ≠ 2) && decide (s.portServes n.val = true) && decide ((s.svc n.val).sending = none) && decide ((s.svc n.val).rest = none) && decide ((s.svc n.val).entry = none) && ((s.selectLane n.val).any fun r => (((s.lane n.val r.1).head?).any fun c => ((s.handle c.handle).any fun h => decide (s.fab.parityDue = []) && decide (h.parBad = 0) && decide (s.frameErrs h 0 = []) && decide (h.state = 1) && decide (s.ringDown n.val c = none) && decide (s.aged n.val r.1 h.arrival = false) && decide (64 ≤ n.val) && decide (n.val ≠ 65) && decide (n.val ≠ 67) && decide (s.txSecure n.val = false))))) = true := test_meets_CopiesGoOut_0

theorem test_meets_FrameAndStoreRowsComplete_7 : ∃ (s : State) (n : Fin 70),
    (decide (s.commitState ≠ 3) && decide (s.up .fabric = true) && decide (s.power ≠ 2) && decide (s.portServes n.val = true) && decide ((s.svc n.val).sending = none) && decide ((s.svc n.val).rest = none) && decide ((s.svc n.val).entry = none) && ((s.selectLane n.val).any fun r => (((s.lane n.val r.1).head?).any fun c => ((s.handle c.handle).any fun h => decide (s.fab.parityDue = []) && decide (h.parBad = 0) && decide (s.frameErrs h 0 = []) && decide (h.state = 1) && decide (s.ringDown n.val c = none) && decide (s.aged n.val r.1 h.arrival = false) && decide (64 ≤ n.val) && decide (n.val ≠ 65) && decide (n.val ≠ 67) && decide (s.txSecure n.val = false))))) = true := test_meets_CopiesGoOut_1

theorem test_meets_FrameAndStoreRowsComplete_8 : ∃ (s : State) (n : Fin 70),
    s.commitState ≠ 3 ∧ s.up .fabric = true ∧ n.val = 69 ∧ (((s.svc n.val).sending).any fun (x : Sending) => decide (((s.handle x.copy.handle).any fun (h : Handle) => decide (h.state = 1 ∧ h.refcnt = 1 ∧ h.parBad = 0 ∧ s.fab.parityDue = [] ∧ x.copy.rsv = false ∧ (s.svc n.val).entry = none ∧ h.quotaOf = none)) = true)) = true := test_meets_CopiesGoOut_2

theorem test_meets_FrameAndStoreRowsComplete_9 : ∃ (s : State) (n : Fin 64),
    s.up .time = true ∧ (((SMap.get s.tim.stampsWait [] n.val).find? (·.ready)).any fun (r : StampRec) => decide (r.source = 64)) = true := test_meets_CopiesGoOut_3

theorem test_meets_FrameAndStoreRowsComplete_10 : ∃ (s : State) (n : Fin 70),
    ((s.gateList n.val).any fun (g : GateList) => decide (((SMap.find s.fab.gates n.val).any fun (st : Gate) => decide (s.up .fabric = true ∧ shortDiff (s.short g.domain) st.next ≥ 0 ∧ (s.svc n.val).sending = none ∧ st.index + 1 < (gateSpans g.cycle g.ops 0).length)) = true)) = true := test_meets_GatesAndMerge_0

theorem test_meets_FrameAndStoreRowsComplete_11 : ∃ (s : State) (who : Initiator) (n : Fin 70) (value : Word),
    s.takesWrite who (GTE_HOLD n.val) value := test_meets_GatesAndMerge_2

theorem test_meets_FrameAndStoreRowsComplete_12 : ∃ (s : State) (n : Fin 32),
    s.up .fabric = true ∧ s.get (LNE_MM_STATUS_VERIFY n.val) = 2 := test_meets_GatesAndMerge_3

theorem test_meets_FrameAndStoreRowsComplete_13 : ∃ (s : State) (n : Fin 32),
    s.up .fabric = true ∧ s.get (LNE_MM_STATUS_VERIFY n.val) = 2 := test_meets_GatesAndMerge_4

theorem test_meets_FrameAndStoreRowsComplete_14 : ∃ (s : State),
    s.up .fabric = true := test_meets_ObservationAndDatabase_0

theorem test_meets_FrameAndStoreRowsComplete_15 : ∃ (s : State) (who : Initiator),
    s.takesWrite who LNE_CNT_CLEAR 2 := test_meets_ObservationAndDatabase_1

theorem test_meets_FrameAndStoreRowsComplete_16 : ∃ (s : State),
    s.up .fabric = true ∧ s.on FWD_AGE_AGE_EN = true ∧ s.fab.ageTick + s.get FWD_AGE_AGE_TIME * 500000000 ≤ s.refTicks := test_meets_ObservationAndDatabase_2

theorem test_meets_FrameAndStoreRowsComplete_17 : ∃ (s : State) (who : Initiator) (value : Word),
    s.takesWrite who FWD_AGE value := test_meets_ObservationAndDatabase_4

theorem test_meets_FrameAndStoreRowsComplete_18 : ∃ (s : State) (src : CmdSrc) (d : Desc),
    s.takesCommand d [0, 1] false ∧ (descBits d 16 8 < 70 ∨ descBits d 16 8 = 0xFF) ∧ descBits d 17 8 < 2 ∧ descBits d 18 16 < 4096 ∧ descZero d 20 64 = true ∧ (descBits d 17 1 = 0 ∨ (1 ≤ descBits d 18 12 ∧ descBits d 18 12 ≤ 4094)) := test_meets_ObservationAndDatabase_5

theorem test_meets_FrameAndStoreRowsComplete_19 : ∃ (s : State) (src : CmdSrc) (d : Desc),
    s.takesCommand d [0, 1] false ∧ dumpOk src d 65536 = true := test_meets_ObservationAndDatabase_6

theorem test_meets_FrameAndStoreRowsComplete_20 : ∃ (s : State) (who : Initiator) (value : Word),
    s.takesWrite who REC_CTRL (withBit value 0) ∧ s.on REC_CTRL_ENABLE = false := test_meets_RecorderActs_0

theorem test_meets_FrameAndStoreRowsComplete_21 : ∃ (s : State) (who : Initiator) (value : Word),
    s.takesWrite who REC_CTRL (noBit value 0) ∧ s.on REC_CTRL_ENABLE = true := test_meets_RecorderActs_1

theorem test_meets_FrameAndStoreRowsComplete_22 : ∃ (s : State),
    s.up .dram = true ∧ s.dram.open_ = true ∧ s.recState = 1 ∧ s.get REC_HEAD_PAGE + 1 < s.get REC_PAGES_PAGES := test_meets_RecorderActs_2

theorem test_meets_FrameAndStoreRowsComplete_23 : ∃ (s : State) (src : CmdSrc) (d : Desc),
    s.takesCommand d [0, 1] false ∧ descBits d 16 8 = 1 ∧ descZero d 17 64 = true ∧ s.pdOn 8 = true ∧ (s.recState = 1 ∨ s.recState = 2) ∧ s.dram.open_ = false := test_meets_RecorderActs_3

theorem test_meets_FrameAndStoreRowsComplete_24 : ∃ (s : State) (src : CmdSrc) (d : Desc),
    s.takesCommand d [0, 1] false ∧ descZero d 16 64 = true ∧ s.pdOn 8 = true ∧ s.recState = 3 := test_meets_RecorderActs_4

theorem test_meets_FrameAndStoreRowsComplete_25 : ∃ (s : State) (src : CmdSrc) (d : Desc),
    s.takesCommand d [0, 1] false ∧ src = .localRing ∧ descBits d 16 64 % 64 = 0 ∧ descBits d 24 32 < s.get REC_PAGES_PAGES ∧ descBits d 28 32 = 1 ∧ descZero d 32 64 = true ∧ s.pdOn 8 = true ∧ (s.recState = 0 ∨ s.recState = 3) ∧ s.dram.badWords = [] := test_meets_RecorderActs_5

theorem test_meets_FrameAndStoreRowsComplete_26 : ∃ (s : State) (who : Initiator) (value : Word),
    s.takesWrite who REC_DRAM_CFG (withBit value 0) ∧ s.on REC_DRAM_CFG_ENABLE = false := test_meets_StoreAndDram_0

theorem test_meets_FrameAndStoreRowsComplete_27 : ∃ (s : State) (ok : Bool),
    s.up .dram = true ∧ s.on REC_DRAM_CFG_ENABLE = true ∧ s.on REC_DRAM_STATUS_READY = false ∧ s.on REC_DRAM_STATUS_TRAIN_ERR = false ∧ (match s.runningKind with | some (.updLoad _ _ _ _) => false | _ => true) = true := test_meets_StoreAndDram_1

theorem test_meets_FrameAndStoreRowsComplete_28 : ∃ (s : State) (who : Initiator) (value : Word),
    s.takesWrite who FST_CTRL (withBit value 0) ∧ s.on FST_CTRL_RUN = false := test_meets_StoreAndDram_3

theorem test_meets_FrameAndStoreRowsComplete_29 : ∃ (s : State),
    s.up .fabric = true ∧ s.on FST_CTRL_RUN = true ∧ s.on FST_STATUS_READY = false := test_meets_StoreAndDram_4

theorem test_meets_FrameAndStoreRowsComplete_30 : ∃ (s : State) (ecc : Fin 4),
    s.up .fabric = true ∧ s.on FST_CTRL_SCRUB_EN = true ∧ s.on FST_STATUS_READY = true ∧ s.commitState ≠ 3 ∧ s.fab.handles = [] ∧ s.fab.suspect = [] ∧ ecc.val < 2 ∧ SMap.get s.fab.badWords 0 s.fab.scrub = 0 ∧ s.on (INJ_ARM_ARM 8) = false := test_meets_StoreAndDram_5

theorem test_meets_FrameAndStoreRowsComplete_31 : ∃ (s : State),
    s.up .umpire = true := test_meets_PinholesAndImages_0

theorem test_meets_FrameAndStoreRowsComplete_32 : ∃ (s : State),
    s.up .umpire = true ∧ ((s.ump.tcamBad.head?).any fun (i : Nat) => decide (s.ump.tcamBad.Nodup ∧ s.ump.patBad.Nodup)) = true := test_meets_PinholesAndImages_1

theorem test_meets_FrameAndStoreRowsComplete_33 : ∃ (s : State) (src : CmdSrc) (d : Desc),
    s.takesCommand d [0, 1] false ∧ descBits d 16 8 < 2 ∧ descBits d 17 8 < 16 ∧ descZero d 18 64 = true ∧ s.pdOn 4 = true := test_meets_PinholesAndImages_2

theorem test_meets_FrameAndStoreRowsComplete_34 : ∃ (s : State) (src : CmdSrc) (d : Desc),
    s.takesCommand d [0, 1] false ∧ dumpOk src d 16384 = true ∧ s.pdOn 4 = true := test_meets_PinholesAndImages_3

theorem test_meets_FrameAndStoreRowsComplete_35 : ∃ (s : State) (who : Initiator) (unit : ImgUnit) (value : Word),
    s.takesWrite who (imgReg unit) (withBit value 31) ∧ bit (s.rd (imgReg unit)).toNat 31 = false := test_meets_PinholesAndImages_4

theorem test_meets_FrameAndStoreRowsComplete_36 : ∃ (s : State) (unit : ImgUnit) (ok : Bool),
    s.up (unitIsland unit) = true ∧ s.on (unitImgBusy unit) = true ∧ s.pwr.goal = none ∧ (s.pwr.want = 0 ∨ bit s.pwr.want (domainOf (unitIsland unit) 0) = true) := test_meets_PinholesAndImages_5

theorem test_meets_FrameAndStoreRowsComplete_37 : ∃ (s : State) (unit : ImgUnit) (ok : Bool),
    s.up (unitIsland unit) = true ∧ s.pwr.loading.contains (unitIdx unit) = true ∧ s.power ≠ 5 ∧ ok = false ∧ unit = .ump := test_meets_PinholesAndImages_6

theorem test_meets_TimeRowsComplete_0 : ∃ (s : State) (who : Initiator) (d : Fin 4) (value : Word),
    s.takesWrite who (TIM_DOM_CFG d.val) (withBit value 0) ∧ s.domEn d.val = false := test_meets_DomainsAndTime_0

theorem test_meets_TimeRowsComplete_1 : ∃ (s : State) (who : Initiator) (d : Fin 4) (value : Word),
    s.takesWrite who (TIM_DOM_CFG d.val) (noBit value 0) ∧ s.domEn d.val = true := test_meets_DomainsAndTime_1

theorem test_meets_TimeRowsComplete_2 : ∃ (s : State) (who : Initiator) (d : Fin 4) (value : Word),
    s.takesWrite who (TIM_INCR d.val) value := test_meets_DomainsAndTime_2

theorem test_meets_TimeRowsComplete_3 : ∃ (s : State) (who : Initiator) (d : Fin 4) (value : Word),
    s.takesWrite who (TIM_SLEW d.val) value ∧ s.domEn d.val = true ∧ (s.domState d.val ≠ 2 ∨ (s.injArmedFor 18 d.val = false ∧ s.on (TIM_DOM_STATUS_JUMP_REFUSED d.val) = false ∧ (sext 32 value.toNat).natAbs ≤ s.get (TIM_JUMP_LIMIT_LIMIT d.val))) := test_meets_DomainsAndTime_3

theorem test_meets_TimeRowsComplete_4 : ∃ (s : State) (who : Initiator) (d : Fin 4) (upper : Word),
    s.takesWrite who (TIM_STEP d.val + 4) upper ∧ s.commitState ≠ 2 ∧ s.domEn d.val = true ∧ s.domState d.val ≠ 2 := test_meets_DomainsAndTime_5

theorem test_meets_TimeRowsComplete_5 : ∃ (s : State) (who : Initiator) (d : Fin 4) (value : Word),
    s.takesWrite who (TIM_SET_NS d.val) (withBit value 31) ∧ s.commitState ≠ 2 ∧ s.domEn d.val = true ∧ s.injArmedFor 17 d.val = false := test_meets_DomainsAndTime_7

theorem test_meets_TimeRowsComplete_6 : ∃ (s : State) (d : Fin 4),
    s.up .time = true ∧ s.domEn d.val = true ∧ SMap.get s.tim.slew 0 d.val ≠ 0 := test_meets_DomainsAndTime_8

theorem test_meets_TimeRowsComplete_7 : ∃ (s : State) (who : Initiator) (d : Fin 4),
    s.takesWrite who (TIM_SERVO_CTRL d.val) 1 := test_meets_ServosAndReanchor_0

theorem test_meets_TimeRowsComplete_8 : ∃ (s : State) (who : Initiator) (d : Fin 4),
    s.takesWrite who (TIM_SERVO_CTRL d.val) 2 ∧ s.injArmedFor 17 d.val = false := test_meets_ServosAndReanchor_1

theorem test_meets_TimeRowsComplete_9 : ∃ (s : State) (d : Fin 4),
    s.up .time = true ∧ s.domEn d.val = true ∧ s.domState d.val = 2 := test_meets_ServosAndReanchor_2

theorem test_meets_TimeRowsComplete_10 : ∃ (s : State) (d : Fin 4),
    s.up .time = true ∧ s.domEn d.val = true ∧ s.domState d.val = 4 := test_meets_ServosAndReanchor_3

theorem test_meets_TimeRowsComplete_11 : ∃ (s : State) (src : CmdSrc) (d : Desc),
    s.takesCommand d [0, 1] true ∧ s.reanchorOk d = true ∧ s.commitState ≠ 2 ∧ s.reanchorRefused src d = none := test_meets_ServosAndReanchor_4

theorem test_meets_TimeRowsComplete_12 : ∃ (s : State) (who : Initiator) (c : Fin 16) (value : Word),
    s.takesWrite who (TIM_CATCH_CFG c.val) (withBit value 1) ∧ s.on (TIM_CATCH_CFG_ARM c.val) = false := test_meets_CatchBuoyAndReads_0

theorem test_meets_TimeRowsComplete_13 : ∃ (s : State) (who : Initiator) (c : Fin 16) (value : Word),
    s.takesWrite who (TIM_CATCH_CFG c.val) (noBit value 1) ∧ s.on (TIM_CATCH_CFG_ARM c.val) = true := test_meets_CatchBuoyAndReads_1

theorem test_meets_TimeRowsComplete_14 : ∃ (s : State) (c : Fin 16),
    ((SMap.find s.tim.catchNext c.val).any fun (k : Nat) => decide (s.up .time = true ∧ s.domEn (s.get (TIM_CATCH_CFG_DOMAIN c.val)) = true ∧ s.on (TIM_CATCH_CFG_ARM c.val) = true ∧ s.catchDue c.val k = true)) = true := test_meets_CatchBuoyAndReads_2

theorem test_meets_TimeRowsComplete_15 : ∃ (s : State) (c : Fin 16),
    s.up .time = true ∧ SMap.get s.tim.catchPulse false c.val = true := test_meets_CatchBuoyAndReads_3

theorem test_meets_TimeRowsComplete_16 : ∃ (s : State) (b : Fin 16) (rising : Bool),
    s.up .time = true ∧ s.buoyTakes b.val rising = true ∧ (SMap.get s.tim.buoyFifo [] b.val).length < 8 ∧ ((s.lockers b.val).isEmpty = true ∨ rising = false) := test_meets_CatchBuoyAndReads_4

theorem test_meets_TimeRowsComplete_17 : ∃ (s : State) (who : Initiator) (b : Fin 16),
    s.takesWrite who (TIM_BUOY_POP b.val) 1 := test_meets_CatchBuoyAndReads_5

theorem test_meets_TimeRowsComplete_18 : ∃ (s : State) (who : Initiator),
    s.takesWrite who TIM_SNAP_CTRL 1 := test_meets_CatchBuoyAndReads_6

theorem test_meets_TimeRowsComplete_19 : ∃ (s : State) (who : Initiator) (d : Fin 4),
    who ≠ .cfg ∧ s.hostTurned who = false ∧ s.busFree ∧ s.up .time = true := test_meets_CatchBuoyAndReads_7

theorem test_meets_EdgeRowsComplete_0 : ∃ (s : State) (who : Initiator) (c : Fin 32) (value : Word),
    s.takesWrite who (EDG_CAN_CTRL c.val) (withBit value 0) ∧ s.on (EDG_CAN_CTRL_ENABLE c.val) = false ∧ s.canState c.val = 0 ∧ bit value.toNat 4 = false := test_meets_CanChannels_0

theorem test_meets_EdgeRowsComplete_1 : ∃ (s : State) (who : Initiator) (c : Fin 32) (value : Word),
    s.takesWrite who (EDG_CAN_CTRL c.val) (noBit value 0) ∧ s.on (EDG_CAN_CTRL_ENABLE c.val) = true ∧ bit value.toNat 4 = false := test_meets_CanChannels_1

theorem test_meets_EdgeRowsComplete_2 : ∃ (s : State) (who : Initiator) (c : Fin 32),
    s.takesWrite who (EDG_CAN_CTRL c.val) (withBit (s.rd (EDG_CAN_CTRL c.val)) 4) ∧ s.canState c.val = 4 := test_meets_CanChannels_2

theorem test_meets_EdgeRowsComplete_3 : ∃ (s : State) (c : Fin 32),
    s.up .edge = true ∧ s.canState c.val = 1 ∧ (s.canSt c.val).recovering = false ∧ (s.canSt c.val).txErr < 128 ∧ (s.canSt c.val).rxErr < 128 := test_meets_CanChannels_3

theorem test_meets_EdgeRowsComplete_4 : ∃ (s : State) (c : Fin 32) (f : CanFrame),
    s.canOn c.val = true ∧ f.fmt = 0 ∧ f.rtr = false ∧ (s.canSt c.val).rxErr < 128 ∧ (s.canSt c.val).txErr < 128 ∧ s.on (INJ_ARM_ARM 20) = false ∧ ((pdusOf s.fab.active).any fun p => canMatches p.2 c.val f) = false ∧ (tunsOf s.fab.active).isEmpty = true := test_meets_CanChannels_5

theorem test_meets_EdgeRowsComplete_5 : ∃ (s : State) (c : Fin 32) (e : CanErr),
    s.canOn c.val = true ∧ e.tx = false ∧ e.code ≠ 0 ∧ e.code ≠ 7 ∧ (s.canSt c.val).rxErr < 127 ∧ (s.canSt c.val).txErr < 128 := test_meets_CanChannels_6

theorem test_meets_EdgeRowsComplete_6 : ∃ (s : State) (c : Fin 32),
    s.up .edge = true ∧ (s.canSt c.val).recovering = true := test_meets_CanChannels_8

theorem test_meets_EdgeRowsComplete_7 : ∃ (s : State) (c : Fin 32),
    s.canOn c.val = true ∧ s.get (EDG_CAN_CTRL_MODE c.val) = 0 ∧ (s.canSt c.val).sending = none ∧ s.injArmedFor 21 c.val = false ∧ (canBest ((s.canPrune c.val).canQueue c.val)).isSome = true := test_meets_CanChannels_9

theorem test_meets_EdgeRowsComplete_8 : ∃ (s : State) (c : Fin 32),
    (((s.canSt c.val).sending).any fun (x : Nat × CanTx) => decide (s.bankDrives 11 = true ∧ s.canOn c.val = true ∧ (s.canSt c.val).txErr < 128 ∧ (s.canSt c.val).rxErr < 128)) = true := test_meets_CanChannels_10

theorem test_meets_EdgeRowsComplete_9 : ∃ (s : State) (c : Fin 32),
    s.up .edge = true ∧ (s.canEarliest c.val).isSome = true := test_meets_CanChannels_11

theorem test_meets_EdgeRowsComplete_10 : ∃ (s : State) (who : Initiator) (l : Fin 16) (value : Word),
    s.takesWrite who (EDG_LIN_CTRL l.val) (withBit value 2) ∧ linRuns (s.rd (EDG_LIN_CTRL l.val)).toNat = false ∧ bit value.toNat 0 = true ∧ bit value.toNat 1 = false ∧ bit value.toNat 3 = false := test_meets_LinChannels_0

theorem test_meets_EdgeRowsComplete_11 : ∃ (s : State) (who : Initiator) (l : Fin 16) (value : Word),
    s.takesWrite who (EDG_LIN_CTRL l.val) (noBit value 2) ∧ bit value.toNat 0 = true ∧ bit value.toNat 3 = false := test_meets_LinChannels_1

theorem test_meets_EdgeRowsComplete_12 : ∃ (s : State) (who : Initiator) (l : Fin 16) (value : Word),
    s.takesWrite who (EDG_LIN_SCHED l.val) value := test_meets_LinChannels_2

theorem test_meets_EdgeRowsComplete_13 : ∃ (s : State) (l : Fin 16),
    s.linOn l.val false = true ∧ (s.linSt l.val).running = true ∧ s.on (EDG_LIN_CTRL_RUN l.val) = true ∧ s.on (INJ_ARM_ARM 20) = false ∧ ((some (s.linSlotAt l.val (s.get (EDG_LIN_SCHED_TABLE l.val)) (if s.get (EDG_LIN_SCHED_TABLE l.val) = s.get (EDG_LIN_SCHED_ACTIVE l.val) then (s.linSt l.val).next else 0))).any fun (k : Nat) => decide (s.linSlotOn l.val (s.get (EDG_LIN_SCHED_TABLE l.val)) k = true ∧ ((some (ebits (s.tab 12 (4096 + 256 * l.val + 64 * s.get (EDG_LIN_SCHED_TABLE l.val) + k)) 2 0 12)).any fun (p : Nat) => decide (s.rigBroken 1 p = false ∧ pduValid (s.tab 12 p) = true ∧ pduBus (s.tab 12 p) = 1 ∧ pduChan (s.tab 12 p) = l.val ∧ s.bankDrives 11 = true ∧ pduDir (s.tab 12 p) = 0)) = true)) = true := test_meets_LinChannels_5

theorem test_meets_EdgeRowsComplete_14 : ∃ (s : State) (l : Fin 16) (pid : Byte),
    s.linOn l.val true = true ∧ linPid (pid.toNat % 64) = pid.toNat ∧ s.on (INJ_ARM_ARM 20) = false ∧ s.livePdus.find? (linMatches l.val 1 (pid.toNat % 64)) = none ∧ (s.livePdus.find? (linMatches l.val 0 (pid.toNat % 64))).isSome = true := test_meets_LinChannels_7

theorem test_meets_EdgeRowsComplete_15 : ∃ (s : State) (l : Fin 16) (data : List Byte) (checksum : Byte) (err : Fin 4) (age : Nat),
    s.rigReady = true ∧ s.on (EDG_LIN_CTRL_ENABLE l.val) = true ∧ err.val = 0 ∧ (((s.linSt l.val).wait).any fun (w : Nat × Nat) => decide (((s.linSource l.val w.2 w.1).any fun (p : Nat) => decide (pduLen (s.tab 12 p) = data.length ∧ checksum.toNat = linCheck (s.tab 12 p) data ∧ s.rigRuns = true ∧ s.on (INJ_ARM_ARM 20) = false ∧ (tunsOf s.fab.active).isEmpty = true ∧ (((match (routesOf s.fab.active).filter (fun (r : Nat × Nat) => rtSrc r.2 == p) with | [r] => some r | _ => none)).any fun (r : Nat × Nat) => decide (s.rigBroken 0 r.1 = false ∧ pduBus (s.tab 12 (rtDst r.2)) = 1 ∧ s.tooSoon p = false)) = true)) = true)) = true := test_meets_LinChannels_12

theorem test_meets_EdgeRowsComplete_16 : ∃ (s : State) (l : Fin 16),
    s.rigReady = true ∧ s.on (EDG_LIN_CTRL_ENABLE l.val) = true ∧ (s.linSt l.val).wait.isSome = true ∧ s.on (EDG_LIN_CTRL_ROLE l.val) = false := test_meets_LinChannels_14

theorem test_meets_EdgeRowsComplete_17 : ∃ (s : State) (who : Initiator) (l : Fin 16),
    s.takesWrite who (EDG_LIN_CTRL l.val) (withBit (s.rd (EDG_LIN_CTRL l.val)) 3) ∧ s.on (EDG_LIN_CTRL_ENABLE l.val) = true ∧ s.on (EDG_LIN_CTRL_ROLE l.val) = false ∧ s.rigReady = true ∧ s.bankDrives 11 = true := test_meets_LinChannels_15

theorem test_meets_EdgeRowsComplete_18 : ∃ (s : State),
    ((s.edge.rigIn.head?).any fun (x : List Byte × Nat) => decide (s.rigRuns = true ∧ s.sourceAt x.1 = none ∧ ((tunsOf s.fab.active).any fun u => ebit u.2 16 1) = false)) = true := test_meets_RiggerTicks_0

theorem test_meets_EdgeRowsComplete_19 : ∃ (s : State),
    s.rigRuns = true ∧ (s.cyclicDue (s.edge.tick + 1)).isEmpty = true := test_meets_RiggerTicks_4

theorem test_meets_EdgeRowsComplete_20 : ∃ (s : State),
    s.rigReady = true ∧ s.on (INJ_ARM_ARM 19) = false := test_meets_RiggerTicks_5

theorem test_meets_EdgeRowsComplete_21 : ∃ (s : State) (t : Fin 512),
    s.rigRuns = true ∧ s.on (INJ_ARM_ARM 20) = false ∧ (s.tunSt t.val).msgs ≠ [] ∧ (s.liveTuns.any fun u => u.1 == t.val) = true ∧ s.up .fabric = true ∧ s.framesStopped = false := test_meets_RiggerTicks_7

theorem test_meets_BridgeRowsComplete_0 : ∃ (s : State) (port : Fin 64) (m : HfpMsg),
    s.up .fabric = true ∧ msgOk m = true ∧ (1 ≤ m.typ.toNat ∧ m.typ.toNat ≤ 13) ∧ s.power ≠ 2 ∧ (m.dst ≠ 0xFF ∧ m.dst.toNat ≠ s.ownId) ∧ m.hops ≠ 0 ∧ (s.routePort m.dst.toNat).isSome = true := test_meets_HfpDiscovery_0

theorem test_meets_BridgeRowsComplete_1 : ∃ (s : State) (port : Fin 64) (mac : BitVec 48) (m : HfpMsg),
    s.keepsMsg port { m with typ := 1 } ∧ s.firmware = true ∧ s.hfpPort port.val = true ∧ s.helloClash { m with typ := 1, body := msgData { m with typ := 1 } } = false ∧ s.adjState port.val = 0 ∧ s.authority ≠ some m.src.val := test_meets_HfpDiscovery_2

theorem test_meets_BridgeRowsComplete_2 : ∃ (s : State),
    s.hfpRuns = true ∧ s.firmware = true := test_meets_HfpDiscovery_3

theorem test_meets_BridgeRowsComplete_3 : ∃ (s : State) (port : Fin 64),
    s.hfpRuns = true ∧ s.firmware = true ∧ s.adjState port.val ≠ 0 := test_meets_HfpDiscovery_4

theorem test_meets_BridgeRowsComplete_4 : ∃ (s : State) (port : Fin 64) (m : HfpMsg),
    s.keepsMsg port { m with typ := 2 } ∧ s.firmware = true ∧ m.src.val ≠ s.ownId ∧ (SMap.find s.hfp.lsdb m.src.val).all (fun o => decide (o.seq < beAt (msgData m) 0 4)) = true := test_meets_HfpDiscovery_5

theorem test_meets_BridgeRowsComplete_5 : ∃ (s : State),
    s.hfpRuns = true ∧ s.firmware = true := test_meets_HfpDiscovery_6

theorem test_meets_BridgeRowsComplete_6 : ∃ (s : State) (origin : Fin 32),
    s.hfpRuns = true ∧ s.firmware = true ∧ origin.val ≠ s.ownId := test_meets_HfpDiscovery_7

theorem test_meets_BridgeRowsComplete_7 : ∃ (s : State) (who : Initiator) (addr : Word) (req : RemReq),
    who ≠ .cfg ∧ s.hostTurned who = false ∧ 1 ≤ req.words.length ∧ req.words.length ≤ 64 ∧ ((s.peerOf addr.toNat).any fun (f : Nat) => decide (s.quietBridge ∧ s.maySend (remAsk who f addr.toNat req .access))) = true := test_meets_HfpRequestsOut_0

theorem test_meets_BridgeRowsComplete_8 : ∃ (s : State) (offset : BitVec 26) (req : RemReq),
    s.up .host = true ∧ req.words.length = 1 ∧ (req.write && !req.firstBe) = false ∧ s.on HIF_RWIN_EN = true ∧ s.get HIF_RWIN_PEER ≠ s.ownId ∧ s.quietBridge ∧ s.maySend (remAsk .host (s.get HIF_RWIN_PEER) (2 ^ 31 + s.get HIF_RWIN_PEER * 2 ^ 26 + offset.toNat / 4 * 4) { req with nonPosted := !req.write } (.bar2 s.hfp.nextTlp)) := test_meets_HfpRequestsOut_1

theorem test_meets_BridgeRowsComplete_9 : ∃ (s : State) (port : Fin 64) (m : HfpMsg),
    s.keepsMsg port { m with typ := 7 } ∧ ((s.openReq m.src.val m.tag.toNat).any fun (r : HfpReq) => decide (r.ask.kind = .access ∧ beAt (msgData m) 0 1 = 0 ∧ r.ask.typ = 5 ∧ s.quietBridge)) = true := test_meets_HfpRequestsOut_2

theorem test_meets_BridgeRowsComplete_10 : ∃ (s : State) (peer : Fin 32) (tag : BitVec 16),
    ((s.openReq peer.val tag.toNat).any fun (r : HfpReq) => decide (r.ask.kind = .access ∧ s.quietBridge)) = true := test_meets_HfpRequestsOut_4

theorem test_meets_BridgeRowsComplete_11 : ∃ (s : State) (port : Fin 64) (m : HfpMsg),
    s.keepsMsg port { m with typ := 8 } ∧ s.quietBridge := test_meets_HfpRequestsOut_5

theorem test_meets_BridgeRowsComplete_12 : ∃ (s : State) (peer : Fin 32) (cls : Fin 4),
    ((s.hfp.reqs.find? (fun r => r.ask.posted && r.inStream peer.val cls.val)).any fun (r : HfpReq) => decide (2 ≤ r.ask.init ∧ s.quietBridge)) = true := test_meets_HfpRequestsOut_6

theorem test_meets_BridgeRowsComplete_13 : ∃ (s : State) (port : Fin 64) (m : HfpMsg),
    s.keepsMsg port { m with typ := 9 } ∧ beAt (msgData m) 0 1 ≠ 8 ∧ ((s.hfp.reqs.find? (fun r => r.ask.posted && r.inStream m.src.val m.cls.val && r.tag == m.tag.toNat)).any fun (r : HfpReq) => decide (2 ≤ r.ask.init ∧ s.quietBridge)) = true := test_meets_HfpRequestsOut_8

theorem test_meets_BridgeRowsComplete_14 : ∃ (s : State) (src : CmdSrc) (d : Desc),
    s.takesCommand d [0, 1] false ∧ (descBits d 16 8 ≤ 1 ∨ descBits d 16 8 = 0xFF) ∧ (descBits d 17 8 ≤ 31 ∨ descBits d 17 8 = 0xFF) ∧ descZero d 18 64 = true := test_meets_HfpRequestsOut_9

theorem test_meets_BridgeRowsComplete_15 : ∃ (s : State) (port : Fin 64) (m : HfpMsg),
    m.typ = 5 ∧ s.keepsMsg port m ∧ requestOk m = true ∧ beAt (msgData m) 4 2 = 4 ∧ beAt (msgData m) 0 4 < 2 ^ 26 ∧ readCause (beAt (msgData m) 0 4) = none ∧ s.busHeld = false ∧ s.hfp.busWait = [] ∧ s.hfp.rxStall = [] ∧ m.seq.toNat = SMap.get s.hfp.rxSeq 0 (4 * m.src.val + m.cls.val) ∧ SMap.get s.hfp.rxUnacked 0 (4 * m.src.val + m.cls.val) < 15 ∧ (s.routePort m.src.val).isSome = true ∧ ((s.inc HFP_RX_MSG_COUNT).localRead (.hfp m.src) (beAt (msgData m) 0 4)).2 = s.inc HFP_RX_MSG_COUNT := test_meets_HfpRequestsIn_0

theorem test_meets_BridgeRowsComplete_16 : ∃ (s : State) (port : Fin 64) (m : HfpMsg),
    s.keepsMsg port { m with typ := 6 } ∧ s.busHeld = false ∧ s.hfp.busWait = [] ∧ s.hfp.rxStall = [] ∧ requestOk { m with typ := 6 } = true ∧ 64 ≤ beAt (msgData m) 4 2 ∧ s.peerMay m.src.val = true ∧ m.seq.toNat = SMap.get s.hfp.rxSeq 0 (4 * m.src.val + m.cls.val) ∧ SMap.get s.hfp.rxUnacked 0 (4 * m.src.val + m.cls.val) < 15 ∧ s.hif.running = none ∧ s.cmdPending = false ∧ leAt ((msgData m).drop 8) 0 64 = 0 ∧ (s.power = 0 ∨ s.power = 1) := test_meets_HfpRequestsIn_3

theorem test_meets_BridgeRowsComplete_17 : ∃ (s : State) (peer : Fin 32) (cls : Fin 4),
    s.hfpRuns = true ∧ SMap.get s.hfp.rxUnacked 0 (4 * peer.val + cls.val) ≠ 0 ∧ (s.routePort peer.val).isSome = true := test_meets_HfpRequestsIn_4

theorem test_meets_BridgeRowsComplete_18 : ∃ (s : State) (src : CmdSrc) (d : Desc),
    src = .localRing ∧ s.takesCommand d [0, 1] false ∧ descBits d 16 8 < 32 ∧ descBits d 17 8 < 2 ∧ descZero d 18 24 = true ∧ descBits d 24 64 % 64 = 0 ∧ 64 ≤ descBits d 32 16 ∧ descBits d 32 16 ≤ 256 ∧ descBits d 32 16 % 4 = 0 ∧ descZero d 34 64 = true ∧ descBits d 16 8 ≠ s.ownId ∧ s.hfp.waitReq = [] ∧ s.maySend { peer := descBits d 16 8, cls := descBits d 17 8, init := 0, typ := 6, posted := false, addr := 0, len := descBits d 32 16, data := s.hostBytes (descBits d 24 64) (descBits d 32 16), kind := .cmd } := test_meets_LockedSequences_0

theorem test_meets_BridgeRowsComplete_19 : ∃ (s : State) (src : CmdSrc) (d : Desc),
    src = .localRing ∧ s.takesCommand d [0, 1] false ∧ lockArgsOk d = true ∧ descBits d 16 8 ≠ s.ownId ∧ s.quietBridge ∧ s.up .fabric = true ∧ s.get HFP_LOCK_STATUS_BACKOFF_HOST = 0 ∧ s.maySend { peer := descBits d 16 8, cls := 0, init := 0, typ := 0x0A, posted := false, addr := 0, len := 0, data := lockReqBody (lockArgs d), kind := .lock } := test_meets_LockedSequences_1

theorem test_meets_BridgeRowsComplete_20 : ∃ (s : State) (port : Fin 64) (m : HfpMsg) (cut : Option (Fin 4)),
    s.keepsMsg port { m with typ := 10 } ∧ s.quietBridge ∧ s.power ≠ 2 ∧ s.peerMay m.src.val = true ∧ m.seq.toNat = SMap.get s.hfp.rxSeq 0 (4 * m.src.val + m.cls.val) ∧ SMap.get s.hfp.rxUnacked 0 (4 * m.src.val + m.cls.val) < 15 ∧ ((lockBody (msgData m)).all fun o => o.kind == 0) = true ∧ (cut.all fun k => decide ((lockBody (msgData m)).length ≤ k.val)) = true := test_meets_LockedSequences_3

theorem test_meets_BridgeRowsComplete_21 : ∃ (s : State) (port : Fin 64) (m : HfpMsg),
    s.keepsMsg port { m with typ := 11 } ∧ ((s.openReq m.src.val m.tag.toNat).any fun (r : HfpReq) => decide (r.ask.kind = .lock ∧ ((s.hfp.lockOut).any fun (l : LockSeq) => decide (((s.hif.running).any fun (c : Running) => decide (c.cut = false ∧ r.ask.init = 0 ∧ l.holds = true ∧ s.hfp.busWait = [] ∧ s.hfp.rxStall = [] ∧ s.hfp.waitReq = [] ∧ s.hfp.stalled = [] ∧ s.hfp.lockCox = none)) = true)) = true)) = true := test_meets_LockedSequences_5

theorem test_meets_BridgeRowsComplete_22 : ∃ (s : State) (port : Fin 64) (m : HfpMsg),
    s.keepsMsg port { m with typ := 12 } ∧ s.on HFP_LOCK_STATUS_FAR_HELD = true ∧ s.get HFP_LOCK_STATUS_HOLDER = m.src.val ∧ s.hfp.busWait = [] ∧ s.hfp.rxStall = [] ∧ s.hfp.lockOut = none ∧ s.hfp.lockCox = none := test_meets_LockedSequences_6

theorem test_meets_BridgeRowsComplete_23 : ∃ (s : State),
    s.up .fabric = true ∧ s.on HFP_LOCK_STATUS_FAR_HELD = true ∧ s.hfp.busWait = [] ∧ s.hfp.rxStall = [] ∧ s.hfp.lockOut = none ∧ s.hfp.lockCox = none := test_meets_LockedSequences_7

theorem test_meets_BridgeRowsComplete_24 : ∃ (s : State) (cox : Bool),
    s.up .fabric = true ∧ s.quietBridge := test_meets_LockedSequences_8

theorem test_meets_BridgeRowsComplete_25 : ∃ (s : State) (port : Fin 64) (m : HfpMsg),
    s.keepsMsg port { m with typ := 13 } ∧ s.memberRefuses (cmitOf { m with typ := 13 }) ≠ 0 ∧ (s.routePort m.src.val).isSome = true := test_meets_FabricCommitMembers_0

theorem test_meets_BridgeRowsComplete_26 : ∃ (s : State) (port : Fin 64) (m : HfpMsg),
    s.keepsMsg port { m with typ := 13 } ∧ ((s.heldFrom m).any fun (c : FabMember) => decide (c.phase = 2 ∧ s.frozen = false ∧ s.domNs 0 < c.t ∧ c.update = false ∧ ((s.fab.job).any fun (j : CommitJob) => decide (j.upd = false ∧ (s.routePort c.from_).isSome = true ∧ c.from_ < 32)) = true)) = true := test_meets_FabricCommitMembers_2

theorem test_meets_BridgeRowsComplete_27 : ∃ (s : State) (port : Fin 64) (m : HfpMsg),
    s.keepsMsg port { m with typ := 13 } ∧ ((s.heldFrom m).any fun (c : FabMember) => decide ((s.commitState = 1 ∨ s.commitState = 2) ∧ c.update = false ∧ (s.routePort c.from_).isSome = true ∧ c.from_ < 32)) = true := test_meets_FabricCommitMembers_3

theorem test_meets_BridgeRowsComplete_28 : ∃ (s : State),
    ((s.hfp.fabMember).any fun (c : FabMember) => decide (c.phase = 2 ∧ c.update = false)) = true := test_meets_FabricCommitMembers_4

theorem test_meets_BridgeRowsComplete_29 : ∃ (s : State) (port : Fin 64) (m : HfpMsg),
    s.keepsMsg port { m with typ := 13 } ∧ s.ledBy m = none ∧ ((s.heldFrom m).any fun (c : FabMember) => decide (c.update = true ∧ s.updLive = 7 ∧ s.rst.pw = [] ∧ (s.routePort c.from_).isSome = true ∧ c.from_ < 32)) = true := test_meets_FabricCommitMembers_5

theorem test_meets_BridgeRowsComplete_30 : ∃ (s : State) (port : Fin 64) (m : HfpMsg),
    s.keepsMsg port { m with typ := 13 } ∧ ((s.ledBy m).any fun (f : FabInit) => decide (f.armed = false ∧ f.aborting = false ∧ f.waiting.contains m.src.val = true ∧ (f.waiting.filter (· ≠ m.src.val)).isEmpty = false)) = true := test_meets_FabricCommitInitiator_0

theorem test_meets_BridgeRowsComplete_31 : ∃ (s : State) (port : Fin 64) (m : HfpMsg),
    s.keepsMsg port { m with typ := 13 } ∧ ((s.ledBy m).any fun (f : FabInit) => decide (f.armed = true ∧ f.aborting = false ∧ f.update = false ∧ (f.waiting.filter (· ≠ m.src.val)).isEmpty = false)) = true := test_meets_FabricCommitInitiator_1

theorem test_meets_BridgeRowsComplete_32 : ∃ (s : State),
    ((s.hfp.fabInit).any fun (f : FabInit) => decide (f.armed = false ∧ f.aborting = false ∧ f.update = false ∧ f.waiting ≠ [] ∧ (f.failed.all fun e => e.2 != 5) = true ∧ f.own ≠ some 5)) = true := test_meets_FabricCommitInitiator_2

theorem test_meets_BridgeRowsComplete_33 : ∃ (s : State),
    ((s.hfp.fabInit).any fun (f : FabInit) => decide (f.armed = true ∧ f.aborting = false ∧ f.done = false ∧ f.update = false)) = true := test_meets_FabricCommitInitiator_3

theorem test_meets_BridgeRowsComplete_34 : ∃ (s : State),
    ((s.hfp.fabInit).any fun (f : FabInit) => decide (f.aborting = true ∧ f.waiting ≠ [] ∧ s.domNs 0 < f.t ∧ (f.waiting.all fun p => decide (p < 32) && (s.routePort p).isSome) = true)) = true := test_meets_FabricCommitInitiator_4

theorem test_meets_BridgeRowsComplete_35 : ∃ (s : State),
    ((s.hfp.fabInit).any fun (f : FabInit) => decide (f.update = true ∧ f.done = true ∧ f.aborting = false ∧ s.updLive = 0 ∧ (f.waiting.all fun p => decide (p < 32) && (s.routePort p).isSome) = true)) = true := test_meets_FabricCommitInitiator_6

theorem test_meets_HostAndCoxRowsComplete_0 : ∃ (s : State) (who : Initiator) (ring : Ring) (value : Word),
    s.takesWrite who (ringCfg ring) (withBit value 0) ∧ s.on (ringEn ring) = false ∧ s.hif.heldEvents = [] := test_meets_RingsAndDoorbells_0

theorem test_meets_HostAndCoxRowsComplete_1 : ∃ (s : State) (who : Initiator) (ring : Ring) (value : Word),
    s.takesWrite who (ringCfg ring) (noBit value 0) ∧ s.hif.heldEvents = [] := test_meets_RingsAndDoorbells_1

theorem test_meets_HostAndCoxRowsComplete_2 : ∃ (s : State),
    s.up .host = true ∧ s.on HIF_CTRL_ENABLE = true ∧ s.ringsAgree [] = true := test_meets_RingsAndDoorbells_2

theorem test_meets_HostAndCoxRowsComplete_3 : ∃ (s : State) (who : Initiator),
    s.takesWrite who HIF_KICK 1 ∧ s.on HIF_CTRL_ENABLE = true ∧ s.ringsAgree [] = true := test_meets_RingsAndDoorbells_4

theorem test_meets_HostAndCoxRowsComplete_4 : ∃ (s : State),
    ((s.nextTxRing).any fun (q : Fin 16) => decide (s.framesStopped = false ∧ s.up .fabric = true ∧ 60 ≤ bits (s.hostRd (s.txSlot q) 32) 64 16 ∧ bits (s.hostRd (s.txSlot q) 32) 64 16 ≤ 9212 ∧ bits (s.hostRd (s.txSlot q) 32) 112 8 < 64 ∧ bits (s.hostRd (s.txSlot q) 32) 82 14 = 0 ∧ bits (s.hostRd (s.txSlot q) 32) 120 72 = 0 ∧ bits (s.hostRd (s.txSlot q) 32) 201 7 = 0 ∧ bits (s.hostRd (s.txSlot q) 32) 208 48 = 0)) = true := test_meets_RingsAndDoorbells_5

theorem test_meets_HostAndCoxRowsComplete_5 : ∃ (s : State),
    s.alive = true := test_meets_HostInterfaceRows_0

theorem test_meets_HostAndCoxRowsComplete_6 : ∃ (s : State) (source : Fin 48),
    SMap.get s.hif.holdoff 0 source.val ≠ 2 := test_meets_HostInterfaceRows_5

theorem test_meets_HostAndCoxRowsComplete_7 : ∃ (s : State) (src : CmdSrc) (d : Desc),
    s.takesCommand d [0, 1, 2] false ∧ descZero d 16 64 = true := test_meets_HostInterfaceRows_8

theorem test_meets_HostAndCoxRowsComplete_8 : ∃ (s : State),
    s.cmdRuns = true ∧ s.hif.running = none ∧ s.hif.cmdProd ≠ s.hif.cmdCons ∧ descOp (BitVec.ofNat 512 (s.hostRd s.cmdSlot 64)) = 0 := test_meets_HostInterfaceRows_9

theorem test_meets_HostAndCoxRowsComplete_9 : ∃ (s : State) (missA : Bool) (missB : Bool),
    ((s.hif.running).any fun (c : Running) => decide ((((match c.kind with | .plain a b => some (a, b) | _ => none)).any fun (x : Nat × Nat) => decide (c.cut = false)) = true)) = true := test_meets_HostInterfaceRows_11

theorem test_meets_HostAndCoxRowsComplete_10 : ∃ (s : State),
    s.comparing = true ∧ s.cox.seqRunning = false ∧ s.power ≠ 3 := test_meets_DetectorsAndMonitors_0

theorem test_meets_HostAndCoxRowsComplete_11 : ∃ (s : State) (alone : Option Bool) (outPar : Bool) (inPar : Bool),
    s.comparing = true ∧ s.cox.seqRunning = false ∧ s.power ≠ 3 ∧ ((alone).any fun (b : Bool) => decide (outPar = false ∧ inPar = false)) = true := test_meets_DetectorsAndMonitors_3

theorem test_meets_HostAndCoxRowsComplete_12 : ∃ (s : State),
    s.comparing = true ∧ s.cox.coresHeld = false ∧ s.on (INJ_ARM_ARM 3) = false := test_meets_DetectorsAndMonitors_6

theorem test_meets_HostAndCoxRowsComplete_13 : ∃ (s : State) (who : Initiator) (w : Fin 2) (value : Word) (ms : Nat),
    s.takesWrite who (COX_WDOG_KICK w.val) value ∧ SMap.get s.cox.wdog 0 w.val ≠ 0 ∧ value.toNat = (if SMap.get s.cox.wdogSecond false w.val then 0xA5A5 else 0x5A5A) ∧ (SMap.get s.cox.wdog 0 w.val = 2 → s.get (COX_WDOG_CFG_MIN_MS w.val) ≤ ms) := test_meets_DetectorsAndMonitors_10

theorem test_meets_HostAndCoxRowsComplete_14 : ∃ (s : State) (w : Fin 2),
    SMap.get s.cox.wdog 0 w.val ≠ 0 ∧ s.cox.seqRunning = false ∧ s.power ≠ 3 := test_meets_DetectorsAndMonitors_12

theorem test_meets_HostAndCoxRowsComplete_15 : ∃ (s : State) (m : Fin 9) (persists : Bool),
    s.up .cox = true ∧ s.power ≠ 3 := test_meets_DetectorsAndMonitors_13

theorem test_meets_HostAndCoxRowsComplete_16 : ∃ (s : State) (rail : Fin 16) (persists : Bool),
    s.up .cox = true ∧ s.power ≠ 3 := test_meets_DetectorsAndMonitors_14

theorem test_meets_HostAndCoxRowsComplete_17 : ∃ (s : State) (sensorFail : Bool) (tj : Byte) (persists : Bool) (beyond : Nat),
    s.up .cox = true ∧ s.power ≠ 3 ∧ sensorFail = true := test_meets_DetectorsAndMonitors_15

theorem test_meets_HostAndCoxRowsComplete_18 : ∃ (s : State) (r : ReleaseResult),
    s.up .cox = true ∧ s.cox.coresHeld = true ∧ s.on COX_STATUS_HALTED = false ∧ s.on OPT_STATUS_VALID = true ∧ s.updLive ≠ 8 ∧ s.launchReverts s.cox.startCode r.digestOk = none ∧ s.get COX_STATUS_MODE = 0 ∧ s.on (INJ_ARM_ARM 3) = false ∧ s.cox.startCode = 10 ∧ s.get LOG_FAIL_START_FAILS + 1 < s.get OPT_BOOT_FAIL_LIMIT ∧ s.rst.pw = [] ∧ r.digestOk = true ∧ r.missA = false ∧ r.missB = false ∧ (List.range 25).all (fun p => !s.on (INJ_ARM_ARM p)) = true := test_meets_CoxControl_0

theorem test_meets_HostAndCoxRowsComplete_19 : ∃ (s : State) (who : Initiator),
    s.takesWrite who COX_CTRL 1 := test_meets_CoxControl_2

theorem test_meets_HostAndCoxRowsComplete_20 : ∃ (s : State) (src : CmdSrc) (d : Desc),
    s.takesCommand d [0, 1] true ∧ descBits d 16 8 < 2 ∧ descZero d 17 64 = true ∧ descBits d 16 8 ≠ s.get COX_STATUS_MODE ∧ s.get COX_STATUS_MODE ≠ 2 ∧ s.on COX_STATUS_DEBUG = false := test_meets_CoxControl_3

theorem test_meets_HostAndCoxRowsComplete_21 : ∃ (s : State) (scans : List JtagScan) (attach : Bool),
    attach = true ∧ s.debugAllowed = true ∧ s.up .debug = true ∧ s.up .cox = true := test_meets_CoxControl_6

theorem test_meets_HostAndCoxRowsComplete_23 : ∃ (s : State) (src : CmdSrc) (d : Desc),
    s.takesCommand d [0, 1, 2] true ∧ descZero d 17 24 = true ∧ descZero d 32 64 = true ∧ descBits d 24 64 % 8 = 0 ∧ src = .localRing ∧ descBits d 16 8 = 2 ∧ descBits d 24 64 = 0 ∧ s.get COX_LIFECYCLE_STATE = 1 := test_meets_CoxControl_10

theorem test_meets_HostAndCoxRowsComplete_24 : ∃ (s : State) (src : CmdSrc) (d : Desc),
    s.takesCommand d [0, 1, 2] true ∧ descZero d 17 24 = true ∧ descZero d 32 64 = true ∧ descBits d 24 64 % 8 = 0 ∧ src = .localRing ∧ descBits d 16 8 = 0 ∧ descBits d 24 64 = 0 ∧ s.get COX_LIFECYCLE_STATE ≠ 0 ∧ s.on COX_LIFECYCLE_OWNER_LOCK = false ∧ s.worn .ownerLock = false := test_meets_CoxControl_13

theorem test_meets_HostAndCoxRowsComplete_25 : ∃ (s : State) (who : Initiator),
    s.takesWrite who INJ_CTRL 1 := test_meets_CoxControl_15

theorem test_meets_HostAndCoxRowsComplete_26 : ∃ (s : State) (who : Initiator),
    s.takesWrite who INJ_CTRL 0 := test_meets_CoxControl_16

theorem test_meets_HostAndCoxRowsComplete_27 : ∃ (s : State) (who : Initiator) (p : Fin 25) (value : Word),
    s.takesWrite who (INJ_ARM p.val) value ∧ [3, 8, 9, 10, 11, 16, 18, 19, 20, 21, 22, 23, 24].contains p.val = true ∧ bit value.toNat 31 = true := test_meets_CoxControl_17

theorem test_meets_KeyAndUpdateRowsComplete_0 : ∃ (s : State) (src : CmdSrc) (d : Desc),
    s.takesCommand d [0, 1] false ∧ descBits d 16 8 ≠ 0 ∧ descBits d 17 8 ≤ 2 ∧ pairOk (descBits d 17 8) (descBits d 18 8) = true ∧ descBits d 19 8 ≤ 1 ∧ descZero d 24 64 = true ∧ s.keyRefused (some (descBits d 16 8)) true true = none ∧ s.slotWorn (descBits d 16 8) = false := test_meets_KeySlots_0

theorem test_meets_KeyAndUpdateRowsComplete_1 : ∃ (s : State) (src : CmdSrc) (d : Desc),
    s.takesCommand d [0, 1] false ∧ SMap.get s.key.slotErr 0 (descBits d 16 8) = 0 ∧ descBits d 17 8 = 0 ∧ descZero d 19 24 = true ∧ descZero d 32 64 = true ∧ descBits d 24 64 % 8 = 0 ∧ src = .localRing ∧ s.keyRefused none false true = none ∧ descBits d 16 8 ≠ 0 ∧ slotValid (s.slot (descBits d 16 8)) = true ∧ slotExport (s.slot (descBits d 16 8)) = true := test_meets_KeySlots_2

theorem test_meets_KeyAndUpdateRowsComplete_2 : ∃ (s : State) (src : CmdSrc) (d : Desc),
    s.takesCommand d [0, 1] false ∧ descBits d 16 8 ≠ 0 ∧ descBits d 17 8 = 0 ∧ descBits d 19 8 = 0 ∧ descBits d 20 8 = 0 ∧ descBits d 21 8 = 0 ∧ descBits d 32 32 = 0 ∧ descBits d 22 16 = 144 ∧ descZero d 36 64 = true ∧ descBits d 24 64 % 8 = 0 ∧ src = .localRing ∧ s.keyRefused (some (descBits d 16 8)) true false = none ∧ s.slotWorn (descBits d 16 8) = false := test_meets_KeySlots_5

theorem test_meets_KeyAndUpdateRowsComplete_3 : ∃ (s : State) (src : CmdSrc) (d : Desc),
    s.takesCommand d [0, 1] false ∧ SMap.get s.key.slotErr 0 (descBits d 17 8) = 0 ∧ descBits d 16 8 ≠ 0 ∧ descBits d 18 8 = 0 ∧ descBits d 19 8 = 0 ∧ descBits d 20 8 = 1 ∧ descBits d 21 8 ≤ 1 ∧ descZero d 36 64 = true ∧ descBits d 24 64 % 8 = 0 ∧ src = .localRing ∧ descBits d 22 16 = 4 ∧ beAt (s.hostBytes (descBits d 24 64) 4) 0 4 = 0 ∧ s.keyRefused (some (descBits d 16 8)) true false = none ∧ s.slotWorn (descBits d 16 8) = false ∧ slotValid (s.slot (descBits d 17 8)) = true ∧ slotUsage (s.slot (descBits d 17 8)) = 3 ∧ slotType (s.slot (descBits d 17 8)) ≠ 2 ∧ (descBits d 21 8 = 1 → slotExport (s.slot (descBits d 17 8)) = true) := test_meets_KeySlots_7

theorem test_meets_KeyAndUpdateRowsComplete_4 : ∃ (s : State) (src : CmdSrc) (d : Desc),
    s.takesCommand d [0, 1] false ∧ descZero d 17 64 = true ∧ s.keyRefused (some (descBits d 16 8)) false false = none ∧ descBits d 16 8 ≠ 0 ∧ s.slotWorn (descBits d 16 8) = false := test_meets_KeySlots_14

theorem test_meets_KeyAndUpdateRowsComplete_5 : ∃ (s : State) (src : CmdSrc) (d : Desc),
    s.takesCommand d [0, 1, 2] false ∧ SMap.get s.key.slotErr 0 0 = 0 ∧ s.key.idLost = false ∧ descBits d 16 64 % 8 = 0 ∧ descZero d 56 64 = true ∧ src = .localRing ∧ s.keyRefused none false true = none := test_meets_AttestationAndRandom_0

theorem test_meets_KeyAndUpdateRowsComplete_6 : ∃ (s : State) (src : CmdSrc) (d : Desc),
    s.takesCommand d [0, 1, 2] false ∧ descBits d 16 64 % 8 = 0 ∧ 1 ≤ descBits d 24 32 ∧ descBits d 24 32 ≤ 4096 ∧ descZero d 28 64 = true ∧ src = .localRing ∧ s.keyRefused none false true = none := test_meets_AttestationAndRandom_1

theorem test_meets_KeyAndUpdateRowsComplete_7 : ∃ (s : State) (apt : Bool),
    s.up .key = true := test_meets_AttestationAndRandom_2

theorem test_meets_KeyAndUpdateRowsComplete_8 : ∃ (s : State) (who : Initiator) (pass : Bool),
    s.hostTurned who = false ∧ s.busFree ∧ s.up .key = true := test_meets_AttestationAndRandom_3

theorem test_meets_KeyAndUpdateRowsComplete_9 : ∃ (s : State) (src : CmdSrc) (d : Desc),
    s.takesCommand d [0, 1] false ∧ src = .localRing ∧ descBits d 16 64 % 64 = 0 ∧ descBits d 24 32 % 64 = 0 ∧ 64 ≤ descBits d 28 32 ∧ descBits d 28 32 ≤ 1048576 ∧ descBits d 32 8 < 2 ∧ descZero d 33 64 = true ∧ s.pdOn 8 = true ∧ s.dramReady = true ∧ s.updLive ≤ 2 ∧ descBits d 24 32 + descBits d 28 32 ≤ s.get UPD_STAGE_SIZE * 2 ^ 21 := test_meets_UpdateWriting_0

theorem test_meets_KeyAndUpdateRowsComplete_10 : ∃ (s : State) (src : CmdSrc) (d : Desc),
    s.takesCommand d [0, 1, 2] false ∧ descBits d 20 32 < 2 ∧ descZero d 24 64 = true ∧ s.updLive = 1 := test_meets_UpdateWriting_2

theorem test_meets_KeyAndUpdateRowsComplete_11 : ∃ (s : State),
    s.up .cox = true ∧ s.updLive = 3 ∧ ((s.upd.todo.head?).any fun (e : Nat × Option Nat) => decide (s.dram.badWords = [])) = true := test_meets_UpdateWriting_5

theorem test_meets_KeyAndUpdateRowsComplete_12 : ∃ (s : State),
    s.up .cox = true ∧ s.updLive = 8 ∧ s.cox.coresHeld = true ∧ s.hif.running = none := test_meets_UpdateWriting_8

theorem test_meets_KeyAndUpdateRowsComplete_13 : ∃ (s : State) (src : CmdSrc) (d : Desc),
    s.takesCommand d [0, 1] true ∧ s.activateOk d = true ∧ s.activateRefused (commitArgs d) = none ∧ s.updClear = true ∧ (commitArgs d).fabric = false ∧ s.upd.entries = [] := test_meets_UpdateActivation_0

theorem test_meets_KeyAndUpdateRowsComplete_14 : ∃ (s : State),
    ((s.fab.job).any fun (j : CommitJob) => decide (s.commitState = 2 ∧ j.upd = true ∧ j.mask = 0 ∧ (j.timed = false ∨ s.domNs 0 ≥ j.at_) ∧ s.upd.entries = [] ∧ s.power ≠ 3 ∧ s.cox.seqRunning = false)) = true := test_meets_UpdateActivation_2

theorem test_meets_KeyAndUpdateRowsComplete_15 : ∃ (s : State) (who : Initiator) (value : Word),
    s.takesWrite who UPD_HEALTH value ∧ s.updLive = 6 ∧ s.hfp.fabMember = none ∧ s.hfp.fabInit = none ∧ s.power ≠ 2 := test_meets_UpdateActivation_3

theorem test_meets_KeyAndUpdateRowsComplete_16 : ∃ (s : State),
    s.up .cox = true ∧ s.updLive = 6 := test_meets_UpdateActivation_4

theorem test_meets_KeyAndUpdateRowsComplete_17 : ∃ (s : State) (src : CmdSrc) (d : Desc),
    s.takesCommand d [0, 1] false ∧ descZero d 16 64 = true ∧ 1 ≤ s.updLive ∧ s.updLive ≤ 4 ∧ s.validSlots = [] ∧ s.commitState = 0 ∧ s.hfp.fabMember = none ∧ s.hfp.fabInit = none ∧ s.rst.asked = false := test_meets_UpdateActivation_5

theorem test_meets_PowerAndResetRowsComplete_0 : ∃ (s : State) (src : CmdSrc) (d : Desc),
    s.takesCommand d [0, 1] false ∧ descBits d 16 8 = 4 ∧ descZero d 17 64 = true ∧ s.powerRefused 4 = none ∧ s.pwr.goal = none := test_meets_PowerRequests_0

theorem test_meets_PowerAndResetRowsComplete_1 : ∃ (s : State) (who : Initiator) (value : Word),
    s.takesWrite who PWR_CTRL value ∧ bits value.toNat 0 3 = 5 ∧ bit value.toNat 8 = false ∧ (s.power = 0 ∨ s.power = 1) ∧ s.powerRefused 4 = none ∧ s.pwr.goal = none := test_meets_PowerRequests_3

theorem test_meets_PowerAndResetRowsComplete_2 : ∃ (s : State) (who : Initiator),
    s.takesWrite who PWR_CTRL 0x100 := test_meets_PowerRequests_5

theorem test_meets_PowerAndResetRowsComplete_3 : ∃ (s : State) (who : Initiator) (value : Word),
    s.takesWrite who PWR_ACTIVE value ∧ s.power ≠ 0 := test_meets_PowerRequests_6

theorem test_meets_PowerAndResetRowsComplete_4 : ∃ (s : State) (pd : Fin 15) (link : Option (Fin 3 × Fin 4)),
    s.alive = true ∧ pd.val ≠ 0 ∧ bit s.pwr.want pd.val = true ∧ s.pdOn pd.val = false ∧ s.pwr.goal = none ∧ s.power ≠ 5 := test_meets_PowerRequests_8

theorem test_meets_PowerAndResetRowsComplete_5 : ∃ (s : State),
    s.power = 3 ∧ s.pwr.latched = false ∧ s.pwr.waitAck = [] ∧ s.unmaskedFaults = 0 ∧ s.imageMissing = none := test_meets_SleepAndWake_0

theorem test_meets_PowerAndResetRowsComplete_6 : ∃ (s : State),
    s.power = 3 ∧ s.pwr.waitAck ≠ [] := test_meets_SleepAndWake_2

theorem test_meets_PowerAndResetRowsComplete_7 : ∃ (s : State),
    s.pastCommit = true ∧ s.pwr.lateSource = 0 := test_meets_SleepAndWake_3

theorem test_meets_PowerAndResetRowsComplete_8 : ∃ (s : State),
    s.alive = true ∧ s.power = 4 ∧ s.on WAK_SRC_EN_WAKE_IN = true ∧ s.pwr.goal = none := test_meets_SleepAndWake_5

theorem test_meets_PowerAndResetRowsComplete_9 : ∃ (s : State),
    s.alive = true ∧ s.power = 4 ∧ s.on WAK_SRC_EN_TIMER = true ∧ s.get WAK_TIMER_SECONDS ≠ 0 ∧ s.pwr.goal = none := test_meets_SleepAndWake_7

theorem test_meets_PowerAndResetRowsComplete_10 : ∃ (s : State),
    s.alive = true ∧ s.power = 4 ∧ s.on WAK_SRC_EN_STILL = true ∧ s.pwr.goal = none := test_meets_SleepAndWake_8

theorem test_meets_PowerAndResetRowsComplete_11 : ∃ (s : State),
    s.pwr.idleTimer = true ∧ s.on WAK_STATUS_WAKE_IN = true := test_meets_SleepAndWake_10

theorem test_meets_PowerAndResetRowsComplete_12 : ∃ (s : State),
    s.alive = true ∧ s.pwr.falsePending = false := test_meets_SleepAndWake_12

theorem test_meets_PowerAndResetRowsComplete_13 : ∃ (s : State) (mv : BitVec 16) (still : Bool),
    s.alive = true := test_meets_SleepAndWake_14

theorem test_meets_PowerAndResetRowsComplete_17 : ∃ (s : State) (rails : List (Fin 16)),
    s.rst.off = false := test_meets_DeviceResets_1

theorem test_meets_PowerAndResetRowsComplete_18 : ∃ (s : State),
    s.rst.off = false := test_meets_DeviceResets_2

theorem test_meets_PowerAndResetRowsComplete_19 : ∃ (s : State),
    s.rst.off = false := test_meets_DeviceResets_3

theorem test_meets_PowerAndResetRowsComplete_20 : ∃ (s : State),
    s.alive = true ∧ s.debugAllowed = true ∧ s.up .debug = true := test_meets_DeviceResets_4

theorem test_meets_PowerAndResetRowsComplete_21 : ∃ (s : State),
    s.rst.off = false ∧ s.rst.hold ≠ [] := test_meets_DeviceResets_6

theorem test_meets_PowerAndResetRowsComplete_23 : ∃ (s : State),
    s.alive = true ∧ s.on RST_START_START_OPEN = true ∧ s.power ≠ 2 := test_meets_DeviceResets_8

theorem test_meets_PowerAndResetRowsComplete_24 : ∃ (s : State) (src : CmdSrc) (d : Desc),
    s.takesCommand d [0, 1, 2] false ∧ deviceResetArgs d = true ∧ descBits d 16 8 = 0 ∧ descBits d 19 8 = 0 ∧ (src.remote = false ∨ s.peerHasAuthority src.peerByte = true) ∧ s.rst.asked = false := test_meets_DeviceResets_10

theorem test_meets_PowerAndResetRowsComplete_25 : ∃ (s : State),
    ((s.hif.running).any fun (c : Running) => decide (c.kind = .islandReset ∧ c.cut = false ∧ s.alive = true ∧ s.pdOn (domainOf (resetIsland c.desc).1 (resetIsland c.desc).2) = true)) = true := test_meets_DeviceResets_13

theorem test_meets_PowerAndResetRowsComplete_26 : ∃ (s : State) (link : Option (Fin 3 × Fin 4)),
    s.alive = true ∧ ((link).any fun (x : Fin 3 × Fin 4) => decide (s.pdOn 7 = true)) = true := test_meets_DeviceResets_14

theorem test_meets_PowerAndResetRowsComplete_27 : ∃ (s : State) (who : Initiator),
    s.takesWrite who RST_START 1 ∧ s.cox.coresHeld = false ∧ s.on RST_START_START_OPEN = true ∧ s.get LOG_FAIL_START_FAILS = 0 := test_meets_PersistentWords_0

theorem test_meets_PowerAndResetRowsComplete_28 : ∃ (s : State) (who : Initiator),
    s.takesWrite who OPT_PROG 1 ∧ s.rst.pw ≠ [] := test_meets_PersistentWords_2

theorem test_meets_PowerAndResetRowsComplete_29 : ∃ (s : State) (who : Initiator) (i : Fin 1024) (value : Word),
    s.takesWrite who (LOG_WORD i.val) value ∧ s.get (LOG_WORD_VALUE i.val) ≠ value.toNat ∧ s.worn (.logWord i.val) = false ∧ s.rst.pw = [] := test_meets_PersistentWords_4

theorem test_meets_PowerAndResetRowsComplete_30 : ∃ (s : State) (src : CmdSrc) (d : Desc),
    s.takesCommand d [0, 1, 2] false ∧ descBits d 16 16 < 1024 ∧ descZero d 18 20 = true ∧ descZero d 28 64 = true ∧ s.logValue (descBits d 16 16) = ((s.logValue (descBits d 16 16) &&& (2 ^ 32 - 1 - descBits d 24 32)) ||| (descBits d 20 32 &&& descBits d 24 32)) ∧ (s.rst.pw.any fun w => w.tgt == .logWord (descBits d 16 16)) = false := test_meets_PersistentWords_7

theorem test_meets_PowerAndResetRowsComplete_31 : ∃ (s : State),
    s.alive = true ∧ ((s.rst.pw.head?).any fun (w : PWrite) => decide (s.rst.pw.length = 1 ∧ s.hif.running = none ∧ (w.tgt = .logWord 7 ∨ w.tgt = .failStart) ∧ w.val < 16)) = true := test_meets_PersistentWords_10

theorem test_meets_PowerAndResetRowsComplete_32 : ∃ (s : State) (bytes : List Byte) (ts : Option (BitVec 16)) (mka : Option MkaUse),
    s.up .cox = true ∧ s.cox.coresHeld = false ∧ s.up .fabric = true ∧ s.framesStopped = false ∧ mka = none := test_meets_CoxFrames_0

end Sys2Proof.Tests
end

section
/-! PROOFS, family 00_scope: the invariant of every step, the totality of exec, and the statements that fail on a read of
PRT_SQI and on a locked sequence of Cox that waits. -/
namespace Sys2Proof.Machine

/-! ### The canonical form (O6) -/

/-- Every row keeps the queue and the canonical form: one law of `Laws/` for each row. -/
theorem keeps_exec {s t : State} (h : Keeps s t) (c : Instr) : Keeps.out s (exec c t) := by
  cases c with
  | registerWrite => exact keeps_execRegisterWrite h _ _ _
  | rcRead => exact keeps_execRcRead h _ _
  | counterLowRead => exact keeps_execCounterLowRead h _ _
  | cntClear => exact keeps_execCntClear h _ _
  | setupLock => exact keeps_execSetupLock h _
  | faultNHoldEnd => exact keeps_execFaultNHoldEnd h
  | stage => exact keeps_execStage h _ _
  | commit => exact keeps_execCommit h _ _
  | heatDone => exact keeps_execHeatDone h _
  | commitAbort => exact keeps_execCommitAbort h _ _
  | swap => exact keeps_execSwap h
  | drainEnd => exact keeps_execDrainEnd h
  | heatReport => exact keeps_execHeatReport h _ _
  | portEnable => exact keeps_execPortEnable h _ _ _
  | portDisable => exact keeps_execPortDisable h _ _ _
  | loopbackChange => exact keeps_execLoopbackChange h _ _ _
  | analogStartEnd => exact keeps_execAnalogStartEnd h _ _ _
  | partnerSignal => exact keeps_execPartnerSignal h _ _
  | linkStatusOk => exact keeps_execLinkStatusOk h _ _
  | linkStatusFail => exact keeps_execLinkStatusFail h _ _
  | holdExpiry => exact keeps_execHoldExpiry h _ _
  | holdRetrain => exact keeps_execHoldRetrain h _
  | resumeProbeDone => exact keeps_execResumeProbeDone h _ _ _ _ _
  | resumeLimit => exact keeps_execResumeLimit h _ _
  | sqiSample => exact keeps_execSqiSample h _ _ _ _
  | tc10SleepRequest => exact keeps_execTc10SleepRequest h _
  | tc10SleepAck => exact keeps_execTc10SleepAck h _
  | tc10SleepAbort => exact keeps_execTc10SleepAbort h _
  | tc10Wake => exact keeps_execTc10Wake h _
  | segmentActivity => exact keeps_execSegmentActivity h _
  | diagStart => exact keeps_execDiagStart h _ _
  | diagDone => exact keeps_execDiagDone h _ _ _
  | mdioStart => exact keeps_execMdioStart h _ _ _
  | mdioFrameDone => exact keeps_execMdioFrameDone h _ _
  | plcaForeignBeacon => exact keeps_execPlcaForeignBeacon h _
  | collision => exact keeps_execCollision h _
  | ct64thByte => exact keeps_execCt64thByte h _ _
  | chunkOutgrown => exact keeps_execChunkOutgrown h _ _ _ _
  | streamMaxLenExceeded => exact keeps_execStreamMaxLenExceeded h _ _ _ _
  | classify => exact keeps_execClassify h _ _
  | frameEnd => exact keeps_execFrameEnd h _ _ _
  | descriptorArrival => exact keeps_execDescriptorArrival h _ _ _
  | laneSelect => exact keeps_execLaneSelect h _ _ _
  | txEnd => exact keeps_execTxEnd h _
  | tsRecordReturn => exact keeps_execTsRecordReturn h _
  | gateBoundary => exact keeps_execGateBoundary h _
  | gteHoldWrite => exact keeps_execGteHoldWrite h _ _ _
  | mmVerifyTimer => exact keeps_execMmVerifyTimer h _
  | mmRespond => exact keeps_execMmRespond h _
  | obsSample => exact keeps_execObsSample h
  | obsClear => exact keeps_execObsClear h _
  | ageSweep => exact keeps_execAgeSweep h
  | fwdAgeWrite => exact keeps_execFwdAgeWrite h _ _
  | fdbFlush => exact keeps_execFdbFlush h _ _
  | fdbDump => exact keeps_execFdbDump h _ _
  | recEnable => exact keeps_execRecEnable h _ _
  | recDisable => exact keeps_execRecDisable h _ _
  | recPageTimeout => exact keeps_execRecPageTimeout h
  | recFreeze => exact keeps_execRecFreeze h _ _
  | recRearm => exact keeps_execRecRearm h _ _
  | recRead => exact keeps_execRecRead h _ _
  | dramEnable => exact keeps_execDramEnable h _ _
  | dramTrainDone => exact keeps_execDramTrainDone h _
  | fstRun => exact keeps_execFstRun h _ _
  | fstReady => exact keeps_execFstReady h
  | scrubStep => exact keeps_execScrubStep h _
  | pinholeExpiry => exact keeps_execPinholeExpiry h
  | tcamScan => exact keeps_execTcamScan h
  | pinholeFlush => exact keeps_execPinholeFlush h _ _
  | pinholeDump => exact keeps_execPinholeDump h _ _
  | imgEnable => exact keeps_execImgEnable h _ _ _
  | imageWriteDone => exact keeps_execImageWriteDone h _ _
  | imageLoadDone => exact keeps_execImageLoadDone h _ _
  | domainEnable => exact keeps_execDomainEnable h _ _ _
  | domainDisable => exact keeps_execDomainDisable h _ _ _
  | incrWrite => exact keeps_execIncrWrite h _ _ _
  | slewWrite => exact keeps_execSlewWrite h _ _ _
  | timeStep => exact keeps_execTimeStep h _ _ _
  | timeSet => exact keeps_execTimeSet h _ _ _
  | handover => exact keeps_execHandover h _ _
  | takeback => exact keeps_execTakeback h _ _
  | servoWatchdog => exact keeps_execServoWatchdog h _
  | buoyCapture => exact keeps_execBuoyCapture h _ _
  | buoyPop => exact keeps_execBuoyPop h _ _
  | lockLoss => exact keeps_execLockLoss h _
  | catchArm => exact keeps_execCatchArm h _ _ _
  | catchDisarm => exact keeps_execCatchDisarm h _ _ _
  | catchEdge => exact keeps_execCatchEdge h _
  | catchPulseEnd => exact keeps_execCatchPulseEnd h _
  | snapshotCapture => exact keeps_execSnapshotCapture h _
  | timeNowRead => exact keeps_execTimeNowRead h _ _
  | reanchor => exact keeps_execReanchor h _ _
  | canEnable => exact keeps_execCanEnable h _ _ _
  | canDisable => exact keeps_execCanDisable h _ _ _
  | canRecover => exact keeps_execCanRecover h _ _
  | canBusIdle => exact keeps_execCanBusIdle h _
  | canFrameRx => exact keeps_execCanFrameRx h _ _
  | canError => exact keeps_execCanError h _ _
  | canRecoveryDone => exact keeps_execCanRecoveryDone h _
  | canTxStart => exact keeps_execCanTxStart h _
  | canTxDone => exact keeps_execCanTxDone h _
  | canTxDeadline => exact keeps_execCanTxDeadline h _
  | linRun => exact keeps_execLinRun h _ _ _
  | linStop => exact keeps_execLinStop h _ _ _
  | linTableSelect => exact keeps_execLinTableSelect h _ _ _
  | linSlotStart => exact keeps_execLinSlotStart h _
  | linHeaderRx => exact keeps_execLinHeaderRx h _ _
  | linResponseRx => exact keeps_execLinResponseRx h _ _ _ _ _
  | linNoResponse => exact keeps_execLinNoResponse h _
  | linWake => exact keeps_execLinWake h _ _
  | rigEthRx => exact keeps_execRigEthRx h
  | rigCyclicTick => exact keeps_execRigCyclicTick h
  | rigFreshTick => exact keeps_execRigFreshTick h _
  | acfBatchTimeout => exact keeps_execAcfBatchTimeout h _
  | hfpRelay => exact keeps_execHfpRelay h _ _
  | hello => exact keeps_execHello h _ _ _
  | helloTimer => exact keeps_execHelloTimer h
  | adjDead => exact keeps_execAdjDead h _
  | lsa => exact keeps_execLsa h _ _
  | lsaTimer => exact keeps_execLsaTimer h
  | lsaExpire => exact keeps_execLsaExpire h _
  | remoteRequest => exact keeps_execRemoteRequest h _ _ _
  | bar2Access => exact keeps_execBar2Access h _ _
  | requestRx => exact keeps_execRequestRx h _ _
  | cmdRx => exact keeps_execCmdRx h _ _
  | cpl => exact keeps_execCpl h _ _
  | cplTimeout => exact keeps_execCplTimeout h _ _
  | ack => exact keeps_execAck h _ _
  | ackTimer => exact keeps_execAckTimer h _ _
  | ackTimeout => exact keeps_execAckTimeout h _ _
  | lateErr => exact keeps_execLateErr h _ _
  | remoteCmd => exact keeps_execRemoteCmd h _ _
  | lockedSeq => exact keeps_execLockedSeq h _ _ _
  | lockReq => exact keeps_execLockReq h _ _ _
  | lockNak => exact keeps_execLockNak h _ _
  | lockRel => exact keeps_execLockRel h _ _
  | lockMaxExpiry => exact keeps_execLockMaxExpiry h
  | lockBackoffEnd => exact keeps_execLockBackoffEnd h _
  | clearPoison => exact keeps_execClearPoison h _ _
  | cmitPrepare => exact keeps_execCmitPrepare h _ _
  | cmitVote => exact keeps_execCmitVote h _ _
  | cmitArm => exact keeps_execCmitArm h _ _
  | cmitAck => exact keeps_execCmitAck h _ _
  | cmitAbort => exact keeps_execCmitAbort h _ _
  | cmitConfirm => exact keeps_execCmitConfirm h _ _
  | prepareTimeout => exact keeps_execPrepareTimeout h
  | armMarginDeadline => exact keeps_execArmMarginDeadline h
  | abortRepeat => exact keeps_execAbortRepeat h
  | phase2Drop => exact keeps_execPhase2Drop h
  | confirmRepeat => exact keeps_execConfirmRepeat h
  | hostReset => exact keeps_execHostReset h _
  | doorbellRead => exact keeps_execDoorbellRead h
  | kick => exact keeps_execKick h _
  | txDescFetch => exact keeps_execTxDescFetch h
  | ringEnable => exact keeps_execRingEnable h _ _ _
  | ringDisable => exact keeps_execRingDisable h _ _ _
  | cmdFetch => exact keeps_execCmdFetch h
  | nop => exact keeps_execNop h _ _
  | msixHoldoffEnd => exact keeps_execMsixHoldoffEnd h _
  | lockstepMismatch => exact keeps_execLockstepMismatch h _ _
  | checkerFault => exact keeps_execCheckerFault h _ _ _
  | selftest => exact keeps_execSelftest h _ _ _ _ _ _
  | coreRelease => exact keeps_execCoreRelease h _
  | wdogKick => exact keeps_execWdogKick h _ _ _ _
  | wdogExpiry => exact keeps_execWdogExpiry h _
  | clockMon => exact keeps_execClockMon h _ _
  | supplyMon => exact keeps_execSupplyMon h _ _
  | tempMon => exact keeps_execTempMon h _ _ _ _
  | unfreeze => exact keeps_execUnfreeze h _
  | coxMode => exact keeps_execCoxMode h _ _
  | debugAttach => exact keeps_execDebugAttach h _ _
  | lifecycle => exact keeps_execLifecycle h _ _
  | ownerLock => exact keeps_execOwnerLock h _ _
  | injEnable => exact keeps_execInjEnable h _
  | injDisable => exact keeps_execInjDisable h _
  | injArm => exact keeps_execInjArm h _ _ _
  | keyGenerate => exact keeps_execKeyGenerate h _ _
  | keyWrap => exact keeps_execKeyWrap h _ _ _
  | keyUnwrap => exact keeps_execKeyUnwrap h _ _ _
  | keyDerive => exact keeps_execKeyDerive h _ _ _
  | keyDestroy => exact keeps_execKeyDestroy h _ _
  | attest => exact keeps_execAttest h _ _
  | random => exact keeps_execRandom h _ _
  | trngHealthFail => exact keeps_execTrngHealthFail h _
  | trngRetest => exact keeps_execTrngRetest h _ _
  | updLoad => exact keeps_execUpdLoad h _ _
  | updVerify => exact keeps_execUpdVerify h _ _
  | flashBlockDone => exact keeps_execFlashBlockDone h _
  | updActivate => exact keeps_execUpdActivate h _ _
  | updActivation => exact keeps_execUpdActivation h
  | healthConfirm => exact keeps_execHealthConfirm h _ _
  | healthExpiry => exact keeps_execHealthExpiry h
  | updAbort => exact keeps_execUpdAbort h _ _
  | journalReplayDone => exact keeps_execJournalReplayDone h
  | powerState => exact keeps_execPowerState h _ _
  | pwrReq => exact keeps_execPwrReq h _ _
  | stay => exact keeps_execStay h _
  | pwrDomainsWrite => exact keeps_execPwrDomainsWrite h _ _ _
  | domainPowerGood => exact keeps_execDomainPowerGood h _ _
  | sleepCommit => exact keeps_execSleepCommit h _
  | sleepPowerDown => exact keeps_execSleepPowerDown h
  | sleepTimeout => exact keeps_execSleepTimeout h
  | wakeIn => exact keeps_execWakeIn h
  | wakeTimer => exact keeps_execWakeTimer h
  | vehicleStillFall => exact keeps_execVehicleStillFall h
  | wakeOutEnd => exact keeps_execWakeOutEnd h
  | falseWake => exact keeps_execFalseWake h
  | vbatSample => exact keeps_execVbatSample h _ _
  | powerOn => exact keeps_execPowerOn h _ _
  | brownout => exact keeps_execBrownout h _
  | resetPin => exact keeps_execResetPin h
  | thermal => exact keeps_execThermal h
  | jtagReset => exact keeps_execJtagReset h
  | deviceReset => exact keeps_execDeviceReset h _ _
  | islandReady => exact keeps_execIslandReady h
  | startOk => exact keeps_execStartOk h _
  | startTimeout => exact keeps_execStartTimeout h
  | optProgram => exact keeps_execOptProgram h _
  | persistentWriteDone => exact keeps_execPersistentWriteDone h
  | logWordWrite => exact keeps_execLogWordWrite h _ _ _
  | logWrite => exact keeps_execLogWrite h _ _
  | resetRelease => exact keeps_execResetRelease h
  | powerLoss => exact keeps_execPowerLoss h
  | perstNDeassert => exact keeps_execPerstNDeassert h _
  | commandDone => exact keeps_execCommandDone h _ _
  | slewDone => exact keeps_execSlewDone h _
  | plcaBeaconTimeout => exact keeps_execPlcaBeaconTimeout h _
  | shaperRefill => exact keeps_execShaperRefill h _
  | debugDetach => exact keeps_execDebugDetach h
  | wakeInRelease => exact keeps_execWakeInRelease h
  | xtal32Fail => exact keeps_execXtal32Fail h
  | coxFrameTx => exact keeps_execCoxFrameTx h _ _ _

theorem Keeps.canonical {s t : State} (h : Keeps s t) (hs : s.canonical) : t.canonical :=
  ⟨h.regs hs.1, h.host hs.2⟩

theorem step_canonical {s t : State} (hs : s.canonical) (ht : step s = .next t) : t.canonical := by
  unfold step at ht
  split at ht
  · cases ht
    exact (keeps_clock (Keeps.refl s)).canonical hs
  case _ c q _ =>
    have hq : State.canonical { s with pending := q } := hs
    exact (Keeps.of_next ht (keeps_exec (Keeps.refl _) c)).canonical hq

/-- Settles O6: each row and the tick keep the canonical form of the registers and of host memory. -/
theorem stepKeepsCanonical : Obligations.StepKeepsCanonical := by
  unfold Obligations.StepKeepsCanonical
  exact fun _ _ hs ht => step_canonical hs ht

/-! ### Every row answers a next state (O4) -/

/-- The outcome of a command is a next state: the block goes on. -/
def GoesOn (o : Host.Outcome State Fault Refusal) : Prop := ∃ t, o = .next t

theorem GoesOn.next (t : State) : GoesOn (.next t) := ⟨t, rfl⟩

theorem GoesOn.ite {p : Prop} [Decidable p] {a b : Host.Outcome State Fault Refusal} (ha : GoesOn a) (hb : GoesOn b) :
    GoesOn (if p then a else b) := by
  split
  · exact ha
  · exact hb

/-- The same of an outcome that may be absent. -/
def GoesOnOpt (o : Option (Host.Outcome State Fault Refusal)) : Prop := ∀ x ∈ o, GoesOn x

theorem GoesOnOpt.none : GoesOnOpt none := by simp [GoesOnOpt]

theorem GoesOnOpt.some {x : Host.Outcome State Fault Refusal} (h : GoesOn x) : GoesOnOpt (some x) := by
  simpa [GoesOnOpt] using h

theorem GoesOnOpt.or {a b : Option (Host.Outcome State Fault Refusal)} (ha : GoesOnOpt a) (hb : GoesOnOpt b) :
    GoesOnOpt (a.or b) := by
  cases a with
  | none => exact hb
  | some x => exact ha

theorem GoesOnOpt.getD {o : Option (Host.Outcome State Fault Refusal)} {d : Host.Outcome State Fault Refusal}
    (ho : GoesOnOpt o) (hd : GoesOn d) : GoesOn (o.getD d) := by
  cases o with
  | none => exact hd
  | some x => exact ho x rfl

section
variable (s : State) (src : CmdSrc) (d : Desc)

theorem runTables_goesOn : GoesOnOpt (s.runTables src d) := by
  unfold State.runTables
  split
  case h_12 => exact .none
  all_goals exact .some (.next _)

theorem runUnits_goesOn : GoesOnOpt (s.runUnits src d) := by
  unfold State.runUnits
  split
  case h_2 | h_3 => exact .some (.ite (.next _) (.next _))
  case h_12 => exact .none
  all_goals exact .some (.next _)

theorem runSystem_goesOn : GoesOnOpt (s.runSystem src d) := by
  unfold State.runSystem
  split
  case h_5 | h_8 => exact .some (.ite (.next _) (.next _))
  case h_12 => exact .none
  all_goals exact .some (.next _)

theorem runDescriptor_goesOn : GoesOn (s.runDescriptor src d) :=
  (((runTables_goesOn s src d).or (runUnits_goesOn s src d)).or (runSystem_goesOn s src d)).getD (.next _)

theorem cmdRun_goesOn (m : HfpMsg) : GoesOn (s.cmdRun m) := by
  unfold State.cmdRun
  split
  · exact .next _
  · exact runDescriptor_goesOn _ _ _

theorem execCmdFetch_goesOn : GoesOn (execCmdFetch s) := by
  refine .ite (.next _) (.ite (runDescriptor_goesOn _ _ _) ?_)
  split
  · exact cmdRun_goesOn _ _
  · exact .next _

theorem execCmdRx_goesOn (port : Fin 64) (m : HfpMsg) : GoesOn (execCmdRx port m s) := by
  unfold execCmdRx
  dsimp only
  split
  · exact .next _
  · exact .ite (.next _) (.ite (.next _) (cmdRun_goesOn _ _))

/-- Every row goes on: the rows are grouped by how many tests come before their next state. -/
theorem exec_goesOn (c : Instr) : GoesOn (exec c s) := by
  cases c with
  | registerWrite | rcRead | counterLowRead | cntClear | setupLock | faultNHoldEnd | stage | commit | commitAbort | swap | drainEnd | heatReport |
    portEnable | portDisable | loopbackChange | analogStartEnd | holdExpiry | holdRetrain | resumeLimit | tc10SleepRequest | tc10SleepAbort | tc10Wake
    | segmentActivity | diagStart | mdioStart | plcaForeignBeacon | collision | ct64thByte | chunkOutgrown | streamMaxLenExceeded | classify |
    frameEnd | descriptorArrival | laneSelect | txEnd | tsRecordReturn | gteHoldWrite | mmRespond | obsClear | ageSweep | fwdAgeWrite | fdbFlush |
    fdbDump | recEnable | recDisable | recPageTimeout | recFreeze | recRearm | recRead | dramEnable | fstRun | fstReady | tcamScan | pinholeFlush |
    pinholeDump | imgEnable | domainEnable | domainDisable | incrWrite | slewWrite | timeStep | timeSet | handover | takeback | servoWatchdog |
    buoyPop | lockLoss | catchArm | catchDisarm | catchPulseEnd | snapshotCapture | timeNowRead | reanchor | canEnable | canDisable | canRecover |
    canBusIdle | canFrameRx | canError | canRecoveryDone | linRun | linStop | linTableSelect | linHeaderRx | linNoResponse | linWake | rigFreshTick |
    hfpRelay | hello | helloTimer | adjDead | lsa | lsaTimer | lsaExpire | cpl | ack | ackTimer | lateErr | lockReq | lockNak | lockRel |
    lockBackoffEnd | clearPoison | cmitPrepare | cmitVote | cmitArm | cmitAck | cmitAbort | cmitConfirm | kick | ringEnable | ringDisable | nop |
    msixHoldoffEnd | lockstepMismatch | checkerFault | wdogKick | wdogExpiry | unfreeze | coxMode | lifecycle | ownerLock | injEnable | injDisable |
    injArm | keyGenerate | keyWrap | keyUnwrap | keyDerive | keyDestroy | attest | random | trngRetest | updLoad | updVerify | updActivate |
    healthConfirm | powerState | pwrReq | stay | pwrDomainsWrite | wakeOutEnd | powerOn | startOk | optProgram | logWordWrite | logWrite | powerLoss |
    plcaBeaconTimeout | debugDetach | xtal32Fail => exact .next _
  | resumeProbeDone | sqiSample | tc10SleepAck | diagDone | obsSample | scrubStep | pinholeExpiry | imageWriteDone | imageLoadDone | rigCyclicTick |
    acfBatchTimeout | requestRx | remoteCmd | lockMaxExpiry | doorbellRead | selftest | clockMon | supplyMon | debugAttach | trngHealthFail | updAbort
    | journalReplayDone | domainPowerGood | sleepPowerDown | wakeIn | wakeTimer | vehicleStillFall | vbatSample | brownout | resetPin | thermal |
    jtagReset | deviceReset | startTimeout | resetRelease | perstNDeassert | slewDone | shaperRefill | wakeInRelease => exact .ite (.next _) (.next _)
  | partnerSignal | buoyCapture | linSlotStart | dramTrainDone | falseWake | lockedSeq | mmVerifyTimer =>
    exact .ite (.next _) (.ite (.next _) (.next _))
  | linkStatusOk | linkStatusFail | tempMon | sleepTimeout | flashBlockDone =>
    exact .ite (.next _) (.ite (.next _) (.ite (.next _) (.next _)))
  | mdioFrameDone | rigEthRx | cplTimeout | ackTimeout | armMarginDeadline | phase2Drop | confirmRepeat =>
    dsimp only [exec, execMdioFrameDone, execRigEthRx, execCplTimeout, execAckTimeout, execArmMarginDeadline, execPhase2Drop,
      execConfirmRepeat]
    split <;> exact .next _
  | heatDone | catchEdge | canTxDone | txDescFetch =>
    dsimp only [exec, execHeatDone, execCatchEdge, execCanTxDone, execTxDescFetch]
    split
    · exact .next _
    · exact .ite (.next _) (.next _)
  | gateBoundary | prepareTimeout | islandReady | updActivation =>
    dsimp only [exec, execGateBoundary, execPrepareTimeout, execIslandReady, execUpdActivation]
    split
    · exact .ite (.next _) (.next _)
    · exact .next _
  | abortRepeat =>
    dsimp only [exec, execAbortRepeat]
    split
    · exact .ite (.next _) (.ite (.next _) (.next _))
    · exact .next _
  | canTxStart | canTxDeadline | linResponseRx | coreRelease | persistentWriteDone | hostReset | coxFrameTx =>
    refine .ite (.next _) ?_
    split <;> exact .next _
  | healthExpiry =>
    refine .ite (.next _) (.ite (.next _) (.ite (.next _) ?_))
    split <;> exact .next _
  | sleepCommit =>
    refine .ite (.next _) ?_
    split
    · exact .next _
    · exact .ite (.next _) (.next _)
  | remoteRequest =>
    refine .ite (.next _) (.ite (.next _) ?_)
    split <;> exact .next _
  | bar2Access => exact .ite (.next _) (.ite (.next _) (.ite (.next _) (.ite (.next _) (.next _))))
  | commandDone =>
    dsimp only [exec, execCommandDone]
    split
    · exact .ite (.next _) (.next _)
    all_goals exact .next _
  | cmdFetch => exact execCmdFetch_goesOn s
  | cmdRx port m => exact execCmdRx_goesOn s port m

end

/-- Settles O4: no arm of `exec`, and no descriptor that the command processor runs, has another outcome than a next state. -/
theorem execNeverStops : Obligations.ExecNeverStops := by
  unfold Obligations.ExecNeverStops
  exact fun c s => exec_goesOn s c

/-! ### A plain read that does not return the word held (O7, O53)

`plainRead` lists PRT_SQI among the registers that read as they are held, but on a port that is no T1 port it reads 0
(R89, `State.regValue`), whatever its word holds; after reset that is 0x70. -/

/-- PRT_SQI in the register table. -/
def sqiReg : RegDef :=
  ⟨.PRT_SQI, 0x400010, [(0x4000, 64)], 1, .port, false, false, 0x70, [⟨6, 4, .rc, []⟩, ⟨2, 0, .ro, []⟩]⟩

/-- The address of PRT_SQI of port 32, an S-port. -/
def sqiAddr : Word := here (PRT_SQI 32)

/-- The state after reset with every power domain at power-good and no island in reset. -/
def allUp : State := { State.reset with regs := [(PWR_STATUS, 0x7FFE)], rst := {} }

/-- What O7 and O53 conclude of the read of register `x`: it returns the word held, without its WO bits. -/
def ReadsHeldWord (s : State) (who : Initiator) (addr : Word) (x : RegDef × List Nat × Nat) : Prop :=
  ∃ t, exec (.rcRead who addr) s = .next t ∧
    t.readData = s.rd (addr.toNat / 4 * 4) &&& ~~~(BitVec.ofNat 32 (accMask x.1 x.2.2 [.wo]))

/-- The read of PRT_SQI of port 32 by Cox meets every premise of O7 and O53 on a plain read. -/
theorem sqiRead_premises :
    Initiator.cox ≠ .cfg ∧ allUp.hostTurned .cox = false ∧ sqiAddr.toNat < 2 ^ 26 ∧ allUp.busFree ∧
      msixAt sqiAddr.toNat = none ∧ regAt sqiAddr.toNat = some (sqiReg, [32], 0) ∧ plainRead sqiReg.reg = true ∧
      allUp.up sqiReg.island 32 = true ∧ allUp.applies sqiReg.reg 32 = true := by
  decide +kernel

theorem sqiRead_readData : (allUp.regRead .cox sqiAddr).readData = 0 := by
  decide +kernel

theorem sqi_heldWord :
    allUp.rd (sqiAddr.toNat / 4 * 4) &&& ~~~(BitVec.ofNat 32 (accMask sqiReg 0 [.wo])) = 0x70 := by
  decide +kernel

theorem not_readsHeldWord_sqi : ¬ ReadsHeldWord allUp .cox sqiAddr (sqiReg, [32], 0) := by
  rintro ⟨t, ht, hdata⟩
  cases ht
  have h : (0 : Word) = 0x70 := sqiRead_readData.symm.trans (hdata.trans sqi_heldWord)
  exact absurd h (by decide)

/-- Refutes O7: PRT_SQI of an S-port holds 0x70 after reset and reads 0 (R89), though `plainRead` counts it as plain. -/
theorem not_setupAccesses : ¬ Obligations.SetupAccesses := by
  unfold Obligations.SetupAccesses
  rintro ⟨-, hread, -⟩
  obtain ⟨hw, ht, ha, hb, hm, hr, hp, hu, hap⟩ := sqiRead_premises
  obtain ⟨t, hx, hdata, -⟩ := hread allUp .cox sqiAddr hw ht ha hb hm _ hr hp hu hap
  exact not_readsHeldWord_sqi ⟨t, hx, hdata⟩

/-- Refutes O53, whose clause on RC_READ is that of O7: PRT_SQI of an S-port holds 0x70 after reset and reads 0 (R89). -/
theorem not_setupAndPortRowsComplete : ¬ Obligations.SetupAndPortRowsComplete := by
  unfold Obligations.SetupAndPortRowsComplete
  rintro ⟨-, hread, -⟩
  obtain ⟨hw, ht, ha, hb, hm, hr, hp, hu, hap⟩ := sqiRead_premises
  exact not_readsHeldWord_sqi (hread allUp .cox sqiAddr hw ht ha hb hm _ hr hp hu hap)

/-! ### A refused command that moves the sequence of Cox (O44)

LOCKED_SEQ tries the waiting sequences of the host and of Cox after its completion (`State.lockTry`), refused or not; the
premise `State.calm` speaks of the host's alone. -/

/-- The state after reset with a locked sequence of Cox toward peer 0 that waits for the bus, which is free. -/
def coxSeqWaits : State :=
  { State.reset with hfp := { lockCox := some { peer := 0, ops := [], result := 0, holds := false } } }

/-- A LOCKED_SEQ descriptor (opcode 0x29) with a reserved bit of its octet 1 set. -/
def reservedLockedSeq : Desc := 0x229

/-- The sequence of Cox goes, meets no route to its peer and ends (R350, R354), though the command is refused. -/
theorem lockedSeq_refused_ends_coxSeq :
    ∃ t, exec (.lockedSeq .localRing reservedLockedSeq false) coxSeqWaits = .next t ∧ t.hfp.lockCox = none :=
  ⟨_, rfl, by decide +kernel⟩

theorem lessReply_lockCox (s t : State) : (t.lessReply s).hfp.lockCox = t.hfp.lockCox := rfl

/-- Refutes O44: the end of a refused LOCKED_SEQ takes the waiting sequence of Cox with it. -/
theorem not_reservedFieldsAreRefused : ¬ Obligations.ReservedFieldsAreRefused := by
  unfold Obligations.ReservedFieldsAreRefused
  intro h
  obtain ⟨t, ht, -, hsame, -⟩ := h (.lockedSeq .localRing reservedLockedSeq false) coxSeqWaits .localRing
    reservedLockedSeq _ rfl (by decide +kernel) (by decide) ⟨rfl, rfl, rfl, rfl⟩
  obtain ⟨u, hu, hgone⟩ := lockedSeq_refused_ends_coxSeq
  cases hu.symm.trans ht
  have hkept : t.hfp.lockCox = coxSeqWaits.hfp.lockCox := by
    rw [← lessReply_lockCox coxSeqWaits t, hsame]
    rfl
  exact absurd (hgone.symm.trans hkept) (by decide)

end Sys2Proof.Machine
end

section
/-! PROOFS, family 01_architecture: what an access error and an event record touch, the access outside the map, and the
statements that fail on a commit whose swap time is its own and on a set of the time that waits for the bus. -/
namespace Sys2Proof.Machine

/-! ### Register-only changes -/

/-- `t` is `s` but for its registers. -/
def SameButRegs (s t : State) : Prop := { t with regs := s.regs } = s

theorem SameButRegs.refl (s : State) : SameButRegs s s := rfl

theorem SameButRegs.trans {s t u : State} (h : SameButRegs s t) (g : SameButRegs t u) : SameButRegs s u :=
  (congrArg (fun x : State => ({ x with regs := s.regs } : State)) g :).trans h

theorem SameButRegs.set {s t : State} (h : SameButRegs s t) (f : Fld) (v : Nat) : SameButRegs s (t.set f v) :=
  h.trans (set_rest t f v)

/-- A counter that saturates reads one more, or its maximum (R14). -/
theorem get_inc_same (s : State) (f : Fld) (hf : f.lo + f.w ≤ 64) : (s.inc f).get f = min (s.get f + 1) (2 ^ f.w - 1) := by
  have hpos : 0 < 2 ^ f.w := by positivity
  rw [inc_eq_set, get_set_same s f _ hf, Nat.mod_eq_of_lt (by omega)]

theorem get_inc_apart (s : State) (f g : Fld) (h : g.apart f) : (s.inc f).get g = s.get g := get_set_apart s f g _ h

theorem rd_inc_ne (s : State) (f : Fld) {a : Nat} (h : a ∉ f.words) : (s.inc f).rd a = s.rd a := rd_set_ne s f _ h

/-! ### Access errors (R530) -/

section
variable (s : State) (who : Initiator) (isWrite : Bool) (a cause : Nat)

theorem accessErr_of_valid (h : s.on GLB_ACCESS_ERR_VALID = true) :
    s.accessErr who isWrite a cause = (s.inc GLB_ACCESS_ERR_COUNT).set GLB_ACCESS_ERR_OVERFLOW 1 := by
  simp [State.accessErr, h]

theorem accessErr_of_not_valid (h : s.on GLB_ACCESS_ERR_VALID = false) :
    s.accessErr who isWrite a cause =
      ((((((s.inc GLB_ACCESS_ERR_COUNT).set GLB_ACCESS_ERR_VALID 1).set GLB_ACCESS_ERR_CAUSE cause).set
        GLB_ACCESS_ERR_INITIATOR who.code).set GLB_ACCESS_ADDR_ADDR a).set GLB_ACCESS_ADDR_PEER who.peer).put
          GLB_ACCESS_ADDR_WRITE isWrite := by
  simp [State.accessErr, h]

/-- An access error changes registers only. -/
theorem accessErr_rest : SameButRegs s (s.accessErr who isWrite a cause) := by
  have hcount : SameButRegs s (s.inc GLB_ACCESS_ERR_COUNT) := (SameButRegs.refl s).set _ _
  cases h : s.on GLB_ACCESS_ERR_VALID with
  | true =>
    rw [accessErr_of_valid s who isWrite a cause h]
    exact hcount.set _ _
  | false =>
    rw [accessErr_of_not_valid s who isWrite a cause h]
    exact (((((hcount.set _ _).set _ _).set _ _).set _ _).set _ _).set _ _

/-- An access error changes GLB_ACCESS_ERR and GLB_ACCESS_ADDR only. -/
theorem accessErr_regsBut : RegsBut errorRegs s (s.accessErr who isWrite a cause) := by
  intro b hb
  have hset : ∀ (t : State) (f : Fld) (v : Nat), (∀ c ∈ f.words, c ∈ errorRegs) → (t.set f v).rd b = t.rd b :=
    fun t f v hf => rd_set_ne t f v fun hc => hb (hf b hc)
  cases h : s.on GLB_ACCESS_ERR_VALID with
  | true =>
    rw [accessErr_of_valid s who isWrite a cause h, inc_eq_set]
    simp (disch := decide) only [hset]
  | false =>
    rw [accessErr_of_not_valid s who isWrite a cause h, inc_eq_set, put_eq_set]
    simp (disch := decide) only [hset]

/-- An access error is recorded as R530 says. -/
theorem accessErr_recorded (hc : cause < 16) : Recorded who isWrite a cause s (s.accessErr who isWrite a cause) := by
  unfold Recorded
  cases h : s.on GLB_ACCESS_ERR_VALID with
  | true =>
    have hvalid : s.get GLB_ACCESS_ERR_VALID = 1 := by simpa [State.on] using h
    rw [accessErr_of_valid s who isWrite a cause h]
    simp (disch := unfold Fld.apart; decide) only [State.on, get_set_apart, get_inc_apart]
    simp (disch := decide) only [get_set_same, get_inc_same, rd_set_ne, rd_inc_ne, hvalid]
    simp [GLB_ACCESS_ERR_OVERFLOW]
  | false =>
    have hcause : cause % 2 ^ GLB_ACCESS_ERR_CAUSE.w = cause := Nat.mod_eq_of_lt hc
    rw [accessErr_of_not_valid s who isWrite a cause h, put_eq_set]
    simp (disch := unfold Fld.apart; decide) only [State.on, get_set_apart]
    simp (disch := decide) only [get_set_same, get_inc_same, hcause]
    cases isWrite <;> simp [GLB_ACCESS_ERR_VALID, GLB_ACCESS_ERR_INITIATOR, GLB_ACCESS_ADDR_ADDR, GLB_ACCESS_ADDR_WRITE]

end

/-! ### Accesses outside the map (R36) -/

/-- The pieces from 0x160_0000 on hold no register. -/
theorem regsOfPiece_above (k : Nat) : regsOfPiece (k + 22) = [] := rfl

theorem regAt_unmapped {a : Nat} (h : 0x1600000 ≤ a) : regAt a = none := by
  have hpiece : a / 0x100000 = a / 0x100000 - 22 + 22 := by omega
  rw [regAt, hpiece, regsOfPiece_above]
  rfl

theorem msixAt_unmapped {a : Nat} (h : 0x1600000 ≤ a) : msixAt a = none := by
  have h1 : ¬ a < 0x3F0200 := by omega
  have h2 : ¬ a < 0x3F8008 := by omega
  simp [msixAt, h1, h2]

section
variable (s : State) {who : Initiator} {a : Nat}

theorem localWrite_unmapped (h : 0x1600000 ≤ a) (v : Word) : s.localWrite who a v = s.accessErr who true a 4 := by
  simp [State.localWrite, msixAt_unmapped h, regAt_unmapped h]

theorem localRead_unmapped (h : 0x1600000 ≤ a) : s.localRead who a = (0, s.accessErr who false a 4) := by
  simp [State.localRead, msixAt_unmapped h, regAt_unmapped h]

/-- On a free bus a read of this device returns at once. -/
theorem regRead_of_busFree (h : s.busFree) (hw : who ≠ .cfg) (ht : s.hostTurned who = false) (ha : a < 2 ^ 26) :
    s.regRead who (here a) = { (s.localRead who a).2 with readData := (s.localRead who a).1 } := by
  have e : (here a).toNat % 2 ^ 26 = a := by rw [here_toNat ha]; omega
  simp only [State.regRead, addrKind_here s ha, State.busGet, busDrain_of_busFree s h, h.1, e, hw, ht, Bool.false_eq_true,
    if_false]

end

/-- Settles O46: on a free bus the one write and the one read of a local address find no register there, and what is left is
the access error of R530. -/
theorem unmappedAccesses : Obligations.UnmappedAccesses := by
  unfold Obligations.UnmappedAccesses
  refine ⟨fun s who addr data hw ht hb hlo hhi => ⟨_, rfl, ?_⟩, fun s who addr hw ht hb hlo hhi => ⟨_, rfl, ?_⟩⟩
  all_goals have haddr : addr = here addr.toNat := (BitVec.ofNat_toNat 32 addr).symm
  · have hwrite : s.regWrite who addr data = s.accessErr who true addr.toNat 4 := by
      rw [← localWrite_unmapped s hlo data, ← write_of_busFree s hb hw ht hhi, State.write, ← haddr]
    rw [hwrite]
    exact ⟨accessErr_recorded s who true _ 4 (by decide), accessErr_regsBut s who true _ 4, accessErr_rest s who true _ 4⟩
  · have hread : s.regRead who addr = { s.accessErr who false addr.toNat 4 with readData := 0 } := by
      rw [haddr, regRead_of_busFree s hb hw ht hhi, localRead_unmapped s hlo, ← haddr]
    rw [hread]
    refine ⟨rfl, accessErr_recorded s who false _ 4 (by decide), accessErr_regsBut s who false _ 4, ?_⟩
    exact congrArg (fun t : State => { t with readData := s.readData }) (accessErr_rest s who false addr.toNat 4)

/-! ### A commit whose swap time is its own (O8)

HEAT_DONE takes the swap time 1 ms from now for a job that is marked `soon` (R455), and the commit pends for that time
(`State.swapTime`). The clause of O8 on a timed commit says that it pends for `j.at_`, and its premises leave `soon` open; a
run marks an update activation alone so (`upd`), which the clause leaves out. -/

/-- A timed commit for second 1 that is marked `soon`. -/
def soonJob : CommitJob :=
  { mask := 2, timed := true, fabric := false, dryRun := false, id := 7, at_ := 10 ^ 9, soon := true }

/-- The state after reset with the heat of `soonJob` in progress. -/
def soonHeat : State := { State.reset with regs := [(GLB_CFG_STATE, 1)], fab := { job := some soonJob } }

/-- The heat ends at second 0: the commit is due 1 ms later, not at second 1. -/
theorem heatDone_soonHeat : ∃ t, exec (.heatDone 0) soonHeat = .next t ∧ t.get GLB_COMMIT_SEC_SEC = 0 :=
  ⟨_, rfl, by decide +kernel⟩

/-- Refutes O8: a timed job marked `soon` pends for 1 ms after its heat, not for its T. -/
theorem not_stagingAndCommits : ¬ Obligations.StagingAndCommits := by
  unfold Obligations.StagingAndCommits
  rintro ⟨-, -, -, htimed, -⟩
  obtain ⟨t, ht, -, hsec, -⟩ := htimed soonHeat 0 soonJob rfl (by decide +kernel) rfl rfl rfl rfl rfl rfl (by decide +kernel)
    (by decide +kernel)
  obtain ⟨u, hu, hzero⟩ := heatDone_soonHeat
  cases hu.symm.trans ht
  exact absurd (hzero.symm.trans hsec) (by decide)

/-! ### A set of the time that waits for the bus (O2)

A write of TIM_SET_NS acts in the tick after it (R261, `State.setTime`). One that waits for the bus is carried out within the
tick that finds the bus free (`State.lockTick`, R350), and so takes a second tick in the same step. -/

/-- The state after reset with every power domain at power-good and no island in reset, where the bus is free and a write of
Cox that sets the time of domain 0 waits for it. -/
def setWaits : State :=
  { State.reset with regs := [(PWR_STATUS, 0x7FFE)], rst := {}, hfp := { busWait := [.write .cox (TIM_SET_NS 0) 0x80000000] } }

theorem clock_setWaits_refTicks : setWaits.clock.refTicks = 2 := by decide +kernel

/-- Refutes O2: the step that carries out a waiting set of the time lasts two ticks. -/
theorem not_stepTicksWhenIdle : ¬ Obligations.StepTicksWhenIdle := by
  unfold Obligations.StepTicksWhenIdle
  intro h
  obtain ⟨t, ht, hticks, -⟩ := h setWaits rfl
  have hstep : step setWaits = .next setWaits.clock := rfl
  cases hstep.symm.trans ht
  exact absurd (clock_setWaits_refTicks.symm.trans hticks) (by decide)

/-! ### What event records touch (R55, R356, R382, R385) -/

theorem get_lt (s : State) (f : Fld) : s.get f < 2 ^ f.w := by
  unfold State.get
  split <;> exact Nat.mod_lt _ (by positivity)

@[simp] theorem length_leBytes (n v : Nat) : (leBytes n v).length = n := by
  induction n generalizing v with
  | zero => rfl
  | succ n ih => exact congrArg (· + 1) (ih (v / 256))

theorem within_eq_false {base n a : Nat} : within base n a = false ↔ ∀ i < n, a ≠ (base + i) % 2 ^ 64 := by
  simp only [within, List.any_eq_false, List.mem_range, beq_iff_eq]
  exact ⟨fun h i hi e => h i hi e.symm, fun h i hi e => h i hi e.symm⟩

/-- An octet outside the `n` octets that a little-endian write covers keeps its value. -/
theorem hostByte_hostWr_ne (s : State) {a n b : Nat} (v : Nat) (h : within a n b = false) :
    (s.hostWr a n v).hostByte b = s.hostByte b :=
  hostByte_hostPut_ne _ s a b (by simpa using within_eq_false.mp h)

/-- The host address of the slot of the event ring that the `k`-th record from now takes (R382). -/
def State.eventSlot (s : State) (k : Nat) : Nat :=
  s.get HIF_EVT_BASE_ADDR * 64 + 32 * ((s.hif.evtProd + BitVec.ofNat 32 k).toNat % ringSize (s.get HIF_EVT_CFG_LOG2_SIZE))

/-- The host address of the producer word of the event ring (R386). -/
def State.eventProdAddr (s : State) : Nat := s.get HIF_ST_BASE_ADDR * 4096 + 4

theorem eventSlot_zero (s : State) : s.eventSlot 0
    = s.get HIF_EVT_BASE_ADDR * 64 + 32 * (s.hif.evtProd.toNat % ringSize (s.get HIF_EVT_CFG_LOG2_SIZE)) := by
  simp [State.eventSlot]

theorem eventArea_eq_false {s : State} {n a : Nat} : s.eventArea n a = false ↔
    (∀ k < n, within (s.eventSlot k) 32 a = false) ∧ within s.eventProdAddr 4 a = false ∧
      ∀ g < 16, within (s.vectorAddr (s.get (HIF_EVT_VEC_VEC g))) 4 a = false := by
  simp [State.eventArea, State.eventSlot, State.eventProdAddr, State.vectorAddr, and_assoc]

/-! ### The steps of one record -/

/-- Cox has received a record (R55). -/
def State.heard (s : State) (e : EventRec) : State := { s with cox := { s.cox with events := s.cox.events ++ [e] } }

@[simp] theorem State.heard_events (s : State) (e : EventRec) : (s.heard e).cox.events = s.cox.events ++ [e] := rfl
@[simp] theorem State.heard_hif (s : State) (e : EventRec) : (s.heard e).hif = s.hif := rfl

theorem deliver_eq (s : State) (e : EventRec) : s.deliver e =
    if s.evtRuns && s.evtFull then ((s.heard e).toRing e, false) else ((s.heard e).toRing e).toRevq (s.recordImage e) := rfl

theorem emit_eq (s : State) (code source body : Nat) : s.emit code source body =
    if (s.deliver ⟨code, source, s.short 0, body⟩).2 then
      ((s.deliver ⟨code, source, s.short 0, body⟩).1.deliver ⟨0x0805, 0, s.short 0, 0⟩).1
    else (s.deliver ⟨code, source, s.short 0, body⟩).1 := rfl

/-- A record stands in its slot, and the producer has advanced (R382). -/
def State.slotWritten (s : State) (e : EventRec) : State :=
  let s1 := s.hostWr (s.eventSlot 0) 32 (s.recordImage e)
  { s1 with hif := { s1.hif with evtProd := s1.hif.evtProd + 1, evtLost := false } }

/-- The status page shows the producer too (R386). -/
def State.ringWritten (s : State) (e : EventRec) : State :=
  (s.slotWritten e).hostWr (s.slotWritten e).eventProdAddr 4 (s.slotWritten e).hif.evtProd.toNat

theorem writeRing_eq (s : State) (e : EventRec) : s.writeRing e =
    (s.ringWritten e).raiseSource (32 + e.code / 256 % 16) ((s.ringWritten e).on (HIF_EVT_VEC_EN (e.code / 256 % 16)))
      ((s.ringWritten e).get (HIF_EVT_VEC_VEC (e.code / 256 % 16)))
      ((s.ringWritten e).get (HIF_EVT_VEC_HOLDOFF (e.code / 256 % 16))) := by
  unfold State.ringWritten State.slotWritten
  rw [eventSlot_zero]
  rfl

theorem hostWr_hif (s : State) (a n v : Nat) : (s.hostWr a n v).hif = s.hif :=
  (congrArg State.hif (hostPut_rest (leBytes n v) s a) :)

theorem hostWr_cox (s : State) (a n v : Nat) : (s.hostWr a n v).cox = s.cox :=
  (congrArg State.cox (hostPut_rest (leBytes n v) s a) :)

theorem slotWritten_evtProd (s : State) (e : EventRec) : (s.slotWritten e).hif.evtProd = s.hif.evtProd + 1 :=
  congrArg (fun h : Hif => h.evtProd + 1) (hostWr_hif s _ _ _)

theorem slotWritten_regs (s : State) (e : EventRec) : (s.slotWritten e).regs = s.regs := hostPut_regs _ _ _

theorem ringWritten_regs (s : State) (e : EventRec) : (s.ringWritten e).regs = s.regs :=
  (hostPut_regs _ _ _).trans (slotWritten_regs s e)

/-! ### What records leave -/

/-- What at most `n` event records leave of `s` in `t`: they change what `State.lessEvents` puts back, of registers and host
memory no more than R356, R382 and R385 give them, they advance the event ring by one slot each, and Cox loses none. -/
structure Records (n : Nat) (s t : State) : Prop where
  rest : t.lessEvents s = s
  regs : RegsButE [] s t
  host : HostKeptE n s t
  prod : ∃ k ≤ n, t.hif.evtProd = s.hif.evtProd + BitVec.ofNat 32 k
  events : s.cox.events <+: t.cox.events

namespace Records
variable {m n : Nat} {s t u : State}

theorem refl (s : State) : Records 0 s s :=
  ⟨rfl, fun _ _ _ => rfl, fun _ _ => rfl, ⟨0, le_rfl, by simp⟩, List.prefix_rfl⟩

theorem mono (h : Records m s t) (hmn : m ≤ n) : Records n s t where
  rest := h.rest
  regs := h.regs
  host a ha := by
    obtain ⟨hslot, hrest⟩ := eventArea_eq_false.mp ha
    exact h.host a (eventArea_eq_false.mpr ⟨fun k hk => hslot k (by omega), hrest⟩)
  prod := let ⟨k, hk, e⟩ := h.prod; ⟨k, hk.trans hmn, e⟩
  events := h.events

theorem get_eq (h : Records n s t) (f : Fld) (hf : ∀ a ∈ f.words, eventReg a = false) : t.get f = s.get f :=
  get_congr f fun a ha => h.regs a List.not_mem_nil (hf a ha)

theorem vectorAddr_eq (h : Records n s t) (v : Nat) : t.vectorAddr v = s.vectorAddr v := by
  have htab : t.hif.msixTab = s.hif.msixTab := (congrArg (fun x : State => x.hif.msixTab) h.rest :)
  simp only [State.vectorAddr, State.msixWord, htab]

/-- What `n` more records may write lies in what `m + n` records may write from the start. -/
theorem eventArea (h : Records m s t) {a : Nat} (ha : s.eventArea (m + n) a = false) : t.eventArea n a = false := by
  obtain ⟨hslot, hprod, hvec⟩ := eventArea_eq_false.mp ha
  obtain ⟨j, hj, eprod⟩ := h.prod
  refine eventArea_eq_false.mpr ⟨fun k hk => ?_, ?_, fun g hg => ?_⟩
  · have hsame : t.eventSlot k = s.eventSlot (j + k) := by
      simp only [State.eventSlot, h.get_eq HIF_EVT_BASE_ADDR (by decide), h.get_eq HIF_EVT_CFG_LOG2_SIZE (by decide), eprod,
        BitVec.ofNat_add, BitVec.add_assoc]
    rw [hsame]
    exact hslot (j + k) (by omega)
  · rw [State.eventProdAddr, h.get_eq HIF_ST_BASE_ADDR (by decide)]
    exact hprod
  · have hf : ∀ g < 16, ∀ b ∈ (HIF_EVT_VEC_VEC g).words, eventReg b = false := by decide
    rw [h.get_eq _ (hf g hg), h.vectorAddr_eq]
    exact hvec g hg

theorem trans (h : Records m s t) (g : Records n t u) : Records (m + n) s u where
  rest := (congrArg (fun x : State => x.lessEvents s) g.rest :).trans h.rest
  regs a ha he := (g.regs a ha he).trans (h.regs a ha he)
  host a ha := (g.host a (h.eventArea ha)).trans ((h.mono (Nat.le_add_right m n)).host a ha)
  prod := by
    obtain ⟨j, hj, ej⟩ := h.prod
    obtain ⟨k, hk, ek⟩ := g.prod
    exact ⟨j + k, Nat.add_le_add hj hk, by rw [ek, ej, BitVec.ofNat_add, BitVec.add_assoc]⟩
  events := h.events.trans g.events

/-- Cox receives a record. -/
theorem heard (s : State) (e : EventRec) : Records 0 s (s.heard e) :=
  ⟨rfl, fun _ _ _ => rfl, fun _ _ => rfl, ⟨0, le_rfl, by simp⟩, List.prefix_append _ _⟩

/-- Pending vectors, holdoffs and the lost flag change. -/
theorem flags (s : State) (pba : Nat) (holdoff : SMap Nat) (lost : Bool) :
    Records 0 s { s with hif := { s.hif with msixPba := pba, holdoff := holdoff, evtLost := lost } } :=
  ⟨rfl, fun _ _ _ => rfl, fun _ _ => rfl, ⟨0, le_rfl, by simp⟩, List.prefix_rfl⟩

theorem wr (s : State) {a : Nat} (v : Word) (ha : eventReg a = true) : Records 0 s (s.wr a v) where
  rest := rfl
  regs b _ hb := rd_wr_ne s v (by rintro rfl; simp [ha] at hb)
  host _ _ := rfl
  prod := ⟨0, le_rfl, by simp⟩
  events := List.prefix_rfl

theorem set (s : State) (f : Fld) (v : Nat) (hf : ∀ a ∈ f.words, eventReg a = true) : Records 0 s (s.set f v) where
  rest := (congrArg (fun x : State => x.lessEvents s) (set_rest s f v) :)
  regs b _ hb := rd_set_ne s f v fun hm => by simp [hf b hm] at hb
  host _ _ := by simp [State.hostByte]
  prod := ⟨0, le_rfl, by simp⟩
  events := by simp

theorem hostWr (s : State) {a k : Nat} (v : Nat) (h : ∀ b, s.eventArea n b = false → within a k b = false) :
    Records n s (s.hostWr a k v) where
  rest := (congrArg (fun x : State => x.lessEvents s) (hostPut_rest (leBytes k v) s a) :)
  regs b _ _ := rd_congr (hostPut_regs _ s a) b
  host b hb := hostByte_hostWr_ne s v (h b hb)
  prod := ⟨0, Nat.zero_le n, by simp [hostWr_hif]⟩
  events := by rw [hostWr_cox]

theorem each {α : Type} {f : State → α → State} (l : List α) (h : ∀ (t : State), ∀ x ∈ l, Records 0 t (f t x)) (s : State) :
    Records 0 s (s.each l f) := by
  induction l generalizing s with
  | nil => exact refl s
  | cons x l ih =>
    exact (h s x List.mem_cons_self).trans (ih (fun t y hy => h t y (List.mem_cons_of_mem x hy)) (f s x))

/-- The vector of an event group is sent, pends, or is not (R385). -/
theorem sendVector (s : State) {g : Nat} (hg : g < 16) : Records 0 s (s.sendVector (s.get (HIF_EVT_VEC_VEC g))) := by
  unfold State.sendVector
  split
  · exact refl s
  · split
    · exact flags s _ _ _
    · exact hostWr s _ fun b hb => (eventArea_eq_false.mp hb).2.2 g hg

theorem raiseSource (s : State) (source : Nat) (en : Bool) {g : Nat} (hg : g < 16) (holdoff : Nat) :
    Records 0 s (s.raiseSource source en (s.get (HIF_EVT_VEC_VEC g)) holdoff) := by
  unfold State.raiseSource
  split
  · exact refl s
  · split
    · split
      · exact sendVector s hg
      · exact (flags s _ _ _).trans (sendVector _ hg)
    · exact flags s _ _ _

/-- The ring takes a record into its next slot. -/
theorem slotWritten (s : State) (e : EventRec) : Records 1 s (s.slotWritten e) :=
  have h := hostWr (n := 1) s (s.recordImage e) fun _ hb => (eventArea_eq_false.mp hb).1 0 Nat.one_pos
  ⟨h.rest, h.regs, h.host, ⟨1, le_rfl, slotWritten_evtProd s e⟩, h.events⟩

theorem ringWritten (s : State) (e : EventRec) : Records 1 s (s.ringWritten e) :=
  (slotWritten s e).trans (hostWr (n := 0) _ _ fun _ hb => (eventArea_eq_false.mp hb).2.1)

end Records

/-- A record that the ring takes: its slot, the producer word, and the vector of its group. -/
theorem writeRing_records (s : State) (e : EventRec) : Records 1 s (s.writeRing e) := by
  rw [writeRing_eq]
  exact (Records.ringWritten s e).trans (Records.raiseSource _ _ _ (Nat.mod_lt _ (by decide)) _)

theorem loseRecord_records (s : State) : Records 0 s s.loseRecord :=
  (Records.flags s _ _ true).trans (Records.set _ HIF_EVT_LOST_COUNT _ (by decide))

theorem toRing_records (s : State) (e : EventRec) : Records 1 s (s.toRing e) := by
  unfold State.toRing
  split
  · exact writeRing_records s e
  · exact (loseRecord_records s).mono Nat.one_pos.le

theorem eventReg_revq {h k : Nat} (hh : h < 256) (hk : k < 8) : eventReg (HFP_REVQ h k) = true := by
  have hlo : 0x1001000 ≤ HFP_REVQ h k := by rw [HFP_REVQ]; omega
  have hhi : HFP_REVQ h k < 0x1003000 := by rw [HFP_REVQ]; omega
  simp [eventReg, hlo, hhi]

/-- The remote event queue takes a record into eight words, or counts it (R356). -/
theorem toRevq_records (s : State) (image : Nat) : Records 0 s (s.toRevq image).1 := by
  have hword : ∀ k ∈ List.range 8, eventReg (HFP_REVQ (s.get HFP_REVQ_HEAD_INDEX) k) = true :=
    fun k hk => eventReg_revq (get_lt s HFP_REVQ_HEAD_INDEX) (List.mem_range.mp hk)
  dsimp only [State.toRevq]
  split
  · exact Records.refl s
  · split
    · exact Records.set s HFP_REVQ_LOST_COUNT _ (by decide)
    · exact (Records.each _ (fun t k hk => Records.wr t _ (hword k hk)) s).trans
        (Records.set _ HFP_REVQ_HEAD_INDEX _ (by decide))

/-- Once Cox has received a record, the ring and the remote queue follow. -/
theorem deliver_records_heard (s : State) (e : EventRec) : Records 1 (s.heard e) (s.deliver e).1 := by
  rw [deliver_eq]
  split
  · exact toRing_records _ e
  · exact (toRing_records _ e).trans (toRevq_records _ _)

theorem deliver_records (s : State) (e : EventRec) : Records 1 s (s.deliver e).1 :=
  (Records.heard s e).trans (deliver_records_heard s e)

/-- An event is one record, and REVQ_OVERFLOW may be a second one (R356). -/
theorem emit_records_heard (s : State) (code source body : Nat) :
    Records 2 (s.heard ⟨code, source, s.short 0, body⟩) (s.emit code source body) := by
  have h := deliver_records_heard s ⟨code, source, s.short 0, body⟩
  rw [emit_eq]
  split
  · exact h.trans (deliver_records _ _)
  · exact h.mono one_le_two

theorem emit_records (s : State) (code source body : Nat) : Records 2 s (s.emit code source body) :=
  (Records.heard s _).trans (emit_records_heard s code source body)

theorem emit_emits (s : State) (code source body : Nat) : Emits code source body s (s.emit code source body) := by
  obtain ⟨l, hl⟩ := (emit_records_heard s code source body).events
  refine ⟨(emit_records s code source body).events, ?_⟩
  rw [← hl, State.heard_events, List.append_assoc, List.drop_left]
  exact List.mem_cons_self

/-! ### The slot of a record -/

/-- Octet `i` of what is stored at `a` reads back, where the octets do not run around the address space. -/
theorem hostByte_hostStore (l : List Byte) : ∀ (s : State) (a i : Nat) (hi : i < l.length), l.length ≤ 2 ^ 64 →
    (s.hostStore a l).hostByte ((a + i) % 2 ^ 64) = l[i] := by
  induction l with
  | nil => exact fun _ _ _ hi => absurd hi (Nat.not_lt_zero _)
  | cons x l ih =>
    intro s a i hi hlen
    simp only [List.length_cons] at hi hlen
    cases i with
    | zero =>
      rw [State.hostStore, hostByte_hostStore_ne l _ _ _ fun j hj => by omega]
      simp [State.hostByte]
    | succ i =>
      rw [State.hostStore, show a + (i + 1) = a + 1 + i by omega]
      exact ih _ (a + 1) i (by omega) (by omega)

/-- What the device writes to host memory, while it may, reads back. -/
theorem hostBytes_hostWr (s : State) (a n v : Nat) (hd : s.dmaOn = true) (hn : n ≤ 2 ^ 64) :
    (s.hostWr a n v).hostBytes a n = leBytes n v := by
  refine List.ext_getElem (by simp [State.hostBytes]) fun i hi _ => ?_
  have hin : i < (leBytes n v).length := by simpa [State.hostBytes] using hi
  simpa [State.hostBytes, State.hostWr, State.hostPut, hd, State.hostByte]
    using hostByte_hostStore (leBytes n v) s a i hin (by simpa using hn)

/-- A write elsewhere keeps a string of octets. -/
theorem hostBytes_hostWr_ne (s : State) {a n b m : Nat} (v : Nat) (h : ∀ i < m, within a n ((b + i) % 2 ^ 64) = false) :
    (s.hostWr a n v).hostBytes b m = s.hostBytes b m :=
  List.map_congr_left fun i hi => hostByte_hostWr_ne s v (h i (List.mem_range.mp hi))

theorem dmaOn_of_evtRuns {s : State} (h : s.evtRuns = true) : s.dmaOn = true := by
  simp only [State.evtRuns, Bool.and_eq_true] at h
  obtain ⟨⟨⟨⟨-, hdma⟩, -⟩, -⟩, -⟩ := h
  exact hdma

theorem toRing_of_room {s : State} (hruns : s.evtRuns = true) (hroom : s.evtFull = false) (e : EventRec) :
    s.toRing e = s.writeRing e := by
  simp [State.toRing, hruns, hroom]

theorem toRing_of_no_room {s : State} (h : s.evtRuns = false ∨ s.evtFull = true) (e : EventRec) : s.toRing e = s.loseRecord := by
  rcases h with h | h <;> simp [State.toRing, h]

theorem toRing_of_silent {s : State} (hruns : s.evtRuns = true) (hroom : s.evtFull = false) (e : EventRec)
    (hvec : s.on (HIF_EVT_VEC_EN (e.code / 256 % 16)) = false) : s.toRing e = s.ringWritten e := by
  have hoff : (s.ringWritten e).on (HIF_EVT_VEC_EN (e.code / 256 % 16)) = false := by
    rw [State.on, get_congr_regs (ringWritten_regs s e)]
    exact hvec
  rw [toRing_of_room hruns hroom, writeRing_eq, hoff]
  rfl

theorem ringWritten_evtProd (s : State) (e : EventRec) : (s.ringWritten e).hif.evtProd = s.hif.evtProd + 1 := by
  rw [State.ringWritten, hostWr_hif, slotWritten_evtProd]

/-- The slot holds the record where the producer word lies elsewhere. -/
theorem ringWritten_hostBytes (s : State) (e : EventRec) (hd : s.dmaOn = true)
    (happart : ∀ i < 32, within s.eventProdAddr 4 ((s.eventSlot 0 + i) % 2 ^ 64) = false) :
    (s.ringWritten e).hostBytes (s.eventSlot 0) 32 = leBytes 32 (s.recordImage e) := by
  have hprod : (s.slotWritten e).eventProdAddr = s.eventProdAddr := by
    rw [State.eventProdAddr, get_congr_regs (slotWritten_regs s e), State.eventProdAddr]
  rw [State.ringWritten, hprod, hostBytes_hostWr_ne _ _ happart]
  exact hostBytes_hostWr s (s.eventSlot 0) 32 _ hd (by decide)

/-- Settles O49: each step of a record is one of `Records`; the slot is what it has written last at that place. -/
theorem eventRecords : Obligations.EventRecords := by
  unfold Obligations.EventRecords
  refine ⟨fun s code source body => ?_, fun s e hruns hroom happart hvec => ?_, fun s e hlost => ?_⟩
  · have h := emit_records s code source body
    exact ⟨emit_emits s code source body, h.rest, h.regs, h.host⟩
  · rw [← eventSlot_zero] at happart ⊢
    rw [toRing_of_silent hruns hroom e hvec]
    refine ⟨ringWritten_evtProd s e, ringWritten_regs s e, ringWritten_hostBytes s e (dmaOn_of_evtRuns hruns) ?_⟩
    simpa [State.eventProdAddr] using happart
  · rw [toRing_of_no_room hlost]
    exact ⟨by simp [State.loseRecord], by simp [State.loseRecord], by simp [State.loseRecord],
      get_inc_same _ HIF_EVT_LOST_COUNT (by decide)⟩

end Sys2Proof.Machine
end

section
/-! PROOFS, family 02_ports_and_line: each of its statements fails on one row. The start of a diagnostic (O9), an acknowledged
sleep (O11), a classification that finds a parity error (O12), and a copy for the Rigger while the Edge island is off (O54). -/
namespace Sys2Proof.Machine

/-! ### A diagnostic drops the resume record (O9)

A diagnostic that starts in OFF or LISTEN invalidates the port's resume record (R79, `State.startDiag`). The clause of O9 on
DIAG.START says that no word but those of PRT_DIAG and PRT_LINK_STATUS changes. -/

/-- Port 9, a T1 port in OFF, holds a usable resume record. -/
def recordHeld : State := allUp.set (PRT_RESUME_INFO_VALID 9) 1

theorem diagStart_recordHeld_drops_record :
    ∃ t, exec (.diagStart .cox 9) recordHeld = .next t ∧ t.rd (PRT_RESUME_INFO 9) ≠ recordHeld.rd (PRT_RESUME_INFO 9) :=
  ⟨_, rfl, by decide +kernel⟩

/-- Refutes O9: DIAG.START on a port in OFF with a valid resume record changes PRT_RESUME_INFO. -/
theorem not_portRegistersAct : ¬ Obligations.PortRegistersAct := by
  unfold Obligations.PortRegistersAct
  rintro ⟨-, -, -, hdiag, -⟩
  obtain ⟨t, ht, -, hregs, -⟩ := hdiag recordHeld .cox 9 (by decide +kernel)
  obtain ⟨u, hu, hdropped⟩ := diagStart_recordHeld_drops_record
  cases hu.symm.trans ht
  exact hdropped (hregs (PRT_RESUME_INFO 9) (by decide))

/-! ### A sleeping port spends an injection point (O11)

A T1 port that enters SLEEP writes its resume record, whose CRC an armed RESUME_CRC corrupts, and the point is spent (R78, R93,
R410, `State.writeRecord`). The clause of O11 on the acknowledgement leaves out the block of the injection points. -/

/-- Sleep entry waits for the partner of port 9, a T1 port in UP for which RESUME_CRC (point 13) is armed. -/
def sleepArmed : State :=
  let s := ((allUp.set PWR_STATUS_STATE 3).set (PRT_MODE_ENABLE 9) 1).set (PRT_MODE_TC10_EN 9) 1
  let u := ((s.set (PRT_LINK_STATUS_STATE 9) 4).set INJ_CTRL_EN 1).wr (INJ_ARM 13) 0x80000009
  { u with pwr := { u.pwr with waitAck := [9] } }

theorem tc10SleepAck_sleepArmed_spends_point :
    ∃ t, exec (.tc10SleepAck 9) sleepArmed = .next t ∧ t.rd (INJ_ARM 13) ≠ sleepArmed.rd (INJ_ARM 13) :=
  ⟨_, rfl, by decide +kernel⟩

/-- Refutes O11: the acknowledgement of a port for which RESUME_CRC is armed changes INJ_ARM. -/
theorem not_lineRows : ¬ Obligations.LineRows := by
  unfold Obligations.LineRows
  rintro ⟨-, -, hack, -⟩
  obtain ⟨t, ht, -, -, -, hregs, -⟩ := hack sleepArmed 9 (by decide +kernel) rfl (by decide +kernel)
  obtain ⟨u, hu, hspent⟩ := tc10SleepAck_sleepArmed_spends_point
  cases hu.symm.trans ht
  exact hspent (hregs (INJ_ARM 13) (by decide) (by decide))

/-! ### A parity error with the remote event queue full (O12)

A TCAM entry that wins with a wrong parity raises one event (R192). Where its record finds the remote event queue full, REVQ_OVERFLOW
follows (R356, `State.emit`), so that two records reach the event ring. The clause of O12 on CLASSIFY allows one. -/

/-- A frame on port 9. -/
def plainFrame : FrameIn := { port := 9, fid := 1, bytes := leBytes 60 0, age := 0 }

/-- Port 9 is UP, the Umpire is ready, its one TCAM entry takes every frame and has a wrong parity; the event ring runs at host
address 64 with 256 slots, and the remote event queue is full with no record lost yet. -/
def parityHit : State :=
  let s := (allUp.set (PRT_LINK_STATUS_STATE 9) 4).set UMP_STATUS_READY 1
  let r := (((s.set HIF_CTRL_ENABLE 1).set HIF_EVT_CFG_EN 1).set HIF_EVT_CFG_LOG2_SIZE 8).set HIF_EVT_BASE_ADDR 1
  let u := (r.set HIF_ST_BASE_ADDR 1).set HFP_REVQ_HEAD_INDEX 255
  { u with hif := { u.hif with pci := { busMaster := true } }, ump := { tcamBad := [0] },
           fab := { u.fab with active := bankPut resetBank 3 0 (2 ^ 1280) } }

/-- The second slot of the event ring, at 96, takes REVQ_OVERFLOW (0x0805). -/
theorem classify_parityHit_second_record :
    ∃ t, exec (.classify plainFrame true) parityHit = .next t ∧ t.hostByte 96 ≠ parityHit.hostByte 96 :=
  ⟨_, rfl, by decide +kernel⟩

/-- Refutes O12: a classification can write two event records. -/
theorem not_framesComeIn : ¬ Obligations.FramesComeIn := by
  unfold Obligations.FramesComeIn
  rintro ⟨-, hclassify, -⟩
  obtain ⟨t, ht, -, -, -, -, -, -, hhost⟩ := hclassify parityHit plainFrame true (by decide +kernel) (by decide +kernel)
    (by decide +kernel) rfl (by decide +kernel) (by decide +kernel) (by decide +kernel) (by decide +kernel)
  obtain ⟨u, hu, hwritten⟩ := classify_parityHit_second_record
  cases hu.symm.trans ht
  exact hwritten (hhost 96 (by decide +kernel))

/-! ### A copy for the Rigger while the Edge island is off (O54)

Lane service discards a copy that it takes for port 66 while the Edge island is off (R325, `State.dequeue`). The clause of O54 on
LANE_SELECT says for every internal port but 65 and 67 that the copy starts. -/

/-- The copy of handle 7 that waits in lane 3. -/
def rigCopy : Copy := { handle := 7, kind := 0, lane := 3, rsv := false }

/-- The stored frame of `rigCopy`. -/
def rigHandle : Handle := { pool := 1, chunk := 3, bytes := leBytes 60 0, port := 9, state := 1, refcnt := 1 }

/-- `rigCopy` waits on port 66 with every power domain at power-good but PD5, that of the Edge island. -/
def edgeOff : State :=
  { allUp with regs := [(PWR_STATUS, 0x7FDE)], fab := { handles := [(7, rigHandle)], lanes := [(8 * 66 + 3, [rigCopy])] } }

theorem selectLane_edgeOff : (edgeOff.selectLane 66).map (·.1) = some 3 := by decide +kernel

theorem laneSelect_edgeOff_sends_nothing :
    ∃ t, exec (.laneSelect 66 0 0) edgeOff = .next t ∧ (t.svc 66).sending = none :=
  ⟨_, rfl, by decide +kernel⟩

/-- Refutes O54: LANE_SELECT on port 66 starts no copy while the Edge island is off. -/
theorem not_frameAndStoreRowsComplete : ¬ Obligations.FrameAndStoreRowsComplete := by
  unfold Obligations.FrameAndStoreRowsComplete
  rintro ⟨-, -, -, -, -, -, hselect, -⟩
  obtain ⟨⟨l, v, drr⟩, hr, rfl⟩ := Option.map_eq_some_iff.mp selectLane_edgeOff
  have haged : edgeOff.aged 66 3 rigHandle.arrival = false := by decide +kernel
  obtain ⟨t, ht, hsends⟩ := hselect edgeOff 66 0 0 rfl (by decide +kernel) (by decide +kernel) (by decide +kernel)
    (by decide +kernel) rfl rfl rfl _ hr rigCopy rfl rigHandle rfl rfl rfl (by decide +kernel) rfl (by decide +kernel) haged
    (by decide) (by decide) (by decide) (by decide +kernel)
  obtain ⟨u, hu, hnone⟩ := laneSelect_edgeOff_sends_nothing
  cases hu.symm.trans ht
  exact absurd (hnone.symm.trans hsends) (by simp)

end Sys2Proof.Machine
end

section
/-! PROOFS, family 03_frame_store: the frames that firmware sends, and the statement on the store and DRAM, which fails on an
uncorrectable word that the scrubber finds during a sleep entry. -/
namespace Sys2Proof.Machine

/-! ### A frame at an internal port (R107) -/

section
variable (s : State) (port : Nat) (bytes : List Byte) (tag : Option TxTag) (direct : Option Nat)

/-- Only the frames on their way in, and the number of the next one, change. -/
theorem internalIn_rest : { s.internalIn port bytes tag direct with
    fab := { (s.internalIn port bytes tag direct).fab with rx := s.fab.rx, nextFrame := s.fab.nextFrame } } = s := by
  unfold State.internalIn
  split <;> rfl

theorem internalIn_regs : (s.internalIn port bytes tag direct).regs = s.regs :=
  (congrArg State.regs (internalIn_rest s port bytes tag direct) :)

theorem internalIn_key : (s.internalIn port bytes tag direct).key = s.key :=
  (congrArg State.key (internalIn_rest s port bytes tag direct) :)

/-- While the Fabric island is up and accepts frames, the frame enters whole, under the next number. -/
theorem internalIn_enters (hup : s.up .fabric = true) (hopen : s.framesStopped = false) :
    ((s.internalIn port bytes tag direct).rxAt port s.fab.nextFrame).any
      (fun x => x.bytes == bytes && x.port == port && x.ended) = true := by
  simp [State.internalIn, State.rxAt, hup, hopen]

end

/-! ### The key unit's part in an MKPDU (R434, R439) -/

theorem slotRead_of_sound (s : State) {i : Nat} (h : SMap.get s.key.slotErr 0 i = 0) : s.slotRead i = s := by
  simp [State.slotRead, h]

/-- Where the CAK serves, the ICV under the ICK that it derives ends the frame, and the key unit stays as it was. -/
theorem mkaFrame_icv (s : State) {u : MkaUse} (bytes : List Byte) (hstep : u.step = .icv) (hup : s.up .key = true)
    (hvalid : slotValid (s.slot u.cak.toNat) = true) (htype : slotType (s.slot u.cak.toNat) = 0)
    (husage : slotUsage (s.slot u.cak.toNat) = 3) :
    s.mkaFrame u bytes =
      some (s, bytes ++ Config.cmac (mkaKey (slotKey (s.slot u.cak.toNat)) u.ckn "IEEE8021 ICK") bytes) := by
  simp [State.mkaFrame, hstep, hup, hvalid, htype, husage]

/-! ### COX_FRAME_TX (R275, R401) -/

/-- The egress record that firmware asks for with a frame. -/
def coxTag (ts : Option (BitVec 16)) : TxTag := { ring := 0, tag := (ts.map (·.toNat)).getD 0, req := ts.isSome }

section
variable (s : State) (bytes : List Byte) (ts : Option (BitVec 16))

theorem exec_coxFrameTx_of_held (mka : Option MkaUse) (hheld : s.cox.coresHeld = true) :
    exec (.coxFrameTx bytes ts mka) s = .next s :=
  if_pos (.inr hheld)

theorem exec_coxFrameTx_plain (hup : s.up .cox = true) (hruns : s.cox.coresHeld = false) :
    exec (.coxFrameTx bytes ts none) s = .next (s.internalIn 65 bytes (some (coxTag ts)) none) :=
  if_neg (by simp [hup, hruns])

theorem exec_coxFrameTx_mka {u : MkaUse} {out : List Byte} (hup : s.up .cox = true) (hruns : s.cox.coresHeld = false)
    (hsound : SMap.get s.key.slotErr 0 u.cak.toNat = 0) (hframe : s.mkaFrame u bytes = some (s, out)) :
    exec (.coxFrameTx bytes ts (some u)) s = .next (s.internalIn 65 out (some (coxTag ts)) none) := by
  have hrun : ¬(!s.up .cox ∨ s.cox.coresHeld) := by simp [hup, hruns]
  refine (if_neg hrun).trans ?_
  simp only [slotRead_of_sound s hsound, ite_self, hframe]
  rfl

end

/-- Settles O43: while the cores run, the frame, with the ICV after it where the key unit adds one, enters at port 65. -/
theorem coxFrames : Obligations.CoxFrames := by
  unfold Obligations.CoxFrames
  refine ⟨fun s bytes ts mka hcox hruns hup hopen hmka => ?_, ?_, fun s bytes ts mka hheld => ?_⟩
  · subst hmka
    exact ⟨_, exec_coxFrameTx_plain s bytes ts hcox hruns, internalIn_enters s 65 bytes _ none hup hopen,
      internalIn_regs s 65 bytes _ none, internalIn_rest s 65 bytes _ none⟩
  · intro s bytes ts mka hcox hruns hup hopen hkey u hmka hstep _ hsound hvalid htype husage
    subst hmka
    have hframe := mkaFrame_icv s bytes hstep hkey hvalid htype husage
    exact ⟨_, exec_coxFrameTx_mka s bytes ts hcox hruns hsound hframe, internalIn_enters s 65 _ _ none hup hopen,
      internalIn_regs s 65 _ _ none, internalIn_key s 65 _ _ none⟩
  · exact ⟨s, exec_coxFrameTx_of_held s bytes ts mka hheld, rfl⟩

/-! ### The scrubber at a word of a chunk (R122, R123) -/

theorem each_cox {α : Type} {f : State → α → State} (hf : ∀ t x, (f t x).cox = t.cox) (l : List α) (s : State) :
    (s.each l f).cox = s.cox := by
  induction l generalizing s with
  | nil => rfl
  | cons x l ih => exact (ih (f s x)).trans (hf s x)

theorem showStore_cox (s : State) : s.showStore.cox = s.cox := by
  have hpool : ∀ (t : State) (p : Nat), (t.showPool p).cox = t.cox := fun t p => by simp [State.showPool]
  simp [State.showStore, each_cox hpool]

/-- The scrubber has read a word that shows `e`, and goes on to the next. -/
def State.scrubRead (s : State) (e : Nat) : State :=
  s.fset fun f => { f with badWords := SMap.put f.badWords 0 s.fab.scrub e, scrub := (s.fab.scrub + 1) % storeWords }

/-- What the scrubber does when its next word, `r` as pool, chunk and word of the chunk, shows `e`. -/
def State.scrubbed (s : State) (r : Nat × Nat × Nat) (e : Nat) : State :=
  (s.scrubRead e).scrubWord r.1 r.2.1 r.2.2 s.fab.scrub e

theorem exec_scrubStep_of_chunk (s : State) (ecc : Fin 4) (hup : s.up .fabric = true) (hen : s.on FST_CTRL_SCRUB_EN = true)
    (hready : s.on FST_STATUS_READY = true) {r : Nat × Nat × Nat} (hat : s.wordAt s.fab.scrub = some r) {e : Nat}
    (he : max (SMap.get s.fab.badWords 0 s.fab.scrub) ecc.val = e) :
    exec (.scrubStep ecc) s = .next (if s.fab.scrub + 1 = storeWords then (s.scrubbed r e).incWrap FST_SCRUB_PASS_COUNT
      else s.scrubbed r e) := by
  subst he
  have hat' : (s.scrubRead (max (SMap.get s.fab.badWords 0 s.fab.scrub) ecc.val)).wordAt s.fab.scrub = some r := hat
  have hruns : ¬(!s.up .fabric || !s.on FST_CTRL_SCRUB_EN || !s.on FST_STATUS_READY) = true := by simp [hup, hen, hready]
  refine (if_neg hruns).trans ?_
  simp only [State.scrubRead, State.scrubbed] at hat' ⊢
  simp only [hat']

/-- A word that shows an uncorrectable error in a chunk that no frame holds is counted, located and reported, and the chunk waits for
its rewrite (R123). -/
theorem scrubWord_uncorr (s : State) (p c w word : Nat) (hhandles : s.fab.handles = []) (hsuspect : s.fab.suspect = []) :
    s.scrubWord p c w word 2 =
      ((s.scrubUncorr p c).fset fun f => { f with suspect := SMap.insert f.suspect (chunkKey p c) false }).showStore := by
  simp [State.scrubWord, hhandles, hsuspect]

theorem scrubWord_uncorr_cox (s : State) (p c w word : Nat) (hhandles : s.fab.handles = []) (hsuspect : s.fab.suspect = []) :
    (s.scrubWord p c w word 2).cox = (s.scrubUncorr p c).cox := by
  rw [scrubWord_uncorr s p c w word hhandles hsuspect, showStore_cox, State.fset_cox]

/-! ### A fault bit in a sleep entry (R472) -/

/-- A bit that becomes 1 before the commit point of a sleep entry aborts the entry (R472). -/
theorem faultBit_in_entry {s u : State} {f : Fld} (hoff : s.on f = false) (hu : (s.setFaultBit f).recFaultTrigger = u)
    (hentry : u.power = 3) (hfault : u.unmaskedFaults ≠ 0) (hbefore : u.pastCommit = false) :
    s.faultBit f = u.abortEntry 6 (u.rd GLB_FAULT).toNat := by
  simp [State.faultBit, State.faultInEntry, hoff, hu, hentry, hfault, hbefore]

/-- What the abort of a sleep entry does once WAK_SOURCE is written. -/
def State.entryLeft (s : State) (cause detail : Nat) : State :=
  let s1 := (s.set PWR_STATUS_STATE s.pwr.entryFrom).emit 0x0B00 0 (args s.pwr.entryFrom 3)
  let s2 := { s1 with pwr := { s1.pwr with waitAck := [], latched := false } }
  let s3 := s2.each extPorts fun t n => if t.link n = 6 then (t.portWake n).sendTc10 n 2 else t
  s3.domainsFollow.emit 0x0B02 0 (args cause detail)

theorem abortEntry_eq (s : State) {cause : Nat} (detail : Nat) (h : cause ≠ 1) :
    s.abortEntry cause detail = ((s.free 32).2.wr WAK_SOURCE (s.free 32).1).entryLeft cause detail := by
  simp [State.abortEntry, State.entryLeft, h]

/-- What holds whether the entry of a written word goes or stays holds of the write, whose value may be one that does not
evaluate (`Config.freeValue`). -/
theorem wr_cases {P : State → Prop} (s : State) (a : Nat) (v : Word) (hgone : P { s with regs := SMap.erase s.regs a })
    (hstays : P { s with regs := SMap.insert s.regs a v }) : P (s.wr a v) := by
  unfold State.wr SMap.put
  split
  · exact hgone
  · exact hstays

/-! ### A word that aborts a sleep entry (O17)

An uncorrectable word sets GLB_FAULT.ECC_UNCORR, and its event follows (R123, `State.eccUncorr`). During a sleep entry the bit aborts
the entry first (R472, `State.faultInEntry`): the state that it came from returns with the domains that it wants, and with PD2 the
time of the records goes (R461, `State.timeLost`). The clause of O17 on such a word says that the record carries the time from before.
A run comes there from Feather without PD2 by a request for Active, PD2 at power-good, and a request for Sleep. -/

/-- Sleep entry from Feather, which does not want PD2: PD1–PD4 are on, domain 0 shows 1 ns, and the frame store is ready. -/
def timeStillOn : State :=
  let s := ((State.reset.set PWR_STATUS_ON 0xF).set PWR_STATUS_STATE 3).set PWR_FEATHER_DOMAINS 0xD
  { s.set FST_STATUS_READY 1 with rst := {}, pwr := { entryFrom := 1 }, tim := { now := [(0, 2 ^ 28)] } }

/-- Word 0 of the store has counted as uncorrectable, and FST_ERR_LOC holds its chunk. -/
def wordLocated : State := ((timeStillOn.scrubRead 2).inc FST_ECC_UNCORR_COUNT).fstErrLoc 0 0 0

/-- GLB_FAULT.ECC_UNCORR is set. -/
def faultShown : State := (wordLocated.setFaultBit GLB_FAULT_ECC_UNCORR).recFaultTrigger

/-- The codes and times of the records that Cox has received once the entry is left in `s` and the word is reported. -/
def recordsOfLeaving (s : State) : List (Nat × Nat) :=
  ((s.entryLeft 6 (faultShown.rd GLB_FAULT).toNat).emit 0x0106 0 (args (wordLocated.rd FST_ERR_LOC).toNat)).cox.events.map
    fun e => (e.code, e.short0)

/-- Whatever WAK_SOURCE takes, POWER_STATE (0x0B00) is raised at 1 ns; SLEEP_ABORTED (0x0B02) and ECC_UNCORR (0x0106) follow with PD2
off, at time 0. -/
theorem recordsOfLeaving_faultShown :
    recordsOfLeaving ((faultShown.free 32).2.wr WAK_SOURCE (faultShown.free 32).1) = [(0x0B00, 1), (0x0B02, 0), (0x0106, 0)] :=
  wr_cases (P := fun u => recordsOfLeaving u = [(0x0B00, 1), (0x0B02, 0), (0x0106, 0)]) _ _ _ (by decide +kernel)
    (by decide +kernel)

theorem faultBit_wordLocated :
    wordLocated.faultBit GLB_FAULT_ECC_UNCORR = faultShown.abortEntry 6 (faultShown.rd GLB_FAULT).toNat :=
  faultBit_in_entry (by decide +kernel) rfl (by decide +kernel) (by decide +kernel) (by decide +kernel)

theorem scrubStep_timeStillOn_records : ∃ t, exec (.scrubStep 2) timeStillOn = .next t ∧
    t.cox.events.map (fun e => (e.code, e.short0)) = [(0x0B00, 1), (0x0B02, 0), (0x0106, 0)] := by
  refine ⟨_, exec_scrubStep_of_chunk timeStillOn 2 (by decide +kernel) (by decide +kernel) (by decide +kernel) (r := (0, 0, 0))
    (by decide +kernel) (e := 2) rfl, ?_⟩
  rw [if_neg (by decide), State.scrubbed, scrubWord_uncorr_cox _ _ _ _ _ rfl rfl]
  have hreport : (timeStillOn.scrubRead 2).scrubUncorr 0 0 =
      (wordLocated.faultBit GLB_FAULT_ECC_UNCORR).emit 0x0106 0 (args (wordLocated.rd FST_ERR_LOC).toNat) := rfl
  rw [hreport, faultBit_wordLocated, abortEntry_eq _ _ (by decide)]
  exact recordsOfLeaving_faultShown

/-- Refutes O17: the record of an uncorrectable word that aborts a sleep entry can carry another time than the step began at. -/
theorem not_storeAndDram : ¬ Obligations.StoreAndDram := by
  unfold Obligations.StoreAndDram
  rintro ⟨-, -, -, -, -, -, huncorr⟩
  obtain ⟨t, ht, -, -, -, -, -, -, -, hrecord⟩ := huncorr timeStillOn 2 (by decide +kernel) (by decide +kernel) (by decide +kernel)
    (by decide +kernel) rfl rfl rfl (by decide) (0, 0, 0) (by decide +kernel)
  obtain ⟨u, hu, hrecords⟩ := scrubStep_timeStillOn_records
  cases hu.symm.trans ht
  have hshort : timeStillOn.short 0 = 1 := by decide +kernel
  have hmem : (0x0106, timeStillOn.short 0) ∈ t.cox.events.map (fun e => (e.code, e.short0)) :=
    List.mem_map_of_mem (List.mem_of_mem_drop hrecord)
  rw [hrecords, hshort] at hmem
  exact absurd hmem (by decide)

end Sys2Proof.Machine
end

section
/-! PROOFS, family 04_switching_core: its two statements fail. The sample of a lane of 2^18 copies (O15), and a REC_FREEZE whose
records find the remote event queue full (O16). -/
namespace Sys2Proof.Machine

/-! ### A lane deeper than LNE_OBS_DEPTH (O15)

The depth of a sample has 18 bits (LNE_OBS_DEPTH, R227). The clause of O15 on OBS_SAMPLE gives it 32, and no premise bounds the
lanes; the 131,072 handles of the store (R102, R117) keep a run below 2^18 copies. -/

/-- Port 66 is observed, and 2^18 copies wait in its lane 3. -/
def deepLane : State :=
  (allUp.set (LNE_PORT_CFG_OBS_EN 66) 1).fset fun f => { f with lanes := [(8 * 66 + 3, List.replicate (2 ^ 18) rigCopy)] }

theorem deepLane_length : (deepLane.lane 66 3).length = 2 ^ 18 := List.length_replicate

/-- LNE_OBS_DEPTH shows no depth of 2^18 or more. -/
theorem obsDepth_lt (t : State) (n l : Nat) : t.get (LNE_OBS_DEPTH_BYTES n l) < 262144 := get_lt t (LNE_OBS_DEPTH_BYTES n l)

theorem deepLane_observed : deepLane.on (LNE_PORT_CFG_OBS_EN 66) = true := by decide +kernel

/-- Refutes O15: LNE_OBS_DEPTH has 18 bits, and the sample of a lane of 2^18 copies does not show them. -/
theorem not_observationAndDatabase : ¬ Obligations.ObservationAndDatabase := by
  unfold Obligations.ObservationAndDatabase
  rintro ⟨hsample, -⟩
  obtain ⟨t, -, hshown, -⟩ := hsample deepLane (by decide +kernel)
  have hport := List.all_eq_true.mp hshown 66 (by decide)
  have hlane := List.all_eq_true.mp hport 3 (by decide)
  rw [deepLane_observed, deepLane_length] at hlane
  obtain ⟨hdepth, -⟩ := Bool.and_eq_true_iff.mp hlane
  have hlt := obsDepth_lt t 66 3
  rw [eq_of_beq hdepth] at hlt
  exact absurd hlt (by decide)

/-! ### A frozen recorder with the remote event queue full (O16)

REC_FREEZE with MODE 1 raises REC_FROZEN (R159), and CMD_DONE follows at its end (R384). Where the first record finds the remote event
queue full, REVQ_OVERFLOW comes between the two (R356, `State.emit`), so that three records reach the event ring. The clause of O16 on
REC_FREEZE allows two. -/

/-- The recorder records; the event ring runs at host address 64, and the remote event queue is full with no record lost yet. -/
def recordsQueueFull : State := parityHit.set REC_STATUS_STATE 1

/-- REC_FREEZE (opcode 0x12) with EVT = 1 and MODE 1. -/
def freezeNow : Desc := 0x100000000000000000000000000000112

theorem recFreeze_premises :
    recordsQueueFull.takesCommand freezeNow [0, 1] false ∧ descBits freezeNow 16 8 = 1 ∧ descZero freezeNow 17 64 = true ∧
      recordsQueueFull.pdOn 8 = true ∧ recordsQueueFull.recState = 1 ∧ recordsQueueFull.dram.open_ = false := by
  decide +kernel

/-- The third slot of the event ring, at 128, takes CMD_DONE (0x0001). -/
theorem recFreeze_third_record :
    ∃ t, exec (.recFreeze .localRing freezeNow) recordsQueueFull = .next t ∧
      t.hostByte 128 ≠ recordsQueueFull.hostByte 128 :=
  ⟨_, rfl, by decide +kernel⟩

/-- Refutes O16: a REC_FREEZE can write three event records. -/
theorem not_recorderActs : ¬ Obligations.RecorderActs := by
  unfold Obligations.RecorderActs
  rintro ⟨-, -, -, hfreeze, -⟩
  obtain ⟨htakes, hmode, hzero, hon, hrecords, hclosed⟩ := recFreeze_premises
  obtain ⟨t, ht, -, -, -, -, hhost, -⟩ := hfreeze recordsQueueFull .localRing freezeNow htakes hmode hzero hon (.inl hrecords) hclosed
  obtain ⟨u, hu, hwritten⟩ := recFreeze_third_record
  cases hu.symm.trans ht
  exact hwritten (hhost 128 (by decide) (by decide +kernel))

end Sys2Proof.Machine
end

section
/-! PROOFS, family 05_umpire: its one statement fails. The load of a Rigger image raises RIG_STALE (O18). -/
namespace Sys2Proof.Machine

/-! ### A loaded image with a route (O18)

The routes of a loaded Rigger image are stale from PD5 power-up on, and RIG_STALE is raised with the first of them (R311, R326,
`State.routesLoaded`). A running event ring takes its record in host memory (R382). The clause of O18 on a load that ends well says
that every octet of host memory keeps its value, without the area of an event record. -/

/-- The image of the Rigger's classes with route 0 valid. -/
def routeImage : SMap Nat := bankPut [] 11 0 (2 ^ 87)

/-- The Rigger loads `routeImage` from the start of DRAM, and the event ring runs at host address 64 with 256 slots. -/
def routeImageLoads : State :=
  let r := (((allUp.set HIF_CTRL_ENABLE 1).set HIF_EVT_CFG_EN 1).set HIF_EVT_CFG_LOG2_SIZE 8).set HIF_EVT_BASE_ADDR 1
  { r.set REC_DRAM_STATUS_READY 1 with
      hif := { pci := { busMaster := true } }, pwr := { loading := [unitIdx .rig] }, dram := { images := [(unitIdx .rig, routeImage)] } }

theorem routeImageLoads_premises :
    routeImageLoads.up (unitIsland .rig) = true ∧ routeImageLoads.pwr.loading.contains (unitIdx .rig) = true ∧
      routeImageLoads.power ≠ 5 ∧ routeImageLoads.imageThere .rig = true ∧ routeImageLoads.dram.badWords = [] := by
  decide +kernel

/-- The first slot of the event ring, at 64 and empty before, takes a record that begins with the low octet of RIG_STALE (0x0702). -/
theorem imageLoadDone_writes_rigStale :
    ∃ t, exec (.imageLoadDone .rig true) routeImageLoads = .next t ∧ t.hostByte 64 = 0x02 ∧ routeImageLoads.hostByte 64 = 0 :=
  ⟨_, rfl, by decide +kernel⟩

/-- Refutes O18: the load of a Rigger image with a valid route raises RIG_STALE, whose record is written to host memory. -/
theorem not_pinholesAndImages : ¬ Obligations.PinholesAndImages := by
  unfold Obligations.PinholesAndImages
  rintro ⟨-, -, -, -, -, -, -, hload⟩
  obtain ⟨hup, hloading, hpower, himage, hsound⟩ := routeImageLoads_premises
  obtain ⟨t, ht, -, -, -, -, -, hhost⟩ := hload routeImageLoads .rig true hup hloading hpower rfl himage hsound
  obtain ⟨u, hu, hwritten, hempty⟩ := imageLoadDone_writes_rigStale
  cases hu.symm.trans ht
  exact absurd (hwritten.symm.trans ((hhost 64).trans hempty)) (by decide)

end Sys2Proof.Machine
end

section
/-! PROOFS, family 06_lanes_gates_policing: the statement on the rows of gates and of MAC merge. -/
namespace Sys2Proof.Machine

/-! ### Changes of listed registers -/

theorem RegsBut.refl (l : List Nat) (s : State) : RegsBut l s s := fun _ _ => rfl

theorem RegsBut.trans {l : List Nat} {s t u : State} (h : RegsBut l s t) (g : RegsBut l t u) : RegsBut l s u :=
  fun a ha => (g a ha).trans (h a ha)

/-- A field that lies in a word of the list may be set. -/
theorem RegsBut.set {l : List Nat} {s t : State} (h : RegsBut l s t) (f : Fld) (v : Nat) {a : Nat} (hf : f.words = [a])
    (ha : a ∈ l) : RegsBut l s (t.set f v) :=
  h.trans fun _ hb => rd_set_ne t f v fun hm => hb (List.mem_singleton.mp (hf ▸ hm) ▸ ha)

/-- A field that lies in one word reads the same where that word does. -/
theorem get_of_word {s t : State} {f : Fld} {a : Nat} (hf : f.words = [a]) (h : t.rd a = s.rd a) : t.get f = s.get f :=
  get_congr f fun b hb => by rw [hf, List.mem_singleton] at hb; rw [hb, h]

theorem SameButRegs.fab {s t : State} (h : SameButRegs s t) : t.fab = s.fab := (congrArg State.fab h :)

/-- A field that begins at or after the end of another in the same word shares no bit with it. -/
theorem apart_of_end_le {f g : Fld} (haddr : f.addr = g.addr) (hend : g.lo + g.w ≤ f.lo) (hlow : f.lo + f.w ≤ 32) : f.apart g :=
  .inr ⟨haddr, hlow, by omega, .inr hend⟩

/-! ### The gate state shown (R216) -/

section
variable (s : State) (n k gates : Nat) (hold listEn : Bool)

theorem showGate_index : (s.showGate n k gates hold listEn).get (GTE_STATUS_INDEX n) = k % 2 ^ (GTE_STATUS_INDEX n).w := by
  have hen : (GTE_STATUS_INDEX n).apart (GTE_STATUS_LIST_EN n) := apart_of_end_le rfl (by decide : 10 ≤ 16) (by decide : 26 ≤ 32)
  have hheld : (GTE_STATUS_INDEX n).apart (GTE_STATUS_MAC_HELD n) := apart_of_end_le rfl (by decide : 9 ≤ 16) (by decide : 26 ≤ 32)
  have hgates : (GTE_STATUS_INDEX n).apart (GTE_STATUS_GATES n) := apart_of_end_le rfl (by decide : 8 ≤ 16) (by decide : 26 ≤ 32)
  rw [State.showGate, put_eq_set, put_eq_set, get_set_apart _ _ _ _ hgates, get_set_apart _ _ _ _ hheld,
    get_set_apart _ _ _ _ hen, get_set_same _ (GTE_STATUS_INDEX n) _ (by decide : 26 ≤ 64)]

theorem showGate_gates : (s.showGate n k gates hold listEn).get (GTE_STATUS_GATES n) = gates % 256 :=
  get_set_same _ (GTE_STATUS_GATES n) gates (by decide : 8 ≤ 64)

theorem showGate_rest : SameButRegs s (s.showGate n k gates hold listEn) :=
  ((((SameButRegs.refl s).set _ _).set _ _).set _ _).set _ _

theorem showGate_regsBut : RegsBut [GTE_STATUS n] s (s.showGate n k gates hold listEn) :=
  have hmem : GTE_STATUS n ∈ [GTE_STATUS n] := List.mem_cons_self
  ((((RegsBut.refl _ s).set (GTE_STATUS_INDEX n) _ rfl hmem).set (GTE_STATUS_LIST_EN n) _ rfl hmem).set
    (GTE_STATUS_MAC_HELD n) _ rfl hmem).set (GTE_STATUS_GATES n) _ rfl hmem

end

/-! ### What a gate or a hold does to the copy in transmission (R225, R226) -/

/-- `t` is `s` but for its registers and the lane service of the ports. -/
def SameButService (s t : State) : Prop :=
  { t with regs := s.regs, fab := { t.fab with service := s.fab.service } } = s

theorem SameButService.trans {s t u : State} (h : SameButService s t) (g : SameButService t u) : SameButService s u :=
  (congrArg (fun x : State => ({ x with regs := s.regs, fab := { x.fab with service := s.fab.service } } : State)) g :).trans h

theorem SameButRegs.service {s t : State} (h : SameButRegs s t) : SameButService s t :=
  (congrArg (fun x : State => ({ x with fab := { x.fab with service := s.fab.service } } : State)) h :)

theorem SameButService.lanes {s t : State} (h : SameButService s t) : t.fab.lanes = s.fab.lanes :=
  (congrArg (fun x : State => x.fab.lanes) h :)

theorem SameButService.hostKept {s t : State} (h : SameButService s t) : HostKept s t :=
  fun a => (congrArg (fun x : State => x.hostByte a) h :)

/-- The counters of port `n` that a copy in transmission may advance when its lane is shut. -/
def cutCounters (n : Nat) : List Nat := [GTE_LATE_END n, LNE_MM_FRAG_TX n]

/-- `t` is `s` but for the lane service and the two counters of port `n`. -/
structure CutsOnly (n : Nat) (s t : State) : Prop where
  rest : SameButService s t
  regs : RegsBut (cutCounters n) s t

namespace CutsOnly
variable {n : Nat} {s t u : State}

theorem refl (n : Nat) (s : State) : CutsOnly n s s := ⟨rfl, RegsBut.refl _ s⟩

theorem trans (h : CutsOnly n s t) (g : CutsOnly n t u) : CutsOnly n s u := ⟨h.rest.trans g.rest, h.regs.trans g.regs⟩

theorem svcSet (n : Nat) (s : State) (g : PortLanes → PortLanes) : CutsOnly n s (s.svcSet n g) := ⟨rfl, fun _ _ => rfl⟩

theorem inc (s : State) (f : Fld) {a : Nat} (hf : f.words = [a]) (ha : a ∈ cutCounters n) : CutsOnly n s (s.inc f) :=
  ⟨((SameButRegs.refl s).set _ _).service, (RegsBut.refl _ s).set _ _ hf ha⟩

theorem lateEnd (n : Nat) (s : State) : CutsOnly n s (s.inc (GTE_LATE_END_COUNT n)) :=
  inc s (GTE_LATE_END_COUNT n) rfl List.mem_cons_self

theorem fragTx (n : Nat) (s : State) : CutsOnly n s (s.inc (LNE_MM_FRAG_TX_COUNT n)) :=
  inc s (LNE_MM_FRAG_TX_COUNT n) rfl (List.mem_cons_of_mem _ List.mem_cons_self)

end CutsOnly

theorem preemptNow_cutsOnly (s : State) (n : Nat) : CutsOnly n s (s.preemptNow n) := by
  unfold State.preemptNow
  split
  · exact CutsOnly.refl n s
  · split
    · exact CutsOnly.refl n s
    · exact (CutsOnly.svcSet n s _).trans (CutsOnly.fragTx n _)

theorem gateMoved_cutsOnly (s : State) (n : Nat) (swap : Bool) : CutsOnly n s (s.gateMoved n swap) := by
  unfold State.gateMoved
  split
  case h_1 => exact CutsOnly.refl n s
  case h_2 x _ =>
    have hlate := CutsOnly.svcSet n s fun v => { v with sending := some { x with late := s.shutFor n x } }
    dsimp only
    split
    · exact CutsOnly.refl n s
    · split
      · split
        · exact hlate.trans (CutsOnly.lateEnd n _)
        · exact hlate
      · split
        · exact hlate
        · exact hlate.trans (preemptNow_cutsOnly _ n)

theorem cutSending_cutsOnly (s : State) (n : Nat) : CutsOnly n s (s.cutSending n) := gateMoved_cutsOnly s n false

/-- Where no copy is in transmission, nothing is cut. -/
theorem cutSending_of_idle (s : State) {n : Nat} (h : (s.svc n).sending = none) : s.cutSending n = s := by
  simp [State.cutSending, State.gateMoved, h]

/-! ### GATE_BOUNDARY (R216) -/

/-- A change of the gate units and then of registers only leaves the rest. -/
theorem SameButRegs.gates {s t : State} {m : SMap Gate} (h : SameButRegs (s.fset fun f => { f with gates := m }) t) :
    { t with regs := s.regs, fab := { t.fab with gates := s.fab.gates } } = s :=
  (congrArg (fun x : State => ({ x with fab := { x.fab with gates := s.fab.gates } } : State)) h :)

/-- The short time at which operation `k` of a list ends, where it begins at the boundary of `st` (R216). -/
def GateList.nextAfter (g : GateList) (st : Gate) (k : Nat) : Nat :=
  (st.next + ((gateSpans g.cycle g.ops 0)[k]?).elim g.cycle (·.2)) % 2 ^ 32

/-- The gates of operation `k` of a list. -/
def GateList.gatesAt (g : GateList) (k : Nat) : Nat := ((gateSpans g.cycle g.ops 0)[k]?).elim 0xFF fun o => o.1.gates

/-- The gate unit of port `n` is at operation `k`, and shows it. -/
def State.gateAtOp (s : State) (n : Nat) (g : GateList) (st : Gate) (k : Nat) : State :=
  (s.fset fun f => { f with gates := SMap.insert f.gates n ⟨k, g.nextAfter st k⟩ }).showGate n k (g.gatesAt k)
    (gateHold ((gateSpans g.cycle g.ops 0).map (·.1)) k) true

section
variable (s : State) (n : Nat) (g : GateList) (st : Gate) (k : Nat)

theorem gateAtOp_index : (s.gateAtOp n g st k).get (GTE_STATUS_INDEX n) = k % 2 ^ (GTE_STATUS_INDEX n).w := showGate_index ..

theorem gateAtOp_gates : (s.gateAtOp n g st k).get (GTE_STATUS_GATES n) = g.gatesAt k % 256 := showGate_gates ..

theorem gateAtOp_fab : (s.gateAtOp n g st k).fab = { s.fab with gates := SMap.insert s.fab.gates n ⟨k, g.nextAfter st k⟩ } := by
  rw [State.gateAtOp, (showGate_rest ..).fab, State.fset_fab]

theorem gateAtOp_unit : SMap.find (s.gateAtOp n g st k).fab.gates n = some ⟨k, g.nextAfter st k⟩ := by
  rw [gateAtOp_fab, SMap.find_insert_same]

theorem gateAtOp_regsBut : RegsBut [GTE_STATUS n] s (s.gateAtOp n g st k) := showGate_regsBut _ n k _ _ _

theorem gateAtOp_rest : { s.gateAtOp n g st k with
    regs := s.regs, fab := { (s.gateAtOp n g st k).fab with gates := s.fab.gates } } = s :=
  (showGate_rest ..).gates

/-- Before the last operation, on a port without a copy in transmission, a boundary leads to the next operation. -/
theorem gateStep_of_idle (hidle : (s.svc n).sending = none) (hmore : st.index + 1 < (gateSpans g.cycle g.ops 0).length) :
    s.gateStep n g st = s.gateAtOp n g st (st.index + 1) := by
  have hstill : ((s.gateAtOp n g st (st.index + 1)).svc n).sending = none := by
    rw [State.svc, gateAtOp_fab]
    exact hidle
  have hstep : s.gateStep n g st = (s.gateAtOp n g st (st.index + 1)).cutSending n := by
    simp only [State.gateStep, if_pos hmore]
    rfl
  rw [hstep, cutSending_of_idle _ hstill]

end

section
variable {s : State} {n : Fin 70} {g : GateList} {st : Gate}

theorem exec_gateBoundary_of_due (hlist : s.gateList n.val = some g) (hgate : SMap.find s.fab.gates n.val = some st)
    (hup : s.up .fabric = true) (hdue : shortDiff (s.short g.domain) st.next ≥ 0) :
    exec (.gateBoundary n) s = .next (s.gateStep n.val g st).timeSeen := by
  change execGateBoundary n s = _
  simp [execGateBoundary, hlist, hgate, hup, hdue]

/-- That a boundary which is not due changes nothing is the model's own choice (log 5). -/
theorem exec_gateBoundary_of_early (hlist : s.gateList n.val = some g) (hgate : SMap.find s.fab.gates n.val = some st)
    (hearly : shortDiff (s.short g.domain) st.next < 0) : exec (.gateBoundary n) s = .next s := by
  change execGateBoundary n s = _
  simp [execGateBoundary, hlist, hgate, hearly]

end

section
variable (s : State)

@[simp] theorem State.timeSeen_get (f : Fld) : s.timeSeen.get f = s.get f := rfl
@[simp] theorem State.timeSeen_fab : s.timeSeen.fab = s.fab := rfl

theorem timeSeen_regsBut {l : List Nat} {t : State} (h : RegsBut l s t) : RegsBut l s t.timeSeen := h

/-- Once a gate boundary has seen the time, the place in the tick is all that differs beside registers and gate units (R270). -/
theorem timeSeen_rest {t : State} (h : { t with regs := s.regs, fab := { t.fab with gates := s.fab.gates } } = s) :
    { t.timeSeen with regs := s.regs, tim := { t.timeSeen.tim with place := s.tim.place },
                      fab := { t.timeSeen.fab with gates := s.fab.gates } } = s :=
  (congrArg (fun x : State => ({ x with tim := { x.tim with place := s.tim.place } } : State)) h :)

end

/-! ### GTE_HOLD_WRITE (R219, R226) -/

theorem exec_gteHoldWrite (s : State) (who : Initiator) (n : Fin 70) (v : Word) :
    exec (.gteHoldWrite who n v) s = .next (s.write who (GTE_HOLD n.val) v) := rfl

/-- The register GTE_HOLD as the map defines it. -/
def gteHoldDef : RegDef := ⟨.GTE_HOLD, 0xB00000, [(0x4, 70)], 1, .fabric, false, false, 0x0, [⟨7, 0, .rw, []⟩]⟩

theorem regAt_gteHold (n : Fin 70) : regAt (GTE_HOLD n.val) = some (gteHoldDef, [n.val], 0) := by
  revert n
  decide +kernel

theorem gteHold_lt (n : Fin 70) : GTE_HOLD n.val < 2 ^ 26 := by rw [GTE_HOLD]; omega

theorem gteHold_aligned (n : Nat) : GTE_HOLD n / 4 * 4 = GTE_HOLD n := by rw [GTE_HOLD]; omega

/-- Only the hold lies in GTE_HOLD: its 8 bits take those written. -/
theorem storedValue_gteHold (old v : Nat) : storedValue gteHoldDef 0 old v % 2 ^ 8 = v % 2 ^ 8 := by
  have hrw : accMask gteHoldDef 0 [.rw, .rwl] = 2 ^ 8 - 1 := by decide
  have hkept : (whole - (2 ^ 8 - 1)) % 2 ^ 8 = 0 := by decide
  rw [storedValue, hrw, Nat.or_mod_two_pow, Nat.and_two_pow_sub_one_eq_mod, Nat.mod_mod, Nat.and_mod_two_pow,
    Nat.and_mod_two_pow (a := old), hkept, Nat.and_zero, Nat.zero_and, Nat.or_zero]

/-- A write of GTE_HOLD has one effect: the copy in transmission meets the hold. -/
theorem regHook_gteHold (s : State) (n w old v : Nat) (k : Nat) :
    s.regHook .GTE_HOLD n w old v ⟨k, v, []⟩ = s.cutSending n := rfl

/-- What FAULT_N does after a change of state touches the pins only (R56). -/
theorem holdFaultN_rest (s t : State) : { s.holdFaultN t with pins := t.pins } = t := by
  unfold State.holdFaultN
  split <;> rfl

theorem holdFaultN_rd (s t : State) (a : Nat) : (s.holdFaultN t).rd a = t.rd a :=
  (congrArg (fun x : State => x.rd a) (holdFaultN_rest s t) :)

theorem holdFaultN_fab (s t : State) : (s.holdFaultN t).fab = t.fab := (congrArg State.fab (holdFaultN_rest s t) :)

theorem holdFaultN_hostByte (s t : State) (a : Nat) : (s.holdFaultN t).hostByte a = t.hostByte a :=
  (congrArg (fun x : State => x.hostByte a) (holdFaultN_rest s t) :)

/-- GTE_HOLD of port `n` has taken the hold. -/
def State.holdStored (s : State) (n : Nat) (v : Word) : State :=
  s.wr (GTE_HOLD n) (BitVec.ofNat 32 (storedValue gteHoldDef 0 (s.rd (GTE_HOLD n)).toNat v.toNat))

/-- A write of GTE_HOLD that meets no fault stores the hold, which then meets the copy in transmission. -/
theorem write_gteHold (s : State) {who : Initiator} {n : Fin 70} {v : Word} (h : s.takesWrite who (GTE_HOLD n.val) v) :
    s.write who (GTE_HOLD n.val) v = s.holdFaultN ((s.holdStored n.val v).cutSending n.val) :=
  (write_takes s v (regAt_gteHold n) (gteHold_lt n) (gteHold_aligned n.val) h).trans
    (congrArg s.holdFaultN (regHook_gteHold _ n.val 0 _ v.toNat _))

/-- The stored hold is the one written. -/
theorem rd_holdStored (s : State) (n : Nat) (v : Word) : ((s.holdStored n v).rd (GTE_HOLD n)).toNat % 256 = v.toNat % 256 := by
  rw [State.holdStored, rd_wr_same, BitVec.toNat_ofNat, Nat.mod_mod_of_dvd _ (by decide)]
  exact storedValue_gteHold _ _

theorem holdStored_regsBut (s : State) (n : Nat) (v : Word) : RegsBut [GTE_HOLD n] s (s.holdStored n v) :=
  fun _ ha => rd_wr_ne s _ fun e => ha (List.mem_singleton.mpr e)

theorem gteHold_not_cutCounter {n : Nat} (hn : n < 70) : GTE_HOLD n ∉ cutCounters n := by
  simp only [cutCounters, GTE_HOLD, GTE_LATE_END, LNE_MM_FRAG_TX, List.mem_cons, List.not_mem_nil, or_false, not_or]
  omega

/-- The hold stands in GTE_HOLD, and beside it a write of GTE_HOLD changes the lane service and the counters of the copy in
transmission. -/
theorem write_gteHold_effect (s : State) {who : Initiator} {n : Fin 70} {v : Word} (h : s.takesWrite who (GTE_HOLD n.val) v) :
    ((s.write who (GTE_HOLD n.val) v).rd (GTE_HOLD n.val)).toNat % 256 = v.toNat % 256 ∧
      RegsBut [GTE_HOLD n.val, GTE_LATE_END n.val, LNE_MM_FRAG_TX n.val] s (s.write who (GTE_HOLD n.val) v) ∧
        (s.write who (GTE_HOLD n.val) v).fab.lanes = s.fab.lanes ∧ HostKept s (s.write who (GTE_HOLD n.val) v) := by
  have hcut := cutSending_cutsOnly (s.holdStored n.val v) n.val
  rw [write_gteHold s h, holdFaultN_rd, holdFaultN_fab]
  refine ⟨?_, fun a ha => ?_, hcut.rest.lanes, fun a => ?_⟩
  · rw [hcut.regs _ (gteHold_not_cutCounter n.isLt), rd_holdStored]
  · obtain ⟨hhold, hcounter⟩ := not_or.mp (List.mem_cons.not.mp ha)
    rw [holdFaultN_rd, hcut.regs a hcounter]
    exact holdStored_regsBut s n.val v a (List.mem_singleton.not.mpr hhold)
  · rw [holdFaultN_hostByte]
    exact hcut.rest.hostKept a

/-! ### An event after a change of registers -/

section
variable {s t u : State}

theorem Emits.after_regs {code source body : Nat} (h : SameButRegs s t) (e : Emits code source body t u) :
    Emits code source body s u := by
  have hcox : t.cox = s.cox := (congrArg State.cox h :)
  have hshort : t.short 0 = s.short 0 := (congrArg (fun x : State => x.short 0) h :)
  unfold Emits at e ⊢
  rwa [hcox, hshort] at e

theorem RegsBut.then_records {l : List Nat} {n : Nat} (h : RegsBut l s t) (g : Records n t u) : RegsButE l s u :=
  fun a ha he => (g.regs a List.not_mem_nil he).trans (h a ha)

/-- Where event records go depends on no register above the Host block. -/
theorem SameButRegs.eventArea (h : SameButRegs s t) (hlow : ∀ a < 0x400000, t.rd a = s.rd a) {n a : Nat}
    (ha : s.eventArea n a = false) : t.eventArea n a = false := by
  have hhif : t.hif = s.hif := (congrArg State.hif h :)
  have hget : ∀ f : Fld, (∀ b ∈ f.words, b < 0x400000) → t.get f = s.get f := fun f hf => get_congr f fun b hb => hlow b (hf b hb)
  obtain ⟨hslot, hprod, hvec⟩ := eventArea_eq_false.mp ha
  refine eventArea_eq_false.mpr ⟨fun k hk => ?_, ?_, fun g hg => ?_⟩
  · have hsame : t.eventSlot k = s.eventSlot k := by
      rw [State.eventSlot, State.eventSlot, hhif, hget HIF_EVT_BASE_ADDR (by decide), hget HIF_EVT_CFG_LOG2_SIZE (by decide)]
    rw [hsame]
    exact hslot k hk
  · rw [State.eventProdAddr, hget HIF_ST_BASE_ADDR (by decide)]
    exact hprod
  · have hwords : ∀ g < 16, ∀ b ∈ (HIF_EVT_VEC_VEC g).words, b < 0x400000 := by decide
    have hsame : ∀ v, t.vectorAddr v = s.vectorAddr v := fun v => by simp only [State.vectorAddr, State.msixWord, hhif]
    rw [hget _ (hwords g hg), hsame]
    exact hvec g hg

theorem SameButRegs.then_records {n : Nat} (h : SameButRegs s t) (hlow : ∀ a < 0x400000, t.rd a = s.rd a) (g : Records n t u) :
    HostKeptE n s u :=
  fun a ha => (g.host a (h.eventArea hlow ha)).trans (congrArg (fun x : State => x.hostByte a) h :)

end

/-! ### MAC merge (R222) -/

section
variable (s : State) (n : Nat) (active : Bool) (verify : Nat)

theorem showLanes_rest : SameButRegs s (s.showLanes n) := (((SameButRegs.refl s).set _ _).set _ _).set _ _

theorem showLanes_regsBut : RegsBut [LNE_LANE_STATUS n] s (s.showLanes n) :=
  have hmem : LNE_LANE_STATUS n ∈ [LNE_LANE_STATUS n] := List.mem_cons_self
  (((RegsBut.refl _ s).set (LNE_LANE_STATUS_PREEMPT n) _ rfl hmem).set (LNE_LANE_STATUS_STRICT n) _ rfl hmem).set
    (LNE_LANE_STATUS_RESERVED n) _ rfl hmem

theorem setMm_rest : SameButRegs s (s.setMm n active verify) :=
  (((SameButRegs.refl s).set _ _).set _ _).trans (showLanes_rest _ n)

theorem setMm_regsBut : RegsBut [LNE_MM_STATUS n, LNE_LANE_STATUS n] s (s.setMm n active verify) :=
  (((RegsBut.refl _ s).set (LNE_MM_STATUS_ACTIVE n) _ rfl List.mem_cons_self).set
    (LNE_MM_STATUS_VERIFY n) _ rfl List.mem_cons_self).trans
      fun a ha => showLanes_regsBut _ n a fun hm => ha (List.mem_cons_of_mem _ hm)

/-- The lane service is shown in a word of its own. -/
theorem rd_showLanes_mmStatus : (s.showLanes n).rd (LNE_MM_STATUS n) = s.rd (LNE_MM_STATUS n) :=
  showLanes_regsBut s n _ (by simp [LNE_MM_STATUS, LNE_LANE_STATUS])

theorem get_showLanes_of_mmStatus {f : Fld} (hf : f.words = [LNE_MM_STATUS n]) : (s.showLanes n).get f = s.get f :=
  get_of_word hf (rd_showLanes_mmStatus s n)

theorem setMm_active : (s.setMm n active verify).on (LNE_MM_STATUS_ACTIVE n) = active := by
  have hapart : (LNE_MM_STATUS_ACTIVE n).apart (LNE_MM_STATUS_VERIFY n) :=
    apart_of_end_le rfl (by decide : 3 ≤ 4) (by decide : 5 ≤ 32)
  rw [State.on, State.setMm, get_showLanes_of_mmStatus _ n rfl, get_set_apart _ _ _ _ hapart, put_eq_set,
    get_set_same _ (LNE_MM_STATUS_ACTIVE n) _ (by decide : 5 ≤ 64)]
  cases active <;> rfl

theorem setMm_verify (hv : verify < 8) : (s.setMm n active verify).get (LNE_MM_STATUS_VERIFY n) = verify := by
  rw [State.setMm, get_showLanes_of_mmStatus _ n rfl, get_set_same _ (LNE_MM_STATUS_VERIFY n) _ (by decide : 3 ≤ 64)]
  exact Nat.mod_eq_of_lt hv

end

section
variable {s : State} {n : Fin 32}

theorem exec_mmRespond_of_verifying (hup : s.up .fabric = true) (hverify : s.get (LNE_MM_STATUS_VERIFY n.val) = 2) :
    exec (.mmRespond n) s = .next (s.setMm n.val true 3) := by
  change execMmRespond n s = _
  simp [execMmRespond, hup, hverify]

/-- Another verify mPacket goes out. -/
def State.verifyAgain (s : State) (n : Nat) : State :=
  s.fset fun f => { f with verify := SMap.put f.verify 0 n (SMap.get s.fab.verify 0 n + 1) }

theorem verifyAgain_count (s : State) (n : Nat) :
    SMap.get (s.verifyAgain n).fab.verify 0 n = SMap.get s.fab.verify 0 n + 1 := by
  simp [State.verifyAgain]

theorem verifyAgain_rest (s : State) (n : Nat) :
    { s.verifyAgain n with fab := { (s.verifyAgain n).fab with verify := s.fab.verify } } = s := rfl

/-- The verification ends as failed, and MM_VERIFY_FAIL is raised (R222). -/
def State.verifyFailed (s : State) (n : Nat) : State :=
  (s.setMm n false 4).emit 0x0207 n (args ((s.setMm n false 4).rd (LNE_MM_STATUS n)).toNat)

theorem exec_mmVerifyTimer_of_verifying (hup : s.up .fabric = true) (hverify : s.get (LNE_MM_STATUS_VERIFY n.val) = 2) :
    exec (.mmVerifyTimer n) s =
      .next (if SMap.get s.fab.verify 0 n.val < 3 then s.verifyAgain n.val else s.verifyFailed n.val) := by
  have hwait : ¬(!s.up .fabric || s.get (LNE_MM_STATUS_VERIFY n.val) ≠ 2) = true := by simp [hup, hverify]
  change execMmVerifyTimer n s = _
  simp only [execMmVerifyTimer, State.verifyAgain, State.verifyFailed]
  rw [if_neg hwait]
  split <;> rfl

end

/-- No event record changes LNE_MM_STATUS. -/
theorem eventReg_mmStatus (n : Fin 32) : eventReg (LNE_MM_STATUS n.val) = false := by
  revert n
  decide

section
variable (s : State) (n : Fin 32)

theorem setMm_low (active : Bool) (verify : Nat) {a : Nat} (ha : a < 0x400000) : (s.setMm n.val active verify).rd a = s.rd a :=
  setMm_regsBut s n.val active verify a (by simp [LNE_MM_STATUS, LNE_LANE_STATUS]; omega)

/-- The verification has failed: VERIFY and ACTIVE show it, MM_VERIFY_FAIL is raised with LNE_MM_STATUS as its ARG, and nothing but
MAC merge and what the record changes is touched. -/
theorem verifyFailed_effect :
    (s.verifyFailed n.val).get (LNE_MM_STATUS_VERIFY n.val) = 4 ∧ (s.verifyFailed n.val).on (LNE_MM_STATUS_ACTIVE n.val) = false ∧
      Emits 0x0207 n.val (args ((s.verifyFailed n.val).rd (LNE_MM_STATUS n.val)).toNat) s (s.verifyFailed n.val) ∧
        RegsButE [LNE_MM_STATUS n.val, LNE_LANE_STATUS n.val] s (s.verifyFailed n.val) ∧ HostKeptE 2 s (s.verifyFailed n.val) := by
  have hrest := setMm_rest s n.val false 4
  have hrec : Records 2 (s.setMm n.val false 4) (s.verifyFailed n.val) := emit_records ..
  have hemit : Emits 0x0207 n.val _ (s.setMm n.val false 4) (s.verifyFailed n.val) := emit_emits ..
  have hrd := hrec.regs (LNE_MM_STATUS n.val) List.not_mem_nil (eventReg_mmStatus n)
  rw [State.on, get_of_word (f := LNE_MM_STATUS_VERIFY n.val) rfl hrd, get_of_word (f := LNE_MM_STATUS_ACTIVE n.val) rfl hrd, hrd]
  exact ⟨setMm_verify s n.val false 4 (by decide), setMm_active s n.val false 4, hemit.after_regs hrest,
    (setMm_regsBut s n.val false 4).then_records hrec, hrest.then_records (fun _ => setMm_low s n false 4) hrec⟩

end

/-- Settles O14: an idle port's due boundary is `State.gateAtOp` of the next operation, a hold write is its stored word with
`State.cutSending` after it, and a verification goes on, fails with its record, or ends in `State.setMm`. -/
theorem gatesAndMerge : Obligations.GatesAndMerge := by
  unfold Obligations.GatesAndMerge
  refine ⟨?_, ?_, ?_, ?_, ?_⟩
  · intro s n g hlist st hgate hup hdue hidle hmore
    refine ⟨_, exec_gateBoundary_of_due hlist hgate hup hdue, ?_⟩
    rw [gateStep_of_idle s n.val g st hidle hmore]
    refine ⟨?_, ?_, ?_, timeSeen_regsBut s (gateAtOp_regsBut s n.val g st _), timeSeen_rest s (gateAtOp_rest s n.val g st _)⟩
    · rw [State.timeSeen_get, gateAtOp_index]
    · rw [State.timeSeen_get, gateAtOp_gates, GateList.gatesAt]
    · rw [State.timeSeen_fab, gateAtOp_unit, GateList.nextAfter]
  · intro s n g hlist st hgate hearly
    exact ⟨s, exec_gateBoundary_of_early hlist hgate hearly, rfl⟩
  · intro s who n value htakes
    exact ⟨_, exec_gteHoldWrite s who n value, write_gteHold_effect s htakes⟩
  · intro s n hup hverify
    refine ⟨_, exec_mmVerifyTimer_of_verifying hup hverify, ?_⟩
    split
    · exact ⟨verifyAgain_count s n.val, verifyAgain_rest s n.val⟩
    · exact verifyFailed_effect s n
  · intro s n hup hverify
    exact ⟨_, exec_mmRespond_of_verifying hup hverify, setMm_active s n.val true 3, setMm_verify s n.val true 3 (by decide),
      setMm_regsBut s n.val true 3, setMm_rest s n.val true 3⟩

end Sys2Proof.Machine
end

section
/-! PROOFS, family 08_network_time: who steers a domain and when. Its statements on domains (O19), servos (O20) and owners (O47), and
on the completion of the rows (O55), fail on one row each. -/
namespace Sys2Proof.Machine

/-! ### A domain that leaves and ends the adrift state (O19)

A domain with JUMP_REFUSED = 1 holds its device adrift (R341, `State.timeHeld`). TIM_DOM_CFG.EN = 0 clears JUMP_REFUSED (R257), the
device is no longer adrift, and FABRIC_STATE is raised (`State.showFabric`); a running event ring takes its record in host memory
(R382). The clause of O19 on DOMAIN_DISABLE says that every octet of host memory keeps its value. -/

/-- HFP runs with the device itself as anchor, domain 1 is enabled with a refused step, so that the device is adrift; the event ring
runs at host address 64 with 256 slots. -/
def adriftByTime : State :=
  let r := (((allUp.set HIF_CTRL_ENABLE 1).set HIF_EVT_CFG_EN 1).set HIF_EVT_CFG_LOG2_SIZE 8).set HIF_EVT_BASE_ADDR 1
  let u := ((r.set HFP_CFG_EN 1).set (TIM_DOM_CFG_EN 1) 1).set (TIM_DOM_STATUS_JUMP_REFUSED 1) 1
  { u with hif := { pci := { busMaster := true } } }.showFabric

/-- What TIM_DOM_CFG of domain 1 holds after reset. -/
def domCfgReset : Word := 0x640100

theorem adriftByTime_premises :
    adriftByTime.takesWrite .cox (TIM_DOM_CFG 1) (noBit domCfgReset 0) ∧ adriftByTime.domEn 1 = true ∧
      adriftByTime.adrift = true := by
  decide +kernel

/-- The second slot of the event ring, at 96 and empty before, takes a record that begins with the low octet of FABRIC_STATE
(0x0803); the first holds the one that the device became adrift with. -/
theorem domainDisable_writes_fabricState :
    ∃ t, exec (.domainDisable .cox 1 domCfgReset) adriftByTime = .next t ∧ t.hostByte 96 = 0x03 ∧ adriftByTime.hostByte 96 = 0 :=
  ⟨_, rfl, by decide +kernel⟩

/-- Refutes O19: disabling the domain that holds the device adrift raises FABRIC_STATE, whose record is written to host memory. -/
theorem not_domainsAndTime : ¬ Obligations.DomainsAndTime := by
  unfold Obligations.DomainsAndTime
  rintro ⟨-, hdisable, -⟩
  obtain ⟨htakes, hen, -⟩ := adriftByTime_premises
  obtain ⟨t, ht, -, -, -, -, -, -, hhost⟩ := hdisable adriftByTime .cox 1 domCfgReset htakes hen
  obtain ⟨u, hu, hwritten, hempty⟩ := domainDisable_writes_fabricState
  cases hu.symm.trans ht
  exact absurd (hwritten.symm.trans ((hhost 96).trans hempty)) (by decide)

/-! ### A refused REANCHOR with the remote event queue full (O20)

A REANCHOR on a domain that is not in SW raises STATE_REFUSED (R287, R379), and CMD_DONE follows at its end (R384). Where the first
record finds the remote event queue full, REVQ_OVERFLOW comes between the two (R356, `State.emit`), so that three records reach the
event ring. The clause of O20 on a refused REANCHOR allows two. -/

/-- REANCHOR (opcode 0x20) of domain 0 by its own offset of 0, with EVT = 1. -/
def reanchorByNothing : Desc := 0x120

theorem reanchor_parityHit_premises :
    parityHit.takesCommand reanchorByNothing [0, 1] true ∧ parityHit.reanchorOk reanchorByNothing = true ∧
      parityHit.pdOn 2 = true ∧ parityHit.domEn (descBits reanchorByNothing 16 2) = true ∧
        parityHit.domState (descBits reanchorByNothing 16 2) ≠ 2 := by
  decide +kernel

/-- The third slot of the event ring, at 128, takes CMD_DONE (0x0001). -/
theorem reanchor_parityHit_third_record :
    ∃ t, exec (.reanchor .localRing reanchorByNothing) parityHit = .next t ∧ t.hostByte 128 ≠ parityHit.hostByte 128 :=
  ⟨_, rfl, by decide +kernel⟩

/-- Refutes O20: a REANCHOR that is refused can write three event records. -/
theorem not_servosAndReanchor : ¬ Obligations.ServosAndReanchor := by
  unfold Obligations.ServosAndReanchor
  rintro ⟨-, -, -, -, -, hrefused⟩
  obtain ⟨htakes, hok, hon, hen, hstate⟩ := reanchor_parityHit_premises
  obtain ⟨t, ht, -, -, -, hhost, -⟩ := hrefused parityHit .localRing reanchorByNothing htakes hok hon hen hstate
  obtain ⟨u, hu, hwritten⟩ := reanchor_parityHit_third_record
  cases hu.symm.trans ht
  exact hwritten (hhost 128 (by decide) (by decide +kernel))

/-! ### A write of TIM_SERVO_CTRL that is no use and still looks at the gates (O47)

A write of TIM_SERVO_CTRL whose two bits a fault keeps changes no domain, but copies in transmission are held against their gates
after it as after every write of this register (R225, `State.timeSettled`). They differ where the gates have followed the loss of the
Time island, which holds no copy against them (R271, `State.timeLost`): the copy counts in GTE_LATE_END at the next occasion. -/

/-- Port 9 sends a copy of lane 3, which began with its gate open and has not been held against its gates since they closed. -/
def gatesClosedUnseen : State :=
  (allUp.set (GTE_STATUS_GATES 9) 0).fset fun f =>
    { f with service := [(9, { sending := some { copy := rigCopy, preempt := false } })] }

theorem gatesClosedUnseen_premises :
    gatesClosedUnseen.hostTurned .jtag = false ∧ gatesClosedUnseen.busFree ∧ gatesClosedUnseen.up .time = true ∧
      gatesClosedUnseen.get (TIM_DOM_CFG_OWNER 0) = 0 := by
  decide +kernel

theorem handover_gatesClosedUnseen_counts :
    ∃ t, exec (.handover .jtag 0) gatesClosedUnseen = .next t ∧ t.rd (GTE_LATE_END 9) ≠ gatesClosedUnseen.rd (GTE_LATE_END 9) :=
  ⟨_, rfl, by decide +kernel⟩

/-- Refutes O47: HANDOVER by an initiator that does not own the domain can count a copy in GTE_LATE_END. -/
theorem not_onlyTheOwnerSteers : ¬ Obligations.OnlyTheOwnerSteers := by
  unfold Obligations.OnlyTheOwnerSteers
  rintro ⟨-, -, -, -, hhandover, -⟩
  obtain ⟨hturned, hfree, hup, howner⟩ := gatesClosedUnseen_premises
  obtain ⟨t, ht, -, -, hregs⟩ := hhandover gatesClosedUnseen .jtag 0 hturned hfree hup ⟨by simp [howner], by simp⟩
  obtain ⟨u, hu, hcounted⟩ := handover_gatesClosedUnseen_counts
  cases hu.symm.trans ht
  exact hcounted (hregs (GTE_LATE_END 9) (by decide))

/-! ### A step back in a tick that goes back (O55)

A write of TIM_STEP may not lead below 0 from the time at the write (R263, `State.timeFaults`); the step acts on the time of the next
tick, and a time stays at 0 below (`State.stepBy`). The clause of O55 on TIME_STEP adds the offset to the time of the tick as an
integer, and its premises leave the increment open. An increment in the range of R259 outweighs every slew, so that a run never meets
a tick that goes back. -/

/-- Domain 1 stands at 1 ns with an increment of 0 and a slew back of 1 ns; the lower word of TIM_STEP holds that of −1 ns. -/
def ticksBack : State :=
  let s := ((allUp.set (TIM_DOM_CFG_EN 1) 1).wr (TIM_INCR 1) 0).wr (TIM_STEP 1) 0xFFFFFFFF
  { s with tim := { now := [(1, 2 ^ 28)], slew := [(1, -slewUnit)] } }

theorem ticksBack_premises :
    ticksBack.takesWrite .cox (TIM_STEP 1 + 4) 0xFFFFFFFF ∧ ticksBack.commitState ≠ 2 ∧ ticksBack.domEn 1 = true ∧
      ticksBack.domState 1 ≠ 2 := by
  decide +kernel

/-- The tick takes the time below 1 ns, so that the step of −1 ns leads below 0. -/
theorem ticksBack_step_below_zero :
    (ticksBack.tick.domTime 1 : Int)
      + sext 64 ((0xFFFFFFFF : Word).toNat * 2 ^ 32 + (ticksBack.rd (TIM_STEP 1)).toNat) * 2 ^ 28 < 0 := by
  decide +kernel

/-- Refutes O55: a step that leads below 0 from a tick that goes back leaves the time at 0. -/
theorem not_timeRowsComplete : ¬ Obligations.TimeRowsComplete := by
  unfold Obligations.TimeRowsComplete
  rintro ⟨-, -, -, -, hstep, -⟩
  obtain ⟨htakes, hcommit, hen, hstate⟩ := ticksBack_premises
  obtain ⟨t, -, htime⟩ := hstep ticksBack .cox 1 0xFFFFFFFF htakes hcommit hen hstate
  have hnonneg : (0 : Int) ≤ t.domTime 1 := Int.natCast_nonneg _
  exact absurd (hnonneg.trans_eq htime) (not_le.mpr ticksBack_step_below_zero)

end Sys2Proof.Machine
end

section
/-! PROOFS, family 08_network_time: the tick of the domains (O52). -/
namespace Sys2Proof.Machine

/-! ### One tick of one domain (R259, R262) -/

section
variable (s : State) (d : Nat)

/-- What a tick of domain `d` takes of its slew: at most 2 × SLEW_PPM × 10^-6 ns, forward or back. -/
def State.slewUse : Int :=
  let left := SMap.get s.tim.slew 0 d
  let step : Int := 2 * s.get (TIM_DOM_CFG_SLEW_PPM d) * 2 ^ 28
  if left > step then step else if left < -step then -step else left

/-- The contribution of the slew with what the tick before has left of it, in slew units. -/
def State.slewSum : Int := SMap.get s.tim.carry 0 d + s.slewUse d

/-- The time of domain `d` after a tick in which it counts. -/
def State.nextTime : Nat := ((s.domTime d : Int) + (s.rd (TIM_INCR d)).toNat + s.slewSum d / 10 ^ 6).toNat

/-- The words that a tick of domain `d` shows its slew in. -/
def slewRegs : List Nat := [TIM_SLEW_LEFT d, TIM_DOM_STATUS d]

theorem showSlew_regsBut : RegsBut (slewRegs d) s (s.showSlew d) :=
  ((RegsBut.refl _ s).set (TIM_SLEW_LEFT_LEFT d) _ rfl List.mem_cons_self).set (TIM_DOM_STATUS_SLEW_BUSY d) _ rfl
    (List.mem_cons_of_mem _ List.mem_cons_self)

@[simp] theorem showSlew_tim : (s.showSlew d).tim = s.tim := by simp [State.showSlew]
@[simp] theorem showSlew_hfp : (s.showSlew d).hfp = s.hfp := by simp [State.showSlew]
@[simp] theorem showSlew_fab : (s.showSlew d).fab = s.fab := by simp [State.showSlew]

theorem setSlew_tim (v : Int) : (s.setSlew d v).tim = { s.tim with slew := SMap.put s.tim.slew 0 d v } := by
  simp [State.setSlew]

theorem setSlew_regsBut (v : Int) : RegsBut (slewRegs d) s (s.setSlew d v) := showSlew_regsBut _ d

theorem tickDomain_of_disabled (h : s.domEn d = false) : s.tickDomain d = s := by simp [State.tickDomain, h]

/-- A domain that counts, before it shows its slew. -/
def State.counted : State :=
  s.tset fun t => { t with now := SMap.put t.now 0 d (s.nextTime d),
                           carry := SMap.put t.carry 0 d (s.slewSum d - s.slewSum d / 10 ^ 6 * 10 ^ 6) }

theorem tickDomain_of_enabled (h : s.domEn d = true) : s.tickDomain d =
    if SMap.get s.tim.slew 0 d = 0 then s.counted d
    else (s.counted d).setSlew d (SMap.get s.tim.slew 0 d - s.slewUse d) := by
  simp only [State.tickDomain, State.counted, State.nextTime, State.slewSum, State.slewUse, h, Bool.not_true,
    Bool.false_eq_true, if_false]

theorem slewUse_of_no_slew (h : SMap.get s.tim.slew 0 d = 0) : s.slewUse d = 0 := by
  have hstep : (0 : Int) ≤ 2 * s.get (TIM_DOM_CFG_SLEW_PPM d) * 2 ^ 28 := by positivity
  simp only [State.slewUse, h]
  split <;> omega

theorem tickDomain_time (h : s.domEn d = true) : (s.tickDomain d).domTime d = s.nextTime d := by
  rw [tickDomain_of_enabled s d h]
  split <;> simp [State.domTime, State.counted, setSlew_tim]

theorem tickDomain_carry (h : s.domEn d = true) :
    SMap.get (s.tickDomain d).tim.carry 0 d = s.slewSum d - s.slewSum d / 10 ^ 6 * 10 ^ 6 := by
  rw [tickDomain_of_enabled s d h]
  split <;> simp [State.counted, setSlew_tim]

theorem tickDomain_slew (h : s.domEn d = true) :
    SMap.get (s.tickDomain d).tim.slew 0 d = SMap.get s.tim.slew 0 d - s.slewUse d := by
  rw [tickDomain_of_enabled s d h]
  split
  · next hnone => simp [State.counted, hnone, slewUse_of_no_slew s d hnone]
  · simp [setSlew_tim]

theorem tickDomain_regsBut : RegsBut (slewRegs d) s (s.tickDomain d) := by
  cases h : s.domEn d with
  | false =>
    rw [tickDomain_of_disabled s d h]
    exact RegsBut.refl _ s
  | true =>
    rw [tickDomain_of_enabled s d h]
    split
    · exact fun _ _ => rfl
    · exact setSlew_regsBut (s.counted d) d _

end

/-! ### The ticks of the other domains -/

/-- Domain `d` stands in `t` as in `s`: its time, its slew and the words that a tick reads of it. -/
structure DomainKept (d : Nat) (s t : State) : Prop where
  time : t.domTime d = s.domTime d
  slew : SMap.get t.tim.slew 0 d = SMap.get s.tim.slew 0 d
  carry : SMap.get t.tim.carry 0 d = SMap.get s.tim.carry 0 d
  incr : t.rd (TIM_INCR d) = s.rd (TIM_INCR d)
  cfg : t.rd (TIM_DOM_CFG d) = s.rd (TIM_DOM_CFG d)

namespace DomainKept
variable {d : Nat} {s t u : State}

theorem refl (d : Nat) (s : State) : DomainKept d s s := ⟨rfl, rfl, rfl, rfl, rfl⟩

theorem trans (h : DomainKept d s t) (g : DomainKept d t u) : DomainKept d s u :=
  ⟨g.time.trans h.time, g.slew.trans h.slew, g.carry.trans h.carry, g.incr.trans h.incr, g.cfg.trans h.cfg⟩

theorem domEn (h : DomainKept d s t) : t.domEn d = s.domEn d := by
  rw [State.domEn, State.on, get_of_word (f := TIM_DOM_CFG_EN d) rfl h.cfg, State.domEn, State.on]

theorem slewUse (h : DomainKept d s t) : t.slewUse d = s.slewUse d := by
  simp only [State.slewUse, h.slew, get_of_word (f := TIM_DOM_CFG_SLEW_PPM d) rfl h.cfg]

theorem slewSum (h : DomainKept d s t) : t.slewSum d = s.slewSum d := by simp only [State.slewSum, h.carry, h.slewUse]

theorem nextTime (h : DomainKept d s t) : t.nextTime d = s.nextTime d := by
  simp only [State.nextTime, h.time, h.incr, h.slewSum]

end DomainKept

theorem incr_not_slewReg (d e : Nat) : TIM_INCR d ∉ slewRegs e := by
  simp only [slewRegs, TIM_INCR, TIM_SLEW_LEFT, TIM_DOM_STATUS, List.mem_cons, List.not_mem_nil, or_false]
  omega

theorem domCfg_not_slewReg (d e : Nat) : TIM_DOM_CFG d ∉ slewRegs e := by
  simp only [slewRegs, TIM_DOM_CFG, TIM_SLEW_LEFT, TIM_DOM_STATUS, List.mem_cons, List.not_mem_nil, or_false]
  omega

theorem tickDomain_keeps_other (s : State) {d e : Nat} (hne : d ≠ e) :
    DomainKept d s (s.tickDomain e) := by
  have hregs := tickDomain_regsBut s e
  have hincr := hregs _ (incr_not_slewReg d e)
  have hcfg := hregs _ (domCfg_not_slewReg d e)
  cases h : s.domEn e with
  | false =>
    rw [tickDomain_of_disabled s e h]
    exact DomainKept.refl d s
  | true =>
    rw [tickDomain_of_enabled s e h] at hincr hcfg ⊢
    split at hincr
    all_goals
      simp only [*, if_true, if_false] at hincr hcfg ⊢
      exact ⟨by simp [State.domTime, State.counted, setSlew_tim, SMap.get_put_ne _ _ _ _ hne],
        by simp [State.counted, setSlew_tim, SMap.get_put_ne _ _ _ _ hne],
        by simp [State.counted, setSlew_tim, SMap.get_put_ne _ _ _ _ hne], hincr, hcfg⟩

theorem ticks_keep_other {d : Nat} : ∀ (l : List Nat) (s : State), d ∉ l →
    DomainKept d s (s.each l fun t e => t.tickDomain e)
  | [], s, _ => DomainKept.refl d s
  | e :: l, s, hne =>
    have hboth := not_or.mp (List.mem_cons.not.mp hne)
    (tickDomain_keeps_other s hboth.1).trans (ticks_keep_other l (s.tickDomain e) hboth.2)

/-- Among the ticks of several domains, domain `d` has its own once, from as it stood. -/
theorem ticks_of_domain {d : Nat} : ∀ (l : List Nat) (s : State), l.Nodup → d ∈ l →
    ∃ u, DomainKept d s u ∧ DomainKept d (u.tickDomain d) (s.each l fun t e => t.tickDomain e)
  | [], _, _, hmem => absurd hmem List.not_mem_nil
  | e :: l, s, hnodup, hmem => by
    obtain ⟨hel, hnodup'⟩ := List.nodup_cons.mp hnodup
    by_cases hde : d = e
    · subst hde
      exact ⟨s, DomainKept.refl d s, ticks_keep_other l (s.tickDomain d) hel⟩
    · obtain ⟨u, hu, hticked⟩ := ticks_of_domain l (s.tickDomain e) hnodup' ((List.mem_cons.mp hmem).resolve_left hde)
      exact ⟨u, (tickDomain_keeps_other s hde).trans hu, hticked⟩

/-! ### The tick of the device -/

/-- The state that the domains tick from: the reference has counted, and AON's oscillator. -/
def State.tickBegun (s : State) : State :=
  { s with refTicks := s.refTicks + 1, tim := { s.tim with place := [] },
           pwr := { s.pwr with aon := s.pwr.aon + aonPhase s.pwr.xtalFailed s.refTicks } }

theorem tick_of_up {s : State} (h : s.up .time = true) : s.tick = s.tickBegun.each (List.range 4) fun t d => t.tickDomain d := by
  simp only [State.tick]
  exact if_pos h

/-- In a tick each domain of a running Time island has its own tick. -/
theorem tick_of_domain {s : State} (h : s.up .time = true) {d : Nat} (hd : d < 4) :
    ∃ u, DomainKept d s u ∧ DomainKept d (u.tickDomain d) s.tick := by
  have hbegun : DomainKept d s s.tickBegun := ⟨rfl, rfl, rfl, rfl, rfl⟩
  obtain ⟨u, hu, hticked⟩ := ticks_of_domain (List.range 4) s.tickBegun List.nodup_range (List.mem_range.mpr hd)
  exact ⟨u, hbegun.trans hu, tick_of_up h ▸ hticked⟩

section
variable {s : State} {d : Nat} (hup : s.up .time = true) (hd : d < 4)
include hup hd

theorem tick_of_disabled (h : s.domEn d = false) : s.tick.domTime d = s.domTime d := by
  obtain ⟨u, hu, ht⟩ := tick_of_domain hup hd
  rw [ht.time, tickDomain_of_disabled u d (hu.domEn.trans h), hu.time]

theorem tick_time (h : s.domEn d = true) : s.tick.domTime d = s.nextTime d := by
  obtain ⟨u, hu, ht⟩ := tick_of_domain hup hd
  rw [ht.time, tickDomain_time u d (hu.domEn.trans h), hu.nextTime]

theorem tick_carry (h : s.domEn d = true) :
    SMap.get s.tick.tim.carry 0 d = s.slewSum d - s.slewSum d / 10 ^ 6 * 10 ^ 6 := by
  obtain ⟨u, hu, ht⟩ := tick_of_domain hup hd
  rw [ht.carry, tickDomain_carry u d (hu.domEn.trans h), hu.slewSum]

theorem tick_slew (h : s.domEn d = true) : SMap.get s.tick.tim.slew 0 d = SMap.get s.tim.slew 0 d - s.slewUse d := by
  obtain ⟨u, hu, ht⟩ := tick_of_domain hup hd
  rw [ht.slew, tickDomain_slew u d (hu.domEn.trans h), hu.slew, hu.slewUse]

end

/-! ### What a tick leaves alone -/

theorem tickDomain_hfp_fab (s : State) (d : Nat) : (s.tickDomain d).hfp = s.hfp ∧ (s.tickDomain d).fab = s.fab := by
  cases h : s.domEn d with
  | false => simp [tickDomain_of_disabled s d h]
  | true =>
    rw [tickDomain_of_enabled s d h]
    split <;> simp [State.counted, State.setSlew]

theorem ticks_hfp_fab (l : List Nat) (s : State) : (s.each l fun t d => t.tickDomain d).hfp = s.hfp ∧
    (s.each l fun t d => t.tickDomain d).fab = s.fab := by
  induction l generalizing s with
  | nil => exact ⟨rfl, rfl⟩
  | cons d l ih =>
    obtain ⟨hhfp, hfab⟩ := tickDomain_hfp_fab s d
    obtain ⟨hhfp', hfab'⟩ := ih (s.tickDomain d)
    exact ⟨hhfp'.trans hhfp, hfab'.trans hfab⟩

theorem tick_hfp_fab (s : State) : s.tick.hfp = s.hfp ∧ s.tick.fab = s.fab := by
  simp only [State.tick]
  split
  · exact ticks_hfp_fab _ _
  · exact ⟨rfl, rfl⟩

/-! ### The rest of a step on an empty queue -/

section
variable {s : State}

theorem lockTick_of_nothing_waiting (hback : s.hfp.backEnd = []) (hqueue : s.busQueue = []) : s.lockTick = s := by
  simp [State.lockTick, hback, hqueue]

theorem sayParity_of_none_due (h : s.fab.parityDue = []) : s.sayParity = s := by
  have hsame : (s.fset fun f => { f with parityDue := [] }) = s := by
    rw [← h]
    rfl
  rw [State.sayParity, h, hsame]
  rfl

theorem holdsOver_of_none_held (h : (s.fab.rx.all fun e => e.2.heldBy.isNone) = true) : s.holdsOver = s := by
  have hnone : (s.fab.rx.filter fun e =>
      (e.2.heldBy.any fun i => (s.fab.rx.filterMap fun e => e.2.heldBy).contains i) && s.holdOver e.2) = [] := by
    refine List.filter_eq_nil_iff.mpr fun e he => ?_
    simp [Option.isNone_iff_eq_none.mp (List.all_eq_true.mp h e he)]
  rw [State.holdsOver, State.redecide, hnone]
  rfl

/-- With nothing waiting, a step on an empty queue is the tick alone. -/
theorem step_of_idle (hpending : s.pending = []) (hback : s.hfp.backEnd = []) (hqueue : s.busQueue = [])
    (hparity : s.fab.parityDue = []) (hheld : (s.fab.rx.all fun e => e.2.heldBy.isNone) = true) : step s = .next s.tick := by
  obtain ⟨hhfp, hfab⟩ := tick_hfp_fab s
  have hqueue' : s.tick.busQueue = [] := by rwa [State.busQueue, hhfp]
  rw [step, hpending, State.clock, lockTick_of_nothing_waiting (hhfp ▸ hback) hqueue',
    sayParity_of_none_due (hfab ▸ hparity), holdsOver_of_none_held (hfab ▸ hheld)]

end

/-! ### The contribution of a slew -/

section
variable (s : State) (d : Nat)

theorem slewUse_forward (h : 0 < SMap.get s.tim.slew 0 d) :
    s.slewUse d = min (SMap.get s.tim.slew 0 d) (2 * s.get (TIM_DOM_CFG_SLEW_PPM d) * 2 ^ 28) := by
  have hstep : (0 : Int) ≤ 2 * s.get (TIM_DOM_CFG_SLEW_PPM d) * 2 ^ 28 := by positivity
  simp only [State.slewUse]
  split <;> [skip; split] <;> omega

theorem slewUse_back (h : SMap.get s.tim.slew 0 d < 0) :
    s.slewUse d = max (SMap.get s.tim.slew 0 d) (-(2 * s.get (TIM_DOM_CFG_SLEW_PPM d) * 2 ^ 28)) := by
  have hstep : (0 : Int) ≤ 2 * s.get (TIM_DOM_CFG_SLEW_PPM d) * 2 ^ 28 := by positivity
  simp only [State.slewUse]
  split <;> [skip; split] <;> omega

/-- Where a tick does not lead below 0, it adds the increment and the slew's contribution, but for what it carries on. -/
theorem nextTime_balance (h : 0 ≤ (s.domTime d : Int) + (s.rd (TIM_INCR d)).toNat + s.slewSum d / 10 ^ 6) :
    ((s.nextTime d : Int) - s.domTime d - (s.rd (TIM_INCR d)).toNat) * 10 ^ 6 + (s.slewSum d - s.slewSum d / 10 ^ 6 * 10 ^ 6)
      - SMap.get s.tim.carry 0 d = s.slewUse d := by
  rw [State.nextTime, Int.toNat_of_nonneg h, State.slewSum]
  ring

/-- A contribution of at least `-n` to a time that holds `n` does not lead below 0. -/
theorem nextTime_nonneg (h : -(s.domTime d * 10 ^ 6 : Int) ≤ s.slewSum d) :
    0 ≤ (s.domTime d : Int) + (s.rd (TIM_INCR d)).toNat + s.slewSum d / 10 ^ 6 := by
  omega

end

/-- Settles O52: a step on an idle queue is the tick, and in the tick each domain has its own, whatever the others do. -/
theorem ticksAdvanceTheDomains : Obligations.TicksAdvanceTheDomains := by
  unfold Obligations.TicksAdvanceTheDomains
  intro s d hd hpending hup hback hqueue hparity hheld
  refine ⟨s.tick, step_of_idle hpending hback hqueue hparity hheld, tick_of_disabled hup hd, ?_, ?_, ?_⟩
  · intro hen hslew hcarry
    have huse : s.slewUse d = 0 := slewUse_of_no_slew s d hslew
    have hsum : s.slewSum d = 0 := by rw [State.slewSum, hcarry, huse, add_zero]
    rw [tick_time hup hd hen, tick_slew hup hd hen, tick_carry hup hd hen, State.nextTime, hsum, huse, hslew]
    exact ⟨by omega, rfl, rfl⟩
  · intro hen hslew hcarry
    have huse := slewUse_forward s d hslew
    have hpos : 0 ≤ s.slewUse d := by
      have hstep : (0 : Int) ≤ 2 * s.get (TIM_DOM_CFG_SLEW_PPM d) * 2 ^ 28 := by positivity
      omega
    rw [tick_time hup hd hen, tick_slew hup hd hen, tick_carry hup hd hen, ← huse]
    exact ⟨nextTime_balance s d (nextTime_nonneg s d (by rw [State.slewSum]; omega)), rfl⟩
  · intro hen hslew hcarry hroom
    have huse := slewUse_back s d hslew
    rw [tick_time hup hd hen, tick_slew hup hd hen, tick_carry hup hd hen, ← huse]
    exact ⟨nextTime_balance s d (nextTime_nonneg s d (by rw [State.slewSum]; omega)), rfl⟩

end Sys2Proof.Machine
end

section
/-! PROOFS, family 08_network_time: Catch outputs (O21). -/
namespace Sys2Proof.Machine

/-! ### Bits of a written word -/

theorem bit_toNat (v : Word) (k : Nat) : bit v.toNat k = v.getLsbD k := by
  rw [bit, BitVec.getLsbD, Nat.testBit_eq_decide_div_mod_eq]
  rfl

theorem bit_withBit (v : Word) {k : Nat} (hk : k < 32) : bit (withBit v k).toNat k = true := by
  rw [bit_toNat, withBit, BitVec.getLsbD_or, BitVec.getLsbD_ofNat, Nat.testBit_two_pow_self]
  simp [hk]

theorem bit_noBit (v : Word) {k : Nat} (hk : k < 32) : bit (noBit v k).toNat k = false := by
  rw [bit_toNat, noBit, BitVec.getLsbD_and, BitVec.getLsbD_not, BitVec.getLsbD_ofNat, Nat.testBit_two_pow_self]
  simp [hk]

theorem bits_eq_mod_div (v lo w : Nat) : bits v lo w = v % 2 ^ (lo + w) / 2 ^ lo := by
  rw [bits, pow_add, Nat.mod_mul_right_div_self]

/-- A field of the low bits depends on these alone. -/
theorem bits_congr {a b k lo w : Nat} (h : a % 2 ^ k = b % 2 ^ k) (hk : lo + w ≤ k) : bits a lo w = bits b lo w := by
  have hdvd : 2 ^ (lo + w) ∣ 2 ^ k := pow_dvd_pow 2 hk
  rw [bits_eq_mod_div, bits_eq_mod_div, ← Nat.mod_mod_of_dvd a hdvd, h, Nat.mod_mod_of_dvd b hdvd]

/-- The low bits of a word that are RW and RWL take those written. -/
theorem storedValue_low {d : RegDef} {w k : Nat} (hrw : accMask d w [.rw, .rwl] = 2 ^ k - 1)
    (hkept : (whole - (2 ^ k - 1)) % 2 ^ k = 0) (old v : Nat) : storedValue d w old v % 2 ^ k = v % 2 ^ k := by
  rw [storedValue, hrw, Nat.or_mod_two_pow, Nat.and_two_pow_sub_one_eq_mod, Nat.mod_mod, Nat.and_mod_two_pow,
    Nat.and_mod_two_pow (a := old), hkept, Nat.and_zero, Nat.zero_and, Nat.or_zero]

/-- A word with neither RW, RWL nor W1C bits keeps its value (R10). -/
theorem storedValue_of_no_stored {d : RegDef} {w : Nat} (hrw : accMask d w [.rw, .rwl] = 0) (hone : accMask d w [.w1c] = 0)
    (old : Word) (v : Nat) : BitVec.ofNat 32 (storedValue d w old.toNat v) = old := by
  have hwhole : old.toNat &&& whole = old.toNat := by
    rw [show whole = 2 ^ 32 - 1 from rfl, Nat.and_two_pow_sub_one_eq_mod, Nat.mod_eq_of_lt old.isLt]
  simp [storedValue, hrw, hone, hwhole]

/-! ### Changes of the Time unit, of its words and of the pins -/

/-- `t` is `s` but for the words of a list, the pins, and what the Time unit holds beside the times of its domains. -/
structure TimeOnly (l : List Nat) (s t : State) : Prop where
  rest : { t with regs := s.regs, tim := s.tim, pins := s.pins } = s
  now : t.tim.now = s.tim.now
  regs : RegsBut l s t

/-- Where event records go depends on the Host interface and the words below the ports alone. -/
theorem eventArea_of_low {s t : State} (hhif : t.hif = s.hif) (hlow : ∀ a < 0x400000, t.rd a = s.rd a) {n a : Nat}
    (ha : s.eventArea n a = false) : t.eventArea n a = false := by
  have hregs : State.eventArea { s with regs := t.regs } n a = false :=
    SameButRegs.eventArea (s := s) (t := { s with regs := t.regs }) rfl hlow ha
  have hsame : t.eventArea n a = State.eventArea { s with regs := t.regs } n a := by
    simp only [State.eventArea, State.get, State.rd, State.msixWord, hhif]
  exact hsame.trans hregs

/-- The words of the Time island. -/
def inTime (a : Nat) : Bool := 0xD00000 ≤ a && a < 0xE00000

theorem inTime_iff {a : Nat} : inTime a = true ↔ 0xD00000 ≤ a ∧ a < 0xE00000 := by simp [inTime]

theorem eventReg_time {a : Nat} (h : inTime a = true) : eventReg a = false := by
  obtain ⟨hlo, hhi⟩ := inTime_iff.mp h
  simp only [eventReg, HIF_EVT_LOST, HFP_REVQ_HEAD, HFP_REVQ_LOST, Bool.or_eq_false_iff, Bool.and_eq_false_iff,
    beq_eq_false_iff_ne, decide_eq_false_iff_not]
  omega

namespace TimeOnly
variable {l : List Nat} {s t u : State}

theorem refl (l : List Nat) (s : State) : TimeOnly l s s := ⟨rfl, rfl, RegsBut.refl l s⟩

theorem trans (h : TimeOnly l s t) (g : TimeOnly l t u) : TimeOnly l s u where
  rest := (congrArg (fun x : State => ({ x with regs := s.regs, tim := s.tim, pins := s.pins } : State)) g.rest :).trans h.rest
  now := g.now.trans h.now
  regs := h.regs.trans g.regs

theorem set (h : TimeOnly l s t) (f : Fld) (v : Nat) {a : Nat} (hf : f.words = [a]) (ha : a ∈ l) : TimeOnly l s (t.set f v) :=
  h.trans ⟨(congrArg (fun x : State => ({ x with tim := t.tim, pins := t.pins } : State)) (set_rest t f v) :), by simp,
    (RegsBut.refl l t).set f v hf ha⟩

theorem wr (h : TimeOnly l s t) {a : Nat} (v : Word) (ha : a ∈ l) : TimeOnly l s (t.wr a v) :=
  h.trans ⟨rfl, rfl, fun _ hb => rd_wr_ne t v fun e => hb (e ▸ ha)⟩

theorem tset (h : TimeOnly l s t) (g : TimeUnit → TimeUnit) (hg : (g t.tim).now = t.tim.now) : TimeOnly l s (t.tset g) :=
  h.trans ⟨rfl, hg, fun _ _ => rfl⟩

theorem cox (h : TimeOnly l s t) : t.cox = s.cox := (congrArg State.cox h.rest :)
theorem hif (h : TimeOnly l s t) : t.hif = s.hif := (congrArg State.hif h.rest :)
theorem rst (h : TimeOnly l s t) : t.rst = s.rst := (congrArg State.rst h.rest :)
theorem hostKept (h : TimeOnly l s t) : HostKept s t := fun a => (congrArg (fun x : State => x.hostByte a) h.rest :)

theorem domTime (h : TimeOnly l s t) (d : Nat) : t.domTime d = s.domTime d := by rw [State.domTime, h.now, State.domTime]
theorem domNs (h : TimeOnly l s t) (d : Nat) : t.domNs d = s.domNs d := by rw [State.domNs, h.domTime, State.domNs]
theorem short (h : TimeOnly l s t) (d : Nat) : t.short d = s.short d := by rw [State.short, h.domNs, State.short]

theorem rd_outside (h : TimeOnly l s t) (hl : ∀ a ∈ l, inTime a = true) {a : Nat} (ha : inTime a = false) : t.rd a = s.rd a :=
  h.regs a fun hm => by simp [hl a hm] at ha

theorem low (h : TimeOnly l s t) (hl : ∀ a ∈ l, inTime a = true) {a : Nat} (ha : a < 0x400000) : t.rd a = s.rd a :=
  h.rd_outside hl (by simp [inTime]; omega)

/-- Where event records go does not depend on the Time island. -/
theorem eventArea (h : TimeOnly l s t) (hl : ∀ a ∈ l, inTime a = true) {n a : Nat} (ha : s.eventArea n a = false) :
    t.eventArea n a = false :=
  eventArea_of_low h.hif (fun _ hb => h.low hl hb) ha

theorem emits (h : TimeOnly l s t) {code source body : Nat} (e : Emits code source body t u) : Emits code source body s u := by
  unfold Emits at e ⊢
  rwa [h.cox, h.short] at e

theorem hostKeptE (h : TimeOnly l s t) (hl : ∀ a ∈ l, inTime a = true) {n : Nat} (g : HostKeptE n t u) : HostKeptE n s u :=
  fun a ha => (g a (h.eventArea hl ha)).trans (h.hostKept a)

end TimeOnly

/-- `t` is `s` but for the pins. -/
def PinsOnly (s t : State) : Prop := { t with pins := s.pins } = s

namespace PinsOnly
variable {s t u : State}

theorem trans (h : PinsOnly s t) (g : PinsOnly t u) : PinsOnly s u :=
  (congrArg (fun x : State => ({ x with pins := s.pins } : State)) g :).trans h

theorem regs (h : PinsOnly s t) : t.regs = s.regs := (congrArg State.regs h :)
theorem tim (h : PinsOnly s t) : t.tim = s.tim := (congrArg State.tim h :)
theorem cox (h : PinsOnly s t) : t.cox = s.cox := (congrArg State.cox h :)
theorem rd (h : PinsOnly s t) (a : Nat) : t.rd a = s.rd a := rd_congr h.regs a
theorem get (h : PinsOnly s t) (f : Fld) : t.get f = s.get f := get_congr_regs h.regs f
theorem on (h : PinsOnly s t) (f : Fld) : t.on f = s.on f := by rw [State.on, h.get, State.on]
theorem hostKept (h : PinsOnly s t) : HostKept s t := fun a => (congrArg (fun x : State => x.hostByte a) h :)

end PinsOnly

theorem catchPin_pinsOnly (s : State) (c : Nat) : PinsOnly s (s.catchPin c) := rfl

theorem holdFaultN_pinsOnly (s t : State) : PinsOnly t (s.holdFaultN t) := holdFaultN_rest s t

/-! ### FAULT_N where its causes stay (R56) -/

/-- The words that the level of FAULT_N depends on. -/
def faultWords : List Nat := [GLB_FAULT, GLB_FAULT_MASK, COX_STATUS, PWR_STATUS]

theorem faultCause_congr {s t : State} (hregs : ∀ a ∈ faultWords, t.rd a = s.rd a) (hrst : t.rst = s.rst) :
    t.faultCause = s.faultCause := by
  have hfault : t.rd GLB_FAULT = s.rd GLB_FAULT := hregs _ (by decide)
  have hmask := get_of_word (f := GLB_FAULT_MASK_MASK) rfl (hregs _ (by decide))
  have hpending := get_of_word (f := GLB_FAULT_START_PENDING) rfl hfault
  have hfrozen := get_of_word (f := COX_STATUS_FROZEN) rfl (hregs _ (by decide))
  have hpower := get_of_word (f := PWR_STATUS_STATE) rfl (hregs _ (by decide))
  have hunmasked : t.unmaskedFaults = s.unmaskedFaults := by rw [State.unmaskedFaults, hfault, hmask, State.unmaskedFaults]
  rw [State.faultCause, hunmasked, State.on, hpending, State.frozen, State.on, hfrozen, State.alive, hrst, State.power, hpower]
  rfl

/-- A change that leaves the causes of FAULT_N as they were begins no assertion. -/
theorem holdFaultN_of_same_cause {s t : State} (h : t.faultCause = s.faultCause) : s.holdFaultN t = t := by
  have hnone : (t.faultCause && !s.faultNLow) = false := by
    rw [h, State.faultNLow]
    cases s.faultCause <;> simp
  simp [State.holdFaultN, hnone]

theorem TimeOnly.holdFaultN {l : List Nat} {s t : State} (h : TimeOnly l s t) (hl : ∀ a ∈ l, inTime a = true) : s.holdFaultN t = t :=
  holdFaultN_of_same_cause <| faultCause_congr
    (fun a ha => h.rd_outside hl ((by decide : ∀ b ∈ faultWords, inTime b = false) a ha)) h.rst

/-! ### The register TIM_CATCH_CFG -/

/-- TIM_CATCH_CFG as the map defines it. -/
def catchCfgDef : RegDef := ⟨.TIM_CATCH_CFG, 0xD01000, [(0x40, 16)], 1, .time, false, false, 0x0,
  [⟨4, 4, .rw, []⟩, ⟨3, 2, .rw, []⟩, ⟨1, 1, .rw, []⟩, ⟨0, 0, .rw, []⟩]⟩

theorem regAt_catchCfg (c : Fin 16) : regAt (TIM_CATCH_CFG c.val) = some (catchCfgDef, [c.val], 0) := by
  revert c
  decide +kernel

/-- The words that the set-up and the state of a Catch are held in. -/
def catchRegs (c : Nat) : List Nat := [TIM_CATCH_CFG c, TIM_CATCH_STATUS c]

theorem cfg_mem_catchRegs (c : Nat) : TIM_CATCH_CFG c ∈ catchRegs c := List.mem_cons_self
theorem status_mem_catchRegs (c : Nat) : TIM_CATCH_STATUS c ∈ catchRegs c := List.mem_cons_of_mem _ List.mem_cons_self

theorem catchRegs_inTime (c : Fin 16) : ∀ a ∈ catchRegs c.val, inTime a = true := by
  revert c
  decide

theorem cfg_inTime (c : Fin 16) {f : Fld} (hf : f.words = [TIM_CATCH_CFG c.val]) : ∀ a ∈ f.words, inTime a = true :=
  fun a ha => catchRegs_inTime c a (List.mem_singleton.mp (hf ▸ ha) ▸ cfg_mem_catchRegs c.val)

theorem status_inTime (c : Fin 16) {f : Fld} (hf : f.words = [TIM_CATCH_STATUS c.val]) : ∀ a ∈ f.words, inTime a = true :=
  fun a ha => catchRegs_inTime c a (List.mem_singleton.mp (hf ▸ ha) ▸ status_mem_catchRegs c.val)

/-- TIM_CATCH_CFG has taken the written word. -/
def State.catchStored (s : State) (c : Nat) (v : Word) : State :=
  s.wr (TIM_CATCH_CFG c) (BitVec.ofNat 32 (storedValue catchCfgDef 0 (s.rd (TIM_CATCH_CFG c)).toNat v.toNat))

/-- An accepted write of TIM_CATCH_CFG stores its word, and the Catch follows. -/
theorem write_catchCfg (s : State) {who : Initiator} {c : Fin 16} {v : Word} (h : s.takesWrite who (TIM_CATCH_CFG c.val) v) :
    s.write who (TIM_CATCH_CFG c.val) v =
      s.holdFaultN ((s.catchStored c.val v).catchHook c.val (s.rd (TIM_CATCH_CFG c.val)).toNat) :=
  (write_takes s v (regAt_catchCfg c) (by rw [TIM_CATCH_CFG]; omega) (by rw [TIM_CATCH_CFG]; omega) h).trans
    (congrArg s.holdFaultN rfl)

theorem on_eq_bit (s : State) (a k : Nat) (hk : k < 32) : s.on ⟨a, k, 1⟩ = bit (s.rd a).toNat k := by
  have hword : k + 1 ≤ 32 := hk
  simp [State.on, State.get, hword, bits, bit]

theorem catchStored_arm (s : State) (c : Nat) (v : Word) : (s.catchStored c v).on (TIM_CATCH_CFG_ARM c) = bit v.toNat 1 := by
  have hlow := storedValue_low (d := catchCfgDef) (w := 0) (k := 5) (by decide) (by decide) (s.rd (TIM_CATCH_CFG c)).toNat v.toNat
  have hword : storedValue catchCfgDef 0 (s.rd (TIM_CATCH_CFG c)).toNat v.toNat % 2 ^ 32 % 2 ^ 5 = v.toNat % 2 ^ 5 := by
    rw [Nat.mod_mod_of_dvd _ (by decide), hlow]
  rw [TIM_CATCH_CFG_ARM, on_eq_bit _ _ _ (by decide), State.catchStored, rd_wr_same, BitVec.toNat_ofNat, bit, bit]
  exact congrArg (· == 1) (bits_congr (lo := 1) (w := 1) hword (by decide))

theorem catchStored_only (s : State) (c : Nat) (v : Word) : TimeOnly (catchRegs c) s (s.catchStored c v) :=
  (TimeOnly.refl _ s).wr _ (cfg_mem_catchRegs c)

/-! ### Arming and disarming (R278–R280) -/

/-- With EN = 0 the pulse of a Catch ends (R279). -/
def State.catchMuted (s : State) (c : Nat) : State :=
  if s.on (TIM_CATCH_CFG_EN c) then s
  else (s.set (TIM_CATCH_STATUS_ACTIVE c) 0).tset fun t => { t with catchPulse := SMap.put t.catchPulse false c false }

/-- A Catch with illegal limits is not armed (R278). -/
def State.catchIllegal (s : State) (c : Nat) : State := (s.set (TIM_CATCH_STATUS_CFG_ERR c) 1).set (TIM_CATCH_CFG_ARM c) 0

/-- The edge that a Catch waits for is dropped (R279). -/
def State.catchDropped (s : State) (c : Nat) : State := s.tset fun t => { t with catchNext := SMap.erase t.catchNext c }

/-- Edge `k` of a Catch is the next (R280). -/
def State.catchWaits (s : State) (c k : Nat) : State := s.tset fun t => { t with catchNext := SMap.insert t.catchNext c k }

/-- A Catch is armed for its first edge at or after domain time + 1 µs (R280), unless its limits are illegal. -/
def State.catchArmed (s : State) (c : Nat) : State :=
  if s.catchLimits c then s.catchSeek c (s.domNs (s.get (TIM_CATCH_CFG_DOMAIN c)) + 1000) else s.catchIllegal c

section
variable (s : State) (c : Nat)

theorem catchHook_of_arm {old : Nat} (hold : bit old 1 = false) (harm : s.on (TIM_CATCH_CFG_ARM c) = true) :
    s.catchHook c old = ((s.catchMuted c).catchArmed c).catchPin c := by
  simp only [State.catchHook, State.catchArmed, State.catchMuted, State.catchIllegal, hold, harm]
  rfl

theorem catchHook_of_disarm {old : Nat} (hold : bit old 1 = true) (harm : s.on (TIM_CATCH_CFG_ARM c) = false) :
    s.catchHook c old = ((s.catchMuted c).catchDropped c).catchPin c := by
  simp only [State.catchHook, State.catchDropped, State.catchMuted, hold, harm]
  rfl

theorem catchMuted_only : TimeOnly (catchRegs c) s (s.catchMuted c) := by
  unfold State.catchMuted
  split
  · exact TimeOnly.refl _ s
  · exact ((TimeOnly.refl _ s).set _ 0 rfl (status_mem_catchRegs c)).tset _ rfl

theorem cfg_ne_status : TIM_CATCH_CFG c ≠ TIM_CATCH_STATUS c := by
  rw [TIM_CATCH_CFG, TIM_CATCH_STATUS]
  omega

/-- A change of the state shown leaves the set-up of the Catch. -/
theorem rd_cfg_set_status (f : Fld) (v : Nat) (hf : f.words = [TIM_CATCH_STATUS c]) :
    (s.set f v).rd (TIM_CATCH_CFG c) = s.rd (TIM_CATCH_CFG c) :=
  rd_set_ne s f v (by simp [hf, cfg_ne_status])

theorem catchMuted_cfg : (s.catchMuted c).rd (TIM_CATCH_CFG c) = s.rd (TIM_CATCH_CFG c) := by
  unfold State.catchMuted
  split
  · rfl
  · exact rd_cfg_set_status s c _ 0 rfl

theorem catchMuted_next : (s.catchMuted c).tim.catchNext = s.tim.catchNext := by
  unfold State.catchMuted
  split <;> simp

theorem catchMuted_of_on (h : s.on (TIM_CATCH_CFG_EN c) = true) : s.catchMuted c = s := if_pos h

/-! The three ends of arming -/

theorem catchSeek_of_ahead {instant : Nat} (h : instant ≤ s.catchStart c) : s.catchSeek c instant = s.catchWaits c 0 := by
  simp [State.catchSeek, State.firstEdge, State.catchWaits, h]

theorem catchSeek_of_past {instant : Nat} (h : s.catchStart c < instant) (honce : s.get (TIM_CATCH_PERIOD_PERIOD c) = 0) :
    s.catchSeek c instant = s.catchMiss c := by
  simp [State.catchSeek, State.firstEdge, Nat.not_le.mpr h, honce]

theorem catchArmed_of_limits (h : s.catchLimits c = true) :
    s.catchArmed c = s.catchSeek c (s.domNs (s.get (TIM_CATCH_CFG_DOMAIN c)) + 1000) := if_pos h

theorem catchArmed_of_illegal (h : s.catchLimits c = false) : s.catchArmed c = s.catchIllegal c := by
  simp only [State.catchArmed, h, Bool.false_eq_true, if_false]

/-- The one-shot is missed, and this is not raised yet (R280). -/
def State.catchMissed (s : State) (c : Nat) : State :=
  ((s.set (TIM_CATCH_STATUS_MISSED c) 1).set (TIM_CATCH_CFG_ARM c) 0).catchDropped c

theorem catchMiss_eq : s.catchMiss c = (s.catchMissed c).emit 0x0604 c 0 := rfl

theorem catchIllegal_only : TimeOnly (catchRegs c) s (s.catchIllegal c) :=
  ((TimeOnly.refl _ s).set _ 1 rfl (status_mem_catchRegs c)).set _ 0 rfl (cfg_mem_catchRegs c)

theorem catchDropped_only (l : List Nat) : TimeOnly l s (s.catchDropped c) :=
  (TimeOnly.refl l s).tset (fun t => { t with catchNext := SMap.erase t.catchNext c }) rfl

theorem catchWaits_only (l : List Nat) (k : Nat) : TimeOnly l s (s.catchWaits c k) :=
  (TimeOnly.refl l s).tset (fun t => { t with catchNext := SMap.insert t.catchNext c k }) rfl

theorem catchMissed_only : TimeOnly (catchRegs c) s (s.catchMissed c) :=
  (((TimeOnly.refl _ s).set (TIM_CATCH_STATUS_MISSED c) 1 rfl (status_mem_catchRegs c)).set (TIM_CATCH_CFG_ARM c) 0 rfl
    (cfg_mem_catchRegs c)).trans (catchDropped_only _ c _)

theorem catchMiss_records : Records 2 (s.catchMissed c) (s.catchMiss c) := by
  rw [catchMiss_eq]
  exact emit_records ..

/-- The next edge of a Catch is found, or none comes (R280). -/
theorem catchSeek_ends (instant : Nat) : (∃ k, s.catchSeek c instant = s.catchWaits c k) ∨ s.catchSeek c instant = s.catchMiss c := by
  unfold State.catchSeek
  split
  · exact .inl ⟨_, rfl⟩
  · exact .inr rfl

/-- ARM goes back to 0 with its reason shown; the domain of the Catch stays. -/
theorem get_domain_set_arm (f : Fld) (v : Nat) (hf : f.words = [TIM_CATCH_STATUS c]) :
    ((s.set f v).set (TIM_CATCH_CFG_ARM c) 0).get (TIM_CATCH_CFG_DOMAIN c) = s.get (TIM_CATCH_CFG_DOMAIN c) := by
  have hapart : (TIM_CATCH_CFG_DOMAIN c).apart (TIM_CATCH_CFG_ARM c) :=
    apart_of_end_le rfl (by decide : 2 ≤ 2) (by decide : 4 ≤ 32)
  rw [get_set_apart _ _ _ _ hapart, get_of_word (f := TIM_CATCH_CFG_DOMAIN c) rfl (rd_cfg_set_status s c f v hf)]

theorem catchMissed_domain : (s.catchMissed c).get (TIM_CATCH_CFG_DOMAIN c) = s.get (TIM_CATCH_CFG_DOMAIN c) := by
  rw [State.catchMissed, State.catchDropped, State.tset_get, get_domain_set_arm s c (TIM_CATCH_STATUS_MISSED c) 1 rfl]

/-- Arming leaves what it does to a Catch, and one event at the most. -/
theorem catchArmed_events : ∃ u, TimeOnly (catchRegs c) s u ∧ u.get (TIM_CATCH_CFG_DOMAIN c) = s.get (TIM_CATCH_CFG_DOMAIN c) ∧
    Records 2 u (s.catchArmed c) := by
  have hnone : ∀ u : State, Records 2 u u := fun u => (Records.refl u).mono (by decide)
  cases hlimits : s.catchLimits c with
  | false =>
    rw [catchArmed_of_illegal s c hlimits]
    exact ⟨s.catchIllegal c, catchIllegal_only s c, get_domain_set_arm s c (TIM_CATCH_STATUS_CFG_ERR c) 1 rfl, hnone _⟩
  | true =>
    rw [catchArmed_of_limits s c hlimits]
    obtain ⟨k, hk⟩ | hmiss := catchSeek_ends s c (s.domNs (s.get (TIM_CATCH_CFG_DOMAIN c)) + 1000)
    · rw [hk]
      exact ⟨s.catchWaits c k, catchWaits_only s c _ k, rfl, hnone _⟩
    · rw [hmiss]
      exact ⟨s.catchMissed c, catchMissed_only s c, catchMissed_domain s c, catchMiss_records s c⟩

theorem get_arm_set : (s.set (TIM_CATCH_CFG_ARM c) 0).on (TIM_CATCH_CFG_ARM c) = false := by
  rw [State.on, get_set_same s (TIM_CATCH_CFG_ARM c) 0 (by decide : 2 ≤ 64)]
  rfl

theorem status_set_arm (f : Fld) (v : Nat) (hf : f.words = [TIM_CATCH_STATUS c]) :
    (s.set (TIM_CATCH_CFG_ARM c) v).get f = s.get f :=
  get_of_word hf (rd_set_ne s (TIM_CATCH_CFG_ARM c) v (List.mem_singleton.not.mpr (cfg_ne_status c).symm))

theorem catchIllegal_effect : (s.catchIllegal c).on (TIM_CATCH_STATUS_CFG_ERR c) = true ∧
    (s.catchIllegal c).on (TIM_CATCH_CFG_ARM c) = false ∧ (s.catchIllegal c).tim.catchNext = s.tim.catchNext := by
  refine ⟨?_, get_arm_set _ c, by simp [State.catchIllegal]⟩
  rw [State.on, State.catchIllegal, status_set_arm _ c (TIM_CATCH_STATUS_CFG_ERR c) 0 rfl,
    get_set_same s (TIM_CATCH_STATUS_CFG_ERR c) 1 (by decide : 3 ≤ 64)]
  rfl

theorem catchMissed_arm : (s.catchMissed c).on (TIM_CATCH_CFG_ARM c) = false := get_arm_set _ c

theorem catchMissed_missed : (s.catchMissed c).on (TIM_CATCH_STATUS_MISSED c) = true := by
  rw [State.on, State.catchMissed, State.catchDropped, State.tset_get, status_set_arm _ c (TIM_CATCH_STATUS_MISSED c) 0 rfl,
    get_set_same s (TIM_CATCH_STATUS_MISSED c) 1 (by decide : 2 ≤ 64)]
  rfl

end

/-- An event leaves a field of the Time island. -/
theorem Records.on_time {n : Nat} {s t : State} (h : Records n s t) (f : Fld) (hf : ∀ a ∈ f.words, inTime a = true) :
    t.on f = s.on f := by
  rw [State.on, h.get_eq f fun a ha => eventReg_time (hf a ha), State.on]

theorem catchMiss_effect (s : State) (c : Fin 16) : (s.catchMiss c.val).on (TIM_CATCH_CFG_ARM c.val) = false ∧
    (s.catchMiss c.val).on (TIM_CATCH_STATUS_MISSED c.val) = true ∧ Emits 0x0604 c.val 0 s (s.catchMiss c.val) := by
  have hrec := catchMiss_records s c.val
  rw [hrec.on_time _ (cfg_inTime c rfl), hrec.on_time _ (status_inTime c rfl)]
  exact ⟨catchMissed_arm s c.val, catchMissed_missed s c.val, (catchMissed_only s c.val).emits (by rw [catchMiss_eq]; exact emit_emits ..)⟩

/-! ### What arming and disarming read -/

/-- The words of the limits and the first edge of a Catch. -/
def catchSetup (c : Nat) : List Nat :=
  [TIM_CATCH_START_SEC c, TIM_CATCH_START_SEC c + 4, TIM_CATCH_START_NS c, TIM_CATCH_PERIOD c, TIM_CATCH_WIDTH c]

theorem catchSetup_apart (c : Fin 16) : ∀ a ∈ catchSetup c.val, a ∉ catchRegs c.val ∧ inTime a = true := by
  revert c
  decide

section
variable {s t : State} {c : Nat} (h : ∀ a ∈ catchSetup c, t.rd a = s.rd a)
include h

theorem catchPeriod_congr : t.get (TIM_CATCH_PERIOD_PERIOD c) = s.get (TIM_CATCH_PERIOD_PERIOD c) :=
  get_of_word (f := TIM_CATCH_PERIOD_PERIOD c) rfl (h (TIM_CATCH_PERIOD c) (by simp [catchSetup]))

theorem catchLimits_congr : t.catchLimits c = s.catchLimits c := by
  rw [State.catchLimits, catchPeriod_congr h, get_of_word (f := TIM_CATCH_WIDTH_WIDTH c) rfl (h (TIM_CATCH_WIDTH c) (by simp [catchSetup]))]
  rfl

theorem catchStart_congr : t.catchStart c = s.catchStart c := by
  have hsec : t.get (TIM_CATCH_START_SEC_SEC c) = s.get (TIM_CATCH_START_SEC_SEC c) :=
    get_congr _ fun a ha => h a (by
      have hwords : (TIM_CATCH_START_SEC_SEC c).words = [TIM_CATCH_START_SEC c, TIM_CATCH_START_SEC c + 4] := rfl
      rw [hwords] at ha
      simp only [catchSetup, List.mem_cons] at ha ⊢
      tauto)
  rw [State.catchStart, hsec, get_of_word (f := TIM_CATCH_START_NS_NS c) rfl (h (TIM_CATCH_START_NS c) (by simp [catchSetup])), State.catchStart]

end

/-! ### The rows CATCH_ARM and CATCH_DISARM -/

section
variable (s : State) {who : Initiator} {c : Fin 16} {value : Word}

/-- The Catch before it is armed or disarmed: its set-up is stored, and its pulse has ended where EN = 0. -/
def State.catchTaken (s : State) (c : Nat) (v : Word) : State := (s.catchStored c v).catchMuted c

theorem catchTaken_only (c : Nat) (v : Word) : TimeOnly (catchRegs c) s (s.catchTaken c v) :=
  (catchStored_only s c v).trans (catchMuted_only _ c)

theorem catchTaken_next (c : Nat) (v : Word) : (s.catchTaken c v).tim.catchNext = s.tim.catchNext := catchMuted_next _ c

theorem catchTaken_arm (c : Nat) (v : Word) : (s.catchTaken c v).on (TIM_CATCH_CFG_ARM c) = bit v.toNat 1 := by
  rw [State.on, State.catchTaken, get_of_word (f := TIM_CATCH_CFG_ARM c) rfl (catchMuted_cfg _ c), ← catchStored_arm s c v]
  rfl

theorem write_catchArm (h : s.takesWrite who (TIM_CATCH_CFG c.val) (withBit value 1)) (hoff : s.on (TIM_CATCH_CFG_ARM c.val) = false) :
    PinsOnly ((s.catchTaken c.val (withBit value 1)).catchArmed c.val) (s.write who (TIM_CATCH_CFG c.val) (withBit value 1)) := by
  have hold : bit (s.rd (TIM_CATCH_CFG c.val)).toNat 1 = false := by rw [← hoff, ← on_eq_bit s _ 1 (by decide)]; rfl
  have harm : (s.catchStored c.val (withBit value 1)).on (TIM_CATCH_CFG_ARM c.val) = true := by
    rw [catchStored_arm, bit_withBit value (by decide)]
  rw [write_catchCfg s h, catchHook_of_arm _ _ hold harm]
  exact (catchPin_pinsOnly _ _).trans (holdFaultN_pinsOnly s _)

theorem write_catchDisarm (h : s.takesWrite who (TIM_CATCH_CFG c.val) (noBit value 1)) (hon : s.on (TIM_CATCH_CFG_ARM c.val) = true) :
    PinsOnly ((s.catchTaken c.val (noBit value 1)).catchDropped c.val) (s.write who (TIM_CATCH_CFG c.val) (noBit value 1)) := by
  have hold : bit (s.rd (TIM_CATCH_CFG c.val)).toNat 1 = true := by rw [← hon, ← on_eq_bit s _ 1 (by decide)]; rfl
  have harm : (s.catchStored c.val (noBit value 1)).on (TIM_CATCH_CFG_ARM c.val) = false := by
    rw [catchStored_arm, bit_noBit value (by decide)]
  rw [write_catchCfg s h, catchHook_of_disarm _ _ hold harm]
  exact (catchPin_pinsOnly _ _).trans (holdFaultN_pinsOnly s _)

/-- What CATCH_ARM leaves, whatever comes of it. -/
theorem catchArmed_frame (c : Fin 16) :
    RegsButE (catchRegs c.val) s (s.catchArmed c.val) ∧ HostKeptE 2 s (s.catchArmed c.val) ∧
      (s.catchArmed c.val).get (TIM_CATCH_CFG_DOMAIN c.val) = s.get (TIM_CATCH_CFG_DOMAIN c.val) := by
  obtain ⟨u, hu, hdomain, hrec⟩ := catchArmed_events s c.val
  exact ⟨hu.regs.then_records hrec, hu.hostKeptE (catchRegs_inTime c) hrec.host,
    (hrec.get_eq _ fun a ha => eventReg_time (cfg_inTime c rfl a ha)).trans hdomain⟩

end

section
variable (s : State) {who : Initiator} {c : Fin 16} {value : Word}

/-- The set-up of a Catch is what it was before it was armed. -/
theorem catchArmed_setup (s : State) (c : Fin 16) : ∀ a ∈ catchSetup c.val, (s.catchArmed c.val).rd a = s.rd a := by
  intro a ha
  obtain ⟨hregs, -, -⟩ := catchArmed_frame s c
  obtain ⟨hapart, htime⟩ := catchSetup_apart c a ha
  exact hregs a hapart (eventReg_time htime)

theorem catchArmed_of_ahead (hlimits : s.catchLimits c.val = true)
    (hahead : s.domNs (s.get (TIM_CATCH_CFG_DOMAIN c.val)) + 1000 ≤ s.catchStart c.val)
    (harm : s.on (TIM_CATCH_CFG_ARM c.val) = true) :
    (s.catchArmed c.val).on (TIM_CATCH_CFG_ARM c.val) = true ∧ SMap.find (s.catchArmed c.val).tim.catchNext c.val = some 0 := by
  rw [catchArmed_of_limits s _ hlimits, catchSeek_of_ahead s _ hahead]
  exact ⟨harm, SMap.find_insert_same ..⟩

theorem catchArm_row (h : s.takesWrite who (TIM_CATCH_CFG c.val) (withBit value 1)) (hoff : s.on (TIM_CATCH_CFG_ARM c.val) = false) :
    ∃ t, exec (.catchArm who c value) s = .next t ∧
      ((t.catchLimits c.val = false → t.on (TIM_CATCH_STATUS_CFG_ERR c.val) = true ∧ t.on (TIM_CATCH_CFG_ARM c.val) = false ∧ t.tim.catchNext = s.tim.catchNext) ∧
       (t.catchLimits c.val = true → s.domNs (t.get (TIM_CATCH_CFG_DOMAIN c.val)) + 1000 ≤ t.catchStart c.val →
         t.on (TIM_CATCH_CFG_ARM c.val) = true ∧ SMap.find t.tim.catchNext c.val = some 0) ∧
       (t.catchLimits c.val = true → t.catchStart c.val < s.domNs (t.get (TIM_CATCH_CFG_DOMAIN c.val)) + 1000 → t.get (TIM_CATCH_PERIOD_PERIOD c.val) = 0 →
         t.on (TIM_CATCH_CFG_ARM c.val) = false ∧ t.on (TIM_CATCH_STATUS_MISSED c.val) = true ∧ Emits 0x0604 c.val 0 s t) ∧
       RegsButE [TIM_CATCH_CFG c.val, TIM_CATCH_STATUS c.val] s t ∧ HostKeptE 2 s t) := by
  refine ⟨_, rfl, ?_⟩
  set m := s.catchTaken c.val (withBit value 1) with hm
  have hpins := write_catchArm s h hoff
  generalize s.write who (TIM_CATCH_CFG c.val) (withBit value 1) = t at hpins
  have htaken : TimeOnly (catchRegs c.val) s m := catchTaken_only s c.val _
  have harm : m.on (TIM_CATCH_CFG_ARM c.val) = true := (catchTaken_arm s c.val _).trans (bit_withBit value (by decide))
  obtain ⟨hregs, hhost, hdomain⟩ := catchArmed_frame m c
  have hsetup : ∀ a ∈ catchSetup c.val, t.rd a = m.rd a := fun a ha => (hpins.rd a).trans (catchArmed_setup m c a ha)
  rw [hpins.get, hdomain, ← htaken.domNs, catchLimits_congr hsetup, catchStart_congr hsetup, catchPeriod_congr hsetup,
    hpins.on, hpins.on, hpins.on, hpins.tim]
  refine ⟨fun hlimits => ?_, fun hlimits hahead => catchArmed_of_ahead m hlimits hahead harm, fun hlimits hpast honce => ?_, ?_, ?_⟩
  · obtain ⟨herr, hoff', hnext⟩ := catchIllegal_effect m c.val
    rw [catchArmed_of_illegal m c.val hlimits]
    exact ⟨herr, hoff', hnext.trans (catchTaken_next s c.val _)⟩
  · obtain ⟨hoff', hmissed, hemits⟩ := catchMiss_effect m c
    rw [catchArmed_of_limits m _ hlimits, catchSeek_of_past m _ hpast honce] at hpins ⊢
    refine ⟨hoff', hmissed, ?_⟩
    have := htaken.emits hemits
    unfold Emits at this ⊢
    rwa [hpins.cox]
  · exact fun a ha he => ((hpins.rd a).trans (hregs a ha he)).trans (htaken.regs a ha)
  · exact fun a ha => (hpins.hostKept a).trans ((htaken.hostKeptE (catchRegs_inTime c) hhost) a ha)

/-- CATCH_DISARM. -/
theorem catchDisarm_row (h : s.takesWrite who (TIM_CATCH_CFG c.val) (noBit value 1)) (hon : s.on (TIM_CATCH_CFG_ARM c.val) = true) :
    ∃ t, exec (.catchDisarm who c value) s = .next t ∧
      (t.on (TIM_CATCH_CFG_ARM c.val) = false ∧ SMap.find t.tim.catchNext c.val = none ∧
       (t.on (TIM_CATCH_CFG_EN c.val) = true → SMap.get t.tim.catchPulse false c.val = SMap.get s.tim.catchPulse false c.val) ∧
       RegsBut [TIM_CATCH_CFG c.val, TIM_CATCH_STATUS c.val] s t ∧ HostKept s t) := by
  refine ⟨_, rfl, ?_⟩
  have hpins := write_catchDisarm s h hon
  generalize s.write who (TIM_CATCH_CFG c.val) (noBit value 1) = t at hpins
  have hdropped := (catchTaken_only s c.val (noBit value 1)).trans (catchDropped_only _ c.val _)
  have hen : t.on (TIM_CATCH_CFG_EN c.val) = (s.catchStored c.val (noBit value 1)).on (TIM_CATCH_CFG_EN c.val) := by
    rw [hpins.on, State.on, State.catchDropped, State.tset_get, State.catchTaken,
      get_of_word (f := TIM_CATCH_CFG_EN c.val) rfl (catchMuted_cfg _ c.val), State.on]
  rw [hen, hpins.on, hpins.tim]
  refine ⟨(catchTaken_arm s c.val _).trans (bit_noBit value (by decide)), SMap.find_erase_same .., fun hen' => ?_,
    fun a ha => (hpins.rd a).trans (hdropped.regs a ha), fun a => (hpins.hostKept a).trans (hdropped.hostKept a)⟩
  rw [State.catchTaken, catchMuted_of_on _ _ hen']
  rfl

end

/-! ### The rows CATCH_EDGE and CATCH_PULSE_END -/

theorem on_put_same (s : State) {f : Fld} (hf : f.lo + f.w ≤ 64) (hw : f.w = 1) (b : Bool) : (s.put f b).on f = b := by
  rw [State.on, put_eq_set, get_set_same s f _ hf, hw]
  cases b <;> rfl

section
variable (s : State) (c : Nat)

/-- A Catch leaves all but the registers, the Time unit and the pin of the outputs. -/
def CatchPinOnly (s t : State) : Prop :=
  { t with regs := s.regs, tim := s.tim, pins := { t.pins with catchHigh := s.pins.catchHigh } } = s

theorem CatchPinOnly.set {s t : State} (h : CatchPinOnly s t) (f : Fld) (v : Nat) : CatchPinOnly s (t.set f v) :=
  (congrArg (fun x : State => ({ x with regs := s.regs, tim := s.tim, pins := { x.pins with catchHigh := s.pins.catchHigh } } : State))
    (set_rest t f v) :).trans h

theorem CatchPinOnly.of_tset {s t : State} {g : TimeUnit → TimeUnit} (h : CatchPinOnly (s.tset g) t) : CatchPinOnly s t :=
  (congrArg (fun x : State => ({ x with tim := s.tim } : State)) h :)

theorem CatchPinOnly.timeSeen {s t : State} (h : CatchPinOnly s t) : CatchPinOnly s t.timeSeen := h

@[simp] theorem State.timeSeen_next : s.timeSeen.tim.catchNext = s.tim.catchNext := rfl
@[simp] theorem State.timeSeen_pulse : s.timeSeen.tim.catchPulse = s.tim.catchPulse := rfl
@[simp] theorem State.timeSeen_pins : s.timeSeen.pins = s.pins := rfl

theorem catchDrive_rest (active : Bool) : CatchPinOnly s (s.catchDrive c active) :=
  (congrArg (fun x : State => ({ x with tim := s.tim } : State))
    (set_rest s (TIM_CATCH_STATUS_ACTIVE c) (if active && s.on (TIM_CATCH_CFG_EN c) then 1 else 0)) :)

theorem catchDrive_pulse (active : Bool) : SMap.get (s.catchDrive c active).tim.catchPulse false c = active :=
  SMap.get_put_same _ false c active

theorem catchDrive_next (active : Bool) : (s.catchDrive c active).tim.catchNext = s.tim.catchNext :=
  (congrArg TimeUnit.catchNext (State.put_tim s (TIM_CATCH_STATUS_ACTIVE c) (active && s.on (TIM_CATCH_CFG_EN c))) :)

theorem catchDrive_active (active : Bool) :
    (s.catchDrive c active).on (TIM_CATCH_STATUS_ACTIVE c) = (active && s.on (TIM_CATCH_CFG_EN c)) :=
  on_put_same s (f := TIM_CATCH_STATUS_ACTIVE c) (by decide : 1 ≤ 64) rfl _

theorem catchDrive_regs (active : Bool) : RegsBut [TIM_CATCH_STATUS c] s (s.catchDrive c active) :=
  (RegsBut.refl _ s).set (TIM_CATCH_STATUS_ACTIVE c) _ rfl List.mem_cons_self

theorem bit_catchPin (t : State) : bit (t.catchPin c).pins.catchHigh c =
    (t.on (TIM_CATCH_CFG_EN c) && (t.on (TIM_CATCH_STATUS_ACTIVE c) != t.on (TIM_CATCH_CFG_INVERT c))) := by
  have hbit := bits_setBits_same t.pins.catchHigh c 1
  simp only [bits, pow_one] at hbit
  simp only [State.catchPin, bit, hbit]
  split <;> simp_all

/-- The pin of a driven output (R279). -/
theorem catchDrive_pin (active : Bool) : bit (s.catchDrive c active).pins.catchHigh c =
    (s.on (TIM_CATCH_CFG_EN c) && (active != s.on (TIM_CATCH_CFG_INVERT c))) := by
  have hset : ∀ f : Fld, f.words = [TIM_CATCH_CFG c] → (s.put (TIM_CATCH_STATUS_ACTIVE c) (active && s.on (TIM_CATCH_CFG_EN c))).on f = s.on f :=
    fun f hf => by
      rw [State.on, put_eq_set, get_of_word hf (rd_cfg_set_status s c (TIM_CATCH_STATUS_ACTIVE c) _ rfl), State.on]
  rw [State.catchDrive, bit_catchPin, State.tset_on, State.tset_on, State.tset_on, hset (TIM_CATCH_CFG_EN c) rfl,
    hset (TIM_CATCH_CFG_INVERT c) rfl,
    on_put_same s (f := TIM_CATCH_STATUS_ACTIVE c) (by decide : 1 ≤ 64) rfl]
  cases s.on (TIM_CATCH_CFG_EN c) <;> simp

end

section
variable (s : State) {c : Fin 16}

/-- Edge `k` is taken off: the next one of a periodic Catch waits (R280). -/
def State.catchNexted (s : State) (c k : Nat) : State :=
  let once := s.get (TIM_CATCH_PERIOD_PERIOD c) == 0
  s.tset fun t => { t with catchNext := if once then SMap.erase t.catchNext c else SMap.insert t.catchNext c (k + 1) }

theorem catchNexted_next (c k : Nat) : SMap.find (s.catchNexted c k).tim.catchNext c =
    if s.get (TIM_CATCH_PERIOD_PERIOD c) = 0 then none else some (k + 1) := by
  by_cases honce : s.get (TIM_CATCH_PERIOD_PERIOD c) = 0 <;> simp [State.catchNexted, honce]

/-- A due edge starts a pulse of the output, and counts. -/
def State.catchPulsed (s : State) (c : Nat) : State := ((s.catchDrive c true).incWrap (TIM_CATCH_PULSES_COUNT c)).timeSeen

theorem execCatchEdge_due {k : Nat} (hnext : SMap.find s.tim.catchNext c.val = some k) (hup : s.up .time = true)
    (hen : s.domEn (s.get (TIM_CATCH_CFG_DOMAIN c.val)) = true) (harm : s.on (TIM_CATCH_CFG_ARM c.val) = true)
    (hdue : s.catchDue c.val k = true) : execCatchEdge c s = .next ((s.catchNexted c.val k).catchPulsed c.val) := by
  simp only [execCatchEdge, hnext, hup, hen, harm, hdue]
  exact if_neg Bool.false_ne_true

theorem pulses_ne_status (c : Nat) : TIM_CATCH_PULSES c ≠ TIM_CATCH_STATUS c := by
  rw [TIM_CATCH_PULSES, TIM_CATCH_STATUS]
  omega

theorem catchPulsed_next (c : Nat) : (s.catchPulsed c).tim.catchNext = s.tim.catchNext := by
  rw [State.catchPulsed, State.timeSeen_next, State.incWrap_tim, catchDrive_next]

theorem catchPulsed_pulse (c : Nat) : SMap.get (s.catchPulsed c).tim.catchPulse false c = true := by
  rw [State.catchPulsed, State.timeSeen_pulse, State.incWrap_tim, catchDrive_pulse]

theorem catchPulsed_active (c : Nat) : (s.catchPulsed c).on (TIM_CATCH_STATUS_ACTIVE c) = s.on (TIM_CATCH_CFG_EN c) := by
  rw [State.on, State.catchPulsed, State.timeSeen_get, State.incWrap, get_of_word (f := TIM_CATCH_STATUS_ACTIVE c) rfl
    (rd_set_ne _ (TIM_CATCH_PULSES_COUNT c) _ (List.mem_singleton.not.mpr (pulses_ne_status c).symm))]
  exact catchDrive_active s c true

theorem catchPulsed_count (c : Nat) :
    (s.catchPulsed c).get (TIM_CATCH_PULSES_COUNT c) = (s.get (TIM_CATCH_PULSES_COUNT c) + 1) % 2 ^ 32 := by
  have hpulses : (s.catchDrive c true).get (TIM_CATCH_PULSES_COUNT c) = s.get (TIM_CATCH_PULSES_COUNT c) :=
    get_of_word (f := TIM_CATCH_PULSES_COUNT c) rfl
      (catchDrive_regs s c true (TIM_CATCH_PULSES c) (List.mem_singleton.not.mpr (pulses_ne_status c)))
  rw [State.catchPulsed, State.timeSeen_get, State.incWrap, get_set_same _ (TIM_CATCH_PULSES_COUNT c) _ (by decide : 32 ≤ 64), hpulses]
  rfl

theorem catchPulsed_pin (c : Nat) : bit (s.catchPulsed c).pins.catchHigh c =
    (s.on (TIM_CATCH_CFG_EN c) && !s.on (TIM_CATCH_CFG_INVERT c)) := by
  rw [State.catchPulsed, State.timeSeen_pins, State.incWrap_pins, catchDrive_pin, Bool.true_bne]

theorem catchPulsed_regs (c : Nat) : RegsBut [TIM_CATCH_STATUS c, TIM_CATCH_PULSES c] s (s.catchPulsed c) := by
  have hdriven : RegsBut [TIM_CATCH_STATUS c, TIM_CATCH_PULSES c] s (s.catchDrive c true) := fun a ha =>
    catchDrive_regs s c true a fun h => ha (List.mem_singleton.mp h ▸ List.mem_cons_self)
  rw [State.catchPulsed, State.incWrap]
  exact timeSeen_regsBut s (hdriven.set (TIM_CATCH_PULSES_COUNT c) _ rfl (List.mem_cons_of_mem _ List.mem_cons_self))

theorem catchPulsed_rest (c : Nat) : CatchPinOnly s (s.catchPulsed c) := by
  rw [State.catchPulsed, State.incWrap]
  exact ((catchDrive_rest s c true).set (TIM_CATCH_PULSES_COUNT c) _).timeSeen

theorem catchEdge_row {k : Nat} (hnext : SMap.find s.tim.catchNext c.val = some k) (hup : s.up .time = true)
    (hen : s.domEn (s.get (TIM_CATCH_CFG_DOMAIN c.val)) = true) (harm : s.on (TIM_CATCH_CFG_ARM c.val) = true)
    (hdue : s.catchDue c.val k = true) :
    ∃ t, exec (.catchEdge c) s = .next t ∧
      (SMap.find t.tim.catchNext c.val = (if s.get (TIM_CATCH_PERIOD_PERIOD c.val) = 0 then none else some (k + 1)) ∧ SMap.get t.tim.catchPulse false c.val = true ∧
       t.on (TIM_CATCH_STATUS_ACTIVE c.val) = s.on (TIM_CATCH_CFG_EN c.val) ∧
       t.get (TIM_CATCH_PULSES_COUNT c.val) = (s.get (TIM_CATCH_PULSES_COUNT c.val) + 1) % 2 ^ 32 ∧
       bit t.pins.catchHigh c.val = (s.on (TIM_CATCH_CFG_EN c.val) && !s.on (TIM_CATCH_CFG_INVERT c.val)) ∧
       RegsBut [TIM_CATCH_STATUS c.val, TIM_CATCH_PULSES c.val] s t ∧ { t with regs := s.regs, tim := s.tim, pins := { t.pins with catchHigh := s.pins.catchHigh } } = s) :=
  let m := s.catchNexted c.val k
  ⟨m.catchPulsed c.val, execCatchEdge_due s hnext hup hen harm hdue,
    (catchPulsed_next m c.val).symm ▸ catchNexted_next s c.val k, catchPulsed_pulse m c.val,
    catchPulsed_active m c.val, catchPulsed_count m c.val, catchPulsed_pin m c.val, catchPulsed_regs m c.val,
    (catchPulsed_rest m c.val).of_tset⟩

theorem catchPulseEnd_row (hup : s.up .time = true) (hpulse : SMap.get s.tim.catchPulse false c.val = true) :
    ∃ t, exec (.catchPulseEnd c) s = .next t ∧
      (SMap.get t.tim.catchPulse false c.val = false ∧ t.on (TIM_CATCH_STATUS_ACTIVE c.val) = false ∧
       bit t.pins.catchHigh c.val = (s.on (TIM_CATCH_CFG_EN c.val) && s.on (TIM_CATCH_CFG_INVERT c.val)) ∧
       RegsBut [TIM_CATCH_STATUS c.val] s t ∧ { t with regs := s.regs, tim := s.tim, pins := { t.pins with catchHigh := s.pins.catchHigh } } = s) := by
  have hexec : exec (.catchPulseEnd c) s = .next (s.catchDrive c.val false) :=
    congrArg Host.Outcome.next (if_pos (by rw [hup, hpulse]; rfl))
  refine ⟨_, hexec, catchDrive_pulse .., catchDrive_active .., ?_, catchDrive_regs s c.val false, catchDrive_rest ..⟩
  rw [catchDrive_pin, Bool.false_bne]

end

end Sys2Proof.Machine
end

section
/-! PROOFS, family 08_network_time: Buoy inputs, snapshots and reads of the time (O21). -/
namespace Sys2Proof.Machine

/-! ### Changes of the registers of the Time island alone -/

/-- A field whose words are apart from those of another keeps its value. -/
theorem get_set_words (s : State) (f g : Fld) (v : Nat) (h : ∀ a ∈ g.words, a ∉ f.words) : (s.set f v).get g = s.get g :=
  get_congr g fun a ha => rd_set_ne s f v (h a ha)

/-- `t` is `s` but for the words of a list. -/
structure RegsOnly (l : List Nat) (s t : State) : Prop where
  rest : { t with regs := s.regs } = s
  regs : RegsBut l s t

namespace RegsOnly
variable {l : List Nat} {s t u : State}

theorem refl (l : List Nat) (s : State) : RegsOnly l s s := ⟨rfl, RegsBut.refl l s⟩

theorem trans (h : RegsOnly l s t) (g : RegsOnly l t u) : RegsOnly l s u where
  rest := (congrArg (fun x : State => ({ x with regs := s.regs } : State)) g.rest :).trans h.rest
  regs := h.regs.trans g.regs

theorem set (h : RegsOnly l s t) (f : Fld) (v : Nat) (hf : ∀ a ∈ f.words, a ∈ l) : RegsOnly l s (t.set f v) :=
  h.trans ⟨set_rest t f v, fun _ ha => rd_set_ne t f v fun hm => ha (hf _ hm)⟩

theorem wr (h : RegsOnly l s t) {a : Nat} (v : Word) (ha : a ∈ l) : RegsOnly l s (t.wr a v) :=
  h.trans ⟨rfl, fun _ hb => rd_wr_ne t v fun e => hb (e ▸ ha)⟩

/-- A word that takes its own value leaves every word. -/
theorem wr_rd (h : RegsOnly l s t) (a : Nat) : RegsOnly l s (t.wr a (t.rd a)) :=
  h.trans ⟨rfl, fun b _ => by
    rw [rd_wr]
    split
    · next e => rw [e]
    · rfl⟩

theorem mono (h : RegsOnly l s t) {l' : List Nat} (hl : ∀ a ∈ l, a ∈ l') : RegsOnly l' s t :=
  ⟨h.rest, fun a ha => h.regs a fun hm => ha (hl a hm)⟩

theorem tim (h : RegsOnly l s t) : t.tim = s.tim := (congrArg State.tim h.rest :)

theorem domNs (h : RegsOnly l s t) (d : Nat) : t.domNs d = s.domNs d := by
  rw [State.domNs, State.domTime, h.tim, State.domNs, State.domTime]

theorem timeOnly (h : RegsOnly l s t) : TimeOnly l s t where
  rest := (congrArg (fun x : State => ({ x with tim := s.tim, pins := s.pins } : State)) h.rest :)
  now := congrArg TimeUnit.now h.tim
  regs := h.regs

end RegsOnly

/-! ### The FIFO of a Buoy (R282) -/

/-- The words that a Buoy shows its FIFO in. -/
def buoyRegs (b : Nat) : List Nat :=
  [TIM_BUOY_STATUS b, TIM_BUOY_HEAD_NS b, TIM_BUOY_HEAD_FRAC b, TIM_BUOY_HEAD_SEC b, TIM_BUOY_HEAD_SEC b + 4]

theorem buoyRegs_inTime (b : Fin 16) : ∀ a ∈ buoyRegs b.val, inTime a = true := by
  revert b
  decide

section
variable (s : State) (b : Nat)

theorem showBuoy_only : RegsOnly (buoyRegs b) s (s.showBuoy b) :=
  ((((RegsOnly.refl (buoyRegs b) s).set (TIM_BUOY_STATUS_LEVEL b) _ (by simp [buoyRegs, Fld.words, TIM_BUOY_STATUS_LEVEL])).wr _
    (by simp [buoyRegs])).set (TIM_BUOY_HEAD_FRAC_FRAC b) _ (by simp [buoyRegs, Fld.words, TIM_BUOY_HEAD_FRAC_FRAC])).set
    (TIM_BUOY_HEAD_SEC_SEC b) _ (by simp [buoyRegs, Fld.words, TIM_BUOY_HEAD_SEC_SEC])

/-- The words of the head are apart from that of the level. -/
theorem showBuoy_status : (s.showBuoy b).rd (TIM_BUOY_STATUS b) =
    (s.set (TIM_BUOY_STATUS_LEVEL b) (SMap.get s.tim.buoyFifo [] b).length).rd (TIM_BUOY_STATUS b) := by
  rw [State.showBuoy, rd_set_ne _ (TIM_BUOY_HEAD_SEC_SEC b), rd_set_ne _ (TIM_BUOY_HEAD_FRAC_FRAC b), rd_wr_ne]
  all_goals simp [Fld.words, TIM_BUOY_STATUS, TIM_BUOY_HEAD_NS, TIM_BUOY_HEAD_FRAC, TIM_BUOY_HEAD_FRAC_FRAC, TIM_BUOY_HEAD_SEC,
    TIM_BUOY_HEAD_SEC_SEC]
  all_goals omega

theorem showBuoy_level : (s.showBuoy b).get (TIM_BUOY_STATUS_LEVEL b) =
    (SMap.get s.tim.buoyFifo [] b).length % 2 ^ (TIM_BUOY_STATUS_LEVEL b).w := by
  rw [get_of_word (f := TIM_BUOY_STATUS_LEVEL b) rfl (showBuoy_status s b),
    get_set_same s (TIM_BUOY_STATUS_LEVEL b) _ (by decide : 4 ≤ 64)]

theorem showBuoy_pin : (s.showBuoy b).on (TIM_BUOY_STATUS_PIN b) = s.on (TIM_BUOY_STATUS_PIN b) := by
  have hapart : (TIM_BUOY_STATUS_PIN b).apart (TIM_BUOY_STATUS_LEVEL b) := apart_of_end_le rfl (by decide : 4 ≤ 5) (by decide : 6 ≤ 32)
  rw [State.on, get_of_word (f := TIM_BUOY_STATUS_PIN b) rfl (showBuoy_status s b), get_set_apart _ _ _ _ hapart, State.on]

end

/-! ### The row BUOY_POP -/

/-- TIM_BUOY_POP as the map defines it. -/
def buoyPopDef : RegDef := ⟨.TIM_BUOY_POP, 0xD02018, [(0x40, 16)], 1, .time, false, false, 0x0, [⟨0, 0, .wo, []⟩]⟩

theorem regAt_buoyPop (b : Fin 16) : regAt (TIM_BUOY_POP b.val) = some (buoyPopDef, [b.val], 0) := by
  revert b
  decide +kernel

theorem regHook_buoyPop (s : State) (b w old v k : Nat) {act : Nat} (h : bit act 0 = true) :
    s.regHook .TIM_BUOY_POP b w old v ⟨k, act, []⟩ = s.buoyPop b :=
  if_pos h

/-- The FIFO of a Buoy has another content, not shown yet. -/
def State.buoyHolds (s : State) (b : Nat) (q : List Capture) : State :=
  s.tset fun t => { t with buoyFifo := SMap.put t.buoyFifo [] b q }

theorem buoyHolds_only (s : State) (b : Nat) (q : List Capture) (l : List Nat) : TimeOnly l s (s.buoyHolds b q) :=
  (TimeOnly.refl l s).tset (fun t => { t with buoyFifo := SMap.put t.buoyFifo [] b q }) rfl

@[simp] theorem State.buoyHolds_fifo (s : State) (b : Nat) (q : List Capture) : SMap.get (s.buoyHolds b q).tim.buoyFifo [] b = q :=
  SMap.get_put_same ..

theorem buoyPop_eq (s : State) (b : Nat) :
    s.buoyPop b = (s.buoyHolds b ((SMap.get s.tim.buoyFifo [] b).drop 1)).showBuoy b := rfl

theorem buoyPop_only (s : State) (b : Nat) : TimeOnly (buoyRegs b) s (s.buoyPop b) := by
  rw [buoyPop_eq]
  exact (buoyHolds_only s b _ _).trans (showBuoy_only _ b).timeOnly

theorem buoyPop_fifo (s : State) (b : Nat) :
    SMap.get (s.buoyPop b).tim.buoyFifo [] b = (SMap.get s.tim.buoyFifo [] b).drop 1 := by
  rw [buoyPop_eq, (showBuoy_only _ b).tim, State.buoyHolds_fifo]

theorem buoyPop_level (s : State) (b : Nat) : (s.buoyPop b).get (TIM_BUOY_STATUS_LEVEL b) =
    ((SMap.get s.tim.buoyFifo [] b).drop 1).length % 2 ^ (TIM_BUOY_STATUS_LEVEL b).w := by
  rw [buoyPop_eq, showBuoy_level, State.buoyHolds_fifo]

theorem RegsOnly.buoyFifo_rest {l : List Nat} {s t : State} {b : Nat} {q : List Capture} (h : RegsOnly l (s.buoyHolds b q) t) :
    { t with regs := s.regs, tim := { t.tim with buoyFifo := s.tim.buoyFifo } } = s :=
  (congrArg (fun x : State => ({ x with tim := { x.tim with buoyFifo := s.tim.buoyFifo } } : State)) h.rest :)

theorem buoyPop_rest (s : State) (b : Nat) :
    { s.buoyPop b with regs := s.regs, tim := { (s.buoyPop b).tim with buoyFifo := s.tim.buoyFifo } } = s := by
  rw [buoyPop_eq]
  exact (showBuoy_only _ b).buoyFifo_rest

/-- A write of TIM_BUOY_POP keeps no word: the head leaves. -/
theorem write_buoyPop (s : State) {who : Initiator} {b : Fin 16} (h : s.takesWrite who (TIM_BUOY_POP b.val) 1) :
    s.write who (TIM_BUOY_POP b.val) 1 = (s.wr (TIM_BUOY_POP b.val) (s.rd (TIM_BUOY_POP b.val))).buoyPop b.val := by
  have htaken := write_takes s 1 (regAt_buoyPop b) (by rw [TIM_BUOY_POP]; omega) (by rw [TIM_BUOY_POP]; omega) h
  rw [storedValue_of_no_stored (by decide) (by decide)] at htaken
  have honly := ((RegsOnly.refl (buoyRegs b.val) s).wr_rd (TIM_BUOY_POP b.val)).timeOnly.trans (buoyPop_only _ b.val)
  exact (htaken.trans (congrArg s.holdFaultN (regHook_buoyPop _ _ _ _ _ _ (by decide)))).trans (honly.holdFaultN (buoyRegs_inTime b))

theorem buoyPop_row (s : State) {who : Initiator} {b : Fin 16} (h : s.takesWrite who (TIM_BUOY_POP b.val) 1) :
    ∃ t, exec (.buoyPop who b) s = .next t ∧
      (SMap.get t.tim.buoyFifo [] b.val = (SMap.get s.tim.buoyFifo [] b.val).drop 1 ∧
       t.get (TIM_BUOY_STATUS_LEVEL b.val) = ((SMap.get s.tim.buoyFifo [] b.val).drop 1).length % 2 ^ (TIM_BUOY_STATUS_LEVEL b.val).w ∧
       RegsBut [TIM_BUOY_STATUS b.val, TIM_BUOY_HEAD_NS b.val, TIM_BUOY_HEAD_FRAC b.val, TIM_BUOY_HEAD_SEC b.val, TIM_BUOY_HEAD_SEC b.val + 4] s t ∧
       { t with regs := s.regs, tim := { t.tim with buoyFifo := s.tim.buoyFifo } } = s) := by
  have hsame := (RegsOnly.refl (buoyRegs b.val) s).wr_rd (TIM_BUOY_POP b.val)
  set m := s.wr (TIM_BUOY_POP b.val) (s.rd (TIM_BUOY_POP b.val))
  have hrest : { m.buoyPop b.val with regs := s.regs, tim := { (m.buoyPop b.val).tim with buoyFifo := m.tim.buoyFifo } } = s :=
    (congrArg (fun x : State => ({ x with regs := s.regs } : State)) (buoyPop_rest m b.val) :).trans hsame.rest
  rw [hsame.tim] at hrest
  have hfifo := buoyPop_fifo m b.val
  have hlevel := buoyPop_level m b.val
  rw [hsame.tim] at hfifo hlevel
  exact ⟨m.buoyPop b.val, congrArg Host.Outcome.next (write_buoyPop s h), hfifo, hlevel,
    hsame.regs.trans (buoyPop_only m b.val).regs, hrest⟩

/-! ### The row SNAPSHOT_CAPTURE (R291) -/

/-- TIM_SNAP_CTRL as the map defines it. -/
def snapCtrlDef : RegDef :=
  ⟨.TIM_SNAP_CTRL, 0xD00800, [], 1, .time, false, false, 0x0, [⟨1, 1, .ro, []⟩, ⟨0, 0, .wo, []⟩]⟩

theorem regAt_snapCtrl : regAt TIM_SNAP_CTRL = some (snapCtrlDef, [], 0) := by decide +kernel

/-- The snapshot stores the time of domain `d`. -/
def State.snapDom (s : State) (d : Nat) : State :=
  (s.set (TIM_SNAP_SEC_SEC d) (s.domNs d / 10 ^ 9)).set (TIM_SNAP_NS_NS d) (s.domNs d % 10 ^ 9)

theorem snapshot_eq (s : State) :
    s.snapshot = (s.each ((List.range 4).filter s.domEn) State.snapDom).set TIM_SNAP_CTRL_DONE 1 := rfl

/-- The words that a snapshot of a domain is stored in. -/
def snapWords (d : Nat) : List Nat := [TIM_SNAP_SEC d, TIM_SNAP_SEC d + 4, TIM_SNAP_NS d]

/-- The stored snapshot of domain `d` holds a time in ns. -/
def State.snapShows (s : State) (d ns : Nat) : Prop :=
  s.get (TIM_SNAP_SEC_SEC d) = ns / 10 ^ 9 % 2 ^ (TIM_SNAP_SEC_SEC d).w ∧ s.get (TIM_SNAP_NS_NS d) = ns % 10 ^ 9

theorem snapSec_words (d : Nat) : (TIM_SNAP_SEC_SEC d).words = [TIM_SNAP_SEC d, TIM_SNAP_SEC d + 4] := rfl
theorem snapNs_words (d : Nat) : (TIM_SNAP_NS_NS d).words = [TIM_SNAP_NS d] := rfl

theorem snapDom_only (s : State) (d : Nat) : RegsOnly (snapWords d) s (s.snapDom d) :=
  ((RegsOnly.refl _ s).set (TIM_SNAP_SEC_SEC d) _ (by simp [snapSec_words, snapWords])).set (TIM_SNAP_NS_NS d) _
    (by simp [snapNs_words, snapWords])

theorem snapDom_shows (s : State) (d : Nat) : (s.snapDom d).snapShows d (s.domNs d) := by
  constructor
  · rw [State.snapDom, get_set_words _ (TIM_SNAP_NS_NS d) (TIM_SNAP_SEC_SEC d) _ (by simp [snapSec_words, snapNs_words, TIM_SNAP_SEC, TIM_SNAP_NS]; omega),
      get_set_same _ (TIM_SNAP_SEC_SEC d) _ (by decide : 48 ≤ 64)]
  · rw [State.snapDom, get_set_same _ (TIM_SNAP_NS_NS d) _ (by decide : 30 ≤ 64)]
    exact Nat.mod_eq_of_lt ((Nat.mod_lt _ (by decide)).trans (by decide : 10 ^ 9 < 2 ^ 30))

theorem State.snapShows_congr {s t : State} {d ns : Nat} (h : ∀ a ∈ snapWords d, t.rd a = s.rd a) (hs : s.snapShows d ns) :
    t.snapShows d ns := by
  obtain ⟨hsec, hns⟩ := hs
  exact ⟨(get_congr _ fun a ha => h a (by simp [snapSec_words] at ha; simp [snapWords]; tauto)).trans hsec,
    (get_congr _ fun a ha => h a (by simp [snapNs_words] at ha; simp [snapWords, ha])).trans hns⟩

theorem snapWords_apart {d e : Nat} (h : d ≠ e) : ∀ a ∈ snapWords d, a ∉ snapWords e := by
  simp only [snapWords, TIM_SNAP_SEC, TIM_SNAP_NS, List.mem_cons, List.not_mem_nil, or_false]
  omega

/-- Every domain of a list is stored in turn. -/
theorem each_snapDom (s : State) (l : List Nat) :
    RegsOnly (l.flatMap snapWords) s (s.each l State.snapDom) ∧ ∀ d ∈ l, (s.each l State.snapDom).snapShows d (s.domNs d) := by
  induction l using List.reverseRecOn with
  | nil => exact ⟨RegsOnly.refl _ s, fun d hd => absurd hd List.not_mem_nil⟩
  | append_singleton l e ih =>
    obtain ⟨honly, hshown⟩ := ih
    have hstep : s.each (l ++ [e]) State.snapDom = (s.each l State.snapDom).snapDom e := by
      simp only [State.each, List.foldl_append, List.foldl_cons, List.foldl_nil]
    rw [hstep]
    have hwords : (l ++ [e]).flatMap snapWords = l.flatMap snapWords ++ snapWords e := by simp
    refine ⟨hwords ▸ (honly.mono fun _ => List.mem_append_left _).trans ((snapDom_only _ e).mono fun _ => List.mem_append_right _),
      fun d hd => ?_⟩
    by_cases he : d = e
    · subst he
      exact honly.domNs d ▸ snapDom_shows _ d
    · have hl : d ∈ l := by simpa [he] using hd
      exact State.snapShows_congr (fun a ha => (snapDom_only _ e).regs a (snapWords_apart he a ha)) (hshown d hl)

/-- The words that a snapshot is stored in. -/
def snapRegs : List Nat := TIM_SNAP_CTRL :: (List.range 4).flatMap snapWords

theorem snapRegs_inTime : ∀ a ∈ snapRegs, inTime a = true := by decide

theorem enabled_snapWords (s : State) : ∀ a ∈ ((List.range 4).filter s.domEn).flatMap snapWords, a ∈ snapRegs := fun a ha => by
  obtain ⟨d, hd, had⟩ := List.mem_flatMap.mp ha
  exact List.mem_cons_of_mem _ (List.mem_flatMap.mpr ⟨d, List.mem_of_mem_filter hd, had⟩)

theorem snapshot_only (s : State) : RegsOnly snapRegs s s.snapshot := by
  rw [snapshot_eq]
  exact ((each_snapDom s _).1.mono (enabled_snapWords s)).set TIM_SNAP_CTRL_DONE 1 (by decide)

theorem snapshot_done (s : State) : s.snapshot.on TIM_SNAP_CTRL_DONE = true := by
  rw [snapshot_eq, State.on, get_set_same _ TIM_SNAP_CTRL_DONE 1 (by decide)]
  rfl

theorem snapshot_shows (s : State) {d : Nat} (hd : d < 4) (hen : s.domEn d = true) : s.snapshot.snapShows d (s.domNs d) := by
  have hshown := (each_snapDom s ((List.range 4).filter s.domEn)).2 d (List.mem_filter.mpr ⟨List.mem_range.mpr hd, hen⟩)
  rw [snapshot_eq]
  refine State.snapShows_congr (fun a ha => rd_set_ne _ TIM_SNAP_CTRL_DONE 1 ?_) hshown
  simp only [snapWords, TIM_SNAP_SEC, TIM_SNAP_NS, List.mem_cons, List.not_mem_nil, or_false] at ha
  simp only [TIM_SNAP_CTRL_DONE, Fld.words, TIM_SNAP_CTRL]
  simp
  omega

theorem regHook_snapCtrl (s : State) (i w old v k : Nat) {act : Nat} (h : bit act 0 = true) :
    s.regHook .TIM_SNAP_CTRL i w old v ⟨k, act, []⟩ = s.snapshot :=
  if_pos h

/-- A write of TIM_SNAP_CTRL keeps no word: the snapshot is taken. -/
theorem write_snapCtrl (s : State) {who : Initiator} (h : s.takesWrite who TIM_SNAP_CTRL 1) :
    s.write who TIM_SNAP_CTRL 1 = (s.wr TIM_SNAP_CTRL (s.rd TIM_SNAP_CTRL)).snapshot := by
  have htaken := write_takes s 1 regAt_snapCtrl (by decide) (by decide) h
  rw [storedValue_of_no_stored (by decide) (by decide)] at htaken
  have honly := ((RegsOnly.refl snapRegs s).wr_rd TIM_SNAP_CTRL).trans (snapshot_only _)
  exact (htaken.trans (congrArg s.holdFaultN (regHook_snapCtrl _ _ _ _ _ _ (by decide)))).trans
    (honly.timeOnly.holdFaultN snapRegs_inTime)

theorem RegsOnly.domEn {s t : State} (h : RegsOnly [] s t) (d : Nat) : t.domEn d = s.domEn d := by
  rw [State.domEn, State.on, get_congr _ fun a _ => h.regs a List.not_mem_nil, State.domEn, State.on]

theorem snapshotCapture_row (s : State) {who : Initiator} (h : s.takesWrite who TIM_SNAP_CTRL 1) :
    ∃ t, exec (.snapshotCapture who) s = .next t ∧
      (t.on TIM_SNAP_CTRL_DONE = true ∧ ((List.range 4).all fun d => !s.domEn d ||
         (t.get (TIM_SNAP_SEC_SEC d) == s.domNs d / 10 ^ 9 % 2 ^ (TIM_SNAP_SEC_SEC d).w && t.get (TIM_SNAP_NS_NS d) == s.domNs d % 10 ^ 9)) = true ∧
       RegsBut (TIM_SNAP_CTRL :: (List.range 4).flatMap fun d => [TIM_SNAP_SEC d, TIM_SNAP_SEC d + 4, TIM_SNAP_NS d]) s t ∧ { t with regs := s.regs } = s) := by
  have hsame : RegsOnly [] s (s.wr TIM_SNAP_CTRL (s.rd TIM_SNAP_CTRL)) := (RegsOnly.refl [] s).wr_rd TIM_SNAP_CTRL
  have hall := (hsame.mono fun a ha => absurd ha List.not_mem_nil).trans (snapshot_only _)
  refine ⟨_, congrArg Host.Outcome.next (write_snapCtrl s h), snapshot_done _, ?_, hall.regs, hall.rest⟩
  refine List.all_eq_true.mpr fun d hd => ?_
  cases hen : s.domEn d with
  | false => rfl
  | true =>
    obtain ⟨hsec, hns⟩ := snapshot_shows _ (List.mem_range.mp hd) ((hsame.domEn d).trans hen)
    rw [hsame.domNs] at hsec hns
    simp [hsec, hns]

/-! ### The row TIME_NOW_READ (R258) -/

/-- TIM_NOW_NS as the map defines it. -/
def timNowDef : RegDef := ⟨.TIM_NOW_NS, 0xD00010, [(0x100, 4)], 1, .time, false, false, 0x0, [⟨29, 0, .ro, []⟩]⟩

theorem regAt_timNow (d : Fin 4) : regAt (TIM_NOW_NS d.val) = some (timNowDef, [d.val], 0) := by
  revert d
  decide +kernel

theorem msixAt_timNow (d : Fin 4) : msixAt (TIM_NOW_NS d.val) = none := by
  revert d
  decide

/-- A read of TIM_NOW_NS holds the fraction and the seconds of its instant. -/
def State.nowLatched (s : State) (d : Nat) : State :=
  (s.set (TIM_NOW_FRAC_FRAC d) (s.domTime d / 2 ^ 12 % 65536)).set (TIM_NOW_SEC_SEC d) (s.domNs d / 10 ^ 9)

theorem nowFrac_words (d : Nat) : (TIM_NOW_FRAC_FRAC d).words = [TIM_NOW_FRAC d] := rfl
theorem nowSec_words (d : Nat) : (TIM_NOW_SEC_SEC d).words = [TIM_NOW_SEC d, TIM_NOW_SEC d + 4] := rfl

theorem nowLatched_only (s : State) (d : Nat) : RegsOnly [TIM_NOW_FRAC d, TIM_NOW_SEC d, TIM_NOW_SEC d + 4] s (s.nowLatched d) :=
  ((RegsOnly.refl _ s).set (TIM_NOW_FRAC_FRAC d) _ (by simp [nowFrac_words])).set (TIM_NOW_SEC_SEC d) _ (by simp [nowSec_words])

theorem nowLatched_frac (s : State) (d : Nat) :
    (s.nowLatched d).get (TIM_NOW_FRAC_FRAC d) = s.domTime d / 2 ^ 12 % 65536 := by
  rw [State.nowLatched, get_set_words _ (TIM_NOW_SEC_SEC d) (TIM_NOW_FRAC_FRAC d) _
    (by simp [nowFrac_words, nowSec_words, TIM_NOW_FRAC, TIM_NOW_SEC]; omega), get_set_same _ (TIM_NOW_FRAC_FRAC d) _ (by decide : 16 ≤ 64)]
  exact Nat.mod_mod _ _

theorem nowLatched_sec (s : State) (d : Nat) :
    (s.nowLatched d).get (TIM_NOW_SEC_SEC d) = s.domNs d / 10 ^ 9 % 2 ^ (TIM_NOW_SEC_SEC d).w := by
  rw [State.nowLatched, get_set_same _ (TIM_NOW_SEC_SEC d) _ (by decide : 48 ≤ 64)]

theorem readEffect_timNow (s : State) (a d : Nat) : s.readEffect timNowDef a d 0 = s.nowLatched d := by
  have hrc : BitVec.ofNat 32 (accMask timNowDef 0 [.rc]) = 0 := by decide
  simp only [State.readEffect, hrc]
  simp only [timNowDef, if_true, State.nowLatched]

theorem regValue_timNow (s : State) (a d : Nat) : s.regValue .TIM_NOW_NS a d 0 = s.domNs d % 10 ^ 9 := by
  simp only [State.regValue]

theorem regGet_timNow (s : State) (a d : Nat) :
    s.regGet a timNowDef d 0 = (BitVec.ofNat 32 (s.domNs d % 10 ^ 9), s.nowLatched d) := by
  have hword : s.domNs d % 10 ^ 9 &&& (whole - accMask timNowDef 0 [.wo]) = s.domNs d % 10 ^ 9 := by
    rw [show whole - accMask timNowDef 0 [.wo] = 2 ^ 32 - 1 by decide, Nat.and_two_pow_sub_one_eq_mod]
    exact Nat.mod_eq_of_lt ((Nat.mod_lt _ (by decide)).trans (by decide : 10 ^ 9 < 2 ^ 32))
  have hreg : timNowDef.reg = .TIM_NOW_NS := rfl
  rw [State.regGet, readEffect_timNow]
  split
  · rw [hreg, if_neg (by decide), regValue_timNow, hword]
  · rw [hreg, regValue_timNow, hword]

theorem localRead_timNow (s : State) (who : Initiator) (d : Fin 4) (hup : s.up .time = true) :
    s.localRead who (TIM_NOW_NS d.val) = (BitVec.ofNat 32 (s.domNs d.val % 10 ^ 9), s.nowLatched d.val) := by
  have hup' : s.up timNowDef.island ([d.val].headD 0) = true := hup
  simp only [State.localRead, msixAt_timNow, regAt_timNow]
  rw [if_neg (by rw [hup']; decide), if_neg (by simp [timNowDef, State.applies])]
  exact regGet_timNow ..

theorem exec_timeNowRead (s : State) {who : Initiator} {d : Fin 4} (hwho : who ≠ .cfg) (hturned : s.hostTurned who = false)
    (hbus : s.busFree) (hup : s.up .time = true) : exec (.timeNowRead who d) s =
      .next { s.nowLatched d.val with readData := BitVec.ofNat 32 (s.domNs d.val % 10 ^ 9) } := by
  have hread := regRead_of_busFree s (who := who) hbus hwho hturned (a := TIM_NOW_NS d.val) (by unfold TIM_NOW_NS; omega)
  rw [localRead_timNow s who d hup] at hread
  exact congrArg Host.Outcome.next hread

theorem timeNowRead_row (s : State) {who : Initiator} {d : Fin 4} (hwho : who ≠ .cfg) (hturned : s.hostTurned who = false)
    (hbus : s.busFree) (hup : s.up .time = true) :
    ∃ t, exec (.timeNowRead who d) s = .next t ∧
      (t.readData = BitVec.ofNat 32 (s.domNs d.val % 10 ^ 9) ∧ t.get (TIM_NOW_FRAC_FRAC d.val) = s.domTime d.val / 2 ^ 12 % 65536 ∧
       t.get (TIM_NOW_SEC_SEC d.val) = s.domNs d.val / 10 ^ 9 % 2 ^ (TIM_NOW_SEC_SEC d.val).w ∧ t.tim.now = s.tim.now ∧ RegsOutE [(0xD00000, 0xD00400)] s t ∧ HostKept s t ∧
       { t with regs := s.regs, readData := s.readData, latch := s.latch } = s) := by
  have hexec := exec_timeNowRead s (d := d) hwho hturned hbus hup
  have honly := nowLatched_only s d.val
  have hfrac := nowLatched_frac s d.val
  have hsec := nowLatched_sec s d.val
  generalize s.nowLatched d.val = m at hexec honly hfrac hsec
  refine ⟨_, hexec, rfl, hfrac, hsec, congrArg TimeUnit.now honly.tim,
    fun a ha _ => honly.regs a ?_, fun a => congrArg (SMap.get · 0 a) (congrArg State.hostMem honly.rest :),
    (congrArg (fun x : State => ({ x with readData := s.readData, latch := s.latch } : State)) honly.rest :)⟩
  simp only [List.any_cons, List.any_nil, Bool.or_false, Bool.and_eq_false_iff, decide_eq_false_iff_not] at ha
  simp only [TIM_NOW_FRAC, TIM_NOW_SEC, List.mem_cons, List.not_mem_nil, or_false]
  omega

/-! ### What the recorder changes at a trigger (R158–R160) -/

/-- The words that the recorder and its injection point change. -/
def recordWord (a : Nat) : Bool := (0x1500000 ≤ a && a < 0x1600000) || (INJ_ARM 10 ≤ a && a < INJ_ARM 10 + 4)

theorem recordWord_eq_false {a : Nat} : recordWord a = false ↔
    ¬(0x1500000 ≤ a ∧ a < 0x1600000) ∧ ¬(INJ_ARM 10 ≤ a ∧ a < INJ_ARM 10 + 4) := by
  simp only [recordWord, Bool.or_eq_false_iff, ← Bool.decide_and, decide_eq_false_iff_not]

theorem recordWord_low {a : Nat} (h : a < 0x400000) : recordWord a = false := by
  rw [recordWord_eq_false, INJ_ARM]
  omega

/-- `t` is `s` but for the DRAM unit and the words of the recorder. -/
structure RecorderOnly (s t : State) : Prop where
  rest : { t with regs := s.regs, dram := s.dram } = s
  regs : ∀ a, recordWord a = false → t.rd a = s.rd a

namespace RecorderOnly
variable {s t u : State}

theorem refl (s : State) : RecorderOnly s s := ⟨rfl, fun _ _ => rfl⟩

theorem trans (h : RecorderOnly s t) (g : RecorderOnly t u) : RecorderOnly s u where
  rest := (congrArg (fun x : State => ({ x with regs := s.regs, dram := s.dram } : State)) g.rest :).trans h.rest
  regs a ha := (g.regs a ha).trans (h.regs a ha)

theorem set (h : RecorderOnly s t) (f : Fld) (v : Nat) (hf : ∀ a ∈ f.words, recordWord a = true) : RecorderOnly s (t.set f v) :=
  h.trans ⟨(congrArg (fun x : State => ({ x with dram := t.dram } : State)) (set_rest t f v) :),
    fun a ha => rd_set_ne t f v fun hm => by simp [hf a hm] at ha⟩

theorem dram (h : RecorderOnly s t) (d : DramUnit) : RecorderOnly s { t with dram := d } := h.trans ⟨rfl, fun _ _ => rfl⟩

theorem ite {c : Prop} [Decidable c] (h : RecorderOnly s t) (g : RecorderOnly s u) : RecorderOnly s (if c then t else u) := by
  split
  · exact h
  · exact g

theorem tim (h : RecorderOnly s t) : t.tim = s.tim := (congrArg State.tim h.rest :)
theorem hif (h : RecorderOnly s t) : t.hif = s.hif := (congrArg State.hif h.rest :)
theorem hostKept (h : RecorderOnly s t) : HostKept s t := fun a => congrArg (SMap.get · 0 a) (congrArg State.hostMem h.rest :)

/-- Where event records go does not depend on the recorder. -/
theorem eventArea (h : RecorderOnly s t) {n a : Nat} (ha : s.eventArea n a = false) : t.eventArea n a = false :=
  eventArea_of_low h.hif (fun b hb => h.regs b (recordWord_low hb)) ha

end RecorderOnly

theorem dramRaw_recorderOnly (l : List Byte) : ∀ (s : State) (a : Nat), RecorderOnly s (s.dramRaw a l) := by
  induction l with
  | nil => exact fun s _ => RecorderOnly.refl s
  | cons b l ih => exact fun s a => ((RecorderOnly.refl s).dram _).trans (ih _ (a + 1))

theorem dramTaken_recorderOnly (s : State) (a n : Nat) : RecorderOnly s (s.dramTaken a n) := by
  have harm : ∀ f ∈ [INJ_ARM_FIRED 10, INJ_ARM_ARM 10], ∀ w ∈ f.words, recordWord w = true := by decide
  unfold State.dramTaken
  exact .ite ((((RecorderOnly.refl s).dram _).set _ 1 (harm _ (by simp))).set _ 0 (harm _ (by simp)) |>.dram _)
    ((RecorderOnly.refl s).dram _)

theorem dramPut_recorderOnly (s : State) (a : Nat) (l : List Byte) : RecorderOnly s (s.dramPut a l) :=
  .ite (RecorderOnly.refl s) ((dramTaken_recorderOnly s a _).trans (dramRaw_recorderOnly l _ a))

/-- The fields of the recorder that a trigger changes. -/
def recorderFields : List Fld := [REC_HEAD_PAGE, REC_OLDEST_PAGE, REC_STATUS_WRAPPED, REC_STATUS_STATE, REC_STATUS_TRIG_SRC,
  REC_TRIG_SEC_SEC, REC_TRIG_NS_NS, REC_TRIG_PAGE_PAGE]

theorem recorderFields_words : ∀ f ∈ recorderFields, ∀ a ∈ f.words, recordWord a = true := by decide

theorem RecorderOnly.setField {s t : State} (h : RecorderOnly s t) {f : Fld} (v : Nat) (hf : f ∈ recorderFields) :
    RecorderOnly s (t.set f v) :=
  h.set f v (recorderFields_words f hf)

theorem openPage_recorderOnly (s : State) : RecorderOnly s s.openPage :=
  (RecorderOnly.ite ((RecorderOnly.refl s).setField _ (by decide)) (RecorderOnly.refl s)).dram _

theorem writePage_recorderOnly (s : State) (trigger last : Bool) : RecorderOnly s (s.writePage trigger last) := by
  have hput := dramPut_recorderOnly s (s.pageAddr (s.get REC_HEAD_PAGE))
    (s.pageHeader trigger last ++ beBytes 4 (s.pageCrc (s.pageHeader trigger last)))
  have hhead := fun v => hput.setField (f := REC_HEAD_PAGE) v (by decide)
  have hwrapped := fun v => RecorderOnly.ite (c := s.get REC_HEAD_PAGE = 0 && decide (s.dram.seq ≥ s.get REC_PAGES_PAGES))
    ((hhead v).setField (f := REC_STATUS_WRAPPED) 1 (by decide)) (hhead v)
  exact (RecorderOnly.ite ((hwrapped _).setField (f := REC_OLDEST_PAGE) _ (by decide)) (hwrapped _)).dram _

theorem recTriggered_recorderOnly (s : State) (src page : Nat) : RecorderOnly s (s.recTriggered src page) := by
  unfold State.recTriggered
  exact ((((RecorderOnly.refl s).setField _ (by decide)).setField _ (by decide)).setField _ (by decide)).setField _ (by decide)

/-- A freeze shows its state and raises its event. -/
theorem recFreeze_ends (s : State) : ∃ u, RecorderOnly s u ∧ Records 2 u s.recFreeze :=
  ⟨s.set REC_STATUS_STATE 3, (RecorderOnly.refl s).setField 3 (by decide), emit_records ..⟩

/-- A trigger closes the page, and freezes the recorder where no page may follow (R159). -/
theorem recTrigger_ends (s : State) (src : Nat) : ∃ u, RecorderOnly s u ∧ Records 2 u (s.recTrigger src) := by
  unfold State.recTrigger
  split
  · exact ⟨s, RecorderOnly.refl s, (Records.refl s).mono (by decide)⟩
  · dsimp only
    set p := if s.dram.open_ = true then s else s.openPage
    have hpage : RecorderOnly s p := .ite (RecorderOnly.refl s) (openPage_recorderOnly s)
    have hclosed := fun src page trigger last =>
      ((hpage.trans (writePage_recorderOnly p trigger last)).trans (recTriggered_recorderOnly _ src page)).dram
    split
    · obtain ⟨u, hu, hrec⟩ := recFreeze_ends _
      exact ⟨u, (hclosed _ _ _ _ _).trans hu, hrec⟩
    · exact ⟨_, (hclosed _ _ _ _ _).setField 2 (by decide), (Records.refl _).mono (by decide)⟩

theorem recBuoyTrigger_ends (s : State) (b : Nat) : ∃ u, RecorderOnly s u ∧ Records 2 u (s.recBuoyTrigger b) := by
  unfold State.recBuoyTrigger
  split
  · exact recTrigger_ends s 3
  · exact ⟨s, RecorderOnly.refl s, (Records.refl s).mono (by decide)⟩

/-! ### The row BUOY_CAPTURE (R282) -/

section
variable (s : State) (b : Nat) (rising : Bool)

/-- The pin is shown, and the time of the capture kept. -/
def State.buoySeen (s : State) (b : Nat) (rising : Bool) : State :=
  (s.put (TIM_BUOY_STATUS_PIN b) rising).tset fun t => { t with buoyLast := SMap.insert t.buoyLast b s.refTicks }

/-- The capture that a Buoy takes now. -/
def State.captureNow (s : State) (b : Nat) (rising : Bool) : Capture :=
  { quarters := s.quarters (s.get (TIM_BUOY_CFG_DOMAIN b)), rising := rising }

/-- The FIFO of a Buoy holds a capture more, and shows it. -/
def State.buoyQueued (s : State) (b : Nat) (c : Capture) : State :=
  (s.buoyHolds b (SMap.get s.tim.buoyFifo [] b ++ [c])).showBuoy b

theorem status_mem_buoyRegs : TIM_BUOY_STATUS b ∈ buoyRegs b := List.mem_cons_self

theorem buoySeen_only : TimeOnly (buoyRegs b) s (s.buoySeen b rising) :=
  ((TimeOnly.refl _ s).set (TIM_BUOY_STATUS_PIN b) (if rising then 1 else 0) rfl (status_mem_buoyRegs b)).tset
    (fun t => { t with buoyLast := SMap.insert t.buoyLast b s.refTicks }) rfl

theorem buoySeen_pin : (s.buoySeen b rising).on (TIM_BUOY_STATUS_PIN b) = rising := by
  rw [State.buoySeen, State.tset_on, on_put_same s (f := TIM_BUOY_STATUS_PIN b) (by decide : 6 ≤ 64) rfl]

theorem buoySeen_fifo : (s.buoySeen b rising).tim.buoyFifo = s.tim.buoyFifo :=
  (congrArg TimeUnit.buoyFifo (State.put_tim s (TIM_BUOY_STATUS_PIN b) rising) :)

theorem buoySeen_last : SMap.find (s.buoySeen b rising).tim.buoyLast b = some s.refTicks := SMap.find_insert_same ..

theorem buoyQueued_only (c : Capture) : TimeOnly (buoyRegs b) s (s.buoyQueued b c) :=
  (buoyHolds_only s b _ _).trans (showBuoy_only _ b).timeOnly

theorem buoyQueued_fifo (c : Capture) :
    SMap.get (s.buoyQueued b c).tim.buoyFifo [] b = SMap.get s.tim.buoyFifo [] b ++ [c] := by
  rw [State.buoyQueued, (showBuoy_only _ b).tim, State.buoyHolds_fifo]

theorem buoyQueued_last (c : Capture) : (s.buoyQueued b c).tim.buoyLast = s.tim.buoyLast := by
  rw [State.buoyQueued, (showBuoy_only _ b).tim]
  rfl

theorem buoyQueued_pin (c : Capture) : (s.buoyQueued b c).on (TIM_BUOY_STATUS_PIN b) = s.on (TIM_BUOY_STATUS_PIN b) := by
  rw [State.buoyQueued, showBuoy_pin]
  rfl

theorem buoyQueued_level (c : Capture) (h : (SMap.get s.tim.buoyFifo [] b).length < 8) :
    (s.buoyQueued b c).get (TIM_BUOY_STATUS_LEVEL b) = (SMap.get s.tim.buoyFifo [] b).length + 1 := by
  rw [State.buoyQueued, showBuoy_level, State.buoyHolds_fifo, List.length_append, List.length_singleton]
  exact Nat.mod_eq_of_lt (show _ < 16 by omega)

/-- With room a capture enters the FIFO, and is raised where this is enabled. -/
theorem buoyPush_records (c : Capture) (h : (SMap.get s.tim.buoyFifo [] b).length < 8) :
    Records 2 (s.buoyQueued b c) (s.buoyPush b c) := by
  unfold State.buoyPush
  rw [if_neg (Nat.not_le.mpr h)]
  dsimp only
  split
  · exact emit_records ..
  · exact (Records.refl _).mono (by decide)

/-- The words that a servo reads to take a capture. -/
def lockWords (b : Nat) : List Nat :=
  TIM_BUOY_CFG b :: (List.range 4).flatMap fun d => [TIM_DOM_CFG d, TIM_DOM_STATUS d, TIM_SERVO_CFG d]

end

section
variable {s t : State} {b : Nat} (h : ∀ a ∈ lockWords b, t.rd a = s.rd a)
include h

theorem buoyCfg_congr (f : Fld) (hf : f.words = [TIM_BUOY_CFG b]) : t.get f = s.get f := get_of_word hf (h _ List.mem_cons_self)

theorem domWord_congr {d : Nat} (hd : d < 4) (f : Fld) (hf : ∃ a ∈ [TIM_DOM_CFG d, TIM_DOM_STATUS d, TIM_SERVO_CFG d], f.words = [a]) :
    t.get f = s.get f := by
  obtain ⟨a, ha, hwords⟩ := hf
  exact get_of_word hwords (h a (List.mem_cons_of_mem _ (List.mem_flatMap.mpr ⟨d, List.mem_range.mpr hd, ha⟩)))

theorem domEn_congr {d : Nat} (hd : d < 4) : t.domEn d = s.domEn d := by
  rw [State.domEn, State.on, domWord_congr h hd (TIM_DOM_CFG_EN d) ⟨TIM_DOM_CFG d, by simp, rfl⟩, State.domEn, State.on]

/-- The domains that lock to a Buoy depend on its set-up and on theirs. -/
theorem lockers_congr : t.lockers b = s.lockers b := by
  refine List.filter_congr fun d hd => ?_
  have hd4 := List.mem_range.mp hd
  rw [domEn_congr h hd4, State.domState, domWord_congr h hd4 (TIM_DOM_STATUS_STATE d) ⟨TIM_DOM_STATUS d, by simp, rfl⟩, State.on,
    domWord_congr h hd4 (TIM_SERVO_CFG_LOCK_EN d) ⟨TIM_SERVO_CFG d, by simp, rfl⟩,
    domWord_congr h hd4 (TIM_SERVO_CFG_LOCK_BUOY d) ⟨TIM_SERVO_CFG d, by simp, rfl⟩,
    buoyCfg_congr h (TIM_BUOY_CFG_DOMAIN b) rfl, buoyCfg_congr h (TIM_BUOY_CFG_EDGE b) rfl]
  rfl

theorem buoyTakes_congr (hlast : t.tim.buoyLast = s.tim.buoyLast) (hticks : t.refTicks = s.refTicks) (rising : Bool) :
    t.buoyTakes b rising = s.buoyTakes b rising := by
  have hdomain : s.get (TIM_BUOY_CFG_DOMAIN b) < 4 := get_lt s (TIM_BUOY_CFG_DOMAIN b)
  rw [State.buoyTakes, State.on, buoyCfg_congr h (TIM_BUOY_CFG_EN b) rfl, buoyCfg_congr h (TIM_BUOY_CFG_DOMAIN b) rfl,
    buoyCfg_congr h (TIM_BUOY_CFG_EDGE b) rfl, domEn_congr h hdomain, hlast, hticks]
  rfl

end

theorem lockWords_apart (b : Fin 16) : ∀ a ∈ lockWords b.val,
    a ∉ buoyRegs b.val ∧ recordWord a = false ∧ eventReg a = false := by
  revert b
  decide

/-- What a capture leaves of a state: its FIFO is shown, its record sent, the recorder's page closed, and that reported. -/
structure Capturing (b : Nat) (s u t : State) : Prop where
  shown : TimeOnly (buoyRegs b) s u
  reported : ∃ p v, Records 2 u p ∧ RecorderOnly p v ∧ Records 2 v t

namespace Capturing
variable {b : Fin 16} {s u t : State}

theorem rd (h : Capturing b.val s u t) {a : Nat} (hrec : recordWord a = false) (hev : eventReg a = false) : t.rd a = u.rd a := by
  obtain ⟨-, p, v, hup, hpv, hvt⟩ := h
  rw [hvt.regs a List.not_mem_nil hev, hpv.regs a hrec, hup.regs a List.not_mem_nil hev]

theorem tim (h : Capturing b.val s u t) : t.tim = u.tim := by
  obtain ⟨-, p, v, hup, hpv, hvt⟩ := h
  have hrecords : ∀ {x y : State}, Records 2 x y → y.tim = x.tim := fun g => (congrArg State.tim g.rest :)
  rw [hrecords hvt, hpv.tim, hrecords hup]

theorem hostKept (h : Capturing b.val s u t) : HostKeptE 4 s t := by
  obtain ⟨hshown, p, v, hup, hpv, hvt⟩ := h
  intro a ha
  have hu : u.eventArea (2 + 2) a = false := hshown.eventArea (buoyRegs_inTime b) ha
  have hp : p.eventArea 2 a = false := hup.eventArea hu
  calc t.hostByte a = v.hostByte a := hvt.host a (hpv.eventArea hp)
    _ = p.hostByte a := hpv.hostKept a
    _ = u.hostByte a := (hup.mono (by decide : 2 ≤ 2 + 2)).host a hu
    _ = s.hostByte a := hshown.hostKept a

theorem regsOut (h : Capturing b.val s u t) : RegsOutE [(0xD02000, 0xD02400), block 0x15, (INJ_ARM 10, INJ_ARM 10 + 4)] s t := by
  intro a ha hev
  simp only [List.any_cons, List.any_nil, Bool.or_false, Bool.or_eq_false_iff, ← Bool.decide_and, decide_eq_false_iff_not, block] at ha
  obtain ⟨hbuoy, hpage, harm⟩ := ha
  rw [h.rd (recordWord_eq_false.mpr ⟨by omega, harm⟩) hev]
  refine h.shown.regs a fun hm => hbuoy ?_
  simp only [buoyRegs, TIM_BUOY_STATUS, TIM_BUOY_HEAD_NS, TIM_BUOY_HEAD_FRAC, TIM_BUOY_HEAD_SEC, List.mem_cons, List.not_mem_nil, or_false] at hm
  omega

/-- The status of the Buoy is that shown. -/
theorem get_status (h : Capturing b.val s u t) {f : Fld} (hf : f.words = [TIM_BUOY_STATUS b.val]) : t.get f = u.get f := by
  have hword : recordWord (TIM_BUOY_STATUS b.val) = false := by
    rw [recordWord_eq_false, TIM_BUOY_STATUS, INJ_ARM]
    omega
  exact get_of_word hf (h.rd hword (eventReg_time (buoyRegs_inTime b _ (status_mem_buoyRegs b.val))))

theorem lockers (h : Capturing b.val s u t) : t.lockers b.val = s.lockers b.val :=
  lockers_congr fun a ha => by
    obtain ⟨hbuoy, hrec, hev⟩ := lockWords_apart b a ha
    rw [h.rd hrec hev, h.shown.regs a hbuoy]

end Capturing

section
variable (s : State) {b : Fin 16} {rising : Bool}

/-- A taken capture: its FIFO and the recorder's trigger. -/
def State.buoyCaptured (s : State) (b : Nat) (rising : Bool) : State :=
  ((s.buoySeen b rising).buoyPush b (s.captureNow b rising)).recBuoyTrigger b

theorem buoyCaptured_capturing (b : Fin 16) (rising : Bool) (hroom : (SMap.get s.tim.buoyFifo [] b.val).length < 8) :
    Capturing b.val s ((s.buoySeen b.val rising).buoyQueued b.val (s.captureNow b.val rising)) (s.buoyCaptured b.val rising) where
  shown := (buoySeen_only s b.val rising).trans (buoyQueued_only _ b.val _)
  reported := by
    obtain ⟨v, hv, hrec⟩ := recBuoyTrigger_ends ((s.buoySeen b.val rising).buoyPush b.val (s.captureNow b.val rising)) b.val
    exact ⟨_, v, buoyPush_records _ b.val _ ((buoySeen_fifo s b.val rising).symm ▸ hroom), hv, hrec⟩

theorem execBuoyCapture_taken (hup : s.up .time = true) (htakes : s.buoyTakes b.val rising = true)
    (hroom : (SMap.get s.tim.buoyFifo [] b.val).length < 8) (hnone : (s.lockers b.val).isEmpty = true ∨ rising = false) :
    execBuoyCapture b rising s = .next (s.buoyCaptured b.val rising).timeSeen := by
  have hsame : ∀ a ∈ lockWords b.val, (s.put (TIM_BUOY_STATUS_PIN b.val) rising).rd a = s.rd a := fun a ha =>
    rd_set_ne s (TIM_BUOY_STATUS_PIN b.val) _ fun hm =>
      (lockWords_apart b a ha).1 (List.mem_singleton.mp hm ▸ status_mem_buoyRegs b.val)
  have htim := State.put_tim s (TIM_BUOY_STATUS_PIN b.val) rising
  have hticks := State.put_refTicks s (TIM_BUOY_STATUS_PIN b.val) rising
  have htakes' := (buoyTakes_congr hsame (congrArg TimeUnit.buoyLast htim) hticks rising).trans htakes
  have hquarters : ∀ d, (s.put (TIM_BUOY_STATUS_PIN b.val) rising).quarters d = s.quarters d := fun d => by
    rw [State.quarters, State.domTime, htim, State.quarters, State.domTime]
  have hlockers := (buoyCaptured_capturing s b rising hroom).lockers
  have hjudged : execBuoyCapture b rising s = .next (if rising then
      (s.buoyCaptured b.val rising).each ((s.buoyCaptured b.val rising).lockers b.val) fun t d => t.servoJudge d (s.captureNow b.val rising)
      else s.buoyCaptured b.val rising).timeSeen := by
    simp only [execBuoyCapture, hup, htakes', hticks, hquarters, buoyCfg_congr hsame (TIM_BUOY_CFG_DOMAIN b.val) rfl, Bool.not_true,
      Bool.false_eq_true, if_false, State.buoyCaptured, State.buoySeen, State.captureNow]
  rw [hjudged, hlockers]
  obtain hempty | hfalling := hnone
  · rw [List.isEmpty_iff.mp hempty]
    exact congrArg (fun t : State => Host.Outcome.next t.timeSeen) (ite_self _)
  · rw [hfalling, if_neg Bool.false_ne_true]

theorem buoyCapture_row (hup : s.up .time = true) (htakes : s.buoyTakes b.val rising = true)
    (hroom : (SMap.get s.tim.buoyFifo [] b.val).length < 8) (hnone : (s.lockers b.val).isEmpty = true ∨ rising = false) :
    ∃ t, exec (.buoyCapture b rising) s = .next t ∧
      (SMap.get t.tim.buoyFifo [] b.val = SMap.get s.tim.buoyFifo [] b.val ++ [⟨s.quarters (s.get (TIM_BUOY_CFG_DOMAIN b.val)), rising⟩] ∧
       t.on (TIM_BUOY_STATUS_PIN b.val) = rising ∧ t.get (TIM_BUOY_STATUS_LEVEL b.val) = (SMap.get s.tim.buoyFifo [] b.val).length + 1 ∧
       SMap.find t.tim.buoyLast b.val = some s.refTicks ∧ RegsOutE [(0xD02000, 0xD02400), block 0x15, (INJ_ARM 10, INJ_ARM 10 + 4)] s t ∧ HostKeptE 4 s t) := by
  refine ⟨_, execBuoyCapture_taken s hup htakes hroom hnone, ?_⟩
  have h := buoyCaptured_capturing s b rising hroom
  have hfifo := buoySeen_fifo s b.val rising
  generalize s.buoyCaptured b.val rising = t at h
  refine ⟨?_, ?_, ?_, ?_, h.regsOut, h.hostKept⟩
  · have := buoyQueued_fifo (s.buoySeen b.val rising) b.val (s.captureNow b.val rising)
    rw [← h.tim, hfifo] at this
    exact this
  · rw [State.on, State.timeSeen_get, h.get_status (f := TIM_BUOY_STATUS_PIN b.val) rfl]
    exact (buoyQueued_pin ..).trans (buoySeen_pin s b.val rising)
  · rw [State.timeSeen_get, h.get_status (f := TIM_BUOY_STATUS_LEVEL b.val) rfl, buoyQueued_level _ _ _ (hfifo.symm ▸ hroom), hfifo]
  · have := congrArg (SMap.find · b.val) (buoyQueued_last (s.buoySeen b.val rising) b.val (s.captureNow b.val rising))
    rw [← h.tim] at this
    exact this.trans (buoySeen_last s b.val rising)

end

/-- Settles O21: an arming ends in `State.catchArmed`, a due edge in `State.catchPulsed`, the end of a pulse in `State.catchDrive`, a
capture in `State.buoyCaptured`, a pop in `State.buoyPop`, a snapshot in `State.snapDom` of each enabled domain, and a read of the time
in `State.nowLatched`. -/
theorem catchBuoyAndReads : Obligations.CatchBuoyAndReads := by
  unfold Obligations.CatchBuoyAndReads
  refine ⟨?_, ?_, ?_, ?_, ?_, ?_, ?_, ?_⟩
  · intro s who c value htakes hoff
    exact catchArm_row s htakes hoff
  · intro s who c value htakes hon
    exact catchDisarm_row s htakes hon
  · intro s c k hnext hup hen harm hdue
    exact catchEdge_row s hnext hup hen harm hdue
  · intro s c hup hpulse
    exact catchPulseEnd_row s hup hpulse
  · intro s b rising hup htakes hroom hnone
    exact buoyCapture_row s hup htakes hroom hnone
  · intro s who b htakes
    exact buoyPop_row s htakes
  · intro s who htakes
    exact snapshotCapture_row s htakes
  · intro s who d hwho hturned hbus hup
    exact timeNowRead_row s hwho hturned hbus hup

end Sys2Proof.Machine
end

section
/-! PROOFS, family 09_edge_and_rigger: the rows of a LIN channel (O23). -/
namespace Sys2Proof.Machine

/-! ### RIG_ECC met by a response (R328, R329) -/

theorem rigTouch_of_armed {s : State} {t i : Nat} (harmed : s.injArmedFor 20 i = true) (hsub : s.get (INJ_ARM_SUB 20) = t)
    (hsound : s.rigBroken t i = false) : s.rigTouch t i = (s.injSpend 20).rigBreak t i := by
  simp [State.rigTouch, harmed, hsub, hsound]

/-- Entry `i` of table `t` is found broken, counted and located, and not reported yet (R328). -/
def State.rigFound (s : State) (t i : Nat) : State :=
  ((s.eset fun e => { e with broken := e.broken ++ [t * 2 ^ 20 + i] }).inc RIG_ECC_UNCORR_COUNT).rigErrLoc t i

/-- The event of a broken entry (R328). -/
def State.rigReported (s : State) : State := s.emit 0x0704 0 (args (s.rd RIG_ERR_LOC).toNat)

theorem rigBreak_of_sound {s : State} {t i : Nat} (hsound : s.rigBroken t i = false) (hroute : t ≠ 0) :
    s.rigBreak t i = ((s.rigFound t i).faultBit GLB_FAULT_ECC_UNCORR).rigReported := by
  simp [State.rigBreak, State.rigFound, State.rigReported, hsound, hroute]

/-! ### A good response (R300, R301) -/

section
variable {s : State} {l : Fin 16} {data : List Byte} {checksum : Byte} {age : Nat}

theorem beAt_append_singleton (l : List Byte) (b : Byte) : beAt (l ++ [b]) l.length 1 = b.toNat := by
  simp [beAt, sliceBytes, beNat]

theorem linJudge_good {l id p : Nat} (hlen : pduLen (s.tab 12 p) = data.length) (hsum : checksum.toNat = linCheck (s.tab 12 p) data) :
    s.linJudge l id p (data ++ [checksum]) age = s.linAccept l p id data age := by
  simp [State.linJudge, hlen, beAt_append_singleton, ← hsum]

theorem execLinResponseRx_good (hready : s.rigReady = true) (hen : s.on (EDG_LIN_CTRL_ENABLE l.val) = true) {w : Nat × Nat}
    (hwait : (s.linSt l.val).wait = some w) {p : Nat} (hsource : s.linSource l.val w.2 w.1 = some p)
    (hlen : pduLen (s.tab 12 p) = data.length) (hsum : checksum.toNat = linCheck (s.tab 12 p) data) :
    exec (.linResponseRx l data checksum 0 age) s =
      .next ((s.linSet l.val fun x => { x with wait := none }).linAccept l.val p w.1 data age) := by
  obtain ⟨id, p0⟩ := w
  have hsource' : (s.linSet l.val fun x => { x with wait := none }).linSource l.val p0 id = some p := hsource
  have hgood : (s.linSet l.val fun x => { x with wait := none }).linJudge l.val id p (data ++ [checksum]) age =
      (s.linSet l.val fun x => { x with wait := none }).linAccept l.val p id data age := linJudge_good hlen hsum
  have hexec : exec (.linResponseRx l data checksum 0 age) s = execLinResponseRx l data checksum 0 age s := rfl
  simp [hexec, execLinResponseRx, hready, hen, hwait, hsource', hgood]

end

/-- A tunnel takes the responses of LIN channel `l` (R318). -/
def tunTakesLin (l : Nat) (u : Nat × Nat) : Bool := !ebit u.2 16 1 && ebit u.2 16 2 && tunChannel u.2 l

/-- The tunnels that take the responses of LIN channel `l` are read (R318, R329). -/
def State.linTouched (s : State) (l : Nat) : State :=
  s.each (tunsOf s.fab.active) fun t u => if tunTakesLin l u then t.rigTouch 2 u.1 else t

/-- A response goes to the tunnels that could be read and to its PDU (R318). -/
def State.linDelivers (s : State) (l p id : Nat) (data : List Byte) (stamp : Option (Nat × Nat)) : State :=
  (s.each (s.liveTuns.filter fun u => tunTakesLin l u && tunMatches u.2 id) fun t u => t.gather u.1 (acfLin u.2 l id data stamp)).processSrc p
    data stamp

theorem linAccept_of_runs {s : State} {l p id age : Nat} {data : List Byte} (hruns : (s.inc (EDG_LIN_RX_COUNT l)).rigRuns = true) :
    s.linAccept l p id data age = ((s.inc (EDG_LIN_RX_COUNT l)).linTouched l).linDelivers l p id data (s.linStamp age) := by
  simp only [State.linAccept, hruns, Bool.not_true, Bool.false_eq_true, if_false]
  rfl

/-! ### A response whose tunnel ends a sleep entry (O23)

RIG_ECC armed for tunnel 0 makes the read of its entry uncorrectable, and GLB_FAULT.ECC_UNCORR is set (R328, R329). In a sleep entry
that bit aborts the entry (R472): the state it came from returns, here Feather without PD5, so the Edge island is turned off and its
registers are lost (R461), the count of the response among them. A run comes there from Feather without PD5: a request for Active, PD5's
power good, then a request for sleep. -/

/-- Sleep entry from Feather, which wants PD1–PD4; PD5 is still on. LIN channel 0 waits for the response of source PDU 7, which
tunnel 0 takes too, and RIG_ECC is armed for that tunnel. -/
def edgeStillOn : State :=
  let s := ((State.reset.set PWR_STATUS_ON 0x1F).set PWR_STATUS_STATE 3).set PWR_FEATHER_DOMAINS 0xF
  let u := ((s.set RIG_STATUS_READY 1).set RIG_CFG_ENABLE 1).set (EDG_LIN_CTRL_ENABLE 0) 1
  { (u.set (INJ_ARM_ARM 20) 1).set (INJ_ARM_SUB 20) 2 with
    rst := {}, pwr := { entryFrom := 1 },
    fab := { s.fab with active := [(12 * 2 ^ 20 + 7, 5 + 2 ^ 16 + 5 * 2 ^ 32), (13 * 2 ^ 20, 5 * 2 ^ 128 + 2 ^ 160)] },
    edge := { lin := [(0, { wait := some (5, 7) })] } }

/-- The response has come. -/
def responseHere : State := edgeStillOn.linSet 0 fun x => { x with wait := none }

/-- The response is counted. -/
def responseCounted : State := responseHere.inc (EDG_LIN_RX_COUNT 0)

/-- Tunnel 0 is found broken. -/
def tunnelFound : State := (responseCounted.injSpend 20).rigFound 2 0

/-- GLB_FAULT.ECC_UNCORR is set. -/
def tunnelFault : State := (tunnelFound.setFaultBit GLB_FAULT_ECC_UNCORR).recFaultTrigger

theorem touch_responseCounted :
    responseCounted.rigTouch 2 0 = (tunnelFault.abortEntry 6 (tunnelFault.rd GLB_FAULT).toNat).rigReported := by
  rw [rigTouch_of_armed (by decide +kernel) (by decide +kernel) (by decide +kernel),
    rigBreak_of_sound (by decide +kernel) (by decide)]
  exact congrArg State.rigReported
    (faultBit_in_entry (by decide +kernel) rfl (by decide +kernel) (by decide +kernel) (by decide +kernel))

theorem linTouched_responseCounted : responseCounted.linTouched 0 = responseCounted.rigTouch 2 0 := by
  have htuns : tunsOf responseCounted.fab.active = [(0, 5 * 2 ^ 128 + 2 ^ 160)] := by decide +kernel
  have htakes : tunTakesLin 0 (0, 5 * 2 ^ 128 + 2 ^ 160) = true := by decide +kernel
  simp only [State.linTouched, htuns, State.each, List.foldl_cons, List.foldl_nil, htakes, if_true]

/-- The count of responses when the one for PDU 7 goes on in `s`, its tunnel reported broken. -/
def State.countGoingOn (s : State) : Nat := (s.rigReported.linDelivers 0 7 5 [1] (responseHere.linStamp 0)).get (EDG_LIN_RX_COUNT 0)

/-- Whatever WAK_SOURCE takes, the count goes with PD5. -/
theorem countGoingOn_entryLeft : (tunnelFault.abortEntry 6 (tunnelFault.rd GLB_FAULT).toNat).countGoingOn = 0 := by
  rw [abortEntry_eq _ _ (by decide)]
  exact wr_cases (P := fun u => (u.entryLeft 6 (tunnelFault.rd GLB_FAULT).toNat).countGoingOn = 0) _ _ _ (by decide +kernel)
    (by decide +kernel)

theorem linResponseRx_edgeStillOn : ∃ t, exec (.linResponseRx 0 [1] 254 0 0) edgeStillOn = .next t ∧ t.get (EDG_LIN_RX_COUNT 0) = 0 := by
  have hgood : exec (.linResponseRx 0 [1] 254 0 0) edgeStillOn = .next (responseHere.linAccept 0 7 5 [1] 0) :=
    execLinResponseRx_good (by decide +kernel) (by decide +kernel) (w := (5, 7)) (by decide +kernel) (by decide +kernel)
      (by decide +kernel) (by decide +kernel)
  have hcounted : responseHere.linAccept 0 7 5 [1] 0 =
      (responseCounted.linTouched 0).linDelivers 0 7 5 [1] (responseHere.linStamp 0) := linAccept_of_runs (by decide +kernel)
  rw [linTouched_responseCounted, touch_responseCounted] at hcounted
  exact ⟨_, hgood, (congrArg (State.get · (EDG_LIN_RX_COUNT 0)) hcounted).trans countGoingOn_entryLeft⟩

/-- Refutes O23: a good response that finds its tunnel broken in a sleep entry is not counted any more. -/
theorem not_linChannels : ¬ Obligations.LinChannels := by
  unfold Obligations.LinChannels
  rintro ⟨-, -, -, -, -, -, -, -, -, -, -, hgood, -⟩
  obtain ⟨t, ht, hcount, -⟩ := hgood edgeStillOn 0 [1] 254 0 0 (by decide +kernel) (by decide +kernel) rfl (5, 7) (by decide +kernel) 7
    (by decide +kernel) (by decide +kernel) (by decide +kernel)
  obtain ⟨u, hu, hlost⟩ := linResponseRx_edgeStillOn
  cases hu.symm.trans ht
  exact absurd (hlost.symm.trans hcount) (by decide +kernel)

end Sys2Proof.Machine
end

section
/-! PROOFS, family 09_edge_and_rigger: the ticks of the Rigger (O24, O56). -/
namespace Sys2Proof.Machine

/-! ### A route that the bank lists twice (O24, O56)

`routesOf` is a list of index and entry, and neither statement asks that an index stands in it once. The freshness tick goes through the
entries in turn and the route keeps one freshness: an entry past its FRESH_MS makes it stale, and the tick's outcome is then not what the
other entry, which has no FRESH_MS, asks for (R316). -/

/-- The active bank lists route 3 twice, with a FRESH_MS of 1 and without one; the route is fresh and was last written long ago. -/
def routeListedTwice : State :=
  let s := (State.reset.set PWR_STATUS_ON 0x1F).set RIG_STATUS_READY 1
  { s with
    rst := {}, refTicks := 1000000,
    fab := { s.fab with active := [(11 * 2 ^ 20 + 3, 2 ^ 87 + 2 ^ 96), (11 * 2 ^ 20 + 3, 2 ^ 87)] },
    edge := { s.edge with routes := [(3, { fresh := true, last := some 0, inv := false })] } }

theorem routeListedTwice_premises : routeListedTwice.rigReady = true ∧ routeListedTwice.on (INJ_ARM_ARM 19) = false := by decide +kernel

/-- In `t` every route of the bank of `s` is fresh exactly where it was and its FRESH_MS has not passed (R316). -/
def freshAsAsked (s t : State) : Bool :=
  (routesOf s.fab.active).all fun r =>
    (t.routeSt r.1).fresh == ((s.routeSt r.1).fresh && (s.rigBroken 0 r.1 || !s.pastFresh r.1 r.2))

theorem rigFreshTick_routeListedTwice :
    ∃ t, exec (.rigFreshTick []) routeListedTwice = .next t ∧ freshAsAsked routeListedTwice t = false := ⟨_, rfl, by decide +kernel⟩

/-- No tick of `routeListedTwice` leaves each of its entries the freshness it asks for. -/
theorem not_freshAsAsked_of_exec {t : State} (ht : exec (.rigFreshTick []) routeListedTwice = .next t) :
    ¬ freshAsAsked routeListedTwice t = true := by
  obtain ⟨u, hu, hwrong⟩ := rigFreshTick_routeListedTwice
  cases hu.symm.trans ht
  exact hwrong ▸ Bool.false_ne_true

/-- Refutes O24: of two entries for one route, one with and one without FRESH_MS, the freshness tick serves one. -/
theorem not_riggerTicks : ¬ Obligations.RiggerTicks := by
  unfold Obligations.RiggerTicks
  rintro ⟨-, -, -, -, -, hfresh, -⟩
  obtain ⟨hready, hunarmed⟩ := routeListedTwice_premises
  obtain ⟨t, ht, hall, -⟩ := hfresh routeListedTwice hready hunarmed
  exact not_freshAsAsked_of_exec ht hall

/-- Refutes O56 by its clause on the freshness tick, as O24. -/
theorem not_edgeRowsComplete : ¬ Obligations.EdgeRowsComplete := by
  unfold Obligations.EdgeRowsComplete
  rintro ⟨-, -, -, -, -, -, -, -, -, -, -, -, -, -, -, -, -, -, -, -, hfresh, -⟩
  obtain ⟨hready, hunarmed⟩ := routeListedTwice_premises
  obtain ⟨t, ht, hall⟩ := hfresh routeListedTwice hready hunarmed
  exact not_freshAsAsked_of_exec ht hall

end Sys2Proof.Machine
end

section
/-! PROOFS, family 09_edge_and_rigger: what the rows of a CAN channel change (O22). -/
namespace Sys2Proof.Machine

/-! ### Changes of the Edge island alone -/

/-- The words of the CAN channels, of the LIN channels and of the Rigger. -/
def inEdge (a : Nat) : Bool := 0xE00000 ≤ a && a < 0x1000000

/-- `t` is `s` but for the words of a list and for what the Edge island holds. -/
structure EdgeOnly (l : List Nat) (s t : State) : Prop where
  rest : { t with regs := s.regs, edge := s.edge } = s
  regs : RegsBut l s t

namespace EdgeOnly
variable {l : List Nat} {s t u : State}

theorem refl (l : List Nat) (s : State) : EdgeOnly l s s := ⟨rfl, RegsBut.refl l s⟩

theorem trans (h : EdgeOnly l s t) (g : EdgeOnly l t u) : EdgeOnly l s u where
  rest := (congrArg (fun x : State => ({ x with regs := s.regs, edge := s.edge } : State)) g.rest :).trans h.rest
  regs := h.regs.trans g.regs

theorem of_regsOnly (h : RegsOnly l s t) : EdgeOnly l s t :=
  ⟨(congrArg (fun x : State => ({ x with edge := s.edge } : State)) h.rest :), h.regs⟩

/-- A field that lies in a word of the list may be set. -/
theorem set (h : EdgeOnly l s t) (f : Fld) (v : Nat) {a : Nat} (hf : f.words = [a]) (ha : a ∈ l) : EdgeOnly l s (t.set f v) :=
  h.trans (of_regsOnly ((RegsOnly.refl l t).set f v (by simpa [hf] using ha)))

theorem add (h : EdgeOnly l s t) (f : Fld) (k : Nat) {a : Nat} (hf : f.words = [a]) (ha : a ∈ l) : EdgeOnly l s (t.add f k) :=
  h.set f _ hf ha

theorem inc (h : EdgeOnly l s t) (f : Fld) {a : Nat} (hf : f.words = [a]) (ha : a ∈ l) : EdgeOnly l s (t.inc f) := h.set f _ hf ha

theorem eset (h : EdgeOnly l s t) (f : EdgeUnit → EdgeUnit) : EdgeOnly l s (t.eset f) := h.trans ⟨rfl, fun _ _ => rfl⟩

theorem canPut (h : EdgeOnly l s t) (c : Nat) (f : CanSt → CanSt) : EdgeOnly l s (t.canPut c f) := h.eset _

theorem mono (h : EdgeOnly l s t) {l' : List Nat} (hl : ∀ a ∈ l, a ∈ l') : EdgeOnly l' s t :=
  ⟨h.rest, fun a ha => h.regs a fun hm => ha (hl a hm)⟩

theorem rst (h : EdgeOnly l s t) : t.rst = s.rst := (congrArg State.rst h.rest :)
theorem fab (h : EdgeOnly l s t) : t.fab = s.fab := (congrArg State.fab h.rest :)

/-- A field outside the list keeps its value. -/
theorem get (h : EdgeOnly l s t) {f : Fld} {a : Nat} (hf : f.words = [a]) (ha : a ∉ l) : t.get f = s.get f :=
  get_of_word hf (h.regs a ha)

theorem on (h : EdgeOnly l s t) {f : Fld} {a : Nat} (hf : f.words = [a]) (ha : a ∉ l) : t.on f = s.on f := by
  rw [State.on, h.get hf ha, State.on]

/-- The words of a list lie in the block of the Edge island. -/
theorem up (h : EdgeOnly l s t) (hl : ∀ a ∈ l, inEdge a = true) (i : Island) (n : Nat) : t.up i n = s.up i n := by
  have hon := h.get (f := PWR_STATUS_ON) rfl fun hm => absurd (hl _ hm) (by decide)
  rw [State.up, State.alive, State.pdOn, h.rst, hon]
  rfl

theorem holdFaultN (h : EdgeOnly l s t) (hl : ∀ a ∈ l, inEdge a = true) : s.holdFaultN t = t :=
  holdFaultN_of_same_cause <| faultCause_congr
    (fun a ha => h.regs a fun hm => absurd (hl a hm) ((by decide : ∀ b ∈ faultWords, ¬inEdge b = true) a ha)) h.rst

end EdgeOnly

/-! ### What a channel holds beside its registers -/

section
variable (s : State) (c : Nat)

theorem canSt_congr {s t : State} (h : t.edge.can = s.edge.can) (c : Nat) : t.canSt c = s.canSt c := by
  rw [State.canSt, h, State.canSt]

@[simp] theorem canPut_canSt (f : CanSt → CanSt) : (s.canPut c f).canSt c = f (s.canSt c) := by
  simp [State.canPut, State.canSt, SMap.upd]

@[simp] theorem set_canSt (f : Fld) (v : Nat) : (s.set f v).canSt c = s.canSt c := canSt_congr (by rw [State.set_edge]) c
@[simp] theorem add_canSt (f : Fld) (k : Nat) : (s.add f k).canSt c = s.canSt c := set_canSt s c f _
@[simp] theorem inc_canSt (f : Fld) : (s.inc f).canSt c = s.canSt c := set_canSt s c f _

@[simp] theorem canPut_get (f : CanSt → CanSt) (g : Fld) : (s.canPut c f).get g = s.get g := rfl
@[simp] theorem canPut_canState (f : CanSt → CanSt) (n : Nat) : (s.canPut c f).canState n = s.canState n := rfl
@[simp] theorem canPut_canOut (f : CanSt → CanSt) : (s.canPut c f).edge.canOut = s.edge.canOut := rfl
@[simp] theorem canPut_pdus (f : CanSt → CanSt) : (s.canPut c f).edge.pdus = s.edge.pdus := rfl

/-! ### The fields of a channel's status -/

/-- A field of another word keeps its value when one is set. -/
theorem get_set_other (f g : Fld) (v : Nat) {a b : Nat} (hf : f.words = [a]) (hg : g.words = [b]) (h : b ≠ a) :
    (s.set f v).get g = s.get g := get_set_words s f g v (by simpa [hf, hg] using h)

theorem canState_set_state (v : Nat) (hv : v < 8) : (s.set (EDG_CAN_STATUS_STATE c) v).canState c = v :=
  (get_set_same s (EDG_CAN_STATUS_STATE c) v (by decide : 3 ≤ 64)).trans (Nat.mod_eq_of_lt hv)

theorem tec_set_state (v : Nat) : (s.set (EDG_CAN_STATUS_STATE c) v).get (EDG_CAN_STATUS_TEC c) = s.get (EDG_CAN_STATUS_TEC c) :=
  get_set_apart s _ _ v (apart_of_end_le rfl (by decide : 3 ≤ 8) (by decide : 16 ≤ 32))

theorem rec_set_state (v : Nat) : (s.set (EDG_CAN_STATUS_STATE c) v).get (EDG_CAN_STATUS_REC c) = s.get (EDG_CAN_STATUS_REC c) :=
  get_set_apart s _ _ v (apart_of_end_le rfl (by decide : 3 ≤ 16) (by decide : 23 ≤ 32))

theorem lastErr_set_state (v : Nat) :
    (s.set (EDG_CAN_STATUS_STATE c) v).get (EDG_CAN_STATUS_LAST_ERR c) = s.get (EDG_CAN_STATUS_LAST_ERR c) :=
  get_set_apart s _ _ v (apart_of_end_le rfl (by decide : 3 ≤ 24) (by decide : 27 ≤ 32))

end

/-! ### The error counters shown (R294) -/

section
variable (s : State) (c : Nat)

theorem canShowErr_only : EdgeOnly [EDG_CAN_STATUS c] s (s.canShowErr c) :=
  ((EdgeOnly.refl _ s).set (EDG_CAN_STATUS_TEC c) _ rfl List.mem_cons_self).set (EDG_CAN_STATUS_REC c) _ rfl List.mem_cons_self

@[simp] theorem canShowErr_edge : (s.canShowErr c).edge = s.edge := by simp [State.canShowErr]

@[simp] theorem canShowErr_canSt : (s.canShowErr c).canSt c = s.canSt c := canSt_congr (by rw [canShowErr_edge]) c

theorem canShowErr_tec : (s.canShowErr c).get (EDG_CAN_STATUS_TEC c) = min 255 (s.canSt c).txErr := by
  have hapart : (EDG_CAN_STATUS_TEC c).apart (EDG_CAN_STATUS_REC c) :=
    .inr ⟨rfl, (by decide : 16 ≤ 32), (by decide : 23 ≤ 32), .inl (by decide : 16 ≤ 16)⟩
  rw [State.canShowErr, get_set_apart _ _ _ _ hapart, get_set_same _ (EDG_CAN_STATUS_TEC c) _ (by decide : 16 ≤ 64)]
  exact Nat.mod_eq_of_lt (by change _ < 256; omega)

theorem canShowErr_rec : (s.canShowErr c).get (EDG_CAN_STATUS_REC c) = min 127 (s.canSt c).rxErr := by
  rw [State.canShowErr, get_set_same _ (EDG_CAN_STATUS_REC c) _ (by decide : 23 ≤ 64)]
  exact Nat.mod_eq_of_lt (by change _ < 128; omega)

theorem canShowErr_lastErr : (s.canShowErr c).get (EDG_CAN_STATUS_LAST_ERR c) = s.get (EDG_CAN_STATUS_LAST_ERR c) := by
  have htec : (EDG_CAN_STATUS_LAST_ERR c).apart (EDG_CAN_STATUS_TEC c) :=
    apart_of_end_le rfl (by decide : 16 ≤ 24) (by decide : 27 ≤ 32)
  have hrec : (EDG_CAN_STATUS_LAST_ERR c).apart (EDG_CAN_STATUS_REC c) :=
    apart_of_end_le rfl (by decide : 23 ≤ 24) (by decide : 27 ≤ 32)
  rw [State.canShowErr, get_set_apart _ _ _ _ hrec, get_set_apart _ _ _ _ htec]

/-! ### The state that the counters give (R294) -/

/-- Channel `c` shows its error counters and takes the state that they give. -/
def State.canShown (s : State) (c : Nat) : State := (s.canShowErr c).canJudge c

theorem canJudge_active (htx : (s.canSt c).txErr < 128) (hrx : (s.canSt c).rxErr < 128) :
    s.canJudge c = s.set (EDG_CAN_STATUS_STATE c) 2 := by
  simp only [State.canJudge]
  split
  · omega
  · split
    · next hpassive =>
      simp only [Bool.or_eq_true, decide_eq_true_eq] at hpassive
      omega
    · rfl

theorem canShown_active (htx : (s.canSt c).txErr < 128) (hrx : (s.canSt c).rxErr < 128) :
    s.canShown c = (s.canShowErr c).set (EDG_CAN_STATUS_STATE c) 2 :=
  canJudge_active _ c (by rwa [canShowErr_canSt]) (by rwa [canShowErr_canSt])

/-- What a channel with both counters below 128 shows. -/
structure ShownActive (s : State) (c : Nat) (t : State) : Prop where
  only : EdgeOnly [EDG_CAN_STATUS c] s t
  edge : t.edge = s.edge
  state : t.canState c = 2
  shownRec : t.get (EDG_CAN_STATUS_REC c) = (s.canSt c).rxErr
  lastErr : t.get (EDG_CAN_STATUS_LAST_ERR c) = s.get (EDG_CAN_STATUS_LAST_ERR c)

theorem canShown_shows (htx : (s.canSt c).txErr < 128) (hrx : (s.canSt c).rxErr < 128) : ShownActive s c (s.canShown c) := by
  rw [canShown_active s c htx hrx]
  refine ⟨(canShowErr_only s c).set _ 2 rfl List.mem_cons_self, by simp, canState_set_state _ c 2 (by decide), ?_, ?_⟩
  · rw [rec_set_state, canShowErr_rec]
    omega
  · rw [lastErr_set_state, canShowErr_lastErr]

end
end Sys2Proof.Machine
end

section
/-! PROOFS, family 09_edge_and_rigger: bus integration, reception, errors and recovery of a CAN channel (O22). -/
namespace Sys2Proof.Machine

/-! ### Marks on a bus (R294, R507) -/

/-- `t` is `s` but for the marks that the channels have put on their buses. -/
def MarksOnly (s t : State) : Prop := { t with edge := { t.edge with canMarks := s.edge.canMarks } } = s

namespace MarksOnly
variable {s t : State}

theorem regs (h : MarksOnly s t) : t.regs = s.regs := (congrArg State.regs h :)
theorem can (h : MarksOnly s t) : t.edge.can = s.edge.can := (congrArg (fun x : State => x.edge.can) h :)
theorem pdus (h : MarksOnly s t) : t.edge.pdus = s.edge.pdus := (congrArg (fun x : State => x.edge.pdus) h :)
theorem canSt (h : MarksOnly s t) (c : Nat) : t.canSt c = s.canSt c := canSt_congr h.can c

theorem only (h : MarksOnly s t) (l : List Nat) : EdgeOnly l s t :=
  ⟨(congrArg (fun x : State => ({ x with regs := s.regs, edge := s.edge } : State)) h :), fun a _ => rd_congr h.regs a⟩

end MarksOnly

section
variable (s : State) (c : Nat)

theorem canMark_marksOnly (m : CanMark) : MarksOnly s (s.canMark c m) := by
  unfold State.canMark
  split <;> rfl

theorem canAck_marksOnly : MarksOnly s (s.canAck c) := by
  unfold State.canAck
  split
  · rfl
  · exact canMark_marksOnly s c _

theorem canFlag_marksOnly (xlData : Bool) : MarksOnly s (s.canFlag c xlData) := by
  unfold State.canFlag
  split
  · rfl
  · exact canMark_marksOnly s c _

end

/-! ### Counters and states in words of their own -/

/-- A counter outside the words that have changed counts one more (R14). -/
theorem EdgeOnly.get_inc {l : List Nat} {s t : State} (h : EdgeOnly l s t) {f : Fld} {a : Nat} (hf : f.words = [a]) (ha : a ∉ l)
    (hw : f.lo + f.w ≤ 64) : (t.inc f).get f = min (s.get f + 1) (2 ^ f.w - 1) := by
  rw [get_inc_same t f hw, h.get hf ha]

theorem canState_set_other (s : State) (c : Nat) (f : Fld) (v : Nat) {a : Nat} (hf : f.words = [a]) (h : EDG_CAN_STATUS c ≠ a) :
    (s.set f v).canState c = s.canState c := get_set_other s f (EDG_CAN_STATUS_STATE c) v hf rfl h

theorem status_ne_errCnt (c : Nat) : EDG_CAN_STATUS c ≠ EDG_CAN_ERR_CNT c := by simp [EDG_CAN_STATUS, EDG_CAN_ERR_CNT]
theorem status_ne_event (c : Nat) : EDG_CAN_STATUS c ≠ EDG_CAN_EVENT c := by simp [EDG_CAN_STATUS, EDG_CAN_EVENT]
theorem status_ne_busOffCnt (c : Nat) : EDG_CAN_STATUS c ≠ EDG_CAN_BUSOFF_CNT c := by simp [EDG_CAN_STATUS, EDG_CAN_BUSOFF_CNT]
theorem status_ne_rxRtr (c : Nat) : EDG_CAN_STATUS c ≠ EDG_CAN_RX_RTR c := by simp [EDG_CAN_STATUS, EDG_CAN_RX_RTR]
theorem status_ne_rxUnmatched (c : Nat) : EDG_CAN_STATUS c ≠ EDG_CAN_RX_UNMATCHED c := by simp [EDG_CAN_STATUS, EDG_CAN_RX_UNMATCHED]
theorem event_ne_errCnt (c : Nat) : EDG_CAN_EVENT c ≠ EDG_CAN_ERR_CNT c := by simp [EDG_CAN_EVENT, EDG_CAN_ERR_CNT]
theorem event_ne_busOffCnt (c : Nat) : EDG_CAN_EVENT c ≠ EDG_CAN_BUSOFF_CNT c := by simp [EDG_CAN_EVENT, EDG_CAN_BUSOFF_CNT]

/-! ### Bus integration (R294) -/

section
variable {s : State} {c : Fin 32}

theorem canBusIdle_row (hup : s.up .edge = true) (hstate : s.canState c.val = 1) (hrec : (s.canSt c.val).recovering = false)
    (htx : (s.canSt c.val).txErr < 128) (hrx : (s.canSt c.val).rxErr < 128) :
    ∃ t, exec (.canBusIdle c) s = .next t ∧
      (t.canState c.val = 2 ∧ RegsBut [EDG_CAN_STATUS c.val] s t ∧ { t with regs := s.regs } = s) := by
  have hexec : exec (.canBusIdle c) s = .next ((s.set (EDG_CAN_STATUS_STATE c.val) 2).canJudge c.val) := by
    have harm : exec (.canBusIdle c) s = execCanBusIdle c s := rfl
    simp [harm, execCanBusIdle, hup, hstate, hrec]
  rw [canJudge_active _ c.val (by rwa [set_canSt]) (by rwa [set_canSt])] at hexec
  have honly : RegsOnly [EDG_CAN_STATUS c.val] s ((s.set (EDG_CAN_STATUS_STATE c.val) 2).set (EDG_CAN_STATUS_STATE c.val) 2) :=
    ((RegsOnly.refl _ s).set (EDG_CAN_STATUS_STATE c.val) 2 (fun _ h => h)).set (EDG_CAN_STATUS_STATE c.val) 2 (fun _ h => h)
  exact ⟨_, hexec, canState_set_state _ _ 2 (by decide), honly.regs, honly.rest⟩

end

/-! ### Reception (R294, R296) -/

section
variable (s : State) (c : Nat)

/-- Channel `c` has taken a frame without error: the frame that it was sending has lost, and REC falls (R294, R296). -/
def State.canReceived (s : State) (c : Nat) : State := ((s.canPut c fun x => { x with sending := none }).canAck c).canRxGood c

/-- What a channel with both counters below 128 shows after a frame without error. -/
structure ReceivedActive (s : State) (c : Nat) (t : State) : Prop where
  only : EdgeOnly [EDG_CAN_STATUS c] s t
  state : t.canState c = 2
  canSt : t.canSt c = { s.canSt c with sending := none, rxErr := (s.canSt c).rxErr - 1 }
  pdus : t.edge.pdus = s.edge.pdus

theorem canRxGood_active (hrx : (s.canSt c).rxErr < 128) :
    s.canRxGood c = (s.canPut c fun x => { x with rxErr := (s.canSt c).rxErr - 1 }).canShown c := by
  have hlow : ¬(s.canSt c).rxErr > 127 := by omega
  simp only [State.canRxGood, hlow, if_false, State.canShown]

theorem canReceived_active (htx : (s.canSt c).txErr < 128) (hrx : (s.canSt c).rxErr < 128) :
    ReceivedActive s c (s.canReceived c) := by
  have hack := canAck_marksOnly (s.canPut c fun x => { x with sending := none }) c
  unfold State.canReceived
  generalize (s.canPut c fun x => { x with sending := none }).canAck c = a at hack
  have hsame : a.canSt c = { s.canSt c with sending := none } := by rw [hack.canSt, canPut_canSt]
  rw [canRxGood_active a c (by rwa [hsame]), hsame]
  have hshown := canShown_shows (a.canPut c fun x => { x with rxErr := (s.canSt c).rxErr - 1 }) c
    (by rw [canPut_canSt, hsame]; exact htx) (by rw [canPut_canSt, hsame]; change _ - 1 < 128; omega)
  refine ⟨?_, hshown.state, ?_, ?_⟩
  · exact ((((EdgeOnly.refl _ s).canPut c _).trans (hack.only _)).canPut c _).trans hshown.only
  · rw [canSt_congr (congrArg _ hshown.edge), canPut_canSt, hsame]
  · rw [hshown.edge, canPut_pdus, hack.pdus, canPut_pdus]

end

section
variable {s : State} {c : Fin 32} {f : CanFrame}

/-- A classic frame goes past the check of its format. -/
theorem exec_canFrameRx_classic (hon : s.canOn c.val = true) (hfmt : f.fmt = 0) :
    exec (.canFrameRx c f) s = .next (if f.rtr then (s.canReceived c.val).inc (EDG_CAN_RX_RTR_COUNT c.val)
      else (s.canReceived c.val).canAccept c.val f) := by
  have harm : exec (.canFrameRx c f) s = execCanFrameRx c f s := rfl
  simp [harm, execCanFrameRx, hon, State.canTake, hfmt, State.canReceived]

theorem canFrameRx_remote_row (hon : s.canOn c.val = true) (hfmt : f.fmt = 0) (hrtr : f.rtr = true)
    (hrx : (s.canSt c.val).rxErr < 128) (htx : (s.canSt c.val).txErr < 128) :
    ∃ t, exec (.canFrameRx c f) s = .next t ∧
      (t.get (EDG_CAN_RX_RTR_COUNT c.val) = min (s.get (EDG_CAN_RX_RTR_COUNT c.val) + 1) (2 ^ (EDG_CAN_RX_RTR_COUNT c.val).w - 1) ∧
       (t.canSt c.val).rxErr = (s.canSt c.val).rxErr - 1 ∧ t.canState c.val = 2 ∧ (t.canSt c.val).sending = none ∧
       (t.canSt c.val).boxes = (s.canSt c.val).boxes ∧ RegsBut [EDG_CAN_STATUS c.val, EDG_CAN_RX_RTR c.val] s t ∧
       { t with regs := s.regs, edge := s.edge } = s) := by
  have hexec := exec_canFrameRx_classic hon hfmt
  rw [hrtr, if_pos rfl] at hexec
  have hrec := canReceived_active s c.val htx hrx
  have honly := (hrec.only.mono (l' := [EDG_CAN_STATUS c.val, EDG_CAN_RX_RTR c.val]) (by simp)).inc (EDG_CAN_RX_RTR_COUNT c.val)
    (a := EDG_CAN_RX_RTR c.val) rfl (by simp)
  refine ⟨_, hexec, ?_, ?_, ?_, ?_, ?_, honly.regs, honly.rest⟩
  · exact hrec.only.get_inc (a := EDG_CAN_RX_RTR c.val) rfl (by simpa using (status_ne_rxRtr c.val).symm) (by decide : 32 ≤ 64)
  · rw [inc_canSt, hrec.canSt]
  · exact (canState_set_other _ _ _ _ rfl (status_ne_rxRtr c.val)).trans hrec.state
  · rw [inc_canSt, hrec.canSt]
  · rw [inc_canSt, hrec.canSt]

theorem each_nil {α : Type} (s : State) (g : State → α → State) : s.each [] g = s := rfl

/-- A run over a list none of whose entries changes the state. -/
theorem each_eq_self {α : Type} {s : State} {l : List α} {g : State → α → State} (h : ∀ x ∈ l, g s x = s) : s.each l g = s := by
  induction l with
  | nil => rfl
  | cons x xs ih =>
    rw [State.each, List.foldl_cons, h x List.mem_cons_self]
    exact ih fun y hy => h y (List.mem_cons_of_mem x hy)

/-- A frame that no PDU of the banks matches, without tunnels, is counted as unmatched (R296). -/
theorem canAccept_of_unmatched {s : State} {c : Nat} {f : CanFrame}
    (hpdus : ((pdusOf s.fab.active).any fun p => canMatches p.2 c f) = false) (htuns : tunsOf s.fab.active = []) :
    s.canAccept c f = s.inc (EDG_CAN_RX_UNMATCHED_COUNT c) := by
  have hno : ∀ p ∈ pdusOf s.fab.active, canMatches p.2 c f = false := by simpa using hpdus
  have hread : (s.each (pdusOf s.fab.active) fun t p => if canMatches p.2 c f then t.rigTouch 1 p.1 else t) = s :=
    each_eq_self fun p hp => by simp [hno p hp]
  have hnone : (s.livePdus.filter fun p => canMatches p.2 c f) = [] :=
    List.filter_eq_nil_iff.mpr fun p hp => by simp [hno p (List.mem_filter.mp hp).1]
  have hlive : s.liveTuns = [] := by simp [State.liveTuns, htuns]
  simp [State.canAccept, hread, htuns, each_nil, hnone, hlive]

theorem canFrameRx_unmatched_row (hon : s.canOn c.val = true) (hfmt : f.fmt = 0) (hrtr : f.rtr = false)
    (hrx : (s.canSt c.val).rxErr < 128) (htx : (s.canSt c.val).txErr < 128)
    (hpdus : ((pdusOf s.fab.active).any fun p => canMatches p.2 c.val f) = false) (htuns : (tunsOf s.fab.active).isEmpty = true) :
    ∃ t, exec (.canFrameRx c f) s = .next t ∧
      (t.get (EDG_CAN_RX_UNMATCHED_COUNT c.val) =
        min (s.get (EDG_CAN_RX_UNMATCHED_COUNT c.val) + 1) (2 ^ (EDG_CAN_RX_UNMATCHED_COUNT c.val).w - 1) ∧
       (t.canSt c.val).rxErr = (s.canSt c.val).rxErr - 1 ∧ t.canState c.val = 2 ∧ t.edge.pdus = s.edge.pdus ∧
       RegsBut [EDG_CAN_STATUS c.val, EDG_CAN_RX_UNMATCHED c.val] s t ∧ { t with regs := s.regs, edge := s.edge } = s) := by
  have hrec := canReceived_active s c.val htx hrx
  have hexec := exec_canFrameRx_classic hon hfmt
  rw [hrtr, if_neg Bool.false_ne_true, canAccept_of_unmatched (by rwa [hrec.only.fab])
    (by rw [hrec.only.fab]; exact List.isEmpty_iff.mp htuns)] at hexec
  have honly := (hrec.only.mono (l' := [EDG_CAN_STATUS c.val, EDG_CAN_RX_UNMATCHED c.val]) (by simp)).inc
    (EDG_CAN_RX_UNMATCHED_COUNT c.val) (a := EDG_CAN_RX_UNMATCHED c.val) rfl (by simp)
  refine ⟨_, hexec, ?_, ?_, ?_, ?_, honly.regs, honly.rest⟩
  · exact hrec.only.get_inc (a := EDG_CAN_RX_UNMATCHED c.val) rfl (by simpa using (status_ne_rxUnmatched c.val).symm) (by decide : 32 ≤ 64)
  · rw [inc_canSt, hrec.canSt]
  · exact (canState_set_other _ _ _ _ rfl (status_ne_rxUnmatched c.val)).trans hrec.state
  · rw [State.inc_edge, hrec.pdus]

end

/-! ### Errors (R294, R301) -/

/-- LAST_ERR shows the kind of an error and ERR_CNT counts it (R294). -/
def State.canErrKind (s : State) (c code : Nat) : State := (s.set (EDG_CAN_STATUS_LAST_ERR c) code).inc (EDG_CAN_ERR_CNT_COUNT c)

section
variable (s : State) (c code : Nat)

theorem canErrKind_only : EdgeOnly [EDG_CAN_STATUS c, EDG_CAN_ERR_CNT c] s (s.canErrKind c code) :=
  ((EdgeOnly.refl _ s).set (EDG_CAN_STATUS_LAST_ERR c) code rfl List.mem_cons_self).inc (EDG_CAN_ERR_CNT_COUNT c)
    (a := EDG_CAN_ERR_CNT c) rfl (by simp)

@[simp] theorem canErrKind_edge : (s.canErrKind c code).edge = s.edge := by simp [State.canErrKind]

@[simp] theorem canErrKind_canSt (n : Nat) : (s.canErrKind c code).canSt n = s.canSt n := canSt_congr (by rw [canErrKind_edge]) n

theorem canErrKind_lastErr (hcode : code < 8) : (s.canErrKind c code).get (EDG_CAN_STATUS_LAST_ERR c) = code := by
  rw [State.canErrKind, inc_eq_set, get_set_other _ (EDG_CAN_ERR_CNT_COUNT c) _ _ rfl rfl (status_ne_errCnt c),
    get_set_same s (EDG_CAN_STATUS_LAST_ERR c) _ (by decide : 27 ≤ 64)]
  exact Nat.mod_eq_of_lt hcode

theorem canErrKind_count : (s.canErrKind c code).get (EDG_CAN_ERR_CNT_COUNT c) =
    min (s.get (EDG_CAN_ERR_CNT_COUNT c) + 1) (2 ^ (EDG_CAN_ERR_CNT_COUNT c).w - 1) :=
  ((EdgeOnly.refl [EDG_CAN_STATUS c] s).set (EDG_CAN_STATUS_LAST_ERR c) code rfl List.mem_cons_self).get_inc (a := EDG_CAN_ERR_CNT c) rfl
    (by simpa using (status_ne_errCnt c).symm) (by decide : 32 ≤ 64)

theorem canFail_receiver (xlData : Bool) : s.canFail c code false xlData =
    (((s.canFlag c xlData).canErrKind c code).canPut c fun x => { x with rxErr := x.rxErr + 1, sending := none }).canShown c := rfl

end

section
variable {s : State} {c : Fin 32} {e : CanErr}

theorem canError_receiver_row (hon : s.canOn c.val = true) (htxd : e.tx = false) (hsome : e.code ≠ 0) (hplain : e.code ≠ 7)
    (hrx : (s.canSt c.val).rxErr < 127) (htx : (s.canSt c.val).txErr < 128) :
    ∃ t, exec (.canError c e) s = .next t ∧
      (t.get (EDG_CAN_STATUS_LAST_ERR c.val) = e.code.val ∧
       t.get (EDG_CAN_ERR_CNT_COUNT c.val) = min (s.get (EDG_CAN_ERR_CNT_COUNT c.val) + 1) (2 ^ (EDG_CAN_ERR_CNT_COUNT c.val).w - 1) ∧
       (t.canSt c.val).rxErr = (s.canSt c.val).rxErr + 1 ∧ t.get (EDG_CAN_STATUS_REC c.val) = (s.canSt c.val).rxErr + 1 ∧
       t.canState c.val = 2 ∧ RegsBut [EDG_CAN_STATUS c.val, EDG_CAN_ERR_CNT c.val] s t ∧
       { t with regs := s.regs, edge := s.edge } = s) := by
  have hexec : exec (.canError c e) s = .next (s.canFail c.val e.code.val false e.xlData) := by
    have harm : exec (.canError c e) s = execCanError c e s := rfl
    simp [harm, execCanError, hon, htxd, hsome, hplain]
  have hflag := canFlag_marksOnly s c.val e.xlData
  rw [canFail_receiver] at hexec
  generalize s.canFlag c.val e.xlData = a at hexec hflag
  have hsame : (a.canErrKind c.val e.code.val).canSt c.val = s.canSt c.val := by rw [canErrKind_canSt, hflag.canSt]
  have hshown := canShown_shows ((a.canErrKind c.val e.code.val).canPut c.val fun x => { x with rxErr := x.rxErr + 1, sending := none })
    c.val (by rwa [canPut_canSt, hsame]) (by rw [canPut_canSt, hsame]; exact Nat.succ_lt_succ hrx)
  have honly := (((hflag.only _).trans (canErrKind_only a c.val e.code.val)).canPut c.val _).trans (hshown.only.mono (by simp))
  have hcanSt := canSt_congr (congrArg EdgeUnit.can hshown.edge) c.val
  rw [canPut_canSt, hsame] at hcanSt
  refine ⟨_, hexec, ?_, ?_, ?_, ?_, hshown.state, honly.regs, honly.rest⟩
  · rw [hshown.lastErr, canPut_get, canErrKind_lastErr _ _ _ e.code.isLt]
  · have hword : EDG_CAN_ERR_CNT c.val ∉ [EDG_CAN_STATUS c.val] := by simpa using (status_ne_errCnt c.val).symm
    rw [hshown.only.get (f := EDG_CAN_ERR_CNT_COUNT c.val) rfl hword, canPut_get, canErrKind_count, get_congr_regs hflag.regs]
  · rw [hcanSt]
  · rw [hshown.shownRec, canPut_canSt, hsame]

/-- A channel returns to bus integration from a protocol exception (R294). -/
theorem canException_eq (s : State) (c : Nat) : s.canException c = (((s.canErrKind c 7).set (EDG_CAN_EVENT_PROTOCOL_EXC c) 1).set
    (EDG_CAN_STATUS_STATE c) 1).canPut c fun x => { x with sending := none } := rfl

theorem canError_exception_row (hon : s.canOn c.val = true) (htxd : e.tx = false) (hcode : e.code = 7) :
    ∃ t, exec (.canError c e) s = .next t ∧
      (t.canState c.val = 1 ∧ t.get (EDG_CAN_STATUS_LAST_ERR c.val) = 7 ∧ t.on (EDG_CAN_EVENT_PROTOCOL_EXC c.val) = true ∧
       t.get (EDG_CAN_ERR_CNT_COUNT c.val) = min (s.get (EDG_CAN_ERR_CNT_COUNT c.val) + 1) (2 ^ (EDG_CAN_ERR_CNT_COUNT c.val).w - 1) ∧
       (t.canSt c.val).rxErr = (s.canSt c.val).rxErr ∧
       RegsBut [EDG_CAN_STATUS c.val, EDG_CAN_ERR_CNT c.val, EDG_CAN_EVENT c.val] s t ∧
       { t with regs := s.regs, edge := s.edge } = s) := by
  have hexec : exec (.canError c e) s = .next (s.canException c.val) := by
    have harm : exec (.canError c e) s = execCanError c e s := rfl
    simp [harm, execCanError, hon, htxd, hcode]
  rw [canException_eq] at hexec
  have hkind := (canErrKind_only s c.val 7).mono (l' := [EDG_CAN_STATUS c.val, EDG_CAN_ERR_CNT c.val, EDG_CAN_EVENT c.val]) (by simp)
  have honly := ((hkind.set (EDG_CAN_EVENT_PROTOCOL_EXC c.val) 1 (a := EDG_CAN_EVENT c.val) rfl (by simp)).set
    (EDG_CAN_STATUS_STATE c.val) 1 rfl List.mem_cons_self).canPut c.val fun x => { x with sending := none }
  refine ⟨_, hexec, ?_, ?_, ?_, ?_, ?_, honly.regs, honly.rest⟩
  · rw [canPut_canState, canState_set_state _ _ 1 (by decide)]
  · rw [canPut_get, lastErr_set_state, get_set_other _ (EDG_CAN_EVENT_PROTOCOL_EXC c.val) _ _ rfl rfl (status_ne_event c.val),
      canErrKind_lastErr _ _ _ (by decide)]
  · rw [State.on, canPut_get, get_set_other _ (EDG_CAN_STATUS_STATE c.val) _ _ rfl rfl (status_ne_event c.val).symm]
    exact beq_iff_eq.mpr (get_set_same _ (EDG_CAN_EVENT_PROTOCOL_EXC c.val) 1 (by decide : 4 ≤ 64))
  · rw [canPut_get, get_set_other _ (EDG_CAN_STATUS_STATE c.val) _ _ rfl rfl (status_ne_errCnt c.val).symm,
      get_set_other _ (EDG_CAN_EVENT_PROTOCOL_EXC c.val) _ _ rfl rfl (event_ne_errCnt c.val).symm, canErrKind_count]
  · rw [canPut_canSt, set_canSt, set_canSt, canErrKind_canSt]

end

/-! ### The end of a recovery (R295) -/

/-- The counters of channel `c` are 0 and shown, and it is ERROR_ACTIVE. -/
def State.canRestarted (s : State) (c : Nat) : State :=
  ((s.canPut c fun x => { x with txErr := 0, rxErr := 0, recovering := false }).canShowErr c).set (EDG_CAN_STATUS_STATE c) 2

theorem canRestarted_only (s : State) (c : Nat) : EdgeOnly [EDG_CAN_STATUS c] s (s.canRestarted c) :=
  (((EdgeOnly.refl _ s).canPut c _).trans (canShowErr_only _ c)).set (EDG_CAN_STATUS_STATE c) 2 rfl List.mem_cons_self

section
variable {s : State} {c : Fin 32}

theorem canRecoveryDone_row (hup : s.up .edge = true) (hrecovers : (s.canSt c.val).recovering = true) :
    ∃ t, exec (.canRecoveryDone c) s = .next t ∧
      (t.canState c.val = 2 ∧ (t.canSt c.val).recovering = false ∧ t.get (EDG_CAN_STATUS_TEC c.val) = 0 ∧
       t.get (EDG_CAN_STATUS_REC c.val) = 0 ∧ t.on (EDG_CAN_EVENT_RECOVERED c.val) = true ∧
       t.get (EDG_CAN_BUSOFF_CNT_COUNT c.val) =
         min (s.get (EDG_CAN_BUSOFF_CNT_COUNT c.val) + 1) (2 ^ (EDG_CAN_BUSOFF_CNT_COUNT c.val).w - 1) ∧
       RegsBut [EDG_CAN_STATUS c.val, EDG_CAN_EVENT c.val, EDG_CAN_BUSOFF_CNT c.val] s t ∧
       { t with regs := s.regs, edge := s.edge } = s) := by
  have hexec : exec (.canRecoveryDone c) s =
      .next (((s.canRestarted c.val).set (EDG_CAN_EVENT_RECOVERED c.val) 1).inc (EDG_CAN_BUSOFF_CNT_COUNT c.val)) := by
    have harm : exec (.canRecoveryDone c) s = execCanRecoveryDone c s := rfl
    simp only [harm, execCanRecoveryDone, hup, hrecovers, Bool.and_self, if_true, State.canRestarted]
  have hevent : EdgeOnly [EDG_CAN_STATUS c.val, EDG_CAN_EVENT c.val] s ((s.canRestarted c.val).set (EDG_CAN_EVENT_RECOVERED c.val) 1) :=
    ((canRestarted_only s c.val).mono (by simp)).set (EDG_CAN_EVENT_RECOVERED c.val) 1 (a := EDG_CAN_EVENT c.val) rfl (by simp)
  have honly := (hevent.mono (l' := [EDG_CAN_STATUS c.val, EDG_CAN_EVENT c.val, EDG_CAN_BUSOFF_CNT c.val]) (by simp)).inc
    (EDG_CAN_BUSOFF_CNT_COUNT c.val) (a := EDG_CAN_BUSOFF_CNT c.val) rfl (by simp)
  /- The status as the restart leaves it: neither the event nor the count lies in its word. -/
  have hstatus {f : Fld} (hf : f.words = [EDG_CAN_STATUS c.val]) :
      (((s.canRestarted c.val).set (EDG_CAN_EVENT_RECOVERED c.val) 1).inc (EDG_CAN_BUSOFF_CNT_COUNT c.val)).get f =
        (s.canRestarted c.val).get f := by
    rw [inc_eq_set, get_set_other _ _ _ _ rfl hf (status_ne_busOffCnt c.val), get_set_other _ _ _ _ rfl hf (status_ne_event c.val)]
  refine ⟨_, hexec, ?_, ?_, ?_, ?_, ?_, ?_, honly.regs, honly.rest⟩
  · exact (hstatus rfl).trans (canState_set_state _ _ 2 (by decide))
  · rw [inc_canSt, set_canSt, State.canRestarted, set_canSt, canShowErr_canSt, canPut_canSt]
  · rw [hstatus rfl, State.canRestarted, tec_set_state, canShowErr_tec, canPut_canSt]
    rfl
  · rw [hstatus rfl, State.canRestarted, rec_set_state, canShowErr_rec, canPut_canSt]
    rfl
  · rw [State.on, inc_eq_set, get_set_other _ _ _ _ rfl rfl (event_ne_busOffCnt c.val)]
    exact beq_iff_eq.mpr (get_set_same _ (EDG_CAN_EVENT_RECOVERED c.val) 1 (by decide : 3 ≤ 64))
  · refine hevent.get_inc (a := EDG_CAN_BUSOFF_CNT c.val) rfl ?_ (by decide : 32 ≤ 64)
    simpa using ⟨(status_ne_busOffCnt c.val).symm, (event_ne_busOffCnt c.val).symm⟩

end
end Sys2Proof.Machine
end

section
/-! PROOFS, family 09_edge_and_rigger: transmission on a CAN channel (O22). -/
namespace Sys2Proof.Machine

/-! ### The start of a frame (R297) -/

/-- The best of a queue stands in it. -/
theorem canBest_mem {l : List (Nat × CanTx)} {x : Nat × CanTx} (h : canBest l = some x) : x ∈ l := by
  induction l with
  | nil => simp [canBest] at h
  | cons y ys ih =>
    rw [canBest] at h
    split at h
    · cases h
      exact List.mem_cons_self
    · next z hz =>
      split at h
      · exact List.mem_cons_of_mem y (ih (hz.trans h))
      · cases h
        exact List.mem_cons_self

section
variable (s : State) (c : Nat)

theorem canPrune_only : EdgeOnly [EDG_CAN_TX_LATE_DROP c] s (s.canPrune c) :=
  ((EdgeOnly.refl _ s).canPut c _).add (EDG_CAN_TX_LATE_DROP_COUNT c) _ rfl List.mem_cons_self

theorem canPrune_canSt : (s.canPrune c).canSt c = { s.canSt c with
    boxes := (s.canSt c).boxes.filter fun b => !s.canLate b.2, fifo := (s.canSt c).fifo.filter fun b => !s.canLate b } := by
  rw [State.canPrune, add_canSt, canPut_canSt]

theorem canPrune_canOut : (s.canPrune c).edge.canOut = s.edge.canOut := by rw [State.canPrune, State.add_edge, canPut_canOut]

/-- No frame of a pruned queue is past its deadline. -/
theorem canLate_of_pruned {x : Nat × CanTx} (h : x ∈ (s.canPrune c).canQueue c) : s.canLate x.2 = false := by
  rw [State.canQueue, canPrune_canSt, List.mem_append] at h
  rcases h with hbox | hhead
  · simpa using (List.mem_filter.mp hbox).2
  · obtain ⟨y, hy, rfl⟩ := List.mem_map.mp hhead
    simpa using (List.mem_filter.mp (List.mem_of_mem_take hy)).2

theorem canStart_of_unarmed {x : Nat × CanTx} (h : s.injArmedFor 21 c = false) :
    s.canStart c x = s.canPut c fun y => { y with sending := some x, sof := s.canSof } := by
  have hsame : (s.canPut c fun y => { y with sending := some x, sof := s.canSof }).injArmedFor 21 c = false := h
  simp [State.canStart, hsame]

end

/-- The words of the Edge island do not arm an injection. -/
theorem EdgeOnly.canErrArmed {l : List Nat} {s t : State} (h : EdgeOnly l s t) (hl : ∀ a ∈ l, inEdge a = true) (c : Nat) :
    t.injArmedFor 21 c = s.injArmedFor 21 c := by
  have hword : INJ_ARM 21 ∉ l := fun hm => absurd (hl _ hm) (by decide)
  rw [State.injArmedFor, h.on (f := INJ_ARM_ARM 21) rfl hword, h.get (f := INJ_ARM_TARGET 21) rfl hword, State.injArmedFor]

section
variable {s : State} {c : Fin 32}

theorem lateDrop_inEdge (c : Fin 32) : inEdge (EDG_CAN_TX_LATE_DROP c.val) = true := by
  revert c
  decide

theorem canTxStart_row (hon : s.canOn c.val = true) (hmode : s.get (EDG_CAN_CTRL_MODE c.val) = 0)
    (hidle : (s.canSt c.val).sending = none) (harmed : s.injArmedFor 21 c.val = false) (x : Nat × CanTx)
    (hx : canBest ((s.canPrune c.val).canQueue c.val) = some x) :
    ∃ t, exec (.canTxStart c) s = .next t ∧
      ((t.canSt c.val).sending = some x ∧ s.canLate x.2 = false ∧
       (t.canSt c.val).fifo = (s.canSt c.val).fifo.filter (fun y => !s.canLate y) ∧ t.edge.canOut = s.edge.canOut ∧
       RegsBut [EDG_CAN_TX_LATE_DROP c.val] s t ∧ { t with regs := s.regs, edge := s.edge } = s) := by
  have hprune := canPrune_only s c.val
  have hquiet : (s.canPrune c.val).injArmedFor 21 c.val = false :=
    (hprune.canErrArmed (by simp [lateDrop_inEdge]) c.val).trans harmed
  have hexec : exec (.canTxStart c) s = .next ((s.canPrune c.val).canStart c.val x) := by
    have harm : exec (.canTxStart c) s = execCanTxStart c s := rfl
    simp [harm, execCanTxStart, hon, hmode, hidle, hx]
  rw [canStart_of_unarmed _ _ hquiet] at hexec
  have honly := hprune.canPut c.val fun y => { y with sending := some x, sof := (s.canPrune c.val).canSof }
  refine ⟨_, hexec, ?_, canLate_of_pruned s c.val (canBest_mem hx), ?_, ?_, honly.regs, honly.rest⟩
  · rw [canPut_canSt]
  · rw [canPut_canSt, canPrune_canSt]
  · rw [canPut_canOut, canPrune_canOut]

end

/-! ### The end of a frame (R297) -/

section
variable (y : CanSt) (x : Nat × CanTx)

/-- Of the counters a sent frame lowers TEC alone (R294). -/
theorem canSent_counters : (canSent y x).txErr = y.txErr - 1 ∧ (canSent y x).rxErr = y.rxErr ∧ (canSent y x).sof = y.sof := by
  simp only [canSent]
  split
  · exact ⟨rfl, rfl, rfl⟩
  · split <;> exact ⟨rfl, rfl, rfl⟩

end

/-- The frame that channel `c` was sending has left its queue, and the counters show it (R294, R297). -/
def State.canTxLeft (s : State) (c : Nat) (x : Nat × CanTx) : State := (s.canPut c fun y => canSent y x).canShown c

/-- A frame that was sent counts, and its start is shown (R297). -/
def State.canTxShown (s : State) (c sof : Nat) : State := (s.inc (EDG_CAN_TX_FRAMES_COUNT c)).set (EDG_CAN_LAST_TX_SHORT c) sof

section
variable {s : State} {c : Fin 32}

theorem status_ne_txFrames (c : Nat) : EDG_CAN_STATUS c ≠ EDG_CAN_TX_FRAMES c := by simp [EDG_CAN_STATUS, EDG_CAN_TX_FRAMES]
theorem status_ne_lastTx (c : Nat) : EDG_CAN_STATUS c ≠ EDG_CAN_LAST_TX c := by simp [EDG_CAN_STATUS, EDG_CAN_LAST_TX]
theorem txFrames_ne_lastTx (c : Nat) : EDG_CAN_TX_FRAMES c ≠ EDG_CAN_LAST_TX c := by simp [EDG_CAN_TX_FRAMES, EDG_CAN_LAST_TX]

theorem canTxDone_row (x : Nat × CanTx) (hx : (s.canSt c.val).sending = some x) (hdrives : s.bankDrives 11 = true)
    (hon : s.canOn c.val = true) (htx : (s.canSt c.val).txErr < 128) (hrx : (s.canSt c.val).rxErr < 128) :
    ∃ t, exec (.canTxDone c) s = .next t ∧
      (t.canSt c.val = canSent (s.canSt c.val) x ∧ t.edge.canOut = s.edge.canOut ++ [(c.val, s.canOnBus c.val x.2)] ∧
       t.canState c.val = 2 ∧
       t.get (EDG_CAN_TX_FRAMES_COUNT c.val) = min (s.get (EDG_CAN_TX_FRAMES_COUNT c.val) + 1) (2 ^ (EDG_CAN_TX_FRAMES_COUNT c.val).w - 1) ∧
       t.get (EDG_CAN_LAST_TX_SHORT c.val) = (s.canSt c.val).sof % 2 ^ 32 ∧
       RegsBut [EDG_CAN_STATUS c.val, EDG_CAN_TX_FRAMES c.val, EDG_CAN_LAST_TX c.val] s t ∧
       { t with regs := s.regs, edge := s.edge } = s) := by
  obtain ⟨hless, hsame, hsof⟩ := canSent_counters (s.canSt c.val) x
  have hshown : ShownActive (s.canPut c.val fun y => canSent y x) c.val (s.canTxLeft c.val x) :=
    canShown_shows _ _ (by rw [canPut_canSt, hless]; omega) (by rwa [canPut_canSt, hsame])
  have hexec : exec (.canTxDone c) s = .next (((s.canTxLeft c.val x).canTxShown c.val ((s.canTxLeft c.val x).canSt c.val).sof).eset
      fun e => { e with canOut := e.canOut ++ [(c.val, s.canOnBus c.val x.2)] }) := by
    have harm : exec (.canTxDone c) s = execCanTxDone c s := rfl
    simp only [harm, execCanTxDone, hx, hon, hdrives, Bool.not_true, Bool.false_eq_true, if_false, if_true]
    rfl
  have hcanSt : (s.canTxLeft c.val x).canSt c.val = canSent (s.canSt c.val) x :=
    (canSt_congr (congrArg EdgeUnit.can hshown.edge) c.val).trans (canPut_canSt s c.val _)
  have hout : (s.canTxLeft c.val x).edge.canOut = s.edge.canOut := by rw [hshown.edge, canPut_canOut]
  have hleft := ((EdgeOnly.refl _ s).canPut c.val fun y => canSent y x).trans hshown.only
  rw [hcanSt, hsof] at hexec
  have honly := (((hleft.mono (l' := [EDG_CAN_STATUS c.val, EDG_CAN_TX_FRAMES c.val, EDG_CAN_LAST_TX c.val]) (by simp)).inc
    (EDG_CAN_TX_FRAMES_COUNT c.val) (a := EDG_CAN_TX_FRAMES c.val) rfl (by simp)).set (EDG_CAN_LAST_TX_SHORT c.val) (s.canSt c.val).sof
      (a := EDG_CAN_LAST_TX c.val) rfl (by simp)).eset fun e => { e with canOut := e.canOut ++ [(c.val, s.canOnBus c.val x.2)] }
  refine ⟨_, hexec, ?_, ?_, ?_, ?_, ?_, honly.regs, honly.rest⟩
  · exact (canSt_congr (by simp [State.canTxShown]) c.val).trans hcanSt
  · simp [State.canTxShown, hout]
  · rw [State.canState, State.eset_get, State.canTxShown, get_set_other _ (EDG_CAN_LAST_TX_SHORT c.val) _ _ rfl rfl
      (status_ne_lastTx c.val), inc_eq_set, get_set_other _ (EDG_CAN_TX_FRAMES_COUNT c.val) _ _ rfl rfl (status_ne_txFrames c.val)]
    exact hshown.state
  · rw [State.eset_get, State.canTxShown, get_set_other _ (EDG_CAN_LAST_TX_SHORT c.val) _ _ rfl rfl (txFrames_ne_lastTx c.val)]
    exact hleft.get_inc (a := EDG_CAN_TX_FRAMES c.val) rfl (by simpa using (status_ne_txFrames c.val).symm) (by decide : 32 ≤ 64)
  · rw [State.eset_get, State.canTxShown, get_set_same _ (EDG_CAN_LAST_TX_SHORT c.val) _ (by decide : 32 ≤ 64)]
    rfl

end

/-! ### A passed deadline (R297) -/

/-- The entry of a queue with this mailbox, or place of the FIFO, is gone. -/
def canDropped (y : CanSt) (box place : Nat) : CanSt :=
  if box = 32 then { y with fifo := y.fifo.eraseIdx place } else { y with boxes := SMap.erase y.boxes box }

theorem canTxDeadline_row {s : State} {c : Fin 32} (hup : s.up .edge = true) (r : Nat × Nat × CanTx)
    (hr : s.canEarliest c.val = some r) :
    ∃ t, exec (.canTxDeadline c) s = .next t ∧
      (t.canSt c.val = canDropped (s.canSt c.val) r.1 r.2.1 ∧
       t.get (EDG_CAN_TX_LATE_DROP_COUNT c.val) =
         min (s.get (EDG_CAN_TX_LATE_DROP_COUNT c.val) + 1) (2 ^ (EDG_CAN_TX_LATE_DROP_COUNT c.val).w - 1) ∧
       RegsBut [EDG_CAN_TX_LATE_DROP c.val] s t ∧ { t with regs := s.regs, edge := s.edge } = s) := by
  have hexec : exec (.canTxDeadline c) s =
      .next ((s.canPut c.val fun y => canDropped y r.1 r.2.1).inc (EDG_CAN_TX_LATE_DROP_COUNT c.val)) := by
    have harm : exec (.canTxDeadline c) s = execCanTxDeadline c s := rfl
    simp only [harm, execCanTxDeadline, hup, hr, Bool.not_true, Bool.false_eq_true, if_false, canDropped]
  have hput := (EdgeOnly.refl [] s).canPut c.val fun y => canDropped y r.1 r.2.1
  have honly := (hput.mono (l' := [EDG_CAN_TX_LATE_DROP c.val]) (by simp)).inc (EDG_CAN_TX_LATE_DROP_COUNT c.val)
    (a := EDG_CAN_TX_LATE_DROP c.val) rfl (by simp)
  refine ⟨_, hexec, ?_, ?_, honly.regs, honly.rest⟩
  · rw [inc_canSt, canPut_canSt]
  · exact hput.get_inc rfl List.not_mem_nil (by decide : 32 ≤ 64)

end Sys2Proof.Machine
end

section
/-! PROOFS, family 09_edge_and_rigger: the register of a CAN channel (O22). -/
namespace Sys2Proof.Machine

/-! ### Bits that a write stores (R10) -/

theorem bit_eq_testBit (v k : Nat) : bit v k = v.testBit k := by
  rw [bit, Nat.testBit_eq_decide_div_mod_eq]
  rfl

theorem bit_withBit_ne (v : Word) {k j : Nat} (h : j ≠ k) : bit (withBit v k).toNat j = bit v.toNat j := by
  rw [bit_toNat, bit_toNat, withBit, BitVec.getLsbD_or, BitVec.getLsbD_ofNat, Nat.testBit_two_pow_of_ne h.symm]
  simp

theorem bit_noBit_ne (v : Word) {k j : Nat} (h : j ≠ k) (hj : j < 32) : bit (noBit v k).toNat j = bit v.toNat j := by
  rw [bit_toNat, bit_toNat, noBit, BitVec.getLsbD_and, BitVec.getLsbD_not, BitVec.getLsbD_ofNat, Nat.testBit_two_pow_of_ne h.symm]
  simp [hj]

/-- An RW or RWL bit takes the written one. -/
theorem bit_storedValue {d : RegDef} {w k : Nat} (hk : k < 32) (hrw : (accMask d w [.rw, .rwl]).testBit k = true)
    (hkept : (whole - accMask d w [.rw, .rwl]).testBit k = false) (old v : Nat) :
    bit (BitVec.ofNat 32 (storedValue d w old v)).toNat k = bit v k := by
  rw [BitVec.toNat_ofNat, bit_eq_testBit, Nat.testBit_mod_two_pow, bit_eq_testBit]
  simp [storedValue, hk, hrw, hkept]

/-- A write that repeats the RW and RWL bits of a word without W1C bits leaves the word. -/
theorem storedValue_of_same {d : RegDef} {w : Nat} (hall : accMask d w [.rw, .rwl] ||| (whole - accMask d w [.rw, .rwl]) = 2 ^ 32 - 1)
    (hone : accMask d w [.w1c] = 0) (old v : Word)
    (hsame : v.toNat &&& accMask d w [.rw, .rwl] = old.toNat &&& accMask d w [.rw, .rwl]) :
    BitVec.ofNat 32 (storedValue d w old.toNat v.toNat) = old := by
  have hkept : (old.toNat &&& (whole - accMask d w [.rw, .rwl])) &&& whole = old.toNat &&& (whole - accMask d w [.rw, .rwl]) := by
    rw [show whole = 2 ^ 32 - 1 from rfl, Nat.and_two_pow_sub_one_eq_mod,
      Nat.mod_eq_of_lt (lt_of_le_of_lt Nat.and_le_left old.isLt)]
  rw [storedValue, hone, Nat.and_zero, Nat.sub_zero, hkept, hsame, ← Nat.and_or_distrib_left, hall, Nat.and_two_pow_sub_one_eq_mod,
    Nat.mod_eq_of_lt old.isLt]
  simp

/-! ### The register EDG_CAN_CTRL -/

/-- EDG_CAN_CTRL as the map defines it. -/
def canCtrlDef : RegDef := ⟨.EDG_CAN_CTRL, 0xE00000, [(0x100, 32)], 1, .edge, false, false, 0x0,
  [⟨9, 9, .rw, []⟩, ⟨8, 8, .rw, []⟩, ⟨7, 7, .rw, []⟩, ⟨6, 6, .rw, []⟩, ⟨4, 4, .wo, []⟩, ⟨3, 3, .rw, []⟩,
   ⟨2, 1, .rw, [(0, 2)]⟩, ⟨0, 0, .rw, []⟩]⟩

theorem regAt_canCtrl (c : Fin 32) : regAt (EDG_CAN_CTRL c.val) = some (canCtrlDef, [c.val], 0) := by
  revert c
  decide +kernel

/-- EDG_CAN_CTRL has taken the written word. -/
def State.canStored (s : State) (c : Nat) (v : Word) : State :=
  s.wr (EDG_CAN_CTRL c) (BitVec.ofNat 32 (storedValue canCtrlDef 0 (s.rd (EDG_CAN_CTRL c)).toNat v.toNat))

/-- The words of a channel's set-up and state. -/
def canSetUp (c : Nat) : List Nat := [EDG_CAN_CTRL c, EDG_CAN_STATUS c]

theorem canSetUp_inEdge (c : Fin 32) : ∀ a ∈ canSetUp c.val, inEdge a = true := by
  revert c
  decide

theorem rigStatus_notMem_canSetUp : ∀ c : Fin 32, RIG_STATUS ∉ canSetUp c.val := by decide

theorem status_mem_canSetUp (c : Nat) : EDG_CAN_STATUS c ∈ canSetUp c := List.mem_cons_of_mem _ List.mem_cons_self

theorem ctrl_ne_status (c : Nat) : EDG_CAN_CTRL c ≠ EDG_CAN_STATUS c := by simp [EDG_CAN_CTRL, EDG_CAN_STATUS]

section
variable {s : State} {who : Initiator} {c : Fin 32} {v : Word}

/-- An accepted write of EDG_CAN_CTRL stores its word, and the channel follows. -/
theorem write_canCtrl (h : s.takesWrite who (EDG_CAN_CTRL c.val) v) :
    s.write who (EDG_CAN_CTRL c.val) v =
      s.holdFaultN ((s.canStored c.val v).canHook c.val (s.rd (EDG_CAN_CTRL c.val)).toNat v.toNat) :=
  (write_takes s v (regAt_canCtrl c) (by rw [EDG_CAN_CTRL]; omega) (by rw [EDG_CAN_CTRL]; omega) h).trans
    (congrArg s.holdFaultN rfl)

/-- A write of EDG_CAN_CTRL is accepted with the Edge island up (R31). -/
theorem up_of_takesWrite_canCtrl (h : s.takesWrite who (EDG_CAN_CTRL c.val) v) : s.up .edge = true := by
  obtain ⟨-, -, -, -, hmeets⟩ := h
  simp only [State.writeMeets, regAt_canCtrl, Bool.and_eq_true] at hmeets
  obtain ⟨⟨hup, -⟩, -⟩ := hmeets
  exact hup

theorem canStored_only (s : State) (c : Nat) (v : Word) : RegsOnly (canSetUp c) s (s.canStored c v) :=
  (RegsOnly.refl _ s).wr _ List.mem_cons_self

theorem canStored_enable (s : State) (c : Nat) (v : Word) : (s.canStored c v).on (EDG_CAN_CTRL_ENABLE c) = bit v.toNat 0 := by
  rw [EDG_CAN_CTRL_ENABLE, on_eq_bit _ _ _ (by decide), State.canStored, rd_wr_same]
  exact bit_storedValue (by decide) (by decide) (by decide) _ _

theorem canStored_canState (s : State) (c : Nat) (v : Word) : (s.canStored c v).canState c = s.canState c :=
  get_wr_ne s (EDG_CAN_STATUS_STATE c) _ fun hm => ctrl_ne_status c (List.mem_singleton.mp hm)

/-! ### ENABLE from 0 to 1 (R294, R326) -/

theorem canHook_of_enable {s : State} {c old act : Nat} (hold : bit old 0 = false) (hen : s.on (EDG_CAN_CTRL_ENABLE c) = true)
    (hrec : bit act 4 = false) : s.canHook c old act = s.canGo c := by
  simp [State.canHook, hold, hen, hrec]

theorem canGo_only (s : State) (c : Nat) : RegsOnly [EDG_CAN_STATUS c] s (s.canGo c) := by
  unfold State.canGo
  split
  · exact (RegsOnly.refl _ s).set (EDG_CAN_STATUS_STATE c) 1 fun _ ha => ha
  · exact RegsOnly.refl _ s

theorem canGo_state {s : State} {c : Nat} (hup : s.up .edge = true) (hen : s.on (EDG_CAN_CTRL_ENABLE c) = true)
    (hoff : s.canState c = 0) : (s.canGo c).canState c = if s.on RIG_STATUS_READY then 1 else 0 := by
  simp only [State.canGo, State.rigReady, hup, hen, hoff, Bool.true_and, Bool.and_true, beq_self_eq_true]
  split
  · exact canState_set_state s c 1 (by decide)
  · exact hoff

theorem canEnable_row (h : s.takesWrite who (EDG_CAN_CTRL c.val) (withBit v 0)) (hdis : s.on (EDG_CAN_CTRL_ENABLE c.val) = false)
    (hoff : s.canState c.val = 0) (hrec : bit v.toNat 4 = false) :
    ∃ t, exec (.canEnable who c v) s = .next t ∧
      (t.on (EDG_CAN_CTRL_ENABLE c.val) = true ∧ t.canState c.val = (if s.on RIG_STATUS_READY then 1 else 0) ∧
       RegsBut (canSetUp c.val) s t ∧ { t with regs := s.regs } = s) := by
  have hstored := canStored_only s c.val (withBit v 0)
  have hsame := EdgeOnly.of_regsOnly hstored
  have hen : (s.canStored c.val (withBit v 0)).on (EDG_CAN_CTRL_ENABLE c.val) = true :=
    (canStored_enable ..).trans (bit_withBit v (by decide))
  have hup : (s.canStored c.val (withBit v 0)).up .edge = true :=
    (hsame.up (canSetUp_inEdge c) _ _).trans (up_of_takesWrite_canCtrl h)
  have hgo := canGo_only (s.canStored c.val (withBit v 0)) c.val
  have honly := hstored.trans (hgo.mono (by simp [canSetUp]))
  have hhook : (s.canStored c.val (withBit v 0)).canHook c.val (s.rd (EDG_CAN_CTRL c.val)).toNat (withBit v 0).toNat =
      (s.canStored c.val (withBit v 0)).canGo c.val :=
    canHook_of_enable ((on_eq_bit s _ 0 (by decide)).symm.trans hdis) hen ((bit_withBit_ne v (by decide)).trans hrec)
  have hexec : exec (.canEnable who c v) s = .next ((s.canStored c.val (withBit v 0)).canGo c.val) := by
    have harm : exec (.canEnable who c v) s = .next (s.write who (EDG_CAN_CTRL c.val) (withBit v 0)) := rfl
    rw [harm, write_canCtrl h, hhook, (EdgeOnly.of_regsOnly honly).holdFaultN (canSetUp_inEdge c)]
  refine ⟨_, hexec, ?_, ?_, honly.regs, honly.rest⟩
  · exact ((EdgeOnly.of_regsOnly hgo).on (a := EDG_CAN_CTRL c.val) rfl (by simpa using ctrl_ne_status c.val)).trans hen
  · rw [canGo_state hup hen ((canStored_canState ..).trans hoff), hsame.on (a := RIG_STATUS) rfl (rigStatus_notMem_canSetUp c)]

/-! ### ENABLE from 1 to 0 (R294) -/

/-- Channel `c` is OFF, its error counters at 0, with nothing on its bus; what is queued stays (R294). -/
def State.canTurnedOff (s : State) (c : Nat) : State :=
  (((s.set (EDG_CAN_STATUS_STATE c) 0).set (EDG_CAN_STATUS_TEC c) 0).set (EDG_CAN_STATUS_REC c) 0).canPut c fun x =>
    { x with txErr := 0, rxErr := 0, sending := none, recovering := false }

theorem canHook_of_disable {s : State} {c old act : Nat} (hold : bit old 0 = true) (hdis : s.on (EDG_CAN_CTRL_ENABLE c) = false)
    (hrec : bit act 4 = false) : s.canHook c old act = s.canTurnedOff c := by
  simp [State.canHook, hold, hdis, hrec, State.canTurnedOff]

section
variable (s : State) (c : Nat)

theorem canTurnedOff_only : EdgeOnly (canSetUp c) s (s.canTurnedOff c) :=
  ((((EdgeOnly.refl _ s).set (EDG_CAN_STATUS_STATE c) 0 rfl (status_mem_canSetUp c)).set (EDG_CAN_STATUS_TEC c) 0 rfl
    (status_mem_canSetUp c)).set (EDG_CAN_STATUS_REC c) 0 rfl (status_mem_canSetUp c)).canPut c _

theorem canTurnedOff_canSt : (s.canTurnedOff c).canSt c =
    { s.canSt c with txErr := 0, rxErr := 0, sending := none, recovering := false } := by
  rw [State.canTurnedOff, canPut_canSt, set_canSt, set_canSt, set_canSt]

theorem canTurnedOff_shows : (s.canTurnedOff c).canState c = 0 ∧ (s.canTurnedOff c).get (EDG_CAN_STATUS_TEC c) = 0 ∧
    (s.canTurnedOff c).get (EDG_CAN_STATUS_REC c) = 0 := by
  have htecRec : (EDG_CAN_STATUS_TEC c).apart (EDG_CAN_STATUS_REC c) :=
    .inr ⟨rfl, (by decide : 16 ≤ 32), (by decide : 23 ≤ 32), .inl (by decide : 16 ≤ 16)⟩
  have hstateRec : (EDG_CAN_STATUS_STATE c).apart (EDG_CAN_STATUS_REC c) :=
    .inr ⟨rfl, (by decide : 3 ≤ 32), (by decide : 23 ≤ 32), .inl (by decide : 3 ≤ 16)⟩
  have hstateTec : (EDG_CAN_STATUS_STATE c).apart (EDG_CAN_STATUS_TEC c) :=
    .inr ⟨rfl, (by decide : 3 ≤ 32), (by decide : 16 ≤ 32), .inl (by decide : 3 ≤ 8)⟩
  refine ⟨?_, ?_, ?_⟩
  · rw [State.canState, State.canTurnedOff, canPut_get, get_set_apart _ _ _ _ hstateRec, get_set_apart _ _ _ _ hstateTec]
    exact canState_set_state s c 0 (by decide)
  · rw [State.canTurnedOff, canPut_get, get_set_apart _ _ _ _ htecRec, get_set_same _ (EDG_CAN_STATUS_TEC c) _ (by decide : 16 ≤ 64)]
    rfl
  · rw [State.canTurnedOff, canPut_get, get_set_same _ (EDG_CAN_STATUS_REC c) _ (by decide : 23 ≤ 64)]
    rfl

end

theorem canDisable_row (h : s.takesWrite who (EDG_CAN_CTRL c.val) (noBit v 0)) (hen : s.on (EDG_CAN_CTRL_ENABLE c.val) = true)
    (hrec : bit v.toNat 4 = false) :
    ∃ t, exec (.canDisable who c v) s = .next t ∧
      (t.canState c.val = 0 ∧ t.get (EDG_CAN_STATUS_TEC c.val) = 0 ∧ t.get (EDG_CAN_STATUS_REC c.val) = 0 ∧
       t.canSt c.val = { s.canSt c.val with txErr := 0, rxErr := 0, sending := none, recovering := false } ∧
       RegsBut (canSetUp c.val) s t ∧ { t with regs := s.regs, edge := s.edge } = s) := by
  have honly := (EdgeOnly.of_regsOnly (canStored_only s c.val (noBit v 0))).trans (canTurnedOff_only _ c.val)
  have hdis : (s.canStored c.val (noBit v 0)).on (EDG_CAN_CTRL_ENABLE c.val) = false :=
    (canStored_enable ..).trans (bit_noBit v (by decide))
  have hhook : (s.canStored c.val (noBit v 0)).canHook c.val (s.rd (EDG_CAN_CTRL c.val)).toNat (noBit v 0).toNat =
      (s.canStored c.val (noBit v 0)).canTurnedOff c.val :=
    canHook_of_disable ((on_eq_bit s _ 0 (by decide)).symm.trans hen) hdis ((bit_noBit_ne v (by decide) (by decide)).trans hrec)
  have hexec : exec (.canDisable who c v) s = .next ((s.canStored c.val (noBit v 0)).canTurnedOff c.val) := by
    have harm : exec (.canDisable who c v) s = .next (s.write who (EDG_CAN_CTRL c.val) (noBit v 0)) := rfl
    rw [harm, write_canCtrl h, hhook, honly.holdFaultN (canSetUp_inEdge c)]
  obtain ⟨hstate, htec, hrecCount⟩ := canTurnedOff_shows (s.canStored c.val (noBit v 0)) c.val
  exact ⟨_, hexec, hstate, htec, hrecCount, canTurnedOff_canSt _ c.val, honly.regs, honly.rest⟩

/-! ### RECOVER (R295) -/

/-- RECOVER alone is written: the word stays. -/
theorem canStored_recover (s : State) (c : Nat) :
    s.canStored c (withBit (s.rd (EDG_CAN_CTRL c)) 4) = s.wr (EDG_CAN_CTRL c) (s.rd (EDG_CAN_CTRL c)) := by
  refine congrArg (s.wr (EDG_CAN_CTRL c)) (storedValue_of_same (by decide) (by decide) _ _ ?_)
  rw [withBit, BitVec.toNat_or, Nat.and_or_distrib_right]
  exact Nat.or_zero _

theorem canHook_of_recover {s : State} {c old act : Nat} (hsame : s.on (EDG_CAN_CTRL_ENABLE c) = bit old 0) (hrec : bit act 4 = true) :
    s.canHook c old act = s.canRecover c := by
  simp [State.canHook, hsame, hrec]

theorem canRecover_of_busOff {s : State} {c : Nat} (h : s.canState c = 4) :
    s.canRecover c = (s.set (EDG_CAN_STATUS_STATE c) 1).canPut c fun x => { x with recovering := true } := if_pos h

theorem canRecover_row (h : s.takesWrite who (EDG_CAN_CTRL c.val) (withBit (s.rd (EDG_CAN_CTRL c.val)) 4)) (hoff : s.canState c.val = 4) :
    ∃ t, exec (.canRecover who c) s = .next t ∧
      (t.canState c.val = 1 ∧ (t.canSt c.val).recovering = true ∧ t.rd (EDG_CAN_CTRL c.val) = s.rd (EDG_CAN_CTRL c.val) ∧
       RegsBut [EDG_CAN_STATUS c.val] s t ∧ { t with regs := s.regs, edge := s.edge } = s) := by
  have hcanState := canStored_canState s c.val (withBit (s.rd (EDG_CAN_CTRL c.val)) 4)
  have hen := canStored_enable s c.val (withBit (s.rd (EDG_CAN_CTRL c.val)) 4)
  have hstored := EdgeOnly.of_regsOnly ((RegsOnly.refl [EDG_CAN_STATUS c.val] s).wr_rd (EDG_CAN_CTRL c.val))
  have hwrite := write_canCtrl h
  rw [canHook_of_recover (hen.trans (bit_withBit_ne _ (by decide))) (bit_withBit _ (by decide)),
    canRecover_of_busOff (hcanState.trans hoff), canStored_recover] at hwrite
  generalize s.wr (EDG_CAN_CTRL c.val) (s.rd (EDG_CAN_CTRL c.val)) = u at hwrite hstored
  have honly := (hstored.set (EDG_CAN_STATUS_STATE c.val) 1 rfl List.mem_cons_self).canPut c.val fun x => { x with recovering := true }
  rw [(honly.mono (l' := canSetUp c.val) (by simp [canSetUp])).holdFaultN (canSetUp_inEdge c)] at hwrite
  refine ⟨_, congrArg Host.Outcome.next hwrite, ?_, ?_, ?_, honly.regs, honly.rest⟩
  · rw [canPut_canState, canState_set_state _ _ 1 (by decide)]
  · rw [canPut_canSt]
  · exact honly.regs _ (by simpa using ctrl_ne_status c.val)

end

/-- Settles O22: ENABLE ends in `State.canGo` or `State.canTurnedOff`, RECOVER in `State.canRecover`; a frame without error ends in
`State.canReceived`, an error in `State.canErrKind` with the counters shown, a sent frame in `canSent`. -/
theorem canChannels : Obligations.CanChannels := by
  unfold Obligations.CanChannels
  refine ⟨?_, ?_, ?_, ?_, ?_, ?_, ?_, ?_, ?_, ?_, ?_, ?_⟩
  · intro s who c value htakes hdis hoff hrec
    exact canEnable_row htakes hdis hoff hrec
  · intro s who c value htakes hen hrec
    exact canDisable_row htakes hen hrec
  · intro s who c htakes hoff
    exact canRecover_row htakes hoff
  · intro s c hup hstate hrec htx hrx
    exact canBusIdle_row hup hstate hrec htx hrx
  · intro s c f hon hfmt hrtr hrx htx
    exact canFrameRx_remote_row hon hfmt hrtr hrx htx
  · intro s c f hon hfmt hrtr hrx htx _ hpdus htuns
    exact canFrameRx_unmatched_row hon hfmt hrtr hrx htx hpdus htuns
  · intro s c e hon htxd hsome hplain hrx htx
    exact canError_receiver_row hon htxd hsome hplain hrx htx
  · intro s c e hon htxd hcode
    exact canError_exception_row hon htxd hcode
  · intro s c hup hrec
    exact canRecoveryDone_row hup hrec
  · intro s c hon hmode hidle harmed x hx
    exact canTxStart_row hon hmode hidle harmed x hx
  · intro s c x hx hdrives hon htx hrx
    exact canTxDone_row x hx hdrives hon htx hrx
  · intro s c hup r hr
    exact canTxDeadline_row hup r hr

end Sys2Proof.Machine
end

section
/-! PROOFS, family 10_fabric_and_bridge: its statements fail. A relay in a sleep entry that accepts no frames (O25, O57), a request of
the device in Boathouse (O26), a write of a peer whose route names no port of the device (O27), and a CONFIRM whose state word is
worn (O29). -/
namespace Sys2Proof.Machine

/-- The bridge of device 30 runs; device 4 is its neighbour at port 3. -/
def bridgeOn : State :=
  let s := ((allUp.set HFP_CFG_EN 1).set HFP_CFG_ID 30).set HFP_REACH_PEERS 0x10
  ((s.set (HFP_ROUTE_VALID 4) 1).set (HFP_ROUTE_PORT 4) 3).set (HFP_ADJ_STATE 3) 3

/-! ### A relay in a sleep entry (O25, O57)

From the last acknowledgement of a sleep entry on, the device accepts no frame on any port (R470 step 3, `State.framesStopped`), and so
relays none. The clause of O25 and O57 on HFP_RELAY excludes Boathouse alone among the power states. -/

/-- A sleep entry that awaits no acknowledgement any more. -/
def entryAcknowledged : State := bridgeOn.set PWR_STATUS_STATE 3

/-- A CPL of device 7 to device 4. -/
def passingMsg : HfpMsg := { ver := 1, typ := 7, src := 7, dst := 4, cls := 1, hops := 26, seq := 5, tag := 3, len := 16, body := [] }

/-- What O25 and O57 conclude of the relay of message `m` by port `n`: it has left with one hop less. -/
def Relays (s : State) (port : Fin 64) (m : HfpMsg) (n : Nat) : Prop :=
  ∃ t, exec (.hfpRelay port m) s = .next t ∧ t.hfp.out = s.hfp.out ++ [(n, { m with hops := m.hops - 1 })]

theorem passingMsg_premises :
    entryAcknowledged.up .fabric = true ∧ msgOk passingMsg = true ∧ (1 ≤ passingMsg.typ.toNat ∧ passingMsg.typ.toNat ≤ 13) ∧
      entryAcknowledged.power ≠ 2 ∧ (passingMsg.dst ≠ 0xFF ∧ passingMsg.dst.toNat ≠ entryAcknowledged.ownId) ∧ passingMsg.hops ≠ 0 ∧
      entryAcknowledged.routePort passingMsg.dst.toNat = some 3 := by
  decide +kernel

/-- Whatever message arrives while frames are stopped, the state stays as it was. -/
theorem hfpRelay_of_framesStopped {s : State} (hstopped : s.framesStopped = true) (port : Fin 64) (m : HfpMsg) :
    exec (.hfpRelay port m) s = .next s := by
  have hexec : exec (.hfpRelay port m) s = .next ((s.hfpTurned port m).getD s) := rfl
  simp [hexec, State.hfpTurned, hstopped]

theorem not_relays_of_framesStopped {s : State} (hstopped : s.framesStopped = true) (port : Fin 64) (m : HfpMsg) (n : Nat) :
    ¬ Relays s port m n := by
  rintro ⟨t, ht, hout⟩
  cases (hfpRelay_of_framesStopped hstopped port m).symm.trans ht
  simp at hout

theorem framesStopped_entryAcknowledged : entryAcknowledged.framesStopped = true := by decide +kernel

/-- Refutes O25: a frame for another device that comes in a sleep entry whose acknowledgements are in is not relayed. -/
theorem not_hfpDiscovery : ¬ Obligations.HfpDiscovery := by
  unfold Obligations.HfpDiscovery
  rintro ⟨hrelay, -⟩
  obtain ⟨hup, hok, htyp, hpower, hdst, hhops, hroute⟩ := passingMsg_premises
  obtain ⟨t, ht, hout, -⟩ := hrelay entryAcknowledged 12 passingMsg hup hok htyp hpower hdst hhops 3 hroute
  exact not_relays_of_framesStopped framesStopped_entryAcknowledged 12 passingMsg 3 ⟨t, ht, hout⟩

/-- Refutes O57 by its clause on the relay, as O25. -/
theorem not_bridgeRowsComplete : ¬ Obligations.BridgeRowsComplete := by
  unfold Obligations.BridgeRowsComplete
  rintro ⟨hrelay, -⟩
  obtain ⟨hup, hok, htyp, hpower, hdst, hhops, hroute⟩ := passingMsg_premises
  exact not_relays_of_framesStopped framesStopped_entryAcknowledged 12 passingMsg 3
    (hrelay entryAcknowledged 12 passingMsg hup hok htyp hpower hdst hhops 3 hroute)

/-! ### A request of the device in Boathouse (O26)

In Boathouse the device sends no request of its own (R336, `State.ask`), while its bridge runs and its neighbour is reachable. The
premise `State.maySend` does not speak of the power state. -/

/-- The bridge runs in Boathouse, and the function takes requests of the host. -/
def boathouse : State :=
  let s := bridgeOn.set PWR_STATUS_STATE 2
  { s with hif := { s.hif with pci := { s.hif.pci with memOn := true } } }

/-- Local address 0 of device 4 as a fabric address. -/
def peerAddr : Word := 0x90000000

/-- A read of one word. -/
def readWord : RemReq := { write := false, nonPosted := true, words := [0], firstBe := true, lastBe := true }

theorem readWord_premises :
    boathouse.hostTurned .host = false ∧ boathouse.peerOf peerAddr.toNat = some 4 ∧ boathouse.quietBridge ∧
      boathouse.maySend (remAsk .host 4 peerAddr.toNat readWord .access) := by
  decide +kernel

/-- The read ends with REMOTE_FAIL (12), and no request is outstanding. -/
theorem remoteRequest_boathouse_fails :
    ∃ t, exec (.remoteRequest .host peerAddr readWord) boathouse = .next t ∧ t.hfp.results.map (·.status) = [12] ∧ t.hfp.reqs = [] :=
  ⟨_, rfl, by decide +kernel⟩

/-- Refutes O26: an access of a reachable peer in Boathouse becomes no outstanding request. -/
theorem not_hfpRequestsOut : ¬ Obligations.HfpRequestsOut := by
  unfold Obligations.HfpRequestsOut
  rintro ⟨hremote, -⟩
  obtain ⟨hturned, hpeer, hquiet, hmay⟩ := readWord_premises
  obtain ⟨t, ht, ⟨hasked, -⟩, -⟩ :=
    hremote boathouse .host peerAddr readWord (by decide) hturned (by decide) (by decide) 4 hpeer hquiet hmay
  obtain ⟨u, hu, -, hnone⟩ := remoteRequest_boathouse_fails
  cases hu.symm.trans ht
  simp [hnone] at hasked

/-! ### A route by a port that the device does not have (O27)

HFP_ROUTE.PORT has 8 bits. A run writes it from the FULL adjacencies of ports 0 to 63 alone (R340, `State.computeRoutes`), but O27 asks
only that the peer has a route, and `State.routePort` takes the adjacency of port 193 from where HFP_ADJ would go on: the counter
HFP_RX_MSG (`HFP_ADJ 193`). The request itself is counted there before it is answered. -/

/-- The route to device 4 names port 193, three messages have been counted, as 3 is the FULL state of an adjacency, and no peer may
write. -/
def routeByCounter : State := ((bridgeOn.set (HFP_ROUTE_PORT 4) 193).set HFP_RX_MSG_COUNT 3).set HFP_ACL_PEERS 0

/-- A WR_NP of one word from device 4. -/
def writeFromPeer : HfpMsg :=
  { ver := 1, typ := 4, src := 4, dst := 30, cls := 0, hops := 31, seq := 0, tag := 3, len := 28, body := [0, 0, 0, 0, 0, 4, 0, 0, 0, 0, 0, 1] }

theorem writeFromPeer_premises :
    routeByCounter.keepsMsg 12 writeFromPeer ∧ requestOk writeFromPeer = true ∧ routeByCounter.busHeld = false ∧
      routeByCounter.power ≠ 2 ∧ routeByCounter.peerMay writeFromPeer.src.val = false ∧
      (routeByCounter.routePort writeFromPeer.src.val).isSome = true := by
  decide +kernel

/-- The fourth message leaves no route for the answer: it is discarded and counted (R334). -/
theorem requestRx_routeByCounter_unanswered :
    ∃ t, exec (.requestRx 12 writeFromPeer) routeByCounter = .next t ∧ t.hfp.out = [] ∧ t.get HFP_NO_ROUTE_COUNT = 1 :=
  ⟨_, rfl, by decide +kernel⟩

/-- Refutes O27: a refused write whose route goes by port 193 is not answered. -/
theorem not_hfpRequestsIn : ¬ Obligations.HfpRequestsIn := by
  unfold Obligations.HfpRequestsIn
  rintro ⟨-, hrefused, -⟩
  obtain ⟨hkeeps, hok, hfree, hpower, hmay, hroute⟩ := writeFromPeer_premises
  obtain ⟨t, ht, ⟨-, hsent⟩, -⟩ :=
    hrefused routeByCounter 12 writeFromPeer rfl hkeeps hok hfree rfl rfl hpower hmay rfl (by decide) hroute
  obtain ⟨u, hu, hsilent, -⟩ := requestRx_routeByCounter_unanswered
  cases hu.symm.trans ht
  simp [hsilent] at hsent

/-! ### A CONFIRM that a worn word does not take (O29)

A write to a worn persistent word is refused and the old value kept (R502, `State.updSet`). The state word of the update is one
(R449), and the clause of O29 on CMIT_CONFIRM does not ask that it takes writes. -/

/-- The commit that a member holds once it has confirmed: an update with the FCG 9 to come. -/
def confirmedUpdate : FabMember :=
  { from_ := 4, t := 0, fcg := 9, id := 0, mask := 0, dryRun := false, update := true, phase := 3 }

/-- A member in update state 7 holds `confirmedUpdate`, and its state word has been written 100,000 times. -/
def stateWordWorn : State :=
  ((bridgeOn.set (LOG_SYS_WEAR_COUNT 1) 100000).set UPD_STATUS_STATE 7).bset fun b => { b with fabMember := some confirmedUpdate }

/-- A CMIT of device 4 with COMMIT_ID 0. -/
def confirmMsg : HfpMsg := { ver := 1, typ := 13, src := 4, dst := 30, cls := 2, hops := 31, seq := 0, tag := 0, len := 16, body := [] }

theorem confirmMsg_premises :
    stateWordWorn.keepsMsg 12 { confirmMsg with typ := 13 } ∧ stateWordWorn.ledBy confirmMsg = none ∧
      stateWordWorn.heldFrom confirmMsg = some confirmedUpdate ∧ stateWordWorn.updLive = 7 ∧
      (stateWordWorn.routePort confirmedUpdate.from_).isSome = true := by
  decide +kernel

theorem cmitConfirm_stateWordWorn_stays :
    ∃ t, exec (.cmitConfirm 12 confirmMsg) stateWordWorn = .next t ∧ t.updLive = 7 :=
  ⟨_, rfl, by decide +kernel⟩

/-- Refutes O29: a CONFIRM does not lead to update state 0 where the state word is worn. -/
theorem not_fabricCommitMembers : ¬ Obligations.FabricCommitMembers := by
  unfold Obligations.FabricCommitMembers
  rintro ⟨-, -, -, -, -, hconfirm⟩
  obtain ⟨hkeeps, hled, hheld, hlive, hroute⟩ := confirmMsg_premises
  obtain ⟨t, ht, ⟨hzero, -⟩, -⟩ :=
    hconfirm stateWordWorn 12 confirmMsg hkeeps hled confirmedUpdate hheld rfl hlive rfl hroute (by decide)
  obtain ⟨u, hu, hseven⟩ := cmitConfirm_stateWordWorn_stays
  cases hu.symm.trans ht
  exact absurd (hseven.symm.trans hzero) (by decide)

end Sys2Proof.Machine
end

section
/-! PROOFS, family 11_host_interface: no command changes the queue (O3), and three statements that fail. A frozen device can write three
event records for one refusal (O48), RANDOM in Boathouse takes the key unit's power with it at its end (O32), and a failed TRNG refuses
LIFECYCLE (O58). -/
namespace Sys2Proof.Machine

/-! ### The queue (O3) -/

/-- Settles O3: the queue is part of what every row keeps (`keeps_exec`). -/
theorem execKeepsTheQueue : Obligations.ExecKeepsTheQueue := by
  unfold Obligations.ExecKeepsTheQueue
  exact fun c s _ ht => (Keeps.of_next ht (keeps_exec (Keeps.refl s) c)).pending

/-! ### A refusal of a frozen device with the remote event queue full (O48)

COX_MODE in a frozen device raises STATE_REFUSED (R379, R399), and CMD_DONE follows at its end (R384). Where the first record finds the
remote event queue full, REVQ_OVERFLOW comes between the two (R356, `State.emit`), so that three records reach the event ring. Each clause
of O48 allows two. -/

/-- COX_MODE (opcode 0x58) to paired mode, with EVT = 1. -/
def coxModePaired : Desc := 0x158

/-- The device of `parityHit`, whose event ring runs and whose remote event queue is full, is frozen. -/
def frozenQueueFull : State := parityHit.set COX_STATUS_FROZEN 1

theorem coxMode_frozenQueueFull_premises :
    frozenQueueFull.hif.running = none ∧ descHeaderOk coxModePaired = true ∧ [0, 1].contains frozenQueueFull.power = true ∧
      frozenQueueFull.frozen = true ∧ descBits coxModePaired 16 8 < 2 ∧ descZero coxModePaired 17 64 = true := by
  decide +kernel

/-- The third slot of the event ring, at 128, takes CMD_DONE (0x0001). -/
theorem coxMode_frozenQueueFull_third_record :
    ∃ t, exec (.coxMode .localRing coxModePaired) frozenQueueFull = .next t ∧ t.hostByte 128 ≠ frozenQueueFull.hostByte 128 :=
  ⟨_, rfl, by decide +kernel⟩

/-- The slots that two records and the end of the command may write leave out the third. -/
theorem replyArea_frozenQueueFull_third_slot : frozenQueueFull.replyArea 2 128 = false := by decide +kernel

/-- Refutes O48: a COX_MODE that a frozen device refuses can write three event records. -/
theorem not_frozenRefusals : ¬ Obligations.FrozenRefusals := by
  unfold Obligations.FrozenRefusals
  rintro ⟨-, -, -, -, hcoxMode, -⟩
  obtain ⟨hidle, hheader, hpower, hfrozen, hmode, hzero⟩ := coxMode_frozenQueueFull_premises
  obtain ⟨t, ht, -, -, -, -, hhost⟩ :=
    hcoxMode frozenQueueFull .localRing coxModePaired hidle hheader hpower hfrozen hmode hzero
  obtain ⟨u, hu, hwritten⟩ := coxMode_frozenQueueFull_third_record
  cases hu.symm.trans ht
  exact hwritten (hhost 128 (by decide) replyArea_frozenQueueFull_third_slot)

/-! ### The end of RANDOM in Boathouse (O32)

In Boathouse the device powers PD6 for the duration of ATTEST or RANDOM only (R422, R460): with the command PD6 goes off
(`State.keyOff`), which PWR_STATUS shows. The clause of O32 on COMMAND_DONE keeps every register but those of the command, in every power
state. -/

/-- RANDOM (opcode 0x36) of 16 octets to host address 0. -/
def randomOctets : Desc := 0x36 + 16 * 2 ^ 192

/-- Boathouse with PD1, PD3, PD7, the line domain PD9 of management port 0, and PD6 for the RANDOM that runs. -/
def randomInBoathouse : State :=
  { State.reset with
    regs := [(PWR_STATUS, 0x202CA)]
    rst := {}
    hif := { running := some ⟨.localRing, randomOctets, .plain 0 16, false⟩ } }

theorem randomInBoathouse_pd6_on : randomInBoathouse.pdOn 6 = true := by decide +kernel

theorem commandDone_randomInBoathouse_pd6_off :
    ∃ t, exec (.commandDone false false) randomInBoathouse = .next t ∧ t.pdOn 6 = false :=
  ⟨_, rfl, by decide +kernel⟩

/-- The domains at power-good are those that PWR_STATUS shows (R461). -/
theorem pdOn_congr {s t : State} (h : t.rd PWR_STATUS = s.rd PWR_STATUS) (pd : Nat) : t.pdOn pd = s.pdOn pd := by
  have hon : t.get PWR_STATUS_ON = s.get PWR_STATUS_ON := get_congr PWR_STATUS_ON (by simpa [Fld.words, PWR_STATUS_ON] using h)
  rw [State.pdOn, hon, State.pdOn]

/-- Refutes O32: the end of RANDOM in Boathouse switches PD6 off, which changes PWR_STATUS. -/
theorem not_hostInterfaceRows : ¬ Obligations.HostInterfaceRows := by
  unfold Obligations.HostInterfaceRows
  rintro ⟨-, -, -, -, -, -, -, -, -, -, -, hdone⟩
  obtain ⟨t, ht, -, -, -, hregs, -⟩ := hdone randomInBoathouse false false _ rfl (0, 16) rfl rfl
  obtain ⟨u, hu, hoff⟩ := commandDone_randomInBoathouse_pd6_off
  cases hu.symm.trans ht
  have hsame : t.pdOn 6 = randomInBoathouse.pdOn 6 := pdOn_congr (hregs PWR_STATUS (by decide) (by decide)) 6
  exact absurd (hoff.symm.trans (hsame.trans randomInBoathouse_pd6_on)) (by decide)

/-! ### LIFECYCLE with a failed TRNG (O58)

While KEY_STATUS.TRNG_FAIL = 1 every LIFECYCLE completes with STATE (R421), also the one to FIELD. The premises of the clause of O58 on
LIFECYCLE leave TRNG_FAIL open, and it concludes that the command runs on. -/

/-- LIFECYCLE (opcode 0x59) to FIELD. -/
def lifecycleField : Desc := 0x59 + 2 * 2 ^ 128

/-- An owned device in Active, whose TRNG has failed a health test. -/
def trngFailed : State := (allUp.set COX_LIFECYCLE_STATE 1).set KEY_STATUS_TRNG_FAIL 1

theorem lifecycle_trngFailed_premises :
    trngFailed.takesCommand lifecycleField [0, 1, 2] true ∧ descZero lifecycleField 17 24 = true ∧
      descZero lifecycleField 32 64 = true ∧ descBits lifecycleField 24 64 % 8 = 0 ∧ descBits lifecycleField 16 8 = 2 ∧
        descBits lifecycleField 24 64 = 0 ∧ trngFailed.get COX_LIFECYCLE_STATE = 1 := by
  decide +kernel

theorem lifecycle_trngFailed_ends :
    ∃ t, exec (.lifecycle .localRing lifecycleField) trngFailed = .next t ∧ t.hif.running = none :=
  ⟨_, rfl, by decide +kernel⟩

/-- Refutes O58: a LIFECYCLE to FIELD does not run on after a failed health test of the TRNG. -/
theorem not_hostAndCoxRowsComplete : ¬ Obligations.HostAndCoxRowsComplete := by
  unfold Obligations.HostAndCoxRowsComplete
  rintro ⟨-, -, -, -, -, -, -, -, -, -, -, -, -, -, -, -, -, -, -, -, -, -, -, hlifecycle, -⟩
  obtain ⟨htakes, hlow, hhigh, haligned, hop, haddr, hstate⟩ := lifecycle_trngFailed_premises
  obtain ⟨t, ht, hruns, -⟩ :=
    hlifecycle trngFailed .localRing lifecycleField htakes hlow hhigh haligned rfl hop haddr hstate
  obtain ⟨u, hu, hnone⟩ := lifecycle_trngFailed_ends
  cases hu.symm.trans ht
  exact absurd (hnone.symm.trans hruns) (by simp)

end Sys2Proof.Machine
end

section
/-! PROOFS, family 00_scope: the front command of the queue (O1) and the state after reset (O5). -/
namespace Sys2Proof.Machine
set_option Elab.async false

/-- Settles O1: a queue that is not empty has a front, which `step` takes off and runs. -/
theorem stepRunsTheFrontCommand : Obligations.StepRunsTheFrontCommand := by
  unfold Obligations.StepRunsTheFrontCommand
  intro s c q hfront
  rw [step, hfront]

/-- Settles O5: the reset state lists no register word and no octet of host memory, and no command waits. -/
theorem resetIsCanonical : Obligations.ResetIsCanonical := by
  unfold Obligations.ResetIsCanonical
  have hregs : SMap.wf resetWord State.reset.regs = true := rfl
  have hhost : SMap.wf (fun _ => (0 : Byte)) State.reset.hostMem = true := rfl
  exact ⟨⟨hregs, hhost⟩, rfl⟩

end Sys2Proof.Machine
end

section
/-! PROOFS, family 12_cox_safety: the statement on detectors fails on a parity error of a pair that a debugger has broken (O33). -/
namespace Sys2Proof.Machine
set_option Elab.async false

/-! ### A parity error in a pair that a debugger has broken (O33)

In paired mode the delay registers run and their parity is checked in every cycle, whether or not a debugger has broken the pair (R391,
R406, `State.delaying`); only the comparison stops with LS_BROKEN (`State.comparing`). A parity error that comes with a mismatch is found
before it (R393). The clause of O33 on a pair that is not compared says that LOCKSTEP_MISMATCH changes nothing, and leaves the parity
errors open. -/

/-- Paired mode, and a debugger has broken the pair. -/
def pairBroken : State := allUp.set COX_STATUS_LS_BROKEN 1

theorem pairBroken_not_compared : pairBroken.comparing = false := by decide +kernel

theorem pairBroken_no_finding : pairBroken.on GLB_FAULT_CHECKER_FAULT = false := by decide +kernel

/-- A parity error of the output delay register is a finding (R392). -/
theorem lockstepMismatch_pairBroken_finds_parity :
    ∃ t, exec (.lockstepMismatch true false) pairBroken = .next t ∧ t.on GLB_FAULT_CHECKER_FAULT = true :=
  ⟨_, rfl, by decide +kernel⟩

/-- Refutes O33: a parity error is found though the pair is not compared. -/
theorem not_detectorsAndMonitors : ¬ Obligations.DetectorsAndMonitors := by
  unfold Obligations.DetectorsAndMonitors
  rintro ⟨-, -, hnotCompared, -⟩
  obtain ⟨t, ht, hsame⟩ := hnotCompared pairBroken true false pairBroken_not_compared
  obtain ⟨u, hu, hfound⟩ := lockstepMismatch_pairBroken_finds_parity
  cases hu.symm.trans ht
  rw [hsame, pairBroken_no_finding] at hfound
  exact absurd hfound (by decide)

end Sys2Proof.Machine
end

section
/-! PROOFS, family 12_cox_safety: UNFREEZE, and the resets that clear FROZEN (O45). -/
namespace Sys2Proof.Machine
set_option Elab.async false

/-! ### The write of COX_CTRL.UNFREEZE (R400) -/

/-- COX_CTRL as the map defines it. -/
def coxCtrlDef : RegDef := ⟨.COX_CTRL, 0x1100004, [], 1, .cox, false, false, 0x0, [⟨0, 0, .wo, []⟩]⟩

theorem regAt_coxCtrl : regAt COX_CTRL = some (coxCtrlDef, [], 0) := by decide +kernel

/-- What an access error shows depends on the registers before and after it. -/
theorem Recorded.congr {who : Initiator} {isWrite : Bool} {a cause : Nat} {s s' t t' : State} (h : Recorded who isWrite a cause s t)
    (hbefore : ∀ b, s.rd b = s'.rd b) (hafter : ∀ b, t.rd b = t'.rd b) : Recorded who isWrite a cause s' t' := by
  have hget : ∀ f, s.get f = s'.get f := fun f => get_congr f fun b _ => hbefore b
  have hget' : ∀ f, t.get f = t'.get f := fun f => get_congr f fun b _ => hafter b
  have hon : ∀ f, s.on f = s'.on f := fun f => by rw [State.on, hget, State.on]
  have hon' : ∀ f, t.on f = t'.on f := fun f => by rw [State.on, hget', State.on]
  rw [Recorded] at h ⊢
  rwa [hget GLB_ACCESS_ERR_COUNT, hon GLB_ACCESS_ERR_VALID, hget GLB_ACCESS_ERR_CAUSE, hbefore, hget' GLB_ACCESS_ERR_COUNT,
    hon' GLB_ACCESS_ERR_VALID, hon' GLB_ACCESS_ERR_OVERFLOW, hget' GLB_ACCESS_ERR_CAUSE, hafter, hget' GLB_ACCESS_ERR_INITIATOR,
    hget' GLB_ACCESS_ADDR_ADDR, hon' GLB_ACCESS_ADDR_WRITE] at h

theorem frozen_of_rd {s t : State} (h : t.rd COX_STATUS = s.rd COX_STATUS) : t.frozen = s.frozen := by
  rw [State.frozen, State.on, get_of_word (f := COX_STATUS_FROZEN) rfl h, State.frozen, State.on]

theorem frozen_of_pins (t : State) (p : Pins) : ({ t with pins := p } : State).frozen = t.frozen := rfl

theorem rd_wr_rd (s : State) (a b : Nat) : (s.wr a (s.rd a)).rd b = s.rd b :=
  ((RegsOnly.refl [] s).wr_rd a).regs b List.not_mem_nil

/-- A word outside a list keeps its value when a field within the list is set. -/
theorem rd_set_of_not_listed {l : List Nat} {a : Nat} (ha : a ∉ l) (s : State) (f : Fld) (v : Nat) (hf : ∀ b ∈ f.words, b ∈ l) :
    (s.set f v).rd a = s.rd a :=
  rd_set_ne s f v fun hm => ha (hf a hm)

section
variable {s : State} {who : Initiator}

/-- The register's own fault: an UNFREEZE that R400 does not grant. -/
theorem regFaults_coxCtrl (old v : Nat) :
    s.regFaults who .COX_CTRL 0 0 0 old v = faultIf (bit v 0 && !s.mayUnfreeze) 1 2 := by
  have hbefore : s.timeFaults who .COX_CTRL 0 0 old v ++ s.edgeFaults .COX_CTRL 0 old v ++ s.hostFaults .COX_CTRL 0 old v = [] := rfl
  have hown : s.safetyFaults who .COX_CTRL 0 old v = faultIf (bit v 0 && !s.mayUnfreeze) 1 2 := rfl
  have hfabric : s.fabricFaults .COX_CTRL 0 old v = [] := rfl
  have hheld : s.heldFaults .COX_CTRL 0 0 old v = [] := rfl
  rw [State.regFaults, hbefore, hown, hfabric, hheld, List.nil_append, List.append_nil, List.append_nil]

/-- What COX_CTRL takes of a written 1: no bit is stored, and the bit acts unless R400 refuses it. -/
theorem takeWrite_unfreeze (old : Nat) : s.takeWrite who coxCtrlDef 0 0 0 old 1 =
    ⟨storedValue coxCtrlDef 0 old 0, if s.mayUnfreeze then 1 else 0, faultIf (!s.mayUnfreeze) 1 2⟩ := by
  have hgeneral : ∀ locked, generalFaults coxCtrlDef locked 0 1 = [] := by decide
  have hrw : accMask coxCtrlDef 0 [.rw, .rwl] = 0 := by decide
  have hone : accMask coxCtrlDef 0 [.w1c] = 0 := by decide
  have hbit : bit 1 0 = true := by decide
  have hreg : coxCtrlDef.reg = .COX_CTRL := rfl
  cases hmay : s.mayUnfreeze <;>
    simp [State.takeWrite, hgeneral, hreg, regFaults_coxCtrl, hrw, hone, storedValue, faultMask, faultIf, hmay, hbit, whole]

/-- The bit that acts clears FROZEN. -/
theorem regHook_coxCtrl (old v stored act : Nat) (faults : List (Nat × Nat)) :
    s.regHook .COX_CTRL 0 0 old v ⟨stored, act, faults⟩ = if bit act 0 then s.set COX_STATUS_FROZEN 0 else s := by
  have htime : (if faultMask faults = whole then s else s.timeHook .COX_CTRL 0 0 old act) = s := ite_self s
  exact (congrArg (fun u : State => if bit act 0 then u.set COX_STATUS_FROZEN 0 else u) htime :)

section
variable (hwho : who ≠ .cfg) (hturned : s.hostTurned who = false) (hfree : s.busFree) (hup : s.up .cox = true)
include hwho hturned hfree hup

/-- On a free bus a write of COX_CTRL with the Cox island up reaches the register. -/
theorem write_coxCtrl (v : Word) : s.write who COX_CTRL v = s.regPut who COX_CTRL coxCtrlDef 0 0 0 v := by
  have hmsix : msixAt COX_CTRL = none := by decide
  have happlies : s.applies coxCtrlDef.reg 0 = true := rfl
  have hisland : s.up coxCtrlDef.island 0 = true := hup
  have haligned : COX_CTRL / 4 * 4 = COX_CTRL := by decide
  rw [write_of_busFree s hfree hwho hturned (by decide)]
  simp [State.localWrite, hmsix, regAt_coxCtrl, hisland, happlies, haligned]

/-- An UNFREEZE clears FROZEN where R400 grants it, and is an access error with cause 2 where it does not. -/
theorem write_unfreeze : s.write who COX_CTRL 1 = s.holdFaultN
    (if s.mayUnfreeze then (s.wr COX_CTRL (s.rd COX_CTRL)).set COX_STATUS_FROZEN 0
     else (s.wr COX_CTRL (s.rd COX_CTRL)).accessErr who true COX_CTRL 2) := by
  have hacts : ∀ b : Bool, bit (if b then 1 else 0) 0 = b := by decide
  have hcause : ∀ b : Bool, worstCause (faultIf (!b) 1 2) = if b then none else some 2 := by decide
  rw [write_coxCtrl hwho hturned hfree hup, State.regPut, show (1 : Word).toNat = 1 from rfl, takeWrite_unfreeze,
    storedValue_of_no_stored (by decide) (by decide), show coxCtrlDef.reg = .COX_CTRL from rfl, regHook_coxCtrl]
  dsimp only
  rw [hacts, hcause]
  cases s.mayUnfreeze <;> simp only [Bool.false_eq_true, if_true, if_false]

theorem exec_unfreeze_of_granted (hmay : s.mayUnfreeze = true) :
    exec (.unfreeze who) s = .next (s.holdFaultN ((s.wr COX_CTRL (s.rd COX_CTRL)).set COX_STATUS_FROZEN 0)) :=
  congrArg Host.Outcome.next ((write_unfreeze hwho hturned hfree hup).trans (by rw [if_pos hmay]))

theorem exec_unfreeze_of_refused (hmay : s.mayUnfreeze = false) :
    exec (.unfreeze who) s = .next (s.holdFaultN ((s.wr COX_CTRL (s.rd COX_CTRL)).accessErr who true COX_CTRL 2)) :=
  congrArg Host.Outcome.next ((write_unfreeze hwho hturned hfree hup).trans (by rw [if_neg (Bool.eq_false_iff.mp hmay)]))

theorem unfreeze_granted_row (hmay : s.mayUnfreeze = true) :
    ∃ t, exec (.unfreeze who) s = .next t ∧ (t.frozen = false ∧ RegsBut [COX_STATUS] s t) := by
  refine ⟨_, exec_unfreeze_of_granted hwho hturned hfree hup hmay, ?_, fun a ha => ?_⟩
  · rw [frozen_of_rd (holdFaultN_rd _ _ _), State.frozen, State.on, get_set_same _ _ _ (by decide)]
    rfl
  · rw [holdFaultN_rd, rd_set_ne _ COX_STATUS_FROZEN _ ha, rd_wr_rd]

theorem unfreeze_refused_row (hmay : s.mayUnfreeze = false) :
    ∃ t, exec (.unfreeze who) s = .next t ∧ (t.frozen = s.frozen ∧ Recorded who true COX_CTRL 2 s t ∧ RegsBut errorRegs s t) := by
  set same := s.wr COX_CTRL (s.rd COX_CTRL)
  have hrecorded := accessErr_recorded same who true COX_CTRL 2 (by decide)
  have hregs : RegsBut errorRegs s (s.holdFaultN (same.accessErr who true COX_CTRL 2)) := fun a ha => by
    rw [holdFaultN_rd, accessErr_regsBut same who true COX_CTRL 2 a ha, rd_wr_rd]
  exact ⟨_, exec_unfreeze_of_refused hwho hturned hfree hup hmay,
    frozen_of_rd (hregs _ (by decide)), hrecorded.congr (rd_wr_rd s _) fun b => (holdFaultN_rd s _ b).symm, hregs⟩

end
end

/-! ### The words that a device reset clears (R485) -/

/-- The words that a device reset writes anew: the flags of images that DRAM loses, the vehicle's standstill and the reset's cause. -/
def resetRecords : List Nat := [UMP_STATUS, RIG_STATUS, KEY_STATUS, WAK_STATUS, RST_CAUSE, RST_START]

theorem dramForgets_rd (s : State) {a : Nat} (ha : a ∉ resetRecords) : s.dramForgets.rd a = s.rd a := by
  have hwords : ∀ u, ∀ b ∈ (unitImgValid u).words, b ∈ resetRecords := fun u => by cases u <;> decide
  simp only [State.dramForgets, State.each, List.foldl, rd_set_of_not_listed ha _ _ _ (hwords _)]
  rfl

theorem recordReset_rd (s : State) (cause : Nat) {a : Nat} (ha : a ∉ resetRecords) : (s.recordReset cause).rd a = s.rd a := by
  unfold State.recordReset State.incWrap
  split <;> split <;> simp (disch := decide) only [rd_set_of_not_listed ha]

/-- A word that a reset neither keeps nor writes anew returns to its reset value. -/
theorem clearDevice_rd (s : State) {cause a : Nat} (hlost : resetKeeps cause a = false) (ha : a ∉ resetRecords) :
    (s.clearDevice cause).rd a = resetWord a := by
  have hkept : SMap.get (SMap.keep s.regs (resetKeeps cause)) (resetWord a) a = resetWord a := by
    simp [SMap.get, SMap.find_keep, hlost]
  rw [State.clearDevice, holdFaultN_rd, recordReset_rd _ _ ha, rd_set_of_not_listed ha _ WAK_STATUS_STILL _ (by decide)]
  split
  · rw [dramForgets_rd _ ha]
    exact hkept
  · exact hkept

/-- The words that the load of options writes (R493, R495). -/
def optionWords : List Nat := [OPT_BOOT, OPT_NEW_BOOT, OPT_FLASH, OPT_NEW_FLASH, OPT_SEQ, OPT_STATUS]

theorem startSequence_rd (s : State) (inj : Option Nat) {a : Nat} (ha : a ∉ optionWords) : (s.startSequence inj).rd a = s.rd a := by
  have hwr : ∀ (t : State) (b : Nat) (v : Word), b ∈ optionWords → (t.wr b v).rd a = t.rd a :=
    fun t b v hb => rd_wr_ne t v fun e => ha (e ▸ hb)
  have hheld : ∀ (t : State) (code body : Nat), (t.emitHeld code body).rd a = t.rd a := fun _ _ _ => rfl
  change (s.loadOptions inj).rd a = s.rd a
  unfold State.loadOptions
  dsimp only
  split <;> split <;> simp (disch := decide) only [hheld, rd_set_of_not_listed ha, hwr, put_eq_set]

theorem deviceReset_rd (s : State) {cause a : Nat} (hlost : resetKeeps cause a = false) (hrecord : a ∉ resetRecords)
    (hoption : a ∉ optionWords) : (s.deviceReset cause).rd a = resetWord a := by
  unfold State.deviceReset
  dsimp only
  split
  · exact clearDevice_rd s hlost hrecord
  · rw [startSequence_rd _ _ hoption, clearDevice_rd s hlost hrecord]

/-- The words that hold FROZEN and the power state are cleared by every device reset. -/
theorem resetKeeps_status (cause : Nat) : ∀ a ∈ [COX_STATUS, PWR_STATUS], resetKeeps cause a = false := by
  unfold resetKeeps
  cases cause != 1 <;> decide +kernel

theorem frozen_of_resetWord {t : State} (h : t.rd COX_STATUS = resetWord COX_STATUS) : t.frozen = false :=
  (frozen_of_rd (s := State.reset) h).trans (by decide +kernel)

theorem deviceReset_frozen (s : State) (cause : Nat) : (s.deviceReset cause).frozen = false :=
  frozen_of_resetWord (deviceReset_rd s (resetKeeps_status cause _ (by decide)) (by decide) (by decide))

/-! ### A finding at power-on (R403, R507) -/

theorem power_of_rd {s t : State} (h : t.rd PWR_STATUS = s.rd PWR_STATUS) : t.power = s.power :=
  get_of_word (f := PWR_STATUS_STATE) rfl h

/-- The words that a finding writes beside those of the recorder and of its record: COX_FAULT_INFO and GLB_FAULT. -/
def findingWords : List Nat := [COX_FAULT_INFO, COX_FAULT_INFO + 4, GLB_FAULT]

/-- A finding of a monitor does not write the word, nor does the recorder that it may trigger, nor its record. -/
def apartFromFindings (a : Nat) : Bool := !findingWords.contains a && !recordWord a && !eventReg a

section
variable (s : State) {a : Nat}

theorem captureFault_rd (code : Nat) (ha : a ∉ findingWords) : (s.captureFault code).rd a = s.rd a := by
  unfold State.captureFault
  split <;> simp (disch := decide) only [rd_set_of_not_listed ha]

theorem recFaultTrigger_rd (hrec : recordWord a = false) (hev : eventReg a = false) : s.recFaultTrigger.rd a = s.rd a := by
  unfold State.recFaultTrigger
  split
  · obtain ⟨u, hrecorder, hrecords⟩ := recTrigger_ends s 2
    rw [hrecords.regs a List.not_mem_nil hev, hrecorder.regs a hrec]
  · rfl

/-- Outside a sleep entry a fault bit aborts none (R472). -/
theorem faultInEntry_of_no_entry (h : s.power ≠ 3) : s.faultInEntry = s := if_pos (.inl h)

theorem setFaultBit_rd {f : Fld} (hf : f.words = [GLB_FAULT]) (ha : a ∉ findingWords) : (s.setFaultBit f).rd a = s.rd a := by
  have hout : a ∉ f.words := fun hm => ha (by rw [hf, List.mem_singleton] at hm; simp [hm, findingWords])
  rw [State.setFaultBit, holdFaultN_rd, rd_set_ne _ _ _ hout]

end

section
variable {s : State} (hpower : s.power ≠ 3)
include hpower

theorem faultBit_rd {f : Fld} (hf : f.words = [GLB_FAULT]) {a : Nat} (ha : a ∉ findingWords) (hrec : recordWord a = false)
    (hev : eventReg a = false) : (s.faultBit f).rd a = s.rd a := by
  have hshown : (s.setFaultBit f).recFaultTrigger.power = s.power := power_of_rd <| by
    rw [recFaultTrigger_rd _ (by decide) (by decide), setFaultBit_rd _ hf (by decide)]
  unfold State.faultBit
  split
  · exact setFaultBit_rd s hf ha
  · rw [faultInEntry_of_no_entry _ (hshown ▸ hpower), recFaultTrigger_rd _ hrec hev, setFaultBit_rd _ hf ha]

/-- Outside a sleep entry the finding of a monitor leaves every other word. -/
theorem monitorFinding_rd (code : Nat) {f : Fld} (hf : f.words = [GLB_FAULT]) (event : Nat) (persists : Bool) {a : Nat}
    (ha : apartFromFindings a = true) : (s.monitorFinding code f event persists).rd a = s.rd a := by
  simp only [apartFromFindings, Bool.and_eq_true, Bool.not_eq_true', List.contains_eq_mem, decide_eq_false_iff_not] at ha
  obtain ⟨⟨hout, hrec⟩, hev⟩ := ha
  set captured := (s.keepCause code persists).captureFault code
  have hcaptured : ∀ {b}, b ∉ findingWords → captured.rd b = s.rd b := fun hb => captureFault_rd _ code hb
  have hawake : captured.power ≠ 3 := power_of_rd (hcaptured (by decide : PWR_STATUS ∉ findingWords)) ▸ hpower
  have hrecords := emit_records (captured.faultBit f) event 0 (args code)
  change ((captured.faultBit f).emit event 0 (args code)).rd a = s.rd a
  rw [hrecords.regs a List.not_mem_nil hev, faultBit_rd hawake hf hout hrec hev, hcaptured hout]

theorem bankFound_rd (rail : Nat) (v : BankVolt) {a : Nat} (ha : apartFromFindings a = true) :
    (s.bankFound rail v).rd a = s.rd a := by
  unfold State.bankFound
  split
  · exact monitorFinding_rd hpower _ rfl _ _ ha
  · rfl

end

/-- FROZEN is clear after a power-on, whatever the banks of outputs are found at (R507). -/
theorem powerOn_frozen_row (s : State) (edge time : BankVolt) : ∃ t, exec (.powerOn edge time) s = .next t ∧ t.frozen = false := by
  refine ⟨_, rfl, frozen_of_resetWord ?_⟩
  dsimp only
  set started := State.startSequence _ none
  have hstarted : ∀ a ∈ [COX_STATUS, PWR_STATUS], started.rd a = resetWord a := fun a ha => by
    rw [startSequence_rd _ _ ((by decide : ∀ b ∈ [COX_STATUS, PWR_STATUS], b ∉ optionWords) a ha)]
    exact clearDevice_rd s (resetKeeps_status 1 a ha) ((by decide : ∀ b ∈ [COX_STATUS, PWR_STATUS], b ∉ resetRecords) a ha)
  have hawake : started.power ≠ 3 := by
    rw [power_of_rd (s := State.reset) (hstarted PWR_STATUS (by decide))]
    decide +kernel
  have hpower : (started.bankFound 11 edge).power ≠ 3 := by
    rwa [power_of_rd (bankFound_rd hawake 11 edge (by decide))]
  rw [bankFound_rd hpower 12 time (by decide), bankFound_rd hawake 11 edge (by decide), hstarted _ (by decide)]

/-! ### DEVICE_RESET of the device (R491) -/

section
variable (s : State)

theorem hostWr_rst (a n v : Nat) : (s.hostWr a n v).rst = s.rst := (congrArg State.rst (hostPut_rest (leBytes n v) s a) :)

theorem emit_rst (code source body : Nat) : (s.emit code source body).rst = s.rst :=
  (congrArg State.rst (emit_records s code source body).rest :)

theorem writeBack_rst (status result : Nat) : (s.writeBack status result).rst = s.rst := by
  unfold State.writeBack
  split
  · rw [hostWr_rst]
    exact hostWr_rst s _ _ _
  · rfl

theorem sendHfp_rst (m : HfpMsg) : (s.sendHfp m).rst = s.rst := by
  have henters : ∀ (t : State) port bytes tag direct, (t.internalIn port bytes tag direct).rst = t.rst :=
    fun t port bytes tag direct => (congrArg State.rst (internalIn_rest t port bytes tag direct) :)
  unfold State.sendHfp State.sendHfpOn
  split
  · split
    · rfl
    · rw [henters, State.inc_rst]
  · exact State.inc_rst s _

/-- The end of a command leaves the reset unit. -/
theorem complete_rst (src : CmdSrc) (d : Desc) (cut : Bool) (status result : Nat) :
    (s.complete src d cut status result).rst = s.rst := by
  have hdone : ∀ (b : Bool) (t : State) (body : Nat), (if b then t.emit 0x0001 0 body else t).rst = t.rst := by
    intro b t body
    cases b
    · rfl
    · exact emit_rst t _ _ _
  refine (hdone _ _ _).trans ?_
  cases src with
  | localRing =>
    cases cut
    · exact writeBack_rst s status result
    · rfl
  | hfp => exact sendHfp_rst s _

end

/-- A command that is taken and ends at once completes with its status and RESULT. -/
theorem runCmd_of_done {s u : State} {src : CmdSrc} {d : Desc} {argsOk frz : Bool} {st : List Nat} {body : State → CmdOut}
    {status result : Nat} (htakes : s.takesCommand d st frz) (hargs : argsOk = true) (hbody : body s.stopIdle = .done u status result) :
    s.runCmd src d argsOk st frz body = u.complete src d false status result := by
  obtain ⟨hidle, hheader, hpower, hfrozen⟩ := htakes
  have hpower' : st.contains s.stopIdle.power = true := hpower
  have hfrozen' : (frz && s.stopIdle.frozen) = false := hfrozen
  simp only [State.runCmd, hidle, hheader, hargs, hpower', hfrozen', hbody, Bool.and_self, Bool.not_true, Bool.false_eq_true, if_false]

/-- DEVICE_RESET of the device resets it once the command has completed. -/
theorem exec_deviceReset_of_device {s : State} {src : CmdSrc} {d : Desc} (htakes : s.takesCommand d [0, 1, 2] false)
    (hargs : deviceResetArgs d = true) (hscope : descBits d 16 8 = 0) (hkeeps : descBits d 19 8 = 0)
    (hmay : src.remote = false ∨ s.peerHasAuthority src.peerByte = true) :
    ∃ u : State, exec (.deviceReset src d) s = .next (u.deviceReset 4) := by
  have hkeeps' : descBits d 19 1 ≠ 1 := by
    simp only [descBits, bits] at hkeeps ⊢
    omega
  have hauthority : (src.remote && !s.stopIdle.peerHasAuthority src.peerByte) = false := by
    change (src.remote && !s.peerHasAuthority src.peerByte) = false
    rcases hmay with h | h <;> simp [h]
  set asked : State := { s.stopIdle with rst := { s.stopIdle.rst with asked := true } }
  have hasked : (asked.complete src d false 0 0).rst.asked = true := by rw [complete_rst]
  refine ⟨{ asked.complete src d false 0 0 with rst := { (asked.complete src d false 0 0).rst with asked := false } }, ?_⟩
  change execDeviceReset src d s = _
  unfold execDeviceReset
  dsimp only
  rw [runCmd_of_done (u := asked) (status := 0) (result := 0) htakes hargs, if_pos hasked]
  simp [hscope, hkeeps', hauthority, asked]

/-! ### The other resets (R484, R497) -/

section
variable {s : State}

theorem exec_brownout_of_on (rails : List (Fin 16)) (hoff : s.rst.off = false) : exec (.brownout rails) s =
    .next { s.deviceReset 2 with
      pins := { (s.deviceReset 2).pins with railsOut := (s.deviceReset 2).pins.railsOut ++ rails.map (·.val) } } := by
  change execBrownout s rails = _
  simp [execBrownout, hoff]

theorem exec_resetPin_of_on (hoff : s.rst.off = false) : exec .resetPin s = .next (s.deviceReset 3) := by
  change execResetPin s = _
  simp [execResetPin, hoff]

theorem exec_thermal_of_on (hoff : s.rst.off = false) : exec .thermal s = .next (s.deviceReset 6) := by
  change execThermal s = _
  simp [execThermal, hoff]

theorem exec_jtagReset_of_granted (halive : s.alive = true) (hallowed : s.debugAllowed = true) (hdebug : s.up .debug = true) :
    exec .jtagReset s = .next (s.deviceReset 7) := by
  change execJtagReset s = _
  simp [execJtagReset, halive, hallowed, hdebug]

theorem exec_startTimeout_of_open (halive : s.alive = true) (hopen : s.on RST_START_START_OPEN = true) (hpower : s.power ≠ 2) :
    exec .startTimeout s = .next (s.deviceReset 8) := by
  change execStartTimeout s = _
  simp [execStartTimeout, halive, hopen, hpower]

theorem powerLoss_frozen_row (s : State) : ∃ t, exec .powerLoss s = .next t ∧ t.frozen = false := by
  have hword := clearDevice_rd s (resetKeeps_status 1 COX_STATUS (by decide)) (by decide)
  exact ⟨{ s.clearDevice 1 with rst := { (s.clearDevice 1).rst with off := true, hold := [] } }, rfl, frozen_of_resetWord hword⟩

end

/-- Settles O45: UNFREEZE ends in a cleared FROZEN or in an access error, as `State.mayUnfreeze` has it; a device reset returns
COX_STATUS to its reset value, and what a power-on finds of its rails does not touch it. -/
theorem unfreezeFollowsItsConditions : Obligations.UnfreezeFollowsItsConditions := by
  unfold Obligations.UnfreezeFollowsItsConditions
  refine ⟨fun s who hwho hturned hfree hup hpending hfault hhalted => ?granted,
    fun s who hwho hturned hfree hup hno => ?refused, powerOn_frozen_row, fun s rails hoff => ?brownout,
    fun s hoff => ?resetPin, fun s hoff => ?thermal, fun s halive hallowed hdebug => ?jtagReset,
    fun s halive hopen hpower => ?startTimeout, fun s src d htakes hargs hscope hkeeps hmay _ => ?deviceReset, powerLoss_frozen_row⟩
  case granted =>
    exact unfreeze_granted_row hwho hturned hfree hup (by simp [State.mayUnfreeze, hpending, hfault, hhalted])
  case refused =>
    refine unfreeze_refused_row hwho hturned hfree hup ?_
    rcases hno with h | h | h <;> simp [State.mayUnfreeze, h]
  case brownout => exact ⟨_, exec_brownout_of_on rails hoff, (frozen_of_pins _ _).trans (deviceReset_frozen s 2)⟩
  case resetPin => exact ⟨_, exec_resetPin_of_on hoff, deviceReset_frozen s 3⟩
  case thermal => exact ⟨_, exec_thermal_of_on hoff, deviceReset_frozen s 6⟩
  case jtagReset => exact ⟨_, exec_jtagReset_of_granted halive hallowed hdebug, deviceReset_frozen s 7⟩
  case startTimeout => exact ⟨_, exec_startTimeout_of_open halive hopen hpower, deviceReset_frozen s 8⟩
  case deviceReset =>
    obtain ⟨u, hu⟩ := exec_deviceReset_of_device htakes hargs hscope hkeeps hmay
    exact ⟨_, hu, deviceReset_frozen u 4⟩

end Sys2Proof.Machine
end

section
/-! PROOFS, families 13_keys_macsec_attestation, 14_firmware_update, 15_power_and_wake and 16_reset_options_logbook: a statement of each
fails on a refused command that writes three event records (O35, O37, O39, O41). -/
namespace Sys2Proof.Machine
set_option Elab.async false

/-! ### A refused command with the remote event queue full (O35, O37, O39, O41)

A command that its state refuses raises STATE_REFUSED, and CMD_DONE follows at its end where EVT = 1 (R379, R384). Where the first record
finds the remote event queue full, REVQ_OVERFLOW comes between the two (R356, `State.emit`), so that three records reach the event ring.
Each of these statements has a clause on a refused command that allows two (`HostKeptR`). -/

/-- The row writes host memory at 128, where the third slot of the event ring of `parityHit` begins. -/
def writesThirdSlot (c : Instr) (s : State) : Bool :=
  match exec c s with
  | .next t => t.hostByte 128 != s.hostByte 128
  | _ => false

/-- A third record lies outside what two records and the end of a command may write. -/
theorem not_hostKeptR_of_writesThirdSlot {c : Instr} {s t : State} (hthird : writesThirdSlot c s = true)
    (hout : s.replyArea 2 128 = false) (ht : exec c s = .next t) : ¬ HostKeptR 0 0 s t := by
  rw [writesThirdSlot, ht] at hthird
  exact fun hkept => (bne_iff_ne.mp hthird) (hkept 128 (by decide) hout)

theorem replyArea_parityHit_third_slot : parityHit.replyArea 2 128 = false := by decide +kernel

/-! KEY_GENERATE while the key unit is not ready (R422) -/

/-- KEY_GENERATE (opcode 0x30) of an AES-256 key for encryption in slot 1, with EVT = 1. -/
def generateSlot1 : Desc := 0x130 + 2 ^ 128

theorem keyGenerate_parityHit_premises :
    parityHit.takesCommand generateSlot1 [0, 1] false ∧ descBits generateSlot1 16 8 ≠ 0 ∧ descBits generateSlot1 17 8 ≤ 2 ∧
      pairOk (descBits generateSlot1 17 8) (descBits generateSlot1 18 8) = true ∧ descBits generateSlot1 19 8 ≤ 1 ∧
        descZero generateSlot1 24 64 = true ∧
          (parityHit.keyRefused (some (descBits generateSlot1 16 8)) true true).isSome = true := by
  decide +kernel

theorem keyGenerate_parityHit_writesThirdSlot : writesThirdSlot (.keyGenerate .localRing generateSlot1) parityHit = true := by
  decide +kernel

/-- Refutes O35: a KEY_GENERATE that is refused can write three event records. -/
theorem not_keySlots : ¬ Obligations.KeySlots := by
  unfold Obligations.KeySlots
  rintro ⟨-, hrefused, -⟩
  obtain ⟨htakes, hslot, htype, hpair, hexport, hzero, hno⟩ := keyGenerate_parityHit_premises
  obtain ⟨t, ht, -, -, -, hhost⟩ := hrefused parityHit .localRing generateSlot1 htakes hslot htype hpair hexport hzero hno
  exact not_hostKeptR_of_writesThirdSlot keyGenerate_parityHit_writesThirdSlot replyArea_parityHit_third_slot ht hhost

/-! UPD_VERIFY with no update loaded (R453) -/

/-- UPD_VERIFY (opcode 0x41) with EVT = 1. -/
def verifyUpdate : Desc := 0x141

theorem updVerify_parityHit_premises :
    parityHit.takesCommand verifyUpdate [0, 1, 2] false ∧ descBits verifyUpdate 20 32 < 2 ∧ descZero verifyUpdate 24 64 = true ∧
      parityHit.updLive ≠ 1 := by
  decide +kernel

theorem updVerify_parityHit_writesThirdSlot : writesThirdSlot (.updVerify .localRing verifyUpdate) parityHit = true := by
  decide +kernel

/-- Refutes O37: an UPD_VERIFY that is refused can write three event records. -/
theorem not_updateWriting : ¬ Obligations.UpdateWriting := by
  unfold Obligations.UpdateWriting
  rintro ⟨-, -, -, hrefused, -⟩
  obtain ⟨htakes, hflags, hzero, hstate⟩ := updVerify_parityHit_premises
  obtain ⟨t, ht, -, -, -, hhost⟩ := hrefused parityHit .localRing verifyUpdate htakes hflags hzero hstate
  exact not_hostKeptR_of_writesThirdSlot updVerify_parityHit_writesThirdSlot replyArea_parityHit_third_slot ht hhost

/-! POWER_STATE for the present state (R464) -/

/-- POWER_STATE (opcode 0x48) for Active, with EVT = 1. -/
def askActive : Desc := 0x148

theorem powerState_parityHit_premises :
    parityHit.takesCommand askActive [0, 1] false ∧ descBits askActive 16 8 = 0 ∧ descZero askActive 17 64 = true ∧
      (parityHit.powerRefused (descBits askActive 16 8)).isSome = true ∧ parityHit.pwr.goal = none := by
  decide +kernel

theorem powerState_parityHit_writesThirdSlot : writesThirdSlot (.powerState .localRing askActive) parityHit = true := by
  decide +kernel

/-- Refutes O39: a POWER_STATE that is refused can write three event records. -/
theorem not_powerRequests : ¬ Obligations.PowerRequests := by
  unfold Obligations.PowerRequests
  rintro ⟨-, -, hrefused, -⟩
  obtain ⟨htakes, htarget, hzero, hno, hgoal⟩ := powerState_parityHit_premises
  obtain ⟨t, ht, -, -, -, hhost⟩ := hrefused parityHit .localRing askActive htakes (.inl htarget) hzero hno hgoal
  exact not_hostKeptR_of_writesThirdSlot powerState_parityHit_writesThirdSlot replyArea_parityHit_third_slot ht hhost

/-! DEVICE_RESET of an island in Boathouse (R491) -/

/-- DEVICE_RESET (opcode 0x51) of the Fabric island, with EVT = 1 and the word that guards it. -/
def resetFabric : Desc := 0x151 + 2 ^ 128 + 0x52535421 * 2 ^ 160

/-- The device of `parityHit`, whose event ring runs and whose remote event queue is full, is in Boathouse. -/
def boathouseQueueFull : State := parityHit.set PWR_STATUS_STATE 2

theorem deviceReset_boathouseQueueFull_premises :
    boathouseQueueFull.takesCommand resetFabric [0, 1, 2] false ∧ deviceResetArgs resetFabric = true ∧
      descBits resetFabric 16 8 = 1 ∧ boathouseQueueFull.power = 2 ∧ boathouseQueueFull.rst.asked = false := by
  decide +kernel

theorem deviceReset_boathouseQueueFull_writesThirdSlot :
    writesThirdSlot (.deviceReset .localRing resetFabric) boathouseQueueFull = true := by
  decide +kernel

theorem replyArea_boathouseQueueFull_third_slot : boathouseQueueFull.replyArea 2 128 = false := by decide +kernel

/-- Refutes O41: a DEVICE_RESET of an island that Boathouse refuses can write three event records. -/
theorem not_deviceResets : ¬ Obligations.DeviceResets := by
  unfold Obligations.DeviceResets
  rintro ⟨-, -, -, -, -, -, -, -, -, -, -, -, hrefused, -⟩
  obtain ⟨htakes, hargs, hscope, hpower, hasked⟩ := deviceReset_boathouseQueueFull_premises
  obtain ⟨t, ht, -, -, -, hhost⟩ := hrefused boathouseQueueFull .localRing resetFabric htakes hargs hscope hpower hasked
  exact not_hostKeptR_of_writesThirdSlot deviceReset_boathouseQueueFull_writesThirdSlot replyArea_boathouseQueueFull_third_slot
    ht hhost

end Sys2Proof.Machine
end
